-- ==== Sys2Proof/Word.lean ====
section
/-!
DEFINITION. The word types of the block: a byte, and the sparse table in which the wide
register files, buffers and contexts of the part are held (plain data in one canonical form).
-/
namespace Sys2Proof

/-- A byte of a payload, a buffer or a string (R4, R45). -/
abbrev Byte := BitVec 8

/-- A sparse table: (key, value) cells with strictly rising keys, none of which holds the value an
unlisted key reads as. Which value that is belongs to the table and is named where it is read. -/
abbrev Tbl (α : Type) := List (Nat × α)

end Sys2Proof
end

