-- ==== Sys2Proof/Syntax.lean ====
section
/-!
DEFINITION. The commands of the block: one constructor per row of spec/opcode_table.json, with the operands
that its requirement names, and the decoded forms of what the part receives (packets, control flit bodies, probes).
-/
namespace Sys2Proof

/-- A packet: the fields of the data header (R140) or of the compact header (R142), the operation header as
64-bit words (R138), the payload, the ICRC as carried (R144), and whether its EOP flit was marked BAD (R102). -/
structure Packet where
  hv : Nat := 1
  pcls : Nat := 1
  vc : Nat := 0
  epoch : Nat := 0
  ord : Bool := false
  mc : Bool := false
  ce : Bool := false
  nmin : Bool := false
  intg : Nat := 0
  dfna : Nat := 0
  sfna : Nat := 0
  dep : Nat := 0
  sep : Nat := 0
  opc : Nat := 0
  psn : Nat := 0
  len : Nat := 0
  fhash : Nat := 0
  age : Nat := 0
  tag : Bool := false
  priv : Bool := false
  peerctx : Nat := 0
  oph : List Nat := []
  payload : List Byte := []
  icrc : Nat := 0
  bad : Bool := false
deriving DecidableEq, Repr

/-- A time probe's body (R122). Times are 24 bits of stitch count followed by 16 bits of phase. -/
structure TimeProbe where
  mstitch : Nat := 0
  t2 : Nat := 0
  t3 : Nat := 0
  tstate : Nat := 0
  master : Bool := false
  errEst : Int := 0
  hops : Nat := 255
  masterFna : Nat := 0x3FFFF
  gen : Nat := 0
  mstamp : Nat := 0
deriving DecidableEq, Repr

/-- An ACKCR's body (R120); freed holds the counts of VC0 to VC7. -/
structure Ackcr where
  ne : Nat := 0
  nak : Bool := false
  nakId : Nat := 0
  freed : List Nat := [0, 0, 0, 0, 0, 0, 0, 0]
  freedBp : Nat := 0
deriving DecidableEq, Repr

/-- A CREDIT_SYNC's body (R125). -/
structure CreditSync where
  num : Nat := 0
  sent : List Nat := [0, 0, 0, 0, 0, 0, 0, 0]
deriving DecidableEq, Repr

/-- An INIT's body (R126). -/
structure InitBody where
  step : Nat := 0
  fna : Nat := 0
  port : Nat := 0
  limit : List Nat := [0, 0, 0, 0, 0, 0, 0, 0]
  bpLimit : Nat := 16
  version : Nat := 1
deriving DecidableEq, Repr

/-- A record of a CONG_HINT (R123). -/
structure HintRec where
  origin : Nat := 0
  toGroup : Nat := 0
  level : Nat := 0
  stamp : Nat := 0
deriving DecidableEq, Repr

/-- A record of a LAST_SIGNAL (R124). -/
structure SigRec where
  label : Nat := 0
  event : Nat := 0
  stitch : Nat := 0
deriving DecidableEq, Repr

/-- A memory error that the part meets in a stitch and that has no row of its own (R187, R227, R354, R383, R401). -/
inductive MemError where
  /-- A single-bit error in a buffer of a port, or in the anchored store: corrected (R187). -/
  | corrected (port : Option Nat)
  /-- An uncorrectable error on a flit of a held packet, named by its number: in its input buffer or in the anchored store (R187, R201). -/
  | storedFlit (pkt : Nat)
  /-- An uncorrectable error on a flit of a held packet in the staging buffer of an output (R187). -/
  | stagedFlit (pkt out : Nat)
  /-- An uncorrectable error on a chunk in a last buffer: the n-th that waits for the entry of an input and an index (R227). -/
  | lastBuffer (port index n : Nat)
  /-- A parity error in the cached translation of an address of a segment (R354). -/
  | transCache (seg va : Nat)
  /-- An uncorrectable error in an entry of an endpoint's matching (R383). -/
  | matchEntry (ep : Nat)
  /-- An uncorrectable error in the buffer of a row's block (R401). -/
  | collBuffer (row bnum : Nat)
deriving DecidableEq, Repr

/-- What the block's surroundings give a stitch: the core rail in mV (R468), per fabric port the line
block times by which its line ran ahead of the stitch (R77), in millionths of a block time, and, for the stitch that ends, its memory errors and the
bit errors that the pattern checker of a lane counted (R91). -/
structure TickEnv where
  railMv : Nat := 750
  drift : List (Nat × Int) := []
  errors : List MemError := []
  patternErrors : List (Nat × Nat) := []
deriving DecidableEq, Repr

/-- How the PEC of a sideband request stood (R66). -/
inductive PecCheck where
  | absent | good | bad
deriving DecidableEq, Repr

/-- Where a semaphore operation comes from (R421): a write to SEM_OP of the page of a function's agent, the
request at the head of the M port, or the firmware of a cobbler core. -/
inductive SemSource where
  | page (func agent word : Nat)
  | mport
  | core (core agent prio sem : Nat)
deriving DecidableEq, Repr


/-- The JTAG instructions of R553; every other opcode selects BYPASS. -/
inductive JtagInstr where
  | bypass | idcode | samplePreload | extest | clamp | highz | extestPulse | extestTrain | other (opcode : Nat)
deriving DecidableEq, Repr


/-- How a module's training or retraining ends (R243, R244): at full width, on one half, without success, or with neither half whole. -/
inductive TrainEnd where
  | x64 | x32 | failed | noHalf
deriving DecidableEq, Repr

/-- The snoops of R247. -/
inductive Snoop where
  | snpData | snpInv | snpCur
deriving DecidableEq, Repr
/-- The commands. -/
inductive Instr where
  /-- STITCH_BOUNDARY (R31). -/
  | stitchBoundary (env : TickEnv)
  /-- COBBLER_SLICE_END (R40). -/
  | cobblerSliceEnd (slice cycles : Nat) (done : Bool)
  /-- TIME_PROBE_RECEIVE (R22). -/
  | timeProbeReceive (port n t1 t4 : Nat) (probe : TimeProbe)
  /-- STANDBY_TAKEOVER (R18). -/
  | standbyTakeover
  /-- TIME_NO_SYNC_LIMIT (R25). -/
  | timeNoSyncLimit
  /-- TIME_ACQUIRE_SLOW (R25). -/
  | timeAcquireSlow
  /-- TIME_ROLE_MASTER (R20). -/
  | timeRoleMaster
  /-- TIME_ROLE_FOLLOWER (R20). -/
  | timeRoleFollower
  /-- TIME_ROLE_STANDBY (R20). -/
  | timeRoleStandby
  /-- TIME_IN_EDGE (R27). -/
  | timeInEdge (residue missNs : Nat)
  /-- TIME_IN_LOST (R27). -/
  | timeInLost
  /-- TIME_ACTIONS_WRITE (R33). -/
  | timeActionsWrite (row value : Nat)
  /-- DICT_READ (R49). -/
  | dictRead
  /-- DICT_WRITE (R49). -/
  | dictWrite
  /-- DICT_DESCRIBE (R51). -/
  | dictDescribe
  /-- DICT_ECHO (R49). -/
  | dictEcho
  /-- READ_SERVE (R57). -/
  | readServe
  /-- WRITE_APPLY (R56). -/
  | writeApply
  /-- PERSIST_COPY (R58). -/
  | persistCopy (ok : Bool)
  /-- MBX_DOORBELL (R61). -/
  | mbxDoorbell (bytes : Nat)
  /-- MBX_RESP_DONE (R61). -/
  | mbxRespDone (value : Nat)
  /-- MGMT_REQUEST_PACKET (R62). -/
  | mgmtRequestPacket
  /-- DUP_FILTER_EXPIRY (R64). -/
  | dupFilterExpiry
  /-- MGMT_ENTRY (R65). -/
  | mgmtEntry (queue : Nat)
  /-- MGMT_RESPONSE_PACKET (R65). -/
  | mgmtResponsePacket (port : Nat)
  /-- MGMT_SLOT_TIMEOUT (R65). -/
  | mgmtSlotTimeout (slot : Nat)
  /-- SB_REQUEST_WRITE (R66). -/
  | sbRequestWrite (bytes : List Byte) (byteCount : Nat) (pec : PecCheck)
  /-- SB_RESPONSE_READ (R66). -/
  | sbResponseRead
  /-- SB_STATUS_READ (R66). -/
  | sbStatusRead
  /-- SB_RESET_BYTE (R66). -/
  | sbResetByte (value : Nat)
  /-- SB_DYNAMIC_ADDRESS (R66). -/
  | sbDynamicAddress (address : Nat)
  /-- CTL_M_INBAND_ENABLE_WRITE (R68). -/
  | ctlMInbandEnableWrite (value : Nat)
  /-- CTL_M_RESET_WRITE (R69). -/
  | ctlMResetWrite (value : Nat)
  /-- M_IDLE_RESET_EXPIRY (R69). -/
  | mIdleResetExpiry
  /-- M_PORT_RESET (R69). -/
  | mPortReset
  /-- SIGNAL_DETECT (R87). -/
  | signalDetect (port : Nat)
  /-- SIGNAL_LOST (R87). -/
  | signalLost (port : Nat)
  /-- LANE_ADAPT_DONE (R87). -/
  | laneAdaptDone (port eye : Nat)
  /-- BLOCK_RECEIVE (R74). -/
  | blockReceive (lane header payload : Nat)
  /-- TRAINING_BLOCK_RECEIVE (R88). -/
  | trainingBlockReceive (lane payload : Nat) (inverted : Bool)
  /-- CODEWORD_RECEIVE (R83). -/
  | codewordReceive (port : Nat) (symbols : List Nat)
  /-- MARKER_RECEIVE (R78). -/
  | markerReceive (port payload pace : Nat) (spoiled : Bool)
  /-- LANE_BRINGUP_TIMEOUT (R89). -/
  | laneBringupTimeout (port : Nat)
  /-- LANE_FAILED_RETRY (R87). -/
  | laneFailedRetry (port : Nat)
  /-- LANE_ENABLE_WRITE (R87). -/
  | laneEnableWrite (port value : Nat)
  /-- LANE_FEC_RX_MODE_WRITE (R84). -/
  | laneFecRxModeWrite (port value : Nat)
  /-- LANE_LOOPBACK_WRITE (R90). -/
  | laneLoopbackWrite (port value : Nat)
  /-- LANE_PATTERN_WRITE (R91). -/
  | lanePatternWrite (port value : Nat)
  /-- EYE_SCAN_GO (R92). -/
  | eyeScanGo (lane value : Nat)
  /-- EYE_SCAN_DONE (R94). -/
  | eyeScanDone (lane errors : Nat)
  /-- REST_IDLE_TIMER_EXPIRY (R481). -/
  | restIdleTimerExpiry (port : Nat)
  /-- REST_ENTER (R95). -/
  | restEnter (port : Nat)
  /-- REST_WAKE (R96). -/
  | restWake (port : Nat)
  /-- PWR_WAKE_PORT_WRITE (R481). -/
  | pwrWakePortWrite (port value : Nat)
  /-- WAKE_TIMEOUT (R96). -/
  | wakeTimeout (port : Nat)
  /-- FLIT_RECEIVE (R103). -/
  | flitReceive (port pos : Nat) (flit : BitVec 512) (spoiled : Bool)
  /-- ACKCR_TIMER (R107). -/
  | ackcrTimer (port : Nat)
  /-- ACKCR_RECEIVE (R108). -/
  | ackcrReceive (port : Nat) (a : Ackcr)
  /-- REPLAY_RECEIVE (R111). -/
  | replayReceive (port num nakId : Nat)
  /-- NAK_WAIT_TIMEOUT (R109). -/
  | nakWaitTimeout (port : Nat)
  /-- REPLAY_TIMEOUT (R111). -/
  | replayTimeout (port : Nat)
  /-- CREDIT_SYNC_RECEIVE (R116). -/
  | creditSyncReceive (port : Nat) (c : CreditSync)
  /-- INIT_RECEIVE (R131). -/
  | initReceive (port : Nat) (b : InitBody)
  /-- LINK_INIT_SLOW (R131). -/
  | linkInitSlow (port : Nat)
  /-- LINK_ADMIT_WRITE (R129). -/
  | linkAdmitWrite (port value : Nat)
  /-- LINK_REINIT_WRITE (R129). -/
  | linkReinitWrite (port value : Nat)
  /-- CONG_HINT_RECEIVE (R160). -/
  | congHintReceive (port : Nat) (records : List HintRec)
  /-- PACKET_INJECT (R143). -/
  | packetInject (port : Nat)
  /-- PACKET_LOOKUP (R151). -/
  | packetLookup (port : Nat)
  /-- ROUTE_BANK_WRITE (R169). -/
  | routeBankWrite (value : Nat)
  /-- BANK_DRAIN_HORIZON (R172). -/
  | bankDrainHorizon
  /-- OPEN_PACKET_AGE_OUT (R171). -/
  | openPacketAgeOut (out : Nat)
  /-- ARBITER_GRANT (R180). -/
  | arbiterGrant (out : Nat)
  /-- EGRESS_SLOT (R192). -/
  | egressSlot (port slot : Nat)
  /-- ANCHOR_ADMIT (R201). -/
  | anchorAdmit (port : Nat)
  /-- ANCHOR_STALL (R201). -/
  | anchorStall (port : Nat)
  /-- HOST_DELIVER (R189). -/
  | hostDeliver (out : Nat)
  /-- CUP_INBAND_SEND (R207). -/
  | cupInbandSend
  /-- CUP_PACKET_DELIVER (R207). -/
  | cupPacketDeliver (hp : Nat)
  /-- CUP_RING_BASE_WRITE (R206). -/
  | cupRingBaseWrite (order : Bool) (value : Nat)
  /-- LAST_ENTRY_OPEN (R222). -/
  | lastEntryOpen (port index value : Nat)
  /-- LAST_ENTRY_CLOSE (R222). -/
  | lastEntryClose (port index value : Nat)
  /-- LAST_ARM_CHECK (R221). -/
  | lastArmCheck (port index : Nat)
  /-- LASTED_FLIT_RECEIVE (R225). -/
  | lastedFlitReceive (port pos tag data : Nat) (bad : Bool)
  /-- LAST_SIGNAL_RECEIVE (R233). -/
  | lastSignalReceive (port : Nat) (records : List SigRec)
  /-- WRAP_TIMER (R231). -/
  | wrapTimer (port index : Nat)
  /-- WRAP_DELIVER (R232). -/
  | wrapDeliver (hp : Nat)
  /-- LAST_RING_PRODUCER_WRITE (R235). -/
  | lastRingProducerWrite (ring value : Nat)
  /-- LAST_RING_CONSUMER_WRITE (R237). -/
  | lastRingConsumerWrite (ring value : Nat)
  /-- MODULE_TRAIN_START (R244). -/
  | moduleTrainStart (m : Nat)
  /-- MODULE_TRAIN_DONE (R244). -/
  | moduleTrainDone (m : Nat) (result : TrainEnd) (repaired : Nat)
  /-- MODULE_RETRAIN (R244). -/
  | moduleRetrain (m : Nat)
  /-- MODULE_RETRAIN_DONE (R244). -/
  | moduleRetrainDone (m : Nat) (result : TrainEnd) (repaired : Nat)
  /-- MODULE_RETRAIN_TIMEOUT (R244). -/
  | moduleRetrainTimeout (m : Nat)
  /-- MODULE_FAILED_RETRY (R244). -/
  | moduleFailedRetry (m : Nat)
  /-- ATTACH_MODULE_ENABLE_WRITE (R244). -/
  | attachModuleEnableWrite (m value : Nat)
  /-- SNOOP_RECEIVE (R249). -/
  | snoopReceive (line : Nat) (kind : Snoop)
  /-- WATCH_REFETCH_DONE (R252). -/
  | watchRefetchDone (tag : Nat) (data : List Byte) (bad : Bool)
  /-- HOST_READ_COMPLETE (R248). -/
  | hostReadComplete (tag : Nat) (data : List Byte) (bad : Bool)
  /-- HOST_WRITE_OBSERVED (R250). -/
  | hostWriteObserved (tag : Nat)
  /-- FUNCTION_RESET_REQUEST (R256). -/
  | functionResetRequest (func : Nat)
  /-- FUNCTION_RESET_COMPLETE (R256). -/
  | functionResetComplete (func : Nat)
  /-- FUNCTION_RESET_SLOW (R256). -/
  | functionResetSlow (func : Nat)
  /-- VF_ENABLE_WRITE (R253). -/
  | vfEnableWrite (enable num : Nat)
  /-- MMIO_WRITE (R257). -/
  | mmioWrite (func bar offset : Nat) (data : List Byte)
  /-- STORE_GIVE (R259). -/
  | storeGive
  /-- STORE_RETURN (R259). -/
  | storeReturn
  /-- STORE_RETURN_DONE (R259). -/
  | storeReturnDone
  /-- HOST_DIE_RESET (R261). -/
  | hostDieReset
  /-- CLAIM_READ (R439). -/
  | claimRead (target : Nat)
  /-- CLAIM_COMPLETE (R441). -/
  | claimComplete (target source : Nat)
  /-- CLAIM_PENDSET (R440). -/
  | claimPendset (target source : Nat)
  /-- CLAIM_PRESENT (R438). -/
  | claimPresent
  /-- WQ_PRODUCER_DOORBELL (R283). -/
  | wqProducerDoorbell (func queue value : Nat)
  /-- WQ_INVALIDATE (R288). -/
  | wqInvalidate (func queue : Nat)
  /-- CR_CONSUMER_WRITE (R294). -/
  | crConsumerWrite (func queue value : Nat)
  /-- CR_ARM (R293). -/
  | crArm (func queue value : Nat)
  /-- Q_ENABLE (R274). -/
  | qEnable (func queue value : Nat)
  /-- Q_ENABLE_CHECK (R274). -/
  | qEnableCheck (queue : Nat)
  /-- Q_CONFIG_WRITE (R273). -/
  | qConfigWrite (func queue offset : Nat) (data : List Byte)
  /-- PUSH (R284). -/
  | push (func queue offset : Nat) (data : List Byte)
  /-- ENTRY_CONSUME (R286). -/
  | entryConsume (queue : Nat)
  /-- PHASE_RETRY (R287). -/
  | phaseRetry (queue : Nat)
  /-- CR_FULL_LIMIT (R296). -/
  | crFullLimit (queue : Nat)
  /-- NOP (R282). -/
  | nop (queue : Nat)
  /-- PUT (R302). -/
  | put (queue : Nat)
  /-- GET (R302). -/
  | get (queue : Nat)
  /-- SEND (R365). -/
  | send (queue : Nat)
  /-- ATOMIC (R309). -/
  | atomic (queue : Nat)
  /-- FETCH_ATOMIC (R309). -/
  | fetchAtomic (queue : Nat)
  /-- ATOMIC_128 (R309). -/
  | atomic128 (queue : Nat)
  /-- FETCH_ATOMIC_128 (R309). -/
  | fetchAtomic128 (queue : Nat)
  /-- FENCE (R310). -/
  | fence (queue : Nat)
  /-- SEG_REVOKE (R332). -/
  | segRevoke (queue : Nat)
  /-- REVOKE_DRAIN_DONE (R333). -/
  | revokeDrainDone (seg : Nat)
  /-- REVOKE_SLOW (R332). -/
  | revokeSlow (seg : Nat)
  /-- PEER_CLOSE (R310). -/
  | peerClose (queue : Nat)
  /-- PUT_RECEIVE (R317). -/
  | putReceive (hp : Nat)
  /-- GET_RECEIVE (R317). -/
  | getReceive (hp : Nat)
  /-- ATOMIC_RECEIVE (R309). -/
  | atomicReceive (hp : Nat)
  /-- FETCH_ATOMIC_RECEIVE (R323). -/
  | fetchAtomicReceive (hp : Nat)
  /-- RELEASE_RECEIVE (R366). -/
  | releaseReceive (hp : Nat)
  /-- ACK_RECEIVE (R320). -/
  | ackReceive (hp : Nat)
  /-- ACK_ERROR_RECEIVE (R314). -/
  | ackErrorReceive (hp : Nat)
  /-- ACK_RETRY_LATER_RECEIVE (R329). -/
  | ackRetryLaterReceive (hp : Nat)
  /-- ACK_NO_CONTEXT_RECEIVE (R314). -/
  | ackNoContextReceive (hp : Nat)
  /-- ACK_CLOSE_RECEIVE (R315). -/
  | ackCloseReceive (hp : Nat)
  /-- ACK_RESPONSES_RECEIVE (R323). -/
  | ackResponsesReceive (hp : Nat)
  /-- GET_RESP_RECEIVE (R320). -/
  | getRespReceive (hp : Nat)
  /-- ATOMIC_RESP_RECEIVE (R309). -/
  | atomicRespReceive (hp : Nat)
  /-- RTO_EXPIRY (R321). -/
  | rtoExpiry (sep dfna : Nat)
  /-- BACKOFF_EXPIRY (R329). -/
  | backoffExpiry (sep dfna : Nat)
  /-- ACK_DELAY_TIMER (R319). -/
  | ackDelayTimer (responses : Bool) (node ep : Nat)
  /-- PEER_IDLE_EXPIRY (R314). -/
  | peerIdleExpiry (sep dfna : Nat)
  /-- PEER_CLOSING_END (R314). -/
  | peerClosingEnd (sep dfna : Nat)
  /-- RESP_CACHE_AGE_OUT (R323). -/
  | respCacheAgeOut
  /-- RATE_PERIOD (R330). -/
  | ratePeriod (sep dfna : Nat)
  /-- CONTEXT_FETCH_DONE (R328). -/
  | contextFetchDone (req : Bool) (node ep : Nat) (bad : Bool)
  /-- SEG_REGISTER (R340). -/
  | segRegister (queue : Nat)
  /-- INVAL_RANGE (R354). -/
  | invalRange (queue : Nat)
  /-- INVAL_SEG (R354). -/
  | invalSeg (queue : Nat)
  /-- INVAL_COMPLETE (R355). -/
  | invalComplete (queue : Nat)
  /-- INVAL_SLOW (R355). -/
  | invalSlow (queue : Nat)
  /-- KGATE_SET (R351). -/
  | kgateSet (queue : Nat)
  /-- KGATE_SYNC (R351). -/
  | kgateSync (queue : Nat)
  /-- KGATE_SYNC_COMPLETE (R351). -/
  | kgateSyncComplete (queue : Nat)
  /-- RIGHTS_WORD_WRITE (R350). -/
  | rightsWordWrite (func offset : Nat) (data : List Byte)
  /-- WALK_READ_DONE (R345). -/
  | walkReadDone (tag : Nat) (data : List Byte) (bad : Bool)
  /-- WALK_TIMEOUT (R353). -/
  | walkTimeout (tag : Nat)
  /-- TRANS_DEVICE_REGION_WRITE (R352). -/
  | transDeviceRegionWrite (row value : Nat)
  /-- RECV_POST (R373). -/
  | recvPost (queue : Nat)
  /-- RECV_CANCEL (R382). -/
  | recvCancel (queue : Nat)
  /-- PROBE (R381). -/
  | probe (queue : Nat)
  /-- MPROBE (R381). -/
  | mprobe (queue : Nat)
  /-- MRECV (R381). -/
  | mrecv (queue : Nat)
  /-- SEND_EAGER_RECEIVE (R372). -/
  | sendEagerReceive (hp : Nat)
  /-- SEND_RNDV_RECEIVE (R372). -/
  | sendRndvReceive (hp : Nat)
  /-- SPILL_BATCH_READ (R375). -/
  | spillBatchRead (ep : Nat) (bad : Bool)
  /-- POOL_COPY (R377). -/
  | poolCopy (ep : Nat)
  /-- RNDV_GETS_DONE (R378). -/
  | rndvGetsDone (ep : Nat)
  /-- RNDV_TIMEOUT (R366). -/
  | rndvTimeout (ep : Nat)
  /-- COLL_START (R403). -/
  | collStart (queue : Nat)
  /-- COLL_GROUP_OPEN (R390). -/
  | collGroupOpen (row value : Nat)
  /-- COLL_GROUP_CLOSE (R390). -/
  | collGroupClose (row value : Nat)
  /-- CP_CHUNK_ARRIVE (R397). -/
  | cpChunkArrive
  /-- BLOCK_COMBINE_DONE (R398). -/
  | blockCombineDone (row : Nat)
  /-- RESULT_RECEIVE (R404). -/
  | resultReceive
  /-- PIECE_RECEIVE (R405). -/
  | pieceReceive
  /-- FLOOD_RECEIVE (R412). -/
  | floodReceive
  /-- RESTART_RECEIVE (R414). -/
  | restartReceive
  /-- FLOOD_REPEAT (R411). -/
  | floodRepeat (row : Nat)
  /-- RESTART_WAIT_TIMEOUT (R415). -/
  | restartWaitTimeout (row : Nat)
  /-- COLL_OP_TIMEOUT (R415). -/
  | collOpTimeout (row : Nat)
  /-- SEM_ACQUIRE (R423). -/
  | semAcquire (src : SemSource)
  /-- SEM_TRY (R423). -/
  | semTry (src : SemSource)
  /-- SEM_RELEASE (R423). -/
  | semRelease (src : SemSource)
  /-- SEM_BANK_PERFORM (R420). -/
  | semBankPerform
  /-- EVR_CONSUMER_WRITE (R433). -/
  | evrConsumerWrite (func value : Nat)
  /-- FAULT_LOG_RAISE (R454). -/
  | faultLogRaise
  /-- FAULT_ACK_SLICE (R453). -/
  | faultAckSlice
  /-- FAULT_RECORD_COPY (R457). -/
  | faultRecordCopy (ok : Bool)
  /-- FAULT_N_CLEAR (R458). -/
  | faultNClear (value : Nat)
  /-- FAULT_HISTORY_CLEAR (R459). -/
  | faultHistoryClear (value : Nat)
  /-- FAULT_DEVICE_ISOLATE (R462). -/
  | faultDeviceIsolate (value : Nat)
  /-- FAULT_DEVICE_RELEASE (R462). -/
  | faultDeviceRelease (value : Nat)
  /-- FAULT_PORT_ISOLATE (R460). -/
  | faultPortIsolate (port value : Nat)
  /-- FAULT_INJECT (R466). -/
  | faultInject (value : Nat)
  /-- SUPPLY_WARNING_CROSS (R464). -/
  | supplyWarningCross (mv : Nat)
  /-- HOLD_RESUME (R464). -/
  | holdResume
  /-- SUPPLY_HOLD_LONG (R464). -/
  | supplyHoldLong
  /-- SUPPLY_RESET_CROSS (R465). -/
  | supplyResetCross (mv : Nat)
  /-- POWER_ON (R474). -/
  | powerOn (addrSel : Nat)
  /-- PG_CORE_FALL (R473). -/
  | pgCoreFall
  /-- PG_CORE_RISE (R474). -/
  | pgCoreRise
  /-- PG_SERDES_FALL (R473). -/
  | pgSerdesFall
  /-- PG_SERDES_RISE (R473). -/
  | pgSerdesRise
  /-- PG_UCIE_FALL (R473). -/
  | pgUcieFall
  /-- RESET_N_LOW (R474). -/
  | resetNLow
  /-- COREREF_LOST (R540). -/
  | corerefLost
  /-- THERMAL_TRIP (R550). -/
  | thermalTrip
  /-- PWR_RESET (R554). -/
  | pwrReset (value : Nat) (sideband : Bool) (sfna sep : Nat)
  /-- COMMANDED_RESET_START (R554). -/
  | commandedResetStart
  /-- DEVICE_RESET (R474). -/
  | deviceReset (kind : Nat)
  /-- BOOT_ROM_RUN (R494). -/
  | bootRomRun (bootSel : Nat) (badStaging badActive : Bool) (cut : Option Nat)
  /-- FIRMWARE_START (R475). -/
  | firmwareStart (dictBad : Bool)
  /-- COBBLER_CORE_RESET (R474). -/
  | cobblerCoreReset (core : Nat)
  /-- PWR_DEPART (R477). -/
  | pwrDepart (value : Nat)
  /-- DEPART_BOUNDARY (R477). -/
  | departBoundary
  /-- STANDBY_ENTER (R482). -/
  | standbyEnter
  /-- WAKE_ADDRESS_MATCH (R485). -/
  | wakeAddressMatch
  /-- UCIE_WAKE_REQUEST (R484). -/
  | ucieWakeRequest
  /-- WAKE_SIGNAL_DETECT (R484). -/
  | wakeSignalDetect (port : Nat)
  /-- WAKE_TIMER (R484). -/
  | wakeTimer
  /-- WAKE (R484). -/
  | wake (seconds : Nat)
  /-- WAKE_SLOW (R484). -/
  | wakeSlow
  /-- BENCH_POWER_UP (R480). -/
  | benchPowerUp (bench : Nat)
  /-- BENCH_POWER_SLOW (R491). -/
  | benchPowerSlow (bench : Nat)
  /-- FW_STAGE_BEGIN (R506). -/
  | fwStageBegin
  /-- FW_STAGE_MANIFEST_DONE (R508). -/
  | fwStageManifestDone
  /-- FW_STAGE_ABORT (R506). -/
  | fwStageAbort
  /-- FW_STAGE_DATA_WRITE (R507). -/
  | fwStageDataWrite (row value : Nat)
  /-- FW_CHUNK_DONE (R507). -/
  | fwChunkDone (value : Nat)
  /-- CHUNK_CHECK_DONE (R507). -/
  | chunkCheckDone (bad : Bool)
  /-- SEC_ATTEST_NONCE (R501). -/
  | secAttestNonce (value : Nat)
  /-- ATTEST_REPORT_DONE (R501). -/
  | attestReportDone
  /-- CNT_SNAP_NOW (R532). -/
  | cntSnapNow (value : Nat)
  /-- COUNTER_PAGE_READ (R524). -/
  | counterPageRead (func offset cycle : Nat)
  /-- TRACE_CONSUMER_WRITE (R530). -/
  | traceConsumerWrite (value : Nat)
  /-- JTAG_UPDATE_IR (R553). -/
  | jtagUpdateIr (instr : JtagInstr)
  /-- RESET_N_RELEASE (R475). -/
  | resetNRelease
  /-- ALWAYS_ON_RAIL_LOST (R480). -/
  | alwaysOnRailLost
  /-- PG_UCIE_RISE (R473). -/
  | pgUcieRise
  /-- COUNTER_PARITY_ERROR (R531). -/
  | counterParityError (counter : Nat) (control : Bool)
  /-- ARBITRATION_PARITY_ERROR (R211). -/
  | arbitrationParityError (bench : Nat)
  /-- CLAIM_ROW_PARITY_ERROR (R448). -/
  | claimRowParityError (row : Nat)
  /-- SEM_STATE_PARITY_ERROR (R448). -/
  | semStateParityError (sem : Nat)
  /-- FAULT_STATE_PARITY_ERROR (R469). -/
  | faultStateParityError
  /-- SMBUS_TIMEOUT (R542). -/
  | smbusTimeout
deriving DecidableEq, Repr

end Sys2Proof
end

