-- ==== Sys2Proof/Machine/Bits.lean ====
section
/-!
DEFINITION. Bit fields, byte orders, two's complement and serial-number arithmetic (R3, R4, R17, R50),
and the reads and writes of a sparse table.
-/
namespace Sys2Proof.Machine

/-- Bits hi:lo of a value (R3). -/
def fld (n hi lo : Nat) : Nat := (n >>> lo) % 2 ^ (hi + 1 - lo)

/-- A value placed in bits hi:lo. -/
def put (v hi lo : Nat) : Nat := (v % 2 ^ (hi + 1 - lo)) <<< lo

/-- A value with bits hi:lo replaced. -/
def setFld (n hi lo v : Nat) : Nat :=
  n - put (fld n hi lo) hi lo + put v hi lo

/-- One bit as a truth value. -/
def bitAt (n i : Nat) : Bool := n.testBit i

/-- A truth value as one bit. -/
def b2n (b : Bool) : Nat := if b then 1 else 0

/-- The value without the bits set in the mask (W1C, R7). -/
def clearBits (n mask : Nat) : Nat := n - (n &&& mask)

/-- A w-bit word read as two's complement (R45). -/
def toSigned (w n : Nat) : Int :=
  if n % 2 ^ w < 2 ^ (w - 1) then ((n % 2 ^ w : Nat) : Int) else ((n % 2 ^ w : Nat) : Int) - ((2 ^ w : Nat) : Int)

/-- The w-bit two's complement word of an integer. -/
def ofSigned (w : Nat) (i : Int) : Nat := (i % ((2 ^ w : Nat) : Int)).toNat

/-- a is later than b in serial-number arithmetic modulo 2^w (R17). -/
def serialGt (w a b : Nat) : Bool :=
  let d := (a % 2 ^ w + 2 ^ w - b % 2 ^ w) % 2 ^ w
  0 < d && d < 2 ^ (w - 1)

/-- a minus b modulo m. -/
def modSub (m a b : Nat) : Nat := (a % m + m - b % m) % m

/-- The n bytes of a value, most significant first (fabric formats, R4). -/
def bytesBE (v : Nat) : Nat → List Byte
  | 0 => []
  | n + 1 => BitVec.ofNat 8 (v >>> (8 * n)) :: bytesBE v n

/-- The n bytes of a value, least significant first (host formats, R4). -/
def bytesLE (v : Nat) : Nat → List Byte
  | 0 => []
  | n + 1 => BitVec.ofNat 8 v :: bytesLE (v >>> 8) n

/-- The value of bytes carried most significant first. -/
def natBE (bs : List Byte) : Nat := bs.foldl (fun a b => a * 256 + b.toNat) 0

/-- The value of bytes carried least significant first. -/
def natLE (bs : List Byte) : Nat := bs.foldr (fun b a => b.toNat + 256 * a) 0

/-- The number of set bits among the low w. -/
def popcount (n : Nat) : Nat → Nat
  | 0 => 0
  | w + 1 => b2n (bitAt n w) + popcount n w

/-- The positions of the set bits among the low w, lowest first. -/
def bitsSet (n w : Nat) : List Nat := (List.range w).filter (fun i => bitAt n i)

/-- The least exponent e with n at most 2^e, up to the fuel. -/
def ceilLog2 (n : Nat) : Nat → Nat
  | 0 => 0
  | e + 1 => if n ≤ 2 ^ e then ceilLog2 n e else e + 1

/-- What a key of a sparse table holds, d being what an unlisted key reads as. -/
def tget {α : Type} (d : α) : Tbl α → Nat → α
  | [], _ => d
  | (k, v) :: t, k' => if k' = k then v else tget d t k'

/-- A sparse table without a key. -/
def tdrop {α : Type} (t : Tbl α) (k : Nat) : Tbl α := t.filter fun c => c.1 ≠ k

/-- A sparse table that does not list a key, with the key's cell put before the first larger one. -/
def tput {α : Type} : Tbl α → Nat → α → Tbl α
  | [], k, v => [(k, v)]
  | (k0, v0) :: t, k, v => if k < k0 then (k, v) :: (k0, v0) :: t else (k0, v0) :: tput t k v

/-- A sparse table with one key written, kept in canonical form. -/
def tset {α : Type} [DecidableEq α] (d : α) (t : Tbl α) (k : Nat) (v : α) : Tbl α :=
  if v = d then tdrop t k else tput (tdrop t k) k v

/-- A sparse table with one key changed by a function of what it holds. -/
def tupd {α : Type} [DecidableEq α] (d : α) (t : Tbl α) (k : Nat) (f : α → α) : Tbl α :=
  tset d t k (f (tget d t k))

/-- A sparse table with every listed value changed by a function that keeps the default. -/
def tmap {α : Type} [DecidableEq α] (d : α) (f : α → α) : Tbl α → Tbl α
  | [] => []
  | (k, v) :: t => if f v = d then tmap d f t else (k, f v) :: tmap d f t

/-- The canonical form of a sparse table: keys strictly rising and above lo, no cell at the default. -/
def twf {α : Type} [DecidableEq α] (d : α) : Tbl α → Bool
  | [] => true
  | (k, v) :: t => decide (v ≠ d) && (t.all fun c => decide (k < c.1)) && twf d t

/-- The last n elements of a list grown at its head, kept at most n long (logs, newest first). -/
def pushLog {α : Type} (n : Nat) (x : α) (l : List α) : List α := (x :: l).take n

/-- The row of a log that keeps its newest entry first. -/
def rowOf {α : Type} (d : α) (l : List α) (i : Nat) : α := l.getD i d

end Sys2Proof.Machine
end

