-- ==== Sys2Proof/Machine/State.lean ====
section
/-!
DEFINITION. The state of the block as plain data: one structure per unit of the part, what the part has sent, the queue
of waiting commands, the reset state, and the reasons for which a command may stop.
Every structure's defaults are its values right after a cold start; a docstring names the rule of spec/ that
gives the field.
-/
namespace Sys2Proof.Machine

/-- Why a command stops with a fault. Every one of them is raised by a command that names a thing the spec
says does not exist; stopping is safe (the hardware has no such thing to act on). -/
inductive Fault where
  /-- A port number outside P0 to P95 and the internal ports where they apply (R178, R73). Safe. -/
  | noSuchPort
  /-- A lane number outside L0 to L191 (R73). Safe. -/
  | noSuchLane
  /-- A row past the last row of its table (R46). Safe. -/
  | noSuchRow
  /-- A cobbler slice or core that R39 does not list. Safe. -/
  | noSuchCore
  /-- A function number above 1,023 (R253). Safe. -/
  | noSuchFunction
  /-- An attach module outside M0 to M3 (R242). Safe. -/
  | noSuchModule
  /-- A claim target outside 0 to 11, or a host target outside T0 to T3 (R436). Safe. -/
  | noSuchTarget
  /-- A counter above 543 (R514). Safe. -/
  | noSuchCounter
  /-- A semaphore above 4,095 (R420). Safe. -/
  | noSuchSemaphore
  /-- A queue beyond the numbers of R266. Safe. -/
  | noSuchQueue
  /-- A bench outside B0 to B12 (R178). Safe. -/
  | noSuchBench
deriving DecidableEq, Repr

/-- Why a command is refused by the model. -/
inductive Refusal where
  /-- The command has no meaning in the model. Safe: nothing can be proved of its effect. -/
  | notModelled (mnemonic : String)
deriving DecidableEq, Repr

/-! ### Stitch and time (01_stitch_time.md) -/

/-- The time states of R24. -/
inductive TState where
  | free | acquiring | locked | doubt | lost
deriving DecidableEq, Repr

/-- The values of TIME_STATE (R24). -/
def TState.code : TState → Nat
  | .free => 0 | .acquiring => 1 | .locked => 2 | .doubt => 3 | .lost => 4

/-- The time roles of R15, and the acting master of R18. -/
inductive TRole where
  | follower | standby | master | acting
deriving DecidableEq, Repr

/-- The values of TIME_ROLE (R41). -/
def TRole.code : TRole → Nat
  | .follower => 0 | .standby => 1 | .master => 2 | .acting => 3

/-- What time sync keeps for one port (R16, R21, R22). -/
structure TimePort where
  /-- The last probe received from the neighbour; none before the first (R15). -/
  probe : Option TimeProbe := none
  /-- Consecutive accepted exchanges, held at 16 (R16). -/
  goodRun : Nat := 0
  /-- Consecutive rejected exchanges, held at 16 (R22). -/
  badRun : Nat := 0
  /-- TIME_PORT_DELAY, ps, 32 bits (R41). -/
  delay : Nat := 0xFFFFFFFF
  /-- TIME_PORT_OFFSET, ps (R41). -/
  offset : Int := 0
  /-- T2 of the next probe: arrival of the partner's newest marker, 24 bits of stitch and 16 of phase (R21). -/
  t2 : Nat := 0
  /-- The stitch of that marker, 24 bits (R122). -/
  mark : Nat := 0
deriving DecidableEq, Repr

/-- The states of a stitch action's row (R32). -/
inductive ActState where
  | empty | pending | performed | missed | cancelled | late
deriving DecidableEq, Repr

/-- The values of STATE of a row of TIME_ACTIONS (R32). -/
def ActState.code : ActState → Nat
  | .empty => 0 | .pending => 1 | .performed => 2 | .missed => 3 | .cancelled => 4 | .late => 5

/-- A row of TIME_ACTIONS (R32). -/
structure Action where
  target : Nat := 0
  action : Nat := 0
  st : ActState := .empty
  arg : Nat := 0
deriving DecidableEq, Repr

/-- Time sync and the stitch (R11 to R37). -/
structure TimeUnit where
  /-- The stitch count, 64 bits (R12); 0 after reset (R41). -/
  count : Nat := 0
  /-- TIME_STATE (R24). -/
  st : TState := .free
  /-- TIME_ROLE (R15, R18). -/
  role : TRole := .follower
  /-- The servo's filtered offset from the parent, ps (R22). -/
  filtered : Int := 0
  /-- TIME_ERROR_EST, ps (R22). -/
  errEst : Int := 0
  /-- The servo's steering away from the fabric rate, ppb (R13). -/
  steer : Int := 0
  /-- TIME_PARENT_PORT; none reads 0xFF (R41). -/
  parent : Option Nat := none
  /-- TIME_HOPS (R41). -/
  hops : Nat := 0xFF
  /-- TIME_MASTER_FNA, 18 bits (R41). -/
  masterFna : Nat := 0x3FFFF
  /-- TIME_GENERATION, 16 bits (R41). -/
  gen : Nat := 0
  /-- The highest generation seen, 16 bits; none before the first (R20). -/
  genSeen : Option Nat := none
  /-- TIME_MASTER_STAMP, 64 bits (R41). -/
  stamp : Nat := 0
  /-- An accepted master stamp is held (R18). -/
  hasStamp : Bool := false
  /-- Consecutive accepted exchanges with the estimate within 4 ns (R25). -/
  lockRun : Nat := 0
  /-- The parent became ineligible and is chosen again at the next boundary (R16). -/
  parentLost : Bool := false
  /-- The count and phase step that an exchange asked for, taken at the next boundary (R25). -/
  stepTo : Option Nat := none
  /-- The state that the next boundary enters by an exchange or an appointment (R25). -/
  due : Option TState := none
  /-- The boundary at which Acquiring was entered (R25). -/
  acquireAt : Nat := 0
  /-- The 0x020A of this stay in Acquiring has been logged (R25). -/
  slowLogged : Bool := false
  /-- The generation and pair of masters of the last 0x0209 (R17). -/
  conflict : Option (Nat × Nat × Nat) := none
  /-- What time sync keeps per port; P0 to P95. -/
  ports : Tbl TimePort := []
  /-- TIME_IN_STATUS: 0 Off, 1 Acquiring, 2 Locked, 3 Lost (R41). -/
  inStatus : Nat := 0
  /-- TIME_IN_RESIDUE (R27). -/
  inResidue : Nat := 0
  /-- The steering away from the fabric rate that the last edge of TIME_IN asks of a master, ppb (R27). -/
  inSteer : Int := 0
  /-- Consecutive missing or misplaced TIME_IN edges (R27). -/
  inMissed : Nat := 0
  /-- The 16 rows of TIME_ACTIONS (R32). -/
  actions : Tbl Action := []
  /-- TIME_SNAP_STITCH (R36). -/
  snapStitch : Nat := 0
  /-- TIME_SNAP_GRADE (R36). -/
  snapGrade : Nat := 0
  /-- TIME_SNAP_SEQ, 32 bits (R36). -/
  snapSeq : Nat := 0
deriving DecidableEq, Repr

/-- The cobbler executive (R39, R40): per slice of R39, 0 to 8 in its order. -/
structure Cobbler where
  /-- TIME_COBBLER_OVERRUNS (R41). -/
  overruns : Tbl Nat := []
  /-- TIME_COBBLER_WORST (R41). -/
  worst : Tbl Nat := []
  /-- Consecutive overruns (R40). -/
  runs : Tbl Nat := []
  /-- The stitch services overran in the stitch before the coming boundary (R40). -/
  servicesBehind : Bool := false
  /-- The dictionary application overran in the stitch before the coming boundary (R40). -/
  dictBehind : Bool := false
  /-- The servo task has not overrun its slice in the present stitch (R25). -/
  servoWhole : Bool := true
  /-- The faults 0x0208 to be logged at the next boundary, by slice (R40). -/
  due : List Nat := []
  /-- The cores held in reset or halted, as a bit mask of K0 to K7 (R463, R474). -/
  halted : Nat := 0
deriving DecidableEq, Repr

/-! ### The dictionary and the two control ports (02_dictionary_ports.md) -/

/-- The feeds by which requests reach the dictionary: the host mailbox (H), in-band (M), the sideband (M). -/
inductive Feed where
  | mbx | inband | sideband
deriving DecidableEq, Repr

/-- A dictionary request (R47), with what its feed adds: how many bytes arrived, and for an in-band request where
its response goes and its duplicate key (R62, R64). -/
structure Req where
  feed : Feed := .mbx
  op : Nat := 0
  seq : Nat := 0
  agent : Nat := 0
  index : Nat := 0
  sub : Nat := 0
  row : Nat := 0
  count : Nat := 0
  len : Nat := 0
  data : List Byte := []
  /-- The framing agreed with 16 plus LEN (R61, R62, R66). -/
  framed : Bool := true
  sfna : Nat := 0
  sep : Nat := 0
  /-- The DFNA of an in-band request and the port on which it arrived (R156). -/
  dfna : Nat := 0
  inPort : Nat := 0
  /-- The stitch of its acceptance (R30). -/
  accAt : Nat := 0
  /-- A reset of its feed discards the response (R61, R69). -/
  mute : Bool := false
deriving DecidableEq, Repr

/-- A response (R48). -/
structure Resp where
  feed : Feed := .mbx
  op : Nat := 0
  seq : Nat := 0
  status : Nat := 0
  index : Nat := 0
  sub : Nat := 0
  stitch : Nat := 0
  data : List Byte := []
  sfna : Nat := 0
  sep : Nat := 0
  agent : Nat := 0
  dfna : Nat := 0
  inPort : Nat := 0
deriving DecidableEq, Repr

/-- An entry of the duplicate filter (R64). -/
structure DupEntry where
  sfna : Nat := 0
  agent : Nat := 0
  seq : Nat := 0
  resp : Option Resp := none
  /-- The stitch at which the response was sent (R64). -/
  sentAt : Nat := 0
deriving DecidableEq, Repr

/-- A management slot (R65). -/
structure MgmtSlot where
  queue : Nat := 0
  func : Nat := 0
  endpoint : Nat := 0
  dfna : Nat := 0
  seq : Nat := 0
  bufAddr : Nat := 0
  bufKey : Nat := 0
  entryIdx : Nat := 0
  sentAt : Nat := 0
deriving DecidableEq, Repr

/-- What the control-port unit keeps for an M master that holds a semaphore (R69). -/
structure MMaster where
  sideband : Bool := false
  agent : Nat := 0
  /-- The frame boundary count from which its silence runs. -/
  since : Nat := 0
deriving DecidableEq, Repr

/-- The dictionary front end, the mailbox, the M port and its feeds (R54 to R69). -/
structure Ctl where
  /-- The apply queue, oldest first, 256 places (R55). -/
  applyQ : List Req := []
  /-- The accepted READ, DESCRIBE and ECHO requests, oldest first (R57). -/
  readQ : List Req := []
  /-- Object writes applied at the latest boundary (R30). -/
  usedWrites : Nat := 0
  /-- Table rows written at the latest boundary (R30). -/
  usedRows : Nat := 0
  /-- Read rows still charged to this and later stitches (R57). -/
  readCharge : Nat := 0
  /-- CTL_APPLY_LAST (R70). -/
  applyLast : Nat := 0
  /-- The MRAM copies not yet made: object keys, oldest first (R58). -/
  persistQ : List Nat := []
  /-- The M port was accepted last (R54). -/
  lastM : Bool := false
  /-- The sideband feed was taken last (R67). -/
  lastSb : Bool := false
  /-- MBX_STATUS.BUSY (R61). -/
  mbxBusy : Bool := false
  /-- MBX_STATUS.RESP (R61). -/
  mbxResp : Bool := false
  /-- MBX_IRQ.RESP_EN (R61). -/
  mbxIrq : Bool := false
  /-- The mailbox request buffer, 1,024 bytes (R61). -/
  mbxReqBuf : Tbl Nat := []
  /-- The mailbox response buffer, 1,024 bytes (R61). -/
  mbxRespBuf : Tbl Nat := []
  /-- The mailbox request submitted and not yet accepted (R61). -/
  mbxWait : Option Req := none
  /-- The in-band feed's input buffer, 16 places (R67). -/
  inbandQ : List Req := []
  /-- The duplicate filter, oldest first, 256 places (R64). -/
  dups : List DupEntry := []
  /-- The sideband's request places, four (R66). -/
  sbReqQ : List Req := []
  /-- The sideband's response places, four (R66). -/
  sbRespQ : List Resp := []
  /-- The sideband response held by the M port (R66). -/
  sbHeld : Option Resp := none
  /-- PEC_ERR (R66). -/
  sbPecErr : Bool := false
  /-- The dynamic address taken; none before one is assigned (R66). -/
  sbDynAddr : Option Nat := none
  /-- CTL_REFUSED_SFNA (R70). -/
  refusedSfna : Nat := 0x3FFFF
  /-- The management slots, 256 (R65). -/
  slots : Tbl (Option MgmtSlot) := []
  /-- An M-port reset is caused and performed at the next boundary (R69). -/
  mResetDue : Bool := false
  /-- The silence of the M masters that hold a semaphore (R69). -/
  mMasters : List MMaster := []
  /-- The status of the latest application of a write with its own row in the command table (R53). -/
  writeStatus : Nat := 0
deriving DecidableEq, Repr

/-! ### Lanes (03_lanes_line.md) -/

/-- The bring-up states of R87. -/
inductive LaneSt where
  | off | detect | lock | block | train | stripe | seam | up | rest | loopback | failed
deriving DecidableEq, Repr

/-- The values of LANE_STATE (R98). -/
def LaneSt.code : LaneSt → Nat
  | .off => 0 | .detect => 1 | .lock => 2 | .block => 3 | .train => 4 | .stripe => 5
  | .seam => 6 | .up => 7 | .rest => 8 | .loopback => 9 | .failed => 10

/-- What the receiver keeps of one lane (R74, R75, R86, R88). -/
structure LaneRx where
  /-- The last 58 scrambled bits of the lane's own descrambler, newest lowest (R75). -/
  scr : Nat := 0
  /-- Blocks seen since the stream began, held at 2 (R75). -/
  seen : Nat := 0
  /-- The sync headers of the last 64 blocks, a 1 for an invalid one, newest lowest (R87). -/
  hist : Nat := 0
  /-- How many headers hist holds, at most 64. -/
  histLen : Nat := 0
  /-- Consecutive good training blocks (R86). -/
  goodTrain : Nat := 0
  /-- The last good training block carried ACK = 1 (R87). -/
  ackSeen : Bool := false
  /-- LANEPAR received (R88). -/
  par : Nat := 0
  /-- PORT received (R86). -/
  port : Nat := 0
  /-- FNA received (R86). -/
  fna : Nat := 0
  /-- LANE_RX_POLARITY (R88). -/
  inverted : Bool := false
deriving DecidableEq, Repr

/-- The lanes of one port (R73 to R96). -/
structure LanePort where
  /-- LANE_STATE (R87). -/
  st : LaneSt := .off
  /-- Seam was entered from Rest (R87). -/
  fromRest : Bool := false
  /-- The stitch of the last entry to Lock (R87). -/
  lockAt : Nat := 0
  /-- The stitch of the last entry to Failed (R87). -/
  failedAt : Nat := 0
  /-- The stitch of the wake (R96). -/
  wakeAt : Nat := 0
  /-- Signal detect on both lanes (R87). -/
  signal : Bool := false
  a : LaneRx := {}
  b : LaneRx := {}
  /-- LANE_ORDER_SWAPPED (R88). -/
  swapped : Bool := false
  /-- LANE_PARTNER, 32 bits (R98). -/
  partner : Nat := 0xFFFFFFFF
  /-- Training blocks sent with ACK = 1, held at 16 (R87). -/
  ackSent : Nat := 0
  /-- Consecutive codewords with zero syndromes, held at 4 (R87). -/
  cleanRun : Nat := 0
  /-- Consecutive uncorrectable, or in Bypass non-zero, codewords, held at 8 (R87). -/
  badRun : Nat := 0
  /-- Codewords with non-zero syndromes in this frame (R84). -/
  bypNow : Nat := 0
  /-- The same in the frame before (R84). -/
  bypPrev : Nat := 0
  /-- Every slot is discarded until the next accepted marker (R85). -/
  blind : Bool := false
  /-- The expected marker stitch, 24 bits; none on entry to Seam (R78). -/
  expect : Option Nat := none
  /-- Consecutive accepted markers in Seam, held at 3 (R87). -/
  markRun : Nat := 0
  /-- Consecutive marker errors in Up, held at 3 (R78). -/
  errRun : Nat := 0
  /-- Consecutive seams with Rest-request both sent and received, held at 16 (R95). -/
  restRun : Nat := 0
  /-- The port's idle timer has expired: it asks for rest (R95). -/
  askRest : Bool := false
  /-- The last PSC sent was Rest-request (R95). -/
  sentRest : Bool := false
  /-- RXFEC of the partner's last marker (R79). -/
  partnerFec : Bool := true
  /-- The transmit accumulator, millionths of a block time (R77). -/
  pace : Int := 0
  /-- The descrambler of the port's striped stream, 58 bits (R75). -/
  scr : Nat := 0
  /-- The descrambled bits of the striped stream discarded so far, held at 58 (R75). -/
  seen : Nat := 0
  /-- Frame boundaries at which the port was idle (R481). -/
  idleFrames : Nat := 0
deriving DecidableEq, Repr

/-- An eye scan of one lane (R92, R93). -/
structure EyeScan where
  /-- LANE_EYE_CTL (R92). -/
  ctl : Nat := 0x07800000
  /-- LANE_EYE_RESULT (R93). -/
  result : Nat := 0
  /-- The stitch at which the running scan began. -/
  startAt : Nat := 0
deriving DecidableEq, Repr

/-! ### Link layer (04_link_layer.md) -/

/-- The link states of R127. -/
inductive LState where
  | down | listening | quarantine | admitted | hold | isolated
deriving DecidableEq, Repr

/-- The values of LINK_STATE (R127). -/
def LState.code : LState → Nat
  | .down => 0 | .listening => 1 | .quarantine => 2 | .admitted => 3 | .hold => 4 | .isolated => 5

/-- A flit without its CRC: the control byte (R102) and the 480-bit body. -/
structure Flit where
  ctl : Nat := 0
  body : Nat := 0
deriving DecidableEq, Repr

/-- The packet open on the receive side of a port (R104). -/
structure RxOpen where
  vc : Nat := 0
  /-- Its flits are discarded as they come (R127, R190). -/
  drop : Bool := false
  /-- The packet of the switch core that they belong to. -/
  pkt : Nat := 0
deriving DecidableEq, Repr

/-- The link layer of one port (R101 to R136). -/
structure LinkPort where
  /-- LINK_STATE (R127). -/
  st : LState := .down
  /-- The state that the next boundary enters (R129). -/
  due : Option LState := none
  /-- The state left for Hold (R129). -/
  held : LState := .quarantine
  /-- The last LINK_ADMIT row applied during the Hold (R129). -/
  holdAdmit : Option Bool := none
  /-- The router entered Lost during the Hold (R129). -/
  holdLost : Bool := false
  /-- The last accepted PSC; none reads 0xFF (R134). -/
  psc : Option Nat := none
  /-- A PSC other than Listening was accepted since the last entry to Listening (R129). -/
  otherPsc : Bool := false
  /-- The partner's Isolated has halted the sequenced flits (R128). -/
  halted : Bool := false
  /-- The partner's Isolated takes effect at the next boundary (R128). -/
  haltDue : Bool := false
  /-- The frame boundary at which the port goes Down for the partner's Leaving (R478). -/
  leaveAt : Option Nat := none
  /-- The port carries no routed packets from the next boundary on, since the partner leaves (R478). -/
  leaving : Bool := false
  /-- The boundary of the last entry to Listening (R131). -/
  listenAt : Nat := 0
  /-- An INIT was accepted since then (R131). -/
  initRx : Bool := false
  /-- An INIT with STEP 1 was accepted since then (R131). -/
  init1Rx : Bool := false
  /-- An INIT with STEP 1 was sent since then (R131). -/
  init1Tx : Bool := false
  /-- A version mismatch was logged since then (R131). -/
  versionLogged : Bool := false
  /-- The 0x0401 of this stay was logged (R131). -/
  slowLogged : Bool := false
  /-- NEXT, 12 bits (R106). -/
  next : Nat := 0
  /-- OLDEST, 12 bits (R106). -/
  oldest : Nat := 0
  /-- The replay buffer from OLDEST on, 2,048 flits (R106). -/
  replay : List Flit := []
  /-- The replay in progress has this many of those flits sent again; none when none is (R110). -/
  replayPos : Option Nat := none
  /-- NAK_ID last served, 4 bits (R110). -/
  served : Nat := 0
  /-- Replays started from the present OLDEST (R112). -/
  replays : Nat := 0
  /-- The stitch at which OLDEST last advanced or the first flit went out (R111). -/
  oldestAt : Nat := 0
  /-- SENT_v, 16 bits each, VC0 to VC7 (R113). -/
  sent : List Nat := [0, 0, 0, 0, 0, 0, 0, 0]
  /-- The latest FREED_v received (R113). -/
  freedIn : List Nat := [0, 0, 0, 0, 0, 0, 0, 0]
  /-- The partner's LIMIT_v (R113). -/
  limit : List Nat := [0, 0, 0, 0, 0, 0, 0, 0]
  /-- Bypass flits sent and the partner's freed count of them (R118). -/
  bpSent : Nat := 0
  bpFreedIn : Nat := 0
  bpLimit : Nat := 0
  /-- NE, 12 bits (R105). -/
  ne : Nat := 0
  /-- The receiver is Discarding (R109). -/
  discarding : Bool := false
  /-- NAK_ID, 4 bits (R109). -/
  nakId : Nat := 0
  /-- The stitch of the last increment of NAK_ID (R109). -/
  nakAt : Nat := 0
  /-- Sequenced flits still to be discarded after a REPLAY behind NE (R111). -/
  behind : Nat := 0
  /-- RCVD_v (R113). -/
  rcvd : List Nat := [0, 0, 0, 0, 0, 0, 0, 0]
  /-- FREED_v of the own receiver (R113). -/
  freed : List Nat := [0, 0, 0, 0, 0, 0, 0, 0]
  /-- FREED_BP of the own receiver (R118). -/
  bpFreed : Nat := 0
  /-- The packet open on the receive side (R104). -/
  rxOpen : Option RxOpen := none
  /-- Sequenced flits accepted since the last ACKCR (R107). -/
  ackOwed : Nat := 0
  /-- The freed counts that the last ACKCR carried, VC0 to VC7 and the bypass pool (R107). -/
  ackFreed : List Nat := [0, 0, 0, 0, 0, 0, 0, 0, 0]
  /-- The stitch of the last ACKCR (R107). -/
  ackAt : Nat := 0
  /-- An ACKCR is to be sent in the next slot open to the bypass channel (R107). -/
  ackDue : Bool := false
  /-- The last slot of this stitch that has been used, 0 to 79 (R76). -/
  slotAt : Nat := 0
  /-- Control flits, ACKCR, CONG_HINT and LAST_SIGNAL flits sent in this stitch (R107, R118). -/
  ctlSent : Nat := 0
  acksSent : Nat := 0
  hintsSent : Nat := 0
  sigsSent : Nat := 0
  /-- Control flits waiting for a slot, oldest first (R118). -/
  ctlQ : List Flit := []
  /-- The CREDIT_SYNC of this frame is still to be sent (R115). -/
  syncDue : Bool := false
deriving DecidableEq, Repr


/-! ### Routing, benches and buffers (05_routing.md, 06_switch_core.md) -/

/-- A flowlet-table entry (R161). -/
structure Flowlet where
  used : Bool := false
  group : Nat := 0
  /-- The candidate port, or none for the minimal decision. -/
  via : Option Nat := none
  lastUse : Nat := 0
  /-- The fresh decisions made for the entry (R158). -/
  n : Nat := 0
deriving DecidableEq, Repr

/-- A congestion hint of a destination group (R160). -/
structure Hint where
  member : Nat := 0
  level : Nat := 0
  stamp : Nat := 0
deriving DecidableEq, Repr

/-- A level last sent for a Global port (R159). -/
structure HintSent where
  level : Nat := 0
  at' : Nat := 0
  /-- The stitch in which the level was measured. -/
  meas : Nat := 0
deriving DecidableEq, Repr

/-- A copy of a packet on its way to one output (R180, R200, R201). -/
structure Copy where
  out : Nat := 0
  vc : Nat := 0
  granted : Bool := false
  /-- Flits that have crossed into the output's staging buffer (R181). -/
  crossed : Nat := 0
  /-- Flits that have left the output. -/
  sent : Nat := 0
  /-- The stitch in which its latest flit was sent or reached the output (R171). -/
  movedAt : Nat := 0
  /-- An uncorrectable memory error met it after its SOP flit had left: its EOP flit leaves BAD (R187, R201). -/
  bad : Bool := false
deriving DecidableEq, Repr

/-- A packet held in the router (R180 to R201). -/
structure SwPkt where
  /-- The model's own number of it. -/
  id : Nat := 0
  inPort : Nat := 0
  inVc : Nat := 0
  /-- It was injected at this router (R143, R231). -/
  own : Bool := false
  /-- The header as parsed, with no payload. -/
  hdr : Packet := {}
  /-- The 480-bit bodies of its flits so far, in order. -/
  flits : List Nat := []
  /-- Its length in flits (R138). -/
  total : Nat := 1
  /-- Its EOP flit has been received or the packet was closed (R191). -/
  eop : Bool := false
  bad : Bool := false
  /-- Its last body is the zero body of R171 that stands for the flits that never came (R191). -/
  closed : Bool := false
  /-- The lookup has been made. -/
  looked : Bool := false
  /-- It goes back to the lookup by R190. -/
  requeued : Bool := false
  /-- AGE at the lookup, and the stitch of the lookup (R170). -/
  ageAt : Nat := 0
  lookAt : Nat := 0
  /-- The copies still to be sent. -/
  copies : List Copy := []
  /-- At least one copy has sent its SOP flit. -/
  begun : Bool := false
  /-- It stands in the anchored store (R201). -/
  anchored : Bool := false
  /-- It waits for the anchored store since this stitch; its stall was logged (R201). -/
  stallAt : Option Nat := none
  stallLogged : Bool := false
  /-- Flits whose space in the input buffer has been given back. -/
  freed : Nat := 0
  /-- The injection group that it is charged to. -/
  group : Option Nat := none
  /-- A retransmission (R162). -/
  retx : Bool := false
  arrivedAt : Nat := 0
  /-- The trace stamps T0 to T7, 0 for a stage not reached (R529), and the output and VC of the copy granted first (R527). -/
  stamps : List Nat := [0, 0, 0, 0, 0, 0, 0, 0]
  tOut : Nat := 127
  tVc : Nat := 0
  /-- The port by which a VC3 response leaves when it is unreachable (R156). -/
  back : Option Nat := none
deriving DecidableEq, Repr

/-- What the switch core keeps of one fabric input (R183, R184, R203). -/
structure SwPort where
  /-- The reservations advertised at the last entry to Listening (R183). -/
  reserve : List Nat := [1024, 1024, 1024, 256, 1024, 1024, 1024, 1024]
  /-- The loans B_v (R184). -/
  loan : List Nat := [0, 0, 0, 0, 0, 0, 0, 0]
  /-- The VCs that were lent to in this stitch. -/
  lent : Nat := 0
  /-- The role in a bank does not match the partner's group: bit 0 bank A, bit 1 bank B (R147). -/
  mismatch : Nat := 0
deriving DecidableEq, Repr

/-- A deficit-round-robin scheduler (R193). -/
structure Drr where
  deficit : Tbl Nat := []
  now : Nat := 0
  /-- The present visit has not yet been given its quantum. -/
  fresh : Bool := true
deriving DecidableEq, Repr

/-- One output of the crossbar (R180, R181, R193, R194). -/
structure OutPort where
  drr : Drr := {}
  /-- The input last served, by VC, as port number plus one (R194). -/
  rr : Tbl Nat := []
  /-- The packets granted and not yet wholly sent, in the order of their grants. -/
  order : List Nat := []
  /-- The output is throttled (R168). -/
  throttled : Bool := false
  /-- The output had data and no eligible VC in this stitch (R212). -/
  starved : Bool := false
deriving DecidableEq, Repr

/-- A packet that an internal port is to inject, with what its source adds to the header (R143, R162, R195). -/
structure InjPkt where
  pkt : Packet := {}
  group : Option Nat := none
  /-- The flow label; 0 for none (R143). -/
  label : Nat := 0
  /-- OPC as a control packet (R137). -/
  ctl : Bool := false
  retx : Bool := false
  /-- The requester context whose ordered packets R166 holds back. -/
  ctx : Option Nat := none
  /-- The source read of host memory was poisoned (R187). -/
  poisoned : Bool := false
  /-- The SFNA of a response from a node without an FNA, and the port on which its request arrived (R156). -/
  sfna : Option Nat := none
  back : Option Nat := none
deriving DecidableEq, Repr

/-- A packet delivered to the host side, with the port on which it arrived (R189). -/
structure Delivered where
  pkt : Packet := {}
  inPort : Nat := 0
deriving DecidableEq, Repr

/-- An injection group's shaper and backlog (R195 to R197). -/
structure InjGroup where
  /-- TOKENS in 1/1,024 bytes (R196). -/
  tokens : Int := 0
  /-- The shaper held it back in this stitch (R212). -/
  held : Bool := false
deriving DecidableEq, Repr

/-- A cupping record (R204): the sampled bytes, its metadata without PHASEBIT, DROPPED and SEQ, and the stitch made. -/
structure CupRec where
  bytes : Nat := 0
  meta' : Nat := 0
  at' : Nat := 0
deriving DecidableEq, Repr

/-- The cupping collector (R203 to R207). -/
structure Cup where
  /-- The LFSRs of the fabric ports, 32 bits, unlisted all ones (R203). -/
  lfsr : Tbl Nat := []
  /-- The records not yet delivered, oldest first, 1,024 places (R205). -/
  queue : List CupRec := []
  /-- Records assembled and delivered in this stitch (R205). -/
  made : Nat := 0
  given : Nat := 0
  dropped : Nat := 0
  seq : Nat := 0
  /-- CUP_RING_PRODUCER (R206). -/
  prod : Nat := 0
deriving DecidableEq, Repr

/-- The routing and switch-core units. -/
structure SwUnit where
  /-- ROUTE_BANK_SWITCH_STITCH and ROUTE_BANK_WRITABLE_AT (R169). -/
  switchAt : Nat := 0
  writableAt : Nat := 0
  /-- The drain horizon of the latest switch has been signalled (R177). -/
  drained : Bool := true
  /-- A bank switch has been made since reset. -/
  switched : Bool := false
  /-- The frame in which the first port became Admitted (R197). -/
  firstAdmit : Option Nat := none
  /-- The flowlet tables, by 8,192 × bench + index (R161). -/
  flowlets : Tbl Flowlet := []
  /-- The hints, by destination group (R160). -/
  hints : Tbl (List Hint) := []
  /-- The levels last published, by Global port; none before the first (R159). -/
  hintSent : Tbl (Option HintSent) := []
  /-- The packets held, in the order in which they arrived. -/
  pkts : List SwPkt := []
  nextId : Nat := 1
  ports : Tbl SwPort := []
  outs : Tbl OutPort := []
  /-- The DRR state of HP0 to HP3 over the injection groups (R195). -/
  hpDrr : Tbl Drr := []
  /-- The injection groups (R196). A fresh group has an empty bucket. -/
  groups : Tbl InjGroup := []
  /-- The packets that wait at the internal ports HP0 to HP3, CP and SP (96 to 101) for their injection, oldest
  first (R143, R178). -/
  inject : Tbl (List InjPkt) := []
  /-- The packets delivered to the host side and not yet taken up, by internal port, oldest first (R189). -/
  delivered : Tbl (List Delivered) := []
  /-- One more than the bank under which packets of a requester context not yet acknowledged were injected, by context (R166). -/
  ordBank : Tbl Nat := []
  cup : Cup := {}
deriving DecidableEq, Repr

/-! ### Lasts (07_lasts.md) -/

/-- The states of a last entry (R222). -/
inductive LastSt where
  | empty | written | refused | armed | active | suspended | broken | closing
deriving DecidableEq, Repr

/-- A chunk of a last (R218): its tag, its 56 bytes, whether it is BAD, and where it is due. -/
structure Chunk where
  tag : Nat := 0
  data : Nat := 0
  bad : Bool := false
  /-- The position from which it may leave (R225). -/
  due : Nat := 0
  /-- The stitch of its arrival. -/
  at' : Nat := 0
deriving DecidableEq, Repr

/-- A signal that an entry still has to send: its code and STITCH (R233). -/
structure Signal where
  event : Nat := 0
  stitch : Nat := 0
deriving DecidableEq, Repr

/-- One row of LAST_ENTRY (R219). -/
structure LastEntry where
  /-- The RW fields of the row, 256 bits. -/
  cfg : Nat := 0
  st : LastSt := .empty
  reason : Nat := 0
  ready : Bool := false
  isOpen : Bool := false
  /-- A READY record came while the entry was Armed (R223). -/
  readyHeld : Bool := false
  /-- GEN when the row was last Active; none before (R221). -/
  lastGen : Option Nat := none
  /-- LAST_GUARD_POS at the entry's check (R239). -/
  guard : Nat := 0
  /-- The boundary since which every condition of R229 has been clear. -/
  clearAt : Nat := 0
  /-- Consecutive accepted exchanges with SHIFT above DELTA (R230). -/
  driftRun : Nat := 0
  /-- The entry breaks at the next boundary, with this REASON and STITCH (R230). -/
  due : Option (Nat × Nat) := none
  /-- The chunks that wait, oldest first (R225). -/
  queue : List Chunk := []
  /-- The signals to send, and the stitch of their coming up (R233). -/
  signals : List Signal := []
  /-- The chunks that wait to be wrapped, oldest first, with the REASON of R232. -/
  wrap : List Chunk := []
  wrapReason : Nat := 0
  wrapNum : Nat := 0
  /-- The boundary that applied the row (R221). -/
  writtenAt : Nat := 0
deriving DecidableEq, Repr

/-- A last ring (R234 to R237). -/
structure LastRing where
  prod : Nat := 0
  cons : Nat := 0
  /-- A send ring's next index to fetch, and the records fetched, oldest first (R235). -/
  fetch : Nat := 0
  records : List Nat := []
  /-- The first stitch discarded at a full receive ring (R237). -/
  lossAt : Option Nat := none
  /-- Its function was reset (R234). -/
  stopped : Bool := false
deriving DecidableEq, Repr

/-- A row of LAST_EVENT_LOG (R239). -/
structure LastLog where
  port : Nat := 0
  index : Nat := 0
  st : LastSt := .empty
  reason : Nat := 0
  stitch : Nat := 0
deriving DecidableEq, Repr

/-- The last unit (R213 to R241). -/
structure LastUnit where
  /-- LAST_ENTRY, by 4,096 × input port + index. -/
  entries : Tbl LastEntry := []
  /-- The shift of each fabric input without the guard; none before an accepted delay (R214). -/
  base : Tbl (Option Nat) := []
  /-- LAST_SHIFT (R214). -/
  shift : Tbl Nat := []
  rings : Tbl LastRing := []
  /-- LAST_EVENT_LOG, newest first, 64 rows. -/
  log : List LastLog := []
  /-- The wrap store is below 8,192 free flits (R241). -/
  low : Bool := false
  /-- Chunks on their way to the collective engine: the entry's row and the chunk, oldest first (R397). -/
  toCp : List (Nat × Chunk) := []
  /-- Signal records on their way to it, oldest first (R233). -/
  cpSignals : List (Nat × Signal) := []
deriving DecidableEq, Repr
/-! ### Work entries and what waits for the host -/

/-- A consumed work entry (R278, R279) on its way to its completion. -/
structure Entry where
  /-- The model's own number of it, by which packets and reads name it. -/
  id : Nat := 0
  queue : Nat := 0
  func : Nat := 0
  kind : Nat := 0
  opc : Nat := 0
  ord : Bool := false
  cmpl : Bool := false
  inl : Bool := false
  nsge : Nat := 0
  dfna : Nat := 0
  dep : Nat := 0
  len : Nat := 0
  flow : Nat := 0
  user : Nat := 0
  lkey : Nat := 0
  laddr : Nat := 0
  /-- The 24 bytes of OPARGS, as three little-endian words W5, W6 and W7. -/
  args : List Nat := []
  /-- The 56-byte bodies of the continuation units, as little-endian numbers. -/
  more : List Nat := []
  wqIndex : Nat := 0
  wqCons : Nat := 0
  /-- Its operation was asked to start and waits for a check; it was started by its own command. -/
  begun : Bool := false
  started : Bool := false
  /-- Its status and what its completion carries, once known (R290). -/
  status : Option Nat := none
  done : Nat := 0
  /-- RESULT, bytes 32 to 63, as one little-endian number. -/
  result : Nat := 0
  /-- Host writes that must be observed before its completion (R250). -/
  tags : List Nat := []
deriving DecidableEq, Repr

/-- Why the part read host memory. -/
inductive ReadFor where
  /-- So many units of a work ring, from an index on (R287). -/
  | unit (queue index count : Nat)
  /-- A watched line (R252). -/
  | watch (queue : Nat)
  /-- A queue's context from the device store (R266). -/
  | queueCtx (queue : Nat)
  /-- The payload of a packet of a requester context (R307). -/
  | payload (ctx : Nat)
  /-- The data of one response of a GET (R306). -/
  | getData (job part : Nat)
  /-- The line of an atomic (R309). -/
  | atomicLine (job : Nat)
  /-- A management request's record (R65). -/
  | mgmtRecord (queue entry : Nat)
  /-- Records of a send ring of a source last (R235). -/
  | lastRing (ring index : Nat)
  /-- The elements of a collective contribution's block (R393). -/
  | collBlock (row block : Nat)
  /-- Bytes of an unexpected message in its pool slot, for a receive (R377). -/
  | poolCopy (recv : Nat)
  /-- A line of a page table (R345). -/
  | walkLine (walk : Nat)
  /-- A segment's descriptor (R338). -/
  | segDesc (seg : Nat)
  /-- A page table entry's line, taken for ownership (R347). -/
  | adLine (seg base : Nat)
  /-- One part of a read that is made in several pieces. -/
  | part (gather : Nat)
  /-- An access whose unit no longer waits. -/
  | nobody
deriving DecidableEq, Repr

/-- A read of host memory made in several pieces: what asked, and for each piece its tag and its bytes once they have come. -/
structure Gather where
  id : Nat := 0
  why : ReadFor
  parts : List (Nat × Option (List Byte)) := []
  bad : Bool := false
deriving DecidableEq, Repr

/-- What the part does once host writes are observed (R250). -/
inductive Deferred where
  /-- A completion written to a queue's ring may send its vector (R293). -/
  | ringVector (queue : Nat)
  /-- A record written to a function's scheduler event ring may send its vector (R433). -/
  | evVector (func : Nat)
  /-- An arrival completion goes to the ring of a queue (R325, R379): its 512 bits without PHASE. -/
  | arrival (ring unit : Nat)
  /-- A pool slot of an endpoint becomes free (R377). -/
  | slotFree (ep slot : Nat)
  /-- Nothing waits. -/
  | nothing
deriving DecidableEq, Repr
/-! ### The host attach (08_host_attach.md) -/

/-- The module states of R244. -/
inductive ModSt where
  | reset | training | x64 | x32 | retrain | failed
deriving DecidableEq, Repr

/-- The values of ATTACH_MODULE_STATE (R263). -/
def ModSt.code : ModSt → Nat
  | .reset => 0 | .training => 1 | .x64 => 2 | .x32 => 3 | .retrain => 4 | .failed => 5

/-- One UCIe module (R242 to R244). -/
structure Module where
  st : ModSt := .reset
  /-- ATTACH_MODULE_REPAIRED (R243). -/
  repaired : Nat := 0
  /-- The stitch of the last entry to Failed or Retrain (R244). -/
  since : Nat := 0
  /-- The stitches of the failed trainings of the last frame, newest first (R244). -/
  fails : List Nat := []
deriving DecidableEq, Repr

/-- The states of the device store (R259). -/
inductive StoreSt where
  | absent | given | returning | lost
deriving DecidableEq, Repr

/-- The values of ATTACH_STORE_STATE (R263). -/
def StoreSt.code : StoreSt → Nat
  | .absent => 0 | .given => 1 | .returning => 2 | .lost => 3

/-- An entry of an MSI-X table, as PCIe lays it out, with its pending bit (R257, R258). Masked after reset, as PCIe gives. -/
structure MsixEntry where
  addr : Nat := 0
  data : Nat := 0
  masked : Bool := true
  pending : Bool := false
deriving DecidableEq, Repr

/-- A read of host memory without its data yet, and the unit that asked (R248). -/
structure HRead where
  tag : Nat := 0
  func : Nat := 0
  addr : Nat := 0
  len : Nat := 0
  /-- The segment whose validated access it belongs to (R333). -/
  seg : Option Nat := none
  /-- The stitch at which it was issued, for a validated access that at which it was checked (R350). -/
  at' : Nat := 0
  why : ReadFor
deriving DecidableEq, Repr

/-- A write to host memory without its global-observation response yet (R250). -/
structure HWrite where
  tag : Nat := 0
  func : Nat := 0
  addr : Nat := 0
  /-- The segment whose validated access it belongs to; none for the part's own rings (R333). -/
  seg : Option Nat := none
  /-- The stitch at which it was issued, for a validated access that at which it was checked (R350). -/
  at' : Nat := 0
deriving DecidableEq, Repr

/-- A write that the fence holds back (R461). -/
structure HeldWrite where
  tag : Nat := 0
  func : Nat := 0
  addr : Nat := 0
  data : List Byte := []
deriving DecidableEq, Repr

/-- What waits for host writes to be observed (R250). -/
structure HWait where
  tags : List Nat := []
  act : Deferred
deriving DecidableEq, Repr

/-- A function reset under way (R256). -/
structure FnReset where
  /-- The boundary from which it runs. -/
  since : Nat := 0
  slowLogged : Bool := false
deriving DecidableEq, Repr

/-- The host attach (R242 to R265). -/
structure HostUnit where
  modules : Tbl Module := []
  /-- ATTACH_UNITS at the latest boundary (R245). -/
  units : Nat := 0
  /-- The line cache: line (address / 64) to 1 Shared or 2 Own (R249); 8,192 lines. -/
  cache : Tbl Nat := []
  /-- The watch list: global queue to its line plus one; 4,096 lines (R252, R285). -/
  watch : Tbl Nat := []
  /-- The MSI-X tables, by 2,048 × function + vector (R257). -/
  msix : Tbl MsixEntry := []
  /-- VF Enable and NumVFs (R253). -/
  vfEnable : Bool := false
  numVfs : Nat := 0
  /-- The function resets under way, by function (R256). -/
  resets : Tbl (Option FnReset) := []
  store : StoreSt := .absent
  /-- The store's base and size, and the six areas' sizes, as fixed at Give (R259, R260). -/
  storeBase : Nat := 0
  storeAreas : List Nat := []
  /-- The host was lost and the store is not Given again: deliveries to HP0 to HP3 are discarded (R261). -/
  hostLost : Bool := false
  /-- A host-die reset takes effect at the next boundary (R261). -/
  dieDue : Bool := false
  nextTag : Nat := 0
  reads : List HRead := []
  gathers : List Gather := []
  writes : List HWrite := []
  held : List HeldWrite := []
  waits : List HWait := []
  /-- Flits each host port may still move in this stitch, in and out, as charged (R245). -/
  hpCharge : Tbl Nat := []
deriving DecidableEq, Repr

/-! ### Queues (09_queues.md) -/

/-- The queue states of R275. -/
inductive QSt where
  | reset | running | stalled | error
deriving DecidableEq, Repr

/-- The values of QUEUE_STATE and Q_STATUS.STATE (R271). -/
def QSt.code : QSt → Nat
  | .reset => 0 | .running => 1 | .stalled => 2 | .error => 3

/-- One queue: its register block, its rings' indices and its fetch (R266 to R296). -/
structure Queue where
  st : QSt := .reset
  reason : Nat := 0
  /-- Q_CONFIG, 256 bits (R272). -/
  config : Nat := 0
  enableDue : Bool := false
  /-- The function that enabled it and its local number (R266). -/
  func : Nat := 0
  local' : Nat := 0
  wqProd : Nat := 0
  wqCons : Nat := 0
  crProd : Nat := 0
  crCons : Nat := 0
  armed : Bool := false
  /-- Units of its own completion ring owed and held (R295). -/
  owed : Nat := 0
  heldUnits : Nat := 0
  /-- The boundary from which its ring has been exhausted; none while it has a free unit (R296). -/
  fullSince : Option Nat := none
  /-- The cached units: ring index to the unit's 512 bits plus 2^512 (R287). -/
  units : Tbl Nat := []
  /-- The ring indices asked for and not yet returned (R287). -/
  asked : List Nat := []
  /-- The index being read again for its old phase and how often it was (R287). -/
  retryIdx : Nat := 0
  retries : Nat := 0
  retryDue : Bool := false
  /-- The stitch in which the old phase was found (R287). -/
  retryAt : Nat := 0
  /-- The push under way: its base index and the units written (R284). -/
  pushBase : Nat := 0
  pushUnits : Nat := 0
  /-- Consumed entries whose completion is not yet written, oldest first (R291). -/
  order : List Entry := []
  /-- The access record of the management entry at the head, once it has been read, and whether it was asked for (R65). -/
  record : Option (List Byte) := none
  recordAsked : Bool := false
  /-- The producer indices that wait for the queue's context (R297). -/
  doors : List Nat := []
  /-- The context is on die (R271). -/
  cached : Bool := false
deriving DecidableEq, Repr

/-- The queues (R266 to R300). -/
structure QueueUnit where
  /-- By global number. -/
  qs : Tbl Queue := []
  /-- QUEUE_MODE_ACTIVE (R298). -/
  mode : Nat := 0
  /-- QUEUE_ERR_LOG, newest first, 64 rows (R276). -/
  errLog : List Nat := []
  /-- The id of the next consumed entry, by which what it starts names it. -/
  nextId : Nat := 0
  /-- The queues whose contexts are on die, the one used last first (R266). -/
  onDie : List Nat := []
  /-- The last queue served, by injection group (R286). -/
  lastServed : Tbl Nat := []
  /-- A group was held by its staging limit in this stitch (R300). -/
  stageHeld : Bool := false
  /-- The groups that exceeded the limit and have not yet fallen below it (R286). -/
  stageOver : List Nat := []
deriving DecidableEq, Repr

/-! ### Remote memory access (10_remote_memory.md) -/

/-- A local buffer: an address within a segment, a length and a key (R278, R279). -/
structure Sge where
  addr : Nat := 0
  len : Nat := 0
  key : Nat := 0
deriving DecidableEq, Repr

/-- Whom a message of a requester context serves. -/
inductive MsgOwner where
  /-- A consumed work entry. -/
  | entry (id : Nat)
  /-- The GETs of a rendezvous that an endpoint's receive took (R378). -/
  | recv (job : Nat)
  /-- A release (R378). -/
  | release
deriving DecidableEq, Repr

/-- A message of a requester context (R306, R320, R324). -/
structure Msg where
  id : Nat := 0
  owner : MsgOwner := .release
  opc : Nat := 0
  dep : Nat := 0
  pd : Nat := 0
  func : Nat := 0
  group : Nat := 0
  flow : Nat := 0
  ord : Bool := false
  notify : Bool := false
  len : Nat := 0
  raddr : Nat := 0
  rkey : Nat := 0
  /-- Words 1 to 3 of a send's operation header (R304). -/
  words : List Nat := []
  /-- The local buffers: the source, or the destination of a GET. -/
  bufs : List Sge := []
  /-- Payload that is at hand: inline data, operands, a rendezvous source address. -/
  data : Option (List Byte) := none
  /-- The PSN of its FIRST packet. -/
  mpsn : Nat := 0
  /-- Pieces that have a PSN. -/
  assigned : Nat := 0
  /-- The parts of a GET that are asked for again: offset, length and how often (R321). -/
  again : List (Nat × Nat × Nat) := []
  /-- The failed packet of the lowest PSN: its PSN, status and reason (R324). -/
  failed : Option (Nat × Nat × Nat) := none
  /-- Nothing more of it is sent. -/
  stopped : Bool := false
  done : Nat := 0
  result : Nat := 0
  tags : List Nat := []
deriving DecidableEq, Repr

/-- A request packet that has its PSN and is not over (R313). -/
structure ReqPkt where
  psn : Nat := 0
  msg : Nat := 0
  off : Nat := 0
  len : Nat := 0
  syn : Bool := false
  first : Bool := false
  last : Bool := false
  /-- It is sent as a PUT of LEN 0 in place of its own (R324). -/
  filler : Bool := false
  /-- It is acknowledged. -/
  got : Bool := false
  /-- The responses of a GET still missing, and whether an atomic's is. -/
  missing : List Nat := []
  needResp : Bool := false
  sentAt : Nat := 0
  resends : Nat := 0
  /-- It was repeated early in this timeout period (R322). -/
  early : Bool := false
  rlater : Nat := 0
deriving DecidableEq, Repr

/-- The packet that a context is making ready: a new piece of a message, or one sent again. -/
structure Prep where
  msg : Nat := 0
  psn : Option Nat := none
  off : Nat := 0
  len : Nat := 0
  /-- Its payload is being read. -/
  reading : Bool := false
deriving DecidableEq, Repr

/-- The requester states of R314; Failed passes at once into Closing. -/
inductive ReqSt where
  | free | opening | open | closing
deriving DecidableEq, Repr

/-- A requester context (R313, R314). -/
structure ReqCtx where
  st : ReqSt := .free
  place : Nat := 0
  inc : Nat := 0
  una : Nat := 0
  nxt : Nat := 0
  hint : Nat := 0
  /-- The messages, oldest first: those under way and those that wait. -/
  msgs : List Msg := []
  /-- The packets that are not over, in PSN order. -/
  pkts : List ReqPkt := []
  /-- The PSNs to send again, in order. -/
  retx : List Nat := []
  prep : Option Prep := none
  /-- The timeout in force and the stitch at which the timer expires (R321). -/
  rto : Nat := 0
  timer : Option Nat := none
  /-- The PSNs held by retry-later, and until when (R329). -/
  held : List Nat := []
  holdUntil : Option Nat := none
  /-- R in bytes per stitch, and the bytes allowed now (R330). -/
  rate : Nat := 0
  credit : Nat := 0
  ceSum : Nat := 0
  ackSum : Nat := 0
  periodAt : Nat := 0
  /-- Responses received since the last KIND 1 ACK, and the stitch of the first (R320). -/
  respN : Nat := 0
  respAt : Option Nat := none
  /-- The stitch since which it has been idle, or at which it entered Closing (R314). -/
  since : Nat := 0
  /-- PEER_CLOSE entries that wait for it (R310). -/
  closers : List Nat := []
  /-- Its context is being fetched from the store (R328). -/
  fetching : Bool := false
deriving DecidableEq, Repr

/-- A packet that the responder accepted and whose effect the host has not yet observed (R317). -/
structure Unseen where
  psn : Nat := 0
  tags : List Nat := []
  /-- An atomic's line is still to come. -/
  busy : Bool := false
deriving DecidableEq, Repr

/-- An arrival completion that waits until RCV_NXT has passed its packet (R325). -/
structure ArrivalDue where
  psn : Nat := 0
  mpsn : Nat := 0
  ring : Nat := 0
  unit : Nat := 0
deriving DecidableEq, Repr

/-- A responder context (R313, R315). -/
structure RespCtx where
  live : Bool := false
  place : Nat := 0
  inc : Nat := 0
  rcvNxt : Nat := 0
  /-- The PSNs from RCV_NXT + 1 to RCV_NXT + 64 received. -/
  sack : Nat := 0
  unseen : List Unseen := []
  arrivals : List ArrivalDue := []
  /-- Packets accepted since the last ACK, those of them with CE set, and the stitch of the first (R316, R319). -/
  accepted : Nat := 0
  ces : Nat := 0
  ackAt : Option Nat := none
  /-- The DEP of the request that prompts the next ACK. -/
  dep : Nat := 0
  /-- The own hint, and the requester's as last learned (R313). -/
  hint : Nat := 0
  peerHint : Nat := 0
  /-- The ORD packet refused with retry-later (R329). -/
  ordHeld : Option Nat := none
  fetching : Bool := false
deriving DecidableEq, Repr

/-- A place of the peer area of the device store: what holds it, twice the context's key, plus one for a requester's, plus one; and the place's
INC (R313, R314). -/
structure Place where
  holder : Nat := 0
  inc : Nat := 0
deriving DecidableEq, Repr

/-- A response kept in the replay cache (R323). -/
structure Replay where
  key : Nat := 0
  inc : Nat := 0
  psn : Nat := 0
  width : Nat := 8
  value : Nat := 0
  at' : Nat := 0
deriving DecidableEq, Repr

/-- A GET being answered (R306). -/
structure GetJob where
  id : Nat := 0
  key : Nat := 0
  inc : Nat := 0
  psn : Nat := 0
  dep : Nat := 0
  len : Nat := 0
  /-- The responses not yet sent. -/
  left : Nat := 0
deriving DecidableEq, Repr

/-- An atomic being performed (R309). -/
structure AtomicJob where
  id : Nat := 0
  key : Nat := 0
  inc : Nat := 0
  psn : Nat := 0
  dep : Nat := 0
  opc : Nat := 0
  func : Nat := 0
  seg : Nat := 0
  chk : Nat := 0
  addr : Nat := 0
  operand : Nat := 0
  compare : Nat := 0
deriving DecidableEq, Repr

/-- The remote memory access units (R301 to R337). -/
structure RmaUnit where
  /-- By SEP × 2^18 + DFNA. -/
  req : Tbl ReqCtx := []
  /-- By SFNA × 2^16 + SEP. -/
  resp : Tbl RespCtx := []
  places : Tbl Place := []
  /-- The contexts on die, the one used last first: twice the key, plus one for a requester's (R313). -/
  onDie : List Nat := []
  /-- The requests in the miss pool, in order of arrival (R328). -/
  parked : List Packet := []
  /-- The GET_RESP packets that wait for the translation of their buffer. -/
  respWait : List Packet := []
  replay : List Replay := []
  gets : List GetJob := []
  atomics : List AtomicJob := []
  nextId : Nat := 0
deriving DecidableEq, Repr

/-! ### Segments, pages and protection keys (11_translation.md) -/

/-- The segment states of R332. -/
inductive SegSt where
  | free | valid | revoking
deriving DecidableEq, Repr

/-- The values of W0.STATE (R339). -/
def SegSt.code : SegSt → Nat
  | .free => 0 | .valid => 1 | .revoking => 2

/-- A descriptor of the segment table (R339), with its translation generation (R354). -/
structure Seg where
  st : SegSt := .free
  r : Bool := false
  w : Bool := false
  adupd : Bool := false
  faulted : Bool := false
  fkind : Nat := 0
  /-- The page-table levels minus one. -/
  levels : Nat := 0
  tag : Nat := 0
  func : Nat := 0
  pd : Nat := 0
  start : Nat := 0
  len : Nat := 0
  /-- The root table's address. -/
  root : Nat := 0
  faultAddr : Nat := 0
  regStitch : Nat := 0
  gen : Nat := 0
deriving DecidableEq, Repr

/-- A cached translation (R354). -/
structure Tlb where
  seg : Nat := 0
  gen : Nat := 0
  /-- The first address of the page within its segment, and its bytes. -/
  base : Nat := 0
  size : Nat := 0
  /-- The host address of the page. -/
  frame : Nat := 0
  r : Bool := false
  w : Bool := false
  pkey : Nat := 0
  /-- ACCESSED is known to be set in the entry (R347). -/
  acc : Bool := false
  /-- The cached DIRTY (R347). -/
  dirty : Bool := false
  /-- The address of its page table entry; of a group's, the first (R347). -/
  pte : Nat := 0
deriving DecidableEq, Repr

/-- An entry of the walk cache: the table of a level that serves the addresses of a prefix (R345). -/
structure WalkEnt where
  seg : Nat := 0
  level : Nat := 0
  pfx : Nat := 0
  table : Nat := 0
deriving DecidableEq, Repr

/-- A walk, queued or running (R345). -/
structure Walk where
  id : Nat := 0
  seg : Nat := 0
  /-- The 4 KiB page, as an address within the segment. -/
  va : Nat := 0
  running : Bool := false
  level : Nat := 0
  table : Nat := 0
  /-- The first line of a group, once it has come: its address and its bytes (R344). -/
  line : Option (Nat × List Byte) := none
  /-- The stitch at which its read was issued (R353). -/
  since : Nat := 0
deriving DecidableEq, Repr

/-- What a walk that gave no translation came to, for those that waited for it: a status of R346, or a reason of R311. -/
structure WalkFail where
  seg : Nat := 0
  va : Nat := 0
  status : Nat := 0
  reason : Nat := 0
deriving DecidableEq, Repr

/-- An update of an accessed or dirty bit under way (R347). -/
structure AdUpdate where
  seg : Nat := 0
  base : Nat := 0
  pte : Nat := 0
  dirty : Bool := false
  /-- The line has come and the update is written; these writes are not yet observed. -/
  tags : List Nat := []
  since : Nat := 0
deriving DecidableEq, Repr

/-- An access that has passed its checks and waits for an update of R347. -/
structure Pass where
  who : List Nat := []
  seg : Nat := 0
  /-- The stitch of its checks (R350). -/
  at' : Nat := 0
deriving DecidableEq, Repr

/-- What takes effect at the next boundary (R332, R340, R355). -/
inductive TransDue where
  | register (seg entry : Nat) (d : Seg)
  | revoke (seg entry : Nat)
  | inval (seg entry queue : Nat) (range : Option (Nat × Nat))
deriving DecidableEq, Repr

/-- The kinds of commands that wait for accesses to drain (R333, R351, R355). -/
inductive DrainKind where
  | revoke | inval | sync
deriving DecidableEq, Repr

/-- A command that waits for accesses to drain. -/
structure Drain where
  kind : DrainKind
  queue : Nat := 0
  entry : Nat := 0
  /-- The segment; of a KGATE_SYNC, the protection domain. -/
  seg : Nat := 0
  since : Nat := 0
  slow : Bool := false
deriving DecidableEq, Repr

/-- A rights register that is replaced at the next boundary, and the entry that completes with it (R350, R351). -/
structure GateDue where
  pd : Nat := 0
  value : Nat := 0
  entry : Option Nat := none
deriving DecidableEq, Repr

/-- The translation unit (R338 to R360). -/
structure TransUnit where
  segs : Tbl Seg := []
  /-- The descriptors on die, the one used last first, 8,192 (R338), and those asked for. -/
  descs : List Nat := []
  descAsked : List Nat := []
  /-- The translation cache, the entry used last first, 262,144 (R354). -/
  tlb : List Tlb := []
  /-- The walk cache, the entry used last first, 4,096 (R345). -/
  wcache : List WalkEnt := []
  walks : List Walk := []
  nextWalk : Nat := 0
  fails : List WalkFail := []
  ads : List AdUpdate := []
  passes : List Pass := []
  /-- The key gate registers, by PD (R348), and the stitch of each one's latest change. -/
  gates : Tbl Nat := []
  gateAt : Tbl Nat := []
  gateDue : List GateDue := []
  due : List TransDue := []
  drains : List Drain := []
  /-- TRANS_FAULT_LOG, newest first (R358). -/
  faultLog : List Nat := []
  /-- The walk queue was full in this stitch (R360). -/
  queueFull : Bool := false
deriving DecidableEq, Repr

/-! ### Message matching (12_matching.md) -/

/-- A posted receive, an unexpected header or a claimed one (R369). -/
structure MEnt where
  /-- Its entry of the table; 0 while it is spilled. -/
  idx : Nat := 0
  pat : Nat := 0
  rndv : Bool := false
  done : Bool := false
  anysrc : Bool := false
  comm : Nat := 0
  seq : Nat := 0
  rank : Nat := 0
  mbits : Nat := 0
  ignore : Nat := 0
  key : Nat := 0
  /-- Posted: the posting queue, by its global number. -/
  queue : Nat := 0
  /-- Unexpected eager: the pool slot. -/
  slot : Option Nat := none
  addr : Nat := 0
  len : Nat := 0
  mpsn : Nat := 0
  inc : Nat := 0
  user : Nat := 0
  sfna : Nat := 0
  sep : Nat := 0
deriving DecidableEq, Repr

/-- An operation of an endpoint that reads a spill list (R375). -/
inductive SpillOp where
  | arrival (p : Packet)
  | command (entry : Nat)
deriving DecidableEq, Repr

/-- A search of a spill list under way: the operation, how many entries have been read, and what was found. -/
structure SpillSearch where
  op : SpillOp
  pos : Nat := 0
deriving DecidableEq, Repr

/-- The matching of an endpoint (R361 to R383): every list oldest first. -/
structure MatchEp where
  posted : List MEnt := []
  unexp : List MEnt := []
  claimed : List MEnt := []
  postedSpill : List MEnt := []
  unexpSpill : List MEnt := []
  /-- The sides in spill mode (R374): bit 0 posted, bit 1 unexpected. -/
  spilling : Nat := 0
  /-- The frames of the latest 0x0C01 of each side, plus one (R386). -/
  spillLog : List Nat := [0, 0]
  postSeq : Nat := 0
  arrSeq : Nat := 0
  /-- The pool slots in use. -/
  slots : List Nat := []
  /-- Matching has failed, or fails at the next boundary (R383). -/
  failed : Bool := false
  failDue : Bool := false
  search : Option SpillSearch := none
  /-- What the search found: the place in the spill list, or none at its end. -/
  found : Option (Option Nat) := none
  /-- The entry that holds the endpoint's place in its pipe until an arrival-ring unit frees (R377). -/
  holder : Option Nat := none
deriving DecidableEq, Repr

/-- How the bytes of a message reach its receive (R379). -/
inductive RecvPath where
  | direct | pool | rndv | nothing
deriving DecidableEq, Repr

/-- A receive that has its message, on its way to its arrival completion (R376 to R380). -/
structure Recv where
  id : Nat := 0
  ep : Nat := 0
  func : Nat := 0
  pd : Nat := 0
  ring : Nat := 0
  /-- 0x40 for a receive, 0x44 for an MRECV. -/
  opc : Nat := 0x40
  path : RecvPath := .direct
  post : MEnt := {}
  msg : MEnt := {}
  /-- Bytes written to the buffer. -/
  wrote : Nat := 0
  status : Nat := 0
  reason : Nat := 0
  tags : List Nat := []
  /-- The whole message has been taken; its writes may still be on their way. -/
  ended : Bool := false
  /-- The pool copy: bytes of the message copied so far, and a piece being read. -/
  copied : Nat := 0
  reading : Bool := false
  /-- Bytes read from the pool that wait for the translation of the buffer. -/
  data : Option (List Byte) := none
deriving DecidableEq, Repr

/-- Where the packets of an eager send that was accepted go: to a receive, or to an unexpected entry of an endpoint by its arrival sequence
number (R376, R377). -/
structure Inflow where
  key : Nat := 0
  inc : Nat := 0
  mpsn : Nat := 0
  dep : Nat := 0
  /-- The PSN of its LAST packet, once it has come. -/
  lastPsn : Option Nat := none
  recv : Option Nat := none
  seq : Nat := 0
  /-- The status and reason with which its FIRST packet was refused. -/
  refused : Option (Nat × Nat) := none
deriving DecidableEq, Repr

/-- A rendezvous record of the sender (R366). -/
structure RndvRec where
  sep : Nat := 0
  dfna : Nat := 0
  key : Nat := 0
  addr : Nat := 0
  entry : Nat := 0
  /-- The frame of the acknowledgement of its packet. -/
  ackedAt : Option Nat := none
  released : Bool := false
deriving DecidableEq, Repr

/-- The matching units (R361 to R387). -/
structure MatchUnit where
  eps : Tbl MatchEp := []
  recvs : List Recv := []
  inflows : List Inflow := []
  /-- The rendezvous records, oldest first, 65,536. -/
  rndv : List RndvRec := []
deriving DecidableEq, Repr

/-! ### Collectives (13_collectives.md) -/

/-- The states of a row of COLL_GROUP (R392). -/
inductive CollSt where
  | idle | waiting | ready | switching | broken | failed
deriving DecidableEq, Repr

/-- The values of STATE of a row of COLL_GROUP (R392). -/
def CollSt.code : CollSt → Nat
  | .idle => 0 | .waiting => 1 | .ready => 2 | .switching => 3 | .broken => 4 | .failed => 5

/-- The header of a block or of a collective packet (R394). -/
structure CollHdr where
  kind : Nat := 0
  dtype : Nat := 0
  op : Nat := 0
  tree : Nat := 0
  lastb : Bool := false
  void : Bool := false
  replay : Bool := false
  count : Nat := 0
  gid : Nat := 0
  bnum : Nat := 0
  aux : Nat := 0
deriving DecidableEq, Repr

/-- An input to a block at this router (R397): its arrival port, 96 for the own member, its header and its elements. -/
structure CollIn where
  port : Nat := 0
  hdr : CollHdr := {}
  data : List Byte := []
deriving DecidableEq, Repr

/-- A block of a row whose inputs come in (R397). -/
structure CollBlock where
  bnum : Nat := 0
  ins : List CollIn := []
deriving DecidableEq, Repr

/-- Bytes that wait for the translation of their place in a result buffer: an offset and the bytes. -/
structure CollPart where
  off : Nat := 0
  data : List Byte := []
deriving DecidableEq, Repr

/-- An operation in flight at the member (R402 to R407). -/
structure CollOp where
  /-- Its entry's number. -/
  entry : Nat := 0
  coll : Nat := 0
  dtype : Nat := 0
  op : Nat := 0
  result : Bool := false
  source : Bool := false
  len : Nat := 0
  lkey : Nat := 0
  laddr : Nat := 0
  /-- The contribution that the entry carries itself. -/
  inl : Option (List Byte) := none
  rkey : Nat := 0
  raddr : Nat := 0
  pd : Nat := 0
  func : Nat := 0
  /-- Its first block, and how many it has. -/
  first : Nat := 0
  blocks : Nat := 1
  /-- The blocks below this one, and these others, counted from its first, have their RESULT. -/
  low : Nat := 0
  got : List Nat := []
  void : Bool := false
  alt : Bool := false
  broke : Bool := false
  /-- An all-gather's own piece has been taken up, and the members whose pieces are written or wait (R405). -/
  gathered : Bool := false
  pieces : List Nat := []
  /-- Bytes written, the writes not yet observed, and the bytes that wait for a translation. -/
  wrote : Nat := 0
  tags : List Nat := []
  parts : List CollPart := []
  /-- The status and reason of an access that failed. -/
  fail : Option (Nat × Nat) := none
  /-- The stitch of its consumption. -/
  startAt : Nat := 0
deriving DecidableEq, Repr

/-- A FLOOD or RESTART still to be repeated (R411, R413). -/
structure CollRepeat where
  opc : Nat := 0
  mc : Nat := 0
  hdr : CollHdr := {}
  /-- How often it is still to be sent, and the stitch of its latest sending. -/
  left : Nat := 0
  at' : Nat := 0
deriving DecidableEq, Repr

/-- A row of COLL_GROUP beside its RW fields (R389, R392). -/
structure CollRow where
  st : CollSt := .idle
  /-- TREE. -/
  tree : Nat := 0
  /-- NEXT_BNUM: the lowest block not yet combined here (R400). -/
  next : Nat := 0
  /-- The number of the member's next submitted block, and of the next that it contributes. -/
  subNext : Nat := 0
  memNext : Nat := 0
  /-- The member's blocks whose source read waits for a translation, and those being read. -/
  asks : List Nat := []
  reading : List Nat := []
  /-- The blocks with some of their inputs, and the chunks of blocks not yet whole, by entry. -/
  blocks : List CollBlock := []
  chunks : Tbl (List Nat) := []
  /-- The results that the root keeps, newest first (R400). -/
  results : List CollIn := []
  ops : List CollOp := []
  /-- The trees whose first FLOOD was taken, and whose break here has been signalled: bit 0 primary, bit 1 alternate (R411). -/
  flooded : Nat := 0
  brokeHere : Nat := 0
  /-- B of the RESTART taken (R413, R414). -/
  restart : Option Nat := none
  /-- The stitch of the entry to Switching (R415). -/
  switchAt : Nat := 0
  repeats : List CollRepeat := []
  /-- The state that the next boundary enters, with the fault code for COLL_LOG. -/
  due : Option (CollSt × Nat) := none
deriving DecidableEq, Repr

/-- The collective engine (R388 to R419). -/
structure CollUnit where
  rows : Tbl CollRow := []
  /-- COLL_LOG, newest first, 32 rows. -/
  log : List Nat := []
  /-- The entries of lasts with input or output CP that were Active at the latest boundary (R410). -/
  active : List Nat := []
deriving DecidableEq, Repr

/-! ### Semaphores and the claim controller (14_semaphores_claims.md) -/

/-- A master of the semaphore bank (R421). -/
inductive Master where
  | h (func agent : Nat)
  | m (sideband : Bool) (agent : Nat)
  | k (core agent : Nat)
deriving DecidableEq, Repr

/-- A waiter of a semaphore, in queueing order (R424). -/
structure Waiter where
  who : Master
  prio : Nat := 0
  notify : Bool := false
  tag : Nat := 0
  /-- For an M master: the request its second response answers (R49). -/
  req : Option Req := none
deriving DecidableEq, Repr

/-- The states of R425. -/
inductive SemSt where
  | free | held | abandoned
deriving DecidableEq, Repr

/-- A semaphore (R425, R432). -/
structure Sem where
  st : SemSt := .free
  owner : Option Master := none
  ownerPrio : Nat := 0
  ceiling : Nat := 0
  waiters : List Waiter := []
  /-- The frame boundary count at the grant (R69). -/
  grantAt : Nat := 0
deriving DecidableEq, Repr

/-- The operations of R423. -/
inductive SemVerb where
  | acquire | try | release
deriving DecidableEq, Repr

/-- An operation that waits for the bank (R420). -/
structure SemOp where
  verb : SemVerb := .acquire
  who : Master := .h 0 0
  sem : Nat := 0
  prio : Nat := 0
  notify : Bool := false
  tag : Nat := 0
  req : Option Req := none
deriving DecidableEq, Repr

/-- The registers of a semaphore page (R429). -/
structure SemPage where
  tag : Nat := 0
  status : Nat := 0
  sem : Nat := 0
  pending : Bool := false
  waiting : Bool := false
  gTag : Nat := 0
  gStatus : Nat := 0
  gSem : Nat := 0
  gStitch : Nat := 0
deriving DecidableEq, Repr

/-- A scheduler event ring (R433, R435). -/
structure EvRing where
  prod : Nat := 0
  cons : Nat := 0
  armed : Bool := false
  lost : Bool := false
deriving DecidableEq, Repr

/-- A scheduler event record (R434). -/
structure EvRecord where
  func : Nat := 0
  kind : Nat := 0
  prio : Nat := 0
  sem : Nat := 0
  agent : Nat := 0
  stitch : Nat := 0
  waiter : Option Master := none
  tag : Nat := 0
  status : Nat := 0
deriving DecidableEq, Repr

/-- The master resets of R426: of a function's H masters, of every M master, of a core's K masters. -/
inductive MReset where
  | func (f : Nat)
  | mport
  | core (n : Nat)
deriving DecidableEq, Repr

/-- The semaphore bank (R420 to R435). -/
structure SemUnit where
  /-- The 4,096 semaphores. -/
  sems : Tbl Sem := []
  /-- Operations not yet performed, in the order in which they reached the bank (R420). -/
  ops : List SemOp := []
  /-- Operations performed at the latest boundary (R420). -/
  done : Nat := 0
  /-- The pages, by 65,536 × function + agent (R427). -/
  pages : Tbl SemPage := []
  /-- The event rings, by function (R433). -/
  rings : Tbl EvRing := []
  /-- Records waiting to be written, 256 places (R435). -/
  recs : List EvRecord := []
  /-- Records written in this stitch (R435). -/
  written : Nat := 0
  /-- The masters whose reset the next boundary sweeps (R426). -/
  resets : List MReset := []
deriving DecidableEq, Repr

/-- A source of the claim controller, without the bits of R436 that are views. -/
structure ClaimRow where
  /-- PENDING as set by an edge or by software (R437). -/
  pending : Bool := false
  inService : Bool := false
  claimant : Nat := 0
  level : Bool := false
  sense : Bool := false
  masked : Bool := false
  prio : Nat := 8
  targetsT : Nat := 0
  targetsK : Nat := 0
deriving DecidableEq, Repr

/-- The claim controller (R436 to R444). -/
structure ClaimUnit where
  rows : Tbl ClaimRow := []
  /-- The twelve thresholds (R440, R447). -/
  thresholds : Tbl Nat := []
  /-- The presented sets of the twelve targets (R438). -/
  presented : Tbl (List Nat) := []
  /-- The host targets that are armed, T0 to T3 as bits 3:0 (R258, R444). -/
  armed : Nat := 0xF
deriving DecidableEq, Repr

/-! ### Faults (15_faults_failsafe.md) -/

/-- The classes of R450. -/
inductive FClass where
  | corrected | contained | fatal
deriving DecidableEq, Repr

/-- The class codes of R450. -/
def FClass.code : FClass → Nat
  | .corrected => 0 | .contained => 1 | .fatal => 2

/-- A raised fault that waits for the logging unit (R452, R457). -/
structure Raise where
  code : Nat := 0
  cls : FClass := .corrected
  scope : Nat := 0
  inst : Nat := 0
  detail : Nat := 0
  inj : Bool := false
  act : Bool := true
  stitch : Nat := 0
deriving DecidableEq, Repr

/-- A fault record (R456). -/
structure FRecord where
  code : Nat := 0
  cls : FClass := .corrected
  esc : Bool := false
  inj : Bool := false
  ack : Bool := false
  lost : Bool := false
  scope : Nat := 0
  inst : Nat := 0
  stitch : Nat := 0
  seq : Nat := 0
  suppressed : Nat := 0
  detail : Nat := 0
  /-- The stitch in which the record was logged (R453). -/
  loggedAt : Nat := 0
  /-- Its key is among the 1,024 that the machinery tracks (R454). -/
  tracked : Bool := true
deriving DecidableEq, Repr

/-- An entry of the history queue (R459). -/
structure HistEntry where
  kind : Nat := 0
  code : Nat := 0
  cls : Nat := 0
  esc : Bool := false
  inj : Bool := false
  scope : Nat := 0
  inst : Nat := 0
  stitch : Nat := 0
deriving DecidableEq, Repr

/-- The fault unit and the harmless states (R450 to R470). -/
structure FaultUnit where
  /-- The raises not yet logged, oldest first, 256 places (R457). -/
  queue : List Raise := []
  /-- Raises logged in this stitch (R457). -/
  logged : Nat := 0
  /-- Raises were lost since the last record (R457). -/
  lostRaises : Nat := 0
  /-- Per key, one more than the frame of the last raise that a frame limit let through (R452). -/
  stamps : Tbl Nat := []
  /-- Per key, raises suppressed since the last record (R456). -/
  suppressed : Tbl Nat := []
  /-- FAULT_LOG, newest first, 256 rows (R457). -/
  log : List FRecord := []
  /-- Records logged that K6 has not acknowledged, oldest first (R453, R454). -/
  unacked : List FRecord := []
  /-- SEQ of the next record, 32 bits, counted from cold start (R456). -/
  seq : Nat := 0
  /-- Records that wait for their copy to the MRAM, oldest first (R457). -/
  copyQ : List FRecord := []
  /-- FAULT_RECORDS, by row, 32,768 rows (R457). -/
  records : Tbl FRecord := []
  /-- FAULT_RECORDS_NEXT (R457). -/
  recordsNext : Nat := 0
  /-- The history queue, newest first, 32 entries (R459). -/
  history : List HistEntry := []
  /-- FAULT_N is asserted low (R458). -/
  faultN : Bool := false
  /-- ISOLATE_N is driven low (R462). -/
  isolateN : Bool := false
  /-- The device is in device isolation (R462). -/
  isolated : Bool := false
  /-- Device isolation takes effect at the next boundary, with this cause (R462). -/
  isolateDue : Option Nat := none
  /-- FAULT_ISOLATE_CAUSE (R462). -/
  cause : Nat := 0
  /-- The device is Fatal (R463). -/
  fatal : Bool := false
  /-- The code of a Fatal record that takes effect at the next boundary (R463). -/
  fatalDue : Option Nat := none
  /-- FAULT_FATAL_CODE (R463). -/
  fatalCode : Nat := 0
  /-- The device is in Hold (R464). -/
  hold : Bool := false
  /-- Hold begins at the next boundary (R464). -/
  holdDue : Bool := false
  /-- The boundary at which the Hold began (R464). -/
  holdAt : Nat := 0
  /-- The 0x0F02 of this Hold was logged (R464). -/
  holdLong : Bool := false
  /-- SUPPLY_CORE_MV (R468). -/
  mv : Nat := 0
  /-- The lowest rail of the present dip, mV (R469). -/
  lowest : Nat := 0
  /-- A dip while Fatal: 1 below Warning, 2 recorded at Reset (R465). -/
  fatalDip : Nat := 0
  /-- The core must start again in isolation with 0x0F03 (R465). -/
  supplyReset : Bool := false
deriving DecidableEq, Repr


/-! ### Power and start-up (16_power_insertion.md, 19_bumps_electrical.md) -/

/-- The PWR_STATE values of R490. -/
inductive PState where
  | run | entering | standby | waking
deriving DecidableEq, Repr

/-- The codes of PWR_STATE (R490). -/
def PState.code : PState → Nat
  | .run => 0 | .entering => 1 | .standby => 2 | .waking => 3

/-- The sources of a wake (R484, R486). -/
inductive WakeSrc where
  | sideband | ucie | signal (port : Nat) | timer
deriving DecidableEq, Repr

/-- A commanded reset whose response has not yet left (R554). -/
structure ResetCmd where
  feed : Feed := .mbx
  sfna : Nat := 0
  sep : Nat := 0
  /-- The boundary that applied the write. -/
  at' : Nat := 0
deriving DecidableEq, Repr

/-- Power, start-up and the control pins (R471 to R492, R538 to R553). A fresh unit is one whose always-on rail has just
risen: no other rail is up and RESET_N is low (R472). -/
structure PwrUnit where
  /-- The always-on rail is out of limits (R480). -/
  off : Bool := false
  /-- PWR_STATE (R480). -/
  st : PState := .run
  /-- The last step of R475 begun: 1 to 5 while starting, 6 once the firmware has started. -/
  step : Nat := 1
  /-- PWR_RESET_KIND (R474). -/
  kind : Nat := 0
  pgCore : Bool := false
  pgSerdes : Bool := false
  pgUcie : Bool := false
  /-- RESET_N is low (R472). -/
  resetLow : Bool := true
  /-- PG_CORE fell in Run: a reset of kind 1 follows its rise (R473). -/
  coreFell : Bool := false
  /-- The core reference is out of tolerance (R540). -/
  refLost : Bool := false
  /-- A sensor tripped and not every one is below 110 °C (R550). -/
  hot : Bool := false
  /-- The straps ADDR_SEL, as sampled (R541). -/
  addrSel : Nat := 0
  /-- WAKE_N is driven low (R484). -/
  wakeN : Bool := false
  /-- A wake source that took effect, or is held by an entry (R482, R484). -/
  wake : Option WakeSrc := none
  /-- The seconds spent in Standby when the wake began, and whether 100 ms passed before step 6 (R484, R486). -/
  wakeSecs : Nat := 0
  wakeSlow : Bool := false
  /-- PWR_LAST_WAKE (R486). -/
  lastWake : Nat := 0
  /-- Consecutive frame boundaries at which the Standby conditions held (R482). -/
  idleFrames : Nat := 0
  /-- PWR_DORMANT_COUNT (R487). -/
  dormant : Nat := 0
  /-- PWR_DEPART_AT (R477). -/
  departAt : Nat := 0
  /-- A departure is pending (R477). -/
  departing : Bool := false
  /-- The lanes stay Off after a departure (R477). -/
  departed : Bool := false
  /-- The bench domains that are powered, as a bit mask of B0 to B11 (R480). -/
  benches : Nat := 0
  /-- The bench domains on their way up, and the stitch at which each started (R480). -/
  benchUp : Nat := 0
  benchAt : Tbl Nat := []
  /-- The bench domains whose 0x1006 of this power-up was logged (R491). -/
  benchSlow : Nat := 0
  /-- The commanded reset that waits for its response to leave (R554). -/
  resetCmd : Option ResetCmd := none
  /-- The JTAG instruction in force, and whether it holds the pins (R553). -/
  jtag : JtagInstr := .bypass
  jtagPins : Bool := false
deriving DecidableEq, Repr

/-! ### Boot and firmware (17_boot_firmware.md) -/

/-- The states of FW_STAGE_STATE (R511). -/
inductive StageSt where
  | idle | manifest | receiving | complete | copying
deriving DecidableEq, Repr

/-- The codes of FW_STAGE_STATE (R511). -/
def StageSt.code : StageSt → Nat
  | .idle => 0 | .manifest => 1 | .receiving => 2 | .complete => 3 | .copying => 4

/-- Boot, identity and firmware (R493 to R513). The MRAM areas are tables of 64-byte rows, each a number of which the
first byte is the most significant; rows count from the start of the area (R507, R509). -/
structure SecUnit where
  /-- SEC_BOOT_SEL (R493). -/
  bootSel : Nat := 0
  /-- SEC_BOOT_STATUS: 0 Normal, 1 Recovery, 2 Debug hold (R511). -/
  bootStatus : Nat := 0
  /-- The protection map is sealed (R494). -/
  sealed : Bool := false
  /-- SEC_MEASURE (R494). -/
  measure : Tbl Nat := []
  /-- The nonce of the report being built (R501). -/
  nonce : Nat := 0
  /-- The boundary at which its building began. -/
  nonceAt : Nat := 0
  /-- SEC_ATTEST_STATE (R511). -/
  attest : Nat := 0
  /-- SEC_ATTEST_REPORT, 22 rows (R501). -/
  report : Tbl Nat := []
  /-- FW_STAGE_STATE, kept in the MRAM (R506). -/
  stage : StageSt := .idle
  /-- FW_STAGE_REASON, kept in the MRAM (R508). -/
  reason : Nat := 0
  /-- The chunk bitmap, 3,072 bits, kept in the MRAM (R506). -/
  bitmap : Nat := 0
  /-- The chunks whose check waits, oldest first, 16 places (R507). -/
  checks : List Nat := []
  /-- The staging and the active area of the MRAM (R509). -/
  staging : Tbl Nat := []
  active : Tbl Nat := []
  /-- The commit records A and B, 256 bits each, with CHECK at 0xFFFF before the first (R502). -/
  commitA : Nat := 0xFFFF
  commitB : Nat := 0xFFFF
  /-- The format tag of the persistent dictionary area (R494). -/
  formatTag : Nat := 0
  /-- The faults of boot, oldest first, that step 6 logs (R494). -/
  bootFaults : List Nat := []
  /-- A set was activated at this start (R513). -/
  activated : Bool := false
deriving DecidableEq, Repr
/-! ### Counters and tagged sampling (18_counters_sampling.md) -/

/-- A live read of a counter page that waits for its sample (R524). -/
structure LiveRead where
  func : Nat := 0
  offset : Nat := 0
  cycle : Nat := 0
deriving DecidableEq, Repr

/-- The counters (R514 to R525) and the trace ring (R526 to R530). -/
structure CntUnit where
  /-- CNT_CTL without OVF and ERR, by counter (R518). -/
  ctl : Tbl Nat := []
  /-- The 48-bit values (R514). -/
  value : Tbl Nat := []
  /-- OVF, by counter (R520). -/
  ovf : Tbl Bool := []
  /-- ERR, by counter (R531). -/
  err : Tbl Bool := []
  /-- The shadows with OVF in bit 48 (R522). -/
  shadow : Tbl Nat := []
  /-- The cycle of the last live sample; none before the first (R524). -/
  lastSample : Option Nat := none
  /-- The sample cycles of the live reads not yet past, oldest first, 64 places (R524). -/
  liveQ : List Nat := []
  /-- The trace LFSRs of the four host ports, 32 bits, unlisted all ones (R526, R203). -/
  lfsr : Tbl Nat := []
  /-- The trace ring's rows in the device store: 512-bit records (R530). -/
  trace : Tbl Nat := []
  /-- TRACE_PRODUCER and TRACE_CONSUMER, over 2N (R532). -/
  traceProd : Nat := 0
  traceCons : Nat := 0
  /-- SEQ of the next tag record, 32 bits (R528). -/
  traceSeq : Nat := 0
  /-- Records dropped since the previous one written (R528). -/
  traceDropped : Nat := 0
  /-- Tag records written in this stitch (R531). -/
  traceNow : Nat := 0
deriving DecidableEq, Repr

/-- The units that only watch: faults, counters, event registers and claims. -/
structure Mon where
  fault : FaultUnit := {}
  cnt : CntUnit := {}
  /-- The event registers of the chapters, by object id × 2^20 + row (R100, R136, R212, R265, R300, R337, R360,
  R387, R419, R449, R470, R492, R513, R532). -/
  evreg : Tbl Nat := []
  claim : ClaimUnit := {}
deriving DecidableEq, Repr

/-! ### What the part sends -/

/-- Something the part sent or drove outward. The list of these in State is the model's own record of the part's outputs. -/
inductive Out where
  /-- A flit in a slot of a fabric port (R76, R101). -/
  | flit (port : Nat) (f : Flit)
  /-- A seam marker and the pace blocks after it (R76, R79). -/
  | marker (port payload pace : Nat)
  /-- A dictionary response to its feed (R48). -/
  | resp (r : Resp)
  /-- Bytes that the sideband returned to a read (R66). -/
  | sideband (bytes : List Byte)
  /-- A packet handed to the fabric by the part itself (R62, R207, R406). -/
  | packet (p : Packet)
  /-- An MSI-X message (R258). -/
  | msix (func vector : Nat)
  /-- A write to host memory in a function's DMA space (R250). -/
  | hostWrite (func addr : Nat) (data : List Byte)
  /-- A read of host memory (R248). -/
  | hostRead (tag func addr len : Nat)
  /-- The data a BAR read returned (R257). -/
  | mmioData (func bar offset value : Nat)
  /-- A pulse on TIME_OUT (R28). -/
  | timeOut
  /-- The value a claim register returned (R439). -/
  | claim (target value : Nat)
  /-- The result of an operation issued by a cobbler core's firmware (R423). -/
  | coreResult (core agent sem status : Nat)
deriving DecidableEq, Repr

/-! ### The whole state -/

/-- The units of the part and the values of the dictionary's writable objects. -/
@[ext] structure Chip where
  /-- Stitch and time (R11 to R37). -/
  time : TimeUnit := {}
  /-- The cobbler executive (R39, R40). -/
  exe : Cobbler := {}
  /-- The dictionary front end and the control ports (R44 to R69). -/
  ctl : Ctl := {}
  /-- The lanes of the 96 ports (R73 to R96). -/
  lanes : Tbl LanePort := []
  /-- The eye scans of the 192 lanes (R92). -/
  eyes : Tbl EyeScan := []
  /-- The link layers of the 96 ports (R101 to R132). -/
  links : Tbl LinkPort := []
  /-- The host attach (R242 to R265). -/
  host : HostUnit := {}
  /-- The queues (R266 to R300). -/
  queues : QueueUnit := {}
  /-- Remote memory access (R301 to R337). -/
  rma : RmaUnit := {}
  /-- Message matching (R361 to R387). -/
  mtch : MatchUnit := {}
  /-- Segments, pages and protection keys (R338 to R360). -/
  trans : TransUnit := {}
  /-- The collective engine (R388 to R419). -/
  coll : CollUnit := {}
  /-- Routing, benches and buffers (R137 to R212). -/
  sw : SwUnit := {}
  /-- Lasts (R213 to R241). -/
  lasts : LastUnit := {}
  /-- The semaphore bank (R420 to R435). -/
  sem : SemUnit := {}
  /-- Power, start-up and pins (R471 to R492, R538 to R554). -/
  pwr : PwrUnit := {}
  /-- Boot and firmware (R493 to R513). -/
  sec : SecUnit := {}
  /-- Faults, counters, event registers and claims. -/
  mon : Mon := {}
  /-- The values in force of the writable dictionary objects, by object id × 2^20 + row; an unlisted key reads as
  the object's default (R9, R44). -/
  regs : Tbl Nat := []
  /-- The persistent dictionary area of the MRAM: the P objects as last copied, by the same keys (R58). -/
  mram : Tbl Nat := []
deriving DecidableEq, Repr

/-- The state of the block: the units, what they held at the latest boundary, what the part has sent, the free-value counter and the
queue of waiting commands. -/
@[ext]
structure State extends Chip where
  /-- The units at the latest boundary, from which a READ is answered (R57). -/
  latch : Chip := {}
  /-- What the part has sent, newest first: the model's own field. -/
  out : List Out := []
  /-- How many free values have been taken: the model's own field. -/
  freeN : Nat := 0
  /-- The commands that wait, first in, first out. -/
  pending : List Instr := []
deriving DecidableEq, Repr

/-- The state right after a cold start. -/
def State.reset : State := {}

end Sys2Proof.Machine
end

