-- ==== Sys2Proof/Machine/Formats.lean ====
section
/-!
DEFINITION. The formats of the line and of the fabric: the CRCs (R79, R103, R144, R502), the scrambler (R75), the FEC code (R82, R83),
the marker and the training block (R79, R86), the bodies of the control flits (R119 to R126), the last tag (R218), and the packet as
flits (R138 to R144).
-/
namespace Sys2Proof.Machine

/-! ### CRCs -/

/-- One bit into a CRC register of width w, most significant bit first. -/
def crcBit (w poly reg : Nat) (b : Bool) : Nat :=
  ((reg * 2) % 2 ^ w) ^^^ (if bitAt reg (w - 1) != b then poly else 0)

/-- The n bits of a value into a CRC register, most significant first. -/
def crcBits (w poly reg v : Nat) : Nat → Nat
  | 0 => reg
  | n + 1 => crcBits w poly (crcBit w poly reg (bitAt v n)) v n

/-- CRC-8 of R79 over 56 bits. -/
def crc8 (v : Nat) : Nat := crcBits 8 0x07 0xFF v 56

/-- CRC-24 of R103 over bytes 0 to 60 of a flit, taken as one 488-bit number. -/
def crc24 (v : Nat) : Nat := crcBits 24 0x328B63 0xFFFFFF v 488

/-- CRC-16 of R502 over bits 255:16 of a commit record. -/
def crc16 (v : Nat) : Nat := crcBits 16 0x1021 0xFFFF v 240

/-- One bit into the reflected CRC-32C register (R144). -/
def crc32cBit (reg : Nat) (b : Bool) : Nat := (reg / 2) ^^^ (if bitAt reg 0 != b then 0x82F63B78 else 0)

/-- One byte into that register, least significant bit first. -/
def crc32cByte (reg : Nat) (b : Byte) : Nat := (List.range 8).foldl (fun r i => crc32cBit r (bitAt b.toNat i)) reg

/-- CRC-32C of a string of bytes (R144). -/
def crc32c (bs : List Byte) : Nat := (bs.foldl crc32cByte 0xFFFFFFFF) ^^^ 0xFFFFFFFF

/-! ### Scrambling -/

/-- One scrambled bit into the descrambler 1 + x^39 + x^58: the history of received bits and the bit out (R75). -/
def descrambleBit (h : Nat) (b : Bool) : Nat × Bool :=
  ((h * 2 + b2n b) % 2 ^ 58, b != (bitAt h 38 != bitAt h 57))

/-- The 64 bits of a payload through the descrambler, first bit first: the history and the clear payload (R75). -/
def descramble (h payload : Nat) : Nat × Nat :=
  (List.range 64).foldl (fun a i =>
    let r := descrambleBit a.1 (bitAt payload (63 - i))
    (r.1, a.2 * 2 + b2n r.2)) (h, 0)

/-- The 64 bits of a payload through the scrambler: the history of sent bits and the scrambled payload (R75). -/
def scramble (h payload : Nat) : Nat × Nat :=
  (List.range 64).foldl (fun a i =>
    let out := bitAt payload (63 - i) != (bitAt a.1 38 != bitAt a.1 57)
    ((a.1 * 2 + b2n out) % 2 ^ 58, a.2 * 2 + b2n out)) (h, 0)

/-! ### The FEC code -/

/-- Doubling in GF(2^10) with x^10 + x^3 + 1 (R82). -/
def gfDouble (a : Nat) : Nat := if bitAt a 9 then (a * 2) % 1024 ^^^ 9 else a * 2

/-- Multiplication in GF(2^10) (R82). -/
def gfMul (a b : Nat) : Nat :=
  ((List.range 10).foldl (fun (acc : Nat × Nat) i =>
    (if bitAt b i then acc.1 ^^^ acc.2 else acc.1, gfDouble acc.2)) (0, a % 1024)).1

/-- A power of α. -/
def gfExp : Nat → Nat
  | 0 => 1
  | n + 1 => gfDouble (gfExp n)

/-- A power in GF(2^10), by squaring. -/
def gfPow (a : Nat) : Nat → Nat → Nat
  | 0, _ => 1
  | fuel + 1, n => if n = 0 then 1 else
      let h := gfPow a fuel (n / 2)
      if n % 2 = 1 then gfMul (gfMul h h) a else gfMul h h

/-- The inverse in GF(2^10): a to the power 1,022. -/
def gfInv (a : Nat) : Nat := gfPow a 10 1022

/-- A polynomial, lowest coefficient first, at a point. -/
def polyAt (p : List Nat) (x : Nat) : Nat := p.foldr (fun c a => gfMul a x ^^^ c) 0

/-- The syndrome j of a codeword, symbol 0 being the highest coefficient (R82). -/
def syndrome (symbols : List Nat) (j : Nat) : Nat :=
  symbols.foldl (fun a s => gfMul a (gfExp j) ^^^ (s % 1024)) 0

/-- The eight syndromes (R82, R83). -/
def syndromes (symbols : List Nat) : List Nat := (List.range 8).map (syndrome symbols)

/-- The sum of two polynomials. -/
def polyAdd (p q : List Nat) : List Nat :=
  (List.range (max p.length q.length)).map fun i => p.getD i 0 ^^^ q.getD i 0

/-- What the search for the error locator holds: the locator, the previous one, its shift, the last discrepancy and the
locator's length. -/
structure Locator where
  sigma : List Nat := [1]
  prev : List Nat := [1]
  shift : Nat := 1
  disc : Nat := 1
  len : Nat := 0

/-- One step of the search for the shortest error locator (Berlekamp and Massey). -/
def locatorStep (syn : List Nat) (l : Locator) (n : Nat) : Locator :=
  let d := (List.range (l.len + 1)).foldl (fun a i => a ^^^ gfMul (l.sigma.getD i 0) (syn.getD (n - i) 0)) 0
  if d = 0 then { l with shift := l.shift + 1 }
  else
    let t := polyAdd l.sigma ((List.replicate l.shift 0) ++ l.prev.map (gfMul (gfMul d (gfInv l.disc))))
    if 2 * l.len ≤ n then { sigma := t, prev := l.sigma, shift := 1, disc := d, len := n + 1 - l.len }
    else { l with sigma := t, shift := l.shift + 1 }

/-- The error locator of a codeword (R83). -/
def errorLocator (syn : List Nat) : Locator := (List.range 8).foldl (locatorStep syn) {}

/-- The powers of α that are the error positions of a codeword of 272 symbols: 0 is the last symbol. -/
def errorPositions (sigma : List Nat) : List Nat :=
  ((List.range 272).foldl (fun (a : List Nat × Nat) i =>
    (if polyAt sigma a.2 = 0 then i :: a.1 else a.1, gfMul a.2 (gfInv 2))) ([], 1)).1

/-- How many symbols of a codeword the decoder corrects: none when more than 4 are in error, so that the codeword is
uncorrectable (R83). -/
def correctable (symbols : List Nat) : Option Nat :=
  let syn := syndromes symbols
  if syn.all (· = 0) then some 0
  else
    let l := errorLocator syn
    if 4 < l.len then none
    else if (errorPositions l.sigma).length = l.len then some l.len else none

/-! ### Markers and training blocks -/

/-- A marker's payload (R79). -/
def packMarker (stitch psc : Nat) (rxfec : Bool) (port : Nat) : Nat :=
  let v := put 0xE1 63 56 + put stitch 55 32 + put psc 31 28 + put (b2n rxfec) 27 27 + put port 23 17
  v + crc8 (v / 256)

/-- A marker's payload, or a training block's, has its block type and its CHK right (R79, R86). -/
def blockGood (bt v : Nat) : Bool := fld v 63 56 = bt && fld v 7 0 = crc8 (v / 256 % 2 ^ 56)

/-- A training block's payload (R86). -/
def packTraining (par : Nat) (ack : Bool) (port fna : Nat) : Nat :=
  let v := put 0x9C 63 56 + put par 55 55 + put (b2n ack) 54 54 + put port 53 47 + put fna 46 29
  v + crc8 (v / 256)

/-! ### Flits -/

/-- A flit as received: 64 bytes, byte 0 in the highest bits (R101). -/
def flitCtl (f : Nat) : Nat := fld f 511 504

/-- Its body, 480 bits (R101). -/
def flitBody (f : Nat) : Nat := fld f 503 24

/-- Its CRC-24 is right (R103). -/
def flitGood (f : Nat) : Bool := fld f 23 0 = crc24 (f / 2 ^ 24 % 2 ^ 488)

/-- The 512 bits of a flit with its CRC (R101, R103). -/
def packFlit (ctl body : Nat) : Nat :=
  let v := put ctl 487 480 + body % 2 ^ 480
  v * 2 ^ 24 + crc24 v

/-- The control byte keeps R102. -/
def ctlLegal (c : Nat) : Bool :=
  match fld c 7 6 with
  | 0 => fld c 5 1 = 0
  | 1 => true
  | _ => fld c 5 3 = 0 && fld c 2 1 = 3

/-- The control byte of a data flit (R102). -/
def dataCtl (vc : Nat) (sop eop bad : Bool) : Nat :=
  0x40 + put vc 5 3 + put (b2n sop) 2 2 + put (b2n eop) 1 1 + b2n bad

/-- Sixteen-bit counts of VC0 to VC7, VC0 highest (R120, R125, R126). -/
def packCounts (l : List Nat) : Nat := (List.range 8).foldl (fun a i => a * 65536 + l.getD i 0 % 65536) 0

/-- The same taken apart. -/
def unpackCounts (v : Nat) : List Nat := (List.range 8).map fun i => fld v (127 - 16 * i) (112 - 16 * i)

/-- The ACKCR body (R120). -/
def packAckcr (a : Ackcr) : Nat :=
  put 0x01 479 472 + put a.ne 471 460 + put (b2n a.nak) 459 459 + put a.nakId 458 455 + put (packCounts a.freed) 447 320 +
  put a.freedBp 319 304

/-- The same taken apart. -/
def unpackAckcr (v : Nat) : Ackcr :=
  { ne := fld v 471 460, nak := bitAt v 459, nakId := fld v 458 455, freed := unpackCounts (fld v 447 320), freedBp := fld v 319 304 }

/-- The REPLAY body (R121). -/
def packReplay (num nakId : Nat) : Nat := put 0x02 479 472 + put num 471 460 + put nakId 459 456

/-- The TIME_PROBE body (R122). -/
def packProbe (b : TimeProbe) : Nat :=
  put 0x03 479 472 + put b.mstitch 471 448 + put b.t2 447 408 + put b.t3 407 368 + put b.tstate 367 365 + put (b2n b.master) 364 364 +
  put (ofSigned 32 b.errEst) 363 332 + put b.hops 331 324 + put b.masterFna 323 306 + put b.gen 305 290 + put b.mstamp 289 226

/-- The same taken apart. -/
def unpackProbe (v : Nat) : TimeProbe :=
  { mstitch := fld v 471 448, t2 := fld v 447 408, t3 := fld v 407 368, tstate := fld v 367 365, master := bitAt v 364
    errEst := toSigned 32 (fld v 363 332), hops := fld v 331 324, masterFna := fld v 323 306, gen := fld v 305 290
    mstamp := fld v 289 226 }

/-- A record of a CONG_HINT (R123). -/
def packHint (r : HintRec) : Nat := put r.origin 63 46 + put r.toGroup 45 34 + put r.level 33 30 + put r.stamp 29 20

/-- The same taken apart. -/
def unpackHint (v : Nat) : HintRec :=
  { origin := fld v 63 46, toGroup := fld v 45 34, level := fld v 33 30, stamp := fld v 29 20 }

/-- A record of a LAST_SIGNAL (R124). -/
def packSig (r : SigRec) : Nat := put r.label 63 48 + put r.event 47 40 + put r.stitch 39 16

/-- The same taken apart. -/
def unpackSig (v : Nat) : SigRec := { label := fld v 63 48, event := fld v 47 40, stitch := fld v 39 16 }

/-- A body of up to seven 64-bit records under a subtype (R123, R124). -/
def packRecords (sub : Nat) (l : List Nat) : Nat :=
  put sub 479 472 + put l.length 471 469 +
  (List.range 7).foldl (fun a i => a + put (l.getD i 0) (447 - 64 * i) (384 - 64 * i)) 0

/-- The records of such a body. -/
def unpackRecords (v : Nat) : List Nat := (List.range (fld v 471 469)).map fun i => fld v (447 - 64 * i) (384 - 64 * i)

/-- The CREDIT_SYNC body (R125). -/
def packSync (c : CreditSync) : Nat := put 0x06 479 472 + put c.num 471 460 + put (packCounts c.sent) 447 320

/-- The same taken apart. -/
def unpackSync (v : Nat) : CreditSync := { num := fld v 471 460, sent := unpackCounts (fld v 447 320) }

/-- The INIT body (R126). -/
def packInit (i : InitBody) : Nat :=
  put 0x07 479 472 + put i.step 471 470 + put i.fna 463 446 + put i.port 445 439 + put (packCounts i.limit) 431 304 +
  put i.bpLimit 303 288 + put i.version 287 272

/-- The same taken apart. -/
def unpackInit (v : Nat) : InitBody :=
  { step := fld v 471 470, fna := fld v 463 446, port := fld v 445 439, limit := unpackCounts (fld v 431 304)
    bpLimit := fld v 303 288, version := fld v 287 272 }

/-! ### Packets -/

/-- A group's number and a member's number in an FNA (R145). -/
def groupOf (fna : Nat) : Nat := fld fna 17 6
/-- The member number of an FNA (R145). -/
def memberOf (fna : Nat) : Nat := fld fna 5 0

/-- The packet has the compact header (R137). -/
def isCtl (p : Packet) : Bool := p.pcls = 0

/-- The packet's length in flits (R138, R139). -/
def flitCount (p : Packet) : Nat :=
  if isCtl p then 1 else (36 + 8 * p.oph.length + p.len + 59) / 60

/-- The fields that both headers carry, as bits 255:156 of the data header (R140, R142). -/
def packCommon (p : Packet) : Nat :=
  put p.hv 99 98 + put p.pcls 97 96 + put p.vc 95 93 + put p.epoch 92 92 + put (b2n p.ord) 91 91 + put (b2n p.mc) 90 90 +
  put (b2n p.ce) 89 89 + put (b2n p.nmin) 88 88 + put p.intg 87 76 + put p.dfna 75 58 + put p.sfna 57 40 + put p.dep 39 24 +
  put p.sep 23 8 + put p.opc 7 0

/-- The data header, 256 bits (R140). -/
def packHeader (p : Packet) : Nat :=
  packCommon p * 2 ^ 156 + put p.psn 155 132 + put p.len 131 119 + put p.fhash 118 103 + put p.age 102 93 +
  put (b2n p.tag) 92 92 + put (b2n p.priv) 91 91 + put p.peerctx 90 71 + put p.oph.length 70 68

/-- The short flow hash of a control packet (R142, R143). -/
def foldHash (h : Nat) : Nat := (h / 256 % 256) ^^^ (h % 256)

/-- The compact header, 128 bits (R142). The packet's FHASH is the 16-bit value that routers use. -/
def packCompact (p : Packet) : Nat :=
  packCommon p * 2 ^ 28 + put p.len 27 22 + put (p.fhash % 256) 21 14 + put p.age 13 4 + put (b2n p.tag) 3 3 + put (b2n p.priv) 2 2

/-- The fields that both headers carry, taken apart. -/
def unpackCommon (c : Nat) : Packet :=
  { hv := fld c 99 98, pcls := fld c 97 96, vc := fld c 95 93, epoch := fld c 92 92, ord := bitAt c 91, mc := bitAt c 90
    ce := bitAt c 89, nmin := bitAt c 88, intg := fld c 87 76, dfna := fld c 75 58, sfna := fld c 57 40, dep := fld c 39 24
    sep := fld c 23 8, opc := fld c 7 0 }

/-- The header that the first body of a packet carries (R140, R142). The operation header's length is kept as that many
zero words until the words are read. -/
def unpackHead (body : Nat) : Packet :=
  let c := unpackCommon (fld body 479 380)
  if c.pcls = 0 then
    let h := fld body 479 352
    { c with
      len := fld h 27 22, fhash := fld h 21 14 * 257, age := fld h 13 4, tag := bitAt h 3, priv := bitAt h 2 }
  else
    let h := fld body 479 224
    { c with
      psn := fld h 155 132, len := fld h 131 119, fhash := fld h 118 103, age := fld h 102 93, tag := bitAt h 92, priv := bitAt h 91
      peerctx := fld h 90 71, oph := List.replicate (fld h 70 68) 0 }

/-- Bytes cut into bodies of 60, the last filled with zeros (R138). -/
def cutBodies (bs : List Byte) : Nat → List Nat
  | 0 => []
  | n + 1 => natBE (bs.take 60 ++ List.replicate (60 - min 60 bs.length) 0) :: cutBodies (bs.drop 60) n

/-- The bytes that the ICRC covers: the header with VC, CE, NMIN, INTG and TAG as zero, the operation header and the payload
(R144). -/
def icrcBytes (p : Packet) : List Byte :=
  bytesBE (packHeader { p with vc := 0, ce := false, nmin := false, intg := 0, tag := false }) 32 ++
  (p.oph.map fun w => bytesBE w 8).flatten ++ p.payload

/-- The ICRC of a packet (R144). -/
def icrcOf (p : Packet) : Nat := crc32c (icrcBytes p)

/-- The bodies of a packet's flits (R138, R139). -/
def packetBodies (p : Packet) : List Nat :=
  if isCtl p then cutBodies (bytesBE (packCompact p) 16 ++ p.payload) 1
  else
    cutBodies (bytesBE (packHeader p) 32 ++ (p.oph.map fun w => bytesBE w 8).flatten ++ p.payload ++ bytesBE p.icrc 4) (flitCount p)

/-- A packet read from the bodies of its flits (R138, R139). -/
def readPacket (bodies : List Nat) (bad : Bool) : Packet :=
  let h := unpackHead (bodies.getD 0 0)
  let bs := (bodies.map fun b => bytesBE b 60).flatten
  if isCtl h then { h with payload := (bs.drop 16).take h.len, bad := bad }
  else
    let n := h.oph.length
    { h with
      oph := (List.range n).map fun i => natBE ((bs.drop (32 + 8 * i)).take 8)
      payload := (bs.drop (32 + 8 * n)).take h.len
      icrc := natBE ((bs.drop (32 + 8 * n + h.len)).take 4)
      bad := bad }

/-- The charge of a packet in the schedulers, without the overhead (R193). -/
def chargeOf (p : Packet) : Nat := if isCtl p then 16 + p.len else 36 + 8 * p.oph.length + p.len

/-- The last tag (R218). -/
def packTag (gen index seq : Nat) (endM : Bool) (user : Nat) (late : Bool) : Nat :=
  put gen 31 28 + put index 27 16 + put seq 15 8 + put (b2n endM) 7 7 + put user 6 5 + put (b2n late) 4 4

end Sys2Proof.Machine
end

