-- ==== Sys2Proof/Config.lean ====
section
/-!
DEFINITION. What an implementation fixes or the spec leaves open: constants without a body. A free value is applied
to the state's counter of free values, so that nothing constrains it; the other constants are functions
of the operands they depend on.
-/
namespace Sys2Proof.Config

/-- A free value: what the spec leaves undefined or does not state, applied to State's counter freeN. -/
opaque freeValue : Nat → Nat

/-- The fused and derived values of the identity objects, by object id: ID_STEPPING, ID_SERIAL, ID_LOT_WAFER, ID_BOOT_ROM_VERSION,
ATTACH_PCI_IDS, SEC_ROOT_HASH (R70, R263, R511). -/
opaque fused : Nat → Nat

/-- The identity seed in the fuses, 57 bytes (R499). -/
opaque identitySeed : Nat

/-- The servo's filter: the filtered offset after an exchange, from the one before it and the new offset, ps (R22). -/
opaque servoFilter : Int → Int → Int

/-- The steering the servo aims at for a filtered offset, ppb; R13 bounds what is applied. -/
opaque servoTarget : Int → Int

/-- The frequency steering by which the master answers a TIME_IN edge, ppb, from the edge's distance (R27). -/
opaque timeInSteer : Nat → Int

/-- The codes of STATE in a row of LAST_ENTRY, by the order of R222's states from Written on; R219 gives no code but Empty's reset
value 0. -/
opaque lastStateCode : Nat → Nat

/-- The hash by which a peer context's key picks its bucket (R313), of twice the key, plus one for a requester's. -/
opaque peerHash : Nat → Nat

/-- The sign and the payload of the quiet NaN that an addition returns for two operands (R309, R395 name no one of the quiet NaNs). -/
opaque nanBits : Nat → Nat → Nat

end Sys2Proof.Config
end

