-- ==== Sys2Proof/Machine/Catalogue.lean ====
section
/-!
DEFINITION. The parameter dictionary's objects (R44, R45, R46, R51): for each its index.subindex, type,
access, rights, persistence, rows, row width, row type, default, stated range and listed bits, as the
tables of the chapters give them (R41, R70, R98, R134, R175, R210, R239, R263, R298, R335, R358, R385, R417,
R447, R468, R490, R511, R532).
-/
namespace Sys2Proof.Machine

/-- The value types of R45. -/
inductive DType where
  | u8 | u16 | u32 | u64 | i32 | i64 | bool | enum8 | bits32 | str | octets | table
deriving DecidableEq, Repr

/-- The type codes of R45. -/
def DType.code : DType → Nat
  | .u8 => 1 | .u16 => 2 | .u32 => 3 | .u64 => 4 | .i32 => 5 | .i64 => 6
  | .bool => 7 | .enum8 => 8 | .bits32 => 9 | .str => 10 | .octets => 11 | .table => 12

/-- The access codes of R7. -/
inductive Access where
  | ro | rw | wo | w1c | rwl | bs
deriving DecidableEq, Repr

/-- The access codes as DESCRIBE carries them (R51). -/
def Access.code : Access → Nat
  | .ro => 0 | .rw => 1 | .wo => 2 | .w1c => 3 | .rwl => 4 | .bs => 5

/-- The persistence classes of R9. -/
inductive Persist where
  | v | p | b
deriving DecidableEq, Repr

/-- The persistence classes as DESCRIBE carries them (R51). -/
def Persist.code : Persist → Nat
  | .v => 0 | .p => 1 | .b => 2

/-- One object of the dictionary. rights has bit 1 for M and bit 0 for H (R8, R51); id is
256 × index + subindex; lo and hi are the range the object states; mask holds the bits that are listed. -/
structure Obj where
  id : Nat
  ty : DType
  access : Access
  rights : Nat
  persist : Persist
  rows : Nat
  width : Nat
  rowTy : Nat
  dflt : Nat
  lo : Nat
  hi : Nat
  mask : Nat
deriving DecidableEq, Repr

/-- 0x0200.00, R41 of 01_stitch_time.md. -/
def Dict.TIME_STITCH_NOW : Obj :=
  ⟨0x20000, .u64, .ro, 3, .v, 1, 8, 0, 0, 0, 0xffffffffffffffff, 0xffffffffffffffff⟩

/-- 0x0200.01, R41 of 01_stitch_time.md. -/
def Dict.TIME_PHASE_NOW : Obj :=
  ⟨0x20001, .u16, .ro, 3, .v, 1, 2, 0, 0, 0, 0xffff, 0xffff⟩

/-- 0x0200.02, R41 of 01_stitch_time.md. -/
def Dict.TIME_EPOCH_TAI_S : Obj :=
  ⟨0x20002, .u64, .rw, 2, .v, 1, 8, 0, 0, 0, 0xffffffffffffffff, 0xffffffffffffffff⟩

/-- 0x0201.00, R41 of 01_stitch_time.md. -/
def Dict.TIME_STATE : Obj :=
  ⟨0x20100, .enum8, .ro, 3, .v, 1, 1, 0, 0, 0, 0xff, 0xff⟩

/-- 0x0201.01, R41 of 01_stitch_time.md. -/
def Dict.TIME_ERROR_EST : Obj :=
  ⟨0x20101, .i32, .ro, 3, .v, 1, 4, 0, 0, 0, 0xffffffff, 0xffffffff⟩

/-- 0x0201.02, R41 of 01_stitch_time.md. -/
def Dict.TIME_PARENT_PORT : Obj :=
  ⟨0x20102, .u8, .ro, 3, .v, 1, 1, 0, 255, 0, 0xff, 0xff⟩

/-- 0x0201.03, R41 of 01_stitch_time.md. -/
def Dict.TIME_HOPS : Obj :=
  ⟨0x20103, .u8, .ro, 3, .v, 1, 1, 0, 255, 0, 0xff, 0xff⟩

/-- 0x0201.04, R41 of 01_stitch_time.md. -/
def Dict.TIME_MASTER_FNA : Obj :=
  ⟨0x20104, .u32, .ro, 3, .v, 1, 4, 0, 262143, 0, 0xffffffff, 0xffffffff⟩

/-- 0x0201.05, R41 of 01_stitch_time.md. -/
def Dict.TIME_GENERATION : Obj :=
  ⟨0x20105, .u16, .ro, 3, .v, 1, 2, 0, 0, 0, 0xffff, 0xffff⟩

/-- 0x0201.06, R41 of 01_stitch_time.md. -/
def Dict.TIME_MASTER_STAMP : Obj :=
  ⟨0x20106, .u64, .ro, 3, .v, 1, 8, 0, 0, 0, 0xffffffffffffffff, 0xffffffffffffffff⟩

/-- 0x0202.00, R41 of 01_stitch_time.md. -/
def Dict.TIME_ROLE : Obj :=
  ⟨0x20200, .enum8, .rwl, 2, .v, 1, 1, 0, 0, 0, 0x2, 0xff⟩

/-- 0x0202.01, R41 of 01_stitch_time.md. -/
def Dict.TIME_TAKEOVER_ST : Obj :=
  ⟨0x20201, .u16, .rwl, 2, .p, 1, 2, 0, 256, 64, 0x380, 0xffff⟩

/-- 0x0202.02, R41 of 01_stitch_time.md. -/
def Dict.TIME_START_COUNT : Obj :=
  ⟨0x20202, .u64, .rwl, 2, .v, 1, 8, 0, 0, 0, 0xffffffffffffffff, 0xffffffffffffffff⟩

/-- 0x0203.00, R41 of 01_stitch_time.md. -/
def Dict.TIME_PORT_ASYM : Obj :=
  ⟨0x20300, .table, .rw, 2, .p, 96, 4, 5, 0, 0, 0xffffffff, 0xffffffff⟩

/-- 0x0203.01, R41 of 01_stitch_time.md. -/
def Dict.TIME_PORT_DELAY : Obj :=
  ⟨0x20301, .table, .ro, 3, .v, 96, 4, 3, 4294967295, 0, 0xffffffff, 0xffffffff⟩

/-- 0x0203.02, R41 of 01_stitch_time.md. -/
def Dict.TIME_PORT_OFFSET : Obj :=
  ⟨0x20302, .table, .ro, 3, .v, 96, 4, 5, 0, 0, 0xffffffff, 0xffffffff⟩

/-- 0x0204.00, R41 of 01_stitch_time.md. -/
def Dict.TIME_IN_MODE : Obj :=
  ⟨0x20400, .enum8, .rwl, 2, .p, 1, 1, 0, 0, 0, 0x1, 0xff⟩

/-- 0x0204.01, R41 of 01_stitch_time.md. -/
def Dict.TIME_IN_STATUS : Obj :=
  ⟨0x20401, .enum8, .ro, 3, .v, 1, 1, 0, 0, 0, 0xff, 0xff⟩

/-- 0x0204.02, R41 of 01_stitch_time.md. -/
def Dict.TIME_IN_RESIDUE : Obj :=
  ⟨0x20402, .u32, .ro, 3, .v, 1, 4, 0, 0, 0, 0xffffffff, 0xffffffff⟩

/-- 0x0204.03, R41 of 01_stitch_time.md. -/
def Dict.TIME_OUT_MODE : Obj :=
  ⟨0x20403, .enum8, .rw, 3, .v, 1, 1, 0, 0, 0, 0x2, 0xff⟩

/-- 0x0205.00, R41 of 01_stitch_time.md. -/
def Dict.TIME_ACTIONS : Obj :=
  ⟨0x20500, .table, .rw, 3, .v, 16, 16, 255, 0, 0, 0xffffffffffffffffffffffffffffffff, 0xffffffffffffffffffffffffffffffff⟩

/-- 0x0205.01, R41 of 01_stitch_time.md. -/
def Dict.TIME_SNAP_STITCH : Obj :=
  ⟨0x20501, .u64, .ro, 3, .v, 1, 8, 0, 0, 0, 0xffffffffffffffff, 0xffffffffffffffff⟩

/-- 0x0205.02, R41 of 01_stitch_time.md. -/
def Dict.TIME_SNAP_GRADE : Obj :=
  ⟨0x20502, .enum8, .ro, 3, .v, 1, 1, 0, 0, 0, 0xff, 0xff⟩

/-- 0x0205.03, R41 of 01_stitch_time.md. -/
def Dict.TIME_SNAP_SEQ : Obj :=
  ⟨0x20503, .u32, .ro, 3, .v, 1, 4, 0, 0, 0, 0xffffffff, 0xffffffff⟩

/-- 0x0206.00, R41 of 01_stitch_time.md. -/
def Dict.TIME_COBBLER_OVERRUNS : Obj :=
  ⟨0x20600, .table, .ro, 3, .v, 9, 4, 3, 0, 0, 0xffffffff, 0xffffffff⟩

/-- 0x0206.01, R41 of 01_stitch_time.md. -/
def Dict.TIME_COBBLER_WORST : Obj :=
  ⟨0x20601, .table, .ro, 3, .v, 9, 2, 2, 0, 0, 0xffff, 0xffff⟩

/-- 0x0000.00, R70 of 02_dictionary_ports.md. -/
def Dict.ID_VENDOR : Obj :=
  ⟨0x0, .str, .ro, 3, .b, 1, 16, 0, 106901145412119701492297337546016292864, 0, 0xffffffffffffffffffffffffffffffff, 0xffffffffffffffffffffffffffffffff⟩

/-- 0x0000.01, R70 of 02_dictionary_ports.md. -/
def Dict.ID_FAMILY : Obj :=
  ⟨0x1, .str, .ro, 3, .b, 1, 16, 0, 89688822986050654655359659322141310976, 0, 0xffffffffffffffffffffffffffffffff, 0xffffffffffffffffffffffffffffffff⟩

/-- 0x0000.02, R70 of 02_dictionary_ports.md. -/
def Dict.ID_PART : Obj :=
  ⟨0x2, .str, .ro, 3, .b, 1, 16, 0, 89521308341097155616331823801954205696, 0, 0xffffffffffffffffffffffffffffffff, 0xffffffffffffffffffffffffffffffff⟩

/-- 0x0000.03, R70 of 02_dictionary_ports.md. -/
def Dict.ID_STEPPING : Obj :=
  ⟨0x3, .u16, .ro, 3, .b, 1, 2, 0, 0, 0, 0xffff, 0xffff⟩

/-- 0x0000.04, R70 of 02_dictionary_ports.md. -/
def Dict.ID_SERIAL : Obj :=
  ⟨0x4, .octets, .ro, 3, .b, 1, 16, 0, 0, 0, 0xffffffffffffffffffffffffffffffff, 0xffffffffffffffffffffffffffffffff⟩

/-- 0x0000.05, R70 of 02_dictionary_ports.md. -/
def Dict.ID_LOT_WAFER : Obj :=
  ⟨0x5, .octets, .ro, 3, .b, 1, 8, 0, 0, 0, 0xffffffffffffffff, 0xffffffffffffffff⟩

/-- 0x0001.00, R70 of 02_dictionary_ports.md. -/
def Dict.ID_DICT_FORMAT : Obj :=
  ⟨0x100, .u32, .ro, 3, .v, 1, 4, 0, 0, 0, 0xffffffff, 0xffffffff⟩

/-- 0x0001.01, R70 of 02_dictionary_ports.md. -/
def Dict.ID_DICT_OBJECTS : Obj :=
  ⟨0x101, .u16, .ro, 3, .v, 1, 2, 0, 0, 0, 0xffff, 0xffff⟩

/-- 0x0001.02, R70 of 02_dictionary_ports.md. -/
def Dict.ID_FW_VERSION : Obj :=
  ⟨0x102, .u32, .ro, 3, .v, 1, 4, 0, 0, 0, 0xffffffff, 0xffffffff⟩

/-- 0x0001.03, R70 of 02_dictionary_ports.md. -/
def Dict.ID_BOOT_ROM_VERSION : Obj :=
  ⟨0x103, .u16, .ro, 3, .b, 1, 2, 0, 0, 0, 0xffff, 0xffff⟩

/-- 0x0002.00, R70 of 02_dictionary_ports.md. -/
def Dict.ID_FNA : Obj :=
  ⟨0x200, .u32, .rwl, 2, .p, 1, 4, 0, 262143, 0, 0xffffffff, 0xffffffff⟩

/-- 0x0002.01, R70 of 02_dictionary_ports.md. -/
def Dict.ID_NODE_LABEL : Obj :=
  ⟨0x201, .str, .rw, 3, .p, 1, 32, 0, 0, 0, 0xffffffffffffffffffffffffffffffffffffffffffffffffffffffffffffffff, 0xffffffffffffffffffffffffffffffffffffffffffffffffffffffffffffffff⟩

/-- 0x0003.00, R70 of 02_dictionary_ports.md. -/
def Dict.ID_CAPS : Obj :=
  ⟨0x300, .bits32, .ro, 3, .b, 1, 4, 0, 31, 0, 0xffffffff, 0xffffffff⟩

/-- 0x0003.01, R70 of 02_dictionary_ports.md. -/
def Dict.ID_PORT_COUNT : Obj :=
  ⟨0x301, .u8, .ro, 3, .b, 1, 1, 0, 96, 0, 0xff, 0xff⟩

/-- 0x0003.02, R70 of 02_dictionary_ports.md. -/
def Dict.ID_VF_MAX : Obj :=
  ⟨0x302, .u16, .ro, 3, .b, 1, 2, 0, 1023, 0, 0xffff, 0xffff⟩

/-- 0x0100.00, R70 of 02_dictionary_ports.md. -/
def Dict.CTL_APPLY_PENDING : Obj :=
  ⟨0x10000, .u16, .ro, 3, .v, 1, 2, 0, 0, 0, 0xffff, 0xffff⟩

/-- 0x0100.01, R70 of 02_dictionary_ports.md. -/
def Dict.CTL_APPLY_LAST : Obj :=
  ⟨0x10001, .u64, .ro, 3, .v, 1, 8, 0, 0, 0, 0xffffffffffffffff, 0xffffffffffffffff⟩

/-- 0x0100.02, R70 of 02_dictionary_ports.md. -/
def Dict.CTL_PERSIST_PENDING : Obj :=
  ⟨0x10002, .u16, .ro, 3, .v, 1, 2, 0, 0, 0, 0xffff, 0xffff⟩

/-- 0x0101.00, R70 of 02_dictionary_ports.md. -/
def Dict.CTL_M_RESET : Obj :=
  ⟨0x10100, .bool, .wo, 3, .v, 1, 1, 0, 0, 0, 0x1, 0xff⟩

/-- 0x0101.01, R70 of 02_dictionary_ports.md. -/
def Dict.CTL_M_IDLE_RESET_FR : Obj :=
  ⟨0x10101, .u16, .rwl, 3, .p, 1, 2, 0, 0, 0, 0xffff, 0xffff⟩

/-- 0x0101.02, R70 of 02_dictionary_ports.md. -/
def Dict.CTL_M_INBAND_ENABLE : Obj :=
  ⟨0x10102, .bool, .rwl, 3, .p, 1, 1, 0, 1, 0, 0x1, 0xff⟩

/-- 0x0101.03, R70 of 02_dictionary_ports.md. -/
def Dict.CTL_MGMT_FUNCS : Obj :=
  ⟨0x10103, .table, .rwl, 1, .p, 32, 4, 9, 0, 0, 0xffffffff, 0xffffffff⟩

/-- 0x0101.04, R70 of 02_dictionary_ports.md. -/
def Dict.CTL_SB_ALERT_EN : Obj :=
  ⟨0x10104, .bool, .rw, 3, .p, 1, 1, 0, 1, 0, 0x1, 0xff⟩

/-- 0x0101.05, R70 of 02_dictionary_ports.md. -/
def Dict.CTL_SB_PEC_REQUIRED : Obj :=
  ⟨0x10105, .bool, .rwl, 3, .p, 1, 1, 0, 0, 0, 0x1, 0xff⟩

/-- 0x0102.00, R70 of 02_dictionary_ports.md. -/
def Dict.CTL_MBX_SOURCE : Obj :=
  ⟨0x10200, .u16, .rw, 1, .v, 1, 2, 0, 400, 400, 0x3fb, 0xffff⟩

/-- 0x0102.01, R70 of 02_dictionary_ports.md. -/
def Dict.CTL_EVENT_SOURCE : Obj :=
  ⟨0x10201, .u16, .rw, 3, .v, 1, 2, 0, 401, 400, 0x3fb, 0xffff⟩

/-- 0x0103.00, R70 of 02_dictionary_ports.md. -/
def Dict.CTL_REFUSED_SFNA : Obj :=
  ⟨0x10300, .u32, .ro, 3, .v, 1, 4, 0, 262143, 0, 0xffffffff, 0xffffffff⟩

/-- 0x0103.01, R70 of 02_dictionary_ports.md. -/
def Dict.CTL_HOST_MGMT_TIMEOUT_ST : Obj :=
  ⟨0x10301, .u32, .rw, 3, .p, 1, 4, 0, 9766, 64, 0xffffffff, 0xffffffff⟩

/-- 0x0300.00, R98 of 03_lanes_line.md. -/
def Dict.LANE_STATE : Obj :=
  ⟨0x30000, .table, .ro, 3, .v, 96, 1, 8, 0, 0, 0xff, 0xff⟩

/-- 0x0300.01, R98 of 03_lanes_line.md. -/
def Dict.LANE_ENABLE : Obj :=
  ⟨0x30001, .table, .rwl, 2, .p, 96, 1, 7, 1, 0, 0x1, 0xff⟩

/-- 0x0300.02, R98 of 03_lanes_line.md. -/
def Dict.LANE_BRINGUP_TIMEOUT_FR : Obj :=
  ⟨0x30002, .u16, .rw, 2, .p, 1, 2, 0, 40, 16, 0x400, 0xffff⟩

/-- 0x0301.00, R98 of 03_lanes_line.md. -/
def Dict.LANE_FEC_RX_MODE : Obj :=
  ⟨0x30100, .table, .rwl, 2, .p, 96, 1, 8, 0, 0, 0x1, 0xff⟩

/-- 0x0301.01, R98 of 03_lanes_line.md. -/
def Dict.LANE_CHANNEL_CLASS : Obj :=
  ⟨0x30101, .table, .rw, 2, .p, 96, 1, 8, 0, 0, 0x1, 0xff⟩

/-- 0x0301.02, R98 of 03_lanes_line.md. -/
def Dict.LANE_BYPASS_LIMIT : Obj :=
  ⟨0x30102, .u32, .rw, 2, .p, 1, 4, 0, 16, 0, 0xffffffff, 0xffffffff⟩

/-- 0x0302.00, R98 of 03_lanes_line.md. -/
def Dict.LANE_TX_FIR : Obj :=
  ⟨0x30200, .table, .rw, 2, .p, 192, 4, 3, 16128, 0, 0xffffffff, 0xffffffff⟩

/-- 0x0302.01, R98 of 03_lanes_line.md. -/
def Dict.LANE_PRECODE : Obj :=
  ⟨0x30201, .table, .rw, 2, .p, 192, 1, 7, 0, 0, 0x1, 0xff⟩

/-- 0x0302.02, R98 of 03_lanes_line.md. -/
def Dict.LANE_RX_POLARITY : Obj :=
  ⟨0x30202, .table, .ro, 3, .v, 192, 1, 7, 0, 0, 0x1, 0xff⟩

/-- 0x0302.03, R98 of 03_lanes_line.md. -/
def Dict.LANE_ORDER_SWAPPED : Obj :=
  ⟨0x30203, .table, .ro, 3, .v, 96, 1, 7, 0, 0, 0x1, 0xff⟩

/-- 0x0303.00, R98 of 03_lanes_line.md. -/
def Dict.LANE_PARTNER : Obj :=
  ⟨0x30300, .table, .ro, 3, .v, 96, 4, 3, 4294967295, 0, 0xffffffff, 0xffffffff⟩

/-- 0x0303.01, R98 of 03_lanes_line.md. -/
def Dict.LANE_EXPECT_PARTNER : Obj :=
  ⟨0x30301, .table, .rw, 2, .p, 96, 4, 3, 4294967295, 0, 0xffffffff, 0xffffffff⟩

/-- 0x0304.00, R98 of 03_lanes_line.md. -/
def Dict.LANE_LOOPBACK : Obj :=
  ⟨0x30400, .table, .rwl, 3, .v, 96, 1, 8, 0, 0, 0x3, 0xff⟩

/-- 0x0304.01, R98 of 03_lanes_line.md. -/
def Dict.LANE_PATTERN : Obj :=
  ⟨0x30401, .table, .rwl, 3, .v, 96, 1, 8, 0, 0, 0x2, 0xff⟩

/-- 0x0304.02, R98 of 03_lanes_line.md. -/
def Dict.LANE_PATTERN_ERRS : Obj :=
  ⟨0x30402, .table, .w1c, 3, .v, 192, 4, 3, 0, 0, 0xffffffff, 0xffffffff⟩

/-- 0x0305.00, R98 of 03_lanes_line.md. -/
def Dict.LANE_EYE_CTL : Obj :=
  ⟨0x30500, .table, .rw, 3, .v, 192, 4, 255, 125829120, 0, 0xffffffff, 0xffffffff⟩

/-- 0x0305.01, R98 of 03_lanes_line.md. -/
def Dict.LANE_EYE_RESULT : Obj :=
  ⟨0x30501, .table, .ro, 3, .v, 192, 8, 255, 0, 0, 0xffffffffffffffff, 0xffffffffffffffff⟩

/-- 0x0306.00, R98 of 03_lanes_line.md. -/
def Dict.LANE_PORT_EVENTS : Obj :=
  ⟨0x30600, .table, .w1c, 3, .v, 96, 4, 9, 0, 0, 0xffffffff, 0xfff⟩

/-- 0x0306.01, R98 of 03_lanes_line.md. -/
def Dict.LANE_EVENT_ENABLE : Obj :=
  ⟨0x30601, .bits32, .rw, 3, .v, 1, 4, 0, 2174, 0, 0xffffffff, 0xfff⟩

/-- 0x0400.00, R134 of 04_link_layer.md. -/
def Dict.LINK_STATE : Obj :=
  ⟨0x40000, .table, .ro, 3, .v, 96, 1, 8, 0, 0, 0xff, 0xff⟩

/-- 0x0400.01, R134 of 04_link_layer.md. -/
def Dict.LINK_ADMIT : Obj :=
  ⟨0x40001, .table, .rwl, 2, .v, 96, 1, 7, 0, 0, 0x1, 0xff⟩

/-- 0x0400.02, R134 of 04_link_layer.md. -/
def Dict.LINK_REINIT : Obj :=
  ⟨0x40002, .table, .wo, 2, .v, 96, 1, 7, 0, 0, 0x1, 0xff⟩

/-- 0x0400.03, R134 of 04_link_layer.md. -/
def Dict.LINK_PARTNER_PSC : Obj :=
  ⟨0x40003, .table, .ro, 3, .v, 96, 1, 1, 255, 0, 0xff, 0xff⟩

/-- 0x0401.00, R134 of 04_link_layer.md. -/
def Dict.LINK_REPLAY_TIMEOUT_ST : Obj :=
  ⟨0x40100, .u16, .rw, 2, .p, 1, 2, 0, 40, 8, 0x400, 0xffff⟩

/-- 0x0401.01, R134 of 04_link_layer.md. -/
def Dict.LINK_REPLAY_LIMIT : Obj :=
  ⟨0x40101, .u8, .rw, 2, .p, 1, 1, 0, 8, 2, 0x40, 0xff⟩

/-- 0x0401.02, R134 of 04_link_layer.md. -/
def Dict.LINK_NAK_WAIT_ST : Obj :=
  ⟨0x40102, .u8, .rw, 2, .p, 1, 1, 0, 20, 4, 0xff, 0xff⟩

/-- 0x0401.03, R134 of 04_link_layer.md. -/
def Dict.LINK_DRIFT_LIMIT : Obj :=
  ⟨0x40103, .u16, .rw, 2, .p, 1, 2, 0, 64, 1, 0x400, 0xffff⟩

/-- 0x0402.00, R134 of 04_link_layer.md. -/
def Dict.LINK_TX_LIMIT : Obj :=
  ⟨0x40200, .table, .ro, 3, .v, 768, 2, 2, 0, 0, 0xffff, 0xffff⟩

/-- 0x0402.01, R134 of 04_link_layer.md. -/
def Dict.LINK_TX_AVAIL : Obj :=
  ⟨0x40201, .table, .ro, 3, .v, 768, 4, 5, 0, 0, 0xffffffff, 0xffffffff⟩

/-- 0x0402.02, R134 of 04_link_layer.md. -/
def Dict.LINK_TX_OUTSTANDING : Obj :=
  ⟨0x40202, .table, .ro, 3, .v, 96, 2, 2, 0, 0, 0xffff, 0xffff⟩

/-- 0x0403.00, R134 of 04_link_layer.md. -/
def Dict.LINK_PORT_EVENTS : Obj :=
  ⟨0x40300, .table, .w1c, 3, .v, 96, 4, 9, 0, 0, 0xffffffff, 0x3ff⟩

/-- 0x0403.01, R134 of 04_link_layer.md. -/
def Dict.LINK_EVENT_ENABLE : Obj :=
  ⟨0x40301, .bits32, .rw, 3, .v, 1, 4, 0, 348, 0, 0xffffffff, 0x3ff⟩

/-- 0x0500.00, R175 of 05_routing.md. -/
def Dict.ROUTE_BANK : Obj :=
  ⟨0x50000, .enum8, .rwl, 2, .v, 1, 1, 0, 0, 0, 0x1, 0xff⟩

/-- 0x0500.01, R175 of 05_routing.md. -/
def Dict.ROUTE_BANK_SWITCH_STITCH : Obj :=
  ⟨0x50001, .u64, .ro, 3, .v, 1, 8, 0, 0, 0, 0xffffffffffffffff, 0xffffffffffffffff⟩

/-- 0x0500.02, R175 of 05_routing.md. -/
def Dict.ROUTE_BANK_WRITABLE_AT : Obj :=
  ⟨0x50002, .u64, .ro, 3, .v, 1, 8, 0, 0, 0, 0xffffffffffffffff, 0xffffffffffffffff⟩

/-- 0x0501.00, R175 of 05_routing.md. -/
def Dict.ROUTE_GROUP_A : Obj :=
  ⟨0x50100, .table, .rw, 2, .v, 4096, 8, 255, 0, 0, 0xffffffffffffffff, 0xffffffffffffffff⟩

/-- 0x0501.01, R175 of 05_routing.md. -/
def Dict.ROUTE_GROUP_B : Obj :=
  ⟨0x50101, .table, .rw, 2, .v, 4096, 8, 255, 0, 0, 0xffffffffffffffff, 0xffffffffffffffff⟩

/-- 0x0502.00, R175 of 05_routing.md. -/
def Dict.ROUTE_MEMBER_A : Obj :=
  ⟨0x50200, .table, .rw, 2, .v, 64, 4, 255, 0, 0, 0xffffffff, 0xffffffff⟩

/-- 0x0502.01, R175 of 05_routing.md. -/
def Dict.ROUTE_MEMBER_B : Obj :=
  ⟨0x50201, .table, .rw, 2, .v, 64, 4, 255, 0, 0, 0xffffffff, 0xffffffff⟩

/-- 0x0503.00, R175 of 05_routing.md. -/
def Dict.ROUTE_ROLE_A : Obj :=
  ⟨0x50300, .table, .rw, 2, .v, 96, 1, 8, 0, 0, 0x2, 0xff⟩

/-- 0x0503.01, R175 of 05_routing.md. -/
def Dict.ROUTE_ROLE_B : Obj :=
  ⟨0x50301, .table, .rw, 2, .v, 96, 1, 8, 0, 0, 0x2, 0xff⟩

/-- 0x0504.00, R175 of 05_routing.md. -/
def Dict.ROUTE_NMIN_ENABLE : Obj :=
  ⟨0x50400, .bool, .rw, 2, .p, 1, 1, 0, 1, 0, 0x1, 0xff⟩

/-- 0x0504.01, R175 of 05_routing.md. -/
def Dict.ROUTE_NMIN_BIAS : Obj :=
  ⟨0x50401, .u8, .rw, 2, .p, 1, 1, 0, 2, 0, 0x1e, 0xff⟩

/-- 0x0504.02, R175 of 05_routing.md. -/
def Dict.ROUTE_LEVEL_STEP : Obj :=
  ⟨0x50402, .u16, .rw, 2, .p, 1, 2, 0, 128, 16, 0x1000, 0xffff⟩

/-- 0x0504.03, R175 of 05_routing.md. -/
def Dict.ROUTE_FLOWLET_GAP_ST : Obj :=
  ⟨0x50403, .u8, .rw, 2, .p, 1, 1, 0, 2, 2, 0x40, 0xff⟩

/-- 0x0504.04, R175 of 05_routing.md. -/
def Dict.ROUTE_REEVAL_ENABLE : Obj :=
  ⟨0x50404, .bool, .rw, 2, .p, 1, 1, 0, 1, 0, 0x1, 0xff⟩

/-- 0x0505.00, R175 of 05_routing.md. -/
def Dict.ROUTE_HINT_PERIOD_ST : Obj :=
  ⟨0x50500, .u8, .rw, 2, .p, 1, 1, 0, 4, 1, 0x10, 0xff⟩

/-- 0x0505.01, R175 of 05_routing.md. -/
def Dict.ROUTE_HINT_MAX_AGE_ST : Obj :=
  ⟨0x50501, .u16, .rw, 2, .p, 1, 2, 0, 32, 4, 0x100, 0xffff⟩

/-- 0x0506.00, R175 of 05_routing.md. -/
def Dict.ROUTE_CE_THRESHOLD : Obj :=
  ⟨0x50600, .u16, .rw, 2, .p, 1, 2, 0, 512, 32, 0x4000, 0xffff⟩

/-- 0x0506.01, R175 of 05_routing.md. -/
def Dict.ROUTE_INJ_HIGH : Obj :=
  ⟨0x50601, .u16, .rw, 2, .p, 1, 2, 0, 1024, 64, 0x4000, 0xffff⟩

/-- 0x0506.02, R175 of 05_routing.md. -/
def Dict.ROUTE_INJ_LOW : Obj :=
  ⟨0x50602, .u16, .rw, 2, .p, 1, 2, 0, 512, 0, 0xffff, 0xffff⟩

/-- 0x0507.00, R175 of 05_routing.md. -/
def Dict.ROUTE_MERENDO_EP : Obj :=
  ⟨0x50700, .table, .rw, 3, .v, 2048, 4, 9, 0, 0, 0xffffffff, 0xffffffff⟩

/-- 0x0508.00, R175 of 05_routing.md. -/
def Dict.ROUTE_AGE_LIMIT_ST : Obj :=
  ⟨0x50800, .u16, .ro, 3, .b, 1, 2, 0, 640, 0, 0xffff, 0xffff⟩

/-- 0x0600.00, R210 of 06_switch_core.md. -/
def Dict.SW_VC_RESERVE : Obj :=
  ⟨0x60000, .table, .rw, 2, .p, 768, 2, 2, 0, 0, 0xffff, 0xffff⟩

/-- 0x0600.01, R210 of 06_switch_core.md. -/
def Dict.SW_LOAN_MAX : Obj :=
  ⟨0x60001, .table, .rw, 2, .p, 8, 2, 2, 0, 0, 0x4000, 0xffff⟩

/-- 0x0600.02, R210 of 06_switch_core.md. -/
def Dict.SW_SHARED_FREE : Obj :=
  ⟨0x60002, .table, .ro, 3, .v, 96, 2, 2, 8960, 0, 0xffff, 0xffff⟩

/-- 0x0601.00, R210 of 06_switch_core.md. -/
def Dict.SW_DRR_QUANTUM : Obj :=
  ⟨0x60100, .table, .rw, 2, .p, 8, 2, 2, 0, 64, 0xffff, 0xffff⟩

/-- 0x0601.01, R210 of 06_switch_core.md. -/
def Dict.SW_DRR_OVERHEAD : Obj :=
  ⟨0x60101, .u8, .rw, 2, .p, 1, 1, 0, 8, 0, 0x40, 0xff⟩

/-- 0x0602.00, R210 of 06_switch_core.md. -/
def Dict.SW_MC_TABLE : Obj :=
  ⟨0x60200, .table, .rw, 3, .v, 16384, 16, 255, 0, 0, 0xffffffffffffffffffffffffffffffff, 0xffffffffffffffffffffffffffffffff⟩

/-- 0x0602.01, R210 of 06_switch_core.md. -/
def Dict.SW_ANCHOR_TABLE : Obj :=
  ⟨0x60201, .table, .rw, 2, .v, 64, 4, 255, 0, 0, 0xffffffff, 0xffffffff⟩

/-- 0x0602.02, R210 of 06_switch_core.md. -/
def Dict.SW_ANCHOR_FREE : Obj :=
  ⟨0x60202, .u32, .ro, 3, .v, 1, 4, 0, 524288, 0, 0xffffffff, 0xffffffff⟩

/-- 0x0603.00, R210 of 06_switch_core.md. -/
def Dict.SW_INJ_GROUP : Obj :=
  ⟨0x60300, .table, .rw, 3, .v, 1024, 16, 255, 0, 0, 0xffffffffffffffffffffffffffffffff, 0xffffffffffffffffffffffffffffffff⟩

/-- 0x0603.01, R210 of 06_switch_core.md. -/
def Dict.SW_SHAPER_TEST : Obj :=
  ⟨0x60301, .bool, .rw, 3, .v, 1, 1, 0, 0, 0, 0x1, 0xff⟩

/-- 0x0603.02, R210 of 06_switch_core.md. -/
def Dict.SW_SHAPER_RECOVERY : Obj :=
  ⟨0x60302, .bool, .ro, 3, .v, 1, 1, 0, 1, 0, 0x1, 0xff⟩

/-- 0x0604.00, R210 of 06_switch_core.md. -/
def Dict.CUP_K : Obj :=
  ⟨0x60400, .table, .rw, 3, .v, 96, 1, 1, 0, 0, 0xff, 0xff⟩

/-- 0x0604.01, R210 of 06_switch_core.md. -/
def Dict.CUP_COLLECTOR : Obj :=
  ⟨0x60401, .enum8, .rw, 3, .v, 1, 1, 0, 0, 0, 0x2, 0xff⟩

/-- 0x0604.02, R210 of 06_switch_core.md. -/
def Dict.CUP_DEST : Obj :=
  ⟨0x60402, .u64, .rw, 3, .v, 1, 8, 0, 0, 0, 0xffffffffffffffff, 0xffffffffffffffff⟩

/-- 0x0604.03, R210 of 06_switch_core.md. -/
def Dict.CUP_INBAND_MAX : Obj :=
  ⟨0x60403, .u16, .rw, 3, .v, 1, 2, 0, 16, 1, 0x80, 0xffff⟩

/-- 0x0604.04, R210 of 06_switch_core.md. -/
def Dict.CUP_RING_BASE : Obj :=
  ⟨0x60404, .u64, .rw, 1, .v, 1, 8, 0, 0, 0, 0xffffffffffffffff, 0xffffffffffffffff⟩

/-- 0x0604.05, R210 of 06_switch_core.md. -/
def Dict.CUP_RING_ORDER : Obj :=
  ⟨0x60405, .u8, .rw, 1, .v, 1, 1, 0, 12, 8, 0x14, 0xff⟩

/-- 0x0604.06, R210 of 06_switch_core.md. -/
def Dict.CUP_RING_CONSUMER : Obj :=
  ⟨0x60406, .u32, .rw, 1, .v, 1, 4, 0, 0, 0, 0xffffffff, 0xffffffff⟩

/-- 0x0604.07, R210 of 06_switch_core.md. -/
def Dict.CUP_RING_PRODUCER : Obj :=
  ⟨0x60407, .u32, .ro, 3, .v, 1, 4, 0, 0, 0, 0xffffffff, 0xffffffff⟩

/-- 0x0604.08, R210 of 06_switch_core.md. -/
def Dict.CUP_RING_MAX : Obj :=
  ⟨0x60408, .u16, .rw, 3, .v, 1, 2, 0, 64, 1, 0x100, 0xffff⟩

/-- 0x0604.09, R210 of 06_switch_core.md. -/
def Dict.CUP_RING_EP : Obj :=
  ⟨0x60409, .u16, .rw, 3, .v, 1, 2, 0, 65535, 0, 0xffff, 0xffff⟩

/-- 0x0605.00, R210 of 06_switch_core.md. -/
def Dict.SW_BENCH_EVENTS : Obj :=
  ⟨0x60500, .table, .w1c, 3, .v, 13, 4, 9, 0, 0, 0xffffffff, 0x1ff⟩

/-- 0x0605.01, R210 of 06_switch_core.md. -/
def Dict.SW_EVENT_ENABLE : Obj :=
  ⟨0x60501, .bits32, .rw, 3, .v, 1, 4, 0, 478, 0, 0xffffffff, 0x1ff⟩

/-- 0x0700.00, R239 of 07_lasts.md. -/
def Dict.LAST_ENTRY : Obj :=
  ⟨0x70000, .table, .rw, 2, .v, 413696, 32, 255, 0, 0, 0xffffffffffffffffffffffffffffffffffffffffffffffffffffffffffffffff, 0xffffffffffffffffffffffffffffffffffffffffffffffffffffffffffffffff⟩

/-- 0x0700.01, R239 of 07_lasts.md. -/
def Dict.LAST_ENTRIES_USED : Obj :=
  ⟨0x70001, .u16, .ro, 3, .v, 1, 2, 0, 0, 0, 0xffff, 0xffff⟩

/-- 0x0700.02, R239 of 07_lasts.md. -/
def Dict.LAST_CAP : Obj :=
  ⟨0x70002, .table, .rw, 2, .p, 96, 1, 1, 32, 1, 0x3c, 0xff⟩

/-- 0x0700.03, R239 of 07_lasts.md. -/
def Dict.LAST_RESERVED : Obj :=
  ⟨0x70003, .table, .ro, 3, .v, 96, 1, 1, 0, 0, 0xff, 0xff⟩

/-- 0x0701.00, R239 of 07_lasts.md. -/
def Dict.LAST_SHIFT : Obj :=
  ⟨0x70100, .table, .ro, 3, .v, 96, 2, 2, 65535, 0, 0xffff, 0xffff⟩

/-- 0x0701.01, R239 of 07_lasts.md. -/
def Dict.LAST_GUARD_POS : Obj :=
  ⟨0x70101, .u8, .rw, 2, .p, 1, 1, 0, 1, 0, 0x10, 0xff⟩

/-- 0x0702.00, R239 of 07_lasts.md. -/
def Dict.LAST_RING : Obj :=
  ⟨0x70200, .table, .rw, 3, .v, 4096, 16, 255, 0, 0, 0xffffffffffffffffffffffffffffffff, 0xffffffffffffffffffffffffffffffff⟩

/-- 0x0703.00, R239 of 07_lasts.md. -/
def Dict.LAST_WRAP_WAIT_ST : Obj :=
  ⟨0x70300, .u8, .rw, 2, .p, 1, 1, 0, 1, 1, 0x10, 0xff⟩

/-- 0x0703.01, R239 of 07_lasts.md. -/
def Dict.LAST_WRAP_FREE : Obj :=
  ⟨0x70301, .u32, .ro, 3, .v, 1, 4, 0, 32768, 0, 0xffffffff, 0xffffffff⟩

/-- 0x0704.00, R239 of 07_lasts.md. -/
def Dict.LAST_EVENT_LOG : Obj :=
  ⟨0x70400, .table, .ro, 3, .v, 64, 8, 4, 0, 0, 0xffffffffffffffff, 0xffffffffffffffff⟩

/-- 0x0800.00, R263 of 08_host_attach.md. -/
def Dict.ATTACH_LINK_STATE : Obj :=
  ⟨0x80000, .enum8, .ro, 3, .v, 1, 1, 0, 0, 0, 0xff, 0xff⟩

/-- 0x0800.01, R263 of 08_host_attach.md. -/
def Dict.ATTACH_MODULE_STATE : Obj :=
  ⟨0x80001, .table, .ro, 3, .v, 4, 1, 8, 0, 0, 0xff, 0xff⟩

/-- 0x0800.02, R263 of 08_host_attach.md. -/
def Dict.ATTACH_MODULE_REPAIRED : Obj :=
  ⟨0x80002, .table, .ro, 3, .v, 4, 1, 1, 0, 0, 0xff, 0xff⟩

/-- 0x0800.03, R263 of 08_host_attach.md. -/
def Dict.ATTACH_UNITS : Obj :=
  ⟨0x80003, .u8, .ro, 3, .v, 1, 1, 0, 0, 0, 0xff, 0xff⟩

/-- 0x0800.04, R263 of 08_host_attach.md. -/
def Dict.ATTACH_MODULE_ENABLE : Obj :=
  ⟨0x80004, .table, .rwl, 3, .p, 4, 1, 7, 1, 0, 0x1, 0xff⟩

/-- 0x0801.00, R263 of 08_host_attach.md. -/
def Dict.ATTACH_FUNC : Obj :=
  ⟨0x80100, .table, .rw, 1, .v, 1024, 16, 255, 0, 0, 0xffffffffffffffffffffffffffffffff, 0xffffffffffffffffffffffffffffffff⟩

/-- 0x0801.01, R263 of 08_host_attach.md. -/
def Dict.ATTACH_DMA_WINDOW : Obj :=
  ⟨0x80101, .table, .rw, 1, .v, 8192, 16, 255, 0, 0, 0xffffffffffffffffffffffffffffffff, 0xffffffffffffffffffffffffffffffff⟩

/-- 0x0801.02, R263 of 08_host_attach.md. -/
def Dict.ATTACH_VF_BAR0_LOG : Obj :=
  ⟨0x80102, .u8, .rw, 1, .p, 1, 1, 0, 21, 21, 0x1b, 0xff⟩

/-- 0x0801.03, R263 of 08_host_attach.md. -/
def Dict.ATTACH_PCI_IDS : Obj :=
  ⟨0x80103, .u64, .ro, 3, .b, 1, 8, 0, 0, 0, 0xffffffffffffffff, 0xffffffffffffffff⟩

/-- 0x0802.00, R263 of 08_host_attach.md. -/
def Dict.ATTACH_CLAIM_VECTOR : Obj :=
  ⟨0x80200, .table, .rw, 1, .v, 4, 2, 2, 0, 0, 0x7ff, 0xffff⟩

/-- 0x0803.00, R263 of 08_host_attach.md. -/
def Dict.ATTACH_STORE_BASE : Obj :=
  ⟨0x80300, .u64, .rw, 1, .v, 1, 8, 0, 0, 0, 0xffffffffffffffff, 0xffffffffffffffff⟩

/-- 0x0803.01, R263 of 08_host_attach.md. -/
def Dict.ATTACH_STORE_SIZE : Obj :=
  ⟨0x80301, .u64, .rw, 1, .v, 1, 8, 0, 0, 0, 0xffffffffffffffff, 0xffffffffffffffff⟩

/-- 0x0803.02, R263 of 08_host_attach.md. -/
def Dict.ATTACH_STORE_PEERS : Obj :=
  ⟨0x80302, .u32, .rw, 1, .v, 1, 4, 0, 1048576, 0, 0xffffffff, 0xffffffff⟩

/-- 0x0803.03, R263 of 08_host_attach.md. -/
def Dict.ATTACH_STORE_RESP_MIB : Obj :=
  ⟨0x80303, .u32, .rw, 1, .v, 1, 4, 0, 256, 2, 0x4000, 0xffffffff⟩

/-- 0x0803.04, R263 of 08_host_attach.md. -/
def Dict.ATTACH_STORE_TRACE_MIB : Obj :=
  ⟨0x80304, .u32, .rw, 1, .v, 1, 4, 0, 64, 2, 0x4000, 0xffffffff⟩

/-- 0x0803.05, R263 of 08_host_attach.md. -/
def Dict.ATTACH_STORE_CTL : Obj :=
  ⟨0x80305, .enum8, .wo, 1, .v, 1, 1, 0, 0, 1, 0x2, 0xff⟩

/-- 0x0803.06, R263 of 08_host_attach.md. -/
def Dict.ATTACH_STORE_STATE : Obj :=
  ⟨0x80306, .enum8, .ro, 3, .v, 1, 1, 0, 0, 0, 0xff, 0xff⟩

/-- 0x0803.07, R263 of 08_host_attach.md. -/
def Dict.ATTACH_STORE_MAP : Obj :=
  ⟨0x80307, .table, .ro, 3, .v, 6, 16, 255, 0, 0, 0xffffffffffffffffffffffffffffffff, 0xffffffffffffffffffffffffffffffff⟩

/-- 0x0804.00, R263 of 08_host_attach.md. -/
def Dict.ATTACH_EVENTS : Obj :=
  ⟨0x80400, .bits32, .w1c, 3, .v, 1, 4, 0, 0, 0, 0xffffffff, 0x3f⟩

/-- 0x0804.01, R263 of 08_host_attach.md. -/
def Dict.ATTACH_EVENT_ENABLE : Obj :=
  ⟨0x80401, .bits32, .rw, 3, .v, 1, 4, 0, 63, 0, 0xffffffff, 0x3f⟩

/-- 0x0900.00, R298 of 09_queues.md. -/
def Dict.QUEUE_MODE : Obj :=
  ⟨0x90000, .enum8, .rwl, 1, .p, 1, 1, 0, 0, 0, 0x1, 0xff⟩

/-- 0x0900.01, R298 of 09_queues.md. -/
def Dict.QUEUE_MODE_ACTIVE : Obj :=
  ⟨0x90001, .enum8, .ro, 3, .v, 1, 1, 0, 0, 0, 0xff, 0xff⟩

/-- 0x0901.00, R298 of 09_queues.md. -/
def Dict.QUEUE_STATE : Obj :=
  ⟨0x90100, .table, .ro, 3, .v, 1048576, 1, 8, 0, 0, 0xff, 0xff⟩

/-- 0x0901.01, R298 of 09_queues.md. -/
def Dict.QUEUE_ERR_LOG : Obj :=
  ⟨0x90101, .table, .ro, 3, .v, 64, 16, 255, 0, 0, 0xffffffffffffffffffffffffffffffff, 0xffffffffffffffffffffffffffffffff⟩

/-- 0x0902.00, R298 of 09_queues.md. -/
def Dict.QUEUE_CR_FULL_LIMIT_ST : Obj :=
  ⟨0x90200, .u32, .rw, 3, .p, 1, 4, 0, 9765625, 1024, 0xffffffff, 0xffffffff⟩

/-- 0x0902.01, R298 of 09_queues.md. -/
def Dict.QUEUE_PHASE_RETRIES : Obj :=
  ⟨0x90201, .u8, .rw, 3, .p, 1, 1, 0, 4, 0, 0x10, 0xff⟩

/-- 0x0902.02, R298 of 09_queues.md. -/
def Dict.QUEUE_IGROUP_STAGE : Obj :=
  ⟨0x90202, .u16, .rw, 3, .p, 1, 2, 0, 2048, 276, 0x4000, 0xffff⟩

/-- 0x0902.03, R298 of 09_queues.md. -/
def Dict.QUEUE_PREFETCH : Obj :=
  ⟨0x90203, .u8, .rw, 3, .p, 1, 1, 0, 16, 0, 0x10, 0xff⟩

/-- 0x0903.00, R298 of 09_queues.md. -/
def Dict.QUEUE_CTX_ONDIE : Obj :=
  ⟨0x90300, .u16, .ro, 3, .v, 1, 2, 0, 0, 0, 0xffff, 0xffff⟩

/-- 0x0903.01, R298 of 09_queues.md. -/
def Dict.QUEUE_WATCH_USED : Obj :=
  ⟨0x90301, .u16, .ro, 3, .v, 1, 2, 0, 0, 0, 0xffff, 0xffff⟩

/-- 0x0904.00, R298 of 09_queues.md. -/
def Dict.QUEUE_EVENTS : Obj :=
  ⟨0x90400, .bits32, .w1c, 3, .v, 1, 4, 0, 0, 0, 0xffffffff, 0x1f⟩

/-- 0x0904.01, R298 of 09_queues.md. -/
def Dict.QUEUE_EVENT_ENABLE : Obj :=
  ⟨0x90401, .bits32, .rw, 3, .v, 1, 4, 0, 31, 0, 0xffffffff, 0x1f⟩

/-- 0x0a00.00, R335 of 10_remote_memory.md. -/
def Dict.RMA_EP : Obj :=
  ⟨0xa0000, .table, .rw, 1, .v, 65535, 8, 255, 0, 0, 0xffffffffffffffff, 0xffffffffffffffff⟩

/-- 0x0a01.00, R335 of 10_remote_memory.md. -/
def Dict.RMA_WINDOW : Obj :=
  ⟨0xa0100, .u16, .rw, 3, .p, 1, 2, 0, 4096, 1, 0x4000, 0xffff⟩

/-- 0x0a01.01, R335 of 10_remote_memory.md. -/
def Dict.RMA_RTO_INIT_ST : Obj :=
  ⟨0xa0101, .u16, .rw, 2, .p, 1, 2, 0, 79, 8, 0x400, 0xffff⟩

/-- 0x0a01.02, R335 of 10_remote_memory.md. -/
def Dict.RMA_RTO_MAX_ST : Obj :=
  ⟨0xa0102, .u16, .rw, 2, .p, 1, 2, 0, 632, 8, 0x4000, 0xffff⟩

/-- 0x0a01.03, R335 of 10_remote_memory.md. -/
def Dict.RMA_RETRY_LIMIT : Obj :=
  ⟨0xa0103, .u8, .rw, 2, .p, 1, 1, 0, 5, 1, 0xf, 0xff⟩

/-- 0x0a01.04, R335 of 10_remote_memory.md. -/
def Dict.RMA_DUPTHRESH : Obj :=
  ⟨0xa0104, .u8, .rw, 2, .p, 1, 1, 0, 16, 1, 0x40, 0xff⟩

/-- 0x0a01.05, R335 of 10_remote_memory.md. -/
def Dict.RMA_REORDER_ST : Obj :=
  ⟨0xa0105, .u8, .rw, 2, .p, 1, 1, 0, 4, 1, 0x40, 0xff⟩

/-- 0x0a01.06, R335 of 10_remote_memory.md. -/
def Dict.RMA_RLATER_LIMIT : Obj :=
  ⟨0xa0106, .u8, .rw, 2, .p, 1, 1, 0, 255, 1, 0xff, 0xff⟩

/-- 0x0a01.07, R335 of 10_remote_memory.md. -/
def Dict.RMA_ACK_COALESCE : Obj :=
  ⟨0xa0107, .u8, .rw, 2, .p, 1, 1, 0, 16, 1, 0x40, 0xff⟩

/-- 0x0a01.08, R335 of 10_remote_memory.md. -/
def Dict.RMA_ACK_DELAY_ST : Obj :=
  ⟨0xa0108, .u8, .rw, 2, .p, 1, 1, 0, 2, 1, 0x10, 0xff⟩

/-- 0x0a02.00, R335 of 10_remote_memory.md. -/
def Dict.RMA_MISS_BACKOFF_ST : Obj :=
  ⟨0xa0200, .u16, .rw, 2, .p, 1, 2, 0, 8, 1, 0xfff, 0xffff⟩

/-- 0x0a02.01, R335 of 10_remote_memory.md. -/
def Dict.RMA_PEER_IDLE_FR : Obj :=
  ⟨0xa0201, .u16, .rw, 3, .p, 1, 2, 0, 64, 0, 0xffff, 0xffff⟩

/-- 0x0a02.02, R335 of 10_remote_memory.md. -/
def Dict.RMA_PEERS_ONDIE : Obj :=
  ⟨0xa0202, .u32, .ro, 3, .v, 1, 4, 0, 0, 0, 0xffffffff, 0xffffffff⟩

/-- 0x0a02.03, R335 of 10_remote_memory.md. -/
def Dict.RMA_PEERS_STORED : Obj :=
  ⟨0xa0203, .u32, .ro, 3, .v, 1, 4, 0, 0, 0, 0xffffffff, 0xffffffff⟩

/-- 0x0a02.04, R335 of 10_remote_memory.md. -/
def Dict.RMA_MISS_POOL_FREE : Obj :=
  ⟨0xa0204, .u32, .ro, 3, .v, 1, 4, 0, 131072, 0, 0xffffffff, 0xffffffff⟩

/-- 0x0a02.05, R335 of 10_remote_memory.md. -/
def Dict.RMA_RESP_CACHE_USED : Obj :=
  ⟨0xa0205, .u32, .ro, 3, .v, 1, 4, 0, 0, 0, 0xffffffff, 0xffffffff⟩

/-- 0x0a03.00, R335 of 10_remote_memory.md. -/
def Dict.RMA_RATE_MAX : Obj :=
  ⟨0xa0300, .u16, .rw, 2, .p, 1, 2, 0, 20480, 64, 0x5000, 0xffff⟩

/-- 0x0a03.01, R335 of 10_remote_memory.md. -/
def Dict.RMA_RATE_MIN : Obj :=
  ⟨0xa0301, .u16, .rw, 2, .p, 1, 2, 0, 64, 64, 0x5000, 0xffff⟩

/-- 0x0a03.02, R335 of 10_remote_memory.md. -/
def Dict.RMA_RATE_AI : Obj :=
  ⟨0xa0302, .u16, .rw, 2, .p, 1, 2, 0, 256, 1, 0x1000, 0xffff⟩

/-- 0x0a03.03, R335 of 10_remote_memory.md. -/
def Dict.RMA_CC_PERIOD_ST : Obj :=
  ⟨0xa0303, .u8, .rw, 2, .p, 1, 1, 0, 8, 1, 0x40, 0xff⟩

/-- 0x0a03.04, R335 of 10_remote_memory.md. -/
def Dict.RMA_CC_ENABLE : Obj :=
  ⟨0xa0304, .bool, .rw, 2, .p, 1, 1, 0, 1, 0, 0x1, 0xff⟩

/-- 0x0a04.00, R335 of 10_remote_memory.md. -/
def Dict.RMA_EVENTS : Obj :=
  ⟨0xa0400, .bits32, .w1c, 3, .v, 1, 4, 0, 0, 0, 0xffffffff, 0x7f⟩

/-- 0x0a04.01, R335 of 10_remote_memory.md. -/
def Dict.RMA_EVENT_ENABLE : Obj :=
  ⟨0xa0401, .bits32, .rw, 3, .v, 1, 4, 0, 127, 0, 0xffffffff, 0x7f⟩

/-- 0x0b00.00, R358 of 11_translation.md. -/
def Dict.TRANS_SEG_BASE : Obj :=
  ⟨0xb0000, .u64, .rwl, 1, .v, 1, 8, 0, 0, 0, 0xffffffffffffffff, 0xffffffffffffffff⟩

/-- 0x0b00.01, R358 of 11_translation.md. -/
def Dict.TRANS_SEG_ORDER : Obj :=
  ⟨0xb0001, .u8, .rwl, 1, .v, 1, 1, 0, 16, 8, 0x18, 0xff⟩

/-- 0x0b00.02, R358 of 11_translation.md. -/
def Dict.TRANS_FUNC_SEGS : Obj :=
  ⟨0xb0002, .table, .rw, 1, .v, 1024, 8, 4, 0, 0, 0xffffffffffffffff, 0xffffffffffffffff⟩

/-- 0x0b01.00, R358 of 11_translation.md. -/
def Dict.TRANS_DEVICE_REGION : Obj :=
  ⟨0xb0100, .table, .rwl, 1, .v, 16, 16, 255, 0, 0, 0xffffffffffffffffffffffffffffffff, 0xffffffffffffffffffffffffffffffff⟩

/-- 0x0b01.01, R358 of 11_translation.md. -/
def Dict.TRANS_WALK_TIMEOUT_ST : Obj :=
  ⟨0xb0101, .u16, .rw, 3, .p, 1, 2, 0, 64, 8, 0x1000, 0xffff⟩

/-- 0x0b02.00, R358 of 11_translation.md. -/
def Dict.TRANS_CACHE_USED : Obj :=
  ⟨0xb0200, .u32, .ro, 3, .v, 1, 4, 0, 0, 0, 0xffffffff, 0xffffffff⟩

/-- 0x0b02.01, R358 of 11_translation.md. -/
def Dict.TRANS_WALKS_ACTIVE : Obj :=
  ⟨0xb0201, .u8, .ro, 3, .v, 1, 1, 0, 0, 0, 0xff, 0xff⟩

/-- 0x0b03.00, R358 of 11_translation.md. -/
def Dict.TRANS_FAULT_LOG : Obj :=
  ⟨0xb0300, .table, .ro, 3, .v, 32, 16, 255, 0, 0, 0xffffffffffffffffffffffffffffffff, 0xffffffffffffffffffffffffffffffff⟩

/-- 0x0b04.00, R358 of 11_translation.md. -/
def Dict.TRANS_EVENTS : Obj :=
  ⟨0xb0400, .bits32, .w1c, 3, .v, 1, 4, 0, 0, 0, 0xffffffff, 0xf⟩

/-- 0x0b04.01, R358 of 11_translation.md. -/
def Dict.TRANS_EVENT_ENABLE : Obj :=
  ⟨0xb0401, .bits32, .rw, 3, .v, 1, 4, 0, 15, 0, 0xffffffff, 0xf⟩

/-- 0x0c00.00, R385 of 12_matching.md. -/
def Dict.MATCH_EP : Obj :=
  ⟨0xc0000, .table, .rw, 1, .v, 65535, 32, 255, 0, 0, 0xffffffffffffffffffffffffffffffffffffffffffffffffffffffffffffffff, 0xffffffffffffffffffffffffffffffffffffffffffffffffffffffffffffffff⟩

/-- 0x0c00.01, R385 of 12_matching.md. -/
def Dict.MATCH_EP_USE : Obj :=
  ⟨0xc0001, .table, .ro, 3, .v, 65535, 8, 4, 0, 0, 0xffffffffffffffff, 0xffffffffffffffff⟩

/-- 0x0c01.00, R385 of 12_matching.md. -/
def Dict.MATCH_EAGER_LIMIT : Obj :=
  ⟨0xc0100, .u32, .rw, 3, .p, 1, 4, 0, 16384, 0, 0x4000, 0xffffffff⟩

/-- 0x0c01.01, R385 of 12_matching.md. -/
def Dict.MATCH_RNDV_LIMIT_FR : Obj :=
  ⟨0xc0101, .u16, .rw, 3, .p, 1, 2, 0, 64, 1, 0xffff, 0xffff⟩

/-- 0x0c02.00, R385 of 12_matching.md. -/
def Dict.MATCH_TABLE : Obj :=
  ⟨0xc0200, .table, .ro, 3, .v, 524288, 64, 255, 0, 0, 0xffffffffffffffffffffffffffffffffffffffffffffffffffffffffffffffffffffffffffffffffffffffffffffffffffffffffffffffffffffffffffffffff, 0xffffffffffffffffffffffffffffffffffffffffffffffffffffffffffffffffffffffffffffffffffffffffffffffffffffffffffffffffffffffffffffffff⟩

/-- 0x0c02.01, R385 of 12_matching.md. -/
def Dict.MATCH_RNDV_OUT : Obj :=
  ⟨0xc0201, .u32, .ro, 3, .v, 1, 4, 0, 0, 0, 0xffffffff, 0xffffffff⟩

/-- 0x0c03.00, R385 of 12_matching.md. -/
def Dict.MATCH_EVENTS : Obj :=
  ⟨0xc0300, .bits32, .w1c, 3, .v, 1, 4, 0, 0, 0, 0xffffffff, 0x1f⟩

/-- 0x0c03.01, R385 of 12_matching.md. -/
def Dict.MATCH_EVENT_ENABLE : Obj :=
  ⟨0xc0301, .bits32, .rw, 3, .v, 1, 4, 0, 30, 0, 0xffffffff, 0x1f⟩

/-- 0x0d00.00, R417 of 13_collectives.md. -/
def Dict.COLL_GROUP : Obj :=
  ⟨0xd0000, .table, .rw, 2, .v, 4096, 32, 255, 0, 0, 0xffffffffffffffffffffffffffffffffffffffffffffffffffffffffffffffff, 0xffffffffffffffffffffffffffffffffffffffffffffffffffffffffffffffff⟩

/-- 0x0d00.01, R417 of 13_collectives.md. -/
def Dict.COLL_GROUP_VIEW : Obj :=
  ⟨0xd0001, .table, .ro, 3, .v, 4096, 8, 4, 0, 0, 0xffffffffffffffff, 0xffffffffffffffff⟩

/-- 0x0d00.02, R417 of 13_collectives.md. -/
def Dict.COLL_BLOCKS_FREE : Obj :=
  ⟨0xd0002, .u16, .ro, 3, .v, 1, 2, 0, 16384, 0, 0xffff, 0xffff⟩

/-- 0x0d01.00, R417 of 13_collectives.md. -/
def Dict.COLL_OP_TIMEOUT_ST : Obj :=
  ⟨0xd0100, .u32, .rw, 3, .p, 1, 4, 0, 10240, 1024, 0xffffffff, 0xffffffff⟩

/-- 0x0d01.01, R417 of 13_collectives.md. -/
def Dict.COLL_RESTART_WAIT_ST : Obj :=
  ⟨0xd0101, .u16, .rw, 2, .p, 1, 2, 0, 1024, 64, 0xffff, 0xffff⟩

/-- 0x0d01.02, R417 of 13_collectives.md. -/
def Dict.COLL_CP_CAP : Obj :=
  ⟨0xd0102, .u16, .rw, 2, .p, 1, 2, 0, 320, 1, 0x180, 0xffff⟩

/-- 0x0d02.00, R417 of 13_collectives.md. -/
def Dict.COLL_LOG : Obj :=
  ⟨0xd0200, .table, .ro, 3, .v, 32, 16, 255, 0, 0, 0xffffffffffffffffffffffffffffffff, 0xffffffffffffffffffffffffffffffff⟩

/-- 0x0d03.00, R417 of 13_collectives.md. -/
def Dict.COLL_EVENTS : Obj :=
  ⟨0xd0300, .bits32, .w1c, 3, .v, 1, 4, 0, 0, 0, 0xffffffff, 0x3f⟩

/-- 0x0d03.01, R417 of 13_collectives.md. -/
def Dict.COLL_EVENT_ENABLE : Obj :=
  ⟨0xd0301, .bits32, .rw, 3, .v, 1, 4, 0, 63, 0, 0xffffffff, 0x3f⟩

/-- 0x0e00.00, R447 of 14_semaphores_claims.md. -/
def Dict.SEM_STATE : Obj :=
  ⟨0xe0000, .table, .ro, 3, .v, 4096, 8, 4, 0, 0, 0xffffffffffffffff, 0xffffffffffffffff⟩

/-- 0x0e00.01, R447 of 14_semaphores_claims.md. -/
def Dict.SEM_RIGHTS : Obj :=
  ⟨0xe0001, .table, .rwl, 3, .v, 4096, 4, 3, 0, 0, 0xffffffff, 0xffffffff⟩

/-- 0x0e00.02, R447 of 14_semaphores_claims.md. -/
def Dict.SEM_M_PRIORITY : Obj :=
  ⟨0xe0002, .u8, .rw, 2, .p, 1, 1, 0, 7, 0, 0x7, 0xff⟩

/-- 0x0e00.03, R447 of 14_semaphores_claims.md. -/
def Dict.SEM_WAITERS_FREE : Obj :=
  ⟨0xe0003, .u16, .ro, 3, .v, 1, 2, 0, 16384, 0, 0xffff, 0xffff⟩

/-- 0x0e01.00, R447 of 14_semaphores_claims.md. -/
def Dict.SEM_EVRING : Obj :=
  ⟨0xe0100, .table, .rw, 1, .v, 1024, 16, 255, 0, 0, 0xffffffffffffffffffffffffffffffff, 0xffffffffffffffffffffffffffffffff⟩

/-- 0x0e01.01, R447 of 14_semaphores_claims.md. -/
def Dict.SEM_EVENT_SOURCE : Obj :=
  ⟨0xe0101, .u16, .rw, 3, .v, 1, 2, 0, 402, 400, 0x3fb, 0xffff⟩

/-- 0x0e02.00, R447 of 14_semaphores_claims.md. -/
def Dict.CLAIM_SOURCE : Obj :=
  ⟨0xe0200, .table, .rw, 3, .v, 1024, 4, 3, 0, 0, 0xffffffff, 0xffffffff⟩

/-- 0x0e02.01, R447 of 14_semaphores_claims.md. -/
def Dict.CLAIM_THRESHOLD : Obj :=
  ⟨0xe0201, .table, .rw, 3, .v, 12, 1, 1, 0, 0, 0xf, 0xff⟩

/-- 0x0e03.00, R447 of 14_semaphores_claims.md. -/
def Dict.SEM_EVENTS : Obj :=
  ⟨0xe0300, .bits32, .w1c, 3, .v, 1, 4, 0, 0, 0, 0xffffffff, 0x3f⟩

/-- 0x0e03.01, R447 of 14_semaphores_claims.md. -/
def Dict.SEM_EVENT_ENABLE : Obj :=
  ⟨0xe0301, .bits32, .rw, 3, .v, 1, 4, 0, 63, 0, 0xffffffff, 0x3f⟩

/-- 0x0f00.00, R468 of 15_faults_failsafe.md. -/
def Dict.FAULT_STATE : Obj :=
  ⟨0xf0000, .enum8, .ro, 3, .v, 1, 1, 0, 0, 0, 0xff, 0xff⟩

/-- 0x0f00.01, R468 of 15_faults_failsafe.md. -/
def Dict.FAULT_ISOLATE_CAUSE : Obj :=
  ⟨0xf0001, .u16, .ro, 3, .v, 1, 2, 0, 0, 0, 0xffff, 0xffff⟩

/-- 0x0f00.02, R468 of 15_faults_failsafe.md. -/
def Dict.FAULT_FATAL_CODE : Obj :=
  ⟨0xf0002, .u16, .ro, 3, .p, 1, 2, 0, 0, 0, 0xffff, 0xffff⟩

/-- 0x0f01.00, R468 of 15_faults_failsafe.md. -/
def Dict.FAULT_LOG : Obj :=
  ⟨0xf0100, .table, .ro, 3, .v, 256, 32, 255, 0, 0, 0xffffffffffffffffffffffffffffffffffffffffffffffffffffffffffffffff, 0xffffffffffffffffffffffffffffffffffffffffffffffffffffffffffffffff⟩

/-- 0x0f01.01, R468 of 15_faults_failsafe.md. -/
def Dict.FAULT_UNACKED : Obj :=
  ⟨0xf0101, .u16, .ro, 3, .v, 1, 2, 0, 0, 0, 0xffff, 0xffff⟩

/-- 0x0f01.02, R468 of 15_faults_failsafe.md. -/
def Dict.FAULT_UC_HOLD_ST : Obj :=
  ⟨0xf0102, .u16, .rw, 2, .p, 1, 2, 0, 16, 1, 0x400, 0xffff⟩

/-- 0x0f01.03, R468 of 15_faults_failsafe.md. -/
def Dict.FAULT_N_CLEAR : Obj :=
  ⟨0xf0103, .bool, .wo, 3, .v, 1, 1, 0, 0, 0, 0x1, 0xff⟩

/-- 0x0f02.00, R468 of 15_faults_failsafe.md. -/
def Dict.FAULT_HISTORY : Obj :=
  ⟨0xf0200, .table, .ro, 3, .p, 32, 16, 255, 0, 0, 0xffffffffffffffffffffffffffffffff, 0xffffffffffffffffffffffffffffffff⟩

/-- 0x0f02.01, R468 of 15_faults_failsafe.md. -/
def Dict.FAULT_HISTORY_CORRECTED : Obj :=
  ⟨0xf0201, .bool, .rw, 3, .p, 1, 1, 0, 0, 0, 0x1, 0xff⟩

/-- 0x0f02.02, R468 of 15_faults_failsafe.md. -/
def Dict.FAULT_HISTORY_CLEAR : Obj :=
  ⟨0xf0202, .bool, .wo, 2, .v, 1, 1, 0, 0, 0, 0x1, 0xff⟩

/-- 0x0f03.00, R468 of 15_faults_failsafe.md. -/
def Dict.FAULT_RECORDS : Obj :=
  ⟨0xf0300, .table, .ro, 3, .p, 32768, 32, 255, 0, 0, 0xffffffffffffffffffffffffffffffffffffffffffffffffffffffffffffffff, 0xffffffffffffffffffffffffffffffffffffffffffffffffffffffffffffffff⟩

/-- 0x0f03.01, R468 of 15_faults_failsafe.md. -/
def Dict.FAULT_RECORDS_NEXT : Obj :=
  ⟨0xf0301, .u32, .ro, 3, .p, 1, 4, 0, 0, 0, 0xffffffff, 0xffffffff⟩

/-- 0x0f04.00, R468 of 15_faults_failsafe.md. -/
def Dict.FAULT_DEVICE_ISOLATE : Obj :=
  ⟨0xf0400, .bool, .wo, 2, .v, 1, 1, 0, 0, 0, 0x1, 0xff⟩

/-- 0x0f04.01, R468 of 15_faults_failsafe.md. -/
def Dict.FAULT_DEVICE_RELEASE : Obj :=
  ⟨0xf0401, .bool, .wo, 2, .v, 1, 1, 0, 0, 0, 0x1, 0xff⟩

/-- 0x0f04.02, R468 of 15_faults_failsafe.md. -/
def Dict.FAULT_PORT_ISOLATE : Obj :=
  ⟨0xf0402, .table, .wo, 2, .v, 96, 1, 7, 0, 0, 0x1, 0xff⟩

/-- 0x0f05.00, R468 of 15_faults_failsafe.md. -/
def Dict.FAULT_INJECT : Obj :=
  ⟨0xf0500, .u64, .wo, 3, .v, 1, 8, 0, 0, 0, 0xffffffffffffffff, 0xffffffffffffffff⟩

/-- 0x0f06.00, R468 of 15_faults_failsafe.md. -/
def Dict.SUPPLY_CORE_MV : Obj :=
  ⟨0xf0600, .u16, .ro, 3, .v, 1, 2, 0, 0, 0, 0xffff, 0xffff⟩

/-- 0x0f07.00, R468 of 15_faults_failsafe.md. -/
def Dict.FAULT_EVENTS : Obj :=
  ⟨0xf0700, .bits32, .w1c, 3, .v, 1, 4, 0, 0, 0, 0xffffffff, 0x3ff⟩

/-- 0x0f07.01, R468 of 15_faults_failsafe.md. -/
def Dict.FAULT_EVENT_ENABLE : Obj :=
  ⟨0xf0701, .bits32, .rw, 3, .v, 1, 4, 0, 1022, 0, 0xffffffff, 0x3ff⟩

/-- 0x1000.00, R490 of 16_power_insertion.md. -/
def Dict.PWR_STATE : Obj :=
  ⟨0x100000, .enum8, .ro, 3, .v, 1, 1, 0, 0, 0, 0xff, 0xff⟩

/-- 0x1000.01, R490 of 16_power_insertion.md. -/
def Dict.PWR_RESET_KIND : Obj :=
  ⟨0x100001, .u8, .ro, 3, .v, 1, 1, 0, 0, 0, 0xff, 0xff⟩

/-- 0x1000.02, R490 of 16_power_insertion.md. -/
def Dict.PWR_RESET : Obj :=
  ⟨0x100002, .u8, .wo, 2, .v, 1, 1, 0, 0, 165, 0xa5, 0xff⟩

/-- 0x1000.03, R490 of 16_power_insertion.md. -/
def Dict.PWR_DOMAINS : Obj :=
  ⟨0x100003, .bits32, .ro, 3, .v, 1, 4, 0, 0, 0, 0xffffffff, 0xffffffff⟩

/-- 0x1000.04, R490 of 16_power_insertion.md. -/
def Dict.PWR_DORMANT_COUNT : Obj :=
  ⟨0x100004, .u32, .ro, 3, .v, 1, 4, 0, 0, 0, 0xffffffff, 0xffffffff⟩

/-- 0x1001.00, R490 of 16_power_insertion.md. -/
def Dict.PWR_REST_ENABLE : Obj :=
  ⟨0x100100, .table, .rw, 2, .p, 96, 1, 7, 1, 0, 0x1, 0xff⟩

/-- 0x1001.01, R490 of 16_power_insertion.md. -/
def Dict.PWR_REST_IDLE_FR : Obj :=
  ⟨0x100101, .u16, .rw, 2, .p, 1, 2, 0, 1, 1, 0xffff, 0xffff⟩

/-- 0x1001.02, R490 of 16_power_insertion.md. -/
def Dict.PWR_WAKE_PORT : Obj :=
  ⟨0x100102, .table, .wo, 3, .v, 96, 1, 7, 0, 0, 0x1, 0xff⟩

/-- 0x1002.00, R490 of 16_power_insertion.md. -/
def Dict.PWR_STANDBY_ALLOW : Obj :=
  ⟨0x100200, .bool, .rw, 2, .p, 1, 1, 0, 0, 0, 0x1, 0xff⟩

/-- 0x1002.01, R490 of 16_power_insertion.md. -/
def Dict.PWR_STANDBY_IDLE_FR : Obj :=
  ⟨0x100201, .u32, .rw, 2, .p, 1, 4, 0, 9537, 16, 0xffffffff, 0xffffffff⟩

/-- 0x1002.02, R490 of 16_power_insertion.md. -/
def Dict.PWR_WAKE_ENABLE : Obj :=
  ⟨0x100202, .bits32, .rw, 2, .p, 1, 4, 0, 3, 0, 0xffffffff, 0xf⟩

/-- 0x1002.03, R490 of 16_power_insertion.md. -/
def Dict.PWR_WAKE_PORTS : Obj :=
  ⟨0x100203, .table, .rw, 2, .p, 96, 1, 7, 0, 0, 0x1, 0xff⟩

/-- 0x1002.04, R490 of 16_power_insertion.md. -/
def Dict.PWR_WAKE_TIMER_S : Obj :=
  ⟨0x100204, .u32, .rw, 2, .p, 1, 4, 0, 0, 0, 0xffffffff, 0xffffffff⟩

/-- 0x1002.05, R490 of 16_power_insertion.md. -/
def Dict.PWR_LAST_WAKE : Obj :=
  ⟨0x100205, .u64, .ro, 3, .v, 1, 8, 0, 0, 0, 0xffffffffffffffff, 0xffffffffffffffff⟩

/-- 0x1003.00, R490 of 16_power_insertion.md. -/
def Dict.PWR_DEPART : Obj :=
  ⟨0x100300, .bool, .wo, 2, .v, 1, 1, 0, 0, 0, 0x1, 0xff⟩

/-- 0x1003.01, R490 of 16_power_insertion.md. -/
def Dict.PWR_DEPART_AT : Obj :=
  ⟨0x100301, .u64, .ro, 3, .v, 1, 8, 0, 0, 0, 0xffffffffffffffff, 0xffffffffffffffff⟩

/-- 0x1004.00, R490 of 16_power_insertion.md. -/
def Dict.PWR_EVENTS : Obj :=
  ⟨0x100400, .bits32, .w1c, 3, .v, 1, 4, 0, 0, 0, 0xffffffff, 0x1f⟩

/-- 0x1004.01, R490 of 16_power_insertion.md. -/
def Dict.PWR_EVENT_ENABLE : Obj :=
  ⟨0x100401, .bits32, .rw, 3, .v, 1, 4, 0, 31, 0, 0xffffffff, 0x1f⟩

/-- 0x1100.00, R511 of 17_boot_firmware.md. -/
def Dict.SEC_BOOT_SEL : Obj :=
  ⟨0x110000, .u8, .ro, 3, .v, 1, 1, 0, 0, 0, 0xff, 0xff⟩

/-- 0x1100.01, R511 of 17_boot_firmware.md. -/
def Dict.SEC_BOOT_STATUS : Obj :=
  ⟨0x110001, .enum8, .ro, 3, .v, 1, 1, 0, 0, 0, 0xff, 0xff⟩

/-- 0x1101.00, R511 of 17_boot_firmware.md. -/
def Dict.SEC_IDENTITY_PUB : Obj :=
  ⟨0x110100, .octets, .ro, 3, .b, 1, 57, 0, 0, 0, 0xffffffffffffffffffffffffffffffffffffffffffffffffffffffffffffffffffffffffffffffffffffffffffffffffffffffffffffffffff, 0xffffffffffffffffffffffffffffffffffffffffffffffffffffffffffffffffffffffffffffffffffffffffffffffffffffffffffffffffff⟩

/-- 0x1101.01, R511 of 17_boot_firmware.md. -/
def Dict.SEC_ROOT_HASH : Obj :=
  ⟨0x110101, .octets, .ro, 3, .b, 1, 64, 0, 0, 0, 0xffffffffffffffffffffffffffffffffffffffffffffffffffffffffffffffffffffffffffffffffffffffffffffffffffffffffffffffffffffffffffffffff, 0xffffffffffffffffffffffffffffffffffffffffffffffffffffffffffffffffffffffffffffffffffffffffffffffffffffffffffffffffffffffffffffffff⟩

/-- 0x1101.02, R511 of 17_boot_firmware.md. -/
def Dict.SEC_MEASURE : Obj :=
  ⟨0x110102, .table, .ro, 3, .v, 16, 64, 11, 0, 0, 0xffffffffffffffffffffffffffffffffffffffffffffffffffffffffffffffffffffffffffffffffffffffffffffffffffffffffffffffffffffffffffffffff, 0xffffffffffffffffffffffffffffffffffffffffffffffffffffffffffffffffffffffffffffffffffffffffffffffffffffffffffffffffffffffffffffffff⟩

/-- 0x1102.00, R511 of 17_boot_firmware.md. -/
def Dict.SEC_ATTEST_NONCE : Obj :=
  ⟨0x110200, .octets, .wo, 3, .v, 1, 64, 0, 0, 0, 0xffffffffffffffffffffffffffffffffffffffffffffffffffffffffffffffffffffffffffffffffffffffffffffffffffffffffffffffffffffffffffffffff, 0xffffffffffffffffffffffffffffffffffffffffffffffffffffffffffffffffffffffffffffffffffffffffffffffffffffffffffffffffffffffffffffffff⟩

/-- 0x1102.01, R511 of 17_boot_firmware.md. -/
def Dict.SEC_ATTEST_STATE : Obj :=
  ⟨0x110201, .enum8, .ro, 3, .v, 1, 1, 0, 0, 0, 0xff, 0xff⟩

/-- 0x1102.02, R511 of 17_boot_firmware.md. -/
def Dict.SEC_ATTEST_REPORT : Obj :=
  ⟨0x110202, .table, .ro, 3, .v, 22, 64, 11, 0, 0, 0xffffffffffffffffffffffffffffffffffffffffffffffffffffffffffffffffffffffffffffffffffffffffffffffffffffffffffffffffffffffffffffffff, 0xffffffffffffffffffffffffffffffffffffffffffffffffffffffffffffffffffffffffffffffffffffffffffffffffffffffffffffffffffffffffffffffff⟩

/-- 0x1103.00, R511 of 17_boot_firmware.md. -/
def Dict.FW_STAGE_CTL : Obj :=
  ⟨0x110300, .enum8, .rwl, 2, .v, 1, 1, 0, 0, 1, 0x3, 0xff⟩

/-- 0x1103.01, R511 of 17_boot_firmware.md. -/
def Dict.FW_STAGE_STATE : Obj :=
  ⟨0x110301, .enum8, .ro, 3, .p, 1, 1, 0, 0, 0, 0xff, 0xff⟩

/-- 0x1103.02, R511 of 17_boot_firmware.md. -/
def Dict.FW_STAGE_REASON : Obj :=
  ⟨0x110302, .u8, .ro, 3, .p, 1, 1, 0, 0, 0, 0xff, 0xff⟩

/-- 0x1103.03, R511 of 17_boot_firmware.md. -/
def Dict.FW_STAGE_DATA : Obj :=
  ⟨0x110303, .table, .wo, 2, .v, 196608, 64, 11, 0, 0, 0xffffffffffffffffffffffffffffffffffffffffffffffffffffffffffffffffffffffffffffffffffffffffffffffffffffffffffffffffffffffffffffffff, 0xffffffffffffffffffffffffffffffffffffffffffffffffffffffffffffffffffffffffffffffffffffffffffffffffffffffffffffffffffffffffffffffff⟩

/-- 0x1103.04, R511 of 17_boot_firmware.md. -/
def Dict.FW_CHUNK_DONE : Obj :=
  ⟨0x110304, .u16, .wo, 2, .v, 1, 2, 0, 0, 0, 0xffff, 0xffff⟩

/-- 0x1103.05, R511 of 17_boot_firmware.md. -/
def Dict.FW_CHUNK_BITMAP : Obj :=
  ⟨0x110305, .table, .ro, 3, .p, 96, 4, 9, 0, 0, 0xffffffff, 0xffffffff⟩

/-- 0x1103.06, R511 of 17_boot_firmware.md. -/
def Dict.FW_STAGE_MISSING : Obj :=
  ⟨0x110306, .u16, .ro, 3, .p, 1, 2, 0, 0, 0, 0xffff, 0xffff⟩

/-- 0x1104.00, R511 of 17_boot_firmware.md. -/
def Dict.FW_COMMIT : Obj :=
  ⟨0x110400, .table, .ro, 3, .v, 2, 32, 255, 0, 0, 0xffffffffffffffffffffffffffffffffffffffffffffffffffffffffffffffff, 0xffffffffffffffffffffffffffffffffffffffffffffffffffffffffffffffff⟩

/-- 0x1105.00, R511 of 17_boot_firmware.md. -/
def Dict.SEC_EVENTS : Obj :=
  ⟨0x110500, .bits32, .w1c, 3, .v, 1, 4, 0, 0, 0, 0xffffffff, 0x3f⟩

/-- 0x1105.01, R511 of 17_boot_firmware.md. -/
def Dict.SEC_EVENT_ENABLE : Obj :=
  ⟨0x110501, .bits32, .rw, 3, .v, 1, 4, 0, 63, 0, 0xffffffff, 0x3f⟩

/-- 0x1180.00, R511 of 17_boot_firmware.md. -/
def Dict.PMAP_FORMAT : Obj :=
  ⟨0x118000, .u16, .bs, 3, .b, 1, 2, 0, 1, 0, 0xffff, 0xffff⟩

/-- 0x1181.00, R511 of 17_boot_firmware.md. -/
def Dict.PMAP_RANGE_RIGHTS : Obj :=
  ⟨0x118100, .table, .bs, 3, .b, 19, 1, 1, 3, 0, 0xff, 0xff⟩

/-- 0x1182.00, R511 of 17_boot_firmware.md. -/
def Dict.PMAP_MGMT_SOURCES : Obj :=
  ⟨0x118200, .table, .bs, 3, .b, 16, 8, 4, 0, 0, 0xffffffffffffffff, 0xffffffffffffffff⟩

/-- 0x1183.00, R511 of 17_boot_firmware.md. -/
def Dict.PMAP_VF_LIMIT : Obj :=
  ⟨0x118300, .u16, .bs, 3, .b, 1, 2, 0, 1023, 0, 0x3ff, 0xffff⟩

/-- 0x1183.01, R511 of 17_boot_firmware.md. -/
def Dict.PMAP_MGMT_VF_ALLOW : Obj :=
  ⟨0x118301, .bool, .bs, 3, .b, 1, 1, 0, 0, 0, 0x1, 0xff⟩

/-- 0x1184.00, R511 of 17_boot_firmware.md. -/
def Dict.PMAP_DEBUG_LOCK : Obj :=
  ⟨0x118400, .enum8, .bs, 3, .b, 1, 1, 0, 0, 0, 0x1, 0xff⟩

/-- 0x11c0.00, R511 of 17_boot_firmware.md. -/
def Dict.SEC_OWNER_KEY : Obj :=
  ⟨0x11c000, .octets, .bs, 3, .b, 1, 57, 0, 0, 0, 0xffffffffffffffffffffffffffffffffffffffffffffffffffffffffffffffffffffffffffffffffffffffffffffffffffffffffffffffffff, 0xffffffffffffffffffffffffffffffffffffffffffffffffffffffffffffffffffffffffffffffffffffffffffffffffffffffffffffffffff⟩

/-- 0x11c0.01, R511 of 17_boot_firmware.md. -/
def Dict.SEC_OWNER_STATE : Obj :=
  ⟨0x11c001, .enum8, .bs, 3, .b, 1, 1, 0, 0, 0, 0x1, 0xff⟩

/-- 0x11c1.00, R511 of 17_boot_firmware.md. -/
def Dict.SEC_MIN_SVN : Obj :=
  ⟨0x11c100, .u32, .bs, 3, .b, 1, 4, 0, 0, 0, 0xffffffff, 0xffffffff⟩

/-- 0x1200.00, R532 of 18_counters_sampling.md. -/
def Dict.CNT_CTL : Obj :=
  ⟨0x120000, .table, .rw, 3, .v, 544, 8, 255, 0, 0, 0xffffffffffffffff, 0xffffffffffffffff⟩

/-- 0x1200.01, R532 of 18_counters_sampling.md. -/
def Dict.CNT_VALUE : Obj :=
  ⟨0x120001, .table, .rw, 3, .v, 544, 8, 4, 0, 0, 0xffffffffffffffff, 0xffffffffffffffff⟩

/-- 0x1200.02, R532 of 18_counters_sampling.md. -/
def Dict.CNT_SHADOW : Obj :=
  ⟨0x120002, .table, .ro, 3, .v, 544, 8, 4, 0, 0, 0xffffffffffffffff, 0xffffffffffffffff⟩

/-- 0x1200.03, R532 of 18_counters_sampling.md. -/
def Dict.CNT_OVF : Obj :=
  ⟨0x120003, .table, .ro, 3, .v, 17, 4, 9, 0, 0, 0xffffffff, 0xffffffff⟩

/-- 0x1200.04, R532 of 18_counters_sampling.md. -/
def Dict.CNT_SNAP_NOW : Obj :=
  ⟨0x120004, .bool, .wo, 3, .v, 1, 1, 0, 0, 0, 0x1, 0xff⟩

/-- 0x1201.00, R532 of 18_counters_sampling.md. -/
def Dict.CNT_GRANT : Obj :=
  ⟨0x120100, .table, .rw, 1, .v, 544, 2, 2, 65535, 0, 0xffff, 0xffff⟩

/-- 0x1201.01, R532 of 18_counters_sampling.md. -/
def Dict.CNT_M_FIRST : Obj :=
  ⟨0x120101, .u16, .rwl, 3, .p, 1, 2, 0, 480, 0, 0x220, 0xffff⟩

/-- 0x1201.02, R532 of 18_counters_sampling.md. -/
def Dict.CNT_EVENT_SOURCE : Obj :=
  ⟨0x120102, .u16, .rw, 3, .v, 1, 2, 0, 403, 400, 0x3fb, 0xffff⟩

/-- 0x1202.00, R532 of 18_counters_sampling.md. -/
def Dict.TRACE_K : Obj :=
  ⟨0x120200, .table, .rw, 3, .v, 4, 1, 1, 0, 0, 0xff, 0xff⟩

/-- 0x1202.01, R532 of 18_counters_sampling.md. -/
def Dict.TRACE_ENABLE : Obj :=
  ⟨0x120201, .bool, .rw, 3, .v, 1, 1, 0, 0, 0, 0x1, 0xff⟩

/-- 0x1202.02, R532 of 18_counters_sampling.md. -/
def Dict.TRACE_RING : Obj :=
  ⟨0x120202, .table, .ro, 3, .v, 0, 64, 255, 0, 0, 0xffffffffffffffffffffffffffffffffffffffffffffffffffffffffffffffffffffffffffffffffffffffffffffffffffffffffffffffffffffffffffffffff, 0xffffffffffffffffffffffffffffffffffffffffffffffffffffffffffffffffffffffffffffffffffffffffffffffffffffffffffffffffffffffffffffffff⟩

/-- 0x1202.03, R532 of 18_counters_sampling.md. -/
def Dict.TRACE_RING_RECORDS : Obj :=
  ⟨0x120203, .u32, .ro, 3, .v, 1, 4, 0, 0, 0, 0xffffffff, 0xffffffff⟩

/-- 0x1202.04, R532 of 18_counters_sampling.md. -/
def Dict.TRACE_PRODUCER : Obj :=
  ⟨0x120204, .u32, .ro, 3, .v, 1, 4, 0, 0, 0, 0xffffffff, 0xffffffff⟩

/-- 0x1202.05, R532 of 18_counters_sampling.md. -/
def Dict.TRACE_CONSUMER : Obj :=
  ⟨0x120205, .u32, .rw, 3, .v, 1, 4, 0, 0, 0, 0xffffffff, 0xffffffff⟩

/-- 0x1203.00, R532 of 18_counters_sampling.md. -/
def Dict.CNT_EVENTS : Obj :=
  ⟨0x120300, .bits32, .w1c, 3, .v, 1, 4, 0, 0, 0, 0xffffffff, 0x7⟩

/-- 0x1203.01, R532 of 18_counters_sampling.md. -/
def Dict.CNT_EVENT_ENABLE : Obj :=
  ⟨0x120301, .bits32, .rw, 3, .v, 1, 4, 0, 7, 0, 0xffffffff, 0x7⟩

/-- The objects of subject 0x00 (R44). -/
def Dict.range00 : List Obj :=
  [Dict.ID_VENDOR, Dict.ID_FAMILY, Dict.ID_PART, Dict.ID_STEPPING, Dict.ID_SERIAL,
   Dict.ID_LOT_WAFER, Dict.ID_DICT_FORMAT, Dict.ID_DICT_OBJECTS, Dict.ID_FW_VERSION,
   Dict.ID_BOOT_ROM_VERSION, Dict.ID_FNA, Dict.ID_NODE_LABEL, Dict.ID_CAPS, Dict.ID_PORT_COUNT,
   Dict.ID_VF_MAX]

/-- The objects of subject 0x01 (R44). -/
def Dict.range01 : List Obj :=
  [Dict.CTL_APPLY_PENDING, Dict.CTL_APPLY_LAST, Dict.CTL_PERSIST_PENDING, Dict.CTL_M_RESET,
   Dict.CTL_M_IDLE_RESET_FR, Dict.CTL_M_INBAND_ENABLE, Dict.CTL_MGMT_FUNCS,
   Dict.CTL_SB_ALERT_EN, Dict.CTL_SB_PEC_REQUIRED, Dict.CTL_MBX_SOURCE, Dict.CTL_EVENT_SOURCE,
   Dict.CTL_REFUSED_SFNA, Dict.CTL_HOST_MGMT_TIMEOUT_ST]

/-- The objects of subject 0x02 (R44). -/
def Dict.range02 : List Obj :=
  [Dict.TIME_STITCH_NOW, Dict.TIME_PHASE_NOW, Dict.TIME_EPOCH_TAI_S, Dict.TIME_STATE,
   Dict.TIME_ERROR_EST, Dict.TIME_PARENT_PORT, Dict.TIME_HOPS, Dict.TIME_MASTER_FNA,
   Dict.TIME_GENERATION, Dict.TIME_MASTER_STAMP, Dict.TIME_ROLE, Dict.TIME_TAKEOVER_ST,
   Dict.TIME_START_COUNT, Dict.TIME_PORT_ASYM, Dict.TIME_PORT_DELAY, Dict.TIME_PORT_OFFSET,
   Dict.TIME_IN_MODE, Dict.TIME_IN_STATUS, Dict.TIME_IN_RESIDUE, Dict.TIME_OUT_MODE,
   Dict.TIME_ACTIONS, Dict.TIME_SNAP_STITCH, Dict.TIME_SNAP_GRADE, Dict.TIME_SNAP_SEQ,
   Dict.TIME_COBBLER_OVERRUNS, Dict.TIME_COBBLER_WORST]

/-- The objects of subject 0x03 (R44). -/
def Dict.range03 : List Obj :=
  [Dict.LANE_STATE, Dict.LANE_ENABLE, Dict.LANE_BRINGUP_TIMEOUT_FR, Dict.LANE_FEC_RX_MODE,
   Dict.LANE_CHANNEL_CLASS, Dict.LANE_BYPASS_LIMIT, Dict.LANE_TX_FIR, Dict.LANE_PRECODE,
   Dict.LANE_RX_POLARITY, Dict.LANE_ORDER_SWAPPED, Dict.LANE_PARTNER, Dict.LANE_EXPECT_PARTNER,
   Dict.LANE_LOOPBACK, Dict.LANE_PATTERN, Dict.LANE_PATTERN_ERRS, Dict.LANE_EYE_CTL,
   Dict.LANE_EYE_RESULT, Dict.LANE_PORT_EVENTS, Dict.LANE_EVENT_ENABLE]

/-- The objects of subject 0x04 (R44). -/
def Dict.range04 : List Obj :=
  [Dict.LINK_STATE, Dict.LINK_ADMIT, Dict.LINK_REINIT, Dict.LINK_PARTNER_PSC,
   Dict.LINK_REPLAY_TIMEOUT_ST, Dict.LINK_REPLAY_LIMIT, Dict.LINK_NAK_WAIT_ST,
   Dict.LINK_DRIFT_LIMIT, Dict.LINK_TX_LIMIT, Dict.LINK_TX_AVAIL, Dict.LINK_TX_OUTSTANDING,
   Dict.LINK_PORT_EVENTS, Dict.LINK_EVENT_ENABLE]

/-- The objects of subject 0x05 (R44). -/
def Dict.range05 : List Obj :=
  [Dict.ROUTE_BANK, Dict.ROUTE_BANK_SWITCH_STITCH, Dict.ROUTE_BANK_WRITABLE_AT,
   Dict.ROUTE_GROUP_A, Dict.ROUTE_GROUP_B, Dict.ROUTE_MEMBER_A, Dict.ROUTE_MEMBER_B,
   Dict.ROUTE_ROLE_A, Dict.ROUTE_ROLE_B, Dict.ROUTE_NMIN_ENABLE, Dict.ROUTE_NMIN_BIAS,
   Dict.ROUTE_LEVEL_STEP, Dict.ROUTE_FLOWLET_GAP_ST, Dict.ROUTE_REEVAL_ENABLE,
   Dict.ROUTE_HINT_PERIOD_ST, Dict.ROUTE_HINT_MAX_AGE_ST, Dict.ROUTE_CE_THRESHOLD,
   Dict.ROUTE_INJ_HIGH, Dict.ROUTE_INJ_LOW, Dict.ROUTE_MERENDO_EP, Dict.ROUTE_AGE_LIMIT_ST]

/-- The objects of subject 0x06 (R44). -/
def Dict.range06 : List Obj :=
  [Dict.SW_VC_RESERVE, Dict.SW_LOAN_MAX, Dict.SW_SHARED_FREE, Dict.SW_DRR_QUANTUM,
   Dict.SW_DRR_OVERHEAD, Dict.SW_MC_TABLE, Dict.SW_ANCHOR_TABLE, Dict.SW_ANCHOR_FREE,
   Dict.SW_INJ_GROUP, Dict.SW_SHAPER_TEST, Dict.SW_SHAPER_RECOVERY, Dict.CUP_K,
   Dict.CUP_COLLECTOR, Dict.CUP_DEST, Dict.CUP_INBAND_MAX, Dict.CUP_RING_BASE,
   Dict.CUP_RING_ORDER, Dict.CUP_RING_CONSUMER, Dict.CUP_RING_PRODUCER, Dict.CUP_RING_MAX,
   Dict.CUP_RING_EP, Dict.SW_BENCH_EVENTS, Dict.SW_EVENT_ENABLE]

/-- The objects of subject 0x07 (R44). -/
def Dict.range07 : List Obj :=
  [Dict.LAST_ENTRY, Dict.LAST_ENTRIES_USED, Dict.LAST_CAP, Dict.LAST_RESERVED, Dict.LAST_SHIFT,
   Dict.LAST_GUARD_POS, Dict.LAST_RING, Dict.LAST_WRAP_WAIT_ST, Dict.LAST_WRAP_FREE,
   Dict.LAST_EVENT_LOG]

/-- The objects of subject 0x08 (R44). -/
def Dict.range08 : List Obj :=
  [Dict.ATTACH_LINK_STATE, Dict.ATTACH_MODULE_STATE, Dict.ATTACH_MODULE_REPAIRED,
   Dict.ATTACH_UNITS, Dict.ATTACH_MODULE_ENABLE, Dict.ATTACH_FUNC, Dict.ATTACH_DMA_WINDOW,
   Dict.ATTACH_VF_BAR0_LOG, Dict.ATTACH_PCI_IDS, Dict.ATTACH_CLAIM_VECTOR,
   Dict.ATTACH_STORE_BASE, Dict.ATTACH_STORE_SIZE, Dict.ATTACH_STORE_PEERS,
   Dict.ATTACH_STORE_RESP_MIB, Dict.ATTACH_STORE_TRACE_MIB, Dict.ATTACH_STORE_CTL,
   Dict.ATTACH_STORE_STATE, Dict.ATTACH_STORE_MAP, Dict.ATTACH_EVENTS, Dict.ATTACH_EVENT_ENABLE]

/-- The objects of subject 0x09 (R44). -/
def Dict.range09 : List Obj :=
  [Dict.QUEUE_MODE, Dict.QUEUE_MODE_ACTIVE, Dict.QUEUE_STATE, Dict.QUEUE_ERR_LOG,
   Dict.QUEUE_CR_FULL_LIMIT_ST, Dict.QUEUE_PHASE_RETRIES, Dict.QUEUE_IGROUP_STAGE,
   Dict.QUEUE_PREFETCH, Dict.QUEUE_CTX_ONDIE, Dict.QUEUE_WATCH_USED, Dict.QUEUE_EVENTS,
   Dict.QUEUE_EVENT_ENABLE]

/-- The objects of subject 0x0a (R44). -/
def Dict.range0A : List Obj :=
  [Dict.RMA_EP, Dict.RMA_WINDOW, Dict.RMA_RTO_INIT_ST, Dict.RMA_RTO_MAX_ST,
   Dict.RMA_RETRY_LIMIT, Dict.RMA_DUPTHRESH, Dict.RMA_REORDER_ST, Dict.RMA_RLATER_LIMIT,
   Dict.RMA_ACK_COALESCE, Dict.RMA_ACK_DELAY_ST, Dict.RMA_MISS_BACKOFF_ST,
   Dict.RMA_PEER_IDLE_FR, Dict.RMA_PEERS_ONDIE, Dict.RMA_PEERS_STORED, Dict.RMA_MISS_POOL_FREE,
   Dict.RMA_RESP_CACHE_USED, Dict.RMA_RATE_MAX, Dict.RMA_RATE_MIN, Dict.RMA_RATE_AI,
   Dict.RMA_CC_PERIOD_ST, Dict.RMA_CC_ENABLE, Dict.RMA_EVENTS, Dict.RMA_EVENT_ENABLE]

/-- The objects of subject 0x0b (R44). -/
def Dict.range0B : List Obj :=
  [Dict.TRANS_SEG_BASE, Dict.TRANS_SEG_ORDER, Dict.TRANS_FUNC_SEGS, Dict.TRANS_DEVICE_REGION,
   Dict.TRANS_WALK_TIMEOUT_ST, Dict.TRANS_CACHE_USED, Dict.TRANS_WALKS_ACTIVE,
   Dict.TRANS_FAULT_LOG, Dict.TRANS_EVENTS, Dict.TRANS_EVENT_ENABLE]

/-- The objects of subject 0x0c (R44). -/
def Dict.range0C : List Obj :=
  [Dict.MATCH_EP, Dict.MATCH_EP_USE, Dict.MATCH_EAGER_LIMIT, Dict.MATCH_RNDV_LIMIT_FR,
   Dict.MATCH_TABLE, Dict.MATCH_RNDV_OUT, Dict.MATCH_EVENTS, Dict.MATCH_EVENT_ENABLE]

/-- The objects of subject 0x0d (R44). -/
def Dict.range0D : List Obj :=
  [Dict.COLL_GROUP, Dict.COLL_GROUP_VIEW, Dict.COLL_BLOCKS_FREE, Dict.COLL_OP_TIMEOUT_ST,
   Dict.COLL_RESTART_WAIT_ST, Dict.COLL_CP_CAP, Dict.COLL_LOG, Dict.COLL_EVENTS,
   Dict.COLL_EVENT_ENABLE]

/-- The objects of subject 0x0e (R44). -/
def Dict.range0E : List Obj :=
  [Dict.SEM_STATE, Dict.SEM_RIGHTS, Dict.SEM_M_PRIORITY, Dict.SEM_WAITERS_FREE, Dict.SEM_EVRING,
   Dict.SEM_EVENT_SOURCE, Dict.CLAIM_SOURCE, Dict.CLAIM_THRESHOLD, Dict.SEM_EVENTS,
   Dict.SEM_EVENT_ENABLE]

/-- The objects of subject 0x0f (R44). -/
def Dict.range0F : List Obj :=
  [Dict.FAULT_STATE, Dict.FAULT_ISOLATE_CAUSE, Dict.FAULT_FATAL_CODE, Dict.FAULT_LOG,
   Dict.FAULT_UNACKED, Dict.FAULT_UC_HOLD_ST, Dict.FAULT_N_CLEAR, Dict.FAULT_HISTORY,
   Dict.FAULT_HISTORY_CORRECTED, Dict.FAULT_HISTORY_CLEAR, Dict.FAULT_RECORDS,
   Dict.FAULT_RECORDS_NEXT, Dict.FAULT_DEVICE_ISOLATE, Dict.FAULT_DEVICE_RELEASE,
   Dict.FAULT_PORT_ISOLATE, Dict.FAULT_INJECT, Dict.SUPPLY_CORE_MV, Dict.FAULT_EVENTS,
   Dict.FAULT_EVENT_ENABLE]

/-- The objects of subject 0x10 (R44). -/
def Dict.range10 : List Obj :=
  [Dict.PWR_STATE, Dict.PWR_RESET_KIND, Dict.PWR_RESET, Dict.PWR_DOMAINS,
   Dict.PWR_DORMANT_COUNT, Dict.PWR_REST_ENABLE, Dict.PWR_REST_IDLE_FR, Dict.PWR_WAKE_PORT,
   Dict.PWR_STANDBY_ALLOW, Dict.PWR_STANDBY_IDLE_FR, Dict.PWR_WAKE_ENABLE, Dict.PWR_WAKE_PORTS,
   Dict.PWR_WAKE_TIMER_S, Dict.PWR_LAST_WAKE, Dict.PWR_DEPART, Dict.PWR_DEPART_AT,
   Dict.PWR_EVENTS, Dict.PWR_EVENT_ENABLE]

/-- The objects of subject 0x11 (R44). -/
def Dict.range11 : List Obj :=
  [Dict.SEC_BOOT_SEL, Dict.SEC_BOOT_STATUS, Dict.SEC_IDENTITY_PUB, Dict.SEC_ROOT_HASH,
   Dict.SEC_MEASURE, Dict.SEC_ATTEST_NONCE, Dict.SEC_ATTEST_STATE, Dict.SEC_ATTEST_REPORT,
   Dict.FW_STAGE_CTL, Dict.FW_STAGE_STATE, Dict.FW_STAGE_REASON, Dict.FW_STAGE_DATA,
   Dict.FW_CHUNK_DONE, Dict.FW_CHUNK_BITMAP, Dict.FW_STAGE_MISSING, Dict.FW_COMMIT,
   Dict.SEC_EVENTS, Dict.SEC_EVENT_ENABLE, Dict.PMAP_FORMAT, Dict.PMAP_RANGE_RIGHTS,
   Dict.PMAP_MGMT_SOURCES, Dict.PMAP_VF_LIMIT, Dict.PMAP_MGMT_VF_ALLOW, Dict.PMAP_DEBUG_LOCK,
   Dict.SEC_OWNER_KEY, Dict.SEC_OWNER_STATE, Dict.SEC_MIN_SVN]

/-- The objects of subject 0x12 (R44). -/
def Dict.range12 : List Obj :=
  [Dict.CNT_CTL, Dict.CNT_VALUE, Dict.CNT_SHADOW, Dict.CNT_OVF, Dict.CNT_SNAP_NOW,
   Dict.CNT_GRANT, Dict.CNT_M_FIRST, Dict.CNT_EVENT_SOURCE, Dict.TRACE_K, Dict.TRACE_ENABLE,
   Dict.TRACE_RING, Dict.TRACE_RING_RECORDS, Dict.TRACE_PRODUCER, Dict.TRACE_CONSUMER,
   Dict.CNT_EVENTS, Dict.CNT_EVENT_ENABLE]

/-- The objects of a subject; none for a factory or an unassigned range (R44). -/
def Dict.subject (hiByte : Nat) : List Obj :=
  match hiByte with
  | 0 => Dict.range00
  | 1 => Dict.range01
  | 2 => Dict.range02
  | 3 => Dict.range03
  | 4 => Dict.range04
  | 5 => Dict.range05
  | 6 => Dict.range06
  | 7 => Dict.range07
  | 8 => Dict.range08
  | 9 => Dict.range09
  | 10 => Dict.range0A
  | 11 => Dict.range0B
  | 12 => Dict.range0C
  | 13 => Dict.range0D
  | 14 => Dict.range0E
  | 15 => Dict.range0F
  | 16 => Dict.range10
  | 17 => Dict.range11
  | 18 => Dict.range12
  | _ => []

/-- The object an index and a subindex name (R44). -/
def Dict.find? (index sub : Nat) : Option Obj :=
  (Dict.subject (index / 256)).find? (fun o => o.id == index * 256 + sub)

/-- Every object the active dictionary format defines in this model. -/
def Dict.all : List Obj :=
  Dict.range00 ++ Dict.range01 ++ Dict.range02 ++ Dict.range03 ++ Dict.range04 ++ Dict.range05 ++ Dict.range06 ++ Dict.range07 ++ Dict.range08 ++ Dict.range09 ++ Dict.range0A ++ Dict.range0B ++ Dict.range0C ++ Dict.range0D ++ Dict.range0E ++ Dict.range0F ++ Dict.range10 ++ Dict.range11 ++ Dict.range12

end Sys2Proof.Machine
end

