-- ==== Sys2Proof/Machine/FaultCodes.lean ====
section
/-!
DEFINITION. The fault codes: their own classes and their rate limits, as the chapters' tables give them (R42, R71, R99,
R135, R176, R211, R240, R264, R299, R336, R359, R386, R418, R448, R469, R491, R512, R533).
-/
namespace Sys2Proof.Machine

/-- The Uncorrected-contained codes. -/
def containedCodes : List Nat :=
   [0x0104, 0x0106, 0x0202, 0x0208, 0x0209, 0x0302, 0x0402, 0x0403, 0x0406, 0x0407, 0x0408,
    0x040a, 0x0503, 0x0505, 0x0602, 0x0608, 0x0705, 0x0804, 0x0805, 0x0806, 0x0808, 0x0906,
    0x0a08, 0x0b01, 0x0b02, 0x0b06, 0x0c05, 0x0c07, 0x0d05, 0x0d06, 0x0e05, 0x0e07, 0x0f02,
    0x0f03, 0x1002, 0x1104, 0x1105, 0x1109]

/-- The Fatal codes. -/
def fatalCodes : List Nat := [0x0f05]

/-- The Corrected codes. -/
def correctedCodes : List Nat :=
   [0x0101, 0x0102, 0x0103, 0x0105, 0x0107, 0x0201, 0x0203, 0x0204, 0x0205, 0x0206, 0x0207,
    0x020a, 0x0301, 0x0303, 0x0304, 0x0305, 0x0306, 0x0307, 0x0308, 0x0309, 0x030a, 0x0401,
    0x0404, 0x0405, 0x0409, 0x040b, 0x0501, 0x0502, 0x0504, 0x0507, 0x0601, 0x0603, 0x0604,
    0x0605, 0x0606, 0x0607, 0x0609, 0x0701, 0x0702, 0x0703, 0x0704, 0x0706, 0x0707, 0x0708,
    0x0709, 0x0801, 0x0802, 0x0803, 0x0807, 0x080a, 0x0901, 0x0902, 0x0903, 0x0904, 0x0905,
    0x0907, 0x0908, 0x0a01, 0x0a02, 0x0a03, 0x0a04, 0x0a05, 0x0a06, 0x0a07, 0x0a09, 0x0b03,
    0x0b04, 0x0b05, 0x0b07, 0x0c01, 0x0c02, 0x0c03, 0x0c04, 0x0c06, 0x0d01, 0x0d02, 0x0d03,
    0x0d04, 0x0d07, 0x0d08, 0x0e01, 0x0e02, 0x0e03, 0x0e04, 0x0e06, 0x0f01, 0x0f04, 0x0f06,
    0x0f07, 0x1001, 0x1003, 0x1004, 0x1005, 0x1006, 0x1101, 0x1102, 0x1103, 0x1106, 0x1107,
    0x1108, 0x1201, 0x1202, 0x1203]

/-- A code's own class (R451). -/
def faultClass (code : Nat) : FClass :=
  if fatalCodes.contains code then .fatal
  else if containedCodes.contains code then .contained else .corrected

/-- The codes that are logged at most once per frame for one key. -/
def perFrameCodes : List Nat :=
   [0x0101, 0x0102, 0x0308, 0x040b, 0x0501, 0x0502, 0x0504, 0x0507, 0x0603, 0x0604, 0x0606,
    0x0607, 0x0609, 0x0701, 0x0703, 0x0704, 0x0705, 0x0706, 0x0708, 0x0709, 0x0803, 0x0805,
    0x0901, 0x0902, 0x0903, 0x0904, 0x0905, 0x0907, 0x0908, 0x0a01, 0x0a02, 0x0a03, 0x0a04,
    0x0a06, 0x0a07, 0x0a09, 0x0b01, 0x0b02, 0x0b03, 0x0b04, 0x0c02, 0x0c03, 0x0c04,
    0x0c06, 0x0d01, 0x0d03, 0x0d04, 0x0d07, 0x0d08, 0x0e02, 0x0e03, 0x0e04, 0x0e06, 0x0f04,
    0x1001, 0x1103, 0x1201, 0x1202, 0x1203]

/-- The codes that are logged at most once per stitch for one key (R83, R187, R354). -/
def perStitchCodes : List Nat := [0x0304, 0x0601, 0x0b05]

end Sys2Proof.Machine
end

