-- ==== Sys2Proof/Machine/Ops.lean ====
section
/-!
DEFINITION. The operations that every chapter shares: reading and writing dictionary values, counting events (R514 to
R521), firing claim sources (R437), setting event bits, raising faults (R452, R457), what the part sends, and
taking a free value.
-/
namespace Sys2Proof.Machine

/-! ### Dictionary values -/

/-- The key of a row of an object in the register table. -/
def regKey (o : Obj) (row : Nat) : Nat := o.id * 1048576 + row

/-- What a row of an object reads as before anything has written it: the object's default (R9). The rows whose
default differs are those of R70, R193, R198, R210, R234, R254, R263, R367, R422, R433, R447 and R511. -/
def rowDefault (o : Obj) (row : Nat) : Nat :=
  match o.id with
  | 0x010103 => if row = 0 then 1 else 0
  | 0x060000 => if row % 8 = 3 then 256 else 1024
  | 0x060001 => if row = 3 ∨ row = 7 then 0 else 4096
  | 0x060100 => if row = 3 then 1024 else if row = 7 then 8320 else 4160
  | 0x060300 => 4160 * 2 ^ 96 + 65536 * 2 ^ 32
  | 0x070200 => 6 * 2 ^ 70
  | 0x080100 => if row = 0 then 2 ^ 127 else 0
  | 0x080200 => row
  | 0x0C0000 => 2 ^ 128 - 2 ^ 64
  | 0x0E0001 => if 4064 ≤ row then 0x20000000 else 0xC0000000
  | 0x0E0100 => 6 * 2 ^ 108
  | 0x118200 => if row = 0 then 0x8000000000000000 else 0
  | _ => o.dflt

/-- The value in force of a row of an object in a register table. -/
def regIn (regs : Tbl Nat) (o : Obj) (row : Nat) : Nat := tget (rowDefault o row) regs (regKey o row)

/-- The value in force of a row of an object. -/
def State.reg (s : State) (o : Obj) (row : Nat := 0) : Nat := regIn s.regs o row

/-- A register table with one row written. -/
def regSet (regs : Tbl Nat) (o : Obj) (row v : Nat) : Tbl Nat := tset (rowDefault o row) regs (regKey o row) v

/-- The state with one row of an object written. -/
def State.setReg (s : State) (o : Obj) (row v : Nat) : State := { s with regs := regSet s.regs o row v }

/-- A row of a P object has been written: a copy of it to the MRAM is to be made (R58). -/
def State.persists (s : State) (o : Obj) (row : Nat := 0) : State :=
  if s.ctl.persistQ.contains (regKey o row) then s
  else { s with ctl := { s.ctl with persistQ := s.ctl.persistQ ++ [regKey o row] } }

/-! ### Counters -/

/-- The instance of an event that no function, port or queue is charged with: no counter names it (R516). -/
def noInst : Nat := 2 ^ 20

/-- The events whose counters ignore INSTANCE (R516). -/
def evDevice (ev : Nat) : Bool :=
  decide (ev < 0x180) || decide (ev = 0x28B) || decide (ev = 0x30D) || decide (ev = 0x30E) ||
  (decide (0x400 ≤ ev) && decide (ev < 0x480)) || (decide (0x700 ≤ ev) && decide (ev < 0x800)) ||
  (decide (0x803 ≤ ev) && decide (ev ≠ 0x807))

/-- A port belongs to a bench (R178). -/
def portOfBench (b p : Nat) : Bool :=
  if b < 12 then decide (8 * b ≤ p) && decide (p < 8 * b + 8) else decide (96 ≤ p) && decide (p ≤ 101)

/-- A counter with this control word counts this event of this instance (R516, R517, R518). -/
def counts (c w ev inst : Nat) : Bool :=
  bitAt w 63 && !bitAt w 62 && decide (fld w 55 44 = ev) &&
  (if ev < 0x80 then true
   else if c < 416 then portOfBench (c / 32) inst && (bitAt w 43 || decide (fld w 42 23 = inst))
   else evDevice ev || bitAt w 43 || decide (fld w 42 23 = inst))

/-- One counter with n events added; the second component says that it wrapped (R520). -/
def addTo (v n : Nat) : Nat × Bool := ((v + n) % 2 ^ 48, decide (2 ^ 48 ≤ v + n))

/-- The result of adding to counters: the unit, how many wrapped, and whether one of them has IRQ set. -/
structure Counted where
  cnt : CntUnit
  wraps : Nat := 0
  irq : Bool := false

/-- OVF and the interrupt of a counter that wrapped (R520). -/
def noteWrap (x : Counted) (c : Nat) : Counted :=
  { cnt := { x.cnt with ovf := tset false x.cnt.ovf c true }
    wraps := x.wraps + 1
    irq := x.irq || bitAt (tget 0 x.cnt.ctl c) 60 }

/-- n events added to counter c, with the carry of a chained pair (R520, R521). -/
def addCounter (x : Counted) (c n : Nat) : Counted :=
  let (v, wrapped) := addTo (tget 0 x.cnt.value c) n
  let x1 : Counted := { x with cnt := { x.cnt with value := tset 0 x.cnt.value c v } }
  if wrapped then
    if c % 2 = 0 ∧ bitAt (tget 0 x1.cnt.ctl (c + 1)) 62 then
      let (v2, wrapped2) := addTo (tget 0 x1.cnt.value (c + 1)) 1
      let x2 : Counted := { x1 with cnt := { x1.cnt with value := tset 0 x1.cnt.value (c + 1) v2 }, wraps := x1.wraps + 1 }
      if wrapped2 then noteWrap x2 (c + 1) else x2
    else noteWrap x1 c
  else x1

/-- n events of an instance added to every counter that counts them (R514). -/
def addEvents (cnt : CntUnit) (ev inst n : Nat) : Counted :=
  cnt.ctl.foldl (fun x c => if counts c.1 c.2 ev inst then addCounter x c.1 n else x) { cnt := cnt }

/-- n events added, and the wraps they made counted as event 0x903 (R514, R534). -/
def countIn (cnt : CntUnit) (ev inst n : Nat) : CntUnit × Bool :=
  let x := addEvents cnt ev inst n
  if x.wraps = 0 then (x.cnt, x.irq)
  else
    let y := addEvents x.cnt 0x903 0 x.wraps
    (y.cnt, x.irq || y.irq)

/-! ### Claim sources and event bits -/

/-- The reserved sources, which never become pending (R445, R470, R492, R513). -/
def reservedSource (n : Nat) : Bool :=
  n = 0 || 1020 ≤ n || (131 ≤ n && n ≤ 149) || (161 ≤ n && n ≤ 199) || (207 ≤ n && n ≤ 209) ||
  (214 ≤ n && n ≤ 219) || (225 ≤ n && n ≤ 229) || (236 ≤ n && n ≤ 299) || (310 ≤ n && n ≤ 349) ||
  (355 ≤ n && n ≤ 369) || (376 ≤ n && n ≤ 399)

/-- The controller after a source fires: edge sense sets PENDING; level sense follows its input instead (R437). -/
def claimFire (c : ClaimUnit) (n : Nat) : ClaimUnit :=
  if reservedSource n then c
  else { c with rows := tupd {} c.rows n fun r => if r.sense then r else { r with pending := true } }

/-- Software sets a source pending, under either sense (R437). -/
def claimSet (c : ClaimUnit) (n : Nat) : ClaimUnit :=
  if reservedSource n then c else { c with rows := tupd {} c.rows n fun r => { r with pending := true } }

/-- The bits of an event register that are enabled, given the object of the register (the enables of R98, R134, R210,
R263, R298, R335, R358, R385, R417, R447, R468, R490, R511, R532). -/
def eventEnable (regs : Tbl Nat) (ev : Obj) : Nat :=
  match ev.id with
  | 0x030600 => regIn regs Dict.LANE_EVENT_ENABLE 0
  | 0x040300 => regIn regs Dict.LINK_EVENT_ENABLE 0
  | 0x060500 => regIn regs Dict.SW_EVENT_ENABLE 0
  | 0x080400 => regIn regs Dict.ATTACH_EVENT_ENABLE 0
  | 0x090400 => regIn regs Dict.QUEUE_EVENT_ENABLE 0
  | 0x0A0400 => regIn regs Dict.RMA_EVENT_ENABLE 0
  | 0x0B0400 => regIn regs Dict.TRANS_EVENT_ENABLE 0
  | 0x0C0300 => regIn regs Dict.MATCH_EVENT_ENABLE 0
  | 0x0D0300 => regIn regs Dict.COLL_EVENT_ENABLE 0
  | 0x0E0300 => regIn regs Dict.SEM_EVENT_ENABLE 0
  | 0x0F0700 => regIn regs Dict.FAULT_EVENT_ENABLE 0
  | 0x100400 => regIn regs Dict.PWR_EVENT_ENABLE 0
  | 0x110500 => regIn regs Dict.SEC_EVENT_ENABLE 0
  | 0x120300 => regIn regs Dict.CNT_EVENT_ENABLE 0
  | _ => 0

/-- The claim source that a bit of an event register fires (R100, R136, R212, R265, R300, R337, R360, R387, R419, R447,
R470, R492, R513, R532). -/
def eventSource (regs : Tbl Nat) (ev : Obj) (row bit : Nat) : Nat :=
  match ev.id with
  | 0x030600 => row + 1
  | 0x040300 => row + 1
  | 0x060500 => 97 + row
  | 0x080400 => 150 + bit
  | 0x090400 => 156 + bit
  | 0x0A0400 => 200 + bit
  | 0x0B0400 => 210 + bit
  | 0x0C0300 => 220 + bit
  | 0x0D0300 => 230 + bit
  | 0x0E0300 => regIn regs Dict.SEM_EVENT_SOURCE 0
  | 0x0F0700 => 300 + bit
  | 0x100400 => 350 + bit
  | 0x110500 => 370 + bit
  | 0x120300 => regIn regs Dict.CNT_EVENT_SOURCE 0
  | _ => 0

/-- A row of an event register. -/
def evregGet (evreg : Tbl Nat) (ev : Obj) (row : Nat) : Nat := tget 0 evreg (regKey ev row)

/-- The enabled bits now set in a row of an event register. -/
def evregLive (evreg regs : Tbl Nat) (ev : Obj) (row : Nat) : Nat :=
  evregGet evreg ev row &&& eventEnable regs ev

/-- The level input of a source: its event register holds a bit that is also enabled; a source with no such register
has a level input of 0 (R437). -/
def sourceLevel (evreg regs : Tbl Nat) (n : Nat) : Bool :=
  let bit (ev : Obj) (base : Nat) : Bool := bitAt (evregLive evreg regs ev 0) (n - base)
  if 1 ≤ n ∧ n ≤ 96 then
    evregLive evreg regs Dict.LANE_PORT_EVENTS (n - 1) ≠ 0 || evregLive evreg regs Dict.LINK_PORT_EVENTS (n - 1) ≠ 0
  else if 97 ≤ n ∧ n ≤ 109 then evregLive evreg regs Dict.SW_BENCH_EVENTS (n - 97) ≠ 0
  else if 150 ≤ n ∧ n ≤ 155 then bit Dict.ATTACH_EVENTS 150
  else if 156 ≤ n ∧ n ≤ 160 then bit Dict.QUEUE_EVENTS 156
  else if 200 ≤ n ∧ n ≤ 206 then bit Dict.RMA_EVENTS 200
  else if 210 ≤ n ∧ n ≤ 213 then bit Dict.TRANS_EVENTS 210
  else if 220 ≤ n ∧ n ≤ 224 then bit Dict.MATCH_EVENTS 220
  else if 230 ≤ n ∧ n ≤ 235 then bit Dict.COLL_EVENTS 230
  else if 300 ≤ n ∧ n ≤ 309 then bit Dict.FAULT_EVENTS 300
  else if 350 ≤ n ∧ n ≤ 354 then bit Dict.PWR_EVENTS 350
  else if 370 ≤ n ∧ n ≤ 375 then bit Dict.SEC_EVENTS 370
  else if 400 ≤ n ∧ n ≤ 1019 then
    (n = regIn regs Dict.SEM_EVENT_SOURCE 0 && evregLive evreg regs Dict.SEM_EVENTS 0 ≠ 0) ||
    (n = regIn regs Dict.CNT_EVENT_SOURCE 0 && evregLive evreg regs Dict.CNT_EVENTS 0 ≠ 0)
  else false

/-- A source fires, and becoming pending counts event 0x708, without the interrupt of a counter that this count
wraps (R437, R449). -/
def Mon.fireQuiet (m : Mon) (n : Nat) : Mon :=
  if reservedSource n then m
  else
    let was := (tget {} m.claim.rows n).pending || (tget {} m.claim.rows n).sense
    { m with
      claim := claimFire m.claim n
      cnt := if was then m.cnt else (countIn m.cnt 0x708 0 1).1 }

/-- The interrupt of a counter that wrapped with IRQ: bit 0 of CNT_EVENTS (R520). -/
def Mon.counterIrq (m : Mon) (regs : Tbl Nat) : Mon :=
  if bitAt (evregGet m.evreg Dict.CNT_EVENTS 0) 0 then m
  else
    let m1 : Mon := { m with evreg := tupd 0 m.evreg (regKey Dict.CNT_EVENTS 0) fun v => v ||| 1 }
    if bitAt (eventEnable regs Dict.CNT_EVENTS) 0 then m1.fireQuiet (eventSource regs Dict.CNT_EVENTS 0 0) else m1

/-- n events of an instance are counted (R514, R520). -/
def Mon.count (m : Mon) (regs : Tbl Nat) (ev inst n : Nat) : Mon :=
  let r := countIn m.cnt ev inst n
  let m1 : Mon := { m with cnt := r.1 }
  if r.2 then m1.counterIrq regs else m1

/-- A source fires (R437). -/
def Mon.fire (m : Mon) (regs : Tbl Nat) (n : Nat) : Mon :=
  if reservedSource n then m
  else
    let was := (tget {} m.claim.rows n).pending || (tget {} m.claim.rows n).sense
    let m1 : Mon := { m with claim := claimFire m.claim n }
    if was then m1 else m1.count regs 0x708 0 1

/-- A bit of a row of an event register is set; becoming 1 while enabled it fires its source. -/
def Mon.event (m : Mon) (regs : Tbl Nat) (ev : Obj) (row bit : Nat) : Mon :=
  if bitAt (evregGet m.evreg ev row) bit then m
  else
    let m1 : Mon := { m with evreg := tupd 0 m.evreg (regKey ev row) fun v => v ||| 2 ^ bit }
    if bitAt (eventEnable regs ev) bit then m1.fire regs (eventSource regs ev row bit) else m1

/-! ### Raising a fault -/

/-- The key of a fault (R452). -/
def faultKey (code scope inst : Nat) : Nat := (code * 16 + scope) * 2 ^ 24 + inst

/-- The key by which a rate limit judges a raise: the fault's key, but the code alone for the walk faults, which are limited
per frame over all segments (R359). -/
def limitKey (code scope inst : Nat) : Nat :=
  if code = 0x0B01 ∨ code = 0x0B02 then faultKey code 0 0 else faultKey code scope inst

/-- The period of a code's rate limit that a stitch lies in, plus one; 0 when the code has no limit. -/
def limitPeriod (code count : Nat) : Nat :=
  if perFrameCodes.contains code then count / 1024 + 1
  else if perStitchCodes.contains code then count + 1 else 0

/-- A raise enters the logging unit's queue, or is lost when the queue is full (R457). -/
def Mon.enqueue (m : Mon) (regs : Tbl Nat) (r : Raise) : Mon :=
  if m.fault.queue.length < 256 + (16 - m.fault.logged) then
    { m with fault := { m.fault with queue := m.fault.queue ++ [r] } }
  else
    let m1 : Mon := { m with fault := { m.fault with lostRaises := m.fault.lostRaises + 1 } }
    (m1.count regs 0x789 0 1).event regs Dict.FAULT_EVENTS 0 9

/-- A raise. One that its rate limit suppresses is counted in event 0x783 and in SUPPRESSED of the key's next record
(R452). A fault of the control ports also fires CTL_EVENT_SOURCE (R71). -/
def Mon.raiseAs (m : Mon) (regs : Tbl Nat) (count : Nat) (r : Raise) : Mon :=
  let per := limitPeriod r.code count
  let lk := limitKey r.code r.scope r.inst
  if per ≠ 0 ∧ tget 0 m.fault.stamps lk = per then
    let f := { m.fault with suppressed := tupd 0 m.fault.suppressed (faultKey r.code r.scope r.inst) (· + 1) }
    ({ m with fault := f } : Mon).count regs 0x783 0 1
  else
    let f := if per = 0 then m.fault else { m.fault with stamps := tset 0 m.fault.stamps lk per }
    let m1 := ({ m with fault := f } : Mon).enqueue regs r
    if r.code / 256 = 1 then m1.fire regs (regIn regs Dict.CTL_EVENT_SOURCE 0) else m1

/-- A unit raises a fault of its own class. -/
def Mon.raise (m : Mon) (regs : Tbl Nat) (count code scope inst detail : Nat) : Mon :=
  m.raiseAs regs count { code := code, cls := faultClass code, scope := scope, inst := inst, detail := detail, stitch := count }

/-! ### The same on the state -/

/-- n events of an instance are counted. -/
def State.count (s : State) (ev : Nat) (inst : Nat := 0) (n : Nat := 1) : State :=
  { s with mon := s.mon.count s.regs ev inst n }

/-- A claim source fires. -/
def State.fire (s : State) (n : Nat) : State := { s with mon := s.mon.fire s.regs n }

/-- A bit of an event register is set. -/
def State.event (s : State) (ev : Obj) (row bit : Nat) : State := { s with mon := s.mon.event s.regs ev row bit }

/-- A fault is raised, with device scope unless the unit names another (R452). -/
def State.raise (s : State) (code : Nat) (scope : Nat := 0) (inst : Nat := 0) (detail : Nat := 0) : State :=
  { s with mon := s.mon.raise s.regs s.time.count code scope inst detail }

/-- The status of the latest write that has a row of its own in the command table (R53). -/
def State.wrote (s : State) (status : Nat) : State := { s with ctl := { s.ctl with writeStatus := status } }

/-- What READs are answered from becomes what the units hold now (R57). -/
def State.latched (s : State) : State := { s with latch := s.toChip }

/-- A write has been applied at this boundary (R70, R72). -/
def State.applied (s : State) : State :=
  let s1 := s.count 0x081
  { s1 with ctl := { s1.ctl with applyLast := s.time.count } }

/-- The outcome of a write that has a row of its own in the command table, at the boundary that applies it: its effect, or nothing but
its refusal (R56). -/
def judgedAlways (s : State) (status : Nat) (effect : State) : Host.Outcome State Fault Refusal :=
  .next (if s.pwr.off then s else if status = 0 then (effect.applied.wrote 0).latched else (s.count 0x082).wrote status)

/-- The core runs its firmware: step 6 of R475 is reached, the device is in Run or still on its way into Standby, and it is not
Fatal (R463, R475, R480). -/
def coreUp (s : State) : Bool :=
  decide (6 ≤ s.pwr.step) && (s.pwr.st = .run || s.pwr.st = .entering) && !s.mon.fault.fatal && !s.pwr.off

/-- The same for an object that only the running core serves: while it does not run, the object is dormant (R463, R483, R487). -/
def judged (s : State) (status : Nat) (effect : State) : Host.Outcome State Fault Refusal :=
  if coreUp s then judgedAlways s status effect else judgedAlways (s.count 0x804) 9 s

/-- The status of a value for a BOOL: 0 accepted, 0x06 bad-value (R45, R53). -/
def boolCheck (v : Nat) : Nat := if v ≤ 1 then 0 else 6

/-- Something leaves the part. -/
def State.emit (s : State) (o : Out) : State := { s with out := o :: s.out }

/-- The next free value. -/
def State.free (s : State) : Nat := Config.freeValue s.freeN

/-- The state with the next free value taken. -/
def State.took (s : State) : State := { s with freeN := s.freeN + 1 }

/-! ### Ports -/

/-- The lanes of a port. -/
def State.lane (s : State) (p : Nat) : LanePort := tget {} s.lanes p

/-- The state with the lanes of a port changed. -/
def State.updLane (s : State) (p : Nat) (f : LanePort → LanePort) : State :=
  { s with lanes := tupd {} s.lanes p f }

/-- The link layer of a port. -/
def State.link (s : State) (p : Nat) : LinkPort := tget {} s.links p

/-- The state with the link layer of a port changed. -/
def State.updLink (s : State) (p : Nat) (f : LinkPort → LinkPort) : State :=
  { s with links := tupd {} s.links p f }

/-- What time sync keeps of a port. -/
def State.tport (s : State) (p : Nat) : TimePort := tget {} s.time.ports p

/-- The state with what time sync keeps of a port changed. -/
def State.updTport (s : State) (p : Nat) (f : TimePort → TimePort) : State :=
  { s with time := { s.time with ports := tupd {} s.time.ports p f } }

/-- A function applied for every element of a list, in order. -/
def forEach {α : Type} (s : State) (l : List α) (f : State → α → State) : State := l.foldl f s

/-- The outcome of a command on a port of P0 to P95: the given next state, or the fault of a port that does
not exist. -/
def onPort (p : Nat) (t : State) : Host.Outcome State Fault Refusal :=
  if p < 96 then .next t else .fault .noSuchPort

/-- The fabric ports (R73). -/
def fabricPorts : List Nat := List.range 96

end Sys2Proof.Machine
end

