-- ==== Sys2Proof/Machine/Trace.lean ====
section
/-!
DEFINITION. Tagged sampling (R526 to R531): the stamps of a held packet, its tag record, and the trace ring in the device store.
-/
namespace Sys2Proof.Machine

/-- The largest power of two that is at most n, or 0; n below 2^40. -/
def powBelow (n : Nat) : Nat := (List.range 40).foldl (fun m e => if 2 ^ e ≤ n then 2 ^ e else m) 0

/-- TRACE_RING_RECORDS: the largest power of two of records that fits the trace area, 0 while the store is not Given (R530). -/
def traceRows (h : HostUnit) : Nat := if h.store = .given then powBelow (h.storeAreas.getD 4 0 / 64) else 0

/-- A record is dropped (R530, R531). -/
def traceDropped (s : State) : State :=
  let cnt := { s.mon.cnt with traceDropped := min 0xFFFF (s.mon.cnt.traceDropped + 1) }
  (({ s with mon := { s.mon with cnt := cnt } } : State).count 0x901).event Dict.CNT_EVENTS 0 1

/-- A packet's tag record without PHASE, SEQ and DROPPED, as eight 64-bit words (R528). -/
def tagWords (k : SwPkt) (role : Nat) (discard : Bool) (out : Nat) : List Nat :=
  let h := k.hdr
  let st (i : Nat) : Nat := k.stamps.getD i 0
  [put role 62 61 + put (b2n discard) 60 60 + put (b2n h.nmin) 59 59 + put (b2n h.ce) 58 58 +
     put (if k.own then 0 else k.inVc) 57 55 + put k.tVc 54 52 + put k.inPort 51 45 + put out 44 38 + put h.opc 37 30 + put h.sfna 29 12,
   put h.dfna 63 46 + put h.sep 45 30 + put h.dep 29 14,
   put (if isCtl h then 0 else h.psn) 63 40 + put h.fhash 39 24 + put h.len 23 11,
   0] ++ (List.range 4).map fun i => put (st (2 * i)) 31 0 + put (st (2 * i + 1)) 63 32

/-- The 512 bits of a record: eight words, the first highest. -/
def tagRecord (words : List Nat) (phase seq dropped : Nat) : Nat :=
  (List.range 8).foldl (fun a i =>
    a * 2 ^ 64 + words.getD i 0 + (if i = 0 then put phase 63 63 else if i = 3 then put seq 63 32 + put dropped 31 16 else 0)) 0

/-- A record is written to the trace ring, or dropped: without a store, on a full ring, or beyond 128 in a stitch (R530, R531). -/
def traceWrite (s : State) (words : List Nat) : State :=
  let n := traceRows s.host
  let c := s.mon.cnt
  if n = 0 then traceDropped (s.raise 0x1203)
  else if modSub (2 * n) c.traceProd c.traceCons = n then traceDropped (s.raise 0x1202)
  else if 128 ≤ c.traceNow then traceDropped s
  else
    let rec' := tagRecord words (if c.traceProd < n then 1 else 0) c.traceSeq c.traceDropped
    let cnt := { c with
      trace := tset 0 c.trace (c.traceProd % n) rec', traceProd := (c.traceProd + 1) % (2 * n)
      traceSeq := (c.traceSeq + 1) % 2 ^ 32, traceDropped := 0, traceNow := c.traceNow + 1 }
    ({ s with mon := { s.mon with cnt := cnt } } : State).count 0x900

/-- The role of the router for a packet (R528). -/
def tagRole (s : State) (k : SwPkt) : Nat := if k.own then 0 else if k.hdr.dfna = s.reg Dict.ID_FNA then 2 else 1

/-- A tagged packet's record is written, when the router records (R527). -/
def tagDone (s : State) (k : SwPkt) (discard : Bool) : State :=
  if k.hdr.tag ∧ s.reg Dict.TRACE_ENABLE = 1 then
    traceWrite s (tagWords k (tagRole s k) discard (if k.hdr.mc ∧ k.tOut ≠ 127 then 126 else k.tOut))
  else s

/-- A stage of a packet completes: its stamp, of which the core cycle is not known to the model (R528, R529). -/
def stamp (s : State) (id i : Nat) : State :=
  if s.reg Dict.TRACE_ENABLE = 1 then
    let v := (s.time.count % 2 ^ 25) * 128 + s.free % 128
    let s1 := s.took
    { s1 with sw := { s1.sw with
        pkts := s1.sw.pkts.map fun k => if k.id = id ∧ k.stamps.getD i 0 = 0 then { k with stamps := k.stamps.set i v } else k } }
  else s

/-- TRACE_CONSUMER is applied: a value takes effect only from the present index up to the producer's; any other is ignored (R294,
R530). -/
def applyTraceConsumer (s : State) (v : Nat) : State :=
  let n := traceRows s.host
  let c := s.mon.cnt
  if n ≠ 0 ∧ v < 2 * n ∧ modSub (2 * n) v c.traceCons ≤ modSub (2 * n) c.traceProd c.traceCons then
    { s with mon := { s.mon with cnt := { c with traceCons := v } } }
  else s.count 0x481

/-- The values of the trace objects (R532). -/
def traceView (s : State) (id row : Nat) : Option Nat :=
  match id with
  | 0x120202 => some (tget 0 s.mon.cnt.trace row)
  | 0x120203 => some (traceRows s.host)
  | 0x120204 => some s.mon.cnt.traceProd
  | 0x120205 => some s.mon.cnt.traceCons
  | _ => none

/-- TRACE_CONSUMER_WRITE: the boundary that applies the driver's consumer index (R530). -/
def execTraceConsumerWrite (value : Nat) (s : State) : Host.Outcome State Fault Refusal :=
  judged s 0 (applyTraceConsumer s (value % 2 ^ 32))

end Sys2Proof.Machine
end

