-- ==== Sys2Proof/Machine/SwBase.lean ====
section
/-!
DEFINITION. The packets that the router holds: finding them, measuring what is held, returning buffer space with its
loans (R183, R184), discarding and closing packets (R187, R188, R191), and the roles of ports (R147, R152).
-/
namespace Sys2Proof.Machine

/-- The state with the switch unit changed. -/
def State.updSw (s : State) (f : SwUnit → SwUnit) : State := { s with sw := f s.sw }

/-- A held packet by its number. -/
def State.pkt? (s : State) (id : Nat) : Option SwPkt := s.sw.pkts.find? fun k => k.id = id

/-- The state with one held packet changed. -/
def State.updPkt (s : State) (id : Nat) (f : SwPkt → SwPkt) : State :=
  s.updSw fun w => { w with pkts := w.pkts.map fun k => if k.id = id then f k else k }

/-- What the switch core keeps of an input. -/
def State.inPort (s : State) (p : Nat) : SwPort := tget {} s.sw.ports p

/-- The state with what the switch core keeps of an input changed. -/
def State.updIn (s : State) (p : Nat) (f : SwPort → SwPort) : State :=
  s.updSw fun w => { w with ports := tupd {} w.ports p f }

/-- An output of the crossbar. -/
def State.outPort (s : State) (o : Nat) : OutPort := tget {} s.sw.outs o

/-- The state with an output changed. -/
def State.updOut (s : State) (o : Nat) (f : OutPort → OutPort) : State :=
  s.updSw fun w => { w with outs := tupd {} w.outs o f }

/-- The bench of a port (R178). -/
def benchOf (p : Nat) : Nat := if p < 96 then p / 8 else 12

/-- A bit of the port's bench's row of SW_BENCH_EVENTS is set (R212). -/
def benchEvent (s : State) (p bit : Nat) : State := s.event Dict.SW_BENCH_EVENTS (benchOf p) bit

/-! ### What is held -/

/-- The flits of a packet that have been received. -/
def SwPkt.got (k : SwPkt) : Nat := k.flits.length - b2n k.closed

/-- The flits of a packet that take space in its input buffer. -/
def SwPkt.inBuffer (k : SwPkt) : Nat := k.got - k.freed

/-- A sum over a list. -/
def sumOf {α : Type} (l : List α) (f : α → Nat) : Nat := l.foldl (fun a x => a + f x) 0

/-- The flits of a VC in an input buffer, H_v (R184). -/
def inDepth (s : State) (p v : Nat) : Nat :=
  sumOf s.sw.pkts fun k => if k.inPort = p ∧ k.inVc = v then k.inBuffer else 0

/-- The flits held for an output on a VC (R167). -/
def outDepth (s : State) (o v : Nat) : Nat :=
  sumOf s.sw.pkts fun k => sumOf k.copies fun c => if c.out = o ∧ c.vc = v then k.flits.length - c.sent else 0

/-- The flits held for an output across all data VCs, D (R158). -/
def outTotal (s : State) (o : Nat) : Nat :=
  sumOf s.sw.pkts fun k => sumOf k.copies fun c => if c.out = o then k.flits.length - c.sent else 0

/-- A packet enters the router, last in the order of arrival. -/
def holdPkt (s : State) (k : SwPkt) : State :=
  s.updSw fun w => { w with pkts := w.pkts ++ [{ k with id := w.nextId, arrivedAt := s.time.count }], nextId := w.nextId + 1 }

/-- A packet of this router's own making enters on the input lane of a port; it takes no space of an input buffer. Its EPOCH, AGE, TAG and ICRC
are written at its lookup (R143). -/
def holdOwn (s : State) (inPort : Nat) (p : Packet) (group : Option Nat) (retx : Bool) (back : Option Nat) : State :=
  let bodies := packetBodies p
  holdPkt s { inPort := inPort, own := true, hdr := p, flits := bodies, total := bodies.length, eop := true, freed := bodies.length
              group := group, retx := retx, back := back, bad := p.bad }

/-! ### Buffer space -/

/-- The free flits of a port's shared pool (R183, R184). -/
def sharedFree (sp : SwPort) : Nat := 16384 - sumOf sp.reserve id - sumOf sp.loan id

/-- The space committed to a VC, L_v + B_v (R184). -/
def committed (sp : SwPort) (v : Nat) : Nat := sp.reserve.getD v 0 + sp.loan.getD v 0

/-- A list with one element changed. -/
def listUpd (l : List Nat) (i : Nat) (f : Nat → Nat) : List Nat := l.set i (f (l.getD i 0))

/-- One flit of a VC leaves the input buffer, which then holds h of them: it repays a loan or advances FREED_v (R113,
R184). -/
def leaveFlit (x : SwPort × LinkPort) (v h : Nat) : SwPort × LinkPort :=
  if 0 < x.1.loan.getD v 0 ∧ h < x.1.reserve.getD v 0 / 4 then ({ x.1 with loan := listUpd x.1.loan v (· - 1) }, x.2)
  else (x.1, { x.2 with freed := listUpd x.2.freed v fun n => (n + 1) % 65536 })

/-- n flits of a VC leave a buffer that holds h of them. -/
def leaveFlits (x : SwPort × LinkPort) (v h : Nat) : Nat → SwPort × LinkPort
  | 0 => x
  | n + 1 => leaveFlits (leaveFlit x v (h - 1)) v (h - 1) n

/-- The freed counts as an ACKCR carries them, with the bypass pool last (R107). -/
def freedNow (l : LinkPort) : List Nat := l.freed ++ [l.bpFreed]

/-- A freed count has advanced by 32 since the last ACKCR (R107). -/
def freedAhead (l : LinkPort) : Bool :=
  (List.range 9).any fun i => decide (32 ≤ modSub 65536 ((freedNow l).getD i 0) (l.ackFreed.getD i 0))

/-- An ACKCR becomes due by the advance of a freed count (R107). -/
def LinkPort.noteFreed (l : LinkPort) : LinkPort := if freedAhead l then { l with ackDue := true } else l

/-- n flits of a VC leave a fabric port's input buffer. -/
def giveBack (s : State) (p v n : Nat) : State :=
  if p < 96 then
    let r := leaveFlits (s.inPort p, s.link p) v (inDepth s p v) n
    (s.updIn p fun _ => r.1).updLink p fun _ => r.2.noteFreed
  else s

/-- The flits of a packet that its input buffer need hold no longer: those that every copy has taken (R200), all once the packet stands in
the anchored store (R201) or has been discarded. -/
def SwPkt.taken (k : SwPkt) : Nat :=
  if k.anchored then k.got
  else if !k.looked ∨ k.stallAt.isSome then k.freed
  else k.copies.foldl (fun m c => min m c.crossed) k.got

/-- A packet after some of its flits moved on: the space they leave is given back, and a packet of which nothing is left to do is
forgotten. -/
def settle (s : State) (id : Nat) : State :=
  match s.pkt? id with
  | none => s
  | some k =>
    let t := max k.freed k.taken
    let s1 := (giveBack s k.inPort k.inVc (t - k.freed)).updPkt id fun k => { k with freed := t }
    if k.looked ∧ k.stallAt.isNone ∧ k.copies.isEmpty ∧ k.eop then s1.updSw fun w => { w with pkts := w.pkts.filter fun k => k.id ≠ id } else s1

/-- A packet is discarded, which its tag record tells (R527): none of its copies is sent any further, and what still comes of it is dropped. -/
def dropPkt (s : State) (id : Nat) : State :=
  match s.pkt? id with
  | none => s
  | some k =>
    settle ((if k.hdr.tag then tagDone s k true else s).updPkt id fun k =>
      { k with looked := true, requeued := false, stallAt := none, copies := [] }) id

/-- A bad packet of which no SOP flit has left is discarded whole (R187, R188). -/
def discardBad (s : State) (k : SwPkt) : State := benchEvent ((dropPkt s k.id).count 0x304 k.inPort) k.inPort 2

/-- The packet open on an input is closed as BAD: each output that has sent its SOP flit ends it with the EOP flit of R171, and otherwise
it is discarded whole (R128, R130, R187, R191). -/
def closeInput (s : State) (p : Nat) : State :=
  match (s.link p).rxOpen with
  | none => s
  | some r =>
    let s1 := s.updLink p fun l => { l with rxOpen := none }
    if r.drop then s1
    else
      let s2 := s1.updPkt r.pkt fun k => { k with flits := k.flits ++ [0], eop := true, bad := true, closed := true }
      match s2.pkt? r.pkt with
      | none => s2
      | some k => if k.begun then settle (s2.count 0x303 p) r.pkt else discardBad s2 k

/-- The input of a port starts afresh: the loans end, and flits still held give nothing back to the new counts (R130,
R184). -/
def resetInput (s : State) (p : Nat) : State :=
  (s.updIn p fun x => { x with loan := List.replicate 8 0 }).updSw fun w =>
    { w with pkts := w.pkts.map fun k => if k.inPort = p then { k with freed := k.got } else k }

/-- The reservations that the port advertises from its entry to Listening on (R183). -/
def advertise (s : State) (p : Nat) : State :=
  s.updIn p fun x => { x with reserve := (List.range 8).map fun v => s.reg Dict.SW_VC_RESERVE (8 * p + v) }

/-! ### Roles -/

/-- The own group (R145). -/
def myGroup (s : State) : Nat := groupOf (s.reg Dict.ID_FNA)

/-- The own member number (R145). -/
def myMember (s : State) : Nat := memberOf (s.reg Dict.ID_FNA)

/-- The group of the partner of a port, from LANE_PARTNER (R98). -/
def partnerGroup (s : State) (p : Nat) : Nat := groupOf (fld (s.lane p).partner 24 7)

/-- The role table of a bank: 0 bank A, 1 bank B (R148). -/
def roleObj (bank : Nat) : Obj := if bank = 0 then Dict.ROUTE_ROLE_A else Dict.ROUTE_ROLE_B

/-- The role of a port in a bank; a mismatched port counts as Off (R147). -/
def roleOf (s : State) (bank p : Nat) : Nat := if bitAt (s.inPort p).mismatch bank then 0 else s.reg (roleObj bank) p

/-- The port's role in a bank contradicts its partner's group (R147). -/
def roleWrong (s : State) (bank p : Nat) : Bool :=
  match s.reg (roleObj bank) p with
  | 1 => partnerGroup s p ≠ myGroup s
  | 2 => partnerGroup s p = myGroup s
  | _ => false

/-- A port's role in a bank is compared with its partner's group (R147). -/
def roleCheck (s : State) (bank p : Nat) : State :=
  if roleWrong s bank p ∧ !bitAt (s.inPort p).mismatch bank then
    ((s.updIn p fun x => { x with mismatch := x.mismatch ||| 2 ^ bank }).raise 0x0505 1 p).fire 123
  else s

/-- The role of a port is compared in both banks. -/
def roleChecks (s : State) (p : Nat) : State := roleCheck (roleCheck s 0 p) 1 p

/-! ### Usable ports -/

/-- The partner sends, or by a reserved code counts as sending, Isolated (R80, R128). -/
def partnerIsolated (l : LinkPort) : Bool :=
  match l.psc with
  | some c => c = 3 || 7 ≤ c
  | none => false

/-- A port carries routed packets: it is Admitted, or in Hold from Admitted, and its partner is neither isolated nor leaving (R128, R152,
R461, R478). -/
def portServes (l : LinkPort) : Bool :=
  (l.st = .admitted || (l.st = .hold && l.held = .admitted)) && !l.halted && !partnerIsolated l && !l.leaving

/-- A port is usable in a role of a bank (R152). -/
def usable (s : State) (bank role p : Nat) : Bool := decide (p < 96) && portServes (s.link p) && roleOf s bank p = role

/-- A port carries VC3, in any role (R127, R147, R156). -/
def carriesVc3 (l : LinkPort) : Bool :=
  (l.st = .quarantine || l.st = .admitted || l.st = .hold) && !l.halted && !partnerIsolated l

/-! ### Injection (R195 to R197) -/

/-- Recovery mode is in force (R197). -/
def shaperRecovery (s : State) : Bool :=
  (match s.sw.firstAdmit with
   | none => true
   | some f => decide (s.time.count / 1024 ≤ f + 1)) ||
  s.reg Dict.SW_SHAPER_TEST = 1 || (s.sw.switched && decide (s.time.count ≤ s.sw.switchAt + 1023))

/-- A group has a packet waiting at a port. -/
def groupWaits (l : List InjPkt) (g : Nat) : Bool := l.any fun i => i.group = some g

/-- A packet with what its source adds waits at an internal port for its injection. A group that had none waiting loses its banked credit in
recovery mode (R197). -/
def State.inject (s : State) (port : Nat) (p : InjPkt) : State :=
  let l := tget [] s.sw.inject port
  let groups := match p.group with
    | some g => if shaperRecovery s && !groupWaits l g then tupd {} s.sw.groups g fun x => { x with tokens := 0 } else s.sw.groups
    | none => s.sw.groups
  s.updSw fun w => { w with inject := tset [] w.inject port (l ++ [p]), groups := groups }

/-- A packet waits at an internal port for its injection. -/
def State.sendFrom (s : State) (port : Nat) (p : Packet) : State := s.inject port { pkt := p }

/-- The internal port SP (R178). -/
def portSP : Nat := 101

/-- The internal port CP (R178). -/
def portCP : Nat := 100

end Sys2Proof.Machine
end

