-- ==== Sys2Proof/Machine/HostOps.lean ====
section
/-!
DEFINITION. Accesses to host memory and what orders them (R248, R250, R255), MSI-X messages (R258), and the arithmetic of rings
(R267 to R269).
-/
namespace Sys2Proof.Machine

/-! ### Windows -/

/-- A row of ATTACH_DMA_WINDOW covers a 4 KiB page for an access (R255). -/
def windowCovers (row page : Nat) (write : Bool) : Bool :=
  bitAt row 127 && (if write then bitAt row 125 else bitAt row 126) &&
  decide (fld row 99 48 ≤ page) && decide (page < fld row 99 48 + fld row 47 12)

/-- The function's DMA space holds a page for an access. -/
def pageAllowed (s : State) (func page : Nat) (write : Bool) : Bool :=
  (List.range 8).any fun w => windowCovers (s.reg Dict.ATTACH_DMA_WINDOW (8 * func + w)) page write

/-- Every page of an access lies in the function's DMA space (R255). -/
def windowOk (s : State) (func addr len : Nat) (write : Bool) : Bool :=
  (List.range ((addr + (len - 1)) / 4096 - addr / 4096 + 1)).all fun i => pageAllowed s func (addr / 4096 + i) write

/-- A window check fails: the access is never made (R255, R265). -/
def windowFault (s : State) (func : Nat) : State := (s.raise 0x0805 3 func).event Dict.ATTACH_EVENTS 0 4

/-! ### Accesses -/

/-- The 64-byte lines that an access touches. -/
def linesOf (addr len : Nat) : Nat := if len = 0 then 0 else (addr + len - 1) / 64 - addr / 64 + 1

/-- No access to host memory is issued: the CXL link is Down, or the device is Fatal (R261, R463). -/
def hostGone (s : State) : Bool := s.host.units = 0 || s.mon.fault.fatal || s.mon.fault.fatalDue.isSome

/-- A function reset is under way: no new access is issued on the function's behalf, and its queues fetch nothing (R256). -/
def fnResetting (s : State) (func : Nat) : Bool :=
  match tget none s.host.resets func with
  | some r => decide (r.since ≤ s.time.count)
  | none => false

/-- An access on behalf of a function is not issued. -/
def accessGone (s : State) (func : Nat) : Bool := hostGone s || fnResetting s func

/-- Host writes are fenced (R461, R463). -/
def writesFenced (s : State) : Bool := s.mon.fault.isolated || s.mon.fault.fatal

/-- A read that has passed its window check is issued, for a segment whose validated access it belongs to, if any, and as checked in the
stitch chk (R248, R333, R350). -/
def issueReadSeg (s : State) (func addr len : Nat) (why : ReadFor) (seg : Option Nat) (chk : Nat) : State :=
  if accessGone s func then s
  else
    let tag := s.host.nextTag
    let r : HRead := { tag := tag, func := func, addr := addr, len := len, seg := seg, at' := chk, why := why }
    let s1 := (s.count 0x400 0 (linesOf addr len)).emit (.hostRead tag func addr len)
    { s1 with host := { s1.host with nextTag := tag + 1, reads := s1.host.reads ++ [r] } }

/-- A read of no segment's that has passed its window check is issued. -/
def issueRead (s : State) (func addr len : Nat) (why : ReadFor) : State :=
  issueReadSeg s func addr len why none s.time.count

/-- The part reads host memory on behalf of a function; the second component says whether the window check passed. -/
def hostRead (s : State) (func addr len : Nat) (why : ReadFor) : State × Bool :=
  if windowOk s func addr len false then (issueRead s func addr len why, true) else (windowFault s func, false)

/-- One piece of a read in several pieces. -/
structure Piece where
  addr : Nat
  len : Nat
deriving DecidableEq, Repr

/-- A write that has passed its window check is issued, or held back by the fence. Its tag names it until the
host has observed it (R250). -/
def issueWrite (s : State) (func addr : Nat) (data : List Byte) (seg : Option Nat) (chk : Nat) : State × List Nat :=
  if data.isEmpty || accessGone s func then (s, [])
  else
    let tag := s.host.nextTag
    let w : HWrite := { tag := tag, func := func, addr := addr, seg := seg, at' := chk }
    if writesFenced s then
      ({ s with host := { s.host with
          nextTag := tag + 1
          held := s.host.held ++ [{ tag := tag, func := func, addr := addr, data := data }]
          writes := s.host.writes ++ [w] } }, [tag])
    else
      let s1 := (s.count 0x401 0 (linesOf addr data.length)).emit (.hostWrite func addr data)
      ({ s1 with host := { s1.host with nextTag := tag + 1, writes := s1.host.writes ++ [w] } }, [tag])

/-- What a write to host memory came to: the state, the tags to wait for, and whether the window check passed. -/
structure Written where
  st : State
  tags : List Nat := []
  ok : Bool := true

/-- The part writes host memory on behalf of a function (R255). -/
def hostWrite (s : State) (func addr : Nat) (data : List Byte) : Written :=
  if data.isEmpty then { st := s }
  else if windowOk s func addr data.length true then
    let r := issueWrite s func addr data none s.time.count
    { st := r.1, tags := r.2 }
  else { st := windowFault s func, ok := false }

/-- Data is written across the pieces of a checked access, in order; the tags of the writes (R250). -/
def writePieces (s : State) (func : Nat) (seg : Option Nat) (chk : Nat) : List Piece → List Byte → State × List Nat
  | [], _ => (s, [])
  | x :: rest, data =>
    let r := issueWrite s func x.addr (data.take x.len) seg chk
    let r2 := writePieces r.1 func seg chk rest (data.drop x.len)
    (r2.1, r.2 ++ r2.2)

/-- The writes that the fence held are issued once it is lifted (R462). -/
def releaseHeld (s : State) : State :=
  let held := s.host.held
  forEach { s with host := { s.host with held := [] } } held fun s w =>
    (s.count 0x401 0 (linesOf w.addr w.data.length)).emit (.hostWrite w.func w.addr w.data)

/-- Something waits until the host has observed the writes of these tags (R250). -/
def waitFor (s : State) (tags : List Nat) (act : Deferred) : State :=
  { s with host := { s.host with waits := s.host.waits ++ [{ tags := tags, act := act }] } }

/-! ### Messages -/

/-- An MSI-X message of a function's vector, or its pending bit when the vector is masked (R258). MSI-X stops while the device is Fatal
(R461). -/
def sendMsix (s : State) (func vec : Nat) : State :=
  if s.mon.fault.fatal then s
  else
    let k := 2048 * func + vec
    if (tget {} s.host.msix k).masked then
      { s with host := { s.host with msix := tupd {} s.host.msix k fun e => { e with pending := true } } }
    else (s.count 0x407).emit (.msix func vec)

/-! ### Rings -/

/-- The units between two indices of a ring of n units (R267). -/
def ringDist (n from' to' : Nat) : Nat := modSub (2 * n) to' from'

/-- A ring is full (R267). -/
def ringFull (n prod cons : Nat) : Bool := ringDist n cons prod = n

/-- The next index (R267). -/
def ringNext (n i : Nat) : Nat := (i + 1) % (2 * n)

/-- The PHASE bit of a unit written for an index (R268). -/
def ringPhase (n i : Nat) : Nat := if i < n then 1 else 0

/-- A consumer index offered by software takes effect only from the present one up to the producer (R294). -/
def consumerOk (n cons prod new : Nat) : Bool := new < 2 * n && ringDist n cons new ≤ ringDist n cons prod

/-- The verdicts of R269 on a producer index. -/
inductive Doorbell where
  | lap | fresh | stale
deriving DecidableEq, Repr

/-- A producer index judged against the consumer's and the one before it (R269). -/
def judgeProducer (n cons prev new : Nat) : Doorbell :=
  if 2 * n ≤ new ∨ n < ringDist n cons new then .lap
  else if ringDist n cons prev ≤ ringDist n cons new then .fresh else .stale

end Sys2Proof.Machine
end

