-- ==== Sys2Proof/Machine/PortLife.lean ====
section
/-!
DEFINITION. The life of a port above its lanes (R127 to R131): entering a link state with all that the entry does, asking
for a transition at the next boundary, the port state code sent, and whether a port may be used.
-/
namespace Sys2Proof.Machine

/-- What every entry to Listening or Down does to the link layer (R130). -/
def LinkPort.cleared (l : LinkPort) : LinkPort :=
  { l with
    replay := [], replayPos := none, served := 0, replays := 0
    next := 0, oldest := 0
    sent := List.replicate 8 0, freedIn := List.replicate 8 0, limit := List.replicate 8 0
    bpSent := 0, bpFreedIn := 0, bpLimit := 0
    ne := 0, discarding := false, nakId := 0, behind := 0
    rcvd := List.replicate 8 0, freed := List.replicate 8 0, bpFreed := 0
    rxOpen := none, ackOwed := 0, ackDue := false, ackFreed := List.replicate 9 0, ctlQ := [], syncDue := false
    halted := false, haltDue := false }

/-- What an entry to Listening starts afresh (R131). -/
def LinkPort.listening (l : LinkPort) (count : Nat) : LinkPort :=
  { l.cleared with
    st := .listening, due := none, listenAt := count, otherPsc := false
    initRx := false, init1Rx := false, init1Tx := false, versionLogged := false, slowLogged := false }

/-- The event bits of LINK_PORT_EVENTS that a change of state sets (R136). -/
def linkEvents (s : State) (p : Nat) (old new : LState) : State :=
  let s1 := if old = .admitted ∧ new ≠ .admitted then s.event Dict.LINK_PORT_EVENTS p 2 else s
  match new with
  | .down => s1.event Dict.LINK_PORT_EVENTS p 4
  | .listening => if old = .down then s1 else s1.event Dict.LINK_PORT_EVENTS p 5
  | .quarantine => s1.event Dict.LINK_PORT_EVENTS p 0
  | .admitted => s1.event Dict.LINK_PORT_EVENTS p 1
  | .hold => s1
  | .isolated => s1.event Dict.LINK_PORT_EVENTS p 3

/-- What an entry to a link state does to the switch core: the open packet and the buffer (R130, R184, R191), the comparison of the roles
(R147) and the first admission (R197). -/
def switchEntered (s : State) (p : Nat) (old new : LState) : State :=
  match new with
  | .down => resetInput (closeInput s p) p
  | .listening => advertise (resetInput (closeInput s p) p) p
  | .isolated => closeInput s p
  | .quarantine => if old = .listening then roleChecks s p else s
  | .admitted =>
    s.updSw fun w => { w with firstAdmit := if w.firstAdmit.isSome then w.firstAdmit else some (s.time.count / 1024) }
  | .hold => s

/-- A port that leaves the four states of R21 ends its exchanges: another neighbour's start from none (R16). -/
def exchangesStop (s : State) (p : Nat) (new : LState) : State :=
  if new = .down ∨ new = .listening then s.updTport p fun t => { t with probe := none, goodRun := 0, badRun := 0 } else s

/-- A port enters a link state at a boundary (R127, R129, R130, R131). A port already in it stays as it is. -/
def enterLink (s : State) (p : Nat) (new : LState) : State :=
  let old := (s.link p).st
  if old = new then s.updLink p fun l => { l with due := none }
  else
    let s1 := (switchEntered s p old new).updLink p fun l =>
      match new with
      | .down => { l.cleared with st := .down, due := none, psc := none, otherPsc := false, leaveAt := none, leaving := false }
      | .listening => l.listening s.time.count
      | .quarantine =>
        if old = .listening then { l with st := .quarantine, due := none, next := 0, oldest := 0, ne := 0, bpLimit := 16, ackAt := s.time.count }
        else { l with st := .quarantine, due := none }
      | .admitted => { l with st := .admitted, due := none }
      | .hold => { l with st := .hold, due := none, held := old, holdAdmit := none, holdLost := false }
      | .isolated => { l with st := .isolated, due := none }
    linkEvents (exchangesStop s1 p new) p old new

/-- The rank by which one asked-for transition displaces another at the same boundary: Down, then Isolated, then the rest. -/
def LState.rank : LState → Nat
  | .down => 2 | .isolated => 1 | _ => 0

/-- A port asks for a transition at the next boundary (R129). -/
def askLink (s : State) (p : Nat) (new : LState) : State :=
  s.updLink p fun l =>
    match l.due with
    | some d => if d.rank ≤ new.rank then { l with due := some new } else l
    | none => { l with due := some new }

/-- A port is isolated from the next boundary, unless it is Down (R129, R455). -/
def isolatePort (s : State) (p : Nat) : State :=
  if (s.link p).st = .down then s else askLink s p .isolated

/-- A port re-initialises at the next boundary (R129). While the device is isolated no port enters Listening. -/
def reinitPort (s : State) (p : Nat) : State :=
  if s.mon.fault.isolated then s
  else match (s.link p).st with
    | .quarantine | .admitted | .hold => askLink s p .listening
    | _ => s

/-- The router enters Lost: an Admitted port goes to Quarantine, and a port in Hold returns to Quarantine when the Hold
ends (R26, R129). -/
def lostPort (s : State) (p : Nat) : State :=
  match (s.link p).st with
  | .admitted => enterLink s p .quarantine
  | .hold => s.updLink p fun l => { l with holdLost := true }
  | _ => s

/-- A row of LINK_ADMIT is applied to a port (R129). -/
def admitPort (s : State) (p : Nat) (on : Bool) : State :=
  match (s.link p).st with
  | .quarantine => if on then enterLink s p .admitted else s
  | .admitted => if on then s else enterLink s p .quarantine
  | .hold => s.updLink p fun l => { l with holdAdmit := some on }
  | _ => s

/-- The device enters Hold: a port in Quarantine or Admitted enters Hold (R129, R464). -/
def holdPort (s : State) (p : Nat) : State :=
  match (s.link p).st with
  | .quarantine | .admitted => enterLink s p .hold
  | _ => s

/-- The device leaves Hold (R129). -/
def unholdPort (s : State) (p : Nat) : State :=
  let l := s.link p
  if l.st = .hold then
    enterLink s p
      (if l.holdLost then .quarantine
       else match l.holdAdmit with
         | some true => .admitted
         | some false => .quarantine
         | none => l.held)
  else s

/-- Device isolation reaches a port at its boundary: every port that is not Down becomes Isolated (R129, R462). -/
def deviceIsolatePort (s : State) (p : Nat) : State :=
  if (s.link p).st = .down then s else enterLink s p .isolated

/-- The partner's PSC lets a new data packet start on a VC: VC3 on Quarantine too (R127). -/
def pscAllows (l : LinkPort) (vc : Nat) : Bool :=
  match l.psc with
  | some 0 | some 2 | some 4 => true
  | some 1 => vc = 3
  | _ => false

/-- The flits outstanding: (NEXT − OLDEST) modulo 4,096 (R106). -/
def outstanding (l : LinkPort) : Nat := modSub 4096 l.next l.oldest

/-- The four states in which a port exchanges time probes (R21). -/
def probesRun (l : LinkPort) : Bool :=
  match l.st with
  | .quarantine | .admitted | .hold | .isolated => true
  | _ => false

end Sys2Proof.Machine
end

