-- ==== Sys2Proof/Machine/Faults.lean ====
section
/-!
DEFINITION. The fault machinery and the harmless states: logging and escalation (R452 to R458), the history queue (R459),
device isolation, Fatal and Hold (R460 to R465), injection (R466) and what the objects of range 0x0F00 read (R468).
-/
namespace Sys2Proof.Machine

/-- The state with the fault unit changed. -/
def State.updFault (s : State) (f : FaultUnit → FaultUnit) : State :=
  { s with mon := { s.mon with fault := f s.mon.fault } }

/-- A bit of FAULT_EVENTS is set by a logged record: each record fires the bit's source while the bit is enabled (R458,
R470). -/
def noteRecord (s : State) (bit : Nat) : State :=
  let s1 : State := { s with mon := { s.mon with
    evreg := tupd 0 s.mon.evreg (regKey Dict.FAULT_EVENTS 0) fun v => v ||| 2 ^ bit } }
  if bitAt (eventEnable s.regs Dict.FAULT_EVENTS) bit then s1.fire (300 + bit) else s1

/-! ### The history queue -/

/-- An entry enters the history queue (R459). -/
def pushHistory (s : State) (e : HistEntry) : State :=
  (s.updFault fun f => { f with history := pushLog 32 e f.history }).event Dict.FAULT_EVENTS 0 8

/-- FAULT_STATE (R468). -/
def faultState (s : State) : Nat :=
  let f := s.mon.fault
  if f.fatal then 4 else if f.isolated && f.hold then 3 else if f.isolated then 2 else if f.hold then 1 else 0

/-- A change of FAULT_STATE enters the history queue (R459). -/
def noteState (before : Nat) (s : State) : State :=
  if faultState s = before then s
  else pushHistory s { kind := 1, code := faultState s, stitch := s.time.count }

/-! ### Isolation -/

/-- Device isolation is decided, with its cause; it takes effect at the next boundary (R462). -/
def isolateDevice (s : State) (cause : Nat) : State :=
  if s.mon.fault.isolated || s.mon.fault.isolateDue.isSome || s.mon.fault.fatal || s.mon.fault.fatalDue.isSome then s
  else s.updFault fun f => { f with isolateDue := some cause }

/-- Device isolation takes effect at a boundary (R462). -/
def isolateNow (s : State) (cause : Nat) : State :=
  let before := faultState s
  let s1 := s.updFault fun f =>
    { f with isolated := true, isolateDue := none, isolateN := true, cause := cause }
  noteState before ((forEach s1 fabricPorts deviceIsolatePort).event Dict.FAULT_EVENTS 0 3)

/-- A port isolated by R455 or by command is signalled and counted (R470). -/
def notePortIsolated (s : State) (p : Nat) : State := (s.count 0x786 p).event Dict.FAULT_EVENTS 0 7

/-- The containment of a record logged Uncorrected-contained over a Corrected code (R455). -/
def containRecord (s : State) (scope inst code : Nat) : State :=
  if scope = 1 then (if inst < 96 then notePortIsolated (isolatePort s inst) inst else s)
  else if scope = 2 then
    (if inst = 12 then isolateDevice s code
     else forEach s (fabricPorts.filter (portOfBench inst)) fun s p => notePortIsolated (isolatePort s p) p)
  else s

/-- The action of this chapter for a record by its class and scope, where it takes one: a Fatal record always (R463), an
Uncorrected-contained record when it was escalated (R455), or when it was injected with ACT (R466). -/
def actOnRecord (s : State) (r : FRecord) (act : Bool) : State :=
  if !act then s
  else match r.cls with
    | .fatal => if s.mon.fault.fatal || s.mon.fault.fatalDue.isSome then s
      else s.updFault fun f => { f with fatalDue := some r.code }
    | .contained =>
      if r.inj && (r.code = 0x0F02 || r.code = 0x0F03) then isolateDevice s r.code
      else if r.esc || r.inj then containRecord s r.scope r.inst r.code else s
    | .corrected => s

/-! ### Logging -/

/-- The key of a record (R452). -/
def recordKey (r : FRecord) : Nat := faultKey r.code r.scope r.inst

/-- A record that stands unacknowledged and is tracked has this key (R454). -/
def keyStands (f : FaultUnit) (k : Nat) : Bool := f.unacked.any fun r => r.tracked && recordKey r = k

/-- The keys with an unacknowledged record that are tracked (R454). -/
def trackedKeys (f : FaultUnit) : List Nat :=
  (f.unacked.filter (·.tracked)).foldl (fun l r => if l.contains (recordKey r) then l else recordKey r :: l) []

/-- One class above a class (R454). -/
def FClass.above : FClass → FClass
  | .corrected => .contained | _ => .fatal

/-- The record that the logging unit makes of a raise (R454, R456, R457). -/
def recordOf (s : State) (r : Raise) : FRecord :=
  let f := s.mon.fault
  let k := faultKey r.code r.scope r.inst
  let stands := keyStands f k
  let esc := stands && r.cls ≠ .fatal
  { code := r.code, cls := if esc then r.cls.above else r.cls, esc := esc, inj := r.inj, lost := decide (0 < f.lostRaises)
    scope := r.scope, inst := r.inst, stitch := r.stitch, seq := f.seq
    suppressed := min 0xFFFF (tget 0 f.suppressed k)
    detail := if r.code / 256 = 0x0F then r.detail else 0
    loggedAt := s.time.count
    tracked := stands || decide ((trackedKeys f).length < 1024) }

/-- Where a record is entered: FAULT_LOG, the unacknowledged records, and for all but Corrected ones the queue of copies
and FAULT_N (R457, R458). -/
def enterRecord (s : State) (r : FRecord) : State :=
  s.updFault fun f =>
    { f with
      log := pushLog 256 r f.log
      unacked := f.unacked ++ [r]
      seq := (f.seq + 1) % 2 ^ 32
      suppressed := tset 0 f.suppressed (recordKey r) 0
      lostRaises := 0
      copyQ := if r.cls = .corrected then f.copyQ else f.copyQ ++ [r]
      faultN := f.faultN || r.cls ≠ .corrected }

/-- A record is signalled and counted (R458, R470). -/
def signalRecord (s : State) (r : FRecord) : State :=
  let s1 := match r.cls with
    | .corrected => noteRecord (s.count 0x780) 0
    | .contained => noteRecord (s.count 0x781) 1
    | .fatal => s
  if r.esc then noteRecord (s1.count 0x782) 2 else s1

/-- A record enters the history queue: always when it is not Corrected, otherwise while FAULT_HISTORY_CORRECTED is 1 (R459). -/
def historyRecord (s : State) (r : FRecord) : State :=
  if r.cls ≠ .corrected ∨ s.reg Dict.FAULT_HISTORY_CORRECTED = 1 then
    pushHistory s { kind := 0, code := r.code, cls := r.cls.code, esc := r.esc, inj := r.inj, scope := r.scope, inst := r.inst
                    stitch := r.stitch }
  else s

/-- A raise is logged (R454 to R459). Raises lost, and a key beyond the 1,024 tracked, raise 0x0F04. -/
def logRaise (s : State) (r : Raise) : State :=
  let rec' := recordOf s r
  let lost := s.mon.fault.lostRaises
  let s1 := actOnRecord (historyRecord (signalRecord (enterRecord s rec') rec') rec') rec' r.act
  if 0 < lost ∨ !rec'.tracked then s1.raise 0x0F04 0 0 (min 0xFFFF lost) else s1

/-- The oldest waiting raise is logged while the stitch's budget of 16 lasts (R457). -/
def logNext (s : State) : State :=
  match s.mon.fault.queue with
  | [] => s
  | r :: rest =>
    if 16 ≤ s.mon.fault.logged then s
    else logRaise (s.updFault fun f => { f with queue := rest, logged := f.logged + 1 }) r

/-! ### Acknowledgement -/

/-- The containment that a record took has taken effect (R453). -/
def containmentDone (s : State) (r : FRecord) : Bool :=
  if r.scope = 1 then decide ((s.link r.inst).due ≠ some LState.isolated)
  else if r.scope = 2 ∧ r.inst < 12 then
    (fabricPorts.filter (portOfBench r.inst)).all fun p => decide ((s.link p).due ≠ some LState.isolated)
  else s.mon.fault.isolateDue.isNone

/-- K6 may acknowledge a record (R453). -/
def mayAck (s : State) (r : FRecord) : Bool :=
  match r.cls with
  | .corrected => true
  | .contained => containmentDone s r && decide (s.reg Dict.FAULT_UC_HOLD_ST ≤ s.time.count - r.loggedAt) &&
      decide (r.loggedAt < s.time.count)
  | .fatal => false

/-- K6's slice acknowledges up to 32 records, oldest first (R453, R467). -/
def ackSlice (s : State) : State :=
  let now := (s.mon.fault.unacked.filter (mayAck s)).take 32
  s.updFault fun f =>
    { f with
      unacked := f.unacked.filter fun r => !now.any fun a => a.seq = r.seq
      log := f.log.map fun r => if now.any (fun a => a.seq = r.seq) then { r with ack := true } else r }

/-! ### What the objects read -/

/-- A record's 256 bits (R456). -/
def packRecord (r : FRecord) : Nat :=
  put r.code 255 240 + put r.cls.code 239 238 + put (b2n r.esc) 237 237 + put (b2n r.inj) 236 236 + put (b2n r.ack) 235 235 +
  put (b2n r.lost) 234 234 + put r.scope 233 230 + put r.inst 229 206 + put r.stitch 191 128 + put r.seq 127 96 +
  put r.suppressed 95 80 + put r.detail 63 0

/-- A history entry's 128 bits (R459). -/
def packHistory (e : HistEntry) : Nat :=
  put e.kind 127 126 + put e.code 125 110 + put e.cls 109 108 + put (b2n e.esc) 107 107 + put (b2n e.inj) 106 106 +
  put e.scope 105 102 + put e.inst 101 78 + put e.stitch 63 0

/-- A row of a log whose rows hold nothing until they are written. -/
def logRow {α : Type} (pack : α → Nat) (l : List α) (row : Nat) : Nat := ((l[row]?).map pack).getD 0

/-- The values of the fault objects (R468). -/
def faultView (s : State) (id row : Nat) : Option Nat :=
  let f := s.mon.fault
  match id with
  | 0x0F0000 => some (faultState s)
  | 0x0F0001 => some f.cause
  | 0x0F0002 => some f.fatalCode
  | 0x0F0100 => some (logRow packRecord f.log row)
  | 0x0F0101 => some (trackedKeys f).length
  | 0x0F0200 => some (logRow packHistory f.history row)
  | 0x0F0300 => some (((f.records.find? fun c => c.1 = row).map fun c => packRecord c.2).getD 0)
  | 0x0F0301 => some f.recordsNext
  | 0x0F0600 => some f.mv
  | _ => none

/-! ### Writes of range 0x0F00 -/

/-- FAULT_N_CLEAR applied (R458). -/
def applyFaultNClear (s : State) (v : Nat) : State :=
  if v = 1 ∧ !s.mon.fault.fatal then s.updFault fun f => { f with faultN := false } else s

/-- FAULT_HISTORY_CLEAR applied (R459). -/
def applyHistoryClear (s : State) (v : Nat) : State :=
  if v = 1 then s.updFault fun f => { f with history := [], fatalCode := 0 } else s

/-- FAULT_DEVICE_ISOLATE applied (R462). -/
def applyDeviceIsolate (s : State) (v : Nat) : State :=
  if v = 1 then (isolateDevice s 0x0F07).raise 0x0F07 else s

/-- A write to FAULT_DEVICE_RELEASE is judged: 0x0C wrong-state while Fatal, in Hold or below the warning level (R462). -/
def releaseCheck (s : State) (v : Nat) : Nat :=
  if 1 < v then 6
  else if v = 1 ∧ (s.mon.fault.fatal ∨ s.mon.fault.hold ∨ s.mon.fault.mv < 700) then 0x0C else 0

/-- FAULT_DEVICE_RELEASE applied: the fence and the stop of fetch are lifted, and ports whose lanes are Up enter Listening
(R462). The lanes held Off by a departure follow LANE_ENABLE again (R477). -/
def applyDeviceRelease (s : State) (v : Nat) : State :=
  if v = 1 ∧ (s.mon.fault.isolated ∨ s.mon.fault.isolateDue.isSome) then
    let before := faultState s
    let s1 := s.updFault fun f => { f with isolated := false, isolateDue := none, isolateN := false }
    let s2 : State := { s1 with pwr := { s1.pwr with departed := false } }
    noteState before ((forEach (releaseHeld s2) fabricPorts fun s p =>
      if (s.lane p).st = .up ∧ ((s.link p).st = .isolated ∨ (s.link p).st = .down) then enterLink s p .listening else s).event Dict.FAULT_EVENTS 0 4)
  else s

/-- A row of FAULT_PORT_ISOLATE applied: the port is isolated from this boundary (R460, R468). -/
def applyPortIsolate (s : State) (p v : Nat) : State :=
  if v = 1 then
    (notePortIsolated (if (s.link p).st = .down then s else enterLink s p .isolated) p).raise 0x0F07 1 p
  else s

/-- A write to FAULT_INJECT is judged (R466). -/
def injectCheck (s : State) (v : Nat) : Nat :=
  if s.reg Dict.PMAP_DEBUG_LOCK = 0 then 0x0C
  else if fld v 47 46 = 3 ∨ 12 ≤ fld v 43 40 then 6 else 0

/-- FAULT_INJECT applied: the named fault is raised as its unit would raise it (R466). -/
def applyInject (s : State) (v : Nat) : State :=
  let cls : FClass := match fld v 47 46 with
    | 0 => .corrected | 1 => .contained | _ => .fatal
  let r : Raise :=
    { code := fld v 63 48, cls := cls, scope := fld v 43 40, inst := fld v 23 0, inj := true, act := bitAt v 45
      stitch := s.time.count }
  { s with mon := s.mon.raiseAs s.regs s.time.count r }

/-! ### Commands -/

/-- FAULT_LOG_RAISE: the logging unit takes the oldest raise (R454, R457). -/
def execFaultLogRaise (s : State) : Host.Outcome State Fault Refusal := .next (logNext s)

/-- FAULT_ACK_SLICE: K6's slice; the halted cores of a Fatal device acknowledge nothing (R453, R461). -/
def execFaultAckSlice (s : State) : Host.Outcome State Fault Refusal :=
  .next (if bitAt s.exe.halted 6 then s else ackSlice s)

/-- FAULT_RECORD_COPY: the oldest record that waits is copied to the MRAM, or its copy fails (R457, R463, R469). -/
def execFaultRecordCopy (ok : Bool) (s : State) : Host.Outcome State Fault Refusal :=
  match s.mon.fault.copyQ with
  | [] => .next s
  | r :: rest =>
    let s1 := s.updFault fun f => { f with copyQ := rest }
    let s2 :=
      if ok then
        (s1.updFault fun f =>
          { f with records := tset {} f.records f.recordsNext r, recordsNext := (f.recordsNext + 1) % 32768 }).count 0x788
      else (s1.raise 0x0F06 0 0 r.seq).event Dict.FAULT_EVENTS 0 9
    .next (if r.cls = .fatal then { s2 with exe := { s2.exe with halted := 0xFF } } else s2)

/-- FAULT_N_CLEAR (R458). -/
def execFaultNClear (value : Nat) (s : State) : Host.Outcome State Fault Refusal :=
  judgedAlways s (boolCheck value) (applyFaultNClear s value)

/-- FAULT_HISTORY_CLEAR (R459). -/
def execFaultHistoryClear (value : Nat) (s : State) : Host.Outcome State Fault Refusal :=
  judgedAlways s (boolCheck value) (applyHistoryClear s value)

/-- FAULT_DEVICE_ISOLATE (R462). -/
def execFaultDeviceIsolate (value : Nat) (s : State) : Host.Outcome State Fault Refusal :=
  judgedAlways s (boolCheck value) (applyDeviceIsolate s value)

/-- FAULT_DEVICE_RELEASE (R462). -/
def execFaultDeviceRelease (value : Nat) (s : State) : Host.Outcome State Fault Refusal :=
  judgedAlways s (releaseCheck s value) (applyDeviceRelease s value)

/-- FAULT_PORT_ISOLATE (R460). -/
def execFaultPortIsolate (port value : Nat) (s : State) : Host.Outcome State Fault Refusal :=
  if 96 ≤ port then .fault .noSuchPort else judgedAlways s (boolCheck value) (applyPortIsolate s port value)

/-- FAULT_INJECT (R466). -/
def execFaultInject (value : Nat) (s : State) : Host.Outcome State Fault Refusal :=
  judgedAlways s (injectCheck s value) (applyInject s value)

/-- The lowest rail of a dip is being recorded: from its crossing of Warning to the end of the Hold, or, when it reached Reset, until the core has
started again (R464, R465, R469). -/
def inDip (f : FaultUnit) : Bool := f.hold || f.holdDue || f.supplyReset

/-- SUPPLY_WARNING_CROSS: the rail crosses below 0.70 V: the device enters Hold at the next boundary (R464). While Fatal the dip
is only remembered for its history entry (R465). -/
def execSupplyWarningCross (mv : Nat) (s : State) : Host.Outcome State Fault Refusal :=
  let s1 := (s.updFault fun f => { f with mv := mv }).count 0x787
  .next (if s.mon.fault.fatal ∨ s.mon.fault.fatalDue.isSome then
      s1.updFault fun f => { f with fatalDip := max 1 f.fatalDip }
    else s1.updFault fun f => { f with holdDue := f.holdDue || !f.hold, lowest := if inDip f then min f.lowest mv else mv })

/-- Hold begins at a boundary (R464). -/
def holdNow (s : State) : State :=
  let before := faultState s
  let s1 := s.updFault fun f => { f with hold := true, holdDue := false, holdAt := s.time.count, holdLong := false }
  noteState before ((forEach s1 fabricPorts holdPort).event Dict.FAULT_EVENTS 0 5)

/-- HOLD_RESUME: the first boundary after 10 µs above 0.71 V ends the Hold (R464); while Fatal it ends a dip that did not reach Reset,
which enters the history queue (R465). -/
def execHoldResume (s : State) : Host.Outcome State Fault Refusal :=
  let f := s.mon.fault
  if f.fatal then
    .next ((if f.fatalDip = 1 then pushHistory s { code := 0x0F01 } else s).updFault fun f => { f with fatalDip := 0 })
  else if f.hold then
    let before := faultState s
    let s1 := s.updFault fun f => { f with hold := false }
    let s2 := (forEach s1 fabricPorts unholdPort).raise 0x0F01 0 0
      (f.lowest % 65536 + ((s.time.count - f.holdAt) % 2 ^ 32) * 65536)
    .next (noteState before (s2.event Dict.FAULT_EVENTS 0 6))
  else .next s

/-- SUPPLY_HOLD_LONG: a Hold has lasted 9,766 st (R464). -/
def execSupplyHoldLong (s : State) : Host.Outcome State Fault Refusal :=
  let f := s.mon.fault
  if f.hold ∧ !f.holdLong ∧ 9766 ≤ s.time.count - f.holdAt then
    .next (isolateDevice ((s.updFault fun f => { f with holdLong := true }).raise 0x0F02 0 0 (f.lowest % 65536)) 0x0F02)
  else .next s

/-- FAULT_STATE_PARITY_ERROR: the fault unit or the harmless-state control holds a parity error (R469). -/
def execFaultStateParityError (s : State) : Host.Outcome State Fault Refusal := .next (s.raise 0x0F05)

/-- A Fatal record takes effect at a boundary (R463). -/
def fatalNow (s : State) (code : Nat) : State :=
  let before := faultState s
  let s1 := s.updFault fun f =>
    { f with fatal := true, fatalDue := none, fatalCode := code, isolateN := true, faultN := true, hold := false, holdDue := false }
  noteState before (forEach s1 fabricPorts deviceIsolatePort)

end Sys2Proof.Machine
end

