-- ==== Sys2Proof/Machine/CtlOps.lean ====
section
/-!
DEFINITION. The access record's layouts (R47, R48, R50) and the way of a response back to its feed (R61, R62, R64, R66).
-/
namespace Sys2Proof.Machine

/-! ### Which part of the device answers -/

/-- The boot ROM serves the sideband alone (R497). -/
def inRecovery (s : State) : Bool := decide (s.sec.bootStatus = 1) && decide (s.pwr.step < 6)

/-- The objects that the always-on domain serves in Fatal and in Standby (R463, R483, R490). -/
def alwaysOn (o : Obj) : Bool :=
  o.id / 65536 = 0 || (o.id / 65536 = 0x0F && o.id ≠ 0x0F0100 && o.id ≠ 0x0F0300) ||
  [0x100000, 0x100001, 0x100004, 0x100200, 0x100202, 0x100203, 0x100204, 0x100205].contains o.id

/-- The objects that the boot ROM serves in Recovery (R497). -/
def recoveryObj (o : Obj) : Bool :=
  o.id / 65536 = 0 || (o.id / 65536 = 0x0F && o.id ≠ 0x0F0100 && o.id ≠ 0x0F0300) || o.id / 65536 = 0x11 || o.id = 0x100002

/-- A row of an object that a bench domain or a module domain holds is unpowered (R487). -/
def rowDormant (s : State) (o : Obj) (row : Nat) : Bool :=
  if o.id = Dict.LANE_EYE_CTL.id ∨ o.id = Dict.LANE_EYE_RESULT.id ∨ o.id = Dict.LANE_PATTERN_ERRS.id then
    !bitAt s.pwr.benches (row / 16)
  else if o.id = Dict.ATTACH_MODULE_REPAIRED.id then s.reg Dict.ATTACH_MODULE_ENABLE row = 0
  else false

/-- A row of an object is dormant (R463, R483, R487, R497). -/
def dormant (s : State) (o : Obj) (row : Nat) : Bool :=
  if coreUp s then rowDormant s o row else if inRecovery s then !recoveryObj o else !alwaysOn o

/-- The request header as one 128-bit number (R47). -/
def packReq (r : Req) : Nat :=
  put r.op 127 120 + put r.seq 119 112 + put r.agent 111 96 + put r.index 95 80 + put r.sub 79 72 +
  put r.row 63 32 + put r.count 31 24 + put r.len 15 0

/-- The request that a header and the bytes after it spell (R47). -/
def unpackReq (feed : Feed) (h : Nat) (data : List Byte) : Req :=
  { feed := feed, op := fld h 127 120, seq := fld h 119 112, agent := fld h 111 96, index := fld h 95 80
    sub := fld h 79 72, row := fld h 63 32, count := fld h 31 24, len := fld h 15 0, data := data }

/-- The response header as one 128-bit number (R48). -/
def packResp (r : Resp) : Nat :=
  put r.op 127 120 + put r.seq 119 112 + put r.status 111 104 + put r.index 103 88 + put r.sub 87 80 +
  put r.data.length 79 64 + put r.stitch 63 0

/-- The bytes of a response: the header in the carriage's order (R50), then its data. -/
def respBytes (r : Resp) : List Byte :=
  (if r.feed = .inband then bytesBE (packResp r) 16 else bytesLE (packResp r) 16) ++ r.data

/-- The response that a request draws. -/
def answer (q : Req) (status stitch : Nat) (data : List Byte) : Resp :=
  { feed := q.feed, op := q.op, seq := q.seq, status := status, index := q.index, sub := q.sub, stitch := stitch, data := data
    sfna := q.sfna, sep := q.sep, agent := q.agent, dfna := q.dfna, inPort := q.inPort }

/-- Bytes written into a byte buffer from an offset on. -/
def bufWrite (t : Tbl Nat) (off : Nat) (data : List Byte) : Tbl Nat :=
  (data.foldl (fun (a : Tbl Nat × Nat) b => (tset 0 a.1 a.2 b.toNat, a.2 + 1)) (t, off)).1

/-- Bytes read from a byte buffer. -/
def bufRead (t : Tbl Nat) (off n : Nat) : List Byte :=
  (List.range n).map fun i => BitVec.ofNat 8 (tget 0 t (off + i))

/-- The entry of the duplicate filter that an answered request has made takes its response; an answer of busy gives the
entry up (R64). -/
def dupAnswered (dups : List DupEntry) (r : Resp) (count : Nat) : List DupEntry :=
  if r.status = 0x0A then dups.filter fun d => !(d.sfna = r.sfna && d.agent = r.agent && d.seq = r.seq && d.resp.isNone)
  else dups.map fun d =>
    if d.sfna = r.sfna ∧ d.agent = r.agent ∧ d.seq = r.seq then
      { d with resp := if d.resp.isNone then some r else d.resp, sentAt := count } else d

/-- The in-band response packet: OPC 0xF1 on VC3 with PRIV (R62). -/
def respPacket (r : Resp) : Packet :=
  let bytes := respBytes r
  { opc := 0xF1, vc := 3, priv := true, dfna := r.sfna, dep := r.sep, sep := 0xFFFF, len := bytes.length, payload := bytes }

/-- The response packet as SP injects it: a node without an FNA answers as the address that its request named, and an unreachable
response leaves by the port of its request (R156). -/
def respInject (s : State) (r : Resp) : InjPkt :=
  { pkt := respPacket r
    sfna := if s.reg Dict.ID_FNA = 0x3FFFF then some r.dfna else none
    back := some r.inPort }

/-- A response goes to its feed: the mailbox's buffer (R61), a packet from SP (R62), or the sideband's places (R66). -/
def sendResp (s : State) (r : Resp) : State :=
  match r.feed with
  | .mbx =>
    let s1 := { s with ctl := { s.ctl with
      mbxRespBuf := bufWrite [] 0 (respBytes r), mbxBusy := false, mbxResp := true } }
    (if s.ctl.mbxIrq then s1.fire (s.reg Dict.CTL_MBX_SOURCE) else s1).emit (.resp r)
  | .inband =>
    (({ s with ctl := { s.ctl with dups := dupAnswered s.ctl.dups r s.time.count } } : State).inject portSP
      (respInject s r)).emit (.resp r)
  | .sideband =>
    let c := s.ctl
    (if c.sbRespQ.length < 4 then { s with ctl := { c with sbRespQ := c.sbRespQ ++ [r] } }
     else { s with ctl := { c with sbHeld := some r } }).emit (.resp r)

/-- A request is answered, unless a reset of its feed discards the response (R61, R69). -/
def respond (s : State) (q : Req) (status stitch : Nat) (data : List Byte) : State :=
  if q.mute then s else sendResp s (answer q status stitch data)

end Sys2Proof.Machine
end

