-- ==== Sys2Proof/Machine/SemBank.lean ====
section
/-!
DEFINITION. The semaphore bank: rights, operations and their results, priority inheritance, scheduler event records and
the sweep of a master reset (R420 to R435).
-/
namespace Sys2Proof.Machine

/-- A semaphore of the bank. -/
def semOf (s : State) (n : Nat) : Sem := tget {} s.sem.sems n

/-- The state with the bank changed. -/
def State.updSem (s : State) (f : SemUnit → SemUnit) : State := { s with sem := f s.sem }

/-- The state with one semaphore changed. -/
def setSem (s : State) (n : Nat) (x : Sem) : State := s.updSem fun u => { u with sems := tset {} u.sems n x }

/-- The key of a semaphore page. -/
def pageKey (func agent : Nat) : Nat := 4096 * func + agent

/-- The state with a page of a function's agent changed (R429). -/
def updPage (s : State) (func agent : Nat) (f : SemPage → SemPage) : State :=
  s.updSem fun u => { u with pages := tupd {} u.pages (pageKey func agent) f }

/-- The master may use the semaphore (R422). -/
def semAllowed (s : State) (n : Nat) (who : Master) : Bool :=
  let row := s.reg Dict.SEM_RIGHTS n
  match who with
  | .h func _ => n < 4064 && bitAt row 31 && fld row 9 0 = func
  | .m _ _ => n < 4064 && bitAt row 30
  | .k _ _ => true

/-- The waiters of every semaphore together (R420). -/
def waitersTotal (s : State) : Nat := s.sem.sems.foldl (fun a c => a + c.2.waiters.length) 0

/-- The master waits on some semaphore (R423). -/
def waitsAnywhere (s : State) (who : Master) : Bool :=
  s.sem.sems.any fun c => c.2.waiters.any fun w => w.who = who

/-! ### Scheduler event records -/

/-- The port, function or core, feed and agent of a master, as records and SEM_STATE carry them (R434, R447). -/
def masterBits (w : Master) : Nat × Nat × Nat × Nat :=
  match w with
  | .h f a => (0, f, 0, a)
  | .m sb a => (1, 0, b2n sb, a)
  | .k c a => (2, c, 0, a)

/-- A record's 512 bits (R434). -/
def packEvRecord (r : EvRecord) (phase : Nat) (lost : Bool) : Nat :=
  let w0 := put phase 63 63 + put r.kind 62 60 + put (b2n lost) 59 59 + put r.prio 58 56 + put r.sem 55 44 + put r.agent 43 28
  let w2 := match r.waiter with
    | none => 0
    | some w =>
      let b := masterBits w
      put b.1 63 62 + put b.2.1 61 52 + put b.2.2.1 51 51 + put b.2.2.2 50 35
  let w3 := put r.tag 63 56 + put r.status 55 48
  w0 + r.stitch * 2 ^ 64 + w2 * 2 ^ 128 + w3 * 2 ^ 192

/-- A record is dropped for a full ring or a full queue (R435). -/
def evDrop (s : State) (func : Nat) : State :=
  let s1 := s.updSem fun u => { u with rings := tupd {} u.rings func fun r => { r with lost := true } }
  ((s1.count 0x705).raise 0x0E03 3 func).event Dict.SEM_EVENTS 0 2

/-- A record is written to its function's ring, and its source fires (R433, R435). -/
def evWrite (s : State) (r : EvRecord) : State :=
  let row := s.reg Dict.SEM_EVRING r.func
  let n := 2 ^ fld row 111 108
  let ring := tget {} s.sem.rings r.func
  if !bitAt row 127 then s.count 0x704
  else if ringFull n ring.prod ring.cons then evDrop s r.func
  else
    let word := packEvRecord r (ringPhase n ring.prod) ring.lost
    let w := hostWrite s r.func (fld row 51 0 * 4096 + 64 * (ring.prod % n)) (bytesLE word 64)
    let s1 := w.st.updSem fun u =>
      { u with
        written := u.written + 1
        rings := tupd {} u.rings r.func fun g => { g with prod := ringNext n g.prod, lost := false } }
    let s2 := if r.kind = 0 then s1.count 0x70D else s1
    let s3 := if w.tags.isEmpty then s2 else waitFor s2 w.tags (.evVector r.func)
    if fld row 96 87 = 0 then s3 else s3.fire (fld row 96 87)

/-- A record is due: written at once while the stitch's budget of 16 lasts, held up to 256 more, dropped beyond (R435). -/
def evRecord (s : State) (r : EvRecord) : State :=
  if s.sem.written < 16 ∧ s.sem.recs.isEmpty then evWrite s r
  else if s.sem.recs.length < 256 then s.updSem fun u => { u with recs := u.recs ++ [r] }
  else evDrop s r.func

/-- The function is in reset (R256). -/
def inReset (s : State) (func : Nat) : Bool := (tget none s.host.resets func).isSome

/-- A record about a semaphore's ceiling goes to an H owner; for another owner event 0x704 is counted (R432). -/
def ceilingRecord (s : State) (kind prio n : Nat) (owner : Master) (waiter : Option Master) : State :=
  match owner with
  | .h func agent =>
    evRecord s { func := func, kind := kind, prio := prio, sem := n, agent := agent, stitch := s.time.count, waiter := waiter }
  | _ => s.count 0x704

/-! ### Results -/

/-- The result of an operation is delivered on the route it came by (R423, R429, R431). -/
def semResult (s : State) (op : SemOp) (status : Nat) : State :=
  match op.who with
  | .h func agent =>
    updPage s func agent fun p =>
      let p1 := { p with tag := op.tag, status := status, sem := op.sem, pending := false }
      if status = 0x13 then
        { p1 with waiting := true, gTag := op.tag, gStatus := 0x13, gSem := op.sem, gStitch := 0 }
      else p1
  | .m _ _ => (match op.req with
    | some q => respond s q status s.time.count []
    | none => s)
  | .k core agent => s.emit (.coreResult core agent op.sem status)

/-- A waiter's grant, or the withdrawal of its wait, is reported; a GRANT record is written for a page that asked for one
(R423, R428, R429, R431). -/
def grantResult (s : State) (n : Nat) (w : Waiter) (status : Nat) : State :=
  match w.who with
  | .h func agent =>
    let s1 := updPage s func agent fun p =>
      { p with waiting := false, gTag := w.tag, gStatus := status, gSem := n, gStitch := s.time.count % 2 ^ 32 }
    if w.notify ∧ status ≠ 0x14 then
      evRecord s1 { func := func, kind := 2, prio := w.prio, sem := n, agent := agent, stitch := s.time.count, tag := w.tag, status := status }
    else s1
  | .m _ _ => (match w.req with
    | some q => if status = 0x14 then s else respond s q status s.time.count []
    | none => s)
  | .k core agent => s.emit (.coreResult core agent n status)

/-! ### Operations -/

/-- The highest priority among waiters, and 0 when there is none. -/
def topPrio (ws : List Waiter) : Nat := ws.foldl (fun a w => max a w.prio) 0

/-- The waiter that a pass-on takes: highest priority, first queued (R424). -/
def nextWaiter (ws : List Waiter) : Option Waiter := ws.find? fun w => w.prio = topPrio ws

/-- A semaphore becomes Held (R425). -/
def semGrant (s : State) (n : Nat) (who : Master) (prio : Nat) (rest : List Waiter) (abandoned : Bool) : State :=
  let ceiling := max prio (topPrio rest)
  let s1 := (setSem s n { st := .held, owner := some who, ownerPrio := prio, ceiling := ceiling, waiters := rest, grantAt := s.time.count }).count 0x701
  if abandoned then s1.count 0x703 else s1

/-- A semaphore leaves its owner: to the first waiter of highest priority, else to Free or Abandoned (R424, R425, R432). -/
def semPassOn (s : State) (n : Nat) (abandoned : Bool) : State :=
  let x := semOf s n
  let s0 := match x.owner with
    | some o =>
      if x.ownerPrio < x.ceiling then
        match o with
        | .h f _ => if inReset s f then s else ceilingRecord s 1 x.ownerPrio n o none
        | _ => ceilingRecord s 1 x.ownerPrio n o none
      else s
    | none => s
  match nextWaiter x.waiters with
  | none => setSem s0 n { st := if abandoned then .abandoned else .free }
  | some w =>
    let rest := x.waiters.erase w
    let s1 := grantResult (semGrant s0 n w.who w.prio rest abandoned) n w (if abandoned then 0x11 else 0x10)
    if w.prio < topPrio rest then
      ceilingRecord s1 0 (topPrio rest) n w.who ((nextWaiter rest).map (·.who))
    else s1

/-- An acquire that must wait (R423, R432). -/
def semQueue (s : State) (op : SemOp) (x : Sem) : State :=
  let w : Waiter := { who := op.who, prio := op.prio, notify := op.notify, tag := op.tag, req := op.req }
  let x1 := { x with waiters := x.waiters ++ [w], ceiling := max x.ceiling op.prio }
  let s1 := semResult ((setSem s op.sem x1).count 0x702) op 0x13
  match x.owner with
  | some o => if x.ceiling < op.prio then ceilingRecord s1 0 op.prio op.sem o (some op.who) else s1
  | none => s1

/-- The bank performs one operation at the boundary of the present count (R420, R422, R423). -/
def semPerform (s : State) (op : SemOp) : State :=
  let x := semOf s op.sem
  let s1 := s.count 0x700
  if !semAllowed s op.sem op.who then semResult s1 op 0x03
  else match op.verb with
  | .acquire =>
    (match x.st with
     | .free => semResult (semGrant s1 op.sem op.who op.prio [] false) op 0x10
     | .abandoned => semResult (semGrant s1 op.sem op.who op.prio [] true) op 0x11
     | .held =>
       if x.owner = some op.who ∨ waitsAnywhere s op.who then semResult s1 op 0x12
       else if 16384 ≤ waitersTotal s then
         semResult ((s1.raise 0x0E02).event Dict.SEM_EVENTS 0 1) op 0x12
       else semQueue s1 op x)
  | .try =>
    (match x.st with
     | .free => semResult (semGrant s1 op.sem op.who op.prio [] false) op 0x10
     | .abandoned => semResult (semGrant s1 op.sem op.who op.prio [] true) op 0x11
     | .held => semResult s1 op 0x12)
  | .release =>
    if x.st = .held ∧ x.owner = some op.who then semResult (semPassOn s1 op.sem false) op 0x00
    else match x.waiters.find? (fun w => w.who = op.who) with
      | some w =>
        let rest := x.waiters.erase w
        semResult (grantResult (setSem s1 op.sem { x with waiters := rest, ceiling := max x.ownerPrio (topPrio rest) }) op.sem w 0x14) op 0x14
      | none => semResult s1 op 0x14

/-! ### Master resets -/

/-- A master is one that a reset resets (R426). -/
def resetHits (r : MReset) (who : Master) : Bool :=
  match r, who with
  | .func f, .h g _ => f = g
  | .mport, .m _ _ => true
  | .core n, .k c _ => n = c
  | _, _ => false

/-- The sweep of a master reset, before any operation of its boundary (R426). -/
def semSweep (s : State) (r : MReset) : State :=
  let s1 := s.updSem fun u =>
    { u with
      ops := u.ops.filter fun o => !resetHits r o.who
      sems := u.sems.foldl (fun t c => tupd {} t c.1 fun x =>
        let rest := x.waiters.filter fun w => !resetHits r w.who
        { x with waiters := rest, ceiling := max x.ownerPrio (topPrio rest) }) u.sems }
  let held := s1.sem.sems.filter fun c => c.2.st = .held && c.2.owner.any (resetHits r)
  let s2 := forEach s1 held fun s c => semPassOn s c.1 true
  if held.isEmpty then s2 else (s2.raise 0x0E01).event Dict.SEM_EVENTS 0 0

/-- The bank's work at a boundary: resets first, then up to 64 operations in order (R420, R426). -/
def semBank (s : State) : State :=
  let s1 := forEach (s.updSem fun u => { u with resets := [] }) s.sem.resets semSweep
  let room := 64 - s1.sem.done
  let now := s1.sem.ops.take room
  forEach (s1.updSem fun u => { u with ops := u.ops.drop room, done := u.done + now.length }) now semPerform

/-- An operation reaches the bank (R420). -/
def semSubmit (s : State) (op : SemOp) : State := s.updSem fun u => { u with ops := u.ops ++ [op] }

/-- The held records that the stitch's budget lets out (R435). -/
def evFlush (s : State) : State :=
  let room := 16 - s.sem.written
  forEach (s.updSem fun u => { u with recs := u.recs.drop room }) (s.sem.recs.take room) evWrite

/-- The vector of an event ring is sent for an armed ring, which disarms (R433). -/
def evSendVector (s : State) (func : Nat) : State :=
  if (tget {} s.sem.rings func).armed then
    sendMsix (s.updSem fun u => { u with rings := tupd {} u.rings func fun r => { r with armed := false } })
      func (fld (s.reg Dict.SEM_EVRING func) 107 97)
  else s

/-! ### What the objects read -/

/-- A row of SEM_STATE (R447). -/
def semStateRow (x : Sem) : Nat :=
  let b := (x.owner.map masterBits).getD (0, 0, 0, 0)
  put (match x.st with | .free => 0 | .held => 1 | .abandoned => 2) 63 62 + put b.1 61 60 + put b.2.1 59 50 + put b.2.2.1 49 49 +
  put b.2.2.2 48 33 + put x.ownerPrio 32 30 + put x.ceiling 29 27 + put x.waiters.length 26 12

/-- The values of the semaphore status objects (R447). -/
def semView (s : State) (id row : Nat) : Option Nat :=
  match id with
  | 0x0E0000 => some (semStateRow (semOf s row))
  | 0x0E0003 => some (16384 - waitersTotal s)
  | _ => none

/-- A write of a row of SEM_RIGHTS is judged (R422): 0x06 bad-value, 0x0C wrong-state, 0 accepted. -/
def semRightsCheck (s : State) (row v : Nat) : Nat :=
  let x := semOf s row
  if x.st = .held ∨ !x.waiters.isEmpty then 0x0C
  else if 4064 ≤ row then 0x06
  else if row = 0 ∧ v ≠ s.reg Dict.SEM_RIGHTS 0 then 0x06
  else 0

/-- What a row of SEM_RIGHTS keeps: H, M and FUNC (R422). -/
def semRightsKeep (v : Nat) : Nat := put (fld v 31 30) 31 30 + fld v 9 0

end Sys2Proof.Machine
end

