-- ==== Sys2Proof/Machine/CtlPort.lean ====
section
/-!
DEFINITION. The two control ports: the acceptance of a request (R47 to R55, R59, R60), the host mailbox (R61), in-band
management (R62 to R64), the sideband (R66), the M port's two feeds (R67, R68) and its reset (R69).
-/
namespace Sys2Proof.Machine

/-- The state with the control-port unit changed. -/
def State.updCtl (s : State) (f : Ctl → Ctl) : State := { s with ctl := f s.ctl }

/-! ### Acceptance -/

/-- The request came through the H port. -/
def onH (q : Req) : Bool := q.feed = .mbx

/-- The master that a request comes from (R59). -/
def masterOf (q : Req) : Master :=
  match q.feed with
  | .mbx => .h 0 q.agent
  | .inband => .m false q.agent
  | .sideband => .m true q.agent

/-- The data limit of a feed (R61, R62, R66). -/
def dataLimit (f : Feed) : Nat :=
  match f with
  | .mbx => 1008 | .inband => 4080 | .sideband => 236

/-- The rows of an object now: only those of TRACE_RING change (R51, R530). -/
def objRows (s : State) (o : Obj) : Nat :=
  if o.id = Dict.TRACE_RING.id then (if s.host.store = .given then s.reg Dict.TRACE_RING_RECORDS else 0) else o.rows

/-- The rights of an object as the protection map narrows them (R8, R505). -/
def rightsOf (s : State) (o : Obj) : Nat :=
  if o.id / 65536 < 19 then o.rights &&& s.reg Dict.PMAP_RANGE_RIGHTS (o.id / 65536) else o.rights

/-- The port may make the access (R8, R518). -/
def portMay (s : State) (q : Req) (o : Obj) : Bool :=
  (if onH q then bitAt (rightsOf s o) 0 else bitAt (rightsOf s o) 1) &&
  !(onH q && q.op = 2 && (o.id = Dict.CNT_CTL.id || o.id = Dict.CNT_VALUE.id) &&
    decide (s.reg Dict.CNT_M_FIRST < q.row + q.count))

/-- The master holds semaphore 0; in Recovery the boot ROM asks for none (R60, R497). -/
def holdsConfig (s : State) (q : Req) (o : Obj) : Bool :=
  (decide ((semOf s 0).st = .held) && decide ((semOf s 0).owner = some (masterOf q))) ||
  (inRecovery s && decide (o.id / 65536 = 0x11))

/-- The operation is one that the port serves (R49). -/
def opServed (q : Req) : Bool :=
  q.op = 1 || q.op = 2 || q.op = 3 || q.op = 7 || (!onH q && (q.op = 4 || q.op = 5 || q.op = 6))

/-- LEN and COUNT fit the operation, the feed and the window (R46, R47, R49, R52). -/
def lengthOk (q : Req) (o : Obj) : Bool :=
  let size := o.width * q.count
  q.framed && q.len = q.data.length && q.count ≠ 0 && (o.ty = .table || q.count = 1) &&
  (if q.op = 2 then decide (q.count ≤ 16) && q.len = size && decide (size ≤ dataLimit q.feed)
   else q.len = 0 && (q.op = 3 || decide (size ≤ dataLimit q.feed)))

/-- The window lies within the table, and no ROW is given for another object (R46, R47). A DESCRIBE reads no row. -/
def rowsOk (s : State) (q : Req) (o : Obj) : Bool :=
  if o.ty = .table then q.op = 3 || decide (q.row + q.count ≤ objRows s o) else q.row = 0

/-- A port's writes in the apply queue. -/
def queuedOf (c : Ctl) (h : Bool) : Nat := (c.applyQ.filter fun q => onH q = h).length

/-- The apply queue has room for a write of the port: 64 places of its own and 128 shared (R55). -/
def applyRoom (c : Ctl) (h : Bool) : Bool :=
  decide (queuedOf c h < 64) || decide ((queuedOf c true - 64) + (queuedOf c false - 64) < 128)

/-- The status of a request on an object at acceptance, in the order of R53. -/
def acceptObj (s : State) (q : Req) (o : Obj) : Nat :=
  if !portMay s q o then 0x03
  else if (q.op = 1 && o.access = .wo) || (q.op = 2 && o.access = .ro) then 0x02
  else if q.op = 2 && o.access = .bs then 0x05
  else if q.op = 2 && o.access = .rwl && !holdsConfig s q o then 0x04
  else if !lengthOk q o then 0x07
  else if !rowsOk s q o then 0x08
  else if q.op = 2 && coreUp s && !applyRoom s.ctl (onH q) then 0x0A
  else 0

/-- The status of a request at acceptance, 0 when it is accepted (R53). -/
def acceptStatus (s : State) (q : Req) : Nat :=
  if !opServed q then 0x0B
  else if q.op = 7 then (if q.framed && q.len = q.data.length && decide (q.len ≤ 16) then 0 else 0x07)
  else if q.op = 4 ∨ q.op = 5 ∨ q.op = 6 then
    (if 4095 < q.index ∨ q.sub ≠ 0 then 0x01
     else if !semAllowed s q.index (masterOf q) then 0x03
     else if !q.framed ∨ q.len ≠ 0 ∨ !q.data.isEmpty ∨ q.count ≠ 0 then 0x07
     else if q.row ≠ 0 then 0x08 else 0)
  else match Dict.find? q.index q.sub with
    | none => 0x01
    | some o => acceptObj s q o

/-- An accepted request of an M master ends its silence (R69). -/
def noteMaster (s : State) (q : Req) : State :=
  if onH q then s
  else
    let sb := decide (q.feed = .sideband)
    s.updCtl fun c => { c with mMasters :=
      { sideband := sb, agent := q.agent, since := s.time.count / 1024 } ::
        (c.mMasters.filter fun m => !(m.sideband = sb && m.agent = q.agent)) }

/-- The verb of an M-port semaphore operation (R49). -/
def verbOf (op : Nat) : SemVerb := if op = 4 then .acquire else if op = 5 then .try else .release

/-- A refused request is answered with STITCH 0 (R48), counted, and for a full apply queue logged (R71). -/
def refuse (s : State) (q : Req) (status : Nat) : State :=
  let s1 := respond (s.count 0x082) q status 0 []
  if status = 0x0A then s1.raise 0x0103 else s1

/-- An accepted request takes its place: a write in the apply queue, a semaphore operation at the bank, the rest among
the reads (R54, R55, R57, R431). While the core is down an operation on a semaphore answers domain-dormant (R463, R483). -/
def place (s : State) (q : Req) : State :=
  if q.op = 4 ∨ q.op = 5 ∨ q.op = 6 then
    (if coreUp s then
      semSubmit s { verb := verbOf q.op, who := masterOf q, sem := q.index, prio := s.reg Dict.SEM_M_PRIORITY, req := some q }
     else respond ((s.count 0x082).count 0x804) q 0x09 0 [])
  else if q.op = 2 then s.updCtl fun c => { c with applyQ := c.applyQ ++ [q] }
  else s.updCtl fun c => { c with readQ := c.readQ ++ [q] }

/-- The front end accepts or refuses a request (R53, R54). -/
def acceptReq (s : State) (q : Req) : State :=
  let status := acceptStatus s q
  if status ≠ 0 then refuse s q status
  else place (noteMaster (s.count 0x080) q) { q with accAt := s.time.count }

/-! ### The request at the front -/

/-- The in-band feed is open (R68). -/
def inbandOpen (s : State) : Bool := s.reg Dict.CTL_M_INBAND_ENABLE = 1 && coreUp s

/-- The feed from which the M port takes its next request: the two in turn, a feed with nothing waiting passed over, and
the sideband passed over while a response of its is held (R66, R67). -/
def mFeed (s : State) : Option Feed :=
  let inb := inbandOpen s && !s.ctl.inbandQ.isEmpty
  let sb := s.ctl.sbHeld.isNone && !s.ctl.sbReqQ.isEmpty
  if inb && sb then some (if s.ctl.lastSb then .inband else .sideband)
  else if inb then some .inband else if sb then some .sideband else none

/-- The feed that the front end serves next: the port not accepted last comes first (R54). -/
def frontFeed (s : State) : Option Feed :=
  match s.ctl.mbxWait, mFeed s with
  | some _, some f => some (if s.ctl.lastM then .mbx else f)
  | some _, none => some .mbx
  | none, f => f

/-- The request that a feed holds at its head. -/
def headOf (s : State) (f : Feed) : Option Req :=
  match f with
  | .mbx => s.ctl.mbxWait
  | .inband => s.ctl.inbandQ.head?
  | .sideband => s.ctl.sbReqQ.head?

/-- The state with that request taken. -/
def takeHead (s : State) (f : Feed) : State :=
  s.updCtl fun c =>
    match f with
    | .mbx => { c with mbxWait := none, lastM := false }
    | .inband => { c with inbandQ := c.inbandQ.drop 1, lastM := true, lastSb := false }
    | .sideband => { c with sbReqQ := c.sbReqQ.drop 1, lastM := true, lastSb := true }

/-- The front end takes the request at the front, when its OP is the one given or one that the port does not serve. -/
def acceptFront (s : State) (op : Nat) : State :=
  match frontFeed s with
  | none => s
  | some f => match headOf s f with
    | none => s
    | some q => if q.op = op ∨ !opServed q then acceptReq (takeHead s f) q else s

/-! ### The host mailbox -/

/-- The mailbox page after a reset of the PF: the request not yet accepted is discarded, and so are the responses to the
requests already accepted (R61). -/
def mailboxReset (s : State) : State :=
  let hush (q : Req) : Req := if onH q then { q with mute := true } else q
  s.updCtl fun c =>
    { c with
      mbxBusy := false, mbxResp := false, mbxIrq := false, mbxReqBuf := [], mbxRespBuf := [], mbxWait := none
      applyQ := c.applyQ.map hush, readQ := c.readQ.map hush }

/-- The request that stands in the mailbox's request buffer, for a doorbell of so many bytes (R61). -/
def mailboxReq (s : State) (bytes : Nat) : Req :=
  unpackReq .mbx (natLE (bufRead s.ctl.mbxReqBuf 0 16)) (bufRead s.ctl.mbxReqBuf 16 (bytes - 16))

/-- MBX_DOORBELL is written (R61). -/
def mailboxDoorbell (s : State) (bytes : Nat) : State :=
  if s.ctl.mbxBusy || s.ctl.mbxResp then s.count 0x086
  else
    let s1 := s.updCtl fun c => { c with mbxBusy := true }
    let q := mailboxReq s bytes
    if bytes < 16 ∨ 1024 < bytes ∨ bytes ≠ 16 + q.len then refuse s1 q 0x07
    else s1.updCtl fun c => { c with mbxWait := some q }

/-- MBX_RESP_DONE is written (R61). -/
def mailboxDone (s : State) (value : Nat) : State :=
  if bitAt value 0 then s.updCtl fun c => { c with mbxResp := false } else s

/-! ### In-band management -/

/-- The SFNA is among the allowed management sources (R63, R511). -/
def sourceAllowed (s : State) (sfna : Nat) : Bool :=
  (List.range 16).any fun r =>
    let row := s.reg Dict.PMAP_MGMT_SOURCES r
    bitAt row 63 && sfna &&& fld row 17 0 = fld row 49 32 &&& fld row 17 0

/-- An OPC 0xF0 packet is discarded without a response (R62, R63, R68). -/
def dropInband (s : State) (sfna : Nat) (fault : Bool) : State :=
  let s1 := (s.count 0x083).updCtl fun c => { c with refusedSfna := sfna }
  if fault then s1.raise 0x0101 else s1

/-- The request that an OPC 0xF0 packet carries (R62). -/
def inbandReq (d : Delivered) : Req :=
  let q := unpackReq .inband (natBE (d.pkt.payload.take 16)) (d.pkt.payload.drop 16)
  { q with
    sfna := d.pkt.sfna, sep := d.pkt.sep, dfna := d.pkt.dfna, inPort := d.inPort
    framed := decide (d.pkt.payload.length = 16 + q.len) }

/-- The key of the duplicate filter (R64). -/
def dupMatches (q : Req) (d : DupEntry) : Bool := d.sfna = q.sfna && d.agent = q.agent && d.seq = q.seq

/-- The filter with room for one more entry, the oldest that holds a response dropped first; none when every one of its 256
still waits (R64). -/
def dupRoom (l : List DupEntry) : Option (List DupEntry) :=
  if l.length < 256 then some l
  else match l.find? fun d => d.resp.isSome with
    | none => none
    | some d => some (l.erase d)

/-- A request enters the in-band feed's buffer, is recognised as a duplicate, or is answered busy (R64, R67). -/
def inbandEnter (s : State) (q : Req) : State :=
  match s.ctl.dups.find? (dupMatches q) with
  | some d =>
    (match d.resp with
     | some r => (s.count 0x084).inject portSP (respInject s r)
     | none => s.count 0x084)
  | none =>
    match dupRoom s.ctl.dups with
    | none => refuse s q 0x0A
    | some l =>
      if 16 ≤ s.ctl.inbandQ.length then refuse s q 0x0A
      else s.updCtl fun c =>
        { c with
          dups := l ++ [{ sfna := q.sfna, agent := q.agent, seq := q.seq }]
          inbandQ := c.inbandQ ++ [q] }

/-- An OPC 0xF0 packet is performed or discarded (R62, R63, R68). -/
def inbandPacket (s : State) (d : Delivered) : State :=
  if !d.pkt.priv ∨ !sourceAllowed s d.pkt.sfna then dropInband s d.pkt.sfna true
  else if !inbandOpen s then dropInband s d.pkt.sfna false
  else if d.pkt.payload.length < 16 then dropInband s d.pkt.sfna false
  else inbandEnter s (inbandReq d)

/-- The packet at the head of a delivery queue, when its OPC is the one given. -/
def deliveredHead (s : State) (port opc : Nat) : Option Delivered :=
  match tget [] s.sw.delivered port with
  | d :: _ => if d.pkt.opc = opc then some d else none
  | [] => none

/-- The state with the head of a delivery queue taken. -/
def takeDelivered (s : State) (port : Nat) : State :=
  { s with sw := { s.sw with delivered := tupd [] s.sw.delivered port fun l => l.drop 1 } }

/-! ### The sideband -/

/-- The request that a command 0x10 carries (R66). -/
def sidebandReq (bytes : List Byte) (n : Nat) : Req :=
  let q := unpackReq .sideband (natLE (bytes.take 16)) ((bytes.take n).drop 16)
  { q with framed := decide (n = 16 + q.len) }

/-- A request fails its PEC (R66). -/
def pecFails (s : State) (pec : PecCheck) : Bool :=
  match pec with
  | .bad => true
  | .good => false
  | .absent => s.reg Dict.CTL_SB_PEC_REQUIRED = 1

/-- The byte that command 0x12 returns (R66). -/
def sidebandStatus (s : State) : Nat :=
  b2n (!s.ctl.sbRespQ.isEmpty) + 2 * b2n (decide (4 ≤ s.ctl.sbReqQ.length)) + 4 * b2n s.ctl.sbPecErr

/-- ALERT_N is driven low, or in I3C mode an in-band interrupt is raised (R66). -/
def alertDriven (s : State) : Bool := !s.ctl.sbRespQ.isEmpty && s.reg Dict.CTL_SB_ALERT_EN = 1

/-! ### The M port's reset -/

/-- The oldest grant of the semaphores that an M master holds, in frame boundaries; none when it holds none (R69). -/
def oldestGrant (s : State) (m : MMaster) : Option Nat :=
  s.sem.sems.foldl (fun best c =>
    if c.2.st = .held ∧ c.2.owner = some (.m m.sideband m.agent) then
      (match best with
       | none => some (c.2.grantAt / 1024)
       | some b => some (min b (c.2.grantAt / 1024)))
    else best) none

/-- A master of the M port has been silent for the frames that CTL_M_IDLE_RESET_FR allows (R69). -/
def masterSilent (s : State) (m : MMaster) : Bool :=
  match oldestGrant s m with
  | none => false
  | some g => decide (s.reg Dict.CTL_M_IDLE_RESET_FR ≤ s.time.count / 1024 - max g m.since)

/-- At a frame boundary the silence of the M masters causes an M-port reset (R69). -/
def idleResetDue (s : State) : Bool :=
  decide (s.time.count % 1024 = 0) && decide (s.reg Dict.CTL_M_IDLE_RESET_FR ≠ 0) && s.ctl.mMasters.any (masterSilent s)

/-- An M-port reset that is due is performed (R69). The answer to a CTL_M_RESET write stays. -/
def mPortReset (s : State) : State :=
  if s.ctl.mResetDue then
    let hush (q : Req) : Req := if onH q then q else { q with mute := true }
    let s1 := s.updCtl fun c =>
      { c with
        mResetDue := false, inbandQ := [], sbReqQ := [], sbHeld := none, dups := []
        sbRespQ := c.sbRespQ.filter fun r => r.op = 2 && r.index = 0x0101 && r.sub = 0
        applyQ := c.applyQ.map hush, readQ := c.readQ.filter onH }
    (s1.updSem fun u => { u with resets := u.resets ++ [.mport] }).raise 0x0105
  else s

/-- CTL_M_RESET applied (R69). -/
def applyMReset (s : State) (v : Nat) : State := if v = 1 then s.updCtl fun c => { c with mResetDue := true } else s

/-! ### What the objects read -/

/-- The values of the identity and dictionary-control status objects (R70, R504). -/
def ctlView (s : State) (id : Nat) : Option Nat :=
  match id with
  | 0x000003 | 0x000004 | 0x000005 | 0x000103 => some (Config.fused id)
  | 0x010000 => some s.ctl.applyQ.length
  | 0x010001 => some s.ctl.applyLast
  | 0x010002 => some s.ctl.persistQ.length
  | 0x010300 => some s.ctl.refusedSfna
  | _ => none

/-! ### Commands -/

/-- DICT_READ: the front end takes a READ (R49, R53). -/
def execDictRead (s : State) : Host.Outcome State Fault Refusal := .next (acceptFront s 1)

/-- DICT_WRITE: the front end takes a WRITE (R49, R53). -/
def execDictWrite (s : State) : Host.Outcome State Fault Refusal := .next (acceptFront s 2)

/-- DICT_DESCRIBE: the front end takes a DESCRIBE (R49, R53). -/
def execDictDescribe (s : State) : Host.Outcome State Fault Refusal := .next (acceptFront s 3)

/-- DICT_ECHO: the front end takes an ECHO (R49, R53). -/
def execDictEcho (s : State) : Host.Outcome State Fault Refusal := .next (acceptFront s 7)

/-- A host access to a dormant block: nothing happens but its count, and in Run its fault (R487). -/
def dormantAccess (s : State) (func : Nat := 0) : State :=
  let s1 : State := { s with pwr := { s.pwr with dormant := min (2 ^ 32 - 1) (s.pwr.dormant + 1) } }
  if s.pwr.st = .run ∧ !s.pwr.off ∧ !s.mon.fault.fatal then
    ((s1.count 0x803).raise 0x1001 3 func).event Dict.PWR_EVENTS 0 1
  else s1

/-- The state that an outcome gives, or the one before it. -/
def stateAfter (o : Host.Outcome State Fault Refusal) (s : State) : State :=
  match o with
  | .next t => t
  | _ => s

/-- A function is in the machine's configuration space and enabled: the PF always, a VF by VF Enable and NumVFs (R253). -/
def fnPresent (s : State) (func : Nat) : Bool := func = 0 || (s.host.vfEnable && decide (func ≤ s.host.numVfs))

/-- The outcome of a host access to a BAR of a function: none reaches a link that is Down or a VF that is not enabled (R253, R261), one
to a dormant block is counted (R487), and otherwise the given next state follows. -/
def mmio (s : State) (func : Nat) (t : State) : Host.Outcome State Fault Refusal :=
  if 1024 ≤ func then .fault .noSuchFunction
  else if s.host.units = 0 || !fnPresent s func then .next s
  else if coreUp s then .next t else .next (dormantAccess s func)

/-- MBX_DOORBELL: the driver submits the request in the request buffer; BYTES is bits 10:0 (R61). -/
def execMbxDoorbell (bytes : Nat) (s : State) : Host.Outcome State Fault Refusal :=
  mmio s 0 (mailboxDoorbell s (bytes % 2048))

/-- MBX_RESP_DONE: the driver releases the response (R61). -/
def execMbxRespDone (value : Nat) (s : State) : Host.Outcome State Fault Refusal :=
  mmio s 0 (mailboxDone s value)

/-- MGMT_REQUEST_PACKET: SP takes up the OPC 0xF0 packet at its head (R62, R63). -/
def execMgmtRequestPacket (s : State) : Host.Outcome State Fault Refusal :=
  .next (match deliveredHead s portSP 0xF0 with
    | some d => inbandPacket (takeDelivered s portSP) d
    | none => s)

/-- DUP_FILTER_EXPIRY: entries whose response was sent 1 fr ago leave the duplicate filter (R64). -/
def execDupFilterExpiry (s : State) : Host.Outcome State Fault Refusal :=
  .next (s.updCtl fun c =>
    { c with dups := c.dups.filter fun d => d.resp.isNone || decide (s.time.count < d.sentAt + 1024) })

/-- PERSIST_COPY: the oldest copy of a P object is made, or fails (R58). -/
def execPersistCopy (ok : Bool) (s : State) : Host.Outcome State Fault Refusal :=
  match s.ctl.persistQ with
  | [] => .next s
  | k :: rest =>
    let s1 := s.updCtl fun c => { c with persistQ := rest }
    if ok then
      .next { s1 with mram := match s.regs.find? (fun c => c.1 = k) with
        | some c => (s.mram.filter fun d => d.1 < k) ++ [c] ++ (s.mram.filter fun d => k < d.1)
        | none => s.mram.filter fun d => d.1 ≠ k }
    else .next (s1.raise 0x0104)

/-- SB_REQUEST_WRITE: command 0x10 of the sideband, with its byte count and its PEC (R66). -/
def execSbRequestWrite (bytes : List Byte) (byteCount : Nat) (pec : PecCheck) (s : State) : Host.Outcome State Fault Refusal :=
  if s.pwr.off ∨ 4 ≤ s.ctl.sbReqQ.length ∨ byteCount < 16 ∨ 252 < byteCount then .next s
  else if pecFails s pec then .next (((s.updCtl fun c => { c with sbPecErr := true }).count 0x085).raise 0x0102)
  else .next (s.updCtl fun c => { c with sbReqQ := c.sbReqQ ++ [sidebandReq bytes byteCount] })

/-- SB_RESPONSE_READ: command 0x11 removes the oldest response; a held one then takes the place (R66). -/
def execSbResponseRead (s : State) : Host.Outcome State Fault Refusal :=
  if s.pwr.off then .next s
  else match s.ctl.sbRespQ with
    | [] => .next (s.emit (.sideband []))
    | r :: rest =>
      .next ((s.updCtl fun c => { c with sbRespQ := rest ++ c.sbHeld.toList, sbHeld := none }).emit (.sideband (respBytes r)))

/-- SB_STATUS_READ: command 0x12 (R66). -/
def execSbStatusRead (s : State) : Host.Outcome State Fault Refusal :=
  if s.pwr.off then .next s
  else .next ((s.updCtl fun c => { c with sbPecErr := false }).emit (.sideband [BitVec.ofNat 8 (sidebandStatus s)]))

/-- SB_RESET_BYTE: command 0x13 (R66, R69). -/
def execSbResetByte (value : Nat) (s : State) : Host.Outcome State Fault Refusal :=
  .next (if value = 0xA5 ∧ !s.pwr.off then applyMReset s 1 else s)

/-- SB_DYNAMIC_ADDRESS: an address is assigned by SETDASA or ENTDAA (R66). -/
def execSbDynamicAddress (address : Nat) (s : State) : Host.Outcome State Fault Refusal :=
  .next (if s.pwr.off then s else s.updCtl fun c => { c with sbDynAddr := some (address % 128) })

/-- CTL_M_INBAND_ENABLE_WRITE: the boundary that applies the write opens or closes the in-band feed (R68). -/
def execCtlMInbandEnableWrite (value : Nat) (s : State) : Host.Outcome State Fault Refusal :=
  judged s (boolCheck value) ((s.setReg Dict.CTL_M_INBAND_ENABLE 0 value).persists Dict.CTL_M_INBAND_ENABLE)

/-- CTL_M_RESET_WRITE: the boundary that applies the write (R69). -/
def execCtlMResetWrite (value : Nat) (s : State) : Host.Outcome State Fault Refusal :=
  judged s (boolCheck value) (applyMReset s value)

/-- M_IDLE_RESET_EXPIRY: a frame boundary judges the silence of the M masters (R69). -/
def execMIdleResetExpiry (s : State) : Host.Outcome State Fault Refusal :=
  .next (if idleResetDue s then applyMReset s 1 else s)

/-- M_PORT_RESET: a reset that is caused is performed (R69). -/
def execMPortReset (s : State) : Host.Outcome State Fault Refusal := .next (mPortReset s)

/-- SMBUS_TIMEOUT: a transfer held beyond the timeout is abandoned; since a transfer reaches the queues only whole, nothing of it
is held (R542, R66). -/
def execSmbusTimeout (s : State) : Host.Outcome State Fault Refusal := .next s

end Sys2Proof.Machine
end

