-- ==== Sys2Proof/Machine/Claims.lean ====
section
/-!
DEFINITION. The claim controller (R436 to R444, R448).
-/
namespace Sys2Proof.Machine

/-- A row of the controller. -/
def claimRow (s : State) (n : Nat) : ClaimRow := tget {} s.mon.claim.rows n

/-- The state with the controller changed. -/
def State.updClaim (s : State) (f : ClaimUnit → ClaimUnit) : State :=
  { s with mon := { s.mon with claim := f s.mon.claim } }

/-- The state with a row of the controller changed. -/
def updRow (s : State) (n : Nat) (f : ClaimRow → ClaimRow) : State :=
  s.updClaim fun c => { c with rows := tupd {} c.rows n f }

/-- The present value of a source's level input (R437). -/
def levelOf (s : State) (n : Nat) : Bool := sourceLevel s.mon.evreg s.regs n

/-- PENDING as it reads: set by an edge or by software, or under level sense following the input while not in
service (R437). -/
def isPending (s : State) (n : Nat) : Bool :=
  let r := claimRow s n
  r.pending || (r.sense && levelOf s n && !r.inService)

/-- The source names the target (R436). -/
def targetsOf (r : ClaimRow) (t : Nat) : Bool :=
  if t < 8 then bitAt r.targetsK t else bitAt r.targetsT (t - 8)

/-- A source is presented to a target (R438). -/
def isPresented (s : State) (t n : Nat) : Bool :=
  let r := claimRow s n
  isPending s n && !r.masked && !r.inService && targetsOf r t && decide (tget 0 s.mon.claim.thresholds t < r.prio) &&
  r.prio ≠ 0

/-- The sources whose row differs from its reset value: no other can be presented, since TARGETS is 0 in them. -/
def knownSources (s : State) : List Nat := (s.mon.claim.rows.map (·.1)).filter fun n => 1 ≤ n && n ≤ 1019

/-- The presented set of a target, as the conditions stand (R438). -/
def presentedNow (s : State) (t : Nat) : List Nat := (knownSources s).filter fun n => isPresented s t n

/-- The twelve targets: K0 to K7 and T0 to T3 (R436). -/
def claimTargets : List Nat := List.range 12

/-- An armed host target with a presented source is sent its vector once and disarmed (R258). -/
def signalTarget (s : State) (t : Nat) : State :=
  if 8 ≤ t ∧ bitAt s.mon.claim.armed (t - 8) ∧ !(tget [] s.mon.claim.presented t).isEmpty then
    sendMsix (s.updClaim fun c => { c with armed := clearBits c.armed (2 ^ (t - 8)) }) 0 (s.reg Dict.ATTACH_CLAIM_VECTOR (t - 8))
  else s

/-- Every presented set is brought up to date, and armed host targets are signalled (R438, R258). -/
def presentAll (s : State) : State :=
  forEach (forEach s claimTargets fun s t =>
    s.updClaim fun c => { c with presented := tset [] c.presented t (presentedNow s t) }) claimTargets signalTarget

/-- The presented source of highest priority, the lowest number winning a tie (R439). -/
def bestPresented (s : State) (l : List Nat) : Option Nat :=
  l.foldl (fun best n => match best with
    | none => some n
    | some b => if (claimRow s b).prio < (claimRow s n).prio then some n else best) none

/-- A claim register is read: the value and the state after it (R439). A source answered 1,022 or 1,023 leaves the target's
presented set; an edge source no longer pending has been claimed and completed elsewhere. -/
def claimRead (s : State) (t : Nat) : State × Nat :=
  match bestPresented s (tget [] s.mon.claim.presented t) with
  | none =>
    (if 8 ≤ t then signalTarget (s.updClaim fun c => { c with armed := c.armed ||| 2 ^ (t - 8) }) t else s, 0)
  | some n =>
    let r := claimRow s n
    let gone := s.updClaim fun c => { c with presented := tupd [] c.presented t fun l => l.erase n }
    if r.inService then ((gone.count 0x70A), 1023)
    else if r.masked || !targetsOf r t then ((gone.count 0x70B), 1022)
    else if !isPending s n then (if r.sense then (gone.count 0x70B, 1022) else (gone.count 0x70A, 1023))
    else
      (((updRow gone n fun r => { r with pending := false, inService := true, claimant := t }).count 0x709), n)

/-- The service of a source ends (R441). -/
def claimComplete (s : State) (t n : Nat) : State :=
  let r := claimRow s n
  if 1 ≤ n ∧ n ≤ 1019 ∧ r.inService ∧ r.claimant = t then
    updRow s n fun r => { r with inService := false, claimant := 0 }
  else ((s.count 0x70C).raise 0x0E06).event Dict.SEM_EVENTS 0 5

/-- Software sets a source pending (R437, R440); a value outside 1 to 1,019 is ignored. -/
def claimPend (s : State) (n : Nat) : State :=
  if n = 0 ∨ 1019 < n then s
  else
    let was := (claimRow s n).pending
    let s1 := s.updClaim fun c => claimSet c n
    if was ∨ reservedSource n then s1 else s1.count 0x708

/-- Every source that the targets hold in service is completed (R444). -/
def completeAll (s : State) (ts : List Nat) : State :=
  s.updClaim fun c =>
    { c with rows := c.rows.foldl (fun t x => tupd {} t x.1 fun r =>
        if r.inService ∧ ts.contains r.claimant then { r with inService := false, claimant := 0 } else r) c.rows }

/-- The host targets after a PF function reset or a host-die reset (R444). -/
def resetHostTargets (s : State) : State :=
  (completeAll s [8, 9, 10, 11]).updClaim fun c =>
    { c with armed := 0xF, thresholds := [8, 9, 10, 11].foldl (fun t k => tset 0 t k 0) c.thresholds }

/-- A row of CLAIM_SOURCE as read (R436). -/
def claimRowRead (s : State) (n : Nat) : Nat :=
  let r := claimRow s n
  put (b2n (isPending s n)) 31 31 + put (b2n r.inService) 30 30 + put r.claimant 29 26 + put (b2n (levelOf s n)) 25 25 +
  put (b2n r.sense) 24 24 + put (b2n r.masked) 23 23 + put r.prio 22 19 + put r.targetsT 11 8 + put r.targetsK 7 0

/-- A row of CLAIM_SOURCE applied (R436). -/
def applyClaimRow (s : State) (n v : Nat) : State :=
  let s1 := updRow s n fun r =>
    { r with sense := bitAt v 24, masked := bitAt v 23, prio := fld v 22 19, targetsT := fld v 11 8 }
  if bitAt v 31 then claimPend s1 n else s1

/-- The values of the claim objects (R447). -/
def claimView (s : State) (id row : Nat) : Option Nat :=
  match id with
  | 0x0E0200 => some (claimRowRead s row)
  | 0x0E0201 => some (tget 0 s.mon.claim.thresholds row)
  | _ => none

/-! ### Commands -/

/-- The outcome of a target's access to its registers: none from a halted core; a host target's goes by the PF's BAR (R440, R487). -/
def byTarget (s : State) (t : Nat) (next : State) : Host.Outcome State Fault Refusal :=
  if t < 8 then .next (if bitAt s.exe.halted t then s else next) else mmio s 0 next

/-- CLAIM_READ: a target's claim register is read (R439). -/
def execClaimRead (target : Nat) (s : State) : Host.Outcome State Fault Refusal :=
  if 12 ≤ target then .fault .noSuchTarget
  else
    let r := claimRead s target
    let t := r.1.emit (.claim target r.2)
    if target < 8 then .next (if bitAt s.exe.halted target then s else t)
    else if s.host.units ≠ 0 ∧ !coreUp s then .next ((dormantAccess s).emit (.claim target (2 ^ 32 - 1)))
    else mmio s 0 t

/-- CLAIM_COMPLETE: a write to a target's COMPLETE register (R441). -/
def execClaimComplete (target source : Nat) (s : State) : Host.Outcome State Fault Refusal :=
  if 12 ≤ target then .fault .noSuchTarget else byTarget s target (claimComplete s target (source % 1024))

/-- CLAIM_PENDSET: a write to a target's PENDSET register (R440). -/
def execClaimPendset (target source : Nat) (s : State) : Host.Outcome State Fault Refusal :=
  if 12 ≤ target then .fault .noSuchTarget else byTarget s target (claimPend s (source % 1024))

/-- CLAIM_PRESENT: the controller brings the presented sets up to date (R438). -/
def execClaimPresent (s : State) : Host.Outcome State Fault Refusal := .next (presentAll s)

/-- CLAIM_ROW_PARITY_ERROR: the row returns to its reset value, with PENDING set and TARGETS_K as the firmware gives it (R448). -/
def execClaimRowParityError (row : Nat) (s : State) : Host.Outcome State Fault Refusal :=
  if 1024 ≤ row then .fault .noSuchRow
  else
    .next (((updRow s row fun _ =>
      { pending := !reservedSource row, targetsK := if 300 ≤ row ∧ row ≤ 349 then 0x40 else 0 }).raise 0x0E05 7 row).event
        Dict.SEM_EVENTS 0 4)

end Sys2Proof.Machine
end

