-- ==== Sys2Proof/Machine/Lanes.lean ====
section
/-!
DEFINITION. Lanes and the seam (R73 to R96): bring-up, the receiver's judgement of blocks, codewords, training blocks and
markers, loopbacks, patterns, eye scans, and the lane side of Rest.
-/
namespace Sys2Proof.Machine

/-! ### Entering a bring-up state -/

/-- A scan that has ended with so many disagreements: GO reads 0, DONE is set (R92, R93). -/
def EyeScan.ended (e : EyeScan) (errors count : Nat) : EyeScan :=
  { e with ctl := setFld e.ctl 31 30 1, result := put errors 63 32 + put count 31 0 }

/-- The state with the eye scan of a lane replaced. -/
def State.setEye (s : State) (lane : Nat) (e : EyeScan) : State := { s with eyes := tset {} s.eyes lane e }

/-- A scan that runs on a lane stops because its port left Up, with DONE set as at its end (R94, R100). -/
def stopScan (s : State) (lane : Nat) : State :=
  let e := tget {} s.eyes lane
  if bitAt e.ctl 31 then
    (s.setEye lane (e.ended 0xFFFFFFFF s.time.count)).event Dict.LANE_PORT_EVENTS (lane / 2) 10
  else s

/-- What a new state starts afresh in the port's lanes (R75, R78, R87). -/
def LanePort.entered (l : LanePort) (new : LaneSt) (count : Nat) : LanePort :=
  match new with
  | .off | .detect | .failed | .loopback =>
    { l with
      st := new, fromRest := false, a := {}, b := {}, ackSent := 0, cleanRun := 0, badRun := 0, expect := none, markRun := 0
      errRun := 0, restRun := 0, askRest := false, sentRest := false, blind := false, scr := 0, seen := 0
      failedAt := if new = .failed then count else l.failedAt }
  | .lock => { l with st := .lock, lockAt := count }
  | .block => { l with st := .block, fromRest := false, a := {}, b := {}, ackSent := 0, expect := none, restRun := 0, askRest := false }
  | .train => { l with st := .train, a := { l.a with scr := 0, seen := 0 }, b := { l.b with scr := 0, seen := 0 }, ackSent := 0 }
  | .stripe => { l with st := .stripe, cleanRun := 0, badRun := 0, expect := none, restRun := 0, askRest := false, scr := 0, seen := 0 }
  | .seam => { l with st := .seam, expect := none, markRun := 0, errRun := 0, restRun := 0, askRest := false, sentRest := false }
  | .up => { l with st := .up, fromRest := false, badRun := 0, errRun := 0, a := { l.a with hist := 0, histLen := 0 }, b := { l.b with hist := 0, histLen := 0 } }
  | .rest => { l with st := .rest, restRun := 0, askRest := false, sentRest := false }

/-- Leaving Up other than to Rest: the port's scans stop and its link goes Down at the next boundary (R94, R129). A port in
Rest keeps its link state until a failed wake takes it to Detect. -/
def leftLine (s : State) (p : Nat) : State :=
  let s1 := stopScan (stopScan s (2 * p)) (2 * p + 1)
  if (s.link p).st = .down then s1 else askLink s1 p .down

/-- What the way from an old state to a new one does besides: bit 1 of the port's events, and the line left (R94, R100, R129). -/
def laneLeave (s : State) (p : Nat) (old new : LaneSt) : State :=
  let s1 := if old = .up ∧ new ≠ .rest then s.event Dict.LANE_PORT_EVENTS p 1 else s
  if new = .up ∨ new = .rest ∨ (new = .seam ∧ old = .rest) then s1 else leftLine s1 p

/-- A port's lanes enter a bring-up state (R87, R100). -/
def laneEnter (s : State) (p : Nat) (new : LaneSt) : State :=
  let old := (s.lane p).st
  if old = new then s
  else
    let s3 := laneLeave (s.updLane p fun l => l.entered new s.time.count) p old new
    match new with
    | .up =>
      let s4 := s3.event Dict.LANE_PORT_EVENTS p 0
      if (s4.link p).st = .down ∧ !s4.mon.fault.isolated then askLink s4 p .listening else s4
    | .failed => s3.event Dict.LANE_PORT_EVENTS p 2
    | .rest => (s3.event Dict.LANE_PORT_EVENTS p 8).count 0x18A p
    | _ => s3

/-- A port in Off whose row of LANE_ENABLE is 1 enters Detect, once its bench is powered, its supply is good, the device runs and no
departure holds its lanes Off (R87, R473, R477, R480). -/
def laneStart (s : State) (p : Nat) : State :=
  if (s.lane p).st = .off ∧ s.reg Dict.LANE_ENABLE p = 1 ∧ coreUp s ∧ s.pwr.st = .run ∧ !s.pwr.departed ∧ s.pwr.pgSerdes ∧
      bitAt s.pwr.benches (p / 8) then laneEnter s p .detect else s

/-- A bench whose eight rows are not all 0 is powered up (R480). -/
def benchWanted (s : State) (b : Nat) : Bool := (List.range 8).any fun i => s.reg Dict.LANE_ENABLE (8 * b + i) = 1

/-- The power-up of a bench domain starts when the bench is wanted and not powered (R480). -/
def benchStart (s : State) (b : Nat) : State :=
  if benchWanted s b ∧ !bitAt s.pwr.benches b ∧ !bitAt s.pwr.benchUp b then
    { s with pwr := { s.pwr with
        benchUp := s.pwr.benchUp + 2 ^ b
        benchSlow := clearBits s.pwr.benchSlow (2 ^ b)
        benchAt := tset 0 s.pwr.benchAt b s.time.count } }
  else s

/-! ### Blocks and codewords -/

/-- One sync header into a lane's record of the last 64 (R87). -/
def noteHeader (x : LaneRx) (invalid : Bool) : LaneRx :=
  { x with hist := (x.hist * 2 + b2n invalid) % 2 ^ 64, histLen := min 64 (x.histLen + 1) }

/-- The lane has shown 64 consecutive valid sync headers (R87). -/
def headersGood (x : LaneRx) : Bool := x.histLen = 64 && x.hist = 0

/-- The lane A of a port, or lane B, changed. -/
def updRx (l : LanePort) (b : Bool) (f : LaneRx → LaneRx) : LanePort :=
  if b then { l with b := f l.b } else { l with a := f l.a }

/-- A block on a lane: its header is judged, and its payload passes the lane's descrambler, or after training the port's
(R74, R75, R87). -/
def blockIn (s : State) (lane header payload : Nat) : State :=
  let p := lane / 2
  let l := s.lane p
  let invalid := header ≠ 1 && header ≠ 2
  let own := l.st = .block || l.st = .train
  let rx := if lane % 2 = 1 then l.b else l.a
  let d := descramble (if own then rx.scr else l.scr) payload
  let s1 := s.updLane p fun l =>
    let l1 := updRx l (decide (lane % 2 = 1)) fun x =>
      let x1 := noteHeader x invalid
      if own then { x1 with scr := d.1, seen := min 2 (x1.seen + 1) } else x1
    if own then l1 else { l1 with scr := d.1, seen := min 58 (l1.seen + 64) }
  match l.st with
  | .block => if headersGood (s1.lane p).a && headersGood (s1.lane p).b then laneEnter s1 p .train else s1
  | .up =>
    let x := if lane % 2 = 1 then (s1.lane p).b else (s1.lane p).a
    if x.histLen = 64 ∧ 16 ≤ popcount x.hist 64 then ((laneEnter s1 p .block).raise 0x0303 1 p).count 0x188 p else s1
  | _ => s1

/-- The port's receive direction is in FEC mode Bypass (R83). -/
def isBypass (s : State) (p : Nat) : Bool := s.reg Dict.LANE_FEC_RX_MODE p = 1

/-- A codeword with errors is counted against the frame's limit (R84). -/
def noteBypass (s : State) (p : Nat) : State :=
  let n := (s.lane p).bypNow + 1
  let s1 := s.updLane p fun l => { l with bypNow := n }
  if isBypass s p then
    let s2 := s1.count 0x189 p
    if n = s.reg Dict.LANE_BYPASS_LIMIT + 1 then (s2.raise 0x0306 1 p).event Dict.LANE_PORT_EVENTS p 6 else s2
  else s1

/-- The runs of clean and of bad codewords move a port between Stripe and Seam and out of Up (R87). -/
def codewordRuns (s : State) (p : Nat) (clean bad : Bool) : State :=
  let s1 := s.updLane p fun l =>
    { l with cleanRun := if clean then min 4 (l.cleanRun + 1) else 0, badRun := if bad then min 8 (l.badRun + 1) else 0 }
  match (s1.lane p).st with
  | .stripe => if (s1.lane p).cleanRun = 4 then laneEnter s1 p .seam else s1
  | .up => if (s1.lane p).badRun = 8 then laneEnter s1 p .stripe else s1
  | _ => s1

/-- A codeword of 272 symbols on a port (R82, R83). -/
def codewordIn (s : State) (p : Nat) (symbols : List Nat) : State :=
  let s1 := s.count 0x180 p
  match correctable symbols with
  | some 0 => codewordRuns s1 p true false
  | some n =>
    let s2 := noteBypass s1 p
    if isBypass s p then codewordRuns s2 p false true
    else codewordRuns ((s2.count 0x181 p).count 0x182 p n) p false false
  | none =>
    let s2 := noteBypass s1 p
    if isBypass s p then codewordRuns s2 p false true
    else codewordRuns (((s2.count 0x183 p).raise 0x0304 1 p).event Dict.LANE_PORT_EVENTS p 5) p false true

/-! ### Training -/

/-- The port goes to Failed for a miswire (R88). -/
def miswire (s : State) (p : Nat) : State := ((laneEnter s p .failed).raise 0x0302 1 p).event Dict.LANE_PORT_EVENTS p 3

/-- A training block's content as kept for a lane (R86, R88). -/
def trainRx (x : LaneRx) (payload : Nat) (inverted : Bool) : LaneRx :=
  { x with
    goodTrain := min 16 (x.goodTrain + 1), ackSeen := bitAt payload 54, par := fld payload 55 55, port := fld payload 53 47
    fna := fld payload 46 29, inverted := inverted }

/-- LANE_PARTNER as training gives it (R98). -/
def partnerWord (x : LaneRx) : Nat := put x.fna 24 7 + put x.port 6 0

/-- Both lanes have received a training block, and they do not belong together or not to the partner expected (R88). -/
def wiredWrong (s : State) (p : Nat) : Bool :=
  let l := s.lane p
  0 < l.a.goodTrain && 0 < l.b.goodTrain &&
  (l.a.par = l.b.par || partnerWord l.a ≠ partnerWord l.b ||
   (s.reg Dict.LANE_EXPECT_PARTNER p ≠ 0xFFFFFFFF && s.reg Dict.LANE_EXPECT_PARTNER p ≠ partnerWord l.a))

/-- The port's own training blocks carry ACK = 1 (R86). -/
def ownAck (l : LanePort) : Bool := l.a.goodTrain = 16 && l.b.goodTrain = 16

/-- The port leaves Train: good blocks with ACK = 1 on both lanes, and ACK = 1 sent in 16 blocks (R87). -/
def trained (l : LanePort) : Bool := l.a.ackSeen && l.b.ackSeen && l.ackSent = 16

/-- A training block on a lane in Train (R86, R87, R88). One training block is sent for each received: ACK = 1 counts as sent with
each block of lane A while the port's own condition holds. -/
def trainingIn (s : State) (lane payload : Nat) (inverted : Bool) : State :=
  let p := lane / 2
  let b := decide (lane % 2 = 1)
  if (s.lane p).st ≠ .train then s
  else if !blockGood 0x9C payload then s.updLane p fun l => updRx l b fun x => { x with goodTrain := 0, ackSeen := false }
  else
    let s1 := s.updLane p fun l =>
      let l1 := updRx l b fun x => trainRx x payload inverted
      if ownAck l1 ∧ !b then { l1 with ackSent := min 16 (l1.ackSent + 1) } else l1
    if wiredWrong s1 p then miswire s1 p
    else if trained (s1.lane p) then
      laneEnter (s1.updLane p fun l => { l with swapped := decide (l.a.par = 1), partner := partnerWord l.a }) p .stripe
    else s1

/-! ### Markers -/

/-- A port state code accepted on a port that is Up (R80, R127 to R129, R478, R95). -/
def pscIn (s : State) (p psc : Nat) : State :=
  let l := s.link p
  let s1 := s.updLink p fun l => { l with psc := some psc, otherPsc := l.otherPsc || psc ≠ 6 }
  let s2 := if 7 ≤ psc then (s1.raise 0x0308 1 p).event Dict.LANE_PORT_EVENTS p 7 else s1
  let s3 := if psc = 3 ∨ 7 ≤ psc then
      (if l.psc.any fun c => c = 3 || 7 ≤ c then s2 else s2.event Dict.LINK_PORT_EVENTS p 8).updLink p fun l => { l with haltDue := true }
    else s2
  let s4 := if psc = 6 ∧ l.otherPsc then reinitPort s3 p else s3
  let s5 := if psc = 5 then
      (s4.count 0x807 p).updLink p fun l =>
        { l with leaveAt := if l.leaveAt.isSome then l.leaveAt else some ((s.time.count / 1024 + 1) * 1024) }
    else s4
  s5.updLane p fun x => { x with restRun := if psc = 4 ∧ x.sentRest then min 16 (x.restRun + 1) else 0 }

/-- An accepted marker: the expected stitch, the code, RXFEC and the time of its arrival, whose phase is not known to the model
(R78, R79, R21). -/
def markerAccepted (s : State) (p payload : Nat) : State :=
  let stitch := fld payload 55 32
  let s1 := (s.updLane p fun l =>
    { l with expect := some ((stitch + 1) % 2 ^ 24), errRun := 0, blind := false, partnerFec := bitAt payload 27 }).updTport p fun t =>
      { t with mark := stitch, t2 := (s.time.count % 2 ^ 24) * 65536 + s.free % 65536 }
  s1.took

/-- A marker error: the grid goes on by counting, and a port that is Up loses its seam at the third in a row (R78). -/
def markerError (s : State) (p : Nat) : State :=
  let s1 := s.updLane p fun l =>
    { l with expect := l.expect.map fun e => (e + 1) % 2 ^ 24, markRun := 0, errRun := if l.st = .up then l.errRun + 1 else 0 }
  if (s.lane p).st = .up then
    let s2 := s1.count 0x186 p
    if (s2.lane p).errRun = 3 then
      (laneEnter ((s2.count 0x187 p).raise 0x0305 1 p) p .seam).event Dict.LANE_PORT_EVENTS p 4
    else s2
  else s1

/-- The seam of one stitch on a port in Seam or Up: its marker's payload, the pace blocks after it, and whether a
codeword that could not be corrected spoilt it (R78, R83, R87). -/
def markerIn (s : State) (p payload pace : Nat) (spoiled : Bool) : State :=
  let l := s.lane p
  if l.st ≠ .seam ∧ l.st ≠ .up then s
  else if spoiled || decide (14 < pace) || !blockGood 0xE1 payload then markerError s p
  else
    let stitch := fld payload 55 32
    if l.st = .seam ∧ l.expect.any (· ≠ stitch) then
      s.updLane p fun l => { l with expect := some ((stitch + 1) % 2 ^ 24), markRun := 0 }
    else if l.st = .up ∧ l.expect ≠ some stitch then markerError s p
    else
      let s1 := pscIn (markerAccepted s p payload) p (fld payload 31 28)
      if l.st = .seam then
        let s2 := s1.updLane p fun l => { l with markRun := min 3 (l.markRun + 1) }
        if (s2.lane p).markRun = 3 then laneEnter s2 p .up else s2
      else s1

/-! ### The codes a port sends -/

/-- The code that a port's seam carries, Rest-request apart (R81, R127). -/
def pscOf (s : State) (p : Nat) : Nat :=
  let l := s.link p
  if l.st = .isolated ∨ s.mon.fault.isolated ∨ s.mon.fault.fatal then 3
  else if l.st = .hold then 2
  else if s.pwr.departing ∧ s.pwr.departAt ≤ s.time.count + 1024 then 5
  else match l.st with
    | .quarantine => 1
    | .admitted => 0
    | _ => 6

/-! ### Writes -/

/-- The states in which LANE_LOOPBACK and LANE_PATTERN may be written (R90, R91). -/
def loopbackOpen (s : State) (p : Nat) : Bool :=
  match (s.lane p).st with
  | .off | .detect | .failed => true
  | .up => (s.link p).st = .down || (s.link p).st = .isolated
  | _ => false

/-- A row of LANE_LOOPBACK is judged (R90); 0 ends a loopback. -/
def loopbackCheck (s : State) (p v : Nat) : Nat :=
  if !(loopbackOpen s p || ((s.lane p).st = .loopback && v = 0)) then 0x0C else if 3 < v then 6 else 0

/-- A row of LANE_LOOPBACK applied (R87, R90). -/
def applyLoopback (s : State) (p v : Nat) : State :=
  let s1 := s.setReg Dict.LANE_LOOPBACK p v
  if v ≠ 0 then laneEnter s1 p .loopback
  else if (s.lane p).st = .loopback then laneEnter s1 p .detect else s1

/-- A row of LANE_PATTERN is judged (R91). -/
def patternCheck (s : State) (p v : Nat) : Nat :=
  if !(loopbackOpen s p) then 0x0C else if 2 < v then 6 else 0

/-- A row of LANE_ENABLE applied (R87, R480). -/
def applyLaneEnable (s : State) (p v : Nat) : State :=
  let s1 := s.setReg Dict.LANE_ENABLE p v
  if v = 0 then laneEnter s1 p .off else laneStart (benchStart s1 (p / 8)) p

/-- A row of LANE_FEC_RX_MODE is judged, wrong-state first (R84). -/
def fecCheck (s : State) (p v : Nat) : Nat :=
  let l := s.lane p
  if v = 1 ∧ (l.st ≠ .up ∨ s.reg Dict.LANE_BYPASS_LIMIT < l.bypPrev) then 0x0C
  else if 1 < v ∨ (v = 1 ∧ s.reg Dict.LANE_CHANNEL_CLASS p ≠ 1) then 6 else 0

/-- A row of LANE_EYE_CTL is judged (R92). -/
def eyeCheck (s : State) (lane v : Nat) : Nat :=
  if bitAt v 31 ∧ (bitAt (tget {} s.eyes lane).ctl 31 ∨ (s.lane (lane / 2)).st ≠ .up) then 0x0C
  else if fld v 29 28 = 3 ∨ fld v 27 22 < 20 ∨ 36 < fld v 27 22 then 6
  else if toSigned 8 (fld v 15 8) < -32 ∨ 31 < toSigned 8 (fld v 15 8) then 6
  else if toSigned 8 (fld v 7 0) < -63 ∨ 63 < toSigned 8 (fld v 7 0) then 6 else 0

/-- A row of LANE_EYE_CTL applied: GO = 1 starts a scan and clears DONE (R92). -/
def applyEye (s : State) (lane v : Nat) : State :=
  let e := tget {} s.eyes lane
  let keep := put (fld v 29 22) 29 22 + put (fld v 15 0) 15 0
  let e1 := if bitAt v 31 then { e with ctl := keep + 2 ^ 31, startAt := s.time.count }
    else { e with ctl := keep + put (fld e.ctl 31 30) 31 30 }
  s.setEye lane e1

/-! ### What the objects read -/

/-- The values of the lane status objects (R98). -/
def laneView (s : State) (id row : Nat) : Option Nat :=
  match id with
  | 0x030000 => some (s.lane row).st.code
  | 0x030202 => some (b2n (if row % 2 = 1 then (s.lane (row / 2)).b.inverted else (s.lane (row / 2)).a.inverted))
  | 0x030203 => some (b2n (s.lane row).swapped)
  | 0x030300 => some (s.lane row).partner
  | 0x030500 => some (tget {} s.eyes row).ctl
  | 0x030501 => some (tget {} s.eyes row).result
  | _ => none

/-! ### Commands -/

/-- SIGNAL_DETECT: both lanes of a port detect a signal: Detect goes to Lock, and a resting port relocks (R87, R96). -/
def execSignalDetect (port : Nat) (s : State) : Host.Outcome State Fault Refusal :=
  let s1 := s.updLane port fun l => { l with signal := true }
  onPort port (match (s.lane port).st with
    | .detect => laneEnter s1 port .lock
    | .rest =>
      (((laneEnter s1 port .seam).updLane port fun l => { l with fromRest := true, wakeAt := s.time.count }).count 0x18B
        port).event Dict.LANE_PORT_EVENTS port 9
    | _ => s1)

/-- SIGNAL_LOST: signal detect of a lane has been absent for 100 ns (R87, R95). -/
def execSignalLost (port : Nat) (s : State) : Host.Outcome State Fault Refusal :=
  let l := s.lane port
  let s1 := s.updLane port fun l => { l with signal := false }
  onPort port (match l.st with
    | .up =>
      if l.sentRest ∧ (s.link port).psc = some 4 then laneEnter s1 port .rest
      else ((laneEnter s1 port .detect).raise 0x0309 1 port).event Dict.LANE_PORT_EVENTS port 11
    | .lock | .block | .train | .stripe => laneEnter s1 port .detect
    | .seam => if l.fromRest then s1 else laneEnter s1 port .detect
    | _ => s1)

/-- LANE_ADAPT_DONE: a visit of lane adaptation: CDR locked and equalisation adapted, with the middle eye's opening in
1/64 UI (R87, R99). Adaptation runs for at least 1.0 ms, 9,766 boundaries. -/
def execLaneAdaptDone (port eye : Nat) (s : State) : Host.Outcome State Fault Refusal :=
  let l := s.lane port
  let s1 := if l.st = .lock ∧ l.lockAt + 9766 ≤ s.time.count then laneEnter s port .block else s
  onPort port (if l.st = .up ∧ eye < 4 then s1.raise 0x0307 1 port else s1)

/-- BLOCK_RECEIVE: a block on a lane: sync header and scrambled payload (R74, R75). -/
def execBlockReceive (lane header payload : Nat) (s : State) : Host.Outcome State Fault Refusal :=
  if 192 ≤ lane then .fault .noSuchLane else .next (blockIn s lane (header % 4) (payload % 2 ^ 64))

/-- TRAINING_BLOCK_RECEIVE: a descrambled training block on a lane, and whether it decoded only after inversion (R86, R88). -/
def execTrainingBlockReceive (lane payload : Nat) (inverted : Bool) (s : State) : Host.Outcome State Fault Refusal :=
  if 192 ≤ lane then .fault .noSuchLane else .next (trainingIn s lane (payload % 2 ^ 64) inverted)

/-- CODEWORD_RECEIVE: a codeword of 272 symbols on a port (R83). -/
def execCodewordReceive (port : Nat) (symbols : List Nat) (s : State) : Host.Outcome State Fault Refusal :=
  onPort port (match (s.lane port).st with
    | .stripe | .seam | .up => codewordIn s port symbols
    | _ => s)

/-- MARKER_RECEIVE: the seam of one stitch on a port (R78). -/
def execMarkerReceive (port payload pace : Nat) (spoiled : Bool) (s : State) : Host.Outcome State Fault Refusal :=
  onPort port (markerIn s port (payload % 2 ^ 64) pace spoiled)

/-- LANE_BRINGUP_TIMEOUT: LANE_BRINGUP_TIMEOUT_FR frames since entering Lock (R87, R89). -/
def execLaneBringupTimeout (port : Nat) (s : State) : Host.Outcome State Fault Refusal :=
  let l := s.lane port
  let late := l.lockAt + 1024 * s.reg Dict.LANE_BRINGUP_TIMEOUT_FR ≤ s.time.count
  onPort port (match l.st with
    | .lock | .block | .train | .stripe => if late then (laneEnter s port .failed).raise 0x0301 1 port else s
    | .seam => if late ∧ !l.fromRest then (laneEnter s port .failed).raise 0x0301 1 port else s
    | _ => s)

/-- LANE_FAILED_RETRY: 64 fr after entering Failed (R87). -/
def execLaneFailedRetry (port : Nat) (s : State) : Host.Outcome State Fault Refusal :=
  let l := s.lane port
  onPort port (if l.st = .failed ∧ l.failedAt + 65536 ≤ s.time.count then laneEnter s port .detect else s)

/-- LANE_ENABLE_WRITE: the boundary that applies a row of LANE_ENABLE (R87). -/
def execLaneEnableWrite (port value : Nat) (s : State) : Host.Outcome State Fault Refusal :=
  if 96 ≤ port then .fault .noSuchPort else judged s (boolCheck value) ((applyLaneEnable s port value).persists Dict.LANE_ENABLE port)

/-- LANE_LOOPBACK_WRITE: the boundary that applies a row of LANE_LOOPBACK (R90). -/
def execLaneLoopbackWrite (port value : Nat) (s : State) : Host.Outcome State Fault Refusal :=
  if 96 ≤ port then .fault .noSuchPort else judged s (loopbackCheck s port value) (applyLoopback s port value)

/-- LANE_PATTERN_WRITE: the boundary that applies a row of LANE_PATTERN (R91). -/
def execLanePatternWrite (port value : Nat) (s : State) : Host.Outcome State Fault Refusal :=
  if 96 ≤ port then .fault .noSuchPort else judged s (patternCheck s port value) (s.setReg Dict.LANE_PATTERN port value)

/-- EYE_SCAN_GO: the boundary that applies a row of LANE_EYE_CTL (R92). -/
def execEyeScanGo (lane value : Nat) (s : State) : Host.Outcome State Fault Refusal :=
  if 192 ≤ lane then .fault .noSuchLane else judged s (eyeCheck s lane value) (applyEye s lane value)

/-- EYE_SCAN_DONE: a scan's dwell, of which a stitch is 10,880 unit intervals, has ended with so many disagreements (R93, R94). -/
def execEyeScanDone (lane errors : Nat) (s : State) : Host.Outcome State Fault Refusal :=
  let e := tget {} s.eyes lane
  if 192 ≤ lane then .fault .noSuchLane
  else if bitAt e.ctl 31 ∧ 2 ^ fld e.ctl 27 22 ≤ (s.time.count - e.startAt) * 10880 then
    .next ((s.setEye lane (e.ended (min 0xFFFFFFFF errors) s.time.count)).event Dict.LANE_PORT_EVENTS (lane / 2) 10)
  else .next s

/-- REST_ENTER: after 16 seams with Rest-request both sent and received, the port rests at a frame boundary (R95). -/
def execRestEnter (port : Nat) (s : State) : Host.Outcome State Fault Refusal :=
  let l := s.lane port
  onPort port (if l.st = .up ∧ l.restRun = 16 ∧ s.time.count % 1024 = 0 then laneEnter s port .rest else s)

/-- A resting port is woken: it leaves electrical idle and passes through Seam (R96). -/
def wakePort (s : State) (p : Nat) (byTraffic : Bool) : State :=
  if (s.lane p).st = .rest then
    ((((laneEnter s p .seam).updLane p fun l => { l with fromRest := true, wakeAt := s.time.count }).count 0x18B p).event
      Dict.LANE_PORT_EVENTS p 9).count (if byTraffic then 0x801 else 0x802) p
  else s

/-- REST_WAKE: traffic waits for a resting port (R96). -/
def execRestWake (port : Nat) (s : State) : Host.Outcome State Fault Refusal := onPort port (wakePort s port true)

/-- PWR_WAKE_PORT_WRITE: a 1 in a row of PWR_WAKE_PORT is applied (R481). -/
def execPwrWakePortWrite (port value : Nat) (s : State) : Host.Outcome State Fault Refusal :=
  if 96 ≤ port then .fault .noSuchPort
  else judged s (boolCheck value) (if value = 1 then wakePort s port false else s)

/-- WAKE_TIMEOUT: a wake is not Up within 8 µs, 79 boundaries (R87, R96). -/
def execWakeTimeout (port : Nat) (s : State) : Host.Outcome State Fault Refusal :=
  let l := s.lane port
  onPort port (if l.st = .seam ∧ l.fromRest ∧ l.wakeAt + 79 ≤ s.time.count then
    (laneEnter s port .detect).raise 0x030A 1 port else s)

/-! ### Pattern errors -/

/-- The checker of a lane on whose port a pattern runs has counted bit errors (R91). -/
def patternErrors (s : State) (lane n : Nat) : State :=
  if lane < 192 ∧ s.reg Dict.LANE_PATTERN (lane / 2) ≠ 0 then
    s.setReg Dict.LANE_PATTERN_ERRS lane (min (2 ^ 32 - 1) (s.reg Dict.LANE_PATTERN_ERRS lane + n))
  else s

end Sys2Proof.Machine
end

