-- ==== Sys2Proof/Machine/Lasts.lean ====
section
/-!
DEFINITION. Lasts (R213 to R241): the entries and their check, the states' changes, chunks on their way through the router, wrapping,
signals, and the last rings.
-/
namespace Sys2Proof.Machine

/-! ### The fields of an entry (R219) -/

/-- GEN. -/
def LastEntry.gen (e : LastEntry) : Nat := fld e.cfg 247 244
/-- PLOG. -/
def LastEntry.plog (e : LastEntry) : Nat := fld e.cfg 243 240
/-- PHASE. -/
def LastEntry.phase (e : LastEntry) : Nat := fld e.cfg 239 230
/-- OUT_PORT. -/
def LastEntry.outPort (e : LastEntry) : Nat := fld e.cfg 229 223
/-- DELTA. -/
def LastEntry.delta (e : LastEntry) : Nat := fld e.cfg 222 211
/-- OUT_LABEL. -/
def LastEntry.outLabel (e : LastEntry) : Nat := fld e.cfg 210 195
/-- LAST_ID. -/
def LastEntry.lastId (e : LastEntry) : Nat := fld e.cfg 194 171
/-- FB_FNA. -/
def LastEntry.fbFna (e : LastEntry) : Nat := fld e.cfg 170 153
/-- FB_EP. -/
def LastEntry.fbEp (e : LastEntry) : Nat := fld e.cfg 152 137
/-- SLOTS: bit s − 1 of this number stands for slot s. -/
def LastEntry.slots (e : LastEntry) : Nat := fld e.cfg 136 58

/-- The slots of an entry, rising. -/
def LastEntry.slotList (e : LastEntry) : List Nat := (bitsSet e.slots 79).map (· + 1)

/-- The bits of a row of LAST_ENTRY that a write sets (R219). -/
def lastRwBits (v : Nat) : Nat := put (fld v 255 255) 255 255 + put (fld v 247 58) 247 58

/-- The input port of a row of LAST_ENTRY. -/
def lastIn (key : Nat) : Nat := key / 4096

/-- The index of a row of LAST_ENTRY on its input port. -/
def lastIndex (key : Nat) : Nat := key % 4096

/-- The label by which the hop before names an entry (R218). -/
def LastEntry.inLabel (e : LastEntry) (key : Nat) : Nat := e.gen * 4096 + lastIndex key

/-- The order of R222's states. -/
def LastSt.order : LastSt → Nat
  | .empty => 0 | .written => 1 | .refused => 2 | .armed => 3 | .active => 4 | .suspended => 5 | .broken => 6 | .closing => 7

/-- The code of a state in STATE: 0 for Empty; the spec gives no other. -/
def LastSt.code (x : LastSt) : Nat := if x = .empty then 0 else Config.lastStateCode x.order % 8

/-- A row of LAST_ENTRY as read (R219). -/
def lastRow (e : LastEntry) : Nat :=
  e.cfg + put e.st.code 254 252 + put e.reason 251 248 + put (b2n e.ready) 57 57 + put (b2n e.isOpen) 56 56

/-- An entry. -/
def State.last (s : State) (key : Nat) : LastEntry := tget {} s.lasts.entries key

/-- The state with the last unit changed. -/
def State.updLasts (s : State) (f : LastUnit → LastUnit) : State := { s with lasts := f s.lasts }

/-- The state with an entry changed. -/
def State.updLast (s : State) (key : Nat) (f : LastEntry → LastEntry) : State :=
  s.updLasts fun u => { u with entries := tupd {} u.entries key f }

/-- The entry holds positions of its output (R221). -/
def LastSt.holds : LastSt → Bool
  | .armed | .active | .suspended => true
  | _ => false

/-- The entry counts in LAST_ENTRIES_USED (R221). -/
def LastSt.used : LastSt → Bool
  | .armed | .active | .suspended | .broken | .closing => true
  | _ => false

/-- LAST_ENTRIES_USED (R239). -/
def entriesUsed (s : State) : Nat := (s.lasts.entries.filter fun c => c.2.st.used).length

/-! ### Shifts (R214) -/

/-- The shift of an input without the guard, in positions: the delay and the turn time over 1.28 ns, rounded up. -/
def shiftBase (delayPs : Nat) (bypass : Bool) : Nat := (delayPs + (if bypass then 34000 else 60000) + 1279) / 1280

/-- The shift that an entry is held to: that of its input with the guard in force at its check; none while the input's delay is not
known (R214, R239). -/
def shiftFor (s : State) (key : Nat) (e : LastEntry) : Option Nat :=
  (tget none s.lasts.base (lastIn key)).map (· + e.guard)

/-! ### The pattern (R215) -/

/-- The output slot of slot s of an entry, and by how many stitches it lies after the arrival's: the first for a host or CP input. -/
def outSlot (e : LastEntry) (slot : Nat) : Nat × Nat := ((slot + e.delta) % 80, (slot + e.delta) / 80)

/-- The residue modulo 2^PLOG of the stitches in which slot s of an entry is in use on the output. -/
def outResidue (e : LastEntry) (slot : Nat) : Nat := (e.phase + (outSlot e slot).2) % 2 ^ e.plog

/-- The entry reserves slot o of stitch n on its output. -/
def reserves (e : LastEntry) (o n : Nat) : Bool :=
  e.slotList.any fun sl => (outSlot e sl).1 = o && outResidue e sl = n % 2 ^ e.plog

/-- An output position of one entry coincides, in some stitch, with a position of another. -/
def clash (a b : LastEntry) : Bool :=
  let m := 2 ^ min a.plog b.plog
  a.slotList.any fun x => b.slotList.any fun y =>
    (outSlot a x).1 = (outSlot b y).1 && outResidue a x % m = outResidue b y % m

/-- The positions that entries reserve on an output in a stitch (R217). -/
def reservedIn (es : Tbl LastEntry) (o n : Nat) : Nat :=
  sumOf es fun c => if c.2.st.holds ∧ c.2.outPort = o then
    sumOf c.2.slotList fun sl => b2n (outResidue c.2 sl = n % 2 ^ c.2.plog) else 0

/-- LAST_RESERVED: the most positions reserved on a port in any stitch (R239). -/
def lastReserved (es : Tbl LastEntry) (o : Nat) : Nat := (List.range 1024).foldl (fun m n => max m (reservedIn es o n)) 0

/-- The most positions of a stitch that entries with output CP reserve, by the slots of their arrivals (R391). -/
def cpReserved (es : Tbl LastEntry) : Nat :=
  (List.range 1024).foldl (fun m n =>
    max m (es.foldl (fun a c => if c.2.st.holds ∧ c.2.outPort = 100 ∧ n % 2 ^ c.2.plog = c.2.phase then a + c.2.slotList.length else a) 0)) 0

/-- A position is an arrival position of the entry's pattern (R215). -/
def arrivalSlot (e : LastEntry) (pos : Nat) : Bool :=
  0 < pos % 80 && bitAt e.slots (pos % 80 - 1) && (pos / 80) % 2 ^ e.plog = e.phase

/-! ### Rings (R234) -/

/-- A ring. -/
def State.ring (s : State) (r : Nat) : LastRing := tget {} s.lasts.rings r

/-- The state with a ring changed. -/
def State.updRing (s : State) (r : Nat) (f : LastRing → LastRing) : State :=
  s.updLasts fun u => { u with rings := tupd {} u.rings r f }

/-- The row of a ring. -/
def ringRow (s : State) (r : Nat) : Nat := s.reg Dict.LAST_RING r

/-- The records of a ring, 2^ORDER. -/
def ringSize (row : Nat) : Nat := 2 ^ fld row 73 70

/-- The address of a record of a ring. -/
def recordAddr (row index : Nat) : Nat := fld row 51 0 * 4096 + 64 * (index % ringSize row)

/-- The ring is VALID with this direction, 0 send and 1 receive, on this host port. -/
def ringFits (s : State) (r dir hp : Nat) : Bool :=
  let row := ringRow s r
  bitAt row 127 && fld row 126 126 = dir && fld row 125 124 = hp

/-- The word of a receive record, without PHASE (R236). -/
def recordWord (kind : Nat) (endM : Bool) (user : Nat) (late wrapped : Bool) (seq stitch : Nat) : Nat :=
  put kind 62 61 + put (b2n endM) 60 60 + put user 59 58 + put (b2n late) 57 57 + put (b2n wrapped) 56 56 + put seq 55 48 + put stitch 47 0

/-- A chunk is lost, on the input port of its entry (R241, R516). -/
def chunkLost (s : State) (port : Nat) : State := (s.count 0x385 port).fire 129

/-- A record goes to a receive ring, unless the ring is full or stopped (R236, R237). The second component says that it was written. -/
def writeRecord (s : State) (r data word : Nat) : State × Bool :=
  let row := ringRow s r
  let g := s.ring r
  let n := ringSize row
  if !bitAt row 127 || g.stopped || ringFull n g.prod g.cons then (s, false)
  else
    let bytes := bytesBE data 56 ++ bytesLE (word + put (ringPhase n g.prod) 63 63) 8
    let w := hostWrite s (fld row 123 114) (recordAddr row g.prod) bytes
    (if w.ok then w.st.updRing r fun g => { g with prod := ringNext n g.prod } else w.st, w.ok)

/-- A chunk that a full or stopped ring cannot take is lost (R234, R237). -/
def ringOverflow (s : State) (port r : Nat) : State :=
  chunkLost ((s.updRing r fun g => { g with lossAt := some (g.lossAt.getD s.time.count) }).raise 0x0706 11 r) port

/-- A signal record of a ring: an event code and its stitch (R236). -/
def writeSignal (s : State) (r event stitch : Nat) : State :=
  (writeRecord s r 0 (recordWord 1 false 0 false false event (stitch % 2 ^ 24))).1

/-- A chunk that came by a port is delivered to a receive ring; a LOSS record takes the place of a BAD one (R227, R236, R237). -/
def deliverChunk (s : State) (port r tag data : Nat) (bad wrapped : Bool) : State :=
  if bad then writeSignal (chunkLost s port) r 5 s.time.count
  else
    let w := writeRecord s r data
      (recordWord 0 (bitAt tag 7) (fld tag 6 5) (bitAt tag 4) wrapped (fld tag 15 8) (s.time.count % 2 ^ 48))
    if w.2 then w.1.count 0x38B port else ringOverflow w.1 port r

/-- How many records of a send ring are fetched ahead of their slots. -/
def fetchAhead : Nat := 64

/-- Send records are read up to the producer index (R235). -/
def fetchRecords (s : State) (r : Nat) : State :=
  let row := ringRow s r
  let n := ringSize row
  let g := s.ring r
  let pending := (s.host.reads.filter fun h => match h.why with
    | .lastRing r' _ => r' = r
    | _ => false).length
  let todo := min (ringDist n g.fetch g.prod) (fetchAhead - g.records.length - pending)
  if !bitAt row 127 ∨ fld row 126 126 ≠ 0 ∨ g.stopped then s
  else
    forEach s (List.range todo) fun s _ =>
      let i := (s.ring r).fetch
      let t := hostRead s (fld row 123 114) (recordAddr row i) 64 (.lastRing r i)
      if t.2 then t.1.updRing r fun g => { g with fetch := ringNext n g.fetch } else t.1

/-- A send record has arrived: 512 bits, byte 0 highest, and whether its read was poisoned. One whose PHASE is not the ring's is not valid,
and is fetched again (R235). -/
def recordArrived (s : State) (r index rec' : Nat) (poisoned : Bool) : State :=
  let n := ringSize (ringRow s r)
  let word := natLE (bytesBE (fld rec' 63 0) 8)
  if fld word 63 63 = ringPhase n index then
    s.updRing r fun g => { g with records := g.records ++ [fld rec' 511 64 * 2 ^ 64 + word % 2 ^ 63 + put (b2n poisoned) 63 63] }
  else s.updRing r fun g => { g with fetch := index }

/-! ### Signals (R233) -/

/-- The code travels upstream. -/
def upstream (event : Nat) : Bool := event = 0x01 || event = 0x11

/-- An entry comes to have a signal to send; a repeated one keeps the earliest STITCH. -/
def LastEntry.signal (e : LastEntry) (event stitch : Nat) : LastEntry :=
  if e.signals.any fun g => g.event = event then e else { e with signals := e.signals ++ [{ event := event, stitch := stitch }] }

/-- The receive ring that takes the signal records of an entry on one of its host sides: for a source its send ring's EVRING, for a sink
its own (R234, R236). -/
def signalRing (s : State) (key : Nat) (e : LastEntry) (up : Bool) : Nat :=
  if up then fld (ringRow s (lastIndex key)) 69 58 else e.outLabel % 4096

/-- A signal of an entry goes on its way: to a link by the entry's pending bit, to a ring at a host side, to the collective engine at
CP. -/
def sendSignal (s : State) (key event stitch : Nat) : State :=
  let e := s.last key
  let side := if upstream event then lastIn key else e.outPort
  if side < 96 then s.updLast key fun e => e.signal event stitch
  else if side < 100 then writeSignal s (signalRing s key e (upstream event)) event stitch
  else s.updLasts fun u => { u with cpSignals := u.cpSignals ++ [(key, { event := event, stitch := stitch })] }

/-! ### Wrapping (R231, R232) -/

/-- LAST_WRAP_FREE (R231, R239). -/
def wrapFree (s : State) : Nat := 32768 - sumOf s.lasts.entries fun c => c.2.wrap.length

/-- Source 130 fires when the wrap store falls below 8,192 free flits (R241). -/
def noteWrapStore (s : State) : State :=
  let low := decide (wrapFree s < 8192)
  let s1 := s.updLasts fun u => { u with low := low }
  if low ∧ !s.lasts.low then s1.fire 130 else s1

/-- A chunk is dropped where it would have been wrapped; LOSS travels downstream, except from a Closing entry (R222, R227,
R231). -/
def wrapDrop (s : State) (key : Nat) : State :=
  let s1 := chunkLost s (lastIn key)
  if (s.last key).st = .closing then s1 else sendSignal s1 key 5 s.time.count

/-- The packet of the chunks that wait (R231, R232). -/
def wrapPacket (s : State) (e : LastEntry) : Packet :=
  let bytes := (e.wrap.map fun c => bytesBE c.tag 4 ++ bytesBE c.data 56).flatten
  { pcls := 2, vc := 0, opc := 0x5E, sfna := s.reg Dict.ID_FNA, dfna := e.fbFna, dep := e.fbEp, sep := 0xFFFF
    fhash := e.lastId % 65536, len := bytes.length
    oph := [put e.lastId 63 40 + put e.wrapReason 39 36 + put e.wrapNum 31 0], payload := bytes }

/-- The chunks that wait leave as one packet on the input lane of the entry's input port. -/
def flushWrap (s : State) (key : Nat) : State :=
  let e := s.last key
  if e.wrap.isEmpty then s
  else noteWrapStore (((holdOwn s (lastIn key) (wrapPacket s e) none false none).updLast key fun e =>
    { e with wrap := [], wrapNum := (e.wrapNum + 1) % 2 ^ 32 }).count 0x384 (lastIn key))

/-- A chunk of an entry is wrapped, with the REASON of R232 (R226, R227, R231). -/
def wrapChunk (s : State) (key : Nat) (c : Chunk) (reason : Nat) : State :=
  let e := s.last key
  if c.bad ∨ e.fbFna = 0x3FFFF then wrapDrop s key
  else
    let s1 := if e.wrapReason = reason then s else flushWrap s key
    if wrapFree s1 = 0 then (chunkLost s1 (lastIn key)).raise 0x0705
    else
      let s2 := (s1.updLast key fun e => { e with wrap := e.wrap ++ [c], wrapReason := reason }).count 0x383 (lastIn key)
      if (s2.last key).wrap.length = 68 then flushWrap s2 key else noteWrapStore s2

/-- The REASON by which an entry in a state wraps what reaches it; none when it does not. -/
def wrapReasonOf : LastSt → Option Nat
  | .suspended => some 1 | .broken => some 2 | .closing => some 4 | _ => none

/-- Every chunk that an entry holds is wrapped. -/
def wrapQueue (s : State) (key : Nat) : State :=
  let e := s.last key
  match wrapReasonOf e.st with
  | some reason => forEach (s.updLast key fun e => { e with queue := [] }) e.queue fun s c => wrapChunk s key c reason
  | none => s

/-! ### The states (R221 to R223, R229, R230) -/

/-- A change of state is logged (R222, R239). -/
def logLast (s : State) (key : Nat) (st : LastSt) (reason : Nat) : State :=
  let x : LastLog := { port := lastIn key, index := lastIndex key, st := st, reason := reason, stitch := s.time.count % 2 ^ 32 }
  s.updLasts fun u => { u with log := pushLog 64 x u.log }

/-- An entry enters a state, with its REASON. -/
def enterLast (s : State) (key : Nat) (st : LastSt) (reason : Nat) : State :=
  logLast (s.updLast key fun e =>
    { e with st := st, reason := reason, isOpen := if st = .active then e.isOpen else false, due := if st.holds then e.due else none })
    key st reason

/-- An entry becomes READY and says so upstream (R223). -/
def becomeReady (s : State) (key stitch : Nat) : State :=
  sendSignal (s.updLast key fun e => { e with ready := true, readyHeld := false }) key 1 stitch

/-- An entry enters Active: a host output makes it READY, and so does a READY that came while it was Armed (R223). -/
def enterActive (s : State) (key : Nat) : State :=
  let s1 := (enterLast s key .active 0).updLast key fun e => { e with lastGen := some e.gen }
  let e := s1.last key
  if (96 ≤ e.outPort ∧ e.outPort < 100 ∧ !e.ready) ∨ e.readyHeld then becomeReady s1 key s.time.count else s1

/-- The REASON of R229 that holds for an entry; none when no condition does. -/
def suspendReason (s : State) (e : LastEntry) : Option Nat :=
  let l := s.link e.outPort
  if s.time.st ≠ .locked then some 12
  else if s.mon.fault.hold then some 13
  else if e.outPort < 96 ∧ (l.st ≠ .admitted ∨ !(l.psc = some 0 || l.psc = some 4)) then some 14
  else none

/-- An entry becomes Suspended (R229). -/
def suspendLast (s : State) (key reason : Nat) : State :=
  sendSignal (wrapQueue (((enterLast s key .suspended reason).raise 0x0703).fire 127) key) key 3 s.time.count

/-- A Suspended entry becomes Active again (R229). -/
def resumeLast (s : State) (key : Nat) : State := sendSignal ((enterActive s key).fire 128) key 4 s.time.count

/-- An entry becomes Broken and says so both ways, except over the failed port (R230). -/
def breakLast (s : State) (key reason stitch : Nat) (failed : Option Nat) : State :=
  let e := s.last key
  let s1 := wrapQueue (enterLast s key .broken reason) key
  let s2 := if failed = some (lastIn key) then s1 else sendSignal s1 key 0x11 stitch
  if failed = some e.outPort then s2 else sendSignal s2 key 2 stitch

/-- A fabric port by which an entry has failed (R230). -/
def failedPort (s : State) (key : Nat) (e : LastEntry) : Option Nat :=
  let bad (p : Nat) : Bool := decide (p < 96) && ((s.link p).st = .isolated || (s.link p).st = .listening || (s.link p).st = .down)
  if bad (lastIn key) then some (lastIn key) else if bad e.outPort then some e.outPort else none

/-- An entry breaks at the next boundary (R230). -/
def breakDue (s : State) (key reason stitch : Nat) : State :=
  s.updLast key fun e => if e.st.holds ∧ e.due.isNone then { e with due := some (reason, stitch) } else e

/-- The first check of R221 that an entry fails; none when it passes all. -/
def armReason (s : State) (key : Nat) (e : LastEntry) : Option Nat :=
  let p := lastIn key
  let o := e.outPort
  let fabric (x : Nat) : Bool := decide (x < 96)
  let admitted (x : Nat) : Bool := !fabric x || (s.link x).st = .admitted
  let others := s.lasts.entries.filter fun c => c.1 ≠ key
  let shift := (tget none s.lasts.base p).map (· + s.reg Dict.LAST_GUARD_POS)
  let aligned := match shift with
    | none => true
    | some v => decide (v ≤ e.delta) && decide (e.delta ≤ v + 15) && e.slotList.all fun sl => (outSlot e sl).1 ≠ 0
  if e.slots = 0 ∨ 10 < e.plog ∨ 2 ^ e.plog ≤ e.phase then some 1
  else if fabric p ∧ fabric o ∧ !aligned ∨ !fabric p ∧ fabric o ∧ e.delta ≠ 0 then some 2
  else if !admitted p ∨ !admitted o ∨ (fabric p ∧ shift.isNone) ∨ o = p ∨ 101 ≤ o then some 3
  else if fabric o ∧ others.any (fun c => c.2.st.holds && c.2.outPort = o && clash e c.2) then some 4
  else if fabric o ∧ s.reg Dict.LAST_CAP o < lastReserved (tset {} s.lasts.entries key { e with st := .armed }) o then some 5
  else if o = 100 ∧ s.reg Dict.COLL_CP_CAP < cpReserved (tset {} s.lasts.entries key { e with st := .armed }) then some 5
  else if others.any (fun c => c.2.st ≠ .empty && c.2.outPort = o && c.2.outLabel = e.outLabel) ∨ e.lastGen = some e.gen then some 6
  else if 16384 ≤ entriesUsed s then some 7
  else if (96 ≤ p ∧ p < 100 ∧ !ringFits s (lastIndex key) 0 (p - 96)) ∨ (96 ≤ o ∧ o < 100 ∧ !ringFits s (e.outLabel % 4096) 1 (o - 96)) then
    some 8
  else none

/-- A Written entry is checked (R221). An entry that becomes Armed wakes its ports (R481). -/
def armCheck (s : State) (key : Nat) : State :=
  let e := s.last key
  match armReason s key e with
  | some reason => ((enterLast s key .refused reason).raise 0x0701).fire 125
  | none =>
    let s1 := wakePort (wakePort s (lastIn key) false) e.outPort false
    enterLast (s1.updLast key fun e =>
      { e with
        guard := s.reg Dict.LAST_GUARD_POS, ready := false, readyHeld := false, driftRun := 0, wrapNum := 0, signals := [], queue := [] })
      key .armed 0

/-- A row without an entry: its fields, and the GEN of its last Active time, stay (R221, R222). -/
def LastEntry.emptied (e : LastEntry) (cfg : Nat) : LastEntry := { cfg := cfg, lastGen := e.lastGen }

/-- What the frame boundary does to an entry (R222, R223). -/
def frameEntry (s : State) (key : Nat) : State :=
  let e := s.last key
  match e.st with
  | .closing => logLast ((flushWrap s key).updLast key fun e => LastEntry.emptied e e.cfg) key .empty 0
  | .armed =>
    (match suspendReason s e with
     | some r => suspendLast (s.updLast key fun e => { e with clearAt := s.time.count + 1 }) key r
     | none => enterActive s key)
  | .suspended =>
    if (suspendReason s e).isNone ∧ e.clearAt + 1024 ≤ s.time.count then resumeLast s key else s
  | _ => s

/-- A source entry opens at a frame boundary at which it is Active and READY (R223). -/
def openEntry (s : State) (key : Nat) : State :=
  let e := s.last key
  if 96 ≤ lastIn key ∧ e.st = .active ∧ e.ready then s.updLast key fun e => { e with isOpen := true } else s

/-- What every boundary does to an entry that holds positions: it breaks, is suspended, or its clear time is kept (R229,
R230). -/
def stitchEntry (s : State) (key : Nat) : State :=
  let e := s.last key
  if !e.st.holds then s
  else
    match failedPort s key e with
    | some p => breakLast s key 9 s.time.count (some p)
    | none =>
      match e.due with
      | some (r, st) => breakLast s key r st none
      | none =>
        match e.st, suspendReason s e with
        | .active, some r => suspendLast (s.updLast key fun e => { e with clearAt := s.time.count + 1 }) key r
        | .suspended, some r => s.updLast key fun e => { e with reason := r, clearAt := s.time.count + 1 }
        | _, _ => s

/-- The ports over which entries break at this boundary (R230). -/
def failedPorts (s : State) : List Nat :=
  s.lasts.entries.foldl (fun l c =>
    match (if c.2.st.holds then failedPort s c.1 c.2 else none) with
    | some p => if l.contains p then l else l ++ [p]
    | none => l) []

/-- The rows of LAST_ENTRY that hold an entry. -/
def lastKeys (s : State) : List Nat := s.lasts.entries.map (·.1)

/-- The lasts at a boundary: breaks, each failed port logged once, suspensions, and at a frame boundary the frame's changes. -/
def lastsBoundary (s : State) (frame : Bool) : State :=
  let s1 := forEach s (failedPorts s) fun s p => (s.raise 0x0702 1 p).fire 126
  let s2 := forEach s1 (lastKeys s1) stitchEntry
  if frame then forEach (forEach s2 (lastKeys s2) frameEntry) (lastKeys s2) openEntry else s2

/-! ### Shifts that change (R214, R230) -/

/-- The shift of an input changes: LAST_SHIFT, and the entries that the change breaks. An exchange breaks an entry only after 16 in a row; a
change of FEC mode breaks it at once. -/
def shiftChanged (s : State) (p : Nat) (base : Option Nat) (byMode : Bool) : State :=
  let guard := s.reg Dict.LAST_GUARD_POS
  let s1 := s.updLasts fun u =>
    { u with
      base := tset none u.base p base
      shift := tset 0xFFFF u.shift p ((base.map (· + guard)).getD 0xFFFF) }
  let keys := (lastKeys s1).filter fun k => lastIn k = p && (s1.last k).st.holds && (s1.last k).outPort < 96
  let above (s : State) (k : Nat) : Bool := (shiftFor s k (s.last k)).any fun v => decide ((s.last k).delta < v)
  let s2 := forEach s1 keys fun s k =>
    if byMode then (if above s k then breakDue s k 11 s.time.count else s)
    else
      let run := if above s k then (s.last k).driftRun + 1 else 0
      let t := s.updLast k fun e => { e with driftRun := min 16 run }
      if run = 16 then breakDue t k 11 s.time.count else t
  if keys.any fun k => (s2.last k).due.any (fun d => d.1 = 11) && ((s1.last k).due.isNone) then s2.raise 0x0707 else s2

/-! ### Chunks on their way (R220, R225 to R227) -/

/-- The chunks in the last buffer of an input (R225). -/
def lastDepth (s : State) (p : Nat) : Nat := sumOf s.lasts.entries fun c => if lastIn c.1 = p then c.2.queue.length else 0

/-- A chunk reaches the queue of an Active entry with a fabric output: on time, or late (R225, R226). -/
def queueChunk (s : State) (key : Nat) (c : Chunk) (pos : Nat) : State :=
  let e := s.last key
  let shift := (shiftFor s key e).getD e.delta
  let onTime := arrivalSlot e pos && !bitAt c.tag 4 && e.queue.isEmpty && decide (shift ≤ e.delta)
  if 64 ≤ lastDepth s (lastIn key) then wrapChunk s key c 3
  else
    let s1 := if onTime then s else s.count 0x382 (lastIn key)
    s1.updLast key fun e => { e with queue := e.queue ++ [{ c with due := pos + (if onTime then e.delta else shift) }] }

/-- A chunk of a known entry goes where the entry's state sends it. -/
def takeChunk (s : State) (key : Nat) (c : Chunk) (pos : Nat) : State :=
  let e := s.last key
  match wrapReasonOf e.st with
  | some reason => wrapChunk s key c reason
  | none =>
    if e.outPort < 96 then queueChunk s key c pos
    else if e.outPort < 100 then deliverChunk s (lastIn key) (e.outLabel % 4096) c.tag c.data c.bad false
    else s.updLasts fun u => { u with toCp := u.toCp ++ [(key, c)] }

/-- A lasted flit arrives on a port in a position (R220). -/
def lastedIn (s : State) (p pos body : Nat) (bad : Bool) : State :=
  let tag := fld body 479 448
  let key := 4096 * p + fld tag 27 16
  let e := s.last key
  match e.st with
  | .empty | .written | .armed | .refused => (s.count 0x388 p).raise 0x0704 1 p
  | _ =>
    if fld tag 31 28 ≠ e.gen then (s.count 0x388 p).raise 0x0704 1 p
    else takeChunk s key { tag := tag, data := fld body 447 0, bad := bad, at' := s.time.count } pos

/-! ### Departures (R225, R227, R235) -/

/-- The control byte of a lasted flit (R102). -/
def lastCtl (bad : Bool) : Nat := if bad then 0xC7 else 0xC6

/-- A lasted flit as it leaves: the label replaced by OUT_LABEL, LATE set when the position is not the entry's (R218). -/
def departFlit (e : LastEntry) (c : Chunk) (late : Bool) : Flit :=
  let tag := setFld c.tag 31 16 e.outLabel
  { ctl := lastCtl c.bad, body := (if late then tag ||| 16 else tag) * 2 ^ 448 + c.data }

/-- The record that an OPEN source entry would send next. -/
def sourceRecord (s : State) (key : Nat) (e : LastEntry) : Option Nat :=
  if e.isOpen ∧ 96 ≤ lastIn key ∧ lastIn key < 100 then (s.ring (lastIndex key)).records.head? else none

/-- The chunk that a source record makes in a stitch (R218, R235). -/
def sourceChunk (e : LastEntry) (rec' count : Nat) : Chunk :=
  { tag := packTag (e.outLabel / 4096) (e.outLabel % 4096) (count % 256) (bitAt rec' 62) (fld rec' 61 60) false
    data := fld rec' 511 64, bad := bitAt rec' 63 }

/-- The entry that reserves a slot of the present stitch on an output, if one does. -/
def reserverOf (s : State) (o slot : Nat) : Option Nat :=
  (s.lasts.entries.find? fun c => c.2.st.holds && c.2.outPort = o && reserves c.2 slot s.time.count).map (·.1)

/-- The chunk at the head of an Active entry's queue that may leave in a position. -/
def headReady (e : LastEntry) (pos : Nat) : Option Chunk :=
  if e.st = .active then e.queue.head?.filter fun c => c.due ≤ pos else none

/-- What a reserved position carries: the flit, and the state after it has left. -/
def reservedFlit (s : State) (key pos : Nat) : Option (Flit × State) :=
  let e := s.last key
  match headReady e pos with
  | some c =>
    let own := if 96 ≤ lastIn key then { c with tag := setFld c.tag 15 8 (s.time.count % 256) } else c
    some (departFlit e own false, (s.updLast key fun e => { e with queue := e.queue.drop 1 }).count 0x380 e.outPort)
  | none =>
    match sourceRecord s key e with
    | some r =>
      let i := lastIndex key
      let n := ringSize (ringRow s i)
      let s1 := (s.updRing i fun g => { g with records := g.records.drop 1, cons := ringNext n g.cons }).count 0x380 e.outPort
      let s2 := if bitAt r 63 then (chunkLost s1 (lastIn key)).raise 0x0708 else s1
      some (departFlit e (sourceChunk e r s.time.count) false, fetchRecords s2 i)
    | none => none

/-- The late chunk that a free position of an output carries: the one longest due. The collective engine's own chunks wait for their reserved
positions (R398). -/
def lateKey (s : State) (o pos : Nat) : Option Nat :=
  (s.lasts.entries.foldl (fun best c =>
    if c.2.outPort = o ∧ lastIn c.1 < 96 then
      match headReady c.2 pos, best with
      | some h, some (b : Nat × Nat) => if h.due < b.2 then some (c.1, h.due) else best
      | some h, none => some (c.1, h.due)
      | none, _ => best
    else best) none).map (·.1)

/-- The late chunk and the state after it has left. -/
def lateFlit (s : State) (key pos : Nat) : Option (Flit × State) :=
  let e := s.last key
  (headReady e pos).map fun c => (departFlit e c true, (s.updLast key fun e => { e with queue := e.queue.drop 1 }).count 0x381 e.outPort)

/-! ### Signals on the link (R233) -/

/-- The entry that a record names, from the port of its arrival. -/
def signalEntry (s : State) (p label : Nat) (up : Bool) : Option Nat :=
  let lives (e : LastEntry) : Bool := e.st ≠ .empty && e.st ≠ .written && e.st ≠ .refused
  if up then (s.lasts.entries.find? fun c => lives c.2 && c.2.outPort = p && c.2.outLabel = label).map (·.1)
  else
    let key := 4096 * p + label % 4096
    let e := s.last key
    if lives e && e.gen = label / 4096 then some key else none

/-- A record is applied to its entry and relayed (R223, R230, R233). A Closing entry sends no signals (R222). -/
def signalIn (s : State) (p : Nat) (r : SigRec) : State :=
  let s1 := s.count 0x387 p
  if !(([1, 2, 3, 4, 5, 0x11] : List Nat).contains r.event) then s1.count 0x389 p
  else
    match signalEntry s1 p r.label (upstream r.event) with
    | none => s1.count 0x389 p
    | some key =>
      let e := s1.last key
      if e.st = .closing then s1
      else if r.event = 1 then
        (match e.st with
         | .active => becomeReady s1 key r.stitch
         | .armed | .suspended => s1.updLast key fun e => { e with readyHeld := true }
         | _ => sendSignal s1 key 1 r.stitch)
      else if r.event = 2 ∨ r.event = 0x11 then
        (if e.st.holds then breakDue s1 key 10 r.stitch else sendSignal s1 key r.event r.stitch)
      else sendSignal s1 key r.event r.stitch

/-- The records that the entries have to send on a port, up to the 28 of a stitch, and the entries without them (R118, R233,
R238). -/
def takeSignals (es : Tbl LastEntry) (p room : Nat) : List SigRec × Tbl LastEntry :=
  es.foldl (fun (a : List SigRec × Tbl LastEntry) c =>
    let mine := c.2.signals.filter fun g => (if upstream g.event then lastIn c.1 else c.2.outPort) = p
    let now := mine.take (room - a.1.length)
    if now.isEmpty then a
    else
      (a.1 ++ now.map fun g =>
        { label := if upstream g.event then c.2.inLabel c.1 else c.2.outLabel, event := g.event, stitch := g.stitch % 2 ^ 24 },
       tset {} a.2 c.1 { c.2 with signals := c.2.signals.filter fun g => !now.contains g })) ([], es)

/-! ### Writes -/

/-- The entry is so far along that a write with VALID = 1 is refused (R222). -/
def lastBusy (s : State) (key : Nat) : Bool := (s.last key).st.used

/-- A row of LAST_ENTRY is judged (R222); the label of an entry whose output is CP has bits 15:13 zero (R391). -/
def lastEntryCheck (s : State) (key v : Nat) : Nat :=
  if bitAt v 255 ∧ lastBusy s key then 0x0C
  else if bitAt v 255 ∧ fld v 229 223 = 100 ∧ fld v 210 208 ≠ 0 then 6 else 0

/-- A row with VALID = 1 is applied (R222). -/
def applyLastOpen (s : State) (key v : Nat) : State :=
  logLast (s.updLast key fun e => { cfg := lastRwBits v, st := .written, lastGen := e.lastGen, writtenAt := s.time.count }) key .written 0

/-- A row with VALID = 0 is applied (R222). -/
def applyLastClose (s : State) (key v : Nat) : State :=
  let e := s.last key
  match e.st with
  | .written | .refused => logLast (s.updLast key fun e => e.emptied (lastRwBits v)) key .empty 0
  | .armed | .active | .suspended | .broken =>
    wrapQueue (enterLast (s.updLast key fun e => { e with cfg := clearBits e.cfg (2 ^ 255), signals := [] }) key .closing e.reason) key
  | .empty => s.updLast key fun e => { e with cfg := lastRwBits v }
  | .closing => s

/-- A row of LAST_ENTRY applied. -/
def applyLastEntry (s : State) (key v : Nat) : State := if bitAt v 255 then applyLastOpen s key v else applyLastClose s key v

/-- A row of LAST_CAP is judged (R217). -/
def capCheck (s : State) (p v : Nat) : Nat :=
  if v < lastReserved s.lasts.entries p then 0x0C else if v < 1 ∨ 60 < v then 6 else 0

/-- An entry that is not Empty names the ring (R234). -/
def ringNamed (s : State) (r : Nat) : Bool :=
  s.lasts.entries.any fun c => c.2.st ≠ .empty &&
    ((96 ≤ lastIn c.1 && lastIn c.1 < 100 && lastIndex c.1 = r) || (96 ≤ c.2.outPort && c.2.outPort < 100 && c.2.outLabel % 4096 = r))

/-- A row of LAST_RING is judged (R234). -/
def ringCheck (s : State) (r v : Nat) : Nat :=
  if bitAt v 127 ∧ ringNamed s r then 0x0C else if fld v 73 70 < 6 then 6 else 0

/-- A row of LAST_RING applied: the ring starts empty. -/
def applyRing (s : State) (r v : Nat) : State := (s.setReg Dict.LAST_RING r v).updRing r fun _ => {}

/-- A row of LAST_EVENT_LOG (R239). -/
def packLastLog (e : LastLog) : Nat :=
  put e.port 63 57 + put e.index 56 45 + put e.st.code 44 42 + put e.reason 41 38 + put e.stitch 31 0

/-- The values of the last objects (R239). -/
def lastView (s : State) (id row : Nat) : Option Nat :=
  match id with
  | 0x070000 => some (lastRow (s.last row))
  | 0x070001 => some (entriesUsed s)
  | 0x070003 => some (lastReserved s.lasts.entries row)
  | 0x070100 => some (tget 0xFFFF s.lasts.shift row)
  | 0x070301 => some (wrapFree s)
  | 0x070400 => some (((s.lasts.log[row]?).map packLastLog).getD 0)
  | _ => none

/-! ### Commands -/

/-- A row of LAST_ENTRY exists (R239). -/
def lastRowExists (port index : Nat) : Bool := decide (port < 101) && decide (index < 4096)

/-- LAST_ENTRY_OPEN: a row of LAST_ENTRY with VALID = 1 is applied (R222). -/
def execLastEntryOpen (port index value : Nat) (s : State) : Host.Outcome State Fault Refusal :=
  if !lastRowExists port index then .fault .noSuchRow
  else
    let v := value ||| 2 ^ 255
    judged s (lastEntryCheck s (4096 * port + index) v) (applyLastOpen s (4096 * port + index) v)

/-- LAST_ENTRY_CLOSE: a row of LAST_ENTRY with VALID = 0 is applied (R222). -/
def execLastEntryClose (port index value : Nat) (s : State) : Host.Outcome State Fault Refusal :=
  if !lastRowExists port index then .fault .noSuchRow
  else judged s 0 (applyLastClose s (4096 * port + index) (clearBits value (2 ^ 255)))

/-- LAST_ARM_CHECK: a frame boundary after the write, the entry is checked (R221). -/
def execLastArmCheck (port index : Nat) (s : State) : Host.Outcome State Fault Refusal :=
  let key := 4096 * port + index
  if !lastRowExists port index then .fault .noSuchRow
  else .next (if (s.last key).st = .written ∧ s.time.count % 1024 = 0 ∧ (s.last key).writtenAt < s.time.count then armCheck s key else s)

/-- LASTED_FLIT_RECEIVE: a lasted flit that its port has accepted (R220, R225). -/
def execLastedFlitReceive (port pos tag data : Nat) (bad : Bool) (s : State) : Host.Outcome State Fault Refusal :=
  onPort port (lastedIn s port pos ((tag % 2 ^ 32) * 2 ^ 448 + data % 2 ^ 448) bad)

/-- WRAP_TIMER: LAST_WRAP_WAIT_ST stitches after the oldest chunk that waits (R231). -/
def execWrapTimer (port index : Nat) (s : State) : Host.Outcome State Fault Refusal :=
  let key := 4096 * port + index
  if !lastRowExists port index then .fault .noSuchRow
  else .next (if (s.last key).wrap.head?.any fun c => decide (c.at' + s.reg Dict.LAST_WRAP_WAIT_ST ≤ s.time.count) then flushWrap s key else s)

/-- The ring that takes a wrapped packet: its row names the packet's endpoint and LAST_ID (R232). -/
def fallbackRing (s : State) (p : Packet) : Option Nat :=
  (List.range 4096).find? fun r =>
    let row := ringRow s r
    bitAt row 127 && bitAt row 126 && fld row 113 98 = p.dep && fld row 97 74 = fld (p.oph.getD 0 0) 63 40

/-- The chunks of a wrapped packet, as pairs of tag and data. -/
def wrappedChunks (payload : List Byte) : Nat → List (Nat × Nat)
  | 0 => []
  | n + 1 => (natBE (payload.take 4), natBE ((payload.drop 4).take 56)) :: wrappedChunks (payload.drop 60) n

/-- WRAP_DELIVER: the oldest packet delivered to a host port, a wrapped-last one, is written chunk by chunk to its ring
(R232). -/
def execWrapDeliver (hp : Nat) (s : State) : Host.Outcome State Fault Refusal :=
  let port := 96 + hp % 4
  match tget [] s.sw.delivered port with
  | [] => .next s
  | d :: rest =>
    if d.pkt.opc ≠ 0x5E then .next s
    else
      let s1 := s.updSw fun w => { w with delivered := tset [] w.delivered port rest }
      match fallbackRing s1 d.pkt with
      | none => .next ((chunkLost s1 port).raise 0x0709)
      | some r =>
        .next (forEach s1 (wrappedChunks d.pkt.payload (d.pkt.payload.length / 60)) fun s c => deliverChunk s port r c.1 c.2 false true)

/-- LAST_RING_PRODUCER_WRITE: the doorbell of a send ring (R235). An index that R267 does not allow is ignored. -/
def execLastRingProducerWrite (ring value : Nat) (s : State) : Host.Outcome State Fault Refusal :=
  let n := ringSize (ringRow s ring)
  let g := s.ring ring
  if 4096 ≤ ring then .fault .noSuchRow
  else .next (match judgeProducer n g.cons g.prod value with
    | .fresh => fetchRecords (s.updRing ring fun g => { g with prod := value }) ring
    | _ => s)

/-- LAST_RING_CONSUMER_WRITE: room in a receive ring; one LOSS record follows chunks that were discarded (R237). -/
def execLastRingConsumerWrite (ring value : Nat) (s : State) : Host.Outcome State Fault Refusal :=
  let n := ringSize (ringRow s ring)
  let g := s.ring ring
  if 4096 ≤ ring then .fault .noSuchRow
  else if !consumerOk n g.cons g.prod value then .next s
  else
    let s1 := s.updRing ring fun g => { g with cons := value }
    .next (match g.lossAt with
      | some st => if ringFull n (s1.ring ring).prod value then s1
        else writeSignal (s1.updRing ring fun g => { g with lossAt := none }) ring 5 st
      | none => s1)

end Sys2Proof.Machine
end

