-- ==== Sys2Proof/Machine/Cupping.lean ====
section
/-!
DEFINITION. Cupping (R203 to R207): sampling headers at lookup, the collector, its host ring and its packets.
-/
namespace Sys2Proof.Machine

/-- One step of a sampling LFSR with polynomial x^32 + x^22 + x^2 + x + 1 (R203). -/
def lfsrStep (v : Nat) : Nat :=
  (v * 2) % 2 ^ 32 + b2n (bitAt v 31 != (bitAt v 21 != (bitAt v 1 != bitAt v 0)))

/-- The next value of the LFSR at a key of a table, and whether its low k bits are all zero (R203, R526). -/
def lfsrSample (t : Tbl Nat) (key k : Nat) : Tbl Nat × Bool :=
  let v := lfsrStep (tget 0xFFFFFFFF t key)
  (tset 0xFFFFFFFF t key v, decide (v % 2 ^ k = 0))

/-- The state with the collector changed. -/
def State.updCup (s : State) (f : Cup → Cup) : State := s.updSw fun w => { w with cup := f w.cup }

/-- Records are dropped (R205, R212). -/
def cupDrop (s : State) (n : Nat) : State :=
  (((s.updCup fun c => { c with dropped := min 0xFFFF (c.dropped + n) }).count 0x30E 0 n).raise 0x0606).event Dict.SW_BENCH_EVENTS 12 5

/-- The records of the host ring (R206). -/
def cupRingSize (s : State) : Nat := 2 ^ s.reg Dict.CUP_RING_ORDER

/-- 64 bytes go to the host ring: the sampled bytes in string order, then the metadata little-endian with its lap bit (R204, R206). A record for a
full ring, or one whose write the window check refuses, is dropped. -/
def cupRingWrite (s : State) (bytes meta' : Nat) : State :=
  let n := cupRingSize s
  let c := s.sw.cup
  if ringFull n c.prod (s.reg Dict.CUP_RING_CONSUMER) then cupDrop s 1
  else
    let m := setFld meta' 134 134 (ringPhase n c.prod)
    let w := hostWrite s 0 (s.reg Dict.CUP_RING_BASE + 64 * (c.prod % n)) (bytesBE bytes 32 ++ bytesLE m 32)
    if w.ok then w.st.updCup fun c => { c with prod := ringNext n c.prod } else cupDrop w.st 1

/-- The metadata as delivered: with DROPPED and SEQ (R204). -/
def cupMeta (c : Cup) (r : CupRec) : Nat := r.meta' + put c.dropped 79 64 + put c.seq 63 32

/-- The oldest record leaves the collector's queue. -/
def Cup.advance (c : Cup) : Cup :=
  { c with queue := c.queue.drop 1, given := c.given + 1, dropped := 0, seq := (c.seq + 1) % 2 ^ 32 }

/-- The collector's records go to the host ring, up to the stitch's rate (R205). -/
def cupToRing (s : State) : Nat → State
  | 0 => s
  | n + 1 =>
    match s.sw.cup.queue with
    | [] => s
    | r :: _ =>
      if s.reg Dict.CUP_COLLECTOR = 1 ∧ s.sw.cup.given < s.reg Dict.CUP_RING_MAX then
        cupToRing (cupRingWrite (s.updCup Cup.advance) r.bytes (cupMeta s.sw.cup r)) n
      else s

/-- A record is assembled: at most 512 in a stitch and 1,024 in the queue (R205). -/
def cupRecord (s : State) (bytes meta' : Nat) : State :=
  let c := s.sw.cup
  if s.reg Dict.CUP_COLLECTOR = 0 then s
  else if 512 ≤ c.made ∨ 1024 ≤ c.queue.length then cupDrop s 1
  else
    let r : CupRec := { bytes := bytes, meta' := meta', at' := s.time.count }
    cupToRing ((s.updCup fun c => { c with queue := c.queue ++ [r], made := c.made + 1 }).count 0x30D) 1

/-- The in-band packet of a list of records (R207). The spec gives it no SEP. -/
def cupPacket (dest sep : Nat) (data : List Byte) : Packet :=
  { opc := 0x5F, dfna := fld dest 33 16, dep := fld dest 15 0, sep := sep, len := data.length, payload := data }

/-- The records that a packet takes, with the collector after them. -/
def cupTake (c : Cup) : Nat → List Byte × Cup
  | 0 => ([], c)
  | n + 1 =>
    match c.queue with
    | [] => ([], c)
    | r :: _ =>
      let t := cupTake c.advance n
      (bytesBE r.bytes 32 ++ bytesBE (cupMeta c r) 32 ++ t.1, t.2)

/-- CUP_INBAND_SEND: 16 records wait, or the oldest for 4 st (R205, R207). -/
def execCupInbandSend (s : State) : Host.Outcome State Fault Refusal :=
  let c := s.sw.cup
  let room := s.reg Dict.CUP_INBAND_MAX - c.given
  let old := c.queue.head?.any fun r => decide (r.at' + 4 ≤ s.time.count)
  if s.reg Dict.CUP_COLLECTOR = 2 ∧ 0 < room ∧ (16 ≤ c.queue.length ∨ old) then
    let t := cupTake c (min 16 room)
    .next ((s.took.updCup fun _ => t.2).sendFrom portSP (cupPacket (s.reg Dict.CUP_DEST) (s.free % 65536) t.1))
  else .next s

/-- The records of a delivered packet. -/
def cupRecords (payload : List Byte) : Nat → List (Nat × Nat)
  | 0 => []
  | n + 1 => (natBE (payload.take 32), natBE ((payload.drop 32).take 32)) :: cupRecords (payload.drop 64) n

/-- CUP_PACKET_DELIVER: the oldest packet delivered to a host port, one of OPC 0x5F (R207). -/
def execCupPacketDeliver (hp : Nat) (s : State) : Host.Outcome State Fault Refusal :=
  let port := 96 + hp % 4
  match tget [] s.sw.delivered port with
  | [] => .next s
  | d :: rest =>
    if d.pkt.opc ≠ 0x5F then .next s
    else
      let s1 := s.updSw fun w => { w with delivered := tset [] w.delivered port rest }
      let n := d.pkt.payload.length / 64
      if d.pkt.dep = s.reg Dict.CUP_RING_EP ∧ s.reg Dict.CUP_COLLECTOR = 1 then
        .next (forEach s1 (cupRecords d.pkt.payload n) fun s r => cupRingWrite s r.1 r.2)
      else .next (s1.count 0x30E 0 n)

/-- A write to CUP_RING_BASE, or to CUP_RING_ORDER, is judged (R206). -/
def cupRingCheck (s : State) (order : Bool) (v : Nat) : Nat :=
  if s.reg Dict.CUP_COLLECTOR = 1 then 0x0C
  else if order then (if v < 8 ∨ 20 < v then 6 else 0) else if v % 4096 ≠ 0 then 6 else 0

/-- The write applied: both indices become 0 (R206). -/
def applyCupRing (s : State) (order : Bool) (v : Nat) : State :=
  ((s.setReg (if order then Dict.CUP_RING_ORDER else Dict.CUP_RING_BASE) 0 v).setReg Dict.CUP_RING_CONSUMER 0 0).updCup fun c =>
    { c with prod := 0 }

/-- CUP_RING_BASE_WRITE: the boundary that applies a write to CUP_RING_BASE or CUP_RING_ORDER (R206). -/
def execCupRingBaseWrite (order : Bool) (value : Nat) (s : State) : Host.Outcome State Fault Refusal :=
  judged s (cupRingCheck s order value) (applyCupRing s order value)

end Sys2Proof.Machine
end

