-- ==== Sys2Proof/Machine/Link.lean ====
section
/-!
DEFINITION. The link layer of a port (R105 to R118, R129 to R131): acknowledgement, go-back replay, credits and INIT. What a
received flit does is in Rx; what a slot carries is in Egress.
-/
namespace Sys2Proof.Machine

/-- The states in which sequenced flits are numbered and acknowledged (R105, R127). -/
def inService (l : LinkPort) : Bool := l.st = .quarantine || l.st = .admitted || l.st = .hold

/-- The states in which a port takes control flits (R127). -/
def takesControl (l : LinkPort) : Bool := inService l || l.st = .isolated

/-- The credits that the sender may use on a VC (R114). -/
def credits (l : LinkPort) (v : Nat) : Int :=
  (l.limit.getD v 0 : Int) - toSigned 16 (modSub 65536 (l.sent.getD v 0) (l.freedIn.getD v 0))

/-- The credits of some VC are below zero or above 16,384 (R114). -/
def creditsBad (l : LinkPort) : Bool := (List.range 8).any fun v => decide (credits l v < 0) || decide (16384 < credits l v)

/-- The bypass credits left (R118). -/
def bpCredits (l : LinkPort) : Nat := l.bpLimit - modSub 65536 l.bpSent l.bpFreedIn

/-- A control flit (R102). -/
def ctlFlit (body : Nat) : Flit := { ctl := 0x86, body := body }

/-- The subtype of a control flit (R119). -/
def subtypeOf (body : Nat) : Nat := fld body 479 472

/-- A control flit waits for the bypass channel of a port (R118). -/
def sendCtl (s : State) (p body : Nat) : State := s.updLink p fun l => { l with ctlQ := l.ctlQ ++ [ctlFlit body] }

/-- The port re-initialises over its credits (R114, R116). -/
def creditFault (s : State) (p : Nat) : State := reinitPort (s.raise 0x0406 1 p) p

/-! ### Replay -/

/-- A replay starts from OLDEST, or the port has exhausted its replays (R110, R111, R112). -/
def startReplay (s : State) (p nakId : Nat) (byNak : Bool) : State :=
  let l := s.link p
  if s.reg Dict.LINK_REPLAY_LIMIT ≤ l.replays then
    isolatePort ((s.raise 0x0403 1 p).event Dict.LINK_PORT_EVENTS p 6) p
  else
    (s.updLink p fun l =>
      { l with
        replays := l.replays + 1, served := nakId, oldestAt := s.time.count
        replayPos := if l.replay.isEmpty then none else some 0
        ctlQ := (l.ctlQ.filter fun f => subtypeOf f.body ≠ 2) ++ [ctlFlit (packReplay l.oldest nakId)] }).count
      (if byNak then 0x206 else 0x207) p

/-- Where a replay in progress stands after d flits were acknowledged. -/
def replayAfter (pos : Option Nat) (d left : Nat) : Option Nat :=
  match pos with
  | none => none
  | some k => if k - d < left then some (k - d) else none

/-- The sender frees what an ACKCR in the window acknowledges and takes its freed counts (R108, R113, R118). -/
def LinkPort.acked (l : LinkPort) (a : Ackcr) (d count : Nat) : LinkPort :=
  { l with
    replay := l.replay.drop d, oldest := a.ne, freedIn := a.freed, bpFreedIn := a.freedBp
    replayPos := replayAfter l.replayPos d (l.replay.length - d)
    replays := if d = 0 then l.replays else 0
    oldestAt := if d = 0 then l.oldestAt else count }

/-- An ACKCR on a port (R108, R110, R114). A port that sends no sequenced flits, being Isolated or halted by R128, starts no replay. -/
def ackcrIn (s : State) (p : Nat) (a : Ackcr) : State :=
  let l := s.link p
  let d := modSub 4096 a.ne l.oldest
  if !(takesControl l) then s
  else if outstanding l < d then (s.count 0x209 p).raise 0x0404 1 p
  else
    let s1 := s.updLink p fun l => l.acked a d s.time.count
    if creditsBad (s1.link p) then creditFault s1 p
    else if a.nak ∧ a.nakId ≠ l.served ∧ inService l ∧ !l.halted then startReplay s1 p a.nakId true
    else s1

/-- The receiver asks for a replay from NE (R109). -/
def askReplay (s : State) (p : Nat) : State :=
  s.updLink p fun l =>
    { l with discarding := true, behind := 0, nakId := (l.nakId + 1) % 16, nakAt := s.time.count, ackDue := true }

/-- A flit that is bad (R103, R109). -/
def badFlit (s : State) (p : Nat) : State :=
  let s1 := s.count 0x204 p
  if inService (s.link p) ∧ !(s.link p).discarding then askReplay s1 p else s1

/-- A REPLAY on a port (R109, R111). -/
def replayIn (s : State) (p num nakId : Nat) : State :=
  let l := s.link p
  let back := modSub 4096 l.ne num
  if !(takesControl l) then s
  else if l.discarding then
    (if nakId = l.nakId ∧ num = l.ne then s.updLink p fun l => { l with discarding := false, behind := 0 } else s)
  else if back ≤ 2047 then s.updLink p fun l => { l with behind := back }
  else reinitPort (s.raise 0x040A 1 p) p

/-- A sequenced flit is accepted (R105, R107). -/
def LinkPort.accept (l : LinkPort) : LinkPort :=
  { l with ne := (l.ne + 1) % 4096, ackOwed := l.ackOwed + 1, ackDue := l.ackDue || decide (31 ≤ l.ackOwed) }

/-! ### Credits -/

/-- The drifts d_v of a CREDIT_SYNC (R116). -/
def drifts (l : LinkPort) (c : CreditSync) : List Int :=
  (List.range 8).map fun v => toSigned 16 (modSub 65536 (c.sent.getD v 0) (l.rcvd.getD v 0))

/-- The receiver's counts corrected by the drifts (R116). -/
def LinkPort.corrected (l : LinkPort) (c : CreditSync) (d : List Int) : LinkPort :=
  { l with
    rcvd := c.sent
    freed := (List.range 8).map fun v => ofSigned 16 ((l.freed.getD v 0 : Int) + d.getD v 0) }

/-- A CREDIT_SYNC on a port (R116). -/
def syncIn (s : State) (p : Nat) (c : CreditSync) : State :=
  let l := s.link p
  if !(takesControl l) then s
  else if l.discarding ∨ c.num ≠ l.ne then s.count 0x20B p
  else
    let d := drifts l c
    let s1 := s.count 0x20A p
    if d.all (· = 0) then s1
    else
      let s2 := (s1.updLink p fun l => (l.corrected c d).noteFreed).count 0x20C p (d.filter (· ≠ 0)).length
      if d.all fun x => decide (x.natAbs ≤ s.reg Dict.LINK_DRIFT_LIMIT) then
        (s2.raise 0x0405 1 p).event Dict.LINK_PORT_EVENTS p 7
      else creditFault s2 p

/-! ### INIT -/

/-- The INIT that a port sends (R126, R131): STEP 1 once it has accepted one. -/
def initBody (s : State) (p : Nat) : InitBody :=
  { step := if (s.link p).initRx then 1 else 0, fna := s.reg Dict.ID_FNA, port := p, limit := (s.inPort p).reserve, bpLimit := 16, version := 1 }

/-- An INIT on a port in Listening (R131). -/
def initIn (s : State) (p : Nat) (i : InitBody) : State :=
  let l := s.link p
  if l.st ≠ .listening ∨ 1 < i.step then s
  else if i.version ≠ 1 then
    (if l.versionLogged then s else (s.updLink p fun l => { l with versionLogged := true }).raise 0x0402 1 p)
  else if put i.fna 24 7 + put i.port 6 0 ≠ (s.lane p).partner then s
  else
    let s1 := s.updLink p fun l => { l with initRx := true, init1Rx := l.init1Rx || i.step = 1, limit := i.limit }
    if l.initRx then s1 else sendCtl s1 p (packInit (initBody s1 p))

/-! ### Writes -/

/-- A row of LINK_ADMIT is judged (R134). -/
def admitCheck (s : State) (p v : Nat) : Nat :=
  if v = 1 ∧ !(inService (s.link p) && s.time.st = .locked) then 0x0C else boolCheck v

/-- A row of LINK_REINIT is judged (R134). -/
def reinitCheck (s : State) (p v : Nat) : Nat :=
  if v = 1 ∧ ((s.link p).st = .down ∨ s.mon.fault.isolated) then 0x0C else boolCheck v

/-- A row of LINK_REINIT applied (R129). -/
def applyReinit (s : State) (p v : Nat) : State := if v = 1 then enterLink s p .listening else s

/-- The values of the link objects (R134). -/
def linkView (s : State) (id row : Nat) : Option Nat :=
  match id with
  | 0x040000 => some (s.link row).st.code
  | 0x040003 => some ((s.link row).psc.getD 0xFF)
  | 0x040200 => some ((s.link (row / 8)).limit.getD (row % 8) 0)
  | 0x040201 => some (ofSigned 32 (credits (s.link (row / 8)) (row % 8)))
  | 0x040202 => some (outstanding (s.link row))
  | _ => none

/-! ### Commands -/

/-- ACKCR_TIMER: 64 ns have passed since an unreported acceptance or free, or since the last NAK; or 8 st without an ACKCR
(R107). -/
def execAckcrTimer (port : Nat) (s : State) : Host.Outcome State Fault Refusal :=
  let l := s.link port
  onPort port (if takesControl l ∧ (s.lane port).st ≠ .rest ∧
      (0 < l.ackOwed ∨ freedNow l ≠ l.ackFreed ∨ l.discarding ∨ l.ackAt + 8 ≤ s.time.count) then
    s.updLink port fun l => { l with ackDue := true }
  else s)

/-- ACKCR_RECEIVE (R108, R110). -/
def execAckcrReceive (port : Nat) (a : Ackcr) (s : State) : Host.Outcome State Fault Refusal := onPort port (ackcrIn s port a)

/-- REPLAY_RECEIVE (R109, R111). -/
def execReplayReceive (port num nakId : Nat) (s : State) : Host.Outcome State Fault Refusal := onPort port (replayIn s port num nakId)

/-- NAK_WAIT_TIMEOUT: LINK_NAK_WAIT_ST stitches without the REPLAY asked for (R109). -/
def execNakWaitTimeout (port : Nat) (s : State) : Host.Outcome State Fault Refusal :=
  let l := s.link port
  onPort port (if inService l ∧ l.discarding ∧ l.nakAt + s.reg Dict.LINK_NAK_WAIT_ST ≤ s.time.count then askReplay s port else s)

/-- REPLAY_TIMEOUT: OLDEST has not advanced for LINK_REPLAY_TIMEOUT_ST stitches while flits are outstanding (R111). -/
def execReplayTimeout (port : Nat) (s : State) : Host.Outcome State Fault Refusal :=
  let l := s.link port
  onPort port (if inService l ∧ !l.halted ∧ 0 < outstanding l ∧ l.oldestAt + s.reg Dict.LINK_REPLAY_TIMEOUT_ST ≤ s.time.count then
    startReplay s port l.served false else s)

/-- CREDIT_SYNC_RECEIVE (R116). -/
def execCreditSyncReceive (port : Nat) (c : CreditSync) (s : State) : Host.Outcome State Fault Refusal := onPort port (syncIn s port c)

/-- INIT_RECEIVE (R131). -/
def execInitReceive (port : Nat) (i : InitBody) (s : State) : Host.Outcome State Fault Refusal := onPort port (initIn s port i)

/-- LINK_INIT_SLOW: a port has spent 1 fr in Listening (R131). -/
def execLinkInitSlow (port : Nat) (s : State) : Host.Outcome State Fault Refusal :=
  let l := s.link port
  onPort port (if l.st = .listening ∧ !l.slowLogged ∧ l.listenAt + 1024 ≤ s.time.count then
    ((s.updLink port fun l => { l with slowLogged := true }).raise 0x0401 1 port).event Dict.LINK_PORT_EVENTS port 9 else s)

/-- LINK_ADMIT_WRITE: the boundary that applies a row of LINK_ADMIT (R129). -/
def execLinkAdmitWrite (port value : Nat) (s : State) : Host.Outcome State Fault Refusal :=
  if 96 ≤ port then .fault .noSuchPort
  else judged s (admitCheck s port value) (admitPort (s.setReg Dict.LINK_ADMIT port value) port (value = 1))

/-- LINK_REINIT_WRITE: the boundary that applies a row of LINK_REINIT (R129). -/
def execLinkReinitWrite (port value : Nat) (s : State) : Host.Outcome State Fault Refusal :=
  if 96 ≤ port then .fault .noSuchPort else judged s (reinitCheck s port value) (applyReinit s port value)

end Sys2Proof.Machine
end

