-- ==== Sys2Proof/Machine/Routing.lean ====
section
/-!
DEFINITION. Routing (R145 to R173): the tables' rows, the route, the choice between a minimal and a non-minimal path, flowlets, hints,
the bank switch, and the writes of range 0x0500.
-/
namespace Sys2Proof.Machine

/-! ### Table rows (R148 to R150) -/

/-- The group table of a bank. -/
def groupObj (bank : Nat) : Obj := if bank = 0 then Dict.ROUTE_GROUP_A else Dict.ROUTE_GROUP_B

/-- The member table of a bank. -/
def memberObj (bank : Nat) : Obj := if bank = 0 then Dict.ROUTE_MEMBER_A else Dict.ROUTE_MEMBER_B

/-- A row of the group table (R149). -/
def groupRow (s : State) (bank t : Nat) : Nat := s.reg (groupObj bank) t

/-- The direct ports that a group row names (R149). -/
def dirPorts (row : Nat) : List Nat := (List.range (min 4 (fld row 61 59))).map fun i => fld row (55 - 7 * i) (49 - 7 * i)

/-- The gateway members that a group row names (R149). -/
def gwMembers (row : Nat) : List Nat := (List.range (min 4 (fld row 58 56))).map fun i => fld row (27 - 6 * i) (22 - 6 * i)

/-- The element of a list that a number selects modulo its length. -/
def pickMod {α : Type} (l : List α) (n : Nat) : Option α := if l.isEmpty then none else l[n % l.length]?

/-- The usable port to a member of the own group; the row of the own member is ignored (R150, R151). -/
def memberPort (s : State) (bank m fhash : Nat) : Option Nat :=
  let row := s.reg (memberObj bank) m
  if m = myMember s ∨ !bitAt row 31 then none
  else
    let p0 := fld row 29 23
    let p1 := fld row 22 16
    let u0 := usable s bank 1 p0
    let u1 := bitAt row 30 && usable s bank 1 p1
    if u0 && u1 then some (if fhash % 2 = 0 then p0 else p1)
    else if u0 then some p0 else if u1 then some p1 else none

/-- A minimal output: the port, and the gateway member that it leads to. -/
structure MinOut where
  port : Nat
  gateway : Option Nat := none
deriving DecidableEq, Repr

/-- The minimal output to a group other than the own (R151, R152). -/
def minimalTo (s : State) (bank t fhash : Nat) : Option MinOut :=
  let row := groupRow s bank t
  if !bitAt row 63 ∨ bitAt row 62 then none
  else
    match pickMod ((dirPorts row).filter (usable s bank 2)) fhash with
    | some p => some { port := p }
    | none =>
      let gws := (gwMembers row).filter fun m => (memberPort s bank m fhash).isSome
      (pickMod gws (fhash / 256)).bind fun m => (memberPort s bank m fhash).map fun p => { port := p, gateway := some m }

/-- The output of a packet towards another node by its own header, once NMIN and INTG are set (R151). -/
def routeOut (s : State) (h : Packet) : Option Nat :=
  let t := if h.nmin ∧ myGroup s = groupOf h.sfna then h.intg else groupOf h.dfna
  if t = myGroup s then memberPort s h.epoch (memberOf h.dfna) h.fhash
  else (minimalTo s h.epoch t h.fhash).map (·.port)

/-! ### Levels and hints (R158 to R160) -/

/-- The level of one of the router's own ports (R158). -/
def portLevel (s : State) (p : Nat) : Nat := min 15 (outTotal s p / max 1 (s.reg Dict.ROUTE_LEVEL_STEP))

/-- The age of a hint (R160). -/
def hintAge (count stamp : Nat) : Nat := modSub 1024 count stamp

/-- The level that a hint gives for a gateway of a group (R160). -/
def hintLevel (s : State) (group member : Nat) : Nat :=
  match (tget [] s.sw.hints group).find? fun h => h.member = member with
  | some h => if hintAge s.time.count h.stamp ≤ s.reg Dict.ROUTE_HINT_MAX_AGE_ST then h.level else 0
  | none => 0

/-- The hint that gives way when four are held: the one of greatest age, a tie going to the lowest member (R160). -/
def oldestHint (count : Nat) (l : List Hint) : Option Hint :=
  l.foldl (fun best h =>
    match best with
    | none => some h
    | some b =>
      if hintAge count b.stamp < hintAge count h.stamp ∨ (hintAge count b.stamp = hintAge count h.stamp ∧ h.member < b.member) then some h
      else best) none

/-- A hint is taken among those of its group (R160). -/
def putHint (count : Nat) (l : List Hint) (h : Hint) : List Hint :=
  if l.any fun x => x.member = h.member then l.map fun x => if x.member = h.member then h else x
  else if l.length < 4 then l ++ [h]
  else match oldestHint count l with
    | some o => l.map fun x => if x = o then h else x
    | none => [h]

/-- A record of a CONG_HINT (R160). -/
def hintIn (s : State) (p : Nat) (r : HintRec) : State :=
  let h : Hint := { member := memberOf r.origin, level := r.level, stamp := r.stamp }
  (s.updSw fun w => { w with hints := tupd [] w.hints r.toGroup fun l => putHint s.time.count l h }).count 0x28A p

/-- The task that gathers the hints of a port's bench has overrun in three consecutive stitches: what it published last stands (R39, R40). -/
def hintFrozen (s : State) (p : Nat) : Bool := decide (3 ≤ tget 0 s.exe.runs (if p < 48 then 3 else 4))

/-- The level of a Global port that its task has gathered, and the stitch of its measurement; none when a task that overruns never gathered
one (R40, R159). -/
def hintNow (s : State) (p : Nat) : Option HintSent :=
  if hintFrozen s p then (tget none s.sw.hintSent p).map fun h => { h with at' := s.time.count }
  else some { level := portLevel s p, at' := s.time.count, meas := s.time.count }

/-- A level is to be published: never sent, moved by 2 or more, or sent ROUTE_HINT_PERIOD_ST stitches ago (R159). The first component says
that it has moved. -/
def hintDue (s : State) (p : Nat) : Bool × Bool :=
  match tget none s.sw.hintSent p, hintNow s p with
  | none, n => (n.isSome, n.isSome)
  | _, none => (false, false)
  | some h, some l =>
    let moved := decide (h.level + 2 ≤ l.level) || decide (l.level + 2 ≤ h.level)
    (moved, moved || decide (h.at' + s.reg Dict.ROUTE_HINT_PERIOD_ST ≤ s.time.count))

/-- The Global ports whose levels are sent in this stitch, changed ones first, at most 28 (R118, R159, R174). -/
def hintPorts (s : State) : List Nat :=
  let bank := s.reg Dict.ROUTE_BANK
  let due := fabricPorts.filter fun p => usable s bank 2 p && (hintDue s p).2
  ((due.filter fun p => (hintDue s p).1) ++ due.filter fun p => !(hintDue s p).1).take 28

/-- The record of a Global port's level (R159). -/
def hintRecord (s : State) (p : Nat) : HintRec :=
  let h := (hintNow s p).getD {}
  { origin := s.reg Dict.ID_FNA, toGroup := partnerGroup s p, level := h.level, stamp := h.meas % 1024 }

/-- A list cut into pieces of seven. -/
def cutSeven {α : Type} (l : List α) : Nat → List (List α)
  | 0 => []
  | n + 1 => if l.isEmpty then [] else l.take 7 :: cutSeven (l.drop 7) n

/-- The levels due are published on every usable Local port (R159). -/
def publishHints (s : State) : State :=
  let ports := hintPorts s
  if ports.isEmpty then s
  else
    let recs := ports.map fun p => packHint (hintRecord s p)
    let s1 := forEach s (fabricPorts.filter (usable s (s.reg Dict.ROUTE_BANK) 1)) fun s p =>
      (s.updLink p fun l => { l with ctlQ := l.ctlQ ++ (cutSeven recs 4).map fun r => { ctl := 0x86, body := packRecords 4 r } }).count 0x289 p
        recs.length
    s1.updSw fun w =>
      { w with hintSent := ports.foldl (fun t p => tset none t p (hintNow s p)) w.hintSent }

/-! ### The choice of the path (R157, R158, R161, R162) -/

/-- The candidate of a decision: one of the router's own usable Global ports that leads neither to the destination's nor to the source's
group (R158). -/
def candidate (s : State) (bank : Nat) (h : Packet) (n : Nat) : Option Nat :=
  pickMod (fabricPorts.filter fun p =>
    usable s bank 2 p && partnerGroup s p ≠ groupOf h.dfna && partnerGroup s p ≠ groupOf h.sfna) (h.fhash + n)

/-- The cost rule: the candidate's port when it wins, or when no minimal output is usable; none for the minimal path (R158). -/
def freshChoice (s : State) (bank : Nat) (h : Packet) (m : Option MinOut) (n : Nat) : Option Nat :=
  match candidate s bank h n, m with
  | none, _ => none
  | some c, none => some c
  | some c, some o =>
    let wMin := portLevel s o.port + o.gateway.elim 0 (hintLevel s (groupOf h.dfna))
    if 2 * portLevel s c + s.reg Dict.ROUTE_NMIN_BIAS < wMin then some c else none

/-- What a decision came to: the output, whether it is non-minimal by this decision, and the flowlet entry to be stored. -/
structure Decision where
  out : Option Nat
  nonMin : Bool := false
  flow : Option Flowlet := none
deriving DecidableEq, Repr

/-- A choice with its output: the candidate's port, or the minimal one. -/
def Decision.of (m : Option MinOut) (c : Option Nat) (flow : Option Flowlet) : Decision :=
  match c with
  | some p => { out := some p, nonMin := true, flow := flow }
  | none => { out := m.map (·.port), flow := flow }

/-- A decision through the flowlet table (R161). n counts the fresh decisions of the entry, the present one among them. -/
def flowletChoice (s : State) (bank : Nat) (h : Packet) (m : Option MinOut) (e : Flowlet) : Decision :=
  let g := groupOf h.dfna
  let now := s.time.count
  let fresh (e : Flowlet) : Decision :=
    let c := freshChoice s bank h m (e.n + 1)
    .of m c (some { used := true, group := g, via := c, lastUse := now, n := e.n + 1 })
  if !e.used ∨ e.lastUse + s.reg Dict.ROUTE_FLOWLET_GAP_ST + 1 ≤ now then fresh e
  else if e.group = g then
    (match e.via with
     | some p => if usable s bank 2 p then .of m (some p) (some { e with lastUse := now }) else fresh e
     | none => if m.isSome then .of m none (some { e with lastUse := now }) else fresh e)
  else .of m (if m.isSome then none else candidate s bank h e.n) (some { e with lastUse := now })

/-- The place of a packet's flowlet entry (R161). -/
def flowletKey (k : SwPkt) : Nat := 8192 * benchOf k.inPort + k.hdr.fhash % 8192

/-- The traffic classes of R141. -/
inductive TClass where
  | request | collective | response | management | reserved
deriving DecidableEq, Repr

/-- The class of an opcode (R141). -/
def classOf (opc : Nat) : TClass :=
  if opc ≤ 0x5F then .request
  else if opc ≤ 0x6F then .collective
  else if opc < 0x80 then .reserved
  else if opc ≤ 0xDF then .response
  else if 0xF0 ≤ opc ∧ opc ≤ 0xF7 then .management else .reserved

/-- The class is routed by the path rules of R157. -/
def TClass.decides : TClass → Bool
  | .request | .response => true
  | _ => false

/-- The decision for a unicast packet that is not for this node (R151, R157, R158, R161, R162). -/
def choosePath (s : State) (k : SwPkt) : Decision :=
  let h := k.hdr
  let bank := h.epoch
  let g := groupOf h.dfna
  let e := tget {} s.sw.flowlets (flowletKey k)
  let free := !h.ord && s.reg Dict.ROUTE_NMIN_ENABLE = 1
  let gateway := !k.own && !h.nmin && !h.ord && roleOf s bank k.inPort = 1 && groupOf h.sfna = myGroup s
  if h.nmin ∨ !(classOf h.opc).decides ∨ !(k.own || gateway) then { out := routeOut s h }
  else if g = myGroup s then
    let m := memberPort s bank (memberOf h.dfna) h.fhash
    if m.isNone ∧ k.own ∧ free then
      match candidate s bank h (e.n + 1) with
      | some p => { out := some p, nonMin := true }
      | none => { out := none }
    else { out := m }
  else
    let m := minimalTo s bank g h.fhash
    if !free then { out := m.map (·.port) }
    else if k.own ∧ k.retx then .of m (candidate s bank h (e.n + 1)) none
    else if k.own ∨ s.reg Dict.ROUTE_REEVAL_ENABLE = 1 then flowletChoice s bank h m e
    else .of m (if m.isSome then none else candidate s bank h (e.n + 1)) none

/-! ### Bank switch (R169, R172) -/

/-- A bank switch at this boundary; naming the bank in force is none (R169). The roles are compared again (R147). -/
def bankSwitch (s : State) (bank : Nat) : State :=
  if s.reg Dict.ROUTE_BANK = bank then s
  else
    let s1 := (s.setReg Dict.ROUTE_BANK 0 bank).updSw fun w =>
      { w with switchAt := s.time.count, writableAt := s.time.count + 1024, drained := false, switched := true }
    (forEach s1 fabricPorts fun s p =>
      match (s.link p).st with
      | .quarantine | .admitted | .hold => roleChecks s p
      | _ => s).fire 118

/-! ### Writes of range 0x0500 -/

/-- A row of a bank's tables may be written: of the injection bank only while no port is Admitted, of the other from
ROUTE_BANK_WRITABLE_AT on (R148). -/
def bankOpen (s : State) (bank : Nat) : Bool :=
  if s.reg Dict.ROUTE_BANK = bank then fabricPorts.all fun p => (s.link p).st ≠ .admitted
  else decide (s.sw.writableAt ≤ s.time.count)

/-- A row of a group table is judged (R149). -/
def groupRowBad (v : Nat) : Bool :=
  4 < fld v 61 59 || 4 < fld v 58 56 || (bitAt v 62 && (fld v 61 59 ≠ 0 || fld v 58 56 ≠ 0)) ||
  (List.range 4).any fun i => 95 < fld v (55 - 7 * i) (49 - 7 * i)

/-- The valid rows of a member table, the router's own member apart (R146). -/
def validMembers (s : State) (row : Nat → Nat) : Nat :=
  sumOf (List.range 64) fun m => if m ≠ myMember s then b2n (bitAt (row m) 31) else 0

/-- The ports in role Global of a bank's role table. -/
def globalPorts (role : Nat → Nat) : Nat := sumOf fabricPorts fun p => b2n (role p = 2)

/-- The bound on the hint records of a stitch is broken (R175). -/
def hintsTooMany (globals period : Nat) : Bool := decide (24 * period < globals)

/-- A row of a role table is applied: a mismatch of that bank is judged afresh (R147). -/
def applyRole (s : State) (bank p v : Nat) : State :=
  let s1 := (s.setReg (roleObj bank) p v).updIn p fun x => { x with mismatch := clearBits x.mismatch (2 ^ bank) }
  match (s1.link p).st with
  | .quarantine | .admitted | .hold => roleCheck s1 bank p
  | _ => s1

/-- The values of the routing objects that are not stored writes (R175). -/
def routeView (s : State) (id : Nat) : Option Nat :=
  match id with
  | 0x050001 => some s.sw.switchAt
  | 0x050002 => some s.sw.writableAt
  | _ => none

/-! ### Commands -/

/-- CONG_HINT_RECEIVE (R160). -/
def execCongHintReceive (port : Nat) (records : List HintRec) (s : State) : Host.Outcome State Fault Refusal :=
  onPort port (forEach s records fun s r => hintIn s port r)

/-- ROUTE_BANK_WRITE: the boundary that applies a write to ROUTE_BANK (R169). -/
def execRouteBankWrite (value : Nat) (s : State) : Host.Outcome State Fault Refusal := judged s (boolCheck value) (bankSwitch s value)

/-- BANK_DRAIN_HORIZON: ROUTE_BANK_WRITABLE_AT is reached (R172, R177). -/
def execBankDrainHorizon (s : State) : Host.Outcome State Fault Refusal :=
  .next (if s.sw.switched ∧ !s.sw.drained ∧ s.sw.writableAt ≤ s.time.count then (s.updSw fun w => { w with drained := true }).fire 119 else s)

end Sys2Proof.Machine
end

