-- ==== Sys2Proof/Machine/Switch.lean ====
section
/-!
DEFINITION. The switch core (R143, R151 to R156, R164 to R173, R178 to R201): injection, lookup, multicast and the anchored store, grants,
crossing, and delivery to the host side.
-/
namespace Sys2Proof.Machine

/-! ### Injection (R143, R164, R166, R168, R195, R196) -/

/-- The flow hash from the addresses: bits 15:0 of the CRC-32C over SEP, DEP and DFNA (R143). -/
def flowHash (p : Packet) : Nat := crc32c (bytesBE p.sep 2 ++ bytesBE p.dep 2 ++ bytesBE p.dfna 4) % 65536

/-- The endpoint is selected for merendo ordering (R164). -/
def merendo (s : State) (ep : Nat) : Bool := bitAt (s.reg Dict.ROUTE_MERENDO_EP (ep / 32)) (ep % 32)

/-- The header that the source writes at injection; EPOCH, AGE, TAG, the path and the ICRC follow at lookup (R143, R164). -/
def injectHeader (s : State) (i : InjPkt) : Packet :=
  let p := i.pkt
  let m := merendo s p.sep && classOf p.opc ≠ .management
  let h := if m then 0 else if i.label ≠ 0 then i.label % 65536 else flowHash p
  { p with
    hv := 1, pcls := if i.ctl then 0 else 1, ce := false, nmin := false, intg := 0
    sfna := i.sfna.getD (s.reg Dict.ID_FNA), ord := p.ord || m
    fhash := if i.ctl then foldHash h * 257 else h
    epoch := s.reg Dict.ROUTE_BANK }

/-- The output that a packet waiting for injection would take now. -/
def expectedOut (s : State) (h : Packet) (inPort : Nat) (retx : Bool) : Option Nat :=
  if h.dfna = s.reg Dict.ID_FNA ∨ h.mc then none
  else (choosePath s { inPort := inPort, own := true, hdr := h, retx := retx }).out

/-- The output of a packet that waits is throttled (R168). -/
def throttledFor (s : State) (port : Nat) (i : InjPkt) : Bool :=
  match expectedOut s (injectHeader s i) port i.retx with
  | some o => (s.outPort o).throttled
  | none => false

/-- The first ORD packet of a peer context under a new bank waits while packets of the context injected under the old one are not acknowledged,
unless its path is the same in both banks, as far as this router's output shows (R166). -/
def ordHeld (s : State) (port : Nat) (i : InjPkt) : Bool :=
  match i.ctx with
  | none => false
  | some c =>
    let h := injectHeader s i
    let old := tget 0 s.sw.ordBank c
    h.ord && old ≠ 0 && old ≠ h.epoch + 1 && expectedOut s h port i.retx ≠ expectedOut s { h with epoch := old - 1 } port i.retx

/-- A packet that waits may start as far as its output and its order go. -/
def mayStart (s : State) (port : Nat) (i : InjPkt) : Bool := !throttledFor s port i && !ordHeld s port i

/-- The shaper lets a group start a packet (R196). -/
def shaperOpen (s : State) (g : Nat) : Bool :=
  fld (s.reg Dict.SW_INJ_GROUP g) 95 64 = 0 || decide (0 ≤ (tget {} s.sw.groups g).tokens)

/-- The charge of a packet (R193). -/
def drrCharge (s : State) (p : Packet) : Nat := chargeOf p + s.reg Dict.SW_DRR_OVERHEAD

/-- What a deficit-round-robin visit sees of one of its members: whether it has a packet waiting, and the charge of the packet that it could
start now (R193, R195). -/
structure DrrView where
  waiting : Bool := false
  charge : Option Nat := none
deriving DecidableEq, Repr

/-- The next member after one, over n members. -/
def Drr.move (d : Drr) (n : Nat) : Drr := { d with now := (d.now + 1) % n, fresh := true }

/-- The state of a member's deficit. -/
def Drr.setDeficit (d : Drr) (v x : Nat) : Drr := { d with deficit := tset 0 d.deficit v x }

/-- One step of a visit: the scheduler after it, and the member that it grants (R193). -/
def drrStep (d : Drr) (n quantum : Nat) (view : DrrView) : Drr × Bool :=
  if !view.waiting then ((d.setDeficit d.now 0).move n, false)
  else
    match view.charge with
    | none => (d.move n, false)
    | some c =>
      let have' := tget 0 d.deficit d.now + (if d.fresh then quantum else 0)
      if c ≤ have' then ({ d.setDeficit d.now (have' - c) with fresh := false }, true)
      else ((d.setDeficit d.now have').move n, false)

/-- The visits up to the next grant: the scheduler, the member granted, and how many visits began (R193, R212). -/
def drrRun (n : Nat) (quantum : Nat → Nat) (view : Nat → DrrView) (d : Drr) (visits : Nat) : Nat → Drr × Option Nat × Nat
  | 0 => (d, none, visits)
  | fuel + 1 =>
    let v := d.now
    let r := drrStep d n (quantum v) (view v)
    let visits' := if d.fresh then visits + 1 else visits
    if r.2 then (r.1, some v, visits') else drrRun n quantum view r.1 visits' fuel

/-- The first packet of a group at a port that may start. -/
def groupHead (s : State) (port g : Nat) : Option InjPkt :=
  (tget [] s.sw.inject port).find? fun i => i.group = some g && mayStart s port i

/-- What the host port's scheduler sees of a group (R195). -/
def groupView (s : State) (port g : Nat) : DrrView :=
  { waiting := groupWaits (tget [] s.sw.inject port) g
    charge := if shaperOpen s g then (groupHead s port g).map fun i => drrCharge s i.pkt else none }

/-- The quantum of a group (R198). -/
def groupQuantum (s : State) (g : Nat) : Nat := fld (s.reg Dict.SW_INJ_GROUP g) 111 96

/-- The groups that wait at a port and that their shapers hold back (R212). -/
def shaperHeld (s : State) (port : Nat) : List Nat :=
  ((tget [] s.sw.inject port).filterMap (·.group)).filter fun g => !shaperOpen s g

/-- The flits that a host port moves per stitch in one direction (R38, R245). -/
def hostRate (s : State) : Nat := if s.host.units < 8 then 40 * s.host.units else 320

/-- The charge of a host port: direction 0 in, 1 out. -/
def hpKey (port dir : Nat) : Nat := 2 * (port - 96) + dir

/-- A host port has room in this stitch. -/
def hpOpen (s : State) (port dir : Nat) : Bool := 100 ≤ port || decide (tget 0 s.host.hpCharge (hpKey port dir) < hostRate s)

/-- Flits charged to a host port. -/
def hpUse (s : State) (port dir n : Nat) : State :=
  if 100 ≤ port then s
  else { s with host := { s.host with hpCharge := tupd 0 s.host.hpCharge (hpKey port dir) (· + n) } }

/-- The flits injected by the host ports for an output and not yet forwarded (R168). -/
def injectedFor (s : State) (o : Nat) : Nat :=
  sumOf s.sw.pkts fun k => if k.own ∧ 96 ≤ k.inPort ∧ k.inPort < 100 then
    sumOf k.copies fun c => if c.out = o then k.flits.length - c.sent else 0 else 0

/-- An output is throttled above ROUTE_INJ_HIGH and released below ROUTE_INJ_LOW (R168, R177). -/
def judgeThrottle (s : State) (o : Nat) : State :=
  let n := injectedFor s o
  let was := (s.outPort o).throttled
  if !was ∧ s.reg Dict.ROUTE_INJ_HIGH < n then (s.updOut o fun x => { x with throttled := true }).fire 124
  else if was ∧ n < s.reg Dict.ROUTE_INJ_LOW then s.updOut o fun x => { x with throttled := false }
  else s

/-- One element of a list is removed: the first equal to it. -/
def removeFirst {α : Type} [DecidableEq α] (l : List α) (x : α) : List α := l.erase x

/-- A packet enters the crossbar from an internal port (R143, R187, R196). A packet of which a host read was poisoned is discarded whole, since no
flit of it has left. -/
def startInject (s : State) (port : Nat) (i : InjPkt) : State :=
  let h := injectHeader s i
  let groups := match i.group with
    | some g =>
      if fld (s.reg Dict.SW_INJ_GROUP g) 95 64 = 0 then s.sw.groups
      else tupd {} s.sw.groups g fun x => { x with tokens := x.tokens - 1024 * (drrCharge s i.pkt : Int) }
    | none => s.sw.groups
  let s1 := s.updSw fun w => { w with inject := tupd [] w.inject port fun l => removeFirst l i, groups := groups }
  if i.poisoned then (s1.raise 0x0607).event Dict.SW_BENCH_EVENTS 12 8
  else
    let s2 := match i.ctx with
      | some c => s1.updSw fun w => { w with ordBank := tset 0 w.ordBank c (h.epoch + 1) }
      | none => s1
    hpUse (holdOwn s2 port h i.group i.retx i.back) port 0 (flitCount h)

/-- PACKET_INJECT: an internal port injects its next packet: a host port by its groups' turns, CP and SP in order (R143, R185,
R195). -/
def injectNext (s : State) (port : Nat) : State :=
  let l := tget [] s.sw.inject port
  if !hpOpen s port 0 then s
  else
    match l.find? fun i => i.group.isNone && mayStart s port i with
    | some i => startInject s port i
    | none =>
      let s1 := forEach s (shaperHeld s port) fun s g =>
        s.updSw fun w => { w with groups := tupd {} w.groups g fun x => { x with held := true } }
      let open' := (l.filterMap (·.group)).any fun g => (groupView s1 port g).charge.isSome
      if !open' then s1
      else
        let r := drrRun 1024 (groupQuantum s1) (groupView s1 port) (tget {} s1.sw.hpDrr port) 0 70000
        let s2 := s1.updSw fun w => { w with hpDrr := tset {} w.hpDrr port r.1 }
        match r.2.1.bind fun g => groupHead s2 port g with
        | some i => startInject s2 port i
        | none => s2

/-! ### Header checks (R141, R145, R170, R173) -/

/-- The VCs of a class, given MC (R141). -/
def vcFits (h : Packet) (vc : Nat) : Bool :=
  match classOf h.opc with
  | .request => if h.mc then vc = 7 else decide (vc ≤ 2)
  | .collective => vc = 7
  | .response => !h.mc && decide (4 ≤ vc) && decide (vc ≤ 6)
  | .management => !h.mc && vc = 3
  | .reserved => false

/-- The class may be carried at all: MC goes with requests and collectives only (R141). -/
def classFits (h : Packet) : Bool :=
  match classOf h.opc with
  | .request | .collective => true
  | .response | .management => !h.mc
  | .reserved => false

/-- An address that holds a reserved group or member (R145). -/
def reservedAddr (fna : Nat) : Bool := groupOf fna = 0xFFF || memberOf fna = 0x3F

/-- LEN or OHLEN breaks R138 or R139. -/
def lengthBad (h : Packet) : Bool :=
  if isCtl h then decide (44 < h.len)
  else decide (4 < h.oph.length) || decide (4096 < h.len) || decide (4140 < 36 + 8 * h.oph.length + h.len)

/-- The router has no FNA (R156). -/
def noFna (s : State) : Bool := s.reg Dict.ID_FNA = 0x3FFFF

/-- A management request that a router without an FNA takes for its own (R156). -/
def adopted (s : State) (h : Packet) : Bool := noFna s && h.opc = 0xF0 && h.dep = 0xFFFF

/-- The header is malformed (R173), the misrouted case apart. -/
def headerBad (s : State) (k : SwPkt) : Bool :=
  let h := k.hdr
  h.hv ≠ 1 || h.pcls = 3 || (!k.own && h.vc ≠ k.inVc) || !classFits h || (!k.own && !vcFits h k.inVc) || lengthBad h ||
  (if h.mc then fld h.dfna 17 14 ≠ 0 else reservedAddr h.dfna && !adopted s h) || reservedAddr h.sfna

/-- A packet with NMIN = 0 arrived on a Global port at a router outside its destination group (R173). -/
def misrouted (s : State) (k : SwPkt) : Bool :=
  !k.own && !k.hdr.mc && !k.hdr.nmin && roleOf s k.hdr.epoch k.inPort = 2 &&
  groupOf k.hdr.dfna ≠ myGroup s && !adopted s k.hdr

/-- The age of a held packet (R170). -/
def ageOf (k : SwPkt) (count : Nat) : Nat := k.ageAt + (count - k.lookAt)

/-! ### Stages (R153) -/

/-- The first VC of a class. -/
def classBase (h : Packet) : Nat := if classOf h.opc = .response then 4 else 0

/-- The stage at which a packet leaves this router. -/
def stageOut (s : State) (k : SwPkt) : Nat :=
  if k.own then 0 else (k.inVc - classBase k.hdr) + (if roleOf s k.hdr.epoch k.inPort = 2 then 1 else 0)

/-- The VC of a packet on its next link. -/
def vcOut (s : State) (k : SwPkt) : Nat :=
  if k.hdr.mc then 7
  else match classOf k.hdr.opc with
    | .management => 3
    | .collective => 7
    | _ => classBase k.hdr + stageOut s k

/-- The link would break the order of stages. -/
def stageBad (s : State) (k : SwPkt) (o : Nat) : Bool :=
  let role := roleOf s k.hdr.epoch o
  (classOf k.hdr.opc).decides && decide (o < 96) &&
  ((role = 1 && decide (2 < stageOut s k)) || (role = 2 && decide (1 < stageOut s k)) ||
   (role = 1 && !k.own && roleOf s k.hdr.epoch k.inPort = 1))

/-! ### Multicast (R199 to R202) -/

/-- The row of a multicast packet's group. -/
def mcRow (s : State) (h : Packet) : Nat := s.reg Dict.SW_MC_TABLE (h.dfna % 16384)

/-- The copy set of a multicast packet (R199, R200). -/
def copySet (s : State) (k : SwPkt) : List Nat :=
  let row := mcRow s k.hdr
  let host := 96 + k.hdr.dep % 4
  (fabricPorts.filter fun p => bitAt row p && p ≠ k.inPort && roleOf s k.hdr.epoch p ≠ 0 && portServes (s.link p)) ++
  (if bitAt row 96 ∧ !(96 ≤ k.inPort && k.inPort < 100) then [host] else []) ++
  (if bitAt row 97 ∧ k.inPort ≠ 100 then [100] else [])

/-- The group is anchored (R201, R202). -/
def isAnchored (s : State) (g : Nat) : Bool :=
  (List.range 64).any fun r => let v := s.reg Dict.SW_ANCHOR_TABLE r; bitAt v 31 && fld v 13 0 = g

/-- SW_ANCHOR_FREE: the free flits of the anchored store (R201, R210). -/
def anchorFree (s : State) : Nat := 524288 - sumOf s.sw.pkts fun k => if k.anchored then k.total else 0

/-- The places taken in an output's pointer queue (R201). -/
def pointersOn (s : State) (o : Nat) : Nat :=
  sumOf s.sw.pkts fun k => if k.anchored then sumOf k.copies fun c => b2n (c.out = o) else 0

/-! ### Lookup (R151 to R173) -/

/-- The output of a unicast packet for this node (R189, R232). -/
def hostOut (s : State) (h : Packet) : Nat :=
  if h.dep = 0xFFFF then 101
  else if classOf h.opc = .collective then 100
  else if h.opc = 0x5E then
    (((List.range 4096).find? fun r =>
      let row := s.reg Dict.LAST_RING r
      bitAt row 127 && bitAt row 126 && fld row 113 98 = h.dep && fld row 97 74 = fld (h.oph.getD 0 0) 63 40).map fun r =>
        96 + fld (s.reg Dict.LAST_RING r) 125 124).getD (96 + h.dep % 4)
  else 96 + h.dep % 4

/-- The header of a packet of this router's own making at its first lookup: EPOCH, AGE, TAG and ICRC (R143, R144, R526). -/
def stampOwn (s : State) (k : SwPkt) : State :=
  let kv := s.reg Dict.TRACE_K (k.inPort - 96)
  let sample := decide (96 ≤ k.inPort) && decide (k.inPort < 100) && decide (4 ≤ kv)
  let r := lfsrSample s.mon.cnt.lfsr (k.inPort - 96) kv
  let tag := sample && r.2
  let s1 : State := if sample then { s with mon := { s.mon with cnt := { s.mon.cnt with lfsr := r.1 } } } else s
  let s2 := if tag then s1.count 0x902 else s1
  let h0 := { k.hdr with epoch := s.reg Dict.ROUTE_BANK, age := s.time.count % 1024, tag := tag }
  let h := { h0 with icrc := icrcOf h0 }
  s2.updPkt k.id fun k => { k with hdr := h, flits := packetBodies h, ageAt := 0, lookAt := s.time.count }

/-- What a lookup found: the outputs, the decision for the cupping record (R204), and the state. -/
structure Looked where
  st : State
  outs : List Nat := []
  decision : Nat := 0

/-- A packet is discarded at its lookup with an event and a fault of its port (R152, R170, R173). -/
def lookupDrop (s : State) (k : SwPkt) (ev code source : Nat) : Looked :=
  let s1 := ((dropPkt s k.id).count ev k.inPort).raise code 1 k.inPort
  { st := if source = 0 then s1 else s1.fire source }

/-- A packet is unreachable (R152). -/
def unreachable (s : State) (k : SwPkt) : Looked := lookupDrop s k 0x286 0x0502 120

/-- A multicast packet at its lookup: its copies, or its wait for the anchored store (R200, R201). -/
def lookupMc (s : State) (k : SwPkt) : Looked :=
  let row := mcRow s k.hdr
  if !bitAt row 127 then
    { st := benchEvent (((dropPkt s k.id).count 0x304 k.inPort).raise 0x0604 1 k.inPort) k.inPort 3, decision := 3 }
  else if isAnchored s (k.hdr.dfna % 16384) then
    { st := s.updPkt k.id fun k => { k with stallAt := some s.time.count, stallLogged := false }, outs := copySet s k, decision := 3 }
  else if (copySet s k).isEmpty then { st := (dropPkt s k.id).count 0x304 k.inPort, decision := 3 }
  else { st := s, outs := copySet s k, decision := 3 }

/-- A unicast packet for another node at its lookup (R151 to R158). -/
def lookupRoute (s : State) (k : SwPkt) : Looked :=
  let d := choosePath s k
  let s1 := match d.flow with
    | some e => s.updSw fun w => { w with flowlets := tset {} w.flowlets (flowletKey k) e }
    | none => s
  match d.out with
  | none =>
    (match k.back with
     | some p => if k.own && k.hdr.opc = 0xF1 && decide (p < 96) && carriesVc3 (s.link p) then { st := s1, outs := [p] } else unreachable s1 k
     | none => unreachable s1 k)
  | some o =>
    let decides := (classOf k.hdr.opc).decides && groupOf k.hdr.dfna ≠ myGroup s
    let s2 := if d.nonMin then s1.count (if k.own then 0x282 else 0x283) k.inPort
      else if k.own ∧ decides then s1.count 0x281 k.inPort else s1
    let s3 := if d.nonMin then s2.updPkt k.id fun k => { k with hdr := { k.hdr with nmin := true, intg := partnerGroup s o } } else s2
    if stageBad s3 k o then lookupDrop s3 k 0x287 0x0503 122
    else { st := s3, outs := [o], decision := if d.nonMin then (if k.own then 1 else 2) else 0 }

/-- The checks and the route of a packet (R144, R151, R156, R170, R173). -/
def lookupKind (s : State) (k : SwPkt) : Looked :=
  let h := k.hdr
  if headerBad s k then lookupDrop s k 0x287 0x0501 0
  else if misrouted s k then lookupDrop s k 0x287 0x0501 122
  else if 640 < ageOf k s.time.count then lookupDrop s k 0x285 0x0504 121
  else if adopted s h then { st := s, outs := [101], decision := 3 }
  else if noFna s ∧ !(k.own && h.opc = 0xF1) then unreachable s k
  else if h.mc then lookupMc s k
  else if h.dfna = s.reg Dict.ID_FNA ∧ !noFna s then { st := s, outs := [hostOut s h], decision := 3 }
  else lookupRoute s k

/-- The metadata of a cupping record, without PHASEBIT, DROPPED and SEQ (R204). The phase is not known to the model. -/
def cupMeta0 (s : State) (k : SwPkt) (out vc decision : Nat) (ce : Bool) : Nat :=
  put s.time.count 255 192 + put (s.free % 65536) 191 176 + put (s.reg Dict.ID_FNA) 175 158 + put k.inPort 157 151 + put out 150 144 +
  put k.inVc 143 141 + put vc 140 138 + put decision 137 136 + put (b2n ce) 135 135 + put (inDepth s k.inPort k.inVc) 127 112 +
  put (outDepth s out vc) 111 96 + put (outTotal s out) 95 80

/-- A header on a fabric port is sampled (R203). -/
def cupSample (s : State) (k : SwPkt) (out vc decision : Nat) (ce : Bool) : State :=
  let kv := s.reg Dict.CUP_K k.inPort
  if k.inPort < 96 ∧ 4 ≤ kv then
    let r := lfsrSample s.sw.cup.lfsr k.inPort kv
    let s1 := s.updCup fun c => { c with lfsr := r.1 }
    if r.2 then cupRecord s1.took (fld (k.flits.getD 0 0) 479 224) (cupMeta0 s k out vc decision ce) else s1
  else s

/-- The copies of a looked-up packet enter their outputs' queues, with CE where an output's VC is congested (R167). -/
def placeCopies (s : State) (k : SwPkt) (l : Looked) : State :=
  let vc := vcOut s k
  let ce := !k.hdr.ce && l.outs.any fun o => decide (s.reg Dict.ROUTE_CE_THRESHOLD < outDepth s o vc)
  let s1 := if ce then s.count 0x284 k.inPort else s
  let s2 := s1.updPkt k.id fun k =>
    { k with
      looked := true, requeued := false
      hdr := { k.hdr with ce := k.hdr.ce || ce }
      copies := if k.stallAt.isSome then [] else l.outs.map fun o => { out := o, vc := vc, movedAt := s.time.count }
      tOut := l.outs.headD 127, tVc := vc }
  stamp (cupSample s2 k (l.outs.headD 127) vc l.decision ce) k.id 1

/-- A packet is looked up. -/
def lookup (s : State) (id : Nat) : State :=
  match s.pkt? id with
  | none => s
  | some k0 =>
    let s1 := s.count 0x280 k0.inPort
    let s2 := if k0.requeued then s1
      else if k0.own then stampOwn s1 k0
      else s1.updPkt id fun k => { k with ageAt := modSub 1024 s.time.count k.hdr.age, lookAt := s.time.count }
    match s2.pkt? id with
    | none => s2
    | some k =>
      let s3 := if k.hdr.epoch ≠ s.reg Dict.ROUTE_BANK then s2.count 0x28C k.inPort else s2
      let l := lookupKind s3 k
      match l.st.pkt? id with
      | some k1 =>
        if l.outs.isEmpty ∧ k1.stallAt.isNone then cupSample l.st k 127 0 l.decision false
        else
          let s4 := placeCopies l.st k1 l
          if k1.own then l.outs.foldl judgeThrottle s4 else s4
      | none => cupSample l.st k 127 0 l.decision false

/-- The next packet of a port for the lookup: newly arrived ones first, then those requeued (R182). -/
def nextLookup (s : State) (p : Nat) : Option SwPkt :=
  match s.sw.pkts.find? fun k => k.inPort = p && !k.looked && !k.requeued with
  | some k => some k
  | none => s.sw.pkts.find? fun k => k.inPort = p && !k.looked && k.requeued

/-! ### Crossing (R180, R181) -/

/-- The lanes of a port (R178). -/
def lanesOf (p : Nat) : Nat := if 96 ≤ p ∧ p ≤ 100 then 3 else 1

/-- The staging buffer of an output (R181). -/
def stagingOf (o : Nat) : Nat := if o < 96 then 32 else 96

/-- The flits that stand in an output's staging buffer. -/
def staged (s : State) (o : Nat) : Nat :=
  sumOf s.sw.pkts fun k => sumOf k.copies fun c => if c.out = o then c.crossed - c.sent else 0

/-- The copy of a packet for an output. -/
def SwPkt.copyTo (k : SwPkt) (o : Nat) : Option Copy := k.copies.find? fun c => c.out = o

/-- The copy of a packet for an output changed. -/
def SwPkt.updCopy (k : SwPkt) (o : Nat) (f : Copy → Copy) : SwPkt :=
  { k with copies := k.copies.map fun c => if c.out = o then f c else c }

/-- A copy has wholly crossed. -/
def crossedAll (k : SwPkt) (c : Copy) : Bool := k.eop && decide (k.flits.length ≤ c.crossed)

/-- The flits of a granted packet cross as far as they have arrived and the staging buffer has room. -/
def crossPkt (s : State) (o id : Nat) : State :=
  match s.pkt? id with
  | none => s
  | some k =>
    match k.copyTo o with
    | none => s
    | some c =>
      let n := min (k.flits.length - c.crossed) (stagingOf o - staged s o)
      if n = 0 then s
      else
        let s1 := (s.updPkt id fun k => k.updCopy o fun c => { c with crossed := c.crossed + n, movedAt := s.time.count }).count 0x300 o n
        settle (stamp s1 id 3) id

/-- The packets granted to an output cross, in the order of their grants. -/
def crossOut (s : State) (o : Nat) : State := forEach s (s.outPort o).order fun s id => crossPkt s o id

/-- More flits of a packet have arrived: they cross wherever it was granted. -/
def crossMore (s : State) (id : Nat) : State :=
  match s.pkt? id with
  | none => s
  | some k => forEach s ((k.copies.filter (·.granted)).map (·.out)) crossOut

/-! ### Grants (R180, R193, R194, R165) -/

/-- A packet that an output holds granted and that has not wholly crossed. -/
def crossing (s : State) (o : Nat) : Nat :=
  sumOf s.sw.pkts fun k => sumOf k.copies fun c => b2n (c.out = o && c.granted && !crossedAll k c)

/-- The packets of an input that hold its lanes. -/
def inputBusy (s : State) (p : Nat) : Nat :=
  sumOf s.sw.pkts fun k => if k.inPort = p then b2n (k.copies.any fun c => c.granted && !crossedAll k c) else 0

/-- An input has a lane for a packet: the packet holds one already, or one is free. -/
def laneFree (s : State) (k : SwPkt) : Bool :=
  (k.copies.any fun c => c.granted && !crossedAll k c) || decide (inputBusy s k.inPort < lanesOf k.inPort)

/-- The packets that wait for a grant of an output, in the order of their arrival. -/
def waitersOf (s : State) (o : Nat) : List SwPkt :=
  s.sw.pkts.filter fun k => k.looked && k.copies.any fun c => c.out = o && !c.granted

/-- An ORD packet is at the head of its queue: none of its input and class waits before it for the output (R165, R194). -/
def ordHead (ws : List SwPkt) (k : SwPkt) : Bool :=
  !k.hdr.ord ||
  ((ws.find? fun x => x.hdr.ord && x.inPort = k.inPort && classOf x.hdr.opc = classOf k.hdr.opc).any fun x => x.id = k.id)

/-- The packet of an input that a VC of an output could be granted next. -/
def inputHead (s : State) (ws : List SwPkt) (o v p : Nat) : Option SwPkt :=
  (ws.find? fun k => k.inPort = p && (k.copyTo o).any (fun c => c.vc = v) && ordHead ws k).filter (laneFree s)

/-- The ports in the round robin of a VC: those after the one last served first (R194). -/
def rrPorts (last : Nat) : List Nat := (List.range 102).map fun i => (last + i) % 102

/-- The packet that a VC of an output would be granted next. -/
def vcHead (s : State) (ws : List SwPkt) (o v : Nat) : Option SwPkt :=
  (rrPorts (tget 0 (s.outPort o).rr v)).findSome? fun p => inputHead s ws o v p

/-- The flits of packets granted on a VC of an output and not yet sent. -/
def promised (s : State) (o v : Nat) : Nat :=
  sumOf s.sw.pkts fun k => sumOf k.copies fun c => if c.out = o ∧ c.vc = v ∧ c.granted then k.total - c.sent else 0

/-- A fabric output may start a packet on a VC in its link state, whatever the credits (R127). -/
def stateAllows (l : LinkPort) (vc : Nat) : Bool :=
  (l.st = .admitted || (l.st = .quarantine && vc = 3)) && !l.halted && pscAllows l vc

/-- A VC is eligible for a packet of so many flits (R193). -/
def vcEligible (s : State) (o v n : Nat) : Bool :=
  if o < 96 then stateAllows (s.link o) v && decide ((n : Int) + (promised s o v : Int) ≤ credits (s.link o) v) else true

/-- What an output's scheduler sees of a VC (R193). -/
def vcView (s : State) (ws : List SwPkt) (o v : Nat) : DrrView :=
  { waiting := ws.any fun k => (k.copyTo o).any fun c => c.vc = v
    charge := ((vcHead s ws o v).filter fun k => vcEligible s o v k.total).map fun k => drrCharge s k.hdr }

/-- A packet is granted an output. -/
def grant (s : State) (o v : Nat) (k : SwPkt) : State :=
  let s1 := (s.updPkt k.id fun k => k.updCopy o fun c => { c with granted := true, movedAt := s.time.count }).updOut o fun x =>
    { x with order := x.order ++ [k.id], rr := tset 0 x.rr v (k.inPort + 1) }
  crossOut (stamp s1 k.id 2) o

/-- A VC with no packet left waiting loses its deficit at once (R193). -/
def settleDrr (s : State) (o v : Nat) : State :=
  if (waitersOf s o).any fun k => (k.copyTo o).any fun c => c.vc = v then s
  else s.updOut o fun x => { x with drr := (x.drr.setDeficit v 0).move 8 }

/-- An output's arbiter grants the next packet, when a lane of it is free (R180, R193). -/
def grantNext (s : State) (o : Nat) : State :=
  let ws := waitersOf s o
  if ws.isEmpty ∨ lanesOf o ≤ crossing s o then s
  else if (List.range 8).all fun v => (vcView s ws o v).charge.isNone then s.updOut o fun x => { x with starved := true }
  else
    let r := drrRun 8 (fun v => s.reg Dict.SW_DRR_QUANTUM v) (vcView s ws o) (s.outPort o).drr 0 700
    let s1 := (s.updOut o fun x => { x with drr := r.1 }).count 0x306 o r.2.2
    match r.2.1 with
    | none => s1
    | some v =>
      match vcHead s1 ws o v with
      | some k => settleDrr (grant s1 o v k) o v
      | none => s1

/-! ### Copies that end -/

/-- A copy of a packet ends: sent, dropped or lost. A packet of which nothing is left tells its tag record when it was sent. -/
def endCopy (s : State) (o id : Nat) (sent : Bool) : State :=
  let s1 := (s.updPkt id fun k => { k with copies := k.copies.filter fun c => c.out ≠ o }).updOut o fun x =>
    { x with order := x.order.filter (· ≠ id) }
  match s1.pkt? id with
  | none => s1
  | some k =>
    let s2 := if k.copies.isEmpty then tagDone s1 k (!sent) else s1
    let s3 := settle s2 id
    crossOut (if k.own then judgeThrottle s3 o else s3) o

/-- A packet too old to start on an output is discarded there (R170). -/
def ageOut (s : State) (o id : Nat) : State :=
  (((endCopy s o id false).count 0x285 (((s.pkt? id).map (·.inPort)).getD noInst)).raise 0x0504 1 o).fire 121

/-! ### Outputs that stop being usable (R190, R200, R201) -/

/-- The output can no longer take a packet in the role and bank by which it was chosen. A VC3 packet needs no role (R147, R152). -/
def outGone (s : State) (k : SwPkt) (o : Nat) : Bool :=
  decide (o < 96) &&
  (if classOf k.hdr.opc = .management then !carriesVc3 (s.link o)
   else !(portServes (s.link o) && roleOf s k.hdr.epoch o ≠ 0))

/-- A packet already started on an output sends nothing more (R127, R190); a leaving partner lets it finish (R478). -/
def outCut (s : State) (k : SwPkt) (o : Nat) : Bool :=
  let l := s.link o
  let runs := l.st = .admitted || l.st = .hold || (l.st = .quarantine && classOf k.hdr.opc = .management)
  decide (o < 96) && !(runs && !l.halted && !partnerIsolated l)

/-- A packet whose output is gone: it goes back to the lookup, its copy is dropped, or what is left of it is lost (R190, R200,
R201). -/
def requeueCopy (s : State) (k : SwPkt) (c : Copy) : State :=
  if !outGone s k c.out then s
  else if 0 < c.sent then (if outCut s k c.out then endCopy s c.out k.id false else s)
  else if k.hdr.mc then endCopy s c.out k.id false
  else
    let s1 := (s.updPkt k.id fun k => { k with looked := false, requeued := true, copies := [], begun := false, tOut := 127 }).updOut c.out fun x =>
      { x with order := x.order.filter (· ≠ k.id) }
    benchEvent ((s1.count 0x30F k.inPort).raise 0x0609 1 k.inPort) k.inPort 7

/-- Every held packet is judged against its outputs, at a boundary. -/
def requeueAll (s : State) : State :=
  forEach s s.sw.pkts fun s k => forEach s k.copies fun s c => requeueCopy s k c

/-! ### Delivery (R144, R188, R189, R261) -/

/-- A delivered packet passes its ICRC; a control packet has none (R144). -/
def icrcPasses (p : Packet) : Bool := isCtl p || p.icrc = icrcOf p

/-- What is delivered of a held packet: its flits read, with the fields that a router may change from its header as it is now. -/
def deliveredPkt (k : SwPkt) : Packet :=
  let p := readPacket k.flits k.bad
  { p with vc := k.hdr.vc, ce := k.hdr.ce, nmin := k.hdr.nmin, intg := k.hdr.intg }

/-- The first packet granted to an internal output, once whole. -/
def deliverable (s : State) (o : Nat) : Option SwPkt :=
  match (s.outPort o).order.findSome? fun id => s.pkt? id with
  | some k => if (k.copyTo o).any (crossedAll k) then some k else none
  | none => none

/-- The row of COLL_GROUP that holds a group (R406). -/
def collRowOf (s : State) (gid : Nat) : Option Nat :=
  (List.range 4096).find? fun r => let v := s.reg Dict.COLL_GROUP r; bitAt v 255 && decide (fld v 239 216 = gid)

/-- A collective packet is one that the engine takes: its OPC is not reserved, and a VALID row holds its group (R406). -/
def collServed (s : State) (p : Packet) : Bool :=
  decide (0x61 ≤ p.opc) && decide (p.opc ≤ 0x64) && (collRowOf s (fld (natBE (p.payload.take 16)) 103 80)).isSome

/-- A unit behind the host ports takes packets of an opcode (R189, R302). -/
def hostServes (opc : Nat) : Bool :=
  (decide (1 ≤ opc) && decide (opc ≤ 4)) || (decide (0x10 ≤ opc) && decide (opc < 0x50) && decide (opc % 16 < if opc < 0x30 then 9 else 8)) ||
  opc = 0x5E || opc = 0x5F || (decide (0x80 ≤ opc) && decide (opc ≤ 0x82)) || opc = 0xF1

/-- A packet is delivered to the host side: checked, and placed before the unit that takes it (R144, R188, R189). SP takes management
operations alone (R62), CP the packets of its groups (R406); a packet for a host port is discarded while the host is lost (R261), and one that no
unit there takes is discarded too. -/
def deliverTo (s : State) (o : Nat) (k : SwPkt) : State :=
  let p := deliveredPkt k
  let s0 := hpUse (stamp (stamp s k.id 4) k.id 6) o 1 k.flits.length
  let done (s : State) : State := endCopy s o k.id true
  if k.bad then benchEvent (((done s0).count 0x304 o).raise 0x0603) o 2
  else if !icrcPasses p then ((done s0).count 0x288 k.inPort).raise 0x0507
  else if o = 101 ∧ p.opc ≠ 0xF0 ∧ p.opc ≠ 0xF1 then (done s0).count 0x089
  else if o = 100 ∧ !collServed s p then
    ((done s0).count 0x68B ((collRowOf s (fld (natBE (p.payload.take 16)) 103 80)).getD noInst)).raise 0x0D08
  else if o < 100 ∧ s.host.hostLost then (done s0).count 0x409
  else if o < 100 ∧ !hostServes p.opc then done s0
  else
    ((done s0).count 0x301 o).updSw fun w => { w with delivered := tupd [] w.delivered o fun l => l ++ [{ pkt := p, inPort := k.inPort }] }

/-! ### The anchored store (R201) -/

/-- The oldest packet of a port that waits for the store. -/
def stalledOf (s : State) (p : Nat) : Option SwPkt := s.sw.pkts.find? fun k => k.inPort = p && k.stallAt.isSome

/-- The store and every target's pointer queue have room. -/
def anchorRoom (s : State) (k : SwPkt) (outs : List Nat) : Bool :=
  decide (k.total ≤ anchorFree s) && outs.all fun o => decide (pointersOn s o < 4096)

/-- A packet is admitted to the store (R201). -/
def anchorAdmit (s : State) (k : SwPkt) : State :=
  let outs := copySet s k
  if outs.isEmpty then (dropPkt s k.id).count 0x304 k.inPort
  else if !anchorRoom s k outs then s
  else
    let s1 := s.updPkt k.id fun k =>
      { k with
        anchored := true, stallAt := none
        copies := outs.map fun o => { out := o, vc := 7, movedAt := s.time.count } }
    settle (s1.count 0x309 k.inPort k.total) k.id

/-! ### Ages of open packets (R171) -/

/-- What an output has taken of a packet: the flits sent on a link, or those that have crossed to an internal output, which delivers only
whole packets. -/
def outTaken (o : Nat) (c : Copy) : Nat := if o < 96 then c.sent else c.crossed

/-- An open packet of an output whose next flit is overdue. -/
def overdue (s : State) (o : Nat) : Option SwPkt :=
  s.sw.pkts.find? fun k =>
    !k.eop && decide (640 < ageOf k s.time.count) &&
    (k.copyTo o).any fun c => 0 < outTaken o c && outTaken o c = k.flits.length && decide (c.movedAt + 64 ≤ s.time.count)

/-- The packet is ended with a BAD EOP flit; what still comes of it is discarded (R171). -/
def endOpen (s : State) (o : Nat) (k : SwPkt) : State :=
  let s1 := s.updPkt k.id fun k => { k with flits := k.flits ++ [0], eop := true, bad := true, closed := true }
  let s2 := s1.updLink k.inPort fun l =>
    { l with rxOpen := l.rxOpen.map fun r => if r.pkt = k.id then { r with drop := true } else r }
  crossMore ((((s2.count 0x285 k.inPort).count 0x303 o).raise 0x0504 1 o).fire 121) k.id

/-! ### Commands -/

/-- The port is one of the crossbar's 102 (R178). -/
def onSwitch (p : Nat) (t : State) : Host.Outcome State Fault Refusal := if p < 102 then .next t else .fault .noSuchPort

/-- PACKET_INJECT (R143, R195). -/
def execPacketInject (port : Nat) (s : State) : Host.Outcome State Fault Refusal :=
  if port < 96 then .fault .noSuchPort else onSwitch port (injectNext s port)

/-- PACKET_LOOKUP: the next header of a port (R151, R182). -/
def execPacketLookup (port : Nat) (s : State) : Host.Outcome State Fault Refusal :=
  onSwitch port (match nextLookup s port with
    | some k => lookup s k.id
    | none => s)

/-- ARBITER_GRANT (R180, R193). -/
def execArbiterGrant (out : Nat) (s : State) : Host.Outcome State Fault Refusal := onSwitch out (grantNext s out)

/-- OPEN_PACKET_AGE_OUT (R171). -/
def execOpenPacketAgeOut (out : Nat) (s : State) : Host.Outcome State Fault Refusal :=
  onSwitch out (match overdue s out with
    | some k => endOpen s out k
    | none => s)

/-- ANCHOR_ADMIT (R201). -/
def execAnchorAdmit (port : Nat) (s : State) : Host.Outcome State Fault Refusal :=
  onSwitch port (match stalledOf s port with
    | some k => anchorAdmit s k
    | none => s)

/-- ANCHOR_STALL: a packet has waited more than 1 fr for the store (R201). -/
def execAnchorStall (port : Nat) (s : State) : Host.Outcome State Fault Refusal :=
  onSwitch port (match stalledOf s port with
    | some k =>
      if !k.stallLogged ∧ k.stallAt.any (fun a => decide (a + 1024 < s.time.count)) then
        benchEvent ((s.updPkt k.id fun k => { k with stallLogged := true }).raise 0x0605) port 4
      else s
    | none => s)

/-- HOST_DELIVER: an internal output delivers its next packet, or discards it for its age (R170, R189). -/
def execHostDeliver (out : Nat) (s : State) : Host.Outcome State Fault Refusal :=
  if out < 96 then .fault .noSuchPort
  else onSwitch out (match deliverable s out with
    | some k =>
      if 640 < ageOf k s.time.count then ageOut s out k.id
      else if hpOpen s out 1 || (decide (out < 100) && s.host.hostLost) then deliverTo s out k else s
    | none => s)

end Sys2Proof.Machine
end

