-- ==== Sys2Proof/Machine/Egress.lean ====
section
/-!
DEFINITION. What a slot of a fabric port carries (R76, R104, R106, R107, R110, R115, R118, R127, R192).
-/
namespace Sys2Proof.Machine

/-- A port may send a new sequenced flit: no replay is in progress, and the window has room (R106, R110, R128). -/
def mayNew (l : LinkPort) : Bool := l.replayPos.isNone && decide (outstanding l ≤ 2046) && !l.halted

/-- A sequenced flit is sent for the first time (R105, R106, R111). -/
def sendSeq (s : State) (p : Nat) (f : Flit) (ev : Nat) : State :=
  (s.updLink p fun l =>
    { l with
      replay := l.replay ++ [f], next := (l.next + 1) % 4096
      oldestAt := if l.replay.isEmpty then s.time.count else l.oldestAt }).count ev p

/-! ### Lasted flits -/

/-- A port may send lasted flits (R127, R229). -/
def mayLast (l : LinkPort) : Bool := l.st = .admitted && mayNew l && pscAllows l 0

/-- The reserved position of this slot and its chunk (R192 item 1). A reserved position of an entry that has nothing to send counts event
0x38A. -/
def reservedSlot (s : State) (p slot : Nat) : Option (Flit × State) :=
  if mayLast (s.link p) then
    (reserverOf s p slot).bind fun key => (reservedFlit s key (80 * s.time.count + slot)).map fun r => (r.1, sendSeq r.2 p r.1 0x201)
  else none

/-- A late chunk takes a free position (R192 item 3). -/
def lateSlot (s : State) (p slot : Nat) : Option (Flit × State) :=
  if mayLast (s.link p) then
    let pos := 80 * s.time.count + slot
    (lateKey s p pos).bind fun key => (lateFlit s key pos).map fun r => (r.1, sendSeq r.2 p r.1 0x201)
  else none

/-- The position is reserved and goes unused (R241). -/
def noteUnused (s : State) (p slot : Nat) : State := if (reserverOf s p slot).isSome then s.count 0x38A p else s

/-! ### Control flits -/

/-- The states in which a port sends control flits other than INIT (R127, R461). -/
def sendsControl (s : State) (p : Nat) : Bool :=
  let l := s.link p
  (l.st = .quarantine || l.st = .admitted || l.st = .hold || l.st = .isolated) && !s.mon.fault.fatal

/-- The ACKCR that a port sends now (R107, R120). -/
def ackNow (l : LinkPort) : Ackcr :=
  { ne := l.ne, nak := l.discarding, nakId := l.nakId, freed := l.freed, freedBp := l.bpFreed }

/-- The port after that ACKCR. -/
def LinkPort.ackSent (l : LinkPort) (count : Nat) : LinkPort :=
  { l with
    ackDue := false, ackOwed := 0, ackFreed := freedNow l, ackAt := count, acksSent := l.acksSent + 1, ctlSent := l.ctlSent + 1 }

/-- The CREDIT_SYNC that a port sends now (R115). -/
def syncNow (l : LinkPort) : CreditSync := { num := l.next, sent := l.sent }

/-- A waiting control flit may be sent: INIT alone in Listening, credited subtypes within their credits and rates (R118, R127). -/
def ctlMayGo (s : State) (p : Nat) (f : Flit) : Bool :=
  let l := s.link p
  let sub := subtypeOf f.body
  if sub = 7 then l.st = .listening || l.st = .quarantine
  else sendsControl s p &&
    (if sub = 4 then decide (0 < bpCredits l) && decide (l.hintsSent < 4)
     else if sub = 5 then decide (0 < bpCredits l) && decide (l.sigsSent < 4) else true)

/-- The port after a waiting control flit was sent. -/
def LinkPort.ctlGone (l : LinkPort) (f : Flit) : LinkPort :=
  let sub := subtypeOf f.body
  let cred := sub = 4 || sub = 5
  { l with
    ctlQ := l.ctlQ.erase f, ctlSent := l.ctlSent + 1
    bpSent := if cred then (l.bpSent + 1) % 65536 else l.bpSent
    hintsSent := if sub = 4 then l.hintsSent + 1 else l.hintsSent
    sigsSent := if sub = 5 then l.sigsSent + 1 else l.sigsSent
    init1Tx := l.init1Tx || (sub = 7 && fld f.body 471 470 = 1) }

/-- A control flit of the bypass channel (R192 item 2): an ACKCR that is due, a CREDIT_SYNC that no replay defers, or the oldest that may go. -/
def controlSlot (s : State) (p : Nat) : Option (Flit × State) :=
  let l := s.link p
  if 16 ≤ l.ctlSent then none
  else if l.ackDue ∧ l.acksSent < 4 ∧ sendsControl s p then
    let s1 := (s.updLink p fun l => l.ackSent s.time.count).count 0x202 p
    some (ctlFlit (packAckcr (ackNow l)), if l.discarding then s1.count 0x205 p else s1)
  else if l.syncDue ∧ l.replayPos.isNone ∧ sendsControl s p then
    some (ctlFlit (packSync (syncNow l)), (s.updLink p fun l => { l with syncDue := false, ctlSent := l.ctlSent + 1 }).count 0x202 p)
  else (l.ctlQ.find? (ctlMayGo s p)).map fun f => (f, (s.updLink p fun l => l.ctlGone f).count 0x202 p)

/-! ### Replayed flits -/

/-- The next flit of a replay in progress, which takes a data slot (R110). -/
def replaySlot (s : State) (p : Nat) : Option (Flit × State) :=
  let l := s.link p
  if !(inService l) || l.halted then none
  else
    match l.replayPos with
    | none => none
    | some k =>
      if (l.ctlQ.any fun f => subtypeOf f.body = 2) then none
      else (l.replay[k]?).map fun f =>
        (f, (s.updLink p fun l => { l with replayPos := if k + 1 < l.replay.length then some (k + 1) else none }).count 0x208 p)

/-! ### Data flits -/

/-- The body of the first flit with the fields that this router writes: VC, CE, NMIN and INTG (R143). -/
def firstBody (body vc : Nat) (h : Packet) : Nat :=
  setFld (setFld (setFld (setFld body 475 473 vc) 469 469 (b2n h.ce)) 468 468 (b2n h.nmin)) 467 456 h.intg

/-- Flit i of a packet on a VC (R102, R143, R187). -/
def dataFlit (k : SwPkt) (vc i : Nat) : Flit :=
  let eop := k.eop && i + 1 = k.flits.length
  let body := k.flits.getD i 0
  { ctl := dataCtl vc (i = 0) eop (eop && k.bad), body := if i = 0 then firstBody body vc k.hdr else body }

/-- A port sends the rest of a packet that has begun (R127). -/
def mayGoOn (l : LinkPort) (vc : Nat) : Bool := (l.st = .admitted || l.st = .hold || (l.st = .quarantine && vc = 3)) && mayNew l

/-- A port starts a packet (R114, R127). -/
def mayBegin (l : LinkPort) (vc n : Nat) : Bool := stateAllows l vc && mayNew l && decide ((n : Int) ≤ credits l vc)

/-- One flit of a copy is sent. -/
def sendData (s : State) (p : Nat) (k : SwPkt) (c : Copy) : Flit × State :=
  let f := dataFlit { k with bad := k.bad || c.bad } c.vc c.sent
  let eop := k.eop && c.sent + 1 = k.flits.length
  let s1 := (sendSeq s p f 0x200).updLink p fun l => { l with sent := listUpd l.sent c.vc fun n => (n + 1) % 65536 }
  let s2 := s1.updPkt k.id fun k =>
    { k.updCopy p fun c => { c with sent := c.sent + 1, movedAt := s.time.count } with begun := true }
  let s3 := if c.sent = 0 then (if k.eop then stamp s2 k.id 4 else stamp (s2.count 0x302 p) k.id 4) else s2
  if eop then
    let s4 := stamp (s3.count 0x301 p) k.id 6
    let s5 := if k.anchored then s4.count 0x308 p else if k.hdr.mc then s4.count 0x307 p else s4
    (f, endCopy s5 p k.id true)
  else (f, crossOut (if k.own then judgeThrottle s3 p else s3) p)

/-- The packet at the head of an output's grants, once those too old to start are gone (R170). -/
def dropAged (s : State) (p : Nat) : Nat → State
  | 0 => s
  | n + 1 =>
    match (s.outPort p).order.head?.bind s.pkt? with
    | none => s
    | some k =>
      if (k.copyTo p).any (fun c => c.sent = 0) ∧ 640 < ageOf k s.time.count then dropAged (ageOut s p k.id) p n else s

/-- The next flit of the packet in progress, or the SOP flit of the next packet (R192 items 4 and 5). -/
def dataSlot (s : State) (p : Nat) : Option (Flit × State) :=
  ((s.outPort p).order.head?.bind s.pkt?).bind fun k => (k.copyTo p).bind fun c =>
    if c.crossed ≤ c.sent then none
    else if c.sent = 0 then (if mayBegin (s.link p) c.vc k.total then some (sendData s p k c) else none)
    else if mayGoOn (s.link p) c.vc then some (sendData s p k c) else none

/-! ### The slot -/

/-- An idle flit (R102). -/
def idleSlot (s : State) (p : Nat) : Flit × State := ({}, s.count 0x203 p)

/-- The first that is ready of R192's list; replayed flits take data slots ahead of new ones. -/
def pickSlot (s : State) (p slot : Nat) : Flit × State :=
  if s.mon.fault.fatal || (s.link p).st = .down then idleSlot s p
  else
    let s0 := dropAged s p 64
    match reservedSlot s0 p slot with
    | some r => r
    | none =>
      let s1 := noteUnused s0 p slot
      match controlSlot s1 p with
      | some r => r
      | none =>
        match replaySlot s1 p with
        | some r => r
        | none =>
          match lateSlot s1 p slot with
          | some r => r
          | none =>
            match dataSlot s1 p with
            | some r => r
            | none => idleSlot s1 p

/-- The port's line has slots: from Stripe on (R127). -/
def hasSlots (l : LanePort) : Bool := l.st = .stripe || l.st = .seam || l.st = .up

/-- EGRESS_SLOT: a slot of the present stitch on a fabric port (R192). Slots of a stitch come in order, 1 to 79 (R76). -/
def execEgressSlot (port slot : Nat) (s : State) : Host.Outcome State Fault Refusal :=
  onPort port (if hasSlots (s.lane port) ∧ (s.link port).slotAt < slot ∧ slot < 80 then
    let r := pickSlot (s.updLink port fun l => { l with slotAt := slot }) port slot
    r.2.emit (.flit port r.1)
  else s)

end Sys2Proof.Machine
end

