-- ==== Sys2Proof/Machine/Counters.lean ====
section
/-!
DEFINITION. Counters and snapshots (R36, R514 to R525, R531, R532).
-/
namespace Sys2Proof.Machine

/-! ### Control words -/

/-- The last event that each subject's chapter defines, as an offset in the subject (R515). -/
def eventDefined (ev : Nat) : Bool :=
  let o := ev % 128
  match ev / 128 with
  | 0 => 1 ≤ o && o ≤ 4
  | 1 => o ≤ 9
  | 2 => o ≤ 7
  | 3 => o ≤ 11
  | 4 => o ≤ 15
  | 5 => o ≤ 12
  | 6 => o ≤ 15
  | 7 => o ≤ 11
  | 8 => o ≤ 9
  | 9 => o ≤ 13
  | 10 => o ≤ 15
  | 11 => o ≤ 11
  | 12 => o ≤ 15
  | 13 => o ≤ 11
  | 14 => o ≤ 13
  | 15 => o ≤ 9
  | 16 => o ≤ 7
  | 17 => o ≤ 7
  | 18 => o ≤ 5
  | _ => false

/-- How many instances an event's kind has; none when INSTANCE is ignored (R516). -/
def eventInstances (ev : Nat) : Option Nat :=
  if evDevice ev then none
  else if ev < 0x280 then some 96
  else if ev = 0x30C then some 1024
  else if ev < 0x400 then some 102
  else if ev < 0x600 then some 1024
  else if ev < 0x680 then some 0xFFFF
  else if ev < 0x700 then some 4096
  else some 96

/-- The event is of port kind (R516). -/
def portKind (ev : Nat) : Bool :=
  !evDevice ev && ev ≠ 0x30C && ((0x180 ≤ ev && ev < 0x400) || (0x800 ≤ ev && ev < 0x880))

/-- The event lies in the counter's reach (R517). -/
def inReach (c w : Nat) : Bool :=
  let ev := fld w 55 44
  416 ≤ c || ev < 0x80 || (portKind ev && (bitAt w 43 || portOfBench (c / 32) (fld w 42 23)))

/-- A write of a row of CNT_CTL that R518 refuses with bad-value. -/
def cntCtlBad (c w : Nat) : Bool :=
  let ev := fld w 55 44
  if bitAt w 62 then c % 2 = 0 || ev ≠ 0 || bitAt w 43 || fld w 42 23 ≠ 0
  else if !bitAt w 63 && ev = 0 then false
  else
    (bitAt w 63 && !eventDefined ev) ||
    (match eventInstances ev with
     | none => false
     | some n => !bitAt w 43 && n ≤ fld w 42 23) ||
    !inReach c w

/-- A row of CNT_CTL applied: OVF is cleared by a 1, ERR is read-only (R518, R519). -/
def applyCntCtl (s : State) (c w : Nat) : State :=
  let keep := put (fld w 63 62) 63 62 + put (fld w 60 60) 60 60 + put (fld w 55 23) 55 23
  let cnt := s.mon.cnt
  { s with mon := { s.mon with cnt := { cnt with
      ctl := tset 0 cnt.ctl c keep
      ovf := if bitAt w 61 then tset false cnt.ovf c false else cnt.ovf } } }

/-- A row of CNT_VALUE applied: bits 63:48 are ignored, and ERR is cleared (R518, R522). -/
def applyCntValue (s : State) (c w : Nat) : State :=
  let cnt := s.mon.cnt
  { s with mon := { s.mon with cnt := { cnt with
      value := tset 0 cnt.value c (w % 2 ^ 48)
      err := tset false cnt.err c false } } }

/-! ### Snapshots -/

/-- The shadows that a snapshot makes: each value with its OVF in bit 48 (R36, R522). -/
def shadowsOf (cnt : CntUnit) : Tbl Nat :=
  cnt.ovf.foldl (fun t c => if c.2 then tupd 0 t c.1 (· + 2 ^ 48) else t) cnt.value

/-- A snapshot at the boundary of the present count (R36, R532). -/
def takeSnapshot (s : State) : State :=
  let s1 : State :=
    { s with
      mon := { s.mon with cnt := { s.mon.cnt with shadow := shadowsOf s.mon.cnt } }
      time := { s.time with
        snapStitch := s.time.count
        snapGrade := s.time.st.code
        snapSeq := (s.time.snapSeq + 1) % 2 ^ 32 } }
  (s1.fire 115).count 0x905

/-! ### What the objects read -/

/-- CNT_CTL as read (R518). -/
def cntCtlRead (cnt : CntUnit) (c : Nat) : Nat :=
  tget 0 cnt.ctl c + put (b2n (tget false cnt.ovf c)) 61 61 + put (b2n (tget false cnt.err c)) 59 59

/-- A row of CNT_OVF: bit c mod 32 of row c / 32 mirrors OVF (R520). -/
def cntOvfRow (cnt : CntUnit) (r : Nat) : Nat :=
  (List.range 32).foldl (fun a i => a + b2n (tget false cnt.ovf (32 * r + i)) * 2 ^ i) 0

/-- The live word of a counter page (R523). -/
def liveWord (cnt : CntUnit) (c : Nat) : Nat :=
  tget 0 cnt.value c + b2n (tget false cnt.ovf c) * 2 ^ 48 + b2n (tget false cnt.err c) * 2 ^ 49

/-- The counter is granted to the function (R523). -/
def granted (s : State) (func c : Nat) : Bool := s.reg Dict.CNT_GRANT c = func

/-- The function holds a counter (R523). -/
def holdsCounter (s : State) (func : Nat) : Bool := (List.range 544).any fun c => granted s func c

/-- What a word of a counter page holds for a function; none when the access is refused (R523). -/
def counterPageWord (s : State) (func off : Nat) : Option Nat :=
  if off < 0x1100 ∧ off % 8 = 0 then
    (if granted s func (off / 8) then some (liveWord s.mon.cnt (off / 8)) else none)
  else if 0x2000 ≤ off ∧ off < 0x3100 ∧ off % 8 = 0 then
    (if granted s func ((off - 0x2000) / 8) then some (tget 0 s.mon.cnt.shadow ((off - 0x2000) / 8)) else none)
  else if (off = 0x4000 ∨ off = 0x4008 ∨ off = 0x4010) ∧ holdsCounter s func then
    some (if off = 0x4000 then s.time.snapSeq else if off = 0x4008 then s.time.snapStitch else s.time.snapGrade)
  else none

/-- A refused BAR access: a refused read returns all ones; both count event 0x406 and log 0x0803 per function (R257). -/
def mmioRefused (s : State) (func : Nat) : State := (s.count 0x406).raise 0x0803 3 func

/-! ### Commands -/

/-- CNT_SNAP_NOW: a 1 takes a snapshot at the boundary that applies it (R532). -/
def execCntSnapNow (value : Nat) (s : State) : Host.Outcome State Fault Refusal :=
  judged s (boolCheck value) (if value = 1 then takeSnapshot s else s)

/-- COUNTER_PAGE_READ: a read of a counter page at an offset, arriving in a cycle; it samples at least 50 cycles after the
read before it (R523, R524). -/
def execCounterPageRead (func offset cycle : Nat) (s : State) : Host.Outcome State Fault Refusal :=
  if 1024 ≤ func then .fault .noSuchFunction
  else if s.host.units = 0 || !fnPresent s func then .next s
  else if !coreUp s then .next ((dormantAccess s func).emit (.mmioData func 4 offset (2 ^ 64 - 1)))
  else
    match counterPageWord s func offset with
    | none => .next ((mmioRefused s func).emit (.mmioData func 4 offset (2 ^ 64 - 1)))
    | some v =>
      if offset < 0x1100 then
        let at' := match s.mon.cnt.lastSample with
          | none => cycle
          | some c => max cycle (c + 50)
        let cnt := { s.mon.cnt with
          lastSample := some at'
          liveQ := (s.mon.cnt.liveQ.filter (fun c => cycle < c)) ++ [at'] }
        .next ((({ s with mon := { s.mon with cnt := cnt } } : State).count 0x904).emit (.mmioData func 4 offset v))
      else .next (s.emit (.mmioData func 4 offset v))

/-- COUNTER_PARITY_ERROR: a parity error in a counter's value zeroes it, and one in its control row clears EN; both set ERR and
log 0x1201 (R531). -/
def execCounterParityError (counter : Nat) (control : Bool) (s : State) : Host.Outcome State Fault Refusal :=
  if 544 ≤ counter then .fault .noSuchCounter
  else
    let cnt := s.mon.cnt
    let cnt1 : CntUnit :=
      if control then
        { cnt with
          ctl := tupd 0 cnt.ctl counter fun w => setFld w 63 63 0
          err := tset false cnt.err counter true }
      else
        { cnt with
          value := tset 0 cnt.value counter 0
          err := tset false cnt.err counter true }
    .next ((({ s with mon := { s.mon with cnt := cnt1 } } : State).raise 0x1201).event Dict.CNT_EVENTS 0 2)

end Sys2Proof.Machine
end

