-- ==== Sys2Proof/Machine/Time.lean ====
section
/-!
DEFINITION. Fabric time (R11 to R43): the time states, the choice of the parent, the exchange of probes, the roles, TIME_IN, the
rows of TIME_ACTIONS and the cobbler executive.
-/
namespace Sys2Proof.Machine

/-- The state with the time unit changed. -/
def State.updTime (s : State) (f : TimeUnit → TimeUnit) : State := { s with time := f s.time }

/-- The router is master or acting master (R18, R20). -/
def isMaster (t : TimeUnit) : Bool := t.role = .master || t.role = .acting

/-! ### Time states -/

/-- The time state changes at a boundary, with its source, its faults and, on Lost, its effect on the ports (R25, R26, R42). -/
def timeEnter (s : State) (new : TState) : State :=
  if s.time.st = new then s
  else
    let s1 := (s.updTime fun t =>
      { t with
        st := new, lockRun := 0
        acquireAt := if new = .acquiring then t.count else t.acquireAt
        slowLogged := if new = .acquiring then false else t.slowLogged }).fire 110
    match new with
    | .doubt => s1.raise 0x0201
    | .lost => forEach (s1.raise 0x0202) fabricPorts lostPort
    | _ => s1

/-- A step of the count lands: every Pending row whose TARGET it reaches or passes becomes Missed (R34). -/
def missActions (s : State) (count : Nat) : State :=
  forEach s s.time.actions fun s c =>
    if c.2.st = .pending ∧ c.2.target ≤ count then
      ((s.updTime fun t => { t with actions := tupd {} t.actions c.1 fun a => { a with st := .missed } }).raise 0x0207).fire 114
    else s

/-! ### The parent -/

/-- A neighbour is eligible as time parent; the current parent is spared the run of 16 accepted exchanges (R16). -/
def eligible (s : State) (p : Nat) : Bool :=
  let tp := s.tport p
  match tp.probe with
  | none => false
  | some b =>
    (b.tstate = 2 || b.master) && !partnerIsolated (s.link p) && probesRun (s.link p) &&
    s.time.genSeen = some b.gen && (s.time.parent = some p || tp.goodRun = 16)

/-- The eligible neighbour with the fewest hops, a tie going to the lowest port (R16). -/
def bestParent (s : State) : Option Nat :=
  fabricPorts.foldl (fun best p =>
    if eligible s p then
      let h := (s.tport p).probe.elim 255 (·.hops)
      match best with
      | none => some p
      | some q => if h < (s.tport q).probe.elim 255 (·.hops) then some p else best
    else best) none

/-- The hop count that a parent gives; none reads 0xFF (R16, R41). -/
def hopsFrom (s : State) (p : Option Nat) : Nat :=
  match p with
  | none => 0xFF
  | some q => min 0xFF ((s.tport q).probe.elim 0xFE (·.hops) + 1)

/-- The router takes a parent, or none (R16, R43). -/
def setParent (s : State) (p : Option Nat) : State :=
  let s1 := s.updTime fun t => { t with parent := p, hops := hopsFrom s p, parentLost := false }
  if s.time.parent = p then s1 else (s1.updTime fun t => { t with lockRun := 0 }).fire 117

/-- The choice of the parent at a boundary: at a frame boundary always, otherwise when the parent became ineligible
or none is held; the hop count follows the parent's (R16). -/
def parentChoice (s : State) (frame : Bool) : State :=
  if isMaster s.time then s
  else match s.time.parent with
    | none => (match bestParent s with
      | none => s
      | some p => setParent s (some p))
    | some q =>
      if s.time.parentLost || !eligible s q then
        setParent ((s.updTime fun t => { t with parent := none }).raise 0x0203)
          (bestParent { s with time := { s.time with parent := none } })
      else setParent s (if frame then bestParent s else some q)

/-! ### Exchanges -/

/-- The signed difference of two 40-bit times, in units of 1/65,536 st (R122). -/
def dt40 (a b : Nat) : Int := toSigned 40 (modSub (2 ^ 40) a b)

/-- The delay of an exchange, ps: ((t2 − t1) + (t4 − t3)) / 2, with 25/16 ps to a unit (R12, R21). -/
def exchangeDelay (t1 t2 t3 t4 : Nat) : Int := (dt40 t2 t1 + dt40 t4 t3) * 25 / 32

/-- The offset of an exchange, ps: ((t2 − t1) − (t4 − t3) − alpha) / 2 (R21). -/
def exchangeOffset (t1 t2 t3 t4 : Nat) (alpha : Int) : Int :=
  ((dt40 t2 t1 - dt40 t4 t3) * 25 - alpha * 16) / 32

/-- The parent's present count as a step of the own count reaches it: the low 24 bits by the offset in stitches, the
high bits those that make it the first such count at or after the master stamp carried. -/
def steppedCount (count : Nat) (offset : Int) (stamp : Nat) : Nat :=
  let low := (((count : Int) + (offset + 51200) / 102400) % 16777216).toNat
  stamp + modSub 16777216 low stamp

/-- A master that gives way becomes a Follower, with a parent yet to choose (R17). -/
def giveWay (t : TimeUnit) : TimeUnit := if isMaster t then { t with role := .follower, parent := none, hops := 0xFF } else t

/-- A probe's generation and master are judged (R17); one that names no master carries no generation yet. -/
def generationAccept (s : State) (b : TimeProbe) : State :=
  let newer := match s.time.genSeen with
    | none => true
    | some g => serialGt 16 b.gen g
  let conflictKey := (b.gen, min b.masterFna s.time.masterFna, max b.masterFna s.time.masterFna)
  if b.masterFna = 0x3FFFF then s
  else if newer then
    let s1 := if isMaster s.time then (s.updTime giveWay).raise 0x0209 else s
    (s1.updTime fun t => { t with genSeen := some b.gen, gen := b.gen, masterFna := b.masterFna }).fire 111
  else if s.time.genSeen = some b.gen ∧ b.masterFna ≠ s.time.masterFna ∧ s.time.masterFna ≠ 0x3FFFF then
    let s1 := if s.time.conflict = some conflictKey then s
      else (s.updTime fun t => { t with conflict := some conflictKey }).raise 0x0209
    if b.masterFna < s.time.masterFna then
      (s1.updTime fun t => { giveWay t with masterFna := b.masterFna }).fire 111
    else s1
  else if s.time.genSeen = some b.gen ∧ s.time.masterFna = 0x3FFFF then
    (s.updTime fun t => { t with masterFna := b.masterFna }).fire 111
  else s

/-- An exchange is rejected (R22). -/
def rejectExchange (s : State) (p : Nat) : State :=
  let run := min 16 ((s.tport p).badRun + 1)
  let s1 := (s.updTport p fun t => { t with goodRun := 0, badRun := run }).count 0x102
  if s.time.parent = some p ∧ run = 16 ∧ (s.tport p).badRun < 16 then
    (s1.updTime fun t => { t with parentLost := true }).raise 0x0206
  else s1

/-- The estimate's bounds, ps (R25). -/
def within (est : Int) (ps : Int) : Bool := -ps ≤ est && est ≤ ps

/-- What an accepted exchange with the parent does to the state machine; a change is entered at the next boundary (R25). -/
def exchangeState (s : State) (p : Nat) (offset : Int) (stamp : Nat) : State :=
  let t := s.time
  let held := t.hasStamp && decide (stamp ≤ t.stamp)
  let s1 := if held then s else s.updTime fun t => { t with stamp := stamp, hasStamp := true }
  match t.st with
  | .free =>
    if eligible s p then
      s1.updTime fun t => { t with due := some .acquiring, stepTo := some (steppedCount t.count offset stamp) }
    else s1
  | .acquiring =>
    let c := steppedCount t.count offset stamp
    let s2 := if offset < -51200 || 51200 ≤ offset then s1.updTime fun t => { t with stepTo := some c } else s1
    if within t.errEst 4000 then
      s2.updTime fun t => { t with lockRun := t.lockRun + 1, due := if 16 ≤ t.lockRun + 1 then some .locked else t.due }
    else s2.updTime fun t => { t with lockRun := 0 }
  | .locked =>
    if !within t.errEst 100000 then s1.updTime fun t => { t with due := some .lost }
    else if !within t.errEst 8000 then s1.updTime fun t => { t with due := some .doubt }
    else s1
  | .doubt =>
    if !within t.errEst 100000 then s1.updTime fun t => { t with due := some .lost }
    else if within t.errEst 4000 && s.exe.servoWhole then
      s1.updTime fun t => { t with lockRun := t.lockRun + 1, due := if 16 ≤ t.lockRun + 1 then some .locked else t.due }
    else s1.updTime fun t => { t with lockRun := 0 }
  | .lost =>
    if eligible s p && !held then
      s1.updTime fun t => { t with due := some .acquiring, stepTo := some (steppedCount t.count offset stamp) }
    else s1

/-- An exchange is accepted (R21, R22). -/
def acceptExchange (s : State) (p : Nat) (delay offset : Int) (b : TimeProbe) : State :=
  let s1 := (s.updTport p fun t =>
    { t with goodRun := min 16 (t.goodRun + 1), badRun := 0, delay := delay.toNat, offset := offset }).count 0x101
  if s.time.parent = some p ∧ !isMaster s.time then
    let f := Config.servoFilter s.time.filtered offset
    exchangeState (s1.updTime fun t => { t with filtered := f, errEst := f + b.errEst }) p offset b.mstamp
  else s1

/-- TIME_PROBE_RECEIVE: a probe on a port completes the exchange of stitch n, whose own marker left at t1 and whose
partner's marker arrived at t4 (R21, R22). The check of the marker numbers is not made in Free. -/
def probeReceive (s : State) (p n t1 t4 : Nat) (b : TimeProbe) : State :=
  if !probesRun (s.link p) || (s.lane p).st = .loopback then s
  else
    let s1 := generationAccept (s.updTport p fun t => { t with probe := some b }) b
    let delay := exchangeDelay t1 b.t2 b.t3 t4
    let offset := exchangeOffset t1 b.t2 b.t3 t4 (toSigned 32 (s.reg Dict.TIME_PORT_ASYM p))
    if delay < 0 || 2000000 < delay || (b.mstitch ≠ n % 2 ^ 24 && s.time.st ≠ .free) then rejectExchange s1 p
    else acceptExchange s1 p delay offset b

/-! ### Roles -/

/-- The router becomes a master with a generation above the highest it has seen; an acting master stamps its own count at once, an
appointed one from its next probe round (R18, R20). -/
def becomeMaster (s : State) (role : TRole) : State :=
  let g := (s.time.genSeen.getD 0 + 1) % 2 ^ 16
  (s.updTime fun t =>
    { t with
      role := role, gen := g, genSeen := some g, masterFna := s.reg Dict.ID_FNA
      stamp := if role = .acting then t.count else t.stamp, errEst := 0, filtered := 0, parent := none, hops := 0, due := none, stepTo := none }).fire 111

/-- TIME_ROLE is set to Master (R20, R25). -/
def appointMaster (s : State) : State :=
  if s.time.role = .master then s
  else
    let s0 := if s.time.st = .free then
        missActions (s.updTime fun t => { t with count := s.reg Dict.TIME_START_COUNT }) (s.reg Dict.TIME_START_COUNT)
      else s
    timeEnter (becomeMaster s0 .master) .locked

/-- TIME_ROLE is set to Follower or Standby (R20). A master keeps its count and state, chooses a parent at the same boundary,
and its newest stamp is its own last one. -/
def demote (s : State) (role : TRole) : State :=
  if isMaster s.time then
    let s1 := s.updTime fun t => { t with role := role, parent := none, hops := 0xFF }
    parentChoice s1 true
  else s.updTime fun t => { t with role := role }

/-! ### Stitch actions -/

/-- A row of TIME_ACTIONS as read (R32). -/
def actionRow (a : Action) : Nat :=
  put a.target 127 64 + put a.action 63 56 + put a.st.code 55 52 + put a.arg 31 0

/-- A row written at a boundary is judged (R33). -/
def writeAction (s : State) (row v : Nat) : State :=
  let act := fld v 63 56
  let old := tget {} s.time.actions row
  let set (a : Action) : State := s.updTime fun t => { t with actions := tset {} t.actions row a }
  if act = 0 then
    (if old.st = .pending then set { old with st := .cancelled } else s)
  else if s.time.count < fld v 127 64 then
    set { target := fld v 127 64, action := act, st := .pending, arg := fld v 31 0 }
  else
    ((set { target := fld v 127 64, action := act, st := .missed, arg := fld v 31 0 }).raise 0x0207).fire 114

/-! ### What the objects read -/

/-- A value in ps as an I32 reads it; the spec states no reading of one that is out of range. -/
def psWord (s : State) (v : Int) : Nat := if -2147483648 ≤ v ∧ v ≤ 2147483647 then ofSigned 32 v else s.free / 65536 % 2 ^ 32

/-- The values of the status objects of range 0x0200; none for an object that is not one of them (R41). -/
def timeView (s : State) (id row : Nat) : Option Nat :=
  let t := s.time
  match id with
  | 0x020000 => some t.count
  | 0x020001 => some (s.free % 65536)
  | 0x020100 => some t.st.code
  | 0x020101 => some (psWord s t.errEst)
  | 0x020102 => some (t.parent.getD 0xFF)
  | 0x020103 => some t.hops
  | 0x020104 => some t.masterFna
  | 0x020105 => some t.gen
  | 0x020106 => some t.stamp
  | 0x020200 => some t.role.code
  | 0x020301 => some (s.tport row).delay
  | 0x020302 => some (psWord s (s.tport row).offset)
  | 0x020401 => some t.inStatus
  | 0x020402 => some t.inResidue
  | 0x020500 => some (actionRow (tget {} t.actions row))
  | 0x020501 => some t.snapStitch
  | 0x020502 => some t.snapGrade
  | 0x020503 => some t.snapSeq
  | 0x020600 => some (tget 0 s.exe.overruns row)
  | 0x020601 => some (tget 0 s.exe.worst row)
  | _ => none

/-! ### Commands -/

/-- The core of a slice of R39, slices numbered in its order. -/
def sliceCore (slice : Nat) : Nat :=
  match slice with
  | 0 => 0 | 1 => 0 | 2 => 1 | 3 => 2 | 4 => 3 | 5 => 4 | 6 => 5 | 7 => 6 | _ => 7

/-- An overrun of the servo task breaks the run of exchanges that leads from Doubt to Locked (R25). -/
def servoStopped (s : State) (slice : Nat) : State :=
  if slice = 0 ∧ s.time.st = .doubt then
    s.updTime fun t => { t with lockRun := 0, due := if t.due = some .locked then none else t.due }
  else s

/-- COBBLER_SLICE_END: a task's slice ends, complete or overrun (R40). A third overrun in a row is logged, and takes effect, at the
next boundary; the stitch services are behind from the first. -/
def execCobblerSliceEnd (slice cycles : Nat) (done : Bool) (s : State) : Host.Outcome State Fault Refusal :=
  if 9 ≤ slice then .fault .noSuchCore
  else
    let e := s.exe
    let e1 : Cobbler := { e with worst := tset 0 e.worst slice (max cycles (tget 0 e.worst slice) % 65536) }
    if done then .next { s with exe := { e1 with runs := tset 0 e1.runs slice 0 } }
    else
      let run := tget 0 e.runs slice + 1
      let e2 : Cobbler := { e1 with
        overruns := tset 0 e1.overruns slice ((tget 0 e1.overruns slice + 1) % 2 ^ 32)
        runs := tset 0 e1.runs slice run
        servicesBehind := e1.servicesBehind || slice = 1
        dictBehind := e1.dictBehind || slice = 2
        servoWhole := e1.servoWhole && slice ≠ 0
        due := if run = 3 then e1.due ++ [slice] else e1.due }
      .next ((servoStopped { s with exe := e2 } slice).count 0x106)

/-- STANDBY_TAKEOVER: the standby takes over once its count has run TIME_TAKEOVER_ST past the newest stamp (R18). -/
def execStandbyTakeover (s : State) : Host.Outcome State Fault Refusal :=
  let t := s.time
  if t.role = .standby ∧ t.st ≠ .free ∧ t.hasStamp ∧ s.reg Dict.TIME_TAKEOVER_ST ≤ t.count - t.stamp then
    .next ((timeEnter (becomeMaster s .acting) .locked).raise 0x0204)
  else .next s

/-- TIME_NO_SYNC_LIMIT: more than 1,024 st without sync takes a Locked or Doubt router to Lost (R25). -/
def execTimeNoSyncLimit (s : State) : Host.Outcome State Fault Refusal :=
  let t := s.time
  if (t.st = .locked ∨ t.st = .doubt) ∧ !isMaster t ∧ 1024 < t.count - t.stamp then .next (timeEnter s .lost)
  else .next s

/-- TIME_ACQUIRE_SLOW: 8 fr spent in Acquiring (R25). -/
def execTimeAcquireSlow (s : State) : Host.Outcome State Fault Refusal :=
  let t := s.time
  if t.st = .acquiring ∧ 8192 ≤ t.count - t.acquireAt ∧ !t.slowLogged then
    .next ((s.updTime fun t => { t with slowLogged := true }).raise 0x020A)
  else .next s

/-- TIME_ROLE_MASTER: the boundary that applies TIME_ROLE = Master (R20). -/
def execTimeRoleMaster (s : State) : Host.Outcome State Fault Refusal := judged s 0 (appointMaster s)

/-- TIME_ROLE_FOLLOWER: the boundary that applies TIME_ROLE = Follower (R20). -/
def execTimeRoleFollower (s : State) : Host.Outcome State Fault Refusal := judged s 0 (demote s .follower)

/-- TIME_ROLE_STANDBY: the boundary that applies TIME_ROLE = Standby (R20). -/
def execTimeRoleStandby (s : State) : Host.Outcome State Fault Refusal := judged s 0 (demote s .standby)

/-- TIME_IN_EDGE: a rising edge of TIME_IN with the count modulo 9,765,625 it falls on and its distance from where
it is expected (R27). Only a master in mode PPS honours it. -/
def execTimeInEdge (residue missNs : Nat) (s : State) : Host.Outcome State Fault Refusal :=
  let t := s.time
  if !isMaster t ∨ s.reg Dict.TIME_IN_MODE ≠ 1 then .next s
  else if t.inStatus ≠ 2 then
    .next ((s.updTime fun t => { t with inStatus := 2, inResidue := residue % 9765625, inMissed := 0 }).fire 112)
  else if missNs ≤ 1000 then
    .next (s.updTime fun t =>
      { t with inMissed := 0, inSteer := max (-1000) (min 1000 (Config.timeInSteer missNs)) })
  else .next (s.updTime fun t => { t with inMissed := t.inMissed + 1 })

/-- TIME_IN_LOST: the third missing or misplaced edge in a row (R27). -/
def execTimeInLost (s : State) : Host.Outcome State Fault Refusal :=
  let t := s.time
  if isMaster t ∧ s.reg Dict.TIME_IN_MODE = 1 ∧ t.inStatus = 2 then
    .next (((s.updTime fun t => { t with inStatus := 3, inMissed := 0 }).raise 0x0205).fire 112)
  else .next s

/-- TIME_ACTIONS_WRITE: a row of TIME_ACTIONS is applied at the boundary of the present count (R32, R33). -/
def execTimeActionsWrite (row value : Nat) (s : State) : Host.Outcome State Fault Refusal :=
  if 16 ≤ row then .fault .noSuchRow
  else judged s (if 3 < fld value 63 56 then 6 else 0) (writeAction s row value)

end Sys2Proof.Machine
end

