-- ==== Sys2Proof/Machine/Rx.lean ====
section
/-!
DEFINITION. What a received flit does (R101 to R118, R127, R183, R184, R188), and the commands that reach from the line into lasts: a time
exchange, a change of FEC mode, and a port's idle timer.
-/
namespace Sys2Proof.Machine

/-! ### Time probes (R21, R214) -/

/-- An exchange on a port, with the shift that its accepted delay gives (R21, R22, R214). -/
def probeIn (s : State) (p n t1 t4 : Nat) (b : TimeProbe) : State :=
  let s1 := probeReceive s p n t1 t4 b
  if probesRun (s.link p) ∧ (s.lane p).st ≠ .loopback ∧ (s1.tport p).goodRun ≠ 0 then
    shiftChanged s1 p (some (shiftBase (s1.tport p).delay (isBypass s1 p))) false
  else s1

/-- A probe that came as a flit: its times on the own clock are those of the own marker, whose phase is not known to the model, and of the partner's
newest marker. -/
def probeFlit (s : State) (p : Nat) (b : TimeProbe) : State :=
  probeIn s.took p b.mstitch (b.mstitch * 65536 + s.free % 65536) (s.tport p).t2 b

/-- TIME_PROBE_RECEIVE: a probe on a port completes the exchange of stitch n, whose own marker left at t1 and whose partner's marker
arrived at t4 (R22). -/
def execTimeProbeReceive (port n t1 t4 : Nat) (probe : TimeProbe) (s : State) : Host.Outcome State Fault Refusal :=
  onPort port (probeIn s port n t1 t4 probe)

/-! ### Control flits -/

/-- A flit of a credited subtype has been consumed (R118). -/
def bpConsumed (s : State) (p : Nat) : State := s.updLink p fun l => ({ l with bpFreed := (l.bpFreed + 1) % 65536 } : LinkPort).noteFreed

/-- A control flit (R119, R127). -/
def controlIn (s : State) (p body : Nat) : State :=
  let l := s.link p
  let sub := subtypeOf body
  if l.st = .listening then (if sub = 7 then initIn s p (unpackInit body) else s)
  else match sub with
    | 1 => ackcrIn s p (unpackAckcr body)
    | 2 => replayIn s p (fld body 471 460) (fld body 459 456)
    | 3 => probeFlit s p (unpackProbe body)
    | 4 => forEach (bpConsumed s p) (unpackRecords body) fun s r => hintIn s p (unpackHint r)
    | 5 => forEach (bpConsumed s p) (unpackRecords body) fun s r => signalIn s p (unpackSig r)
    | 6 => syncIn s p (unpackSync body)
    | 7 => s
    | _ => (s.count 0x20F p).raise 0x040B 1 p

/-! ### Sequenced flits -/

/-- A framing error (R104, R129). -/
def framingError (s : State) (p : Nat) : State := if inService (s.link p) then isolatePort (s.raise 0x0408 1 p) p else s

/-- A credit overrun (R117). -/
def creditOverrun (s : State) (p : Nat) : State := isolatePort (s.raise 0x0407 1 p) p

/-- The shared space lent to a busy VC (R184). -/
def lend (s : State) (p v : Nat) : State :=
  let x := s.inPort p
  if committed x v < 2 * inDepth s p v ∧ 64 ≤ sharedFree x ∧ x.loan.getD v 0 + 64 ≤ s.reg Dict.SW_LOAN_MAX v ∧ !bitAt x.lent v then
    (s.updIn p fun x => { x with loan := listUpd x.loan v (· + 64), lent := x.lent + 2 ^ v }).updLink p fun l =>
      ({ l with freed := listUpd l.freed v fun n => (n + 64) % 65536 } : LinkPort).noteFreed
  else s

/-- A sequenced flit is taken in sequence: its data count and its number advance (R105, R113). -/
def tookData (s : State) (p v : Nat) : State :=
  s.updLink p fun l => { l.accept with rcvd := listUpd l.rcvd v fun n => (n + 1) % 65536 }

/-- A data flit that is accepted and then discarded frees its space at once (R127). -/
def dropData (s : State) (p v : Nat) : State :=
  s.updLink p fun l => ({ l with freed := listUpd l.freed v fun n => (n + 1) % 65536 } : LinkPort).noteFreed

/-- The first flit of a packet at a port in Quarantine on a VC other than VC3: the packet is discarded whole (R127). -/
def refusedHere (l : LinkPort) (v : Nat) : Bool := l.st = .quarantine && v ≠ 3

/-- What a packet's flits have come to after one was taken: a BAD one of which nothing has left is discarded (R188), otherwise its flits
cross. -/
def tookFlit (s : State) (id : Nat) : State :=
  match s.pkt? id with
  | none => s
  | some k =>
    if k.eop ∧ k.bad ∧ !k.begun then discardBad s k
    else crossMore (settle s id) id

/-- The SOP flit of a packet is stored (R104, R183). -/
def firstFlit (s : State) (p v body : Nat) (eop bad : Bool) : State :=
  let h := unpackHead body
  let id := s.sw.nextId
  let s1 := holdPkt s
    { inPort := p, inVc := v, hdr := h, flits := [body], total := flitCount h, eop := eop, bad := eop && bad }
  let s2 := s1.updLink p fun l => { l with rxOpen := if eop then none else some { vc := v, pkt := id } }
  let s3 := stamp s2 id 0
  tookFlit (lend (if eop then stamp s3 id 5 else s3) p v) id

/-- A later flit of the open packet is stored. -/
def nextFlit (s : State) (p v id body : Nat) (eop bad : Bool) : State :=
  let s1 := s.updPkt id fun k => { k with flits := k.flits ++ [body], eop := eop, bad := k.bad || (eop && bad) }
  let s2 := if eop then stamp (s1.updLink p fun l => { l with rxOpen := none }) id 5 else s1
  tookFlit (lend s2 p v) id

/-- A data flit in sequence (R104, R113, R117, R127). -/
def dataIn (s : State) (p ctl body : Nat) : State :=
  let l := s.link p
  let v := fld ctl 5 3
  let sop := bitAt ctl 2
  let eop := bitAt ctl 1
  let bad := bitAt ctl 0
  let wrong := match l.rxOpen with
    | none => !sop
    | some r => sop || r.vc ≠ v
  if wrong then framingError s p
  else if committed (s.inPort p) v ≤ inDepth s p v then creditOverrun s p
  else
    let s1 := tookData s p v
    match l.rxOpen with
    | none =>
      if refusedHere l v then
        ((dropData s1 p v).updLink p fun l => { l with rxOpen := if eop then none else some { vc := v, drop := true } }).raise 0x0409 1 p
      else firstFlit s1 p v body eop bad
    | some r =>
      if r.drop then (dropData s1 p v).updLink p fun l => { l with rxOpen := if eop then none else l.rxOpen }
      else nextFlit s1 p v r.pkt body eop bad

/-- A lasted flit in sequence (R127, R220). -/
def lastedSeq (s : State) (p pos ctl body : Nat) : State :=
  let l := s.link p
  let s1 := s.updLink p (·.accept)
  if l.st = .quarantine then s1 else lastedIn s1 p pos body (bitAt ctl 0)

/-- A sequenced flit: discarded while Discarding, outside service, or behind NE; otherwise taken (R105, R109, R111, R127). -/
def seqIn (s : State) (p pos ctl body : Nat) : State :=
  let l := s.link p
  if !(inService l) || l.discarding then s
  else if 0 < l.behind then s.updLink p fun l => { l with behind := l.behind - 1 }
  else if fld ctl 7 6 = 1 then dataIn s p ctl body
  else lastedSeq s p pos ctl body

/-- A flit on a port whose lanes are Up (R101 to R104, R127). A flit that the lanes discard after a change of FEC mode is bad once (R85). -/
def flitIn (s : State) (p pos f : Nat) (spoiled : Bool) : State :=
  let l := s.link p
  if (s.lane p).st ≠ .up ∨ s.mon.fault.fatal ∨ l.st = .down then s
  else if (s.lane p).blind then (if inService l && !l.discarding then badFlit s p else s)
  else if spoiled || !flitGood f then badFlit s p
  else
    let c := flitCtl f
    if !ctlLegal c then framingError s p
    else match fld c 7 6 with
      | 0 => s
      | 2 => controlIn s p (flitBody f)
      | _ => seqIn s p pos c (flitBody f)

/-- FLIT_RECEIVE: a flit in a slot, with the position in which its partner sent it, and whether a codeword that could not be corrected held a
block of it (R83, R103, R213). -/
def execFlitReceive (port pos : Nat) (flit : BitVec 512) (spoiled : Bool) (s : State) : Host.Outcome State Fault Refusal :=
  onPort port (flitIn s port pos flit.toNat spoiled)

/-! ### FEC mode and the idle timer -/

/-- A row of LANE_FEC_RX_MODE applied: slots are discarded until the next accepted marker, and the shift follows the mode (R85, R214,
R230). -/
def applyFecMode (s : State) (p v : Nat) : State :=
  if s.reg Dict.LANE_FEC_RX_MODE p = v then s
  else
    let s1 := (s.setReg Dict.LANE_FEC_RX_MODE p v).updLane p fun l => { l with blind := l.blind || l.st = .up }
    match tget none s.lasts.base p with
    | some _ => shiftChanged s1 p (some (shiftBase (s.tport p).delay (v = 1))) true
    | none => s1

/-- LANE_FEC_RX_MODE_WRITE: the boundary that applies a row of LANE_FEC_RX_MODE (R84, R85). -/
def execLaneFecRxModeWrite (port value : Nat) (s : State) : Host.Outcome State Fault Refusal :=
  if 96 ≤ port then .fault .noSuchPort else judged s (fecCheck s port value) ((applyFecMode s port value).persists Dict.LANE_FEC_RX_MODE port)

/-- A port carries an active last (R95). -/
def carriesLast (s : State) (p : Nat) : Bool :=
  s.lasts.entries.any fun c => c.2.st = .active && (lastIn c.1 = p || c.2.outPort = p)

/-- A port's transmit direction is idle (R132). -/
def transmitIdle (s : State) (p : Nat) : Bool :=
  let l := s.link p
  outstanding l = 0 && l.replayPos.isNone && outTotal s p = 0 &&
  !(s.lasts.entries.any fun c => c.2.outPort = p && !c.2.queue.isEmpty)

/-- A port could request rest, its idle timer apart (R95). -/
def couldRest (s : State) (p : Nat) : Bool :=
  s.reg Dict.PWR_REST_ENABLE p = 1 && transmitIdle s p && (s.link p).st = .admitted && (s.lane p).st = .up &&
  s.time.parent ≠ some p && !carriesLast s p

/-- REST_IDLE_TIMER_EXPIRY: the port has been idle for PWR_REST_IDLE_FR frames without a break (R95, R481). -/
def execRestIdleTimerExpiry (port : Nat) (s : State) : Host.Outcome State Fault Refusal :=
  onPort port (if couldRest s port ∧ s.reg Dict.PWR_REST_IDLE_FR ≤ (s.lane port).idleFrames then
    s.updLane port fun l => { l with askRest := true } else s)

end Sys2Proof.Machine
end

