-- ==== Sys2Proof/Machine/Crypto.lean ====
section
/-!
DEFINITION. The two algorithms of a signed firmware set: the digest SHAKE256 of FIPS 202 (R496, R499) and the signatures Ed448 of
RFC 8032, pure form with an empty context (R496). Both are written from their published standards, which the spec names
and does not repeat (PRESUMED).
-/
namespace Sys2Proof.Machine

/-! ### SHAKE256 -/

/-- A 64-bit lane turned left. -/
def rotl64 (v n : Nat) : Nat := ((v <<< n) ||| (v >>> (64 - n))) % 2 ^ 64

/-- The rotations of the lanes, by x + 5 y. -/
def keccakRot : List Nat :=
  [0, 1, 62, 28, 27, 36, 44, 6, 55, 20, 3, 10, 43, 25, 39, 41, 45, 15, 21, 8, 18, 2, 61, 56, 14]

/-- The constants of the 24 rounds. -/
def keccakRound : List Nat :=
  [0x0000000000000001, 0x0000000000008082, 0x800000000000808A, 0x8000000080008000, 0x000000000000808B, 0x0000000080000001,
   0x8000000080008081, 0x8000000000008009, 0x000000000000008A, 0x0000000000000088, 0x0000000080008009, 0x000000008000000A,
   0x000000008000808B, 0x800000000000008B, 0x8000000000008089, 0x8000000000008003, 0x8000000000008002, 0x8000000000000080,
   0x000000000000800A, 0x800000008000000A, 0x8000000080008081, 0x8000000000008080, 0x0000000080000001, 0x8000000080008008]

/-- A lane of a state of 25 lanes. -/
def laneAt (a : List Nat) (x y : Nat) : Nat := a.getD (x % 5 + 5 * (y % 5)) 0

/-- The 25 lanes of a state that a rule gives, by x and y. -/
def keccakLanes (f : Nat → Nat → Nat) : List Nat := (List.range 25).map fun i => f (i % 5) (i / 5)

/-- One round of the permutation: theta, rho with pi, chi, iota. -/
def keccakStep (a : List Nat) (rc : Nat) : List Nat :=
  let c := (List.range 5).map fun x => (List.range 5).foldl (fun v y => v ^^^ laneAt a x y) 0
  let t := keccakLanes fun x y => laneAt a x y ^^^ (c.getD ((x + 4) % 5) 0 ^^^ rotl64 (c.getD ((x + 1) % 5) 0) 1)
  let b := keccakLanes fun x y => rotl64 (laneAt t (x + 3 * y) x) (laneAt keccakRot (x + 3 * y) x)
  let d := keccakLanes fun x y => laneAt b x y ^^^ ((2 ^ 64 - 1 - laneAt b (x + 1) y) &&& laneAt b (x + 2) y)
  (d.headD 0 ^^^ rc) :: d.drop 1

/-- The permutation of 24 rounds. -/
def keccakF (a : List Nat) : List Nat := keccakRound.foldl keccakStep a

/-- A block of 136 bytes as 17 lanes. -/
def blockLanes (b : List Byte) : List Nat := (List.range 17).map fun i => natLE ((b.drop (8 * i)).take 8)

/-- A block is taken into the state. -/
def absorbBlock (a : List Nat) (b : List Byte) : List Nat :=
  let l := blockLanes b
  keccakF ((List.range 25).map fun i => a.getD i 0 ^^^ l.getD i 0)

/-- The blocks of a message, each of 136 bytes; the fuel bounds their number. -/
def absorbAll : Nat → List Nat → List Byte → List Nat
  | 0, a, _ => a
  | n + 1, a, m => absorbAll n (absorbBlock a (m.take 136)) (m.drop 136)

/-- The padded message: the domain bits of SHAKE, then pad10*1. -/
def shakePad (m : List Byte) : List Byte :=
  let room := 136 - m.length % 136
  if room = 1 then m ++ [0x9F#8] else m ++ [0x1F#8] ++ List.replicate (room - 2) 0#8 ++ [0x80#8]

/-- The first bytes of a state. -/
def squeezeBlock (a : List Nat) : List Byte := (a.take 17).flatMap fun v => bytesLE v 8

/-- So many blocks of output. -/
def squeezeAll : Nat → List Nat → List Byte
  | 0, _ => []
  | n + 1, a => squeezeBlock a ++ squeezeAll n (keccakF a)

/-- SHAKE256 of a message, n bytes. -/
def shake256 (m : List Byte) (n : Nat) : List Byte :=
  let p := shakePad m
  (squeezeAll ((n + 135) / 136) (absorbAll (p.length / 136) (List.replicate 25 0) p)).take n

/-! ### Ed448 -/

/-- The field's prime. -/
def ed448P : Nat := 2 ^ 448 - 2 ^ 224 - 1

/-- The order of the base point. -/
def ed448L : Nat := 2 ^ 446 - 13818066809895115352007386748515426880336692474882178609894547503885

/-- The curve's constant d = -39,081. -/
def ed448D : Nat := ed448P - 39081

/-- A point in projective coordinates. -/
structure EdPoint where
  x : Nat
  y : Nat
  z : Nat
deriving DecidableEq, Repr

/-- The neutral point. -/
def edZero : EdPoint := { x := 0, y := 1, z := 1 }

/-- The base point. -/
def edBase : EdPoint :=
  { x := 224580040295924300187604334099896036246789641632564134246125461686950415467406032909029192869357953282578032075146446173674602635247710
    y := 298819210078481492676017930443930673437544040154080242095928241372331506189835876003536878655418784733982303233503462500531545062832660
    z := 1 }

/-- The sum of two points. -/
def edAdd (p q : EdPoint) : EdPoint :=
  let a := p.z * q.z % ed448P
  let b := a * a % ed448P
  let c := p.x * q.x % ed448P
  let d := p.y * q.y % ed448P
  let e := ed448D * (c * d % ed448P) % ed448P
  let f := (b + ed448P - e) % ed448P
  let g := (b + e) % ed448P
  let h := (p.x + p.y) * (q.x + q.y) % ed448P
  { x := a * f % ed448P * ((h + 2 * ed448P - c - d) % ed448P) % ed448P
    y := a * g % ed448P * ((d + ed448P - c) % ed448P) % ed448P
    z := f * g % ed448P }

/-- A multiple of a point, by the bits of the factor below w, highest first. -/
def edMul (p : EdPoint) (k : Nat) : Nat → EdPoint
  | 0 => edZero
  | w + 1 => (List.range (w + 1)).foldl (fun r i =>
      let r2 := edAdd r r
      if bitAt k (w - i) then edAdd r2 p else r2) edZero

/-- A power in the field, by the bits of the exponent below 448. -/
def edPow (b e : Nat) : Nat :=
  (List.range 448).foldl (fun r i =>
    let r2 := r * r % ed448P
    if bitAt e (447 - i) then r2 * b % ed448P else r2) 1

/-- The two points are the same. -/
def edSame (p q : EdPoint) : Bool :=
  p.x * q.z % ed448P = q.x * p.z % ed448P && p.y * q.z % ed448P = q.y * p.z % ed448P

/-- The 57 bytes of a point. -/
def edEncode (p : EdPoint) : List Byte :=
  let zi := edPow p.z (ed448P - 2)
  let x := p.x * zi % ed448P
  let y := p.y * zi % ed448P
  bytesLE (y + (x % 2) * 2 ^ 455) 57

/-- The point that 57 bytes spell; none where they spell none. -/
def edDecode (bs : List Byte) : Option EdPoint :=
  let v := natLE bs
  let y := v % 2 ^ 455
  if bs.length ≠ 57 ∨ ed448P ≤ y then none
  else
    let u := (y * y + ed448P - 1) % ed448P
    let w := (ed448D * (y * y % ed448P) + ed448P - 1) % ed448P
    let u3w := u * u % ed448P * u % ed448P * w % ed448P
    let u5w3 := u3w * (u * u % ed448P) % ed448P * (w * w % ed448P) % ed448P
    let x := u3w * edPow u5w3 ((ed448P - 3) / 4) % ed448P
    if w * (x * x % ed448P) % ed448P ≠ u then none
    else if x = 0 ∧ bitAt v 455 then none
    else some { x := if x % 2 = b2n (bitAt v 455) then x else ed448P - x, y := y, z := 1 }

/-- The bytes that stand before what is hashed: pure form, empty context. -/
def edDomain : List Byte := [0x53#8, 0x69#8, 0x67#8, 0x45#8, 0x64#8, 0x34#8, 0x34#8, 0x38#8, 0#8, 0#8]

/-- A signature of 114 bytes over a message verifies under a public key of 57 bytes. -/
def ed448Verify (key msg sig : List Byte) : Bool :=
  match edDecode key, edDecode (sig.take 57) with
  | some a, some r =>
    let s := natLE (sig.drop 57)
    let k := natLE (shake256 (edDomain ++ sig.take 57 ++ key ++ msg) 114) % ed448L
    sig.length = 114 && decide (s < ed448L) &&
      edSame (edMul (edMul edBase s 448) 4 3) (edMul (edAdd r (edMul a k 448)) 4 3)
  | _, _ => false

/-- The secret scalar that the first half of a key's digest gives. -/
def edScalar (h : List Byte) : Nat :=
  let v := natLE (h.take 56) % 2 ^ 448
  (v - v % 4) % 2 ^ 447 + 2 ^ 447

/-- The public key of a secret key of 57 bytes. -/
def ed448Public (secret : List Byte) : List Byte := edEncode (edMul edBase (edScalar (shake256 secret 114)) 448)

/-- The signature over a message under a secret key. -/
def ed448Sign (secret msg : List Byte) : List Byte :=
  let h := shake256 secret 114
  let s := edScalar h
  let key := edEncode (edMul edBase s 448)
  let r := natLE (shake256 (edDomain ++ h.drop 57 ++ msg) 114) % ed448L
  let rb := edEncode (edMul edBase r 448)
  let k := natLE (shake256 (edDomain ++ rb ++ key ++ msg) 114) % ed448L
  rb ++ bytesLE ((r + k * s) % ed448L) 57

end Sys2Proof.Machine
end

