-- ==== Sys2Proof/Machine/Boot.lean ====
section
/-!
DEFINITION. Boot, identity and firmware (R493 to R513): the MRAM areas, the manifest and its checks, staging, the commit
records and the copy, the boot ROM's flow, and the attestation report.
-/
namespace Sys2Proof.Machine

/-- The state with the boot and firmware unit changed. -/
def State.updSec (s : State) (f : SecUnit → SecUnit) : State := { s with sec := f s.sec }

/-! ### The MRAM areas -/

/-- Bytes of an area, from an offset on (R509). -/
def areaBytes (t : Tbl Nat) (off n : Nat) : List Byte :=
  let first := off / 64
  let rows := (List.range ((off + n + 63) / 64 - first)).flatMap fun i => bytesBE (tget 0 t (first + i)) 64
  (rows.drop (off % 64)).take n

/-- A number that stands in an area, its first byte the most significant (R504). -/
def areaNat (t : Tbl Nat) (off n : Nat) : Nat := natBE (areaBytes t off n)

/-- The 4,096 bytes of a chunk. -/
def chunkBytes (t : Tbl Nat) (c : Nat) : List Byte := areaBytes t (4096 * c) 4096

/-- A digest of n bytes, as a number. -/
def shakeNat (m : List Byte) (n : Nat) : Nat := natBE (shake256 m n)

/-! ### The manifest -/

/-- The header's 2,048 bits (R504). -/
def mfHeader (t : Tbl Nat) : Nat := areaNat t 0 256

/-- A field of the header. -/
def mfField (t : Tbl Nat) (hi lo : Nat) : Nat := fld (mfHeader t) hi lo

/-- NPARTS, LENGTH, NCHUNKS, SVN, MIN_SVN, FW_VERSION and DICT_FORMAT (R504). -/
def mfParts (t : Tbl Nat) : Nat := mfField t 1999 1992
def mfLength (t : Tbl Nat) : Nat := mfField t 1695 1664
def mfChunks (t : Tbl Nat) : Nat := mfField t 1663 1648
def mfSvn (t : Tbl Nat) : Nat := mfField t 1759 1728
def mfMinSvn (t : Tbl Nat) : Nat := mfField t 1727 1696
def mfVersion (t : Tbl Nat) : Nat := mfField t 1823 1792
def mfDictFormat (t : Tbl Nat) : Nat := mfField t 1791 1760

/-- A part's entry of the part table (R504). -/
structure FwPart where
  kind : Nat
  len : Nat
  first : Nat
  chunks : Nat
  hash : Nat
deriving DecidableEq, Repr

/-- Entry i of the part table. -/
def mfPart (t : Tbl Nat) (i : Nat) : FwPart :=
  let e := areaNat t (256 + 96 * i) 96
  { kind := fld e 767 760, len := fld e 735 704, first := fld e 703 688, chunks := fld e 687 672, hash := fld e 511 0 }

/-- The parts of a set. -/
def partsOf (t : Tbl Nat) : List FwPart := (List.range (min 16 (mfParts t))).map (mfPart t)

/-- The chunk is one of a part (R507). -/
def partHas (p : FwPart) (c : Nat) : Bool := decide (p.first ≤ c) && decide (c < p.first + p.chunks)

/-- The chunk is a part chunk of the set. -/
def isPartChunk (t : Tbl Nat) (c : Nat) : Bool := (partsOf t).any fun p => partHas p c

/-- The part chunks of a set, in order. -/
def partChunks (t : Tbl Nat) : List Nat := (List.range 3072).filter (isPartChunk t)

/-- One past the last part chunk (R502). -/
def mfEnd (t : Tbl Nat) : Nat := (partsOf t).foldl (fun e p => max e (p.first + p.chunks)) 32

/-- The hash of a part chunk that the chunk map gives (R504). -/
def mapHash (t : Tbl Nat) (c : Nat) : Nat := areaNat t (1792 + 32 * (c - 32)) 32

/-- The chunk has the hash that the chunk map gives (R495, R507). -/
def chunkGood (t : Tbl Nat) (c : Nat) : Bool := shakeNat (chunkBytes t c) 32 = mapHash t c

/-- The digest that both signatures are made over: bytes 0 to LENGTH - 229 (R496, R504). -/
def mfDigest (t : Tbl Nat) : List Byte := shake256 (areaBytes t 0 (mfLength t - 228)) 64

/-- An object of 57 bytes as bytes. -/
def ownerKey (s : State) : List Byte := bytesBE (s.reg Dict.SEC_OWNER_KEY) 57

/-- An owner is enrolled (R500). -/
def enrolled (s : State) : Bool := s.reg Dict.SEC_OWNER_STATE = 1

/-- The two parts occupy no chunk in common (R508). -/
def partsApart (p q : FwPart) : Bool := decide (p.first + p.chunks ≤ q.first) || decide (q.first + q.chunks ≤ p.first)

/-- No two parts of a list overlap. -/
def allApart : List FwPart → Bool
  | [] => true
  | p :: l => l.all (partsApart p) && allApart l

/-- How many parts have a kind. -/
def kindCount (l : List FwPart) (k : Nat) : Nat := (l.filter fun p => p.kind = k).length

/-- A kind 8 part, as the part table shows it: one chunk, and once an owner is enrolled the measurement of the enrolled key, with the zeros
after it (R500). -/
def ownerPartOk (s : State) (p : FwPart) : Bool :=
  p.chunks = 1 && (!enrolled s || p.hash = shakeNat ((ownerKey s ++ List.replicate 4039 0#8).take p.len) 64)

/-- The part table meets the last check of R508. -/
def tableOk (s : State) (t : Tbl Nat) : Bool :=
  let l := partsOf t
  decide (mfParts t ≤ 16) && ([1, 2, 3, 4, 5, 6].all fun k => kindCount l k = 1) && decide (kindCount l 7 ≤ 1) && decide (kindCount l 8 ≤ 1) &&
  (l.all fun p => decide (1 ≤ p.kind) && decide (p.kind ≤ 8)) && allApart l &&
  (l.all fun p => decide (32 ≤ p.first) && decide (p.first + p.chunks ≤ 32 + mfChunks t) && decide (p.len ≤ 4096 * p.chunks)) &&
  (l.all fun p => p.kind ≠ 8 || ownerPartOk s p)

/-- A manifest is checked: 0 when it passes, else the REASON of the first check that fails (R508). -/
def manifestReason (s : State) (t : Tbl Nat) : Nat :=
  if mfField t 2047 2016 ≠ 0x455A4D46 ∨ mfField t 2015 2000 ≠ 1 ∨ mfLength t ≠ 1792 + 32 * mfChunks t + 228 ∨ 131072 < mfLength t ∨
      mfChunks t = 0 ∨ 3040 < mfChunks t then 1
  else if mfField t 1983 1856 ≠ s.reg Dict.ID_PART ∨ Config.fused 3 < mfField t 1855 1840 ∨ mfField t 1839 1824 < Config.fused 3 then 2
  else if shakeNat (bytesBE (mfField t 1535 1080) 57) 64 ≠ Config.fused 0x110101 then 3
  else if !ed448Verify (bytesBE (mfField t 1535 1080) 57) (mfDigest t) (areaBytes t (mfLength t - 228) 114) then 4
  else if enrolled s && !(bitAt (mfField t 1991 1984) 0 &&
      ed448Verify (ownerKey s) (mfDigest t) (areaBytes t (mfLength t - 114) 114)) then 5
  else if mfSvn t < s.reg Dict.SEC_MIN_SVN ∨ mfSvn t < mfMinSvn t then 6
  else if !tableOk s t then 7 else 0

/-! ### The contents of the special parts -/

/-- The part of a kind. -/
def partOfKind (t : Tbl Nat) (k : Nat) : Option FwPart := (partsOf t).find? fun p => p.kind = k

/-- A protection-map image's values would each be accepted by their objects (R505, R511). -/
def pmapImageOk (b : List Byte) : Bool :=
  let at' (i n : Nat) : Nat := natBE ((b.drop i).take n)
  ((List.range 19).all fun i => decide (at' (2 + i) 1 ≤ 3)) && at' 21 11 = 0 &&
  ((List.range 16).all fun i => decide (fld (at' (32 + 8 * i) 8) 62 50 = 0) && decide (fld (at' (32 + 8 * i) 8) 31 18 = 0)) &&
  decide (at' 160 2 ≤ 1023) && decide (at' 162 1 ≤ 1) && decide (at' 163 1 ≤ 1) && (b.drop 164).all fun x => x = 0#8

/-- The protection map takes the values of an image (R505). -/
def applyPmapImage (s : State) (b : List Byte) : State :=
  let at' (i n : Nat) : Nat := natBE ((b.drop i).take n)
  let s1 := s.setReg Dict.PMAP_FORMAT 0 (at' 0 2)
  let s2 := forEach s1 (List.range 19) fun s i => s.setReg Dict.PMAP_RANGE_RIGHTS i (at' (2 + i) 1)
  let s3 := forEach s2 (List.range 16) fun s i => s.setReg Dict.PMAP_MGMT_SOURCES i (at' (32 + 8 * i) 8)
  ((s3.setReg Dict.PMAP_VF_LIMIT 0 (at' 160 2)).setReg Dict.PMAP_MGMT_VF_ALLOW 0 (at' 162 1)).setReg Dict.PMAP_DEBUG_LOCK 0 (at' 163 1)

/-- An owner-enrolment part meets R500. -/
def ownerImageOk (s : State) (b : List Byte) : Bool :=
  ((b.drop 57).all fun x => x = 0#8) && (!enrolled s || b.take 57 = ownerKey s)

/-- A set verifies (R495). -/
def setVerifies (s : State) (t : Tbl Nat) : Bool :=
  manifestReason s t = 0 && (partChunks t).all (chunkGood t) &&
  ((partsOf t).all fun p => shakeNat (areaBytes t (4096 * p.first) p.len) 64 = p.hash) &&
  ((partsOf t).all fun p =>
    if p.kind = 7 then p.chunks = 1 && pmapImageOk (chunkBytes t p.first)
    else if p.kind = 8 then ownerImageOk s (chunkBytes t p.first) else true)

/-! ### Commit records -/

/-- A commit record's fields (R502). -/
structure Commit where
  copying : Bool := false
  next : Nat := 0
  upTo : Nat := 0
  svn : Nat := 0
  seq : Nat := 0
  digest : Nat := 0
deriving DecidableEq, Repr

/-- The 256 bits of a record with its CHECK (R502). -/
def packCommit (c : Commit) : Nat :=
  let v := put (b2n c.copying) 255 252 + put c.next 239 224 + put c.upTo 223 208 + put c.svn 207 176 + put c.seq 175 144 + put c.digest 143 16
  v + crc16 (v / 65536)

/-- The record that 256 bits hold; none where CHECK fails (R502). -/
def readCommit (v : Nat) : Option Commit :=
  if crc16 (v / 65536) = v % 65536 then
    some { copying := decide (fld v 255 252 = 1), next := fld v 239 224, upTo := fld v 223 208, svn := fld v 207 176
           seq := fld v 175 144, digest := fld v 143 16 }
  else none

/-- Copy B holds the record in force; none where neither copy is valid (R502). -/
def commitInB (u : SecUnit) : Option (Bool × Commit) :=
  match readCommit u.commitA, readCommit u.commitB with
  | some a, some b => if serialGt 32 b.seq a.seq then some (true, b) else some (false, a)
  | some a, none => some (false, a)
  | none, some b => some (true, b)
  | none, none => none

/-- The record in force. -/
def commitOf (u : SecUnit) : Option Commit := (commitInB u).map (·.2)

/-- A record is written to the copy that does not hold the one in force, with the next SEQ (R502). -/
def writeCommit (u : SecUnit) (c : Commit) : SecUnit :=
  match commitInB u with
  | some (true, old) => { u with commitA := packCommit { c with seq := (old.seq + 1) % 2 ^ 32 } }
  | some (false, old) => { u with commitB := packCommit { c with seq := (old.seq + 1) % 2 ^ 32 } }
  | none => { u with commitA := packCommit { c with seq := 1 } }

/-- The first 16 bytes of the digest of a set's manifest (R502). -/
def setDigest (t : Tbl Nat) : Nat := shakeNat (areaBytes t 0 (mfLength t)) 16

/-! ### The copy -/

/-- One chunk of the staging area is copied to the active one (R503). -/
def copyChunk (u : SecUnit) (c : Nat) : SecUnit :=
  { u with active := (List.range 64).foldl (fun t i => tset 0 t (64 * c + i) (tget 0 u.staging (64 * c + i))) u.active }

/-- The chunk copied after a chunk: the manifest's chunks, then the part chunks' range (R503). -/
def chunkAfter (t : Tbl Nat) (c : Nat) : Nat := if c < 32 ∧ (mfLength t - 1) / 4096 ≤ c then 32 else c + 1

/-- Up to n chunks are copied from NEXT on, each with its record; the second component says that NEXT reached END (R503). -/
def copyRun : Nat → SecUnit → Commit → SecUnit × Bool
  | 0, u, c => (u, decide (c.upTo ≤ c.next))
  | n + 1, u, c =>
    if c.upTo ≤ c.next then (u, true)
    else
      let c1 := { c with next := chunkAfter u.staging c.next }
      copyRun n (writeCommit (copyChunk u c.next) c1) c1

/-- What the end of a copy brings: the kind 7 and kind 8 parts, the floor, the Stable record, and staging Idle (R500, R503). -/
def activate (s : State) : State :=
  let t := s.sec.active
  let s1 := match partOfKind t 7 with
    | some p => applyPmapImage s (chunkBytes t p.first)
    | none => s
  let s2 := match partOfKind t 8 with
    | some p =>
      if enrolled s1 then s1
      else
        ((s1.setReg Dict.SEC_OWNER_KEY 0 (natBE ((chunkBytes t p.first).take 57))).setReg Dict.SEC_OWNER_STATE 0 1).updSec fun u =>
          { u with bootFaults := u.bootFaults ++ [0x1108] }
    | none => s1
  let s3 := s2.setReg Dict.SEC_MIN_SVN 0 (max (s2.reg Dict.SEC_MIN_SVN) (mfMinSvn t))
  (s3.updSec fun u =>
    let u1 := writeCommit u { upTo := mfEnd t, next := mfEnd t, svn := mfSvn t, digest := setDigest t }
    { u1 with stage := .idle, bitmap := 0, activated := true, bootFaults := u1.bootFaults ++ [0x1107] })

/-! ### The boot ROM's flow -/

/-- A fault of boot, logged at step 6 (R494). -/
def bootFault (s : State) (code : Nat) : State := s.updSec fun u => { u with bootFaults := u.bootFaults ++ [code] }

/-- The faults of boot are logged, with STITCH 0 (R494). -/
def logBootFaults (s : State) : State :=
  let s1 := forEach (s.updSec fun u => { u with bootFaults := [] }) s.sec.bootFaults fun s code =>
    { s with mon := s.mon.raiseAs s.regs s.time.count { code := code, cls := faultClass code } }
  if s.sec.bootFaults.any (fun c => faultClass c = .contained) then s1.event Dict.SEC_EVENTS 0 5 else s1

/-- Recovery: the protection map is sealed and the sideband alone is served; the faults so far are logged, since no step 6 follows
(R497). -/
def enterRecovery (s : State) : State :=
  logBootFaults (s.updSec fun u => { u with bootStatus := 1, sealed := true })

/-- Step 3 of R494: a Complete staged set is verified, and a record starts its copy. -/
def startCopy (s : State) (badStaging : Bool) : State :=
  if s.sec.stage ≠ .complete then s
  else if badStaging || !setVerifies s s.sec.staging then
    let s1 := if badStaging then bootFault s 0x1109 else s
    bootFault (s1.updSec fun u => { u with stage := .idle, bitmap := 0 }) 0x1104
  else
    s.updSec fun u => writeCommit u
      { copying := true, next := 0, upTo := mfEnd u.staging, svn := mfSvn u.staging, digest := setDigest u.staging }

/-- Steps 5 to 9 of R494, for the active set. -/
def bootActive (s : State) (hold badActive : Bool) : State :=
  let t := s.sec.active
  let named := (commitOf s.sec).any fun c => !c.copying && c.digest = setDigest t
  if badActive || !named || !setVerifies s t then
    enterRecovery (bootFault (if badActive then bootFault s 0x1109 else s) 0x1105)
  else
    let s1 := s.updSec fun u =>
      { u with measure := (List.range 16).foldl (fun m i => tset 0 m i (if i < mfParts t then (mfPart t i).hash else 0)) [] }
    let s2 :=
      if s.sec.formatTag = mfDictFormat t then s1
      else
        let keep (c : Nat × Nat) : Bool := decide (c.1 / 1048576 / 65536 = 0x0F)
        let isB (c : Nat × Nat) : Bool := decide (c.1 / 1048576 / 65536 = 0x11)
        let s3 : State := { s1 with mram := s1.mram.filter keep, regs := s1.regs.filter fun c => keep c || isB c }
        bootFault ((s3.updSec fun u => { u with formatTag := mfDictFormat t }).updCtl fun c =>
          { c with persistQ := c.persistQ.filter fun k => decide (k / 1048576 / 65536 = 0x0F) }) 0x0107
    let s4 := (s2.setReg Dict.ID_FW_VERSION 0 (mfVersion t)).setReg Dict.ID_DICT_FORMAT 0 (mfDictFormat t)
    if hold then s4.updSec fun u => { u with bootStatus := 2 }
    else s4.updSec fun u => { u with sealed := true }

/-- Steps 4 to 9 of R494: a set whose record is Copying is verified again and copied, up to where power is lost if it is. -/
def bootCopy (s : State) (hold badStaging badActive : Bool) (cut : Option Nat) : State :=
  match commitOf s.sec with
  | some c =>
    if !c.copying then bootActive s hold badActive
    else if badStaging || !setVerifies s s.sec.staging then enterRecovery (bootFault s 0x1109)
    else
      let r := copyRun (cut.getD 3072) { s.sec with stage := .copying } c
      let s1 : State := { s with sec := r.1 }
      if r.2 then bootActive (activate s1) hold badActive else s1
  | none => bootActive s hold badActive

/-- Step 5 of R475 as R493 and R494 give it. A record found Copying resumes its copy. -/
def bootRun (s : State) (sel : Nat) (badStaging badActive : Bool) (cut : Option Nat) : State :=
  let open' := s.reg Dict.PMAP_DEBUG_LOCK = 1
  let s1 := s.updSec fun u => { u with bootSel := sel % 4, bootStatus := 0, sealed := false, activated := false, measure := [] }
  let s2 := if sel % 4 = 3 ∨ (sel % 4 = 2 ∧ !open') then bootFault s1 0x1101 else s1
  if sel % 4 = 1 then enterRecovery s2
  else
    let hold := sel % 4 = 2 && open'
    if (commitOf s2.sec).any (·.copying) then bootCopy (bootFault s2 0x1106) hold badStaging badActive cut
    else bootCopy (startCopy s2 badStaging) hold badStaging badActive cut

/-! ### Staging -/

/-- FW_STAGE_DATA may be written at a row (R507). -/
def stageRowOpen (u : SecUnit) (row : Nat) : Bool :=
  match u.stage with
  | .manifest => decide (row < 2048)
  | .receiving => isPartChunk u.staging (row / 64) && !bitAt u.bitmap (row / 64)
  | _ => false

/-- A row of FW_STAGE_DATA is judged (R507). -/
def stageRowCheck (s : State) (row : Nat) : Nat := if stageRowOpen s.sec row then 0 else 0x0C

/-- A row of FW_STAGE_DATA is stored (R507). -/
def applyStageRow (s : State) (row v : Nat) : State :=
  (s.updSec fun u => { u with staging := tset 0 u.staging row (v % 2 ^ 512) }).count 0x880

/-- A write to FW_CHUNK_DONE is judged: busy when 16 checks wait (R507). -/
def chunkDoneCheck (s : State) (c : Nat) : Nat :=
  if s.sec.stage ≠ .receiving ∨ !isPartChunk s.sec.staging c ∨ bitAt s.sec.bitmap c then 0x0C
  else if 16 ≤ s.sec.checks.length then 0x0A else 0

/-- FW_CHUNK_DONE applied (R507). -/
def applyChunkDone (s : State) (c : Nat) : State := s.updSec fun u => { u with checks := u.checks ++ [c] }

/-- A write to FW_STAGE_CTL is judged by R506's transitions. -/
def stageCtlCheck (s : State) (v : Nat) : Nat :=
  match v with
  | 1 => if s.sec.stage = .copying then 0x0C else 0
  | 2 => if s.sec.stage = .manifest then 0 else 0x0C
  | 3 => if s.sec.stage = .manifest ∨ s.sec.stage = .receiving ∨ s.sec.stage = .complete then 0 else 0x0C
  | _ => 6

/-- Begin (R506). -/
def stageBegin (s : State) : State := s.updSec fun u => { u with stage := .manifest, bitmap := 0, reason := 0, checks := [] }

/-- Abort (R506). -/
def stageAbort (s : State) : State := s.updSec fun u => { u with stage := .idle, checks := [] }

/-- Manifest-done: the manifest is judged (R506, R508). -/
def stageManifest (s : State) : State :=
  let r := manifestReason s s.sec.staging
  if r = 0 then (s.updSec fun u => { u with stage := .receiving }).count 0x883
  else (((s.updSec fun u => { u with stage := .idle, reason := r }).count 0x884).raise 0x1102).event Dict.SEC_EVENTS 0 1

/-- FW_STAGE_CTL applied (R506). -/
def applyStageCtl (s : State) (v : Nat) : State :=
  match v with
  | 1 => stageBegin s
  | 2 => stageManifest s
  | _ => stageAbort s

/-- The part chunks whose bit is 0 (R511); none while no manifest has passed. -/
def stageMissing (u : SecUnit) : Nat :=
  match u.stage with
  | .receiving | .complete | .copying => ((partChunks u.staging).filter fun c => !bitAt u.bitmap c).length
  | _ => 0

/-- The result of a chunk's check (R506, R507). -/
def chunkResult (s : State) (c : Nat) (bad : Bool) : State :=
  if s.sec.stage ≠ .receiving then s
  else if bad || !chunkGood s.sec.staging c then
    let s1 := if bad then s.raise 0x1109 else s
    ((s1.count 0x882).raise 0x1103).event Dict.SEC_EVENTS 0 2
  else
    let s1 := (s.updSec fun u => { u with bitmap := u.bitmap ||| 2 ^ c }).count 0x881
    if stageMissing s1.sec = 0 then (s1.updSec fun u => { u with stage := .complete }).event Dict.SEC_EVENTS 0 0 else s1

/-! ### Attestation -/

/-- The secret identity key (R499). -/
def identityKey : List Byte :=
  shake256 ([0x43#8, 0x59#8, 0x50#8, 0x41#8, 0x4C#8, 0x59#8, 0x53#8, 0x2D#8, 0x45#8, 0x5A#8, 0x55#8, 0x52#8, 0x41#8, 0x2D#8, 0x49#8,
    0x44#8] ++ bytesBE Config.identitySeed 57) 57

/-- The objects of range 0x1180 to 0x11FF in ascending order (R501). -/
def mapObjects : List Obj :=
  [Dict.PMAP_FORMAT, Dict.PMAP_RANGE_RIGHTS, Dict.PMAP_MGMT_SOURCES, Dict.PMAP_VF_LIMIT, Dict.PMAP_MGMT_VF_ALLOW, Dict.PMAP_DEBUG_LOCK,
   Dict.SEC_OWNER_KEY, Dict.SEC_OWNER_STATE, Dict.SEC_MIN_SVN]

/-- The values of those objects in fabric byte order (R50, R501). -/
def mapBytes (s : State) : List Byte :=
  mapObjects.flatMap fun o => (List.range o.rows).flatMap fun r => bytesBE (s.reg o r) o.width

/-- KINDS of the report's header (R501). -/
def reportKinds (t : Tbl Nat) : Nat :=
  (List.range 16).foldl (fun a i => a * 256 + (if i < mfParts t then (mfPart t i).kind else 0)) 0

/-- Row 0 of a report (R501). -/
def reportHeader (s : State) : Nat :=
  let t := s.sec.active
  put 1 511 496 + put (mfParts t) 495 488 + put (b2n (enrolled s)) 487 487 + put (s.reg Dict.PMAP_DEBUG_LOCK) 486 486 +
  put (Config.fused 3) 479 464 + put (Config.fused 0x103) 463 448 + put (mfVersion t) 447 416 + put (mfDictFormat t) 415 384 +
  put (mfSvn t) 383 352 + put (s.reg Dict.SEC_MIN_SVN) 351 320 + put s.time.count 319 256 + put (Config.fused 4) 255 128 +
  put (reportKinds t) 127 0

/-- Rows 0 to 19 of a report (R501). -/
def reportRows (s : State) : List Nat :=
  [reportHeader s, s.sec.nonce, if enrolled s then shakeNat (ownerKey s) 64 else 0, shakeNat (mapBytes s) 64] ++
  (List.range 16).map fun i => tget 0 s.sec.measure i

/-- A report is built and signed (R501). -/
def buildReport (s : State) : State :=
  let rows := reportRows s
  let sig := natBE (ed448Sign identityKey (shake256 (rows.flatMap fun r => bytesBE r 64) 64)) * 2 ^ 112
  let all := rows ++ [fld sig 1023 512, fld sig 511 0]
  let tbl := (List.range 22).foldl (fun m i => tset 0 m i (all.getD i 0)) []
  ((s.updSec fun u => { u with attest := 2, report := tbl }).count 0x885).event Dict.SEC_EVENTS 0 3

/-- A write to SEC_ATTEST_NONCE is judged (R501). -/
def nonceCheck (s : State) : Nat := if s.sec.attest = 1 then 0x0C else 0

/-- SEC_ATTEST_NONCE applied (R501). -/
def applyNonce (s : State) (v : Nat) : State :=
  s.updSec fun u => { u with attest := 1, nonce := v % 2 ^ 512, nonceAt := s.time.count }

/-! ### What the objects read -/

/-- The values of the boot and firmware objects (R511). -/
def secView (s : State) (id row : Nat) : Option Nat :=
  let u := s.sec
  match id with
  | 0x110000 => some u.bootSel
  | 0x110001 => some u.bootStatus
  | 0x110100 => some (natBE (ed448Public identityKey))
  | 0x110101 => some (Config.fused 0x110101)
  | 0x110102 => some (tget 0 u.measure row)
  | 0x110201 => some u.attest
  | 0x110202 => some (tget 0 u.report row)
  | 0x110300 => some 0
  | 0x110301 => some (match u.stage with
    | .idle => 0 | .manifest => 1 | .receiving => 2 | .complete => 3 | .copying => 4)
  | 0x110302 => some u.reason
  | 0x110305 => some (fld u.bitmap (32 * row + 31) (32 * row))
  | 0x110306 => some (stageMissing u)
  | 0x110400 => some (if row = 0 then u.commitA else u.commitB)
  | _ => none

/-! ### Commands -/

/-- BOOT_ROM_RUN: step 5, with BOOT_SEL as sampled, the MRAM read errors met, and after how many copied chunks power is lost, if it
is (R493, R494). It runs once the core clock runs. -/
def execBootRomRun (bootSel : Nat) (badStaging badActive : Bool) (cut : Option Nat) (s : State) : Host.Outcome State Fault Refusal :=
  .next (if 3 ≤ s.pwr.step ∧ s.pwr.step < 6 ∧ !s.pwr.off ∧ !s.mon.fault.fatal then
      bootRun { s with pwr := { s.pwr with step := 5 } } bootSel badStaging badActive cut
    else s)

/-- Staging commands are served in Run and in Recovery (R497, R506). -/
def stagingServed (s : State) : Bool := coreUp s || inRecovery s

/-- FW_STAGE_BEGIN: the boundary that applies Begin (R506). -/
def execFwStageBegin (s : State) : Host.Outcome State Fault Refusal :=
  judgedAlways s (if stagingServed s then stageCtlCheck s 1 else 9) (stageBegin s)

/-- FW_STAGE_MANIFEST_DONE (R506, R508). -/
def execFwStageManifestDone (s : State) : Host.Outcome State Fault Refusal :=
  judgedAlways s (if stagingServed s then stageCtlCheck s 2 else 9) (stageManifest s)

/-- FW_STAGE_ABORT (R506). -/
def execFwStageAbort (s : State) : Host.Outcome State Fault Refusal :=
  judgedAlways s (if stagingServed s then stageCtlCheck s 3 else 9) (stageAbort s)

/-- FW_STAGE_DATA_WRITE: a row of FW_STAGE_DATA (R507). -/
def execFwStageDataWrite (row value : Nat) (s : State) : Host.Outcome State Fault Refusal :=
  if 196608 ≤ row then .fault .noSuchRow
  else if stagingServed s ∧ stageRowCheck s row ≠ 0 then judgedAlways (s.count 0x886) (stageRowCheck s row) s
  else judgedAlways s (if stagingServed s then 0 else 9) (applyStageRow s row value)

/-- FW_CHUNK_DONE (R507). -/
def execFwChunkDone (value : Nat) (s : State) : Host.Outcome State Fault Refusal :=
  if stagingServed s ∧ chunkDoneCheck s value ≠ 0 then judgedAlways (s.count 0x886) (chunkDoneCheck s value) s
  else judgedAlways s (if stagingServed s then 0 else 9) (applyChunkDone s value)

/-- CHUNK_CHECK_DONE: the oldest chunk check completes, with whether the MRAM read failed (R507, R509). -/
def execChunkCheckDone (bad : Bool) (s : State) : Host.Outcome State Fault Refusal :=
  match s.sec.checks with
  | [] => .next s
  | c :: rest => .next (chunkResult (s.updSec fun u => { u with checks := rest }) c bad)

/-- SEC_ATTEST_NONCE (R501). -/
def execSecAttestNonce (value : Nat) (s : State) : Host.Outcome State Fault Refusal :=
  judgedAlways s (if stagingServed s then nonceCheck s else 9) (applyNonce s value)

/-- ATTEST_REPORT_DONE (R501). -/
def execAttestReportDone (s : State) : Host.Outcome State Fault Refusal :=
  .next (if s.sec.attest = 1 ∧ stagingServed s then buildReport s else s)

end Sys2Proof.Machine
end

