-- ==== Sys2Proof/Machine/Float.lean ====
section
/-!
DEFINITION. Binary floating-point addition with round to nearest even, subnormals kept, over the formats that the atomics and the
collectives use (R309, R395).
-/
namespace Sys2Proof.Machine

/-- A binary interchange format: the bits of its exponent and of its fraction. -/
structure FpFmt where
  ebits : Nat
  mbits : Nat
deriving DecidableEq, Repr

/-- binary64, binary32 and bfloat16. -/
def fp64 : FpFmt := ⟨11, 52⟩
def fp32 : FpFmt := ⟨8, 23⟩
def bf16 : FpFmt := ⟨8, 7⟩

/-- The largest exponent field, of infinities and NaNs. -/
def FpFmt.emax (f : FpFmt) : Nat := 2 ^ f.ebits - 1

/-- The fields of a number of a format. -/
def FpFmt.sign (f : FpFmt) (x : Nat) : Bool := bitAt x (f.ebits + f.mbits)
def FpFmt.exp (f : FpFmt) (x : Nat) : Nat := fld x (f.ebits + f.mbits - 1) f.mbits
def FpFmt.frac (f : FpFmt) (x : Nat) : Nat := x % 2 ^ f.mbits

/-- A NaN. -/
def FpFmt.isNan (f : FpFmt) (x : Nat) : Bool := decide (f.exp x = f.emax) && decide (f.frac x ≠ 0)

/-- An infinity. -/
def FpFmt.isInf (f : FpFmt) (x : Nat) : Bool := decide (f.exp x = f.emax) && decide (f.frac x = 0)

/-- The quiet NaN with all fraction bits zero except the most significant (R395). -/
def FpFmt.qnan (f : FpFmt) : Nat := f.emax * 2 ^ f.mbits + 2 ^ (f.mbits - 1)

/-- The quiet NaN that an addition makes of two operands: which one the spec leaves open. -/
def FpFmt.addNan (f : FpFmt) (x y : Nat) : Nat :=
  f.qnan + Config.nanBits x y % 2 ^ (f.mbits - 1) + Config.nanBits x y / 2 ^ 63 % 2 * 2 ^ (f.ebits + f.mbits)

/-- The magnitude of a finite number in units of the least subnormal. -/
def FpFmt.mag (f : FpFmt) (x : Nat) : Nat :=
  if f.exp x = 0 then f.frac x else (2 ^ f.mbits + f.frac x) * 2 ^ (f.exp x - 1)

/-- A finite number in units of the least subnormal. -/
def FpFmt.val (f : FpFmt) (x : Nat) : Int := if f.sign x then -(f.mag x : Int) else (f.mag x : Int)

/-- A quotient by a power of two, rounded to nearest even. -/
def rneShift (v s : Nat) : Nat :=
  let q := v / 2 ^ s
  let r := v % 2 ^ s
  if 2 ^ s < 2 * r ∨ (2 * r = 2 ^ s ∧ q % 2 = 1) then q + 1 else q

/-- A magnitude in units of 2^-extra of the least subnormal, rounded to a format without its sign; beyond the largest number it is infinity. -/
def FpFmt.round (f : FpFmt) (v extra : Nat) : Nat :=
  let bits := if v = 0 then 0 else Nat.log2 v + 1
  let s := max extra (bits - (f.mbits + 1))
  let code := (s - extra) * 2 ^ f.mbits + rneShift v s
  min code (f.emax * 2 ^ f.mbits)

/-- The sign bit of a format, set or clear. -/
def FpFmt.signBit (f : FpFmt) (neg : Bool) : Nat := if neg then 2 ^ (f.ebits + f.mbits) else 0

/-- The sum of two numbers (R309). -/
def FpFmt.add (f : FpFmt) (x y : Nat) : Nat :=
  if f.isNan x ∨ f.isNan y ∨ (f.isInf x ∧ f.isInf y ∧ f.sign x ≠ f.sign y) then f.addNan x y
  else if f.isInf x then x
  else if f.isInf y then y
  else
    let z := f.val x + f.val y
    if z = 0 then f.signBit (f.sign x && f.sign y)
    else f.round z.natAbs 0 + f.signBit (decide (z < 0))

end Sys2Proof.Machine
end

