-- ==== Sys2Proof/Machine/Attach.lean ====
section
/-!
DEFINITION. The attach of the host: its modules and units (R242 to R245), the line cache and the watch list (R249, R252), the functions
and their resources (R253, R254), and who may reach the BARs (R257).
-/
namespace Sys2Proof.Machine

/-- The state with the host attach changed. -/
def State.updHost (s : State) (f : HostUnit → HostUnit) : State := { s with host := f s.host }

/-! ### Modules -/

/-- An attach module. -/
def State.module (s : State) (m : Nat) : Module := tget {} s.host.modules m

/-- The state with an attach module changed. -/
def State.updModule (s : State) (m : Nat) (f : Module → Module) : State :=
  s.updHost fun h => { h with modules := tupd {} h.modules m f }

/-- A module enters a state, which entry to Retrain and to Failed logs (R244, R265). -/
def moduleEnter (s : State) (m : Nat) (st : ModSt) : State :=
  let s1 := (s.updModule m fun x => { x with st := st, since := s.time.count }).event Dict.ATTACH_EVENTS 0 0
  match st with
  | .retrain => s1.raise 0x0807 9 m
  | .failed => s1.raise 0x0804 9 m
  | _ => s1

/-- A module returns to Reset (R244). -/
def moduleReset (s : State) (m : Nat) : State :=
  if (s.module m).st = .reset then s
  else (s.updModule m fun x => { x with st := .reset, fails := [] }).event Dict.ATTACH_EVENTS 0 0

/-- A module may train: its row of ATTACH_MODULE_ENABLE is 1, its supply is good and the core runs (R244, R473). -/
def moduleMayTrain (s : State) (m : Nat) : Bool :=
  decide (s.reg Dict.ATTACH_MODULE_ENABLE m = 1) && s.pwr.pgUcie && coreUp s && decide (s.pwr.st = .run)

/-- The lanes that a training repaired (R243). -/
def moduleRepaired (s : State) (m repaired : Nat) : State :=
  let s1 := s.updModule m fun x => { x with repaired := repaired % 256 }
  if repaired = 0 then s1 else s1.raise 0x0801 9 m

/-- A training has failed: three within one frame put the module in Failed (R244). -/
def trainingFailed (s : State) (m : Nat) : State :=
  let recent := s.time.count :: ((s.module m).fails.filter fun t => s.time.count < t + 1024)
  let s1 := s.updModule m fun x => { x with fails := recent.take 3 }
  if 3 ≤ recent.length then moduleEnter (s1.updModule m fun x => { x with fails := [] }) m .failed else s1

/-- A training or retraining ends (R243, R244). -/
def trainingEnds (s : State) (m : Nat) (r : TrainEnd) (repaired : Nat) : State :=
  match r with
  | .x64 => moduleEnter (moduleRepaired s m repaired) m .x64
  | .x32 => (moduleEnter (moduleRepaired s m repaired) m .x32).raise 0x0802 9 m
  | .failed => trainingFailed s m
  | .noHalf => moduleEnter s m .failed

/-- The units that the modules count (R245). -/
def unitsNow (s : State) : Nat :=
  sumOf (List.range 4) fun m => match (s.module m).st with
    | .x64 => 2 | .x32 => 1 | _ => 0

/-- U as the boundary finds it; a change is signalled, and U reaching 0 is a host-die reset (R245, R261, R265). -/
def unitsBoundary (s : State) : State :=
  let u := unitsNow s
  let was := s.host.units
  if u = was then s
  else
    let s1 := (s.updHost fun h => { h with units := u, dieDue := h.dieDue || u = 0 }).event Dict.ATTACH_EVENTS 0 1
    if u = 0 ∨ was = 0 then s1.event Dict.ATTACH_EVENTS 0 2 else s1

/-- ATTACH_LINK_STATE (R263): Training is read while the link is Down and a module trains. -/
def linkStateCode (s : State) : Nat :=
  if s.host.units ≠ 0 then 2
  else if (List.range 4).any fun m => decide ((s.module m).st = .training) then 1 else 0

/-- A command on a module of M0 to M3. -/
def onModule (m : Nat) (t : State) : Host.Outcome State Fault Refusal :=
  if m < 4 then .next t else .fault .noSuchModule

/-- MODULE_TRAIN_START: the host side starts training (R244). -/
def execModuleTrainStart (m : Nat) (s : State) : Host.Outcome State Fault Refusal :=
  onModule m (if (s.module m).st = .reset ∧ moduleMayTrain s m then moduleEnter s m .training else s)

/-- MODULE_TRAIN_DONE (R243, R244). -/
def execModuleTrainDone (m : Nat) (result : TrainEnd) (repaired : Nat) (s : State) : Host.Outcome State Fault Refusal :=
  onModule m (if (s.module m).st = .training then trainingEnds s m result repaired else s)

/-- MODULE_RETRAIN: the module's link state machine enters retrain (R244). -/
def execModuleRetrain (m : Nat) (s : State) : Host.Outcome State Fault Refusal :=
  onModule m (match (s.module m).st with
    | .x64 | .x32 => moduleEnter s m .retrain
    | _ => s)

/-- MODULE_RETRAIN_DONE (R243, R244). -/
def execModuleRetrainDone (m : Nat) (result : TrainEnd) (repaired : Nat) (s : State) : Host.Outcome State Fault Refusal :=
  onModule m (if (s.module m).st = .retrain then trainingEnds s m result repaired else s)

/-- MODULE_RETRAIN_TIMEOUT: a module is not Active within 1 ms of its entry to Retrain (R244). -/
def execModuleRetrainTimeout (m : Nat) (s : State) : Host.Outcome State Fault Refusal :=
  onModule m (if (s.module m).st = .retrain ∧ (s.module m).since + 9766 ≤ s.time.count then moduleEnter s m .failed else s)

/-- MODULE_FAILED_RETRY: 64 fr after its entry to Failed an enabled module trains again (R244). -/
def execModuleFailedRetry (m : Nat) (s : State) : Host.Outcome State Fault Refusal :=
  onModule m
    (if (s.module m).st = .failed ∧ (s.module m).since + 65536 ≤ s.time.count ∧ moduleMayTrain s m
     then moduleEnter s m .training else s)

/-- A row of ATTACH_MODULE_ENABLE applied: a 0 resets the module (R244). -/
def applyModuleEnable (s : State) (m v : Nat) : State :=
  let s1 := s.setReg Dict.ATTACH_MODULE_ENABLE m v
  if v = 0 then moduleReset s1 m else s1

/-- ATTACH_MODULE_ENABLE_WRITE (R244). -/
def execAttachModuleEnableWrite (m value : Nat) (s : State) : Host.Outcome State Fault Refusal :=
  if 4 ≤ m then .fault .noSuchModule
  else judged s (boolCheck value) ((applyModuleEnable s m value).persists Dict.ATTACH_MODULE_ENABLE m)

/-! ### Functions -/

/-- The row of ATTACH_FUNC of a function (R254). -/
def funcRow (s : State) (func : Nat) : Nat := s.reg Dict.ATTACH_FUNC func

/-- The fields of a function's row (R254). -/
def funcValid (s : State) (func : Nat) : Bool := bitAt (funcRow s func) 127
def qgFirst (s : State) (func : Nat) : Nat := fld (funcRow s func) 111 98
def qgCount (s : State) (func : Nat) : Nat := fld (funcRow s func) 97 83
def epFirst (s : State) (func : Nat) : Nat := fld (funcRow s func) 82 67
def epCount (s : State) (func : Nat) : Nat := fld (funcRow s func) 66 50
def pdFirst (s : State) (func : Nat) : Nat := fld (funcRow s func) 49 30
def pdCount (s : State) (func : Nat) : Nat := fld (funcRow s func) 29 9

/-- A number lies in a range given by its first and its count. -/
def inRange (x first n : Nat) : Bool := decide (first ≤ x) && decide (x < first + n)

/-- The function whose VALID row holds what the predicate says. -/
def findFunc (s : State) (holds : Nat → Bool) : Option Nat := (List.range 1024).find? fun f => funcValid s f && holds f

/-- The function that an endpoint belongs to. -/
def funcOfEp (s : State) (ep : Nat) : Option Nat := findFunc s fun f => inRange ep (epFirst s f) (epCount s f)

/-- The function that a protection domain belongs to. -/
def funcOfPd (s : State) (pd : Nat) : Option Nat := findFunc s fun f => inRange pd (pdFirst s f) (pdCount s f)

/-! ### The line cache and the watch list -/

/-- A line is held in the line cache; when 8,192 are held another is evicted, which one the spec leaves open (R249). -/
def cacheLine (s : State) (line own : Nat) : State :=
  if tget 0 s.host.cache line = 0 ∧ 8192 ≤ s.host.cache.length then
    let k := (s.host.cache.map (·.1)).getD (s.free % 8192) 0
    let s1 := (s.took.count 0x404).updHost fun h => { h with cache := tset 0 h.cache k 0 }
    s1.updHost fun h => { h with cache := tset 0 h.cache line own }
  else s.updHost fun h => { h with cache := tset 0 h.cache line own }

/-- The queues that watch a line. -/
def watchers (s : State) (line : Nat) : List Nat := (s.host.watch.filter fun w => w.2 = line + 1).map (·.1)

end Sys2Proof.Machine
end

