-- ==== Sys2Proof/Machine/Queues.lean ====
section
/-!
DEFINITION. The queues' register blocks, rings and states (R266 to R276), doorbells, pushes and watched producers (R283 to R285),
fetch (R286 to R289) and completion rings (R290 to R296).
-/
namespace Sys2Proof.Machine

/-- The state with the queues changed. -/
def State.updQueues (s : State) (f : QueueUnit → QueueUnit) : State := { s with queues := f s.queues }

/-- A queue by its global number. -/
def State.queue (s : State) (g : Nat) : Queue := tget {} s.queues.qs g

/-- The state with a queue changed. -/
def State.updQueue (s : State) (g : Nat) (f : Queue → Queue) : State :=
  s.updQueues fun u => { u with qs := tupd {} u.qs g f }

/-! ### Numbers and configuration -/

/-- The queue groups that a mode allows (R254, R266). -/
def modeGroups (mode : Nat) : Nat := if mode = 0 then 256 else 16384

/-- The global number of a function's local queue, while the function holds it (R257, R266). -/
def globalQueue (s : State) (func lq : Nat) : Option Nat :=
  if funcValid s func ∧ lq < 64 * qgCount s func ∧ 64 * qgFirst s func + lq < 64 * modeGroups s.queues.mode then
    some (64 * qgFirst s func + lq)
  else none

/-- The units of a ring by its order field (R272). -/
def ringUnits (order : Nat) : Nat := if order = 0 then 0 else 2 ^ (order + 5)

/-- The fields of Q_CONFIG (R272). -/
def Queue.crBase (q : Queue) : Nat := fld q.config 255 204 * 4096
def Queue.crUnits (q : Queue) : Nat := ringUnits (fld q.config 203 200)
def Queue.wrBase (q : Queue) : Nat := fld q.config 199 148 * 4096
def Queue.wrUnits (q : Queue) : Nat := ringUnits (fld q.config 147 144)
def Queue.pd (q : Queue) : Nat := fld q.config 143 124
def Queue.ep (q : Queue) : Nat := fld q.config 123 108
def Queue.igroup (q : Queue) : Nat := fld q.config 107 98
def Queue.cq (q : Queue) : Nat := fld q.config 97 78
def Queue.vector (q : Queue) : Nat := fld q.config 77 67
def Queue.dbFree (q : Queue) : Bool := bitAt q.config 66
def Queue.dbBound (q : Queue) : Bool := bitAt q.config 65
def Queue.watchLine (q : Queue) : Nat := fld q.config 64 7

/-- A queue is in Running or Stalled. -/
def Queue.live (q : Queue) : Bool := q.st = .running || q.st = .stalled

/-- The global number of the queue whose ring takes a queue's completions (R272). -/
def ringOf (s : State) (g : Nat) : Nat := g - (s.queue g).local' + (s.queue g).cq

/-- The function that holds a queue: the one that enabled it, or for a queue in Reset the one whose row has it. -/
def queueFunc (s : State) (g : Nat) : Nat :=
  if (s.queue g).st = .reset then (findFunc s fun f => inRange (g / 64) (qgFirst s f) (qgCount s f)).getD noInst else (s.queue g).func

/-! ### The completion rings -/

/-- The units of a ring written and not yet consumed, W (R295). -/
def Queue.written (q : Queue) : Nat := ringDist q.crUnits q.crCons q.crProd

/-- The free units of a ring (R295). -/
def Queue.freeUnits (q : Queue) : Nat := q.crUnits - q.written - q.owed - q.heldUnits

/-- The start and the end of a ring's exhaustion (R296). -/
def ringJudge (s : State) (r : Nat) : State :=
  let q := s.queue r
  if q.crUnits = 0 then s
  else if 0 < q.freeUnits then (if q.fullSince.isSome then s.updQueue r fun q => { q with fullSince := none } else s)
  else if q.fullSince.isSome then s
  else
    (((s.updQueue r fun q => { q with fullSince := some (s.time.count + 1) }).count 0x48A q.func).raise 0x0903 3 q.func).event
      Dict.QUEUE_EVENTS 0 1

/-- A change to a ring's counts. -/
def updRing (s : State) (r : Nat) (f : Queue → Queue) : State := ringJudge (s.updQueue r f) r

/-- A ring can take a unit (R295). -/
def ringCanTake (s : State) (r : Nat) : Bool := decide (0 < (s.queue r).freeUnits)

/-- A unit of a ring is owed (R295). -/
def oweUnit (s : State) (r : Nat) : State := updRing s r fun q => { q with owed := q.owed + 1 }

/-- An owed unit returns to the free units (R295). -/
def dropOwed (s : State) (r : Nat) : State := updRing s r fun q => { q with owed := q.owed - 1 }

/-- A unit is written at the producer index of a ring, whole and with its PHASE; its message follows once it has been observed
(R250, R268, R290, R293). -/
def writeUnit (s : State) (r unit : Nat) : State :=
  let q := s.queue r
  let n := q.crUnits
  let w := hostWrite s q.func (q.crBase + 64 * (q.crProd % n)) (bytesLE (unit + put (ringPhase n q.crProd) 63 63) 64)
  let s1 := (w.st.updQueue r fun q => { q with crProd := ringNext n q.crProd }).count 0x487 q.func
  if w.tags.isEmpty then s1 else waitFor s1 w.tags (.ringVector r)

/-- An owed unit is written (R295). -/
def writeOwed (s : State) (r unit : Nat) : State :=
  ringJudge ((writeUnit s r unit).updQueue r fun q => { q with owed := q.owed - 1 }) r

/-- A completion unit without its PHASE (R290). -/
def completionUnit (kind status opc queue wqIndex wqCons user done result : Nat) : Nat :=
  put kind 62 60 + put status 59 52 + put opc 51 44 + put queue 39 20 + put wqIndex 127 96 + put wqCons 95 64 +
  put user 191 128 + put done 255 223 + put result 511 256

/-- The vector of a ring goes out if the ring is armed (R293). -/
def ringVector (s : State) (r : Nat) : State :=
  let q := s.queue r
  if q.armed then (sendMsix (s.updQueue r fun q => { q with armed := false }) q.func q.vector).count 0x488 q.func else s

/-- The completions of a ring that the host has not yet observed. -/
def unobserved (s : State) (r : Nat) : Nat :=
  sumOf s.host.waits fun w => if w.act = .ringVector r ∧ !w.tags.isEmpty then 1 else 0

/-! ### Errors -/

/-- The fault of a reason (R299); its scope is the function, and for a lost context the queue. -/
def reasonFault (s : State) (g reason : Nat) : State :=
  let func := (s.queue g).func
  match reason with
  | 0x06 => s.raise 0x0902 3 func
  | 0x08 | 0x09 | 0x0C => s.raise 0x0905 3 func
  | 0x0A => s.raise 0x0904 3 func
  | 0x0E => s.raise 0x0906 4 g
  | _ => s.raise 0x0901 3 func

/-- A queue enters Error with a reason: it fetches nothing more, and writes its queue event in the unit held for it (R276). -/
def queueError (s : State) (g reason : Nat) : State :=
  let q := s.queue g
  if !q.live then s
  else
    let r := ringOf s g
    let s1 := s.updQueue g fun q => { q with st := .error, reason := reason, units := [], retryDue := false }
    let unit := completionUnit 2 reason 0 q.local' q.wqCons q.wqCons 0 0 0
    let s2 := ringJudge ((writeUnit s1 r unit).updQueue r fun q => { q with heldUnits := q.heldUnits - 1 }) r
    let row := put g 127 108 + put reason 107 100 + put q.wqCons 95 64 + put s.time.count 63 0
    (reasonFault (s2.updQueues fun u => { u with errLog := pushLog 64 row u.errLog }) g reason).event Dict.QUEUE_EVENTS 0 0

/-! ### Fetch -/

/-- Fetch stands still: the device is isolated, in Hold or Fatal, or the queue's function is in reset (R256, R461). -/
def fetchStopped (s : State) (func : Nat) : Bool :=
  s.mon.fault.isolated || s.mon.fault.hold || s.mon.fault.fatal || fnResetting s func || !coreUp s

/-- The marker of a cached unit. -/
def unitMark : Nat := 2 ^ 512

/-- A cached unit of a queue. -/
def cachedUnit (q : Queue) (i : Nat) : Option Nat :=
  let v := tget 0 q.units i
  if v = 0 then none else some (v - unitMark)

/-- The indices that fetch may hold: those covered, and in default fetch up to QUEUE_PREFETCH beyond, within a cache slot's
16 units and the ring (R287, R289). -/
def fetchWindow (s : State) (q : Queue) : List Nat :=
  let n := q.wrUnits
  let d := ringDist n q.wqCons q.wqProd
  let ahead := if q.dbBound then 0 else s.reg Dict.QUEUE_PREFETCH
  let want := if d = 0 then 0 else min (min (d + ahead) 16) n
  (List.range want).map fun i => (q.wqCons + i) % (2 * n)

/-- A unit is held, asked for, or waits for its retry. -/
def unitInHand (q : Queue) (i : Nat) : Bool :=
  (cachedUnit q i).isSome || q.asked.contains i || (q.retryDue && q.retryIdx = i)

/-- The indices from the first missing one on that one read can bring: consecutive slots of the ring that are neither held
nor asked for. -/
def missingRun (q : Queue) : List Nat → List Nat
  | [] => []
  | i :: rest =>
    if unitInHand q i then []
    else if (i + 1) % q.wrUnits = 0 then [i] else i :: missingRun q rest

/-- One read of the queue's work ring, if anything of its fetch window is missing (R286, R287). -/
def fetchOnce (s : State) (g : Nat) : State :=
  let q := s.queue g
  if q.st ≠ .running ∧ q.st ≠ .stalled ∨ fetchStopped s q.func ∨ q.wrUnits = 0 then s
  else
    let run := missingRun q ((fetchWindow s q).dropWhile (unitInHand q))
    match run with
    | [] => s
    | i :: _ =>
      let r := hostRead s q.func (q.wrBase + 64 * (i % q.wrUnits)) (64 * run.length) (.unit g i run.length)
      if r.2 then
        let d := ringDist q.wrUnits q.wqCons q.wqProd
        let beyond := (run.filter fun j => d ≤ ringDist q.wrUnits q.wqCons j).length
        let s1 := (r.1.updQueue g fun q => { q with asked := q.asked ++ run }).count 0x483 q.func run.length
        if beyond = 0 then s1 else s1.count 0x484 q.func beyond
      else queueError r.1 g 0x08

/-- The queue's work ring is read as far as its window goes; three reads cover it across the ring's end and its holes. -/
def fetchQueue (s : State) (g : Nat) : State := fetchOnce (fetchOnce (fetchOnce s g) g) g

/-- A returned unit is kept when its phase is right for its index. An old phase beyond the producer is dropped; one that is covered
is read again 1 st later, and after QUEUE_PHASE_RETRIES times stops the queue (R287). -/
def takeUnit (s : State) (g i unit : Nat) : State :=
  let q := s.queue g
  let n := q.wrUnits
  if (cachedUnit q i).isSome ∨ n ≤ ringDist n q.wqCons i then s
  else if fld unit 63 63 = ringPhase n i then
    s.updQueue g fun q =>
      { q with units := tset 0 q.units i (unit + unitMark), retries := if q.retryIdx = i then 0 else q.retries }
  else
    let s1 := s.count 0x485 q.func
    if ringDist n q.wqCons q.wqProd ≤ ringDist n q.wqCons i then s1
    else if q.retryDue ∧ q.retryIdx ≠ i then s1
    else
      let tried := if q.retryIdx = i then q.retries else 0
      if s.reg Dict.QUEUE_PHASE_RETRIES ≤ tried then queueError s1 g 0x01
      else s1.updQueue g fun q => { q with retryDue := true, retryIdx := i, retries := tried, retryAt := s.time.count }

/-- The data of a work-ring read (R286, R287). -/
def unitsReturn (s : State) (g i n : Nat) (data : List Byte) (bad : Bool) : State :=
  let q := s.queue g
  let idxs := (List.range n).map fun k => (i + k) % (2 * q.wrUnits)
  let s1 := s.updQueue g fun q => { q with asked := q.asked.filter fun j => !idxs.contains j }
  if !q.live then s1
  else if bad then queueError s1 g 0x09
  else
    forEach s1 (List.range n) fun s k => if (s.queue g).live then takeUnit s g (idxs.getD k 0) (natLE ((data.drop (64 * k)).take 64)) else s

/-! ### Contexts on die (R266, R297) -/

/-- A queue without work, whose context may leave the die. -/
def Queue.idle (q : Queue) : Bool := q.wqProd = q.wqCons && q.order.isEmpty && q.asked.isEmpty && q.doors.isEmpty

/-- A queue's context is used; the one used least recently leaves the die when 8,192 are on it, one without work first. -/
def touchQueue (s : State) (g : Nat) : State :=
  let l := g :: s.queues.onDie.filter fun x => x ≠ g
  let s1 := (s.updQueues fun u => { u with onDie := l }).updQueue g fun q => { q with cached := true }
  if l.length ≤ 8192 then s1
  else
    let out := ((l.reverse.find? fun x => (s1.queue x).idle).getD (l.getLastD g))
    (s1.updQueues fun u => { u with onDie := l.filter fun x => x ≠ out }).updQueue out fun q => { q with cached := false }

/-- The size of a queue context in the store (R266). -/
def queueCtxBytes (s : State) : Nat := if s.queues.mode = 0 then 512 else 64

/-- Where a store area lies, in bytes from its base. -/
def storeOffset (s : State) (area : Nat) : Nat := sumOf (s.host.storeAreas.take area) id

/-- A producer index is judged on a queue whose context is at hand (R269, R283). -/
def ringDoor (s : State) (g new : Nat) : State :=
  let q := s.queue g
  if !q.live ∨ q.wrUnits = 0 then s.count 0x481 (queueFunc s g)
  else match judgeProducer q.wrUnits q.wqCons q.wqProd new with
    | .lap => queueError s g 0x06
    | .fresh => fetchQueue ((s.updQueue g fun q => { q with wqProd := new }).count 0x480 q.func) g
    | .stale => s.count 0x481 (queueFunc s g)

/-- A doorbell by any route. One to a queue whose context is not on die waits for it (R266, R283). -/
def doorbell (s : State) (g new : Nat) : State :=
  let q := s.queue g
  if !q.live then s.count 0x481 (queueFunc s g)
  else if q.cached then ringDoor (touchQueue s g) g new
  else
    let s1 := s.updQueue g fun q => { q with doors := q.doors ++ [new] }
    if q.doors.isEmpty then
      issueRead (s1.count 0x489 q.func) 0 (s.host.storeBase + storeOffset s 1 + queueCtxBytes s * g) (queueCtxBytes s) (.queueCtx g)
    else s1

/-- A queue's context has come from the store: the doorbells that waited are judged in order; a context that fails its check is lost
(R259, R286). -/
def queueCtxReturn (s : State) (g : Nat) (bad : Bool) : State :=
  let doors := (s.queue g).doors
  let s1 := s.updQueue g fun q => { q with doors := [] }
  if !(s.queue g).live then s1
  else if bad then queueError (s1.raise 0x0808) g 0x0E
  else forEach (touchQueue s1 g) doors fun s v => ringDoor s g v

/-! ### Register writes -/

/-- A write to the block of a function's local queue; a queue that the function does not hold refuses it (R257). -/
def onQueue (s : State) (func lq : Nat) (f : Nat → State) : Host.Outcome State Fault Refusal :=
  mmio s func (match globalQueue s func lq with
    | some g => f g
    | none => mmioRefused s func)

/-- WQ_PRODUCER_DOORBELL (R283). -/
def execWqProducerDoorbell (func queue value : Nat) (s : State) : Host.Outcome State Fault Refusal :=
  onQueue s func queue fun g => doorbell s g (value % 2 ^ 32)

/-- WQ_INVALIDATE: every cached unit at or beyond WQ_CONSUMER is discarded, unless the queue is doorbell-bounded (R288, R289). -/
def invalidateQueue (s : State) (g : Nat) : State :=
  let q := s.queue g
  if q.dbBound || s.reg Dict.QUEUE_PREFETCH = 0 then s
  else
    let n := q.units.length
    let s1 := s.updQueue g fun q => { q with units := [] }
    fetchQueue (if n = 0 then s1 else s1.count 0x485 q.func n) g

/-- WQ_INVALIDATE (R288). -/
def execWqInvalidate (func queue : Nat) (s : State) : Host.Outcome State Fault Refusal :=
  onQueue s func queue fun g => invalidateQueue s g

/-- A consumer index offered for a queue's own completion ring (R294). -/
def consumerWrite (s : State) (g new : Nat) : State :=
  let q := s.queue g
  if q.crUnits ≠ 0 ∧ consumerOk q.crUnits q.crCons q.crProd new then updRing s g fun q => { q with crCons := new }
  else s.count 0x481 (queueFunc s g)

/-- CR_CONSUMER_WRITE (R294). -/
def execCrConsumerWrite (func queue value : Nat) (s : State) : Host.Outcome State Fault Refusal :=
  onQueue s func queue fun g => consumerWrite s g (value % 2 ^ 32)

/-- CR_ARM applied: the ring is armed, and its vector goes out at once when it holds a completion that the host can see (R293). -/
def armRing (s : State) (g value : Nat) : State :=
  let s1 := (consumerWrite s g value).updQueue g fun q => { q with armed := true }
  if unobserved s1 g < (s1.queue g).written then ringVector s1 g else s1

/-- CR_ARM (R293). -/
def execCrArm (func queue value : Nat) (s : State) : Host.Outcome State Fault Refusal :=
  onQueue s func queue fun g => armRing s g (value % 2 ^ 32)

/-- Q_ENABLE: a 1 in Reset requests enabling; any other write is ignored (R270, R274). -/
def execQEnable (func queue value : Nat) (s : State) : Host.Outcome State Fault Refusal :=
  onQueue s func queue fun g =>
    if value % 2 ^ 32 = 1 ∧ (s.queue g).st = .reset then
      s.updQueue g fun q => { q with enableDue := true, func := func, local' := queue }
    else s

/-- Bytes written into a little-endian value of n bytes. -/
def patchLE (v off n : Nat) (data : List Byte) : Nat :=
  natLE ((bytesLE v n).take off ++ data ++ (bytesLE v n).drop (off + data.length))

/-- A write to Q_CONFIG is stored in Reset and dropped otherwise (R273). -/
def configWrite (s : State) (func g offset : Nat) (data : List Byte) : State :=
  if (s.queue g).st = .reset then s.updQueue g fun q => { q with config := patchLE q.config offset 32 data }
  else (s.count 0x48D func).raise 0x0907 3 func

/-- The access forms of BAR0 and BAR4 (R257). -/
def formOk (offset : Nat) (data : List Byte) : Bool :=
  (data.length = 4 || data.length = 8) && decide (offset % data.length = 0)

/-- Q_CONFIG_WRITE, at a byte offset within Q_CONFIG (R273). -/
def execQConfigWrite (func queue offset : Nat) (data : List Byte) (s : State) : Host.Outcome State Fault Refusal :=
  onQueue s func queue fun g =>
    if formOk offset data ∧ offset + data.length ≤ 32 then configWrite s func g offset data else mmioRefused s func

/-! ### Enabling -/

/-- The MSI-X vectors of a function (R257). -/
def vectorsOf (func : Nat) : Nat := if func = 0 then 2048 else 64

/-- The queue named by CQ can take this queue's completions (R274, reason 0x12). -/
def cqOk (s : State) (g : Nat) : Bool :=
  let q := s.queue g
  if q.cq = q.local' then q.crUnits ≠ 0
  else
    match globalQueue s q.func q.cq with
    | none => false
    | some r => (s.queue r).live && (s.queue r).crUnits ≠ 0 && ringCanTake s r

/-- The first check of R274 that an enable fails; 0 when it passes them all. -/
def enableCheck (s : State) (g : Nat) : Nat :=
  let q := s.queue g
  let f := q.func
  if s.host.store ≠ .given then 0x16
  else if q.crUnits = 0 ∧ q.wrUnits = 0 ∨ fld q.config 6 0 ≠ 0 then 0x10
  else if !inRange q.pd (pdFirst s f) (pdCount s f) ∨ !inRange q.ep (epFirst s f) (epCount s f) ∨ vectorsOf f ≤ q.vector then 0x11
  else if !bitAt (s.reg Dict.SW_INJ_GROUP q.igroup) 127 then 0x15
  else if !cqOk s g then 0x12
  else if q.wrUnits ≠ 0 ∧ !windowOk s f q.wrBase (64 * q.wrUnits) false ∨
      q.crUnits ≠ 0 ∧ !windowOk s f q.crBase (64 * q.crUnits) true ∨
      q.dbFree ∧ !windowOk s f (64 * q.watchLine) 64 false then 0x13
  else if q.dbFree ∧ 4096 ≤ s.host.watch.length then 0x14
  else 0

/-- A watched line is read (R252, R285). -/
def readWatch (s : State) (g : Nat) : State :=
  let q := s.queue g
  let r := hostRead s q.func (64 * q.watchLine) 64 (.watch g)
  if r.2 then r.1 else queueError r.1 g 0x08

/-- A queue takes its line of the watch list (R252, R285, R300). -/
def startWatch (s : State) (g : Nat) : State :=
  let s1 := s.updHost fun h => { h with watch := tset 0 h.watch g ((s.queue g).watchLine + 1) }
  readWatch (if s1.host.watch.length = 4096 then s1.event Dict.QUEUE_EVENTS 0 4 else s1) g

/-- The checked enable (R274). -/
def enableNow (s : State) (g : Nat) : State :=
  let reason := enableCheck s g
  let func := (s.queue g).func
  if reason ≠ 0 then
    ((s.updQueue g fun q => { q with reason := reason }).raise 0x0908 3 func).event Dict.QUEUE_EVENTS 0 3
  else
    let s1 := s.updQueue g fun q =>
      { q with st := .running, reason := 0, wqProd := 0, wqCons := 0, crProd := 0, crCons := 0, armed := false, owed := 0, heldUnits := 0
               fullSince := none, units := [], asked := [], retryDue := false, retryIdx := 0, retries := 0, pushUnits := 0 }
    let s2 := touchQueue (updRing s1 (ringOf s1 g) fun q => { q with heldUnits := q.heldUnits + 1 }) g
    if (s.queue g).dbFree then startWatch s2 g else s2

/-- Q_ENABLE_CHECK: the enable requested in Reset is checked at the boundary (R274). -/
def execQEnableCheck (queue : Nat) (s : State) : Host.Outcome State Fault Refusal :=
  if 1048576 ≤ queue then .fault .noSuchQueue
  else if (s.queue queue).enableDue then
    let s1 := s.updQueue queue fun q => { q with enableDue := false }
    .next (if (s.queue queue).st = .reset ∧ !fnResetting s (s.queue queue).func then enableNow s1 queue else s1)
  else .next s

/-! ### Pushes -/

/-- The pushed units all show the phase of their index (R284). -/
def phasesOk (n base : Nat) (units : List Nat) : Bool :=
  (List.range units.length).all fun k => fld (units.getD k 0) 63 63 = ringPhase n ((base + k) % (2 * n))

/-- The whole units of a write's data. -/
def unitsOf (data : List Byte) : List Nat :=
  (List.range (data.length / 64)).map fun k => natLE ((data.drop (64 * k)).take 64)

/-- The units of a push are placed in the entry cache (R284). -/
def placeUnits (q : Queue) (base : Nat) (units : List Nat) : Queue :=
  let t := (List.range units.length).foldl (fun t k => tset 0 t ((base + k) % (2 * q.wrUnits)) (units.getD k 0 + unitMark)) q.units
  { q with units := t }

/-- A write to the queue's push window (R284). -/
def push (s : State) (g offset : Nat) (data : List Byte) : State :=
  let q := s.queue g
  if !q.live ∨ q.wrUnits = 0 then s.count 0x481 (queueFunc s g)
  else
    let n := q.wrUnits
    let u := offset / 64
    let base := if offset = 0 then q.wqProd else q.pushBase
    let units := unitsOf data
    let at' := (base + u) % (2 * n)
    let new := (at' + units.length) % (2 * n)
    if data.length % 64 ≠ 0 ∨ offset % 64 ≠ 0 ∨ (u ≠ 0 ∧ (q.pushUnits = 0 ∨ u ≠ q.pushUnits)) ∨ !phasesOk n at' units then queueError s g 0x07
    else match judgeProducer n q.wqCons q.wqProd new with
      | .lap => queueError s g 0x07
      | v =>
        let s1 := s.updQueue g fun q => { placeUnits q at' units with pushBase := base, pushUnits := u + units.length }
        if v = .fresh then
          fetchQueue ((((s1.updQueue g fun q => { q with wqProd := new }).count 0x482 q.func).count 0x480 q.func)) g
        else s1.count 0x481 (queueFunc s g)

/-- PUSH: a write of 8 to 256 bytes within one push window of BAR2 (R257, R284). -/
def execPush (func queue offset : Nat) (data : List Byte) (s : State) : Host.Outcome State Fault Refusal :=
  onQueue s func queue fun g =>
    if data.length < 8 ∨ 256 < offset + data.length then mmioRefused s func
    else push (if (s.queue g).live then touchQueue s g else s) g offset data

/-! ### Watched producers -/

/-- SNOOP_RECEIVE: a snoop is answered; a store by the host to a watched line has the line read again (R249, R252). -/
def execSnoopReceive (line : Nat) (kind : Snoop) (s : State) : Host.Outcome State Fault Refusal :=
  if s.host.units = 0 then .next s
  else
    let w := watchers s line
    let s1 := s.count 0x402
    let s2 := if tget 0 s.host.cache line ≠ 0 ∨ w ≠ [] then s1.count 0x403 else s1
    .next (match kind with
      | .snpCur => s2
      | .snpData => s2.updHost fun h => { h with cache := tupd 0 h.cache line fun v => min v 1 }
      | .snpInv =>
        forEach (s2.updHost fun h => { h with cache := tset 0 h.cache line 0 }) w fun s g => readWatch (s.count 0x405) g)

/-- WATCH_REFETCH_DONE: the producer index found in a watched line is a doorbell (R252, R285). -/
def execWatchRefetchDone (tag : Nat) (data : List Byte) (bad : Bool) (s : State) : Host.Outcome State Fault Refusal :=
  match s.host.reads.find? fun r => r.tag = tag with
  | some { why := .watch g, .. } =>
    let s1 := s.updHost fun h => { h with reads := h.reads.filter fun r => r.tag ≠ tag }
    .next (if !(s1.queue g).live then s1
      else if bad then queueError s1 g 0x09
      else doorbell s1 g (natLE (data.take 4)))
  | _ => .next s

/-- PHASE_RETRY: a stitch after a covered unit showed the old phase it is read again (R287). -/
def execPhaseRetry (queue : Nat) (s : State) : Host.Outcome State Fault Refusal :=
  let q := s.queue queue
  if 1048576 ≤ queue then .fault .noSuchQueue
  else if q.retryDue ∧ q.live ∧ q.retryAt < s.time.count then
    .next (fetchQueue (s.updQueue queue fun q => { q with retryDue := false, retries := q.retries + 1 }) queue)
  else .next s

/-! ### The ring-full limit -/

/-- The queues that feed a ring. -/
def feeders (s : State) (r : Nat) : List Nat :=
  (s.queues.qs.map (·.1)).filter fun g => (s.queue g).live && decide (ringOf s g = r)

/-- CR_FULL_LIMIT: a ring exhausted for QUEUE_CR_FULL_LIMIT_ST stops every queue that feeds it (R296). -/
def execCrFullLimit (queue : Nat) (s : State) : Host.Outcome State Fault Refusal :=
  if 1048576 ≤ queue then .fault .noSuchQueue
  else match (s.queue queue).fullSince with
    | some t =>
      .next (if t + s.reg Dict.QUEUE_CR_FULL_LIMIT_ST ≤ s.time.count ∧ feeders s queue ≠ [] then
        (forEach s (feeders s queue) fun s g => queueError s g 0x0A).event Dict.QUEUE_EVENTS 0 2
      else s)
    | none => .next s

/-- The queues as the boundary finds them: Stalled while their ring is exhausted and work is covered, Running again after (R275). -/
def queuesBoundary (s : State) : State :=
  forEach s s.queues.qs fun s c =>
    let q := s.queue c.1
    let full := (s.queue (ringOf s c.1)).freeUnits = 0
    if q.st = .running ∧ full ∧ q.wqProd ≠ q.wqCons then s.updQueue c.1 fun q => { q with st := .stalled }
    else if q.st = .stalled ∧ !full then fetchQueue (s.updQueue c.1 fun q => { q with st := .running }) c.1
    else s

end Sys2Proof.Machine
end

