-- ==== Sys2Proof/Machine/Entries.lean ====
section
/-!
DEFINITION. Work entries: their framing and form (R277 to R281, R308), consumption (R286), the order in which they start and complete
(R286, R291, R310), and their completions (R290).
-/
namespace Sys2Proof.Machine

/-! ### Opcodes -/

/-- An opcode of an atomic (R302). -/
def isAtomic (opc : Nat) : Bool :=
  (decide (0x10 ≤ opc) && decide (opc ≤ 0x18)) || (decide (0x20 ≤ opc) && decide (opc ≤ 0x28)) ||
  (decide (0x30 ≤ opc) && decide (opc ≤ 0x37)) || (decide (0x40 ≤ opc) && decide (opc ≤ 0x47))

/-- The width of an atomic in bytes (R302). -/
def atomicWidth (opc : Nat) : Nat := if opc < 0x30 then 8 else 16

/-- The atomic returns the old value (R302). -/
def isFetch (opc : Nat) : Bool := opc / 16 = 2 || opc / 16 = 4

/-- The atomic is a compare-and-swap (R302). -/
def isCas (opc : Nat) : Bool := opc % 16 = 7

/-- The atomic carries its operands in an argument unit (R308). -/
def atomicArgUnit (opc : Nat) : Bool := isAtomic opc && (isCas opc || atomicWidth opc = 16)

/-- The local commands of R282, R310, R340, R351, R354, R381 and R402. -/
def lcmds : List Nat :=
  [0x01, 0x10, 0x11, 0x12, 0x30, 0x31, 0x32, 0x33, 0x34, 0x40, 0x41, 0x42, 0x43, 0x44, 0x60]

/-- CTL_MGMT_FUNCS grants a function (R63). -/
def mgmtGranted (s : State) (func : Nat) : Bool := bitAt (s.reg Dict.CTL_MGMT_FUNCS (func / 32)) (func % 32)

/-- The OPC or LCMD is allowed in entries (R281, R308). -/
def opcAllowed (s : State) (e : Entry) : Bool :=
  if e.kind = 0 then e.opc = 1 || e.opc = 2 || e.opc = 3 || isAtomic e.opc || (e.opc = 0xF0 && mgmtGranted s e.func)
  else lcmds.contains e.opc

/-! ### Framing -/

/-- The first units of the ring as far as the entry at the consumer index goes. -/
inductive Head where
  /-- Not every unit is covered and held. -/
  | wait
  /-- The entry is malformed. -/
  | bad (reason : Nat)
  /-- The units of an entry. -/
  | whole (units : List Nat)
deriving DecidableEq, Repr

/-- The framing of one unit of an entry: FIRST on the first alone, and UNITS only where R280 has it. -/
def frameBad (mode k unit n : Nat) (lastBit : Bool) : Bool :=
  (bitAt unit 62 != decide (k = 0)) ||
  (if mode = 0 then lastBit != decide (k + 1 = n) else decide (fld unit 60 58 ≠ 0))

/-- The units from number k on: in mode V to the count that the first unit gives, in mode C to the first with LAST, eight at most
(R280). -/
def scanUnits (q : Queue) (mode n k : Nat) : Nat → Head
  | 0 => .bad 0x02
  | fuel + 1 =>
    let i := (q.wqCons + k) % (2 * q.wrUnits)
    if ringDist q.wrUnits q.wqCons q.wqProd ≤ k then .wait
    else match cachedUnit q i with
      | none => .wait
      | some u =>
        let n := if mode = 0 ∧ k = 0 then fld u 60 58 + 1 else n
        let last := bitAt u 61
        if frameBad mode k u n last then .bad 0x02
        else if last then .whole [u]
        else match scanUnits q mode n (k + 1) fuel with
          | .whole l => .whole (u :: l)
          | h => h

/-- The entry at the head of a queue's work ring (R280, R286). -/
def headUnits (s : State) (g : Nat) : Head :=
  let q := s.queue g
  if q.wrUnits = 0 then .wait else scanUnits q s.queues.mode 0 0 8

/-! ### Fields -/

/-- A 64-bit word of a unit. -/
def unitWord (u k : Nat) : Nat := fld u (64 * k + 63) (64 * k)

/-- The entry that units spell (R278, R279). -/
def entryOf (s : State) (g : Nat) (units : List Nat) : Entry :=
  let q := s.queue g
  let u := units.getD 0 0
  let w0 := unitWord u 0
  { queue := g, func := q.func, kind := fld w0 57 56, opc := fld w0 55 48, ord := bitAt w0 47, cmpl := bitAt w0 46, inl := bitAt w0 45
    nsge := fld w0 44 40, dfna := fld w0 39 22, dep := fld w0 21 6, len := fld (unitWord u 1) 63 31, flow := fld (unitWord u 1) 30 15
    user := unitWord u 2, lkey := fld (unitWord u 3) 63 32, laddr := unitWord u 4
    args := [unitWord u 5, unitWord u 6, unitWord u 7], more := (units.drop 1).map fun c => c / 2 ^ 64
    wqIndex := q.wqCons, wqCons := (q.wqCons + units.length) % (2 * q.wrUnits) }

/-- The arguments W5, W6 and W7 of an entry. -/
def Entry.w5 (e : Entry) : Nat := e.args.getD 0 0
def Entry.w6 (e : Entry) : Nat := e.args.getD 1 0
def Entry.w7 (e : Entry) : Nat := e.args.getD 2 0

/-- The argument units of an entry (R308, R340). -/
def Entry.argUnits (e : Entry) : Nat := if e.kind = 0 then b2n (atomicArgUnit e.opc) else b2n (e.opc = 0x30)

/-- The continuation units behind the argument units, which carry inline data or elements (R279). -/
def Entry.carry (e : Entry) : List Nat := e.more.drop e.argUnits

/-- The gather elements of an entry, in order (R279). -/
def Entry.elements (e : Entry) : List Sge :=
  (List.range e.nsge).map fun i =>
    let x := fld (e.carry.getD (i / 3) 0) (128 * (i % 3) + 127) (128 * (i % 3))
    { addr := fld x 63 0, len := fld x 95 64, key := fld x 127 96 }

/-- The local buffers of an entry that carries no inline data. -/
def Entry.buffers (e : Entry) : List Sge :=
  if e.nsge = 0 then [{ addr := e.laddr, len := e.len, key := e.lkey }] else e.elements

/-- The inline data of an entry (R279). -/
def Entry.inlineData (e : Entry) : List Byte := (e.carry.flatMap fun u => bytesLE u 56).take e.len

/-- The reserved fields of the units themselves hold zero (R277, R278, R279). -/
def unitsClear (e : Entry) (units : List Nat) : Bool :=
  let u := units.getD 0 0
  decide (fld (unitWord u 0) 5 0 = 0) && decide (fld (unitWord u 1) 14 0 = 0) && decide (fld (unitWord u 3) 31 0 = 0) &&
  ((units.drop 1).all fun c => decide (fld c 60 0 = 0)) &&
  (e.kind ≠ 0 || e.nsge = 0 || e.carry.all fun c => decide (fld c 447 384 = 0))

/-- The reserved fields of the arguments hold zero (R308, R340, R381, R402, R65). -/
def argsClear (e : Entry) : Bool :=
  if e.kind = 0 then
    if e.opc = 3 then decide (fld e.w6 15 0 = 0) && e.w7 = 0
    else if e.opc = 1 ∨ e.opc = 2 then decide (fld e.w6 31 0 = 0) && e.w7 = 0
    else if isAtomic e.opc then decide (fld e.w6 31 0 = 0) && (!atomicArgUnit e.opc || e.w7 = 0)
    else true
  else match e.opc with
    | 0x10 | 0x12 => e.w7 = 0
    | 0x11 => decide (fld e.w5 63 24 = 0) && e.w7 = 0
    | 0x30 => decide (fld e.w5 63 24 = 0) && e.w6 = 0 && e.w7 = 0 && decide (fld (e.more.getD 0 0) 139 128 = 0) &&
        decide (fld (e.more.getD 0 0) 255 198 = 0) && !bitAt (e.more.getD 0 0) 195
    | 0x40 | 0x42 | 0x43 => decide (fld e.w6 15 1 = 0)
    | 0x60 => e.w7 = 0 && decide (fld e.w5 17 12 = 0)
    | _ => true

/-- Lengths and counts hold together (R279, R281, R308, R340). -/
def lengthsOk (e : Entry) : Bool :=
  decide (e.len ≤ 2 ^ 32) && !(e.inl && decide (e.nsge ≠ 0)) && decide (e.nsge ≤ 21) &&
  decide (e.argUnits ≤ e.more.length) &&
  (!(e.kind = 1 && e.opc = 0x30) || e.more.length = 1) &&
  (!(e.inl && (e.kind = 0 || e.opc = 0x60)) || decide (e.len ≤ 56 * e.carry.length)) &&
  (e.kind ≠ 0 || (decide (e.nsge ≤ 3 * e.carry.length) && (e.nsge = 0 || decide (sumOf e.elements (·.len) = e.len)) &&
    (!isAtomic e.opc || e.len = atomicWidth e.opc) && !(e.opc = 2 && e.inl)))

/-- An entry that names a node names none of the reserved ones (R145, R281); local commands that ignore DFNA are not judged. -/
def dfnaOk (e : Entry) : Bool :=
  if e.kind = 0 ∨ e.opc = 0x12 then !(decide (fld e.dfna 17 6 = 0xFFF) || decide (fld e.dfna 5 0 = 0x3F)) else true

/-- The reason for which an entry is malformed; 0 when it is well formed (R281). -/
def entryReason (s : State) (e : Entry) (units : List Nat) : Nat :=
  if 2 ≤ e.kind then 0x03
  else if !opcAllowed s e then 0x04
  else if !unitsClear e units || !argsClear e || !lengthsOk e || !dfnaOk e then 0x05
  else 0

/-! ### Completion -/

/-- A host write of an entry has been observed. -/
def Entry.seen (e : Entry) (tag : Nat) : Entry := { e with tags := e.tags.filter fun t => t ≠ tag }

/-- The completion of an entry that has its status: written when it failed or CMPL is 1, otherwise its unit returns (R291,
R295). -/
def writeCompletion (s : State) (e : Entry) (status : Nat) : State :=
  let r := ringOf s e.queue
  if status ≠ 0 ∨ e.cmpl then
    writeOwed s r (completionUnit 0 status e.opc (s.queue e.queue).local' e.wqIndex e.wqCons e.user e.done e.result)
  else dropOwed s r

/-- The status with which an entry may complete: a FENCE that started has status 0 (R288). -/
def endStatus (e : Entry) : Option Nat := if e.kind = 1 ∧ e.opc = 0x10 ∧ e.started then some 0 else e.status

/-- The completions of a queue's entries that are due, in the order of consumption, each when the host has seen its writes (R250, R291). A
fence completes when it is the oldest (R310). -/
def flushRun (s : State) (g : Nat) : Nat → State
  | 0 => s
  | fuel + 1 =>
    match (s.queue g).order with
    | [] => s
    | e :: rest =>
      match endStatus e with
      | some v =>
        if e.tags.isEmpty then flushRun (writeCompletion (s.updQueue g fun q => { q with order := rest }) e v) g fuel else s
      | none => s

/-- The completions of a queue that are due are written. -/
def flushQueue (s : State) (g : Nat) : State := flushRun s g (s.queue g).order.length

/-- The queue that a consumed entry belongs to. -/
def queueOfEntry (s : State) (id : Nat) : Option Nat :=
  (s.queues.qs.find? fun c => c.2.order.any fun e => e.id = id).map (·.1)

/-- A consumed entry by its number. -/
def State.entry? (s : State) (id : Nat) : Option Entry :=
  (queueOfEntry s id).bind fun g => (s.queue g).order.find? fun e => e.id = id

/-- The state with a consumed entry changed, and the completions that this makes due. -/
def updEntry (s : State) (id : Nat) (f : Entry → Entry) : State :=
  match queueOfEntry s id with
  | none => s
  | some g =>
    flushQueue (s.updQueue g fun q => { q with order := q.order.map fun e => if e.id = id then f e else e }) g

/-- An entry takes its status, with the bytes moved, its RESULT, and the writes that must be seen first. -/
def finishEntry (s : State) (id status : Nat) (done : Nat := 0) (result : Nat := 0) (tags : List Nat := []) : State :=
  updEntry s id fun e =>
    if e.status.isSome then e else { e with status := some status, done := done, result := result, tags := e.tags ++ tags }

/-- The RESULT of a failed entry: REASON in byte 48, the packet's PSN in bytes 52 to 55 (R311). -/
def failResult (reason psn : Nat) : Nat := put reason 135 128 + put psn 183 160

/-- An entry fails. -/
def failEntry (s : State) (id status : Nat) (reason : Nat := 0) (psn : Nat := 0) (done : Nat := 0) : State :=
  finishEntry s id status done (failResult reason psn)

/-! ### Consumption -/

/-- The flits of an injection group that are built and not yet forwarded (R286). -/
def groupStaged (s : State) (grp : Nat) : Nat :=
  sumOf s.sw.inject (fun c => sumOf c.2 fun i => if i.group = some grp then flitCount i.pkt else 0) +
  sumOf s.sw.pkts fun k => if k.group = some grp then k.total - (k.copies.foldl (fun m c => min m c.sent) k.total) else 0

/-- The staging limit holds a group: from the excess until the count is below the limit (R286). -/
def stageHolds (s : State) (grp : Nat) : Bool :=
  let n := groupStaged s grp
  let lim := s.reg Dict.QUEUE_IGROUP_STAGE
  decide (lim < n) || (s.queues.stageOver.contains grp && decide (n = lim))

/-- The groups held are noted (R300). -/
def noteStage (s : State) (grp : Nat) : State :=
  let held := stageHolds s grp
  s.updQueues fun u =>
    { u with stageHeld := u.stageHeld || held, stageOver := (u.stageOver.filter fun x => x ≠ grp) ++ (if held then [grp] else []) }

/-- A management entry's first word: KIND 0, OPC 0xF0 (R65). -/
def isMgmt (units : List Nat) : Bool := decide (fld (units.getD 0 0) 57 48 = 0xF0)

/-- A queue has something for the consuming stage: a malformed head, or an entry for which its completion ring has a unit. A management entry is
consumed by MGMT_ENTRY. -/
def readyQueue (s : State) (mgmt : Bool) (g : Nat) : Bool :=
  let q := s.queue g
  q.st = .running && !fetchStopped s q.func &&
  (match headUnits s g with
   | .wait => false
   | .bad _ => !mgmt
   | .whole u => ringCanTake s (ringOf s g) && (isMgmt u == mgmt))

/-- The queue of a group whose turn it is (R286). -/
def turnOf (s : State) (mgmt : Bool) (grp : Nat) : Option Nat :=
  let ready := (s.queues.qs.map (·.1)).filter fun g => (s.queue g).igroup = grp && readyQueue s mgmt g
  let last := tget 0 s.queues.lastServed grp
  match ready.find? fun g => last < g + 1 with
  | some g => some g
  | none => ready.head?

/-- An entry is consumed: WQ_CONSUMER passes it, and a unit of its ring is owed to it (R286, R295). -/
def consume (s : State) (g : Nat) (e : Entry) (n : Nat) : State :=
  let q := s.queue g
  let idxs := (List.range n).map fun k => (q.wqCons + k) % (2 * q.wrUnits)
  let id := s.queues.nextId
  let s1 := s.updQueue g fun q =>
    { q with wqCons := e.wqCons, units := q.units.filter (fun c => !idxs.contains c.1), order := q.order ++ [{ e with id := id }]
             record := none, recordAsked := false }
  let s2 := s1.updQueues fun u => { u with nextId := id + 1 }
  fetchQueue ((oweUnit s2 (ringOf s g)).count 0x486 q.func) g

/-- The entry at the head of a queue is checked: what is malformed, and an entry of an invalid group, stops the queue (R281, R286). -/
def checkedHead (s : State) (g : Nat) : State × Option (Entry × Nat) :=
  match headUnits s g with
  | .wait => (s, none)
  | .bad reason => (queueError s g reason, none)
  | .whole units =>
    let e := entryOf s g units
    let reason := entryReason s e units
    if reason ≠ 0 then (queueError s g reason, none)
    else if !bitAt (s.reg Dict.SW_INJ_GROUP (s.queue g).igroup) 127 then (queueError s g 0x0C, none)
    else (s, some (e, units.length))

/-- The queue has been served (R286). -/
def served (s : State) (g : Nat) : State :=
  s.updQueues fun u => { u with lastServed := tset 0 u.lastServed (s.queue g).igroup (g + 1) }

/-- A rendezvous send that finds no record free waits at the head of its queue (R365, R366). -/
def headHeld (s : State) (e : Entry) : Bool :=
  e.kind = 0 && e.opc = 3 && decide (s.reg Dict.MATCH_EAGER_LIMIT < e.len) && e.nsge = 0 && !e.inl && decide (65536 ≤ s.mtch.rndv.length)

/-- ENTRY_CONSUME: the entry at the head of a queue is checked and consumed, in its group's turn (R286). -/
def execEntryConsume (queue : Nat) (s : State) : Host.Outcome State Fault Refusal :=
  if 1048576 ≤ queue then .fault .noSuchQueue
  else
    let grp := (s.queue queue).igroup
    let s1 := noteStage s grp
    if stageHolds s grp then .next s1
    else if turnOf s1 false grp = some queue then
      let r := checkedHead (served s1 queue) queue
      .next (match r.2 with
        | some (e, n) => if headHeld r.1 e then r.1 else consume r.1 queue e n
        | none => r.1)
    else .next s1

/-! ### Starting -/

/-- The entry of a queue that may start next: the first not yet started, with no fence before it (R286, R310). -/
def startable : List Entry → Option Entry
  | [] => none
  | e :: rest => if !e.started then some e else if e.kind = 1 ∧ e.opc = 0x10 then none else startable rest

/-- The operation of the next entry of a queue starts, if it is one of the given kind and opcodes. One that must wait for a check has begun, and
is tried again when what it waits for has come. -/
def startWith (s : State) (g kind : Nat) (opcs : List Nat) (f : State → Entry → State × Bool) : State :=
  match startable (s.queue g).order with
  | some e =>
    if e.kind = kind ∧ opcs.contains e.opc then
      let mark (s : State) (started : Bool) : State :=
        s.updQueue g fun q => { q with order := q.order.map fun x => if x.id = e.id then { x with begun := true, started := started } else x }
      let r := f (mark s true) { e with started := true }
      if r.2 then r.1 else mark r.1 false
    else s
  | none => s

/-- The same as a command's outcome. -/
def startEntry (s : State) (g kind : Nat) (opcs : List Nat) (f : State → Entry → State × Bool) : Host.Outcome State Fault Refusal :=
  if 1048576 ≤ g then .fault .noSuchQueue else .next (startWith s g kind opcs f)

/-- A start that never waits. -/
def atOnce (f : State → Entry → State) (s : State) (e : Entry) : State × Bool := (f s e, true)

/-- NOP: completes at once (R282). -/
def execNop (queue : Nat) (s : State) : Host.Outcome State Fault Refusal :=
  startEntry s queue 1 [0x01] (atOnce fun s e => finishEntry s e.id 0)

/-- FENCE: later entries wait until every earlier one has completed (R310). -/
def execFence (queue : Nat) (s : State) : Host.Outcome State Fault Refusal :=
  startEntry s queue 1 [0x10] (atOnce fun s e => flushQueue s e.queue)

/-- A queue returns to Reset with every register of its block (R256, R270). -/
def queueReset (s : State) (g : Nat) : State :=
  let s1 := s.updQueue g fun _ => {}
  (s1.updQueues fun u => { u with onDie := u.onDie.filter fun x => x ≠ g }).updHost fun h => { h with watch := tset 0 h.watch g 0 }

end Sys2Proof.Machine
end

