-- ==== Sys2Proof/Machine/Trans.lean ====
section
/-!
DEFINITION. Segments and their descriptors (R332, R338 to R341), page tables and walks (R342 to R346, R353), the accessed and dirty bits
(R347), the rights registers (R348 to R351) and invalidation (R354, R355).
-/
namespace Sys2Proof.Machine

/-- The state with the translation unit changed. -/
def State.updTrans (s : State) (f : TransUnit → TransUnit) : State := { s with trans := f s.trans }

/-- The descriptor of a segment. -/
def State.seg (s : State) (i : Nat) : Seg := tget {} s.trans.segs i

/-- The state with a descriptor changed. -/
def State.updSeg (s : State) (i : Nat) (f : Seg → Seg) : State :=
  s.updTrans fun t => { t with segs := tupd {} t.segs i f }

/-! ### Descriptors -/

/-- A descriptor's 64 bytes as one little-endian number (R339). -/
def packSeg (d : Seg) : Nat :=
  put d.st.code 63 62 + put (b2n d.r) 61 61 + put (b2n d.w) 60 60 + put (b2n d.adupd) 59 59 + put (b2n d.faulted) 58 58 +
  put d.fkind 57 56 + put d.levels 55 54 + put d.tag 53 46 + put d.func 45 36 + put d.pd 35 16 +
  put d.start 127 64 + put d.len 191 128 + put (d.root / 4096) 255 204 + put d.faultAddr 319 256 + put d.regStitch 383 320

/-- The address of a descriptor (R338). -/
def descAddr (s : State) (i : Nat) : Nat := s.reg Dict.TRANS_SEG_BASE + 64 * i

/-- A descriptor is written to the table, with the tags to wait for (R338). -/
def writeDesc (s : State) (i : Nat) : Written := hostWrite s 0 (descAddr s i) (bytesLE (packSeg (s.seg i)) 64)

/-- The segment table holds an index (R312, R338). -/
def segIndexed (s : State) (i : Nat) : Bool := decide (i < 2 ^ s.reg Dict.TRANS_SEG_ORDER)

/-- A descriptor is looked up: whether it is on die, and else a read of it (R338). -/
def lookDesc (s : State) (i : Nat) : State × Bool :=
  if s.trans.descs.contains i then
    (s.updTrans fun t => { t with descs := i :: t.descs.filter fun x => x ≠ i }, true)
  else if s.trans.descAsked.contains i then (s, false)
  else
    let r := hostRead s 0 (descAddr s i) 64 (.segDesc i)
    (r.1.updTrans fun t => { t with descAsked := t.descAsked ++ [i] }, false)

/-- A descriptor has come from the table; one that fails its line check is treated as Free (R338, R259). -/
def descReturn (s : State) (i : Nat) (bad : Bool) : State :=
  let s1 := s.updTrans fun t =>
    { t with descAsked := t.descAsked.filter (fun x => x ≠ i), descs := (i :: t.descs.filter fun x => x ≠ i).take 8192 }
  if bad then
    ((((s1.raise 0x0808).raise 0x0B06).event Dict.TRANS_EVENTS 0 1).updSeg i fun d => { d with st := .free }).updTrans fun t =>
      { t with tlb := t.tlb.filter fun x => x.seg ≠ i }
  else s1

/-! ### The key checks (R312, R341) -/

/-- What an access needs of its segment and its pages. -/
inductive Need where
  | read | write | both
deriving DecidableEq, Repr

/-- A segment's rights, or a page's, allow an access. -/
def needOk (r w : Bool) : Need → Bool
  | .read => r | .write => w | .both => r && w

/-- The first of checks 2 to 6 of R312 that fails, as its reason; 0 when none does. -/
def keyReason (s : State) (key pd addr len : Nat) (need : Need) : Nat :=
  let d := s.seg (key / 256)
  if !segIndexed s (key / 256) then 0x09
  else if key / 256 = 0 ∨ d.st ≠ .valid then 0x05
  else if d.pd ≠ pd then 0x01
  else if d.tag ≠ key % 256 then 0x02
  else if !needOk d.r d.w need then 0x03
  else if addr < d.start ∨ d.start + d.len < addr + len then 0x06
  else 0

/-- What a look at checks 2 to 6 came to. -/
inductive KeyCheck where
  | wait | refused (reason : Nat) | ok
deriving DecidableEq, Repr

/-- Checks 2 to 6 of R312 made on a key. -/
def checkKey (s : State) (key pd addr len : Nat) (need : Need) : State × KeyCheck :=
  if !segIndexed s (key / 256) then (s, .refused 0x09)
  else if key / 256 = 0 then (s, .refused 0x05)
  else
    let r := lookDesc s (key / 256)
    if !r.2 then (r.1, .wait)
    else match keyReason r.1 key pd addr len need with
      | 0 => (r.1, .ok)
      | n => (r.1, .refused n)

/-! ### Device regions (R352) -/

/-- A row of TRANS_DEVICE_REGION overlaps the bytes from an address on. -/
def regionHits (row addr len : Nat) : Bool :=
  let lo := fld row 115 64 * 4096
  let hi := lo + fld row 51 0 * 4096
  bitAt row 127 && decide (addr < hi) && decide (lo < addr + len)

/-- Bytes of host memory touch a declared device region. -/
def inDeviceRegion (s : State) (addr len : Nat) : Bool :=
  (List.range 16).any fun r => regionHits (s.reg Dict.TRANS_DEVICE_REGION r) addr len

/-! ### The translation cache and walks -/

/-- A cached translation of an address. -/
def tlbFind (t : TransUnit) (seg va : Nat) : Option Tlb :=
  t.tlb.find? fun x => x.seg = seg && decide (x.base ≤ va) && decide (va < x.base + x.size)

/-- A translation is used last (R354). -/
def tlbTouch (t : TransUnit) (x : Tlb) : TransUnit := { t with tlb := x :: t.tlb.filter fun y => y ≠ x }

/-- A translation is cached; the one used least recently goes when 262,144 are held (R354). -/
def tlbAdd (t : TransUnit) (x : Tlb) : TransUnit :=
  { t with tlb := (x :: t.tlb.filter fun y => !(y.seg = x.seg && y.base = x.base)).take 262144 }

/-- Every cached translation and walk-cache entry of a segment is dropped (R354). -/
def dropSeg (t : TransUnit) (seg : Nat) : TransUnit :=
  { t with tlb := t.tlb.filter (fun x => x.seg ≠ seg), wcache := t.wcache.filter fun x => x.seg ≠ seg }

/-- The addresses that an entry of the walk cache serves. -/
def WalkEnt.span (x : WalkEnt) : Nat := 2 ^ (21 + 9 * x.level)

/-- The cached translations and walk-cache entries of a range are dropped (R355). -/
def dropRange (t : TransUnit) (seg first bytes : Nat) : TransUnit :=
  { t with
    tlb := t.tlb.filter fun x => !(x.seg = seg && decide (x.base < first + bytes) && decide (first < x.base + x.size))
    wcache := t.wcache.filter fun x =>
      !(x.seg = seg && decide (x.pfx * x.span < first + bytes) && decide (first < (x.pfx + 1) * x.span)) }

/-- A walk is recorded as failed for those that wait on its page. -/
def walkEnds (s : State) (w : Walk) (fail : Option (Nat × Nat)) : State :=
  s.updTrans fun t =>
    { t with
      walks := t.walks.filter fun x => x.id ≠ w.id
      fails := match fail with
        | some (status, reason) => t.fails ++ [{ seg := w.seg, va := w.va, status := status, reason := reason }]
        | none => t.fails }

/-- A walk fault is entered in its segment's descriptor, the logs and the events, unless one already is (R353). FKIND 1 is a bus error,
2 a device region. -/
def noteWalkFault (s : State) (seg fkind addr : Nat) : State :=
  let s1 := s.count 0x588 (s.seg seg).func
  if (s.seg seg).faulted then s1
  else
    let s2 := s1.updSeg seg fun d => { d with faulted := true, fkind := fkind, faultAddr := addr }
    let row := put seg 127 104 + put fkind 103 102 + put (s.seg seg).func 101 92 + put addr 63 0
    let s3 := (writeDesc s2 seg).st.updTrans fun t => { t with faultLog := pushLog 32 row t.faultLog }
    (s3.raise (0x0B00 + fkind) 6 seg).event Dict.TRANS_EVENTS 0 0

/-- A walk fails with a fault (R353). -/
def walkFault (s : State) (w : Walk) (fkind addr : Nat) : State :=
  walkEnds (noteWalkFault s w.seg fkind addr) w (some (0, 6 + fkind))

/-- The table entry that a walk reads next. -/
def Walk.pteAddr (w : Walk) : Nat := w.table + 8 * (w.va / 2 ^ (12 + 9 * w.level) % 512)

/-- A walk reads a line; a line in a device region or outside the windows ends it (R345, R352, R353). -/
def walkRead (s : State) (w : Walk) (line : Nat) : State :=
  if inDeviceRegion s line 64 then walkFault s w 2 line
  else
    let r := hostRead s (s.seg w.seg).func line 64 (.walkLine w.id)
    if r.2 then
      r.1.updTrans fun t =>
        { t with walks := t.walks.map fun x => if x.id = w.id then { w with running := true, since := s.time.count } else x }
    else walkFault r.1 w 1 line

/-- A walk as it starts: from the deepest entry of the walk cache that serves it, or from the root (R342, R345). -/
def walkStart (s : State) (w : Walk) : State :=
  let d := s.seg w.seg
  let hit := (List.range d.levels).findSome? fun n =>
    s.trans.wcache.find? fun x => x.seg = w.seg && x.level = n && x.pfx = w.va / 2 ^ (21 + 9 * n)
  let s1 := s.count 0x582 d.func
  match hit with
  | some x =>
    let w1 := { w with level := x.level, table := x.table, line := none }
    let s2 := (s1.count 0x583 d.func).updTrans fun t => { t with wcache := x :: t.wcache.filter fun y => y ≠ x }
    walkRead s2 w1 (w1.pteAddr / 64 * 64)
  | none =>
    let w1 := { w with level := d.levels, table := d.root, line := none }
    walkRead s1 w1 (w1.pteAddr / 64 * 64)

/-- Waiting walks take the places that are free, 16 in all (R345). -/
def startWalks (s : State) : Nat → State
  | 0 => s
  | fuel + 1 =>
    if 16 ≤ (s.trans.walks.filter (·.running)).length then s
    else match s.trans.walks.find? fun w => !w.running with
      | some w => startWalks (walkStart s w) fuel
      | none => s

/-- A walk is asked for, shared by those that wait on the same page; a full walk queue takes none (R345, R360). -/
def askWalk (s : State) (seg va : Nat) : State :=
  if s.trans.walks.any fun w => w.seg = seg && w.va = va then s
  else if 272 ≤ s.trans.walks.length then
    (s.updTrans fun t => { t with queueFull := true }).event Dict.TRANS_EVENTS 0 3
  else
    let w : Walk := { id := s.trans.nextWalk, seg := seg, va := va }
    startWalks ((s.count 0x581 (s.seg seg).func).updTrans fun t => { t with walks := t.walks ++ [w], nextWalk := t.nextWalk + 1 }) 272

/-! ### Page table entries (R343, R344) -/

/-- The 64-bit entry at an address, from a line that holds it. -/
def pteIn (line : Nat) (data : List Byte) (addr : Nat) : Nat := natLE ((data.drop (addr - line)).take 8)

/-- The frame of an entry, as a host address. -/
def pteFrame (e : Nat) : Nat := fld e 51 12 * 4096

/-- A reserved bit of an entry is set. -/
def pteReserved (e : Nat) : Bool := decide (fld e 59 52 ≠ 0) || decide (fld e 11 8 ≠ 0) || bitAt e 3

/-- The bytes of a page by the level of its leaf. -/
def pageBytes (level : Nat) (grouped : Bool) : Nat :=
  if level = 0 then (if grouped then 65536 else 4096) else 2 ^ (12 + 9 * level)

/-- A present entry is malformed by itself (R344). -/
def pteBad (level e : Nat) : Bool :=
  let leaf := bitAt e 4
  pteReserved e || (level = 3 && leaf) || (level = 0 && !leaf) ||
  (leaf && level ≠ 0 && (bitAt e 7 || decide (pteFrame e % pageBytes level false ≠ 0)))

/-- The sixteen entries of a group keep its rule (R344). -/
def groupOk (es : List Nat) : Bool :=
  let e0 := es.getD 0 0
  decide (fld e0 15 12 = 0) &&
  (List.range 16).all fun i =>
    let e := es.getD i 0
    !pteBad 0 e && bitAt e 0 && bitAt e 7 && bitAt e 1 == bitAt e0 1 && bitAt e 2 == bitAt e0 2 && fld e 63 60 = fld e0 63 60 &&
    decide (pteFrame e = pteFrame e0 + 4096 * i)

/-- A walk has found its leaf: the translation is cached, unless its page overlaps a device region (R345, R352). -/
def walkLeaf (s : State) (w : Walk) (e pte : Nat) (grouped : Bool) : State :=
  let size := pageBytes w.level grouped
  let x : Tlb :=
    { seg := w.seg, gen := (s.seg w.seg).gen, base := w.va / size * size, size := size, frame := pteFrame e, r := bitAt e 1, w := bitAt e 2
      pkey := fld e 63 60, acc := bitAt e 5, dirty := bitAt e 6, pte := pte }
  if inDeviceRegion s x.frame size then walkFault s w 2 x.frame
  else walkEnds (s.updTrans fun t => tlbAdd t x) w none

/-- A walk descends to a table, which the walk cache keeps (R345). -/
def walkDescend (s : State) (w : Walk) (table : Nat) : State :=
  let x : WalkEnt := { seg := w.seg, level := w.level - 1, pfx := w.va / 2 ^ (12 + 9 * w.level), table := table }
  let s1 := s.updTrans fun t => { t with wcache := (x :: t.wcache.filter fun y => y ≠ x).take 4096 }
  let w1 := { w with level := w.level - 1, table := table, line := none }
  walkRead s1 w1 (w1.pteAddr / 64 * 64)

/-- The sixteen entries of a group from its two lines, the first at the group's address. -/
def groupEntries (base lineA : Nat) (a b : List Byte) : List Nat :=
  let bytes := if lineA = base then a ++ b else b ++ a
  (List.range 16).map fun i => natLE ((bytes.drop (8 * i)).take 8)

/-- A line of a page table has come for a walk (R342 to R346, R353). -/
def walkReturn (s : State) (id line : Nat) (data : List Byte) (bad : Bool) : State :=
  match s.trans.walks.find? fun w => w.id = id with
  | none => s
  | some w =>
    let s1 :=
      if bad then walkFault s w 1 line
      else match w.line with
        | some (lineA, a) =>
          let base := w.pteAddr / 128 * 128
          let es := groupEntries base lineA a data
          if groupOk es then walkLeaf s w (es.getD 0 0) base true else walkEnds s w (some (0x42, 0))
        | none =>
          let e := pteIn line data w.pteAddr
          if !bitAt e 0 then walkEnds s w (some (0x40, 0))
          else if pteBad w.level e then walkEnds s w (some (0x42, 0))
          else if !bitAt e 4 then walkDescend s w (pteFrame e)
          else if w.level = 0 ∧ bitAt e 7 then
            let base := line / 128 * 128
            walkRead s { w with line := some (line, data) } (if line = base then base + 64 else base)
          else walkLeaf s w e w.pteAddr false
    startWalks s1 272

/-- A walk's read has had no data for TRANS_WALK_TIMEOUT_ST (R353). -/
def walkTimeout (s : State) (id line since : Nat) : State :=
  match s.trans.walks.find? fun w => w.id = id with
  | none => s
  | some w =>
    if w.running ∧ since + s.reg Dict.TRANS_WALK_TIMEOUT_ST ≤ s.time.count then startWalks (walkFault s w 1 line) 272 else s

/-! ### Accessed and dirty bits (R347) -/

/-- The updates that an access needs before it is issued through a translation. -/
def adNeeded (s : State) (x : Tlb) (need : Need) : Bool :=
  (s.seg x.seg).adupd && (!x.acc || (need ≠ .read && !x.dirty))

/-- An update of a translation's bits starts by taking its line (R251, R347). -/
def adStart (s : State) (x : Tlb) (need : Need) : State :=
  if s.trans.ads.any fun a => a.seg = x.seg && a.base = x.base then s
  else
    let line := x.pte / 64 * 64
    let a : AdUpdate := { seg := x.seg, base := x.base, pte := x.pte, dirty := need ≠ .read, since := s.time.count }
    let r := hostRead s (s.seg x.seg).func line 64 (.adLine x.seg x.base)
    if r.2 then r.1.updTrans fun t => { t with ads := t.ads ++ [a] }
    else
      (noteWalkFault r.1 x.seg 1 line).updTrans fun t => { t with fails := t.fails ++ [{ seg := x.seg, va := x.base, status := 0, reason := 7 }] }

/-- An update is over: its translation knows the bits that are set. -/
def adDone (t : TransUnit) (a : AdUpdate) : TransUnit :=
  { t with
    ads := t.ads.filter fun y => y ≠ a
    tlb := t.tlb.map fun x => if x.seg = a.seg ∧ x.base = a.base then { x with acc := true, dirty := x.dirty || a.dirty } else x }

/-- The line of a page table entry is owned: the bits are set if the word still passes its check, and otherwise the translation is dropped
(R347). -/
def adReturn (s : State) (seg base : Nat) (data : List Byte) (bad : Bool) : State :=
  match s.trans.ads.find? fun a => a.seg = seg && a.base = base with
  | none => s
  | some a =>
    let line := a.pte / 64 * 64
    let lost := s.updTrans fun t => { t with ads := t.ads.filter fun y => y ≠ a }
    if bad then
      (noteWalkFault lost seg 1 line).updTrans fun t => { t with fails := t.fails ++ [{ seg := seg, va := base, status := 0, reason := 7 }] }
    else match s.trans.tlb.find? fun x => x.seg = seg && x.base = base with
      | none => lost
      | some x =>
        let e := pteIn line data a.pte
        if bitAt e 0 ∧ bitAt e 4 ∧ pteFrame e = x.frame then
          let e' := e ||| 2 ^ 5 ||| (if a.dirty then 2 ^ 6 else 0)
          let w := hostWrite (cacheLine s (line / 64) 2) (s.seg seg).func a.pte (bytesLE e' 8)
          let s1 := if x.acc then w.st else w.st.count 0x584 (s.seg seg).func
          let s2 := if a.dirty && !x.dirty then s1.count 0x585 (s.seg seg).func else s1
          if !w.ok then
            (noteWalkFault lost seg 1 line).updTrans fun t =>
              { t with fails := t.fails ++ [{ seg := seg, va := base, status := 0, reason := 7 }] }
          else if w.tags.isEmpty then s2.updTrans fun t => adDone t a
          else s2.updTrans fun t => { t with ads := t.ads.map fun y => if y = a then { a with tags := w.tags } else y }
        else lost.updTrans fun t => { t with tlb := t.tlb.filter fun y => !(y.seg = seg && y.base = base) }

/-- A host write of an update has been observed: an update of which none is left is over. -/
def adObserved (s : State) (tag : Nat) : State :=
  match s.trans.ads.find? fun a => a.tags.contains tag with
  | none => s
  | some a =>
    let rest := a.tags.filter fun x => x ≠ tag
    if rest.isEmpty then s.updTrans fun t => adDone t a
    else s.updTrans fun t => { t with ads := t.ads.map fun y => if y = a then { a with tags := rest } else y }

/-! ### The access -/

/-- The gate of a key allows an access (R349). -/
def gateOk (gates pkey : Nat) (need : Need) : Bool :=
  match fld gates (2 * pkey + 1) (2 * pkey), need with
  | 0, _ => true
  | 1, .read => true
  | 2, .write => true
  | _, _ => false

/-- What an access through a key came to. -/
inductive KeyAccess where
  /-- A descriptor, a translation or an update is awaited. -/
  | wait
  /-- It is refused: with a status of R346, or with status 0 and a reason of R311. -/
  | refused (status reason : Nat)
  /-- It may be issued: the function, the segment, the stitch of its checks and the pieces of host memory. -/
  | ok (func seg chk : Nat) (pieces : List Piece)
deriving DecidableEq, Repr

/-- How many 4 KiB pages an access touches. -/
def pageCount (addr len : Nat) : Nat := if len = 0 then 0 else (addr + len - 1) / 4096 - addr / 4096 + 1

/-- The 4 KiB pages that an access touches, as addresses. -/
def pagesOf (addr len : Nat) : List Nat := (List.range (pageCount addr len)).map fun i => (addr / 4096 + i) * 4096

/-- The pieces of an access, page by page, through the translations of its pages. -/
def piecesOf (t : TransUnit) (seg addr len : Nat) : List Piece :=
  (pagesOf addr len).map fun p =>
    let a := max addr p
    let e := min (addr + len) (p + 4096)
    match tlbFind t seg p with
    | some x => { addr := x.frame + (a - x.base), len := e - a }
    | none => { addr := 0, len := 0 }

/-- A refusal by a page is logged and counted (R346, R360). -/
def pageRefused (s : State) (seg status reason : Nat) : State :=
  let func := (s.seg seg).func
  if status = 0x42 then (s.count 0x586 func).raise 0x0B04 3 func
  else if status ≠ 0 then (s.count 0x586 func).raise 0x0B03 3 func
  else if reason = 4 then s.count 0x587 func else s

/-- The first page check that fails among an access's translations (R345). -/
def pageCheck (gates : Nat) (need : Need) (xs : List Tlb) : Option (Nat × Nat) :=
  if xs.any fun x => !needOk x.r x.w need then some (0x41, 0)
  else if xs.any fun x => !gateOk gates x.pkey need then some (0, 4) else none

/-- An access by its pages: translation, page checks, and the updates that must come first (R345 to R347). An access that passed its checks
before is not checked again (R350). -/
def accessPages (s : State) (who : List Nat) (seg addr len : Nat) (need : Need) : State × KeyAccess :=
  let pages := pagesOf addr len
  let pass := s.trans.passes.find? fun p => p.who = who
  let s0 := s.count 0x580 (s.seg seg).func pages.length
  match pages.findSome? fun p => s.trans.fails.find? fun f => f.seg = seg && (f.va = p || (tlbFind s.trans seg p).any fun x => x.base = f.va) with
  | some f => (pageRefused s0 seg f.status f.reason, .refused f.status f.reason)
  | none =>
    let missing := pages.filter fun p => (tlbFind s.trans seg p).isNone
    if !missing.isEmpty then (forEach s0 missing fun s p => askWalk s seg p, .wait)
    else
      let xs := pages.filterMap fun p => tlbFind s.trans seg p
      let s1 := s0.updTrans fun t => xs.foldl tlbTouch t
      let d := s.seg seg
      match if pass.isSome then none else pageCheck (tget 0 s.trans.gates d.pd) need xs with
      | some (status, reason) => (pageRefused s1 seg status reason, .refused status reason)
      | none =>
        let chk := (pass.map (·.at')).getD s.time.count
        let ads := xs.filter fun x => adNeeded s x need
        if !ads.isEmpty then
          let s2 := if pass.isSome then s1 else s1.updTrans fun t => { t with passes := t.passes ++ [{ who := who, seg := seg, at' := chk }] }
          (forEach s2 ads fun s x => adStart s x need, .wait)
        else
          let s2 := s1.updTrans fun t => { t with passes := t.passes.filter fun p => p.who ≠ who }
          let pieces := piecesOf s.trans seg addr len
          let open' := pieces.all fun x => (need = .write || windowOk s d.func x.addr x.len false) && (need = .read || windowOk s d.func x.addr x.len true)
          if open' then (s2, .ok d.func seg chk pieces)
          else ((windowFault s2 d.func).took, .refused 0 (s.free % 9 + 1))

/-- An access through a key: checks 2 to 7 of R312 (R341, R345). -/
def access (s : State) (who : List Nat) (key pd addr len : Nat) (need : Need) : State × KeyAccess :=
  if s.trans.passes.any fun p => p.who = who then accessPages s who (key / 256) addr len need
  else
    let r := checkKey s key pd addr len need
    match r.2 with
    | .wait => (r.1, .wait)
    | .refused n => (r.1, .refused 0 n)
    | .ok => accessPages r.1 who (key / 256) addr len need

/-- An access that will not be made any more is forgotten. -/
def dropPass (s : State) (who : List Nat) : State := s.updTrans fun t => { t with passes := t.passes.filter fun p => p.who ≠ who }

/-! ### Draining -/

/-- An access checked on a segment before a boundary is still under way: passed and not yet issued, or issued and not yet answered. -/
def segBusy (s : State) (seg before : Nat) : Bool :=
  (s.trans.passes.any fun p => p.seg = seg && decide (p.at' < before)) ||
  (s.host.reads.any fun r => r.seg = some seg && decide (r.at' < before)) ||
  (s.host.writes.any fun w => w.seg = some seg && decide (w.at' < before))

/-- An access checked for a protection domain before a boundary is still under way. -/
def pdBusy (s : State) (pd before : Nat) : Bool :=
  let segs := (s.trans.segs.filter fun c => c.2.pd = pd).map (·.1)
  segs.any fun i => segBusy s i before

/-! ### Registration, revocation and invalidation -/

/-- The index lies in the function's row of TRANS_FUNC_SEGS and in the table, and is not 0 (R340). -/
def segAllowed (s : State) (func i : Nat) : Bool :=
  let row := s.reg Dict.TRANS_FUNC_SEGS func
  inRange i (fld row 55 32) (fld row 24 0) && segIndexed s i && i ≠ 0

/-- The arguments of a SEG_REGISTER (R340). -/
def regDesc (s : State) (e : Entry) : Seg :=
  let c := e.more.getD 0 0
  { st := .valid, r := bitAt c 192, w := bitAt c 193, adupd := bitAt c 194, levels := fld c 197 196, tag := ((s.seg (fld e.w5 23 0)).tag + 1) % 256
    func := e.func, pd := (s.queue e.queue).pd, start := fld c 63 0, len := fld c 127 64, root := fld c 191 140 * 4096 }

/-- An index has a registration that waits for its boundary. -/
def registering (s : State) (i : Nat) : Bool :=
  s.trans.due.any fun d => match d with
    | .register j _ _ => j = i
    | _ => false

/-- The status with which SEG_REGISTER is refused; 0 when it passes (R340). -/
def registerStatus (s : State) (e : Entry) : Nat :=
  let i := fld e.w5 23 0
  let d := regDesc s e
  if !segAllowed s e.func i then 0x2A
  else if (s.seg i).st ≠ .free ∨ registering s i then 0x44
  else if d.len = 0 ∨ 2 ^ (12 + 9 * (d.levels + 1)) < d.start + d.len ∨ (!d.r ∧ !d.w) then 0x2A
  else if !windowOk s e.func d.root 4096 false ∨ (d.adupd ∧ !windowOk s e.func d.root 4096 true) then 0x2A
  else 0

/-- Something takes effect at the next boundary. -/
def transDue (s : State) (d : TransDue) : State := s.updTrans fun t => { t with due := t.due ++ [d] }

/-- SEG_REGISTER starts (R340). -/
def segRegister (s : State) (e : Entry) : State :=
  let i := fld e.w5 23 0
  match registerStatus s e with
  | 0 => transDue s (.register i e.id (regDesc s e))
  | v => finishEntry s e.id v

/-- The segment that a command names is Valid or Revoking and of the queue's PD (R332, R354). -/
def segOfQueue (s : State) (e : Entry) : Bool :=
  let i := fld e.w5 23 0
  segIndexed s i && (s.seg i).st ≠ .free && (s.seg i).pd = (s.queue e.queue).pd

/-- SEG_REVOKE starts (R332). -/
def segRevoke (s : State) (e : Entry) : State :=
  if segOfQueue s e then transDue s (.revoke (fld e.w5 23 0) e.id) else finishEntry s e.id 0x2A

/-- An invalidation starts (R354). -/
def invalStart (s : State) (e : Entry) (range : Option (Nat × Nat)) : State :=
  if segOfQueue s e then transDue s (.inval (fld e.w5 23 0) e.id e.queue range) else finishEntry s e.id 0x2A

/-- The walks of a segment begin again with fresh reads (R355). -/
def restartWalks (s : State) (seg : Nat) : State :=
  let old := s.trans.walks.filter fun w => w.seg = seg && w.running
  let n := s.trans.nextWalk
  let fresh : List Walk := (List.range old.length).map fun i => { id := n + i, seg := seg, va := (old.getD i {}).va }
  startWalks (s.updTrans fun t =>
    { t with walks := (t.walks.filter fun w => !(w.seg = seg && w.running)) ++ fresh, nextWalk := n + old.length }) 272

/-- A segment's generation advances, which drops its translations (R354). -/
def newGen (s : State) (seg : Nat) : State :=
  (s.updSeg seg fun d => { d with gen := (d.gen + 1) % 65536 }).updTrans fun t => dropSeg t seg

/-- A drain starts. -/
def addDrain (s : State) (d : Drain) : State := s.updTrans fun t => { t with drains := t.drains ++ [d] }

/-- What was due takes effect at the boundary (R332, R340, R355). -/
def applyTransDue (s : State) (d : TransDue) : State :=
  match d with
  | .register i id x =>
    let s1 := newGen (s.updSeg i fun o => { x with regStitch := s.time.count, gen := o.gen }) i
    let w := writeDesc s1 i
    finishEntry w.st id 0 0 (put (i * 256 + x.tag) 31 0) w.tags
  | .revoke i id =>
    let s1 := if (s.seg i).st = .valid then (writeDesc (s.updSeg i fun d => { d with st := .revoking }) i).st else s
    if (s.seg i).st = .free then finishEntry s id 0
    else addDrain s1 { kind := .revoke, entry := id, seg := i, since := s.time.count }
  | .inval i id q range =>
    let s1 := match range with
      | none => newGen s i
      | some (first, bytes) => if 256 < pageCount first bytes then newGen s i else s.updTrans fun t => dropRange t i first bytes
    addDrain (restartWalks s1 i) { kind := .inval, queue := q, entry := id, seg := i, since := s.time.count }

/-- The rights registers that were written take effect (R350, R351). -/
def applyGate (s : State) (g : GateDue) : State :=
  let s1 := (s.updTrans fun t =>
    { t with gates := tset 0 t.gates g.pd g.value, gateAt := tset 0 t.gateAt g.pd s.time.count }).count 0x58A ((funcOfPd s g.pd).getD noInst)
  match g.entry with
  | some id => finishEntry s1 id 0
  | none => s1

/-- What the translation unit does at a boundary. -/
def transBoundary (s : State) : State :=
  let due := s.trans.due
  let gates := s.trans.gateDue
  let s1 := s.updTrans fun t => { t with due := [], gateDue := [] }
  forEach (forEach s1 gates applyGate) due applyTransDue

/-- A segment becomes Free (R332, R354). -/
def segFree (s : State) (i : Nat) : State := (writeDesc (newGen (s.updSeg i fun d => { d with st := .free, faulted := false, fkind := 0 }) i) i).st

/-- The revocation of a segment is over: it is Free, and every SEG_REVOKE that waited completes (R332, R333). -/
def revokeDone (s : State) (i : Nat) : State :=
  let mine := s.trans.drains.filter fun d => d.kind = .revoke && d.seg = i
  let s1 := (segFree s i).updTrans fun t => { t with drains := t.drains.filter fun d => !(d.kind = .revoke && d.seg = i) }
  (forEach s1 mine fun s d => finishEntry s d.entry 0).event Dict.RMA_EVENTS 0 3

/-- REVOKE_DRAIN_DONE: no validated access to a Revoking segment is in flight (R332, R333). -/
def execRevokeDrainDone (seg : Nat) (s : State) : Host.Outcome State Fault Refusal :=
  .next (if (s.seg seg).st = .revoking ∧ !segBusy s seg (s.time.count + 1) ∧ !s.trans.ads.any (fun a => a.seg = seg) then revokeDone s seg else s)

/-- REVOKE_SLOW: a drain has lasted more than 1 fr (R332). -/
def execRevokeSlow (seg : Nat) (s : State) : Host.Outcome State Fault Refusal :=
  if s.trans.drains.any fun d => d.kind = .revoke && d.seg = seg && !d.slow && decide (d.since + 1024 < s.time.count) then
    .next (((s.updTrans fun t =>
      { t with drains := t.drains.map fun d => if d.kind = .revoke ∧ d.seg = seg then { d with slow := true } else d }).raise
        0x0A05 6 seg).event Dict.RMA_EVENTS 0 4)
  else .next s

/-- The oldest drain of a queue's of a kind. -/
def drainOf (s : State) (k : DrainKind) (q : Nat) : Option Drain := s.trans.drains.find? fun d => d.kind = k && d.queue = q

/-- A drain is over: its entry completes. -/
def endDrain (s : State) (d : Drain) : State :=
  finishEntry (s.updTrans fun t => { t with drains := t.drains.erase d }) d.entry 0

/-- INVAL_COMPLETE: the accesses and updates that used what was dropped are over (R355). -/
def execInvalComplete (queue : Nat) (s : State) : Host.Outcome State Fault Refusal :=
  if 1048576 ≤ queue then .fault .noSuchQueue
  else match drainOf s .inval queue with
    | some d =>
      .next (if !segBusy s d.seg d.since ∧ !s.trans.ads.any (fun a => a.seg = d.seg && decide (a.since < d.since))
        then endDrain (s.count 0x589 (s.seg d.seg).func) d else s)
    | none => .next s

/-- INVAL_SLOW: an invalidation takes more than 1 fr (R355). -/
def execInvalSlow (queue : Nat) (s : State) : Host.Outcome State Fault Refusal :=
  if 1048576 ≤ queue then .fault .noSuchQueue
  else match s.trans.drains.find? fun d => d.kind = .inval && d.queue = queue && !d.slow && decide (d.since + 1024 < s.time.count) with
    | some d =>
      .next (((s.updTrans fun t => { t with drains := t.drains.map fun x => if x = d then { d with slow := true } else x }).raise
        0x0B07 6 d.seg).event Dict.TRANS_EVENTS 0 2)
    | none => .next s

/-- KGATE_SYNC_COMPLETE: every access checked before the latest change of the PD's gates is over (R351). -/
def execKgateSyncComplete (queue : Nat) (s : State) : Host.Outcome State Fault Refusal :=
  if 1048576 ≤ queue then .fault .noSuchQueue
  else match drainOf s .sync queue with
    | some d =>
      .next (if !s.trans.gateDue.any (fun g => g.pd = d.seg) ∧ !pdBusy s d.seg (tget 0 s.trans.gateAt d.seg) then endDrain s d else s)
    | none => .next s

/-- A start that needs the descriptor of the segment in W5 waits until it is on die (R338). -/
def withDesc (f : State → Entry → State) (s : State) (e : Entry) : State × Bool :=
  let i := fld e.w5 23 0
  if segIndexed s i then
    let r := lookDesc s i
    if r.2 then (f r.1 e, true) else (r.1, false)
  else (f s e, true)

/-- The start of a command of this chapter that names a segment. -/
def startSeg (opc : Nat) : State → Entry → State × Bool :=
  withDesc fun s e => match opc with
    | 0x30 => segRegister s e
    | 0x11 => segRevoke s e
    | 0x31 => invalStart s e (some (e.w6, e.w7))
    | _ => invalStart s e none

/-- SEG_REGISTER (R340). -/
def execSegRegister (queue : Nat) (s : State) : Host.Outcome State Fault Refusal := startEntry s queue 1 [0x30] (startSeg 0x30)

/-- SEG_REVOKE (R310, R332). -/
def execSegRevoke (queue : Nat) (s : State) : Host.Outcome State Fault Refusal := startEntry s queue 1 [0x11] (startSeg 0x11)

/-- INVAL_RANGE (R354). -/
def execInvalRange (queue : Nat) (s : State) : Host.Outcome State Fault Refusal := startEntry s queue 1 [0x31] (startSeg 0x31)

/-- INVAL_SEG (R354). -/
def execInvalSeg (queue : Nat) (s : State) : Host.Outcome State Fault Refusal := startEntry s queue 1 [0x32] (startSeg 0x32)

/-- A rights register is replaced at the next boundary (R350). -/
def gateWrite (s : State) (pd value : Nat) (entry : Option Nat) : State :=
  s.updTrans fun t => { t with gateDue := t.gateDue ++ [{ pd := pd, value := value % 2 ^ 32, entry := entry }] }

/-- KGATE_SET (R351). -/
def execKgateSet (queue : Nat) (s : State) : Host.Outcome State Fault Refusal :=
  startEntry s queue 1 [0x33] (atOnce fun s e => gateWrite s (s.queue e.queue).pd (fld e.w5 31 0) (some e.id))

/-- KGATE_SYNC (R351). -/
def execKgateSync (queue : Nat) (s : State) : Host.Outcome State Fault Refusal :=
  startEntry s queue 1 [0x34] (atOnce fun s e =>
    addDrain s { kind := .sync, queue := e.queue, entry := e.id, seg := (s.queue e.queue).pd, since := s.time.count })

/-- RIGHTS_WORD_WRITE, at a BAR0 offset (R349, R350). -/
def execRightsWordWrite (func offset : Nat) (data : List Byte) (s : State) : Host.Outcome State Fault Refusal :=
  let n := (offset - 0x30000) / 4
  let words := data.length / 4
  mmio s func
    (if formOk offset data ∧ 0x30000 ≤ offset ∧ offset ≤ 0xFFFFF ∧ funcValid s func ∧ n + words ≤ pdCount s func then
      forEach s (List.range words) fun s i => gateWrite s (pdFirst s func + n + i) (natLE ((data.drop (4 * i)).take 4)) none
    else mmioRefused s func)

/-- A row of TRANS_DEVICE_REGION applied: every cached translation and walk-cache entry is dropped (R352). -/
def applyDeviceRegion (s : State) (row value : Nat) : State :=
  (s.setReg Dict.TRANS_DEVICE_REGION row (put (fld value 127 127) 127 127 + put (fld value 115 64) 115 64 + fld value 51 0)).updTrans
    fun t => { t with tlb := [], wcache := [] }

/-- TRANS_DEVICE_REGION_WRITE (R352). -/
def execTransDeviceRegionWrite (row value : Nat) (s : State) : Host.Outcome State Fault Refusal :=
  if 16 ≤ row then .fault .noSuchRow
  else judged s 0 (applyDeviceRegion s row value)

end Sys2Proof.Machine
end

