-- ==== Sys2Proof/Machine/RmaCtx.lean ====
section
/-!
DEFINITION. Peer contexts and their places (R313 to R315, R327), and the formats of request headers, responses and acknowledgements
(R303 to R305, R316).
-/
namespace Sys2Proof.Machine

/-- The state with the remote memory access units changed. -/
def State.updRma (s : State) (f : RmaUnit → RmaUnit) : State := { s with rma := f s.rma }

/-- The key of a requester context (R313). -/
def reqKey (sep dfna : Nat) : Nat := sep * 2 ^ 18 + dfna

/-- The key of a responder context (R313). -/
def respKey (sfna sep : Nat) : Nat := sfna * 2 ^ 16 + sep

/-- The endpoint and the node of a requester context's key. -/
def reqEp (key : Nat) : Nat := key / 2 ^ 18
def reqNode (key : Nat) : Nat := key % 2 ^ 18

/-- The node and the endpoint of a responder context's key. -/
def respNode (key : Nat) : Nat := key / 2 ^ 16
def respEp (key : Nat) : Nat := key % 2 ^ 16

/-- A requester context. -/
def State.reqCtx (s : State) (key : Nat) : ReqCtx := tget {} s.rma.req key

/-- The state with a requester context changed. -/
def State.updReq (s : State) (key : Nat) (f : ReqCtx → ReqCtx) : State :=
  s.updRma fun u => { u with req := tupd {} u.req key f }

/-- A responder context. -/
def State.respCtx (s : State) (key : Nat) : RespCtx := tget {} s.rma.resp key

/-- The state with a responder context changed. -/
def State.updResp (s : State) (key : Nat) (f : RespCtx → RespCtx) : State :=
  s.updRma fun u => { u with resp := tupd {} u.resp key f }

/-- A fresh number for a message or a job. -/
def State.rmaId (s : State) : Nat := s.rma.nextId

/-- The state with that number used. -/
def State.rmaNext (s : State) : State := s.updRma fun u => { u with nextId := u.nextId + 1 }

/-! ### PSNs -/

/-- The distance from one PSN to another, modulo 2^24 (R313). -/
def psnDist (from' to' : Nat) : Nat := modSub (2 ^ 24) to' from'

/-- A PSN some way on. -/
def psnAdd (p n : Nat) : Nat := (p + n) % 2 ^ 24

/-- A PSN lies from one to before another, both within half of the number space. -/
def psnIn (p from' to' : Nat) : Bool := decide (psnDist from' p < psnDist from' to')

/-! ### Places (R313, R314, R327) -/

/-- The code of a context in the tables of places and of what is on die: twice its key, plus one for a requester's. -/
def reqCode (key : Nat) : Nat := 2 * key + 1
def respCode (key : Nat) : Nat := 2 * key

/-- The buckets of the peer area: sixteen places each, while the store is Given (R260, R313). -/
def peerBuckets (s : State) : Nat := if s.host.store = .given then s.reg Dict.ATTACH_STORE_PEERS / 16 else 0

/-- A free place in the bucket of a context; none when the bucket is full (R313, R327). -/
def freePlace (s : State) (code : Nat) : Option Nat :=
  let n := peerBuckets s
  if n = 0 then none
  else
    let b := Config.peerHash code % n
    (List.range 16).findSome? fun i => if (tget {} s.rma.places (16 * b + i)).holder = 0 then some (16 * b + i) else none

/-- A place is taken; its INC counts the incarnations of requesters that have held it (R314). -/
def takePlace (s : State) (place code : Nat) (advance : Bool) : State :=
  s.updRma fun u => { u with places := tupd {} u.places place fun p =>
    { holder := code + 1, inc := if advance then (p.inc + 1) % 16 else p.inc } }

/-- A place is given up; its INC stays. -/
def leavePlace (s : State) (place : Nat) : State :=
  s.updRma fun u => { u with places := tupd {} u.places place fun p => { p with holder := 0 } }

/-! ### What is on die (R313, R327) -/

/-- A context may leave the die: it has no packet in process, and a requester's none outstanding (R327). -/
def mayEvict (s : State) (code : Nat) : Bool :=
  if code % 2 = 1 then
    let c := s.reqCtx (code / 2)
    c.pkts.isEmpty && c.prep.isNone && !s.rma.respWait.any fun p => reqKey p.dep p.sfna = code / 2
  else
    let k := code / 2
    (s.respCtx k).unseen.isEmpty && !(s.rma.parked.any fun p => respKey p.sfna p.sep = k) && !(s.rma.gets.any fun j => j.key = k) &&
    !(s.rma.atomics.any fun j => j.key = k)

/-- A context is on die. -/
def onDie (s : State) (code : Nat) : Bool := s.rma.onDie.contains code

/-- A context is placed on die, in the place of the one used least recently that may leave; the second component says that it found one
(R327). -/
def placeOnDie (s : State) (code : Nat) : State × Bool :=
  let rest := s.rma.onDie.filter fun x => x ≠ code
  if rest.length < 65536 then (s.updRma fun u => { u with onDie := code :: rest }, true)
  else match rest.reverse.find? (mayEvict s) with
    | some out => (s.updRma fun u => { u with onDie := code :: rest.filter fun x => x ≠ out }, true)
    | none => (s, false)

/-- A context leaves the die and every table but its place's INC. -/
def forgetDie (s : State) (code : Nat) : State := s.updRma fun u => { u with onDie := u.onDie.filter fun x => x ≠ code }

/-- A hint: the on-die slot in bits 19:4 and its generation, 1 to 15; which slot is taken the spec leaves open (R313). -/
def hintOf (n : Nat) : Nat := n % 65536 * 16 + n / 65536 % 15 + 1

/-- The function that an event of an endpoint is charged to (R516). -/
def epInst (s : State) (ep : Nat) : Nat := (funcOfEp s ep).getD noInst

/-! ### Formats -/

/-- Word 0 of a request's operation header (R303). -/
def packReqWord (syn first last notify : Bool) (inc mpsn rkey : Nat) : Nat :=
  put (b2n syn) 63 63 + put (b2n first) 62 62 + put (b2n last) 61 61 + put (b2n notify) 60 60 + put inc 59 56 + put mpsn 55 32 + put rkey 31 0

/-- Word 0 of a packet's operation header. -/
def hdrW0 (p : Packet) : Nat := p.oph.getD 0 0

/-- The fields of a request's word 0 (R303). -/
def hdrSyn (p : Packet) : Bool := bitAt (hdrW0 p) 63
def hdrFirst (p : Packet) : Bool := bitAt (hdrW0 p) 62
def hdrLast (p : Packet) : Bool := bitAt (hdrW0 p) 61
def hdrNotify (p : Packet) : Bool := bitAt (hdrW0 p) 60
def hdrInc (p : Packet) : Nat := fld (hdrW0 p) 59 56
def hdrMpsn (p : Packet) : Nat := fld (hdrW0 p) 55 32
def hdrRkey (p : Packet) : Nat := fld (hdrW0 p) 31 0

/-- RADDR of a request of OHLEN 2 (R304). -/
def hdrRaddr (p : Packet) : Nat := p.oph.getD 1 0

/-- Word 0 of a response (R305). -/
def packRespWord (lastr : Bool) (inc index status reason : Nat) : Nat :=
  put (b2n lastr) 63 63 + put inc 59 56 + put index 55 48 + put status 47 40 + put reason 39 32

/-- An acknowledgement (R316). -/
structure Ack where
  kind : Nat := 0
  type : Nat := 0
  inc : Nat := 0
  cv : Bool := false
  cum : Nat := 0
  sack : Nat := 0
  acked : Nat := 0
  ce : Nat := 0
  hint : Nat := 0
  epsn : Nat := 0
  estatus : Nat := 0
  ereason : Nat := 0
  backoff : Nat := 0
deriving DecidableEq, Repr

/-- The 256 bits of an acknowledgement's payload (R316). -/
def packAck (a : Ack) : Nat :=
  put a.kind 255 254 + put a.type 253 251 + put a.inc 250 247 + put (b2n a.cv) 246 246 + put a.cum 239 216 + put a.sack 215 152 +
  put a.acked 151 144 + put a.ce 143 136 + put a.hint 135 116 + put a.epsn 115 92 + put a.estatus 91 84 + put a.ereason 83 76 +
  put a.backoff 75 64

/-- The acknowledgement that 256 bits spell (R316). -/
def unpackAck (n : Nat) : Ack :=
  { kind := fld n 255 254, type := fld n 253 251, inc := fld n 250 247, cv := bitAt n 246, cum := fld n 239 216, sack := fld n 215 152
    acked := fld n 151 144, ce := fld n 143 136, hint := fld n 135 116, epsn := fld n 115 92, estatus := fld n 91 84
    ereason := fld n 83 76, backoff := fld n 75 64 }

/-- The host port by which the responses and acknowledgements of an endpoint leave; the spec names none. -/
def answerPort (ep : Nat) : Nat := 96 + ep % 4

/-- An acknowledgement leaves (R316). -/
def sendAck (s : State) (sep dfna dep : Nat) (a : Ack) : State :=
  let p : Packet :=
    { pcls := 0, opc := 0x80, vc := 4, dfna := dfna, dep := dep, sep := sep, len := 32, payload := bytesBE (packAck a) 32 }
  (s.count 0x509 (epInst s sep)).inject (answerPort sep) { pkt := p, ctl := true }

/-- A response leaves (R305). -/
def sendResponse (s : State) (opc key dep psn hint w0 : Nat) (data : List Byte) : State :=
  s.inject (answerPort dep)
    { pkt := { opc := opc, vc := 4, dfna := respNode key, dep := respEp key, sep := dep, psn := psn, peerctx := hint, oph := [w0]
               len := data.length, payload := data } }

/-! ### Endpoints -/

/-- The row of RMA_EP of an endpoint (R312, R335). -/
def epRow (s : State) (ep : Nat) : Nat := s.reg Dict.RMA_EP ep

/-- An endpoint receives remote operations: its row is VALID and its function is not in reset (R312, R364). -/
def epServes (s : State) (ep : Nat) : Bool :=
  decide (ep < 65535) && bitAt (epRow s ep) 63 &&
  (match funcOfEp s ep with
   | some f => !fnResetting s f
   | none => false)

/-- The protection domain of an endpoint. -/
def epPd (s : State) (ep : Nat) : Nat := fld (epRow s ep) 62 43

/-- The arrival queue of an endpoint, by its global number, while it can serve (R325, R335). -/
def arrivalQueue (s : State) (ep : Nat) : Option Nat :=
  ((funcOfEp s ep).bind fun f => globalQueue s f (fld (epRow s ep) 42 23)).bind fun g => if (s.queue g).live then some g else none

/-- The ring that takes an endpoint's arrival completions, when it can take a unit (R295, R325). -/
def arrivalRing (s : State) (ep : Nat) : Option Nat :=
  (arrivalQueue s ep).bind fun g => if ringCanTake s (ringOf s g) then some (ringOf s g) else none

/-- An arrival is refused for an exhausted ring (R296, R300). -/
def noteNoRing (s : State) (ep : Nat) : State :=
  match arrivalQueue s ep with
  | some g => s.count 0x48B (s.queue g).func
  | none => s

/-! ### Local buffers (R341) -/

/-- What checks or accesses over several local buffers came to. -/
inductive BufCheck where
  | wait | refused (status reason : Nat) | ok
deriving DecidableEq, Repr

/-- Checks 2 to 6 on every local buffer, whole (R341). -/
def checkBufs (s : State) (pd : Nat) (need : Need) : List Sge → State × BufCheck
  | [] => (s, .ok)
  | b :: rest =>
    if b.len = 0 then checkBufs s pd need rest
    else
      let r := checkKey s b.key pd b.addr b.len need
      match r.2 with
      | .wait => (r.1, .wait)
      | .refused n => (r.1, .refused 0x43 n)
      | .ok => checkBufs r.1 pd need rest

/-- The parts of local buffers that hold the bytes of a message from an offset on. -/
def sliceBufs : List Sge → Nat → Nat → List Sge
  | [], _, _ => []
  | b :: rest, off, len =>
    if len = 0 then []
    else if b.len ≤ off then sliceBufs rest (off - b.len) len
    else
      let n := min len (b.len - off)
      { addr := b.addr + off, len := n, key := b.key } :: sliceBufs rest 0 (len - n)

/-- One part of an access to local buffers that may be issued. -/
structure Grant where
  func : Nat := 0
  seg : Nat := 0
  chk : Nat := 0
  pieces : List Piece := []
deriving DecidableEq, Repr

/-- What an access to several local buffers came to. -/
inductive BufAccess where
  | wait | refused (status reason : Nat) | ok (grants : List Grant)
deriving DecidableEq, Repr

/-- An access to local buffers, part by part; the first refusal counts, then the first wait (R341, R345). -/
def accessBufs (s : State) (who : List Nat) (pd : Nat) (need : Need) : List Sge → State × BufAccess
  | [] => (s, .ok [])
  | b :: rest =>
    let r := access s (who ++ [rest.length]) b.key pd b.addr b.len need
    match r.2 with
    | .refused status reason => (r.1, .refused (if status = 0 then 0x43 else status) reason)
    | .wait =>
      let r2 := accessBufs r.1 who pd need rest
      (r2.1, match r2.2 with
        | .refused status reason => .refused status reason
        | _ => .wait)
    | .ok func seg chk pieces =>
      let r2 := accessBufs r.1 who pd need rest
      (r2.1, match r2.2 with
        | .ok gs => .ok ({ func := func, seg := seg, chk := chk, pieces := pieces } :: gs)
        | other => other)

/-- Data is written through grants, in order; the tags of the writes (R250). -/
def writeGrants (s : State) : List Grant → List Byte → State × List Nat
  | [], _ => (s, [])
  | g :: rest, data =>
    let n := sumOf g.pieces (·.len)
    let r := writePieces s g.func (some g.seg) g.chk g.pieces (data.take n)
    let r2 := writeGrants r.1 rest (data.drop n)
    (r2.1, r.2 ++ r2.2)

/-- Data is read through grants under one gather (R248). -/
def readGrants (s : State) (why : ReadFor) (gs : List Grant) : State :=
  let id := s.host.nextTag
  let flat := gs.flatMap fun g => g.pieces.map fun x => (g, x)
  match gs with
  | [] => s
  | g0 :: _ =>
    if accessGone s g0.func then s
    else
      let ga : Gather := { id := id, why := why, parts := (List.range flat.length).map fun i => (id + i, none) }
      forEach (s.updHost fun h => { h with gathers := h.gathers ++ [ga] }) flat fun s gx =>
        issueReadSeg s gx.1.func gx.2.addr gx.2.len (.part id) (some gx.1.seg) gx.1.chk

end Sys2Proof.Machine
end

