-- ==== Sys2Proof/Machine/RmaSend.lean ====
section
/-!
DEFINITION. The requester: opening and ending contexts (R314), making and sending packets (R306, R307, R320), repeating them (R321, R322),
retry-later (R329), rate control (R330) and the completion of messages (R320, R324).
-/
namespace Sys2Proof.Machine

/-! ### Messages and their pieces (R306) -/

/-- The bytes of a message that one request packet covers. -/
def pieceBytes (opc : Nat) : Nat := if opc = 2 then 1048576 else 4032

/-- The request packets of a message. -/
def Msg.pieces (m : Msg) : Nat :=
  if m.opc = 1 ∨ m.opc = 3 then max 1 ((m.len + 4031) / 4032) else if m.opc = 2 then (m.len + 1048575) / 1048576 else 1

/-- The bytes that piece i of a message covers. -/
def Msg.pieceLen (m : Msg) (i : Nat) : Nat :=
  if m.opc = 1 ∨ m.opc = 2 ∨ m.opc = 3 then min (pieceBytes m.opc) (m.len - i * pieceBytes m.opc) else m.len

/-- A message of a context. -/
def ReqCtx.msg (c : ReqCtx) (id : Nat) : Option Msg := c.msgs.find? fun m => m.id = id

/-- The state with a message of a context changed. -/
def updMsg (s : State) (key id : Nat) (f : Msg → Msg) : State :=
  s.updReq key fun c => { c with msgs := c.msgs.map fun m => if m.id = id then f m else m }

/-- The state with a packet of a context changed. -/
def updPktOf (s : State) (key psn : Nat) (f : ReqPkt → ReqPkt) : State :=
  s.updReq key fun c => { c with pkts := c.pkts.map fun p => if p.psn = psn then f p else p }

/-- A message fails at a PSN, the lowest of which counts (R324). -/
def msgFails (s : State) (key id psn status reason : Nat) : State :=
  updMsg s key id fun m =>
    let keep := match m.failed with
      | some (p, _, _) => decide (psnDist p psn < 2 ^ 23)
      | none => false
    { m with stopped := true, failed := if keep then m.failed else some (psn, status, reason) }

/-! ### Completion -/

/-- A rendezvous send whose packet is acknowledged, or whose context fails (R366). -/
def rndvAcked (s : State) (entry : Nat) : State :=
  { s with mtch := { s.mtch with rndv := s.mtch.rndv.map fun r =>
      if r.entry = entry ∧ r.ackedAt.isNone then { r with ackedAt := some (s.time.count / 1024) } else r } }

/-- A rendezvous record is given up. -/
def rndvDrop (s : State) (entry : Nat) : State :=
  { s with mtch := { s.mtch with rndv := s.mtch.rndv.filter fun r => r.entry ≠ entry } }

/-- A rendezvous send is over when its packet is acknowledged and a release has come (R366). -/
def rndvSettle (s : State) (entry : Nat) : State :=
  if s.mtch.rndv.any fun r => r.entry = entry && r.ackedAt.isSome && r.released then
    finishEntry (rndvDrop s entry) entry 0 (((s.entry? entry).map (·.len)).getD 0)
  else s

/-- A rendezvous whose outcome is unknown (R366). -/
def rndvUnknown (s : State) (entry func : Nat) : State :=
  failEntry (((rndvDrop s entry).raise 0x0C06 3 func).event Dict.MATCH_EVENTS 0 4) entry 0x65

/-- The owner of a message learns its outcome: a status, its bytes, what its completion carries and the writes to wait for (R320, R324,
R366, R378). -/
def tellOwner (s : State) (m : Msg) (status reason psn : Nat) : State :=
  match m.owner with
  | .entry id =>
    if m.opc = 4 then (if status = 0 then rndvSettle (rndvAcked s id) id else failEntry (rndvDrop s id) id status reason psn)
    else finishEntry s id status m.done (if status = 0 then m.result else failResult reason psn) m.tags
  | .recv job =>
    { s with mtch := { s.mtch with recvs := s.mtch.recvs.map fun r =>
        if r.id = job then { r with wrote := m.done, status := if r.status = 0 then status else r.status
                                    reason := if r.status = 0 then reason else r.reason, tags := r.tags ++ m.tags, ended := true } else r } }
  | .release => s

/-- A message is over when each of its pieces has its PSN, or it has stopped, and nothing of it is outstanding (R320). -/
def msgOver (c : ReqCtx) (m : Msg) : Bool :=
  (m.stopped || (decide (m.pieces ≤ m.assigned) && m.again.isEmpty)) && !(c.pkts.any fun p => p.msg = m.id) &&
  !(c.prep.any fun p => p.msg = m.id)

/-- The messages of a context that are over leave it, each telling its owner. -/
def sweepMsgs (s : State) (key : Nat) : State :=
  let c := s.reqCtx key
  let ended := c.msgs.filter (msgOver c)
  let s1 := s.updReq key fun c => { c with msgs := c.msgs.filter fun m => !msgOver c m }
  forEach s1 ended fun s m => match m.failed with
    | some (psn, status, reason) => tellOwner s m status reason psn
    | none => tellOwner s m 0 0 0

/-- Whether something of a context is outstanding. -/
def ReqCtx.busy (c : ReqCtx) : Bool := !c.pkts.isEmpty || !c.msgs.isEmpty || c.prep.isSome

/-- A context that has nothing outstanding is idle from now, and its order may follow another bank (R166, R314). -/
def noteIdle (s : State) (key : Nat) : State :=
  let c := s.reqCtx key
  let s1 := if c.pkts.all (·.got) then s.updSw fun w => { w with ordBank := tset 0 w.ordBank key 0 } else s
  if c.busy then s1 else s1.updReq key fun c => { c with timer := none, since := s.time.count }

/-! ### The life of a context (R314) -/

/-- Every message of a context ends: those with a PSN by the status of the failure, the others as flushed; a rendezvous send's outcome is
unknown (R314, R366). -/
def flushMsgs (s : State) (key status : Nat) : State :=
  let c := s.reqCtx key
  let una := c.una
  let s1 := s.updReq key fun c => { c with msgs := [], pkts := [], retx := [], prep := none, held := [], holdUntil := none, timer := none }
  forEach s1 c.msgs fun s m =>
    if m.assigned = 0 then tellOwner s m 0x28 0 0
    else match m.owner with
      | .entry id => if m.opc = 4 then rndvUnknown s id m.func else tellOwner s m status 0 una
      | _ => tellOwner s m status 0 una

/-- The rendezvous sends whose packet is acknowledged lose their outcome with their context (R366). -/
def flushRndv (s : State) (key : Nat) : State :=
  let mine := s.mtch.rndv.filter fun r => reqKey r.sep r.dfna = key && r.ackedAt.isSome
  forEach s mine fun s r => rndvUnknown s r.entry (((s.entry? r.entry).map (·.func)).getD 0)

/-- PEER_CLOSE entries that waited complete: the context is Closing (R310). -/
def tellClosers (s : State) (key : Nat) : State :=
  let l := (s.reqCtx key).closers
  forEach (s.updReq key fun c => { c with closers := [] }) l fun s id => finishEntry s id 0

/-- A context enters Closing (R314). -/
def enterClosing (s : State) (key : Nat) : State :=
  tellClosers (s.updReq key fun c => { c with st := .closing, since := s.time.count, respN := 0, respAt := none }) key

/-- A context fails: its entries complete, and it is Closing (R314). -/
def ctxFails (s : State) (key status : Nat) : State :=
  enterClosing (flushRndv (flushMsgs s key status) key) key

/-- An Open context ends in order: ACK TYPE 4, then Closing (R314). -/
def closeCtx (s : State) (key : Nat) : State :=
  let c := s.reqCtx key
  enterClosing (sendAck s (reqEp key) (reqNode key) 0 { kind := 1, type := 4, inc := c.inc, hint := c.hint }) key

/-- Every message that waits for a context finds no place for one (R327). -/
def noPlace (s : State) (key : Nat) : State :=
  let l := (s.reqCtx key).msgs
  let s1 := s.updReq key fun _ => {}
  forEach ((s1.raise 0x0A06).event Dict.RMA_EVENTS 0 6) l fun s m => tellOwner s m 0x29 0 0

/-- A context opens for the messages that wait (R314). -/
def openCtx (s : State) (key : Nat) : State :=
  match freePlace s (reqCode key) with
  | none => noPlace s key
  | some pl =>
    let r := placeOnDie s (reqCode key)
    if !r.2 then s
    else
      let s1 := takePlace r.1 pl (reqCode key) true
      let psn := s.time.count % 2 ^ 24
      let max' := s.reg Dict.RMA_RATE_MAX
      s1.updReq key fun c =>
        { msgs := c.msgs, closers := c.closers, st := .opening, place := pl, inc := (tget {} s1.rma.places pl).inc, una := psn, nxt := psn
          rto := s.reg Dict.RMA_RTO_INIT_ST, rate := max', credit := max', periodAt := s.time.count, since := s.time.count }

/-- A context that a message needs: it is opened, or fetched from the store when it is not on die (R314, R327, R328). -/
def needCtx (s : State) (key : Nat) : State :=
  let c := s.reqCtx key
  match c.st with
  | .free => if c.msgs.isEmpty then s else openCtx s key
  | .closing => s
  | _ =>
    if onDie s (reqCode key) then (placeOnDie s (reqCode key)).1
    else if c.fetching then s
    else (s.updReq key fun c => { c with fetching := true }).count 0x505 (epInst s (reqEp key))

/-! ### Making packets ready -/

/-- A request packet of a context (R303, R304, R306). -/
def requestPacket (s : State) (key : Nat) (m : Msg) (p : ReqPkt) (data : List Byte) : Packet :=
  let c := s.reqCtx key
  let opc := if p.filler then 1 else m.opc
  let w0 := packReqWord p.syn p.first p.last (m.notify && p.last && !p.filler) c.inc
    (if m.opc = 2 then p.psn else m.mpsn) (if p.filler ∨ m.opc = 3 then 0 else m.rkey)
  let words := if m.opc = 3 ∨ m.opc = 4 then (if p.filler then [0] else m.words) else [if m.opc = 2 then m.raddr + p.off else m.raddr]
  { opc := opc, ord := m.ord, dfna := reqNode key, dep := m.dep, sep := reqEp key, psn := p.psn, peerctx := c.hint
    oph := w0 :: words, len := if p.filler then 0 else data.length, payload := if p.filler then [] else data }

/-- The payload that a piece has at hand without reading host memory: that of a GET, a filler, an empty piece or one that its entry carries. -/
def payloadAtHand (m : Msg) (off len : Nat) : Option (List Byte) :=
  if m.opc = 2 then some (bytesBE len 8)
  else match m.data with
    | some d => some ((d.drop off).take (if m.opc = 1 ∨ m.opc = 3 then len else d.length))
    | none => if len = 0 then some [] else none

/-- The charge of a piece before it is made (R193, R330). -/
def pieceCharge (s : State) (m : Msg) (len : Nat) : Nat :=
  36 + 8 * (if m.opc = 3 ∨ m.opc = 4 then 4 else 2) + (if m.opc = 2 then 8 else len) + s.reg Dict.SW_DRR_OVERHEAD

/-- A packet leaves: it is charged, its timer runs, and its group injects it (R195, R321, R330). -/
def sendPkt (s : State) (key : Nat) (m : Msg) (p : ReqPkt) (data : List Byte) (again : Bool) : State :=
  let pkt := requestPacket s key m p data
  let inj : InjPkt := { pkt := pkt, group := some m.group, label := m.flow, retx := again, ctx := if m.ord then some key else none }
  let s1 := s.updReq key fun c =>
    { c with credit := c.credit - drrCharge s pkt, timer := some (c.timer.getD (s.time.count + c.rto)) }
  let hp := 96 + fld (s.reg Dict.SW_INJ_GROUP m.group) 126 125
  (if again then s1 else s1.count 0x500 m.func).inject hp inj

/-- The responses of a GET of so many bytes, by number (R306). -/
def responseNumbers (len : Nat) : List Nat := List.range ((len + 4095) / 4096)

/-- A new piece takes its PSN and leaves (R313). -/
def sendNew (s : State) (key : Nat) (m : Msg) (off len tries : Nat) (data : List Byte) (filler : Bool) : State :=
  let c := s.reqCtx key
  let psn := c.nxt
  let isAgain := !m.again.isEmpty
  let m1 := if isAgain then { m with again := m.again.drop 1 }
    else { m with mpsn := if m.assigned = 0 then psn else m.mpsn, assigned := m.assigned + 1 }
  let p : ReqPkt :=
    { psn := psn, msg := m.id, off := off, len := len, syn := c.st = .opening, filler := filler, sentAt := s.time.count, resends := tries
      first := isAgain || m.assigned = 0, last := isAgain || m.assigned + 1 = m.pieces
      missing := if m.opc = 2 ∧ !filler then responseNumbers len else [], needResp := isAtomic m.opc && isFetch m.opc && !filler }
  let s1 := (updMsg s key m.id fun _ => m1).updReq key fun c => { c with nxt := psnAdd psn 1, pkts := c.pkts ++ [p], prep := none }
  sendPkt s1 key m1 p data false

/-- A packet leaves again with its own PSN (R321). -/
def sendOld (s : State) (key : Nat) (m : Msg) (psn : Nat) (data : List Byte) : State :=
  match (s.reqCtx key).pkts.find? fun p => p.psn = psn with
  | none => s.updReq key fun c => { c with prep := none }
  | some p =>
    let p1 := { p with sentAt := s.time.count }
    sendPkt ((updPktOf s key psn fun _ => p1).updReq key fun c => { c with prep := none }) key m p1 data true

/-- The packet made ready leaves with its payload. -/
def sendPrep (s : State) (key : Nat) (m : Msg) (r : Prep) (data : List Byte) : State :=
  match r.psn with
  | some psn => sendOld s key m psn data
  | none => sendNew s key m r.off r.len ((m.again.head?.map fun a => a.2.2).getD 0) data false

/-- The packet made ready cannot have its payload: a PSN that was taken, or that a poisoned read would leave a hole, is sent as a PUT of LEN 0, and
the message fails (R324, R341). -/
def prepLost (s : State) (key : Nat) (m : Msg) (r : Prep) (status reason : Nat) (poison : Bool) : State :=
  match r.psn with
  | some psn =>
    sendOld (updPktOf (msgFails s key m.id psn status reason) key psn fun p => { p with filler := true, missing := [], needResp := false })
      key m psn []
  | none =>
    if poison then
      let psn := (s.reqCtx key).nxt
      let s1 := sendNew s key m r.off r.len 0 [] true
      msgFails s1 key m.id psn status reason
    else (msgFails s key m.id (s.reqCtx key).nxt status reason).updReq key fun c => { c with prep := none }

/-- The packet being made ready goes on: its buffers are checked and read (R307, R341). -/
def workPrep (s : State) (key : Nat) : State :=
  let c := s.reqCtx key
  match c.prep with
  | none => s
  | some r =>
    if r.reading then s
    else match c.msg r.msg with
      | none => s.updReq key fun c => { c with prep := none }
      | some m =>
        let a := accessBufs s [1, key] m.pd .read (sliceBufs m.bufs r.off r.len)
        match a.2 with
        | .wait => a.1
        | .refused status reason => prepLost a.1 key m r status reason false
        | .ok gs => readGrants (a.1.updReq key fun c => { c with prep := some { r with reading := true } }) (.payload key) gs

/-- What a context sends next: a packet again, else while its window and its holds allow a new piece (R313, R321, R329). -/
def nextPrep (s : State) (key : Nat) : Option (Msg × Prep) :=
  let c := s.reqCtx key
  match c.retx.find? fun psn => !c.held.contains psn && c.pkts.any fun p => p.psn = psn && (!p.got || p.needResp) with
  | some psn =>
    (c.pkts.find? fun p => p.psn = psn).bind fun p => (c.msg p.msg).map fun m =>
      (m, { msg := m.id, psn := some psn, off := p.off, len := p.len })
  | none =>
    let window := if c.st = .opening then 1 else s.reg Dict.RMA_WINDOW
    if c.holdUntil.isSome ∨ window ≤ psnDist c.una c.nxt then none
    else (c.msgs.find? fun m => !m.stopped && (!m.again.isEmpty || decide (m.assigned < m.pieces))).map fun m =>
      match m.again with
      | (off, len, _) :: _ => (m, { msg := m.id, off := off, len := len })
      | [] => (m, { msg := m.id, off := m.assigned * pieceBytes m.opc, len := m.pieceLen m.assigned })

/-- A packet is a filler by now. -/
def prepFiller (c : ReqCtx) (r : Prep) : Bool :=
  match r.psn with
  | some psn => c.pkts.any fun p => p.psn = psn && p.filler
  | none => false

/-- One packet of a context starts on its way, if one may (R330). -/
def pumpOnce (s : State) (key : Nat) : State × Bool :=
  let c := s.reqCtx key
  if c.prep.isSome ∨ (c.st ≠ .opening ∧ c.st ≠ .open) ∨ !onDie s (reqCode key) then (s, false)
  else match nextPrep s key with
    | none => (s, false)
    | some (m, r) =>
      let filler := prepFiller c r
      if c.credit < pieceCharge s m (if filler then 0 else r.len) then (s, false)
      else
        let s1 := match r.psn with
          | some psn => s.updReq key fun c => { c with retx := c.retx.filter fun x => x ≠ psn }
          | none => s
        if filler then (sendPrep s1 key m r [], true)
        else match payloadAtHand m r.off r.len with
          | some d => (sendPrep s1 key m r d, true)
          | none =>
            let s2 := workPrep (s1.updReq key fun c => { c with prep := some r }) key
            (s2, (s2.reqCtx key).prep.isNone)

/-- A context sends what it may. -/
def pumpRun (s : State) (key : Nat) : Nat → State
  | 0 => s
  | fuel + 1 =>
    let r := pumpOnce s key
    if r.2 then pumpRun r.1 key fuel else r.1

/-- A context sends what it may, and the messages that are over complete. -/
def pump (s : State) (key : Nat) : State := noteIdle (sweepMsgs (pumpRun (needCtx s key) key 512) key) key

/-- The payload that a context's packet waited for has come (R307, R324). -/
def payloadReturn (s : State) (key : Nat) (data : List Byte) (bad : Bool) : State :=
  let c := s.reqCtx key
  match c.prep with
  | none => s
  | some r =>
    match c.msg r.msg with
    | none => pump (s.updReq key fun c => { c with prep := none }) key
    | some m => pump (if bad then prepLost s key m r 0x2B 0 true else sendPrep s key m r data) key

/-- A message enters the context of its key and starts as soon as it may. -/
def submit (s : State) (key : Nat) (m : Msg) : State :=
  let id := s.rmaId
  pump (s.rmaNext.updReq key fun c => { c with msgs := c.msgs ++ [{ m with id := id }] }) key

/-! ### Acknowledgement (R320) -/

/-- Packets that are over leave a context: acknowledged, with every response in. -/
def dropDone (s : State) (key : Nat) : State :=
  s.updReq key fun c => { c with pkts := c.pkts.filter fun p => !(p.got && p.missing.isEmpty && !p.needResp) }

/-- The bytes that a packet moved once it is acknowledged, which its response brings for a GET. -/
def countDone (s : State) (key : Nat) (p : ReqPkt) : State :=
  if p.filler then s
  else updMsg s key p.msg fun m => if m.opc = 2 ∨ (isAtomic m.opc && isFetch m.opc) ∨ m.opc = 4 then m else { m with done := m.done + p.len }

/-- A PSN is acknowledged (R320). -/
def ackPsn (s : State) (key psn : Nat) : State :=
  match (s.reqCtx key).pkts.find? fun p => p.psn = psn && !p.got with
  | none => s
  | some p =>
    let s1 := countDone (updPktOf s key psn fun p => { p with got := true }) key p
    s1.updReq key fun c =>
      { c with retx := c.retx.filter (fun x => x ≠ psn), st := if p.syn && c.st = .opening then .open else c.st }

/-- SND_UNA passes what is acknowledged; the timer starts afresh (R320, R321). -/
def advanceUna (s : State) (key una : Nat) : State :=
  let c := s.reqCtx key
  if una = c.una then s
  else
    let rto := s.reg Dict.RMA_RTO_INIT_ST
    s.updReq key fun c => { c with una := una, rto := rto, timer := some (s.time.count + rto) }

/-- The oldest PSN not acknowledged of a context. -/
def oldestOpen (c : ReqCtx) : Nat := ((c.pkts.find? fun p => !p.got).map (·.psn)).getD c.nxt

/-- Holes that RMA_DUPTHRESH later PSNs have passed are sent again early, once per timeout period (R322). -/
def earlyHoles (s : State) (key : Nat) : State :=
  let c := s.reqCtx key
  let later (psn : Nat) : Nat := (c.pkts.filter fun q => q.got && decide (0 < psnDist psn q.psn) && decide (psnDist psn q.psn < 2 ^ 23)).length
  let holes := c.pkts.filter fun p =>
    !p.got && !p.early && decide (s.reg Dict.RMA_DUPTHRESH ≤ later p.psn) && decide (p.sentAt + s.reg Dict.RMA_REORDER_ST ≤ s.time.count) &&
    !c.held.contains p.psn && !c.retx.contains p.psn
  forEach s holes fun s p =>
    ((updPktOf s key p.psn fun p => { p with early := true, resends := p.resends + 1 }).updReq key fun c =>
      { c with retx := c.retx ++ [p.psn] }).count 0x502 (epInst s (reqEp key))

/-- The cumulative fields of an ACK of KIND 0 apply (R320). -/
def ackFields (s : State) (key : Nat) (a : Ack) : State :=
  let c := s.reqCtx key
  if !a.cv then s
  else if psnDist c.una c.nxt < psnDist c.una a.cum then s.count 0x50D (epInst s (reqEp key))
  else
    let acked := (c.pkts.filter fun p => !p.got && (psnIn p.psn c.una a.cum ||
      (decide (psnDist a.cum p.psn ≤ 64) && decide (1 ≤ psnDist a.cum p.psn) && bitAt a.sack (psnDist a.cum p.psn - 1)))).map (·.psn)
    let s1 := forEach s acked fun s psn => ackPsn s key psn
    let s2 := (advanceUna s1 key a.cum).updReq key fun c =>
      { c with hint := a.hint, ackSum := c.ackSum + a.acked, ceSum := c.ceSum + a.ce }
    earlyHoles (if 0 < a.ce then s2.count 0x50A (epInst s (reqEp key)) else s2) key

/-- The state after something of a context was acknowledged: what is over leaves, and it sends on. -/
def afterAck (s : State) (key : Nat) : State :=
  pump (dropDone s key) key

/-! ### Retry-later and errors (R314, R329) -/

/-- ACK TYPE 1: the packet fails with its status, or for a full bucket the context does (R314, R324). -/
def ackError (s : State) (key : Nat) (a : Ack) : State :=
  let c := s.reqCtx key
  if a.estatus = 0x29 then ctxFails s key 0x29
  else match c.pkts.find? fun p => p.psn = a.epsn with
  | none => s
  | some p =>
    let s1 := msgFails s key p.msg p.psn a.estatus a.ereason
    let s2 := s1.updReq key fun c =>
      { c with pkts := c.pkts.map (fun q => if q.psn = a.epsn then { q with got := true, missing := [], needResp := false } else q)
               retx := c.retx.filter (fun x => x ≠ a.epsn), st := if p.syn && c.st = .opening then .open else c.st }
    if a.cv then s2 else advanceUna s2 key (oldestOpen (s2.reqCtx key))

/-- ACK TYPE 2: the packet and every new one are held for BACKOFF; after RMA_RLATER_LIMIT of them the entry fails (R329). -/
def ackLater (s : State) (key : Nat) (a : Ack) : State :=
  let c := s.reqCtx key
  match c.pkts.find? fun p => p.psn = a.epsn && !p.got with
  | none => s
  | some p =>
    let s1 := (updPktOf s key p.psn fun p => { p with rlater := p.rlater + 1 }).count 0x508 (epInst s (reqEp key))
    let s2 :=
      if s.reg Dict.RMA_RLATER_LIMIT ≤ p.rlater + 1 then
        updPktOf (msgFails s1 key p.msg p.psn 0x25 0) key p.psn fun p => { p with filler := true, missing := [], needResp := false }
      else s1
    s2.updReq key fun c =>
      { c with held := c.held.filter (fun x => x ≠ p.psn) ++ [p.psn], retx := c.retx.filter (fun x => x ≠ p.psn)
               holdUntil := some (max (c.holdUntil.getD 0) (s.time.count + a.backoff)) }

/-- BACKOFF has passed: the held packets are sent again (R329). -/
def backoffEnds (s : State) (key : Nat) : State :=
  let c := s.reqCtx key
  match c.holdUntil with
  | some t =>
    if t ≤ s.time.count then
      pump (s.updReq key fun c => { c with held := [], holdUntil := none, retx := c.held.filter (fun x => !c.retx.contains x) ++ c.retx }) key
    else s
  | none => s

/-! ### The timer (R321) -/

/-- The missing responses of a GET as ranges: offset and length within its packet's range. -/
def missingRanges (p : ReqPkt) : List (Nat × Nat) :=
  p.missing.map fun i => (4096 * i, min 4096 (p.len - 4096 * i))

/-- An acknowledged GET of which responses are missing asks for them again as new GETs (R321). -/
def reaskGet (s : State) (key : Nat) (p : ReqPkt) : State :=
  let s1 := updMsg s key p.msg fun m =>
    { m with again := m.again ++ (missingRanges p).map fun r => (p.off + r.1, r.2, p.resends + 1) }
  updPktOf s1 key p.psn fun p => { p with missing := [] }

/-- The timer expires: what is not acknowledged is sent again, and with it a fetch atomic that lacks its response (R318, R321). -/
def rtoExpires (s : State) (key : Nat) : State :=
  let c := s.reqCtx key
  let limit := s.reg Dict.RMA_RETRY_LIMIT
  let open' := c.pkts.filter fun p => (!p.got || p.needResp) && !c.held.contains p.psn
  let lacking := c.pkts.filter fun p => p.got && !p.missing.isEmpty
  if (open' ++ lacking).any fun p => limit ≤ p.resends then
    let func := ((c.msgs.head?).map (·.func)).getD 0
    ctxFails (((s.raise 0x0A01 3 func).event Dict.RMA_EVENTS 0 0)) key 0x22
  else
    let psns := open'.map (·.psn)
    let s1 := s.updReq key fun c =>
      let pkts := c.pkts.map fun p => if psns.contains p.psn then { p with resends := p.resends + 1, early := false } else { p with early := false }
      let rto := min (2 * c.rto) (s.reg Dict.RMA_RTO_MAX_ST)
      { c with pkts := pkts, retx := psns, rto := rto, timer := some (s.time.count + rto) }
    let s2 := forEach s1 lacking fun s p => reaskGet s key p
    pump (dropDone (if psns.isEmpty then s2 else s2.count 0x501 (epInst s (reqEp key)) psns.length) key) key

/-! ### Rate control (R330) -/

/-- A rate period ends (R330). -/
def ratePeriod (s : State) (key : Nat) : State :=
  let max' := s.reg Dict.RMA_RATE_MAX
  let c := s.reqCtx key
  let cut := 0 < c.ceSum
  let a := max 1 c.ackSum
  let rate :=
    if s.reg Dict.RMA_CC_ENABLE = 0 then max'
    else if cut then max (s.reg Dict.RMA_RATE_MIN) (c.rate * (2 * a - c.ceSum) / (2 * a))
    else min max' (c.rate + s.reg Dict.RMA_RATE_AI)
  let s1 := s.updReq key fun c => { c with rate := rate, ceSum := 0, ackSum := 0, periodAt := s.time.count }
  if cut ∧ s.reg Dict.RMA_CC_ENABLE ≠ 0 then s1.count 0x50B (epInst s (reqEp key)) else s1

/-- The allowance of a context grows by R at each boundary and never banks more than one packet (R330). -/
def rateBoundary (s : State) (key : Nat) : State :=
  s.updReq key fun c => { c with credit := min c.credit (4032 + 36 + 32 + s.reg Dict.SW_DRR_OVERHEAD) + c.rate }

/-! ### Responses (R320) -/

/-- A KIND 1 ACK tells the target which responses have come (R316, R320). -/
def sendRespAck (s : State) (key : Nat) : State :=
  let c := s.reqCtx key
  let lacks (p : ReqPkt) : Bool := !p.missing.isEmpty || p.needResp
  let cum := ((c.pkts.find? lacks).map (·.psn)).getD c.nxt
  let sack := sumOf (List.range 64) fun i =>
    let psn := psnAdd cum (i + 1)
    if psnIn psn cum c.nxt ∧ !(c.pkts.any fun p => p.psn = psn && lacks p) then 2 ^ i else 0
  let a : Ack := { kind := 1, inc := c.inc, cv := true, cum := cum, sack := sack, acked := min 255 c.respN, hint := c.hint }
  sendAck (s.updReq key fun c => { c with respN := 0, respAt := none }) (reqEp key) (reqNode key) 0 a

/-- A response has been taken: it acknowledges its request, and KIND 1 ACKs follow the coalescing rules (R319, R320). -/
def responseTaken (s : State) (key psn : Nat) (ce : Bool) : State :=
  let s1 := ackPsn s key psn
  let s2 := advanceUna s1 key (oldestOpen (s1.reqCtx key))
  let s3 := s2.updReq key fun c =>
    { c with respN := c.respN + 1, respAt := some (c.respAt.getD s.time.count)
             ackSum := c.ackSum + b2n ce, ceSum := c.ceSum + b2n ce }
  let s4 := if s.reg Dict.RMA_ACK_COALESCE ≤ (s3.reqCtx key).respN then sendRespAck s3 key else s3
  afterAck s4 key

end Sys2Proof.Machine
end

