-- ==== Sys2Proof/Machine/Match.lean ====
section
/-!
DEFINITION. Message matching: what matches what (R361, R362), the pipes' operations (R370 to R373), spill (R374, R375), delivery
(R376 to R380), the commands (R381, R382) and loss (R383).
-/
namespace Sys2Proof.Machine

/-- The state with the matching units changed. -/
def State.updMtch (s : State) (f : MatchUnit → MatchUnit) : State := { s with mtch := f s.mtch }

/-- The matching of an endpoint. -/
def State.mep (s : State) (ep : Nat) : MatchEp := tget {} s.mtch.eps ep

/-- The state with the matching of an endpoint changed. -/
def State.updMep (s : State) (ep : Nat) (f : MatchEp → MatchEp) : State :=
  s.updMtch fun u => { u with eps := tupd {} u.eps ep f }

/-! ### The endpoint's row (R367) -/

/-- The row of MATCH_EP of an endpoint, and its fields. -/
def matchRow (s : State) (ep : Nat) : Nat := s.reg Dict.MATCH_EP ep
def rowBase (row : Nat) : Nat := fld row 254 236
def rowSize (row : Nat) : Nat := fld row 235 217
def rowBlog (row : Nat) : Nat := fld row 216 213
def rowSlotBytes (row : Nat) : Nat := 2 ^ fld row 212 209
def rowSlots (row : Nat) : Nat := fld row 208 189
def rowPool (row : Nat) : Nat := fld row 188 137 * 4096
def rowAnyTag (row : Nat) : Nat := fld row 127 64

/-- An endpoint matches: its row is VALID (R364, R381). -/
def matchValid (s : State) (ep : Nat) : Bool := decide (ep < 65535) && bitAt (matchRow s ep) 255

/-- The entries that the buckets of a partition take (R368). -/
def bucketEntries (row : Nat) : Nat := 9 * 2 ^ (rowBlog row - 3)

/-! ### Patterns and keys (R361, R362, R368) -/

/-- The complement of 64 bits. -/
def not64 (n : Nat) : Nat := 2 ^ 64 - 1 - n % 2 ^ 64

/-- The pattern of a receive (R362). -/
def patternOf (anysrc : Bool) (ignore anytag : Nat) : Nat :=
  if ignore = 0 then b2n anysrc else if ignore = anytag then 2 + b2n anysrc else 4

/-- A posted receive matches a header (R361). -/
def matches' (p h : MEnt) : Bool :=
  p.comm = h.comm && (p.anysrc || p.rank = h.rank) && (p.mbits ^^^ h.mbits) &&& not64 p.ignore = 0

/-- The bytes of the hash key of a pattern, 4 standing for the key of COMM alone (R362, R368). -/
def keyBytes (pat anytag comm rank mbits : Nat) : List Byte :=
  bytesBE comm 2 ++ (if pat = 0 ∨ pat = 2 then bytesBE rank 4 else []) ++
  (if pat = 4 then [] else bytesBE (if 2 ≤ pat then mbits &&& not64 anytag else mbits) 8)

/-- The bucket of an entry in the structure of a pattern (R368). -/
def bucketOf (row pat : Nat) (e : MEnt) : Nat := crc32c (keyBytes pat (rowAnyTag row) e.comm e.rank e.mbits) % 2 ^ rowBlog row

/-- The first place of a list that satisfies a test. -/
def indexWhere {α : Type} (l : List α) (f : α → Bool) : Option Nat := (List.range l.length).find? fun i => (l[i]?).any f

/-! ### The table's entries -/

/-- The entries of a partition in use. -/
def usedEntries (m : MatchEp) : List Nat := (m.posted ++ m.unexp ++ m.claimed).map (·.idx)

/-- The entries of a partition that hold receives or headers at all. -/
def entryRoom (row : Nat) : Nat := rowSize row - bucketEntries row

/-- The free entries of a partition. -/
def freeEntries (row : Nat) (m : MatchEp) : Nat := entryRoom row - (usedEntries m).length

/-- A free entry of a partition: which of them is taken the spec leaves open. -/
def takeEntry (s : State) (ep : Nat) : State × Option Nat :=
  let row := matchRow s ep
  let used := usedEntries (s.mep ep)
  let free := ((List.range (entryRoom row)).map fun i => rowBase row + bucketEntries row + i).filter fun i => !used.contains i
  if free.isEmpty then (s, none) else (s.took, free[s.free % free.length]?)

/-! ### Spill (R374, R375) -/

/-- The entries that the overflow area holds in all, 64 bytes each (R260, R374). -/
def overflowRoom (s : State) : Nat := s.host.storeAreas.getD 5 0 / 64

/-- The entries spilled by every endpoint. -/
def spilledAll (s : State) : Nat := sumOf s.mtch.eps fun c => c.2.postedSpill.length + c.2.unexpSpill.length

/-- The overflow area is full (R375). -/
def overflowFull (s : State) : Bool := decide (overflowRoom s ≤ spilledAll s)

/-- The overflow area being full is signalled (R375). -/
def noteOverflow (s : State) : State := (s.raise 0x0C02).event Dict.MATCH_EVENTS 0 1

/-- A side is in spill mode: 0 posted, 1 unexpected. -/
def spillsSide (m : MatchEp) (side : Nat) : Bool := bitAt m.spilling side

/-- A side enters spill mode (R374, R387). -/
def enterSpill (s : State) (ep side : Nat) : State :=
  if spillsSide (s.mep ep) side then s
  else (s.updMep ep fun m => { m with spilling := m.spilling + 2 ^ side }).event Dict.MATCH_EVENTS 0 0

/-- A spill is counted, and the first of a side in a frame logged (R374). -/
def noteSpill (s : State) (ep side : Nat) : State :=
  let fr := s.time.count / 1024 + 1
  let s1 := s.count 0x606 ep
  if (s.mep ep).spillLog.getD side 0 = fr then s1
  else (s1.updMep ep fun m => { m with spillLog := m.spillLog.set side fr }).raise 0x0C01 5 ep

/-- A receive is posted at the tail, on die or spilled; the second component says that there was room (R373 to R375). -/
def insertPost (s : State) (ep : Nat) (p : MEnt) : State × Bool :=
  let m := s.mep ep
  let full := freeEntries (matchRow s ep) m = 0 || (p.pat = 4 && decide (4096 ≤ (m.posted.filter fun x => x.pat = 4).length))
  if spillsSide m 0 ∨ full then
    if overflowFull s then (noteOverflow s, false)
    else (noteSpill ((enterSpill s ep 0).updMep ep fun m => { m with postedSpill := m.postedSpill ++ [p] }) ep 0, true)
  else
    let r := takeEntry s ep
    ((r.1.updMep ep fun m => { m with posted := m.posted ++ [{ p with idx := r.2.getD 0 }] }).count 0x603 ep, true)

/-- An unexpected header is stored at the tail, on die or spilled (R372, R374). -/
def insertUnexp (s : State) (ep : Nat) (h : MEnt) : State :=
  let m := s.mep ep
  if spillsSide m 1 ∨ freeEntries (matchRow s ep) m = 0 then
    noteSpill ((enterSpill s ep 1).updMep ep fun m => { m with unexpSpill := m.unexpSpill ++ [h] }) ep 1
  else
    let r := takeEntry s ep
    r.1.updMep ep fun m => { m with unexp := m.unexp ++ [{ h with idx := r.2.getD 0 }] }

/-- An unexpected header can be stored (R375). -/
def unexpRoom (s : State) (ep : Nat) : Bool :=
  let m := s.mep ep
  !(spillsSide m 1 || freeEntries (matchRow s ep) m = 0) || !overflowFull s

/-- One spilled entry of a side goes back on die (R374). -/
def refillOne (s : State) (ep side : Nat) : State :=
  let m := s.mep ep
  let r := takeEntry s ep
  match r.2, (if side = 0 then m.postedSpill else m.unexpSpill) with
  | some i, e :: rest =>
    (r.1.updMep ep fun m =>
      if side = 0 then { m with posted := m.posted ++ [{ e with idx := i }], postedSpill := rest }
      else { m with unexp := m.unexp ++ [{ e with idx := i }], unexpSpill := rest }).count 0x607 ep
  | _, _ => s

/-- The side whose oldest spilled entry goes back next, if one may: a masked receive waits while 4,096 are on die (R362, R374). -/
def refillSide (m : MatchEp) : Option Nat :=
  let maskedFull := decide (4096 ≤ (m.posted.filter fun x => x.pat = 4).length)
  if (m.postedSpill.head?).any fun e => e.pat ≠ 4 || !maskedFull then some 0
  else if !m.unexpSpill.isEmpty then some 1 else none

/-- Spilled entries of an endpoint go back on die, up to 16 in a stitch, while 64 entries are free and no search reads its lists; a side whose
list is empty leaves spill mode (R374). -/
def refillRun (s : State) (ep : Nat) : Nat → State
  | 0 => s
  | n + 1 =>
    let m := s.mep ep
    match refillSide m with
    | some side => if 64 ≤ freeEntries (matchRow s ep) m then refillRun (refillOne s ep side) ep n else s
    | none => s

/-- The refill of an endpoint at a boundary. -/
def refillEp (s : State) (ep : Nat) : State :=
  let m := s.mep ep
  if m.spilling = 0 ∨ m.search.isSome then s
  else
    (refillRun s ep 16).updMep ep fun m =>
      { m with spilling := (if m.postedSpill.isEmpty then 0 else m.spilling &&& 1) + (if m.unexpSpill.isEmpty then 0 else m.spilling &&& 2) }

/-! ### What a lookup compares (R371, R387) -/

/-- The entries compared in a chain: those up to the match, or all. -/
def comparedIn (chain : List MEnt) (ok : MEnt → Bool) : Nat :=
  match indexWhere chain ok with
  | some i => i + 1
  | none => chain.length

/-- The chain of a header's key in the posted structure of a pattern. -/
def postedChain (row pat : Nat) (m : MatchEp) (h : MEnt) : List MEnt :=
  m.posted.filter fun p => p.pat = pat && bucketOf row pat p = bucketOf row pat h

/-- The oldest posted receive on die that matches a header (R372). -/
def matchPosted (m : MatchEp) (h : MEnt) : Option MEnt := m.posted.find? fun p => matches' p h

/-- The oldest unexpected header on die that matches a receive (R373). -/
def matchUnexp (m : MatchEp) (p : MEnt) : Option MEnt := m.unexp.find? fun h => matches' p h

/-- The compares of an arrival are counted (R372). -/
def countArrival (s : State) (ep : Nat) (h : MEnt) : State :=
  let row := matchRow s ep
  let m := s.mep ep
  let beyond := sumOf (List.range 4) fun pat => comparedIn (postedChain row pat m h) (fun p => matches' p h) - 1
  let best := m.posted.find? fun p => p.pat ≠ 4 && matches' p h
  let masked := (m.posted.filter fun p => p.pat = 4).takeWhile fun p => best.all fun b => serialGt 32 b.seq p.seq
  let s1 := if beyond = 0 then s else s.count 0x604 ep beyond
  let n := comparedIn masked fun p => matches' p h
  if n = 0 then s1 else s1.count 0x605 ep n

/-- The compares of a receive or a probe are counted (R373). -/
def countReceive (s : State) (ep : Nat) (p : MEnt) : State :=
  let row := matchRow s ep
  let chain := (s.mep ep).unexp.filter fun h => bucketOf row p.pat h = bucketOf row p.pat p
  let n := comparedIn chain (fun h => matches' p h) - 1
  if n = 0 then s else s.count 0x604 ep n

/-! ### Arrival completions (R379) -/

/-- The unit of an arrival completion (R379). -/
def recvUnit (s : State) (r : Recv) (status : Nat) : Nat :=
  let path := match r.path with
    | .direct => 0 | .pool => 1 | .rndv => 2 | .nothing => 3
  completionUnit 1 status r.opc (s.queue r.post.queue).local' 0 0 r.post.user r.wrote 0 +
  put r.msg.sfna 127 110 + put r.msg.sep 109 94 + put path 93 92 +
  put r.msg.mbits 319 256 + put r.msg.rank 383 352 + put r.msg.comm 351 336 + put r.msg.len 447 415 + put r.reason 391 384 +
  put r.post.seq 511 480

/-- A unit owed to an arrival is written once the writes of these tags have been observed (R250). -/
def arrivalAfter (s : State) (ring unit : Nat) (tags : List Nat) : State :=
  let left := tags.filter fun t => s.host.writes.any fun w => w.tag = t
  if left.isEmpty then writeOwed s ring unit else waitFor s left (.arrival ring unit)

/-- A receive completes (R376, R378 to R380). -/
def recvDone (s : State) (r : Recv) : State :=
  let status := if r.status ≠ 0 then r.status else if r.path ≠ .nothing ∧ r.post.len < r.msg.len then 0x60 else 0
  let s1 := s.updMtch fun u => { u with recvs := u.recvs.filter fun x => x.id ≠ r.id }
  arrivalAfter s1 r.ring (recvUnit s1 r status) r.tags

/-- A receive that has its message takes its place, owing its unit to its ring. -/
def addRecv (s : State) (r : Recv) : State :=
  (oweUnit s r.ring).updMtch fun u => { u with recvs := u.recvs ++ [r] }

/-- The state with a receive changed. -/
def updRecv (s : State) (id : Nat) (f : Recv → Recv) : State :=
  s.updMtch fun u => { u with recvs := u.recvs.map fun r => if r.id = id then f r else r }

/-- The receives whose messages are over complete; those of a rendezvous when their command says so (R378, R379). -/
def sweepRecvs (s : State) : State :=
  forEach s (s.mtch.recvs.filter fun r => r.ended && r.path ≠ .rndv) recvDone

/-! ### Writing a receive buffer (R376, R380) -/

/-- What a write to a receive buffer came to: it waits, or it was made as far as its pages allow. -/
inductive BufWrite where
  | wait | made (tags : List Nat) (wrote status reason : Nat)
deriving DecidableEq, Repr

/-- The pages of a buffer's bytes, as parts. -/
def pageParts (addr len : Nat) : List Piece :=
  (pagesOf addr len).map fun p => { addr := max addr p, len := min (addr + len) (p + 4096) - max addr p }

/-- The accesses to the pages of a buffer, all of them looked at. -/
def accessParts (s : State) (who : List Nat) (key pd : Nat) : List Piece → State × List KeyAccess
  | [] => (s, [])
  | x :: rest =>
    let r := access s (who ++ [rest.length]) key pd x.addr x.len .write
    let r2 := accessParts r.1 who key pd rest
    (r2.1, r.2 :: r2.2)

/-- The parts that may be written are written; the others leave their status (R380). -/
def writeParts (s : State) : List KeyAccess → List Piece → List Byte → State × BufWrite
  | a :: as, x :: xs, data =>
    let here : State × BufWrite := match a with
      | .ok func seg chk pieces =>
        let w := writePieces s func (some seg) chk pieces (data.take x.len)
        (w.1, .made w.2 x.len 0 0)
      | .refused status reason => (s, .made [] 0 (if status = 0 then 0x43 else status) reason)
      | .wait => (s, .wait)
    let r := writeParts here.1 as xs (data.drop x.len)
    (r.1, match here.2, r.2 with
      | .made t n st re, .made t2 n2 st2 re2 => .made (t ++ t2) (n + n2) (if st ≠ 0 then st else st2) (if st ≠ 0 then re else re2)
      | _, other => other)
  | _, _, _ => (s, .made [] 0 0 0)

/-- Data is written to a receive buffer, page by page; nothing is written while a page is awaited (R345, R380). -/
def writeBuffer (s : State) (who : List Nat) (key pd addr : Nat) (data : List Byte) : State × BufWrite :=
  let parts := pageParts addr data.length
  let a := accessParts s who key pd parts
  if a.2.any fun x => x = .wait then (a.1, .wait) else writeParts a.1 a.2 parts data

/-- A piece of a message goes to a receive's buffer, as far as the buffer reaches; the third component are its writes' tags, or none while it waits
(R376). -/
def recvPiece (s : State) (r : Recv) (off : Nat) (data : List Byte) : State × Option (List Nat) :=
  let d := data.take (r.post.len - off)
  if d.isEmpty then (s, some [])
  else
    let w := writeBuffer s [2, r.id, off] r.post.key r.pd (r.post.addr + off) d
    match w.2 with
    | .wait => (w.1, none)
    | .made tags n status reason =>
      (updRecv w.1 r.id fun x =>
        { x with wrote := x.wrote + n, tags := x.tags ++ tags
                 status := if x.status ≠ 0 then x.status else status, reason := if x.status ≠ 0 then x.reason else reason }, some tags)

/-! ### Rendezvous (R378) -/

/-- The GETs of a rendezvous are issued (R378). -/
def startRndv (s : State) (r : Recv) (group : Nat) : State :=
  let len := min r.msg.len r.post.len
  let m : Msg :=
    { owner := .recv r.id, opc := 2, dep := r.msg.sep, pd := r.pd, func := r.func, group := group, len := len, raddr := r.msg.addr
      rkey := r.msg.key, bufs := [{ addr := r.post.addr, len := len, key := r.post.key }] }
  submit (s.count 0x60A r.ep m.pieces) (reqKey r.ep r.msg.sfna) m

/-- A release goes to the sender (R366, R378). -/
def sendRelease (s : State) (r : Recv) (group : Nat) : State :=
  let m : Msg := { owner := .release, opc := 1, dep := r.msg.sep, func := r.func, group := group, rkey := r.msg.key, raddr := r.msg.addr }
  submit (s.count 0x60B r.ep) (reqKey r.ep r.msg.sfna) m

/-- The injection group of a receive: that of its posting queue. -/
def recvGroup (s : State) (r : Recv) : Nat := (s.queue r.post.queue).igroup

/-- RNDV_GETS_DONE: the GETs of an endpoint's oldest finished rendezvous are over: its arrival completion, then its release (R378). -/
def execRndvGetsDone (ep : Nat) (s : State) : Host.Outcome State Fault Refusal :=
  match s.mtch.recvs.find? fun r => r.ep = ep && r.path = .rndv && r.ended with
  | some r => .next (sendRelease (recvDone s r) r (recvGroup s r))
  | none => .next s

/-! ### Pool slots (R377) -/

/-- The address of a pool slot. -/
def slotAddr (row slot : Nat) : Nat := rowPool row + slot * rowSlotBytes row

/-- A free pool slot: which the spec leaves open (R377). -/
def takeSlot (s : State) (ep : Nat) : State × Option Nat :=
  let free := (List.range (rowSlots (matchRow s ep))).filter fun i => !(s.mep ep).slots.contains i
  if free.isEmpty then (s, none)
  else
    let i := free.getD (s.free % free.length) 0
    (s.took.updMep ep fun m => { m with slots := i :: m.slots }, some i)

/-- A pool slot is free again (R377). -/
def freeSlot (s : State) (ep slot : Nat) : State :=
  s.updMep ep fun m => { m with slots := m.slots.filter fun x => x ≠ slot }

/-- An unexpected entry of an endpoint, by its arrival sequence number, becomes DONE wherever it stands (R369, R377). -/
def markDone (s : State) (ep seq : Nat) : State :=
  let f (e : MEnt) : MEnt := if e.seq = seq then { e with done := true } else e
  (s.updMep ep fun m =>
    { m with unexp := m.unexp.map f, unexpSpill := m.unexpSpill.map f, claimed := m.claimed.map f }).updMtch fun u =>
      { u with recvs := u.recvs.map fun r => if r.ep = ep ∧ r.path = .pool ∧ r.msg.seq = seq then { r with msg := { r.msg with done := true } } else r }

/-- The bytes of an unexpected message that its receive takes. -/
def Recv.take (r : Recv) : Nat := min r.msg.len r.post.len

/-- The copy of a slot is over: the receive completes, and its slot is freed once the copy has been observed (R377). -/
def poolOver (s : State) (r : Recv) : State :=
  let tags := ((s.mtch.recvs.find? fun x => x.id = r.id).map (·.tags)).getD []
  let left := tags.filter fun t => s.host.writes.any fun w => w.tag = t
  let s1 := match r.msg.slot with
    | some slot => if left.isEmpty then freeSlot s r.ep slot else waitFor s left (.slotFree r.ep slot)
    | none => s
  sweepRecvs (updRecv s1 r.id fun r => { r with ended := true })

/-- The bytes read from a slot are written to the buffer, when its pages are at hand (R377, R380). -/
def poolWrite (s : State) (r : Recv) (data : List Byte) : State :=
  let p := recvPiece s r 0 data
  match p.2 with
  | none => updRecv p.1 r.id fun r => { r with data := some data }
  | some _ => poolOver (updRecv p.1 r.id fun r => { r with data := none }) r

/-- The bytes of a slot have come; a poisoned read fails the receive (R377). -/
def poolReturn (s : State) (id : Nat) (data : List Byte) (bad : Bool) : State :=
  match s.mtch.recvs.find? fun r => r.id = id with
  | none => s
  | some r => if bad then poolOver (updRecv s id fun r => { r with status := 0x2B }) r else poolWrite s r data

/-- POOL_COPY: the oldest receive of an endpoint whose unexpected message is DONE has its bytes copied from the slot (R377). -/
def execPoolCopy (ep : Nat) (s : State) : Host.Outcome State Fault Refusal :=
  match s.mtch.recvs.find? fun r => r.ep = ep && r.path = .pool && r.msg.done && !r.reading && !r.ended with
  | none => .next s
  | some r =>
    let s1 := (updRecv s r.id fun r => { r with reading := true }).count 0x609 ep
    if r.take = 0 then .next (poolOver s1 r)
    else match r.msg.slot with
      | none => .next (poolOver s1 r)
      | some slot =>
        let a := hostRead s1 r.func (slotAddr (matchRow s ep) slot) r.take (.poolCopy r.id)
        .next (if a.2 then a.1 else poolOver (updRecv a.1 r.id fun r => { r with status := 0x43 }) r)

/-! ### A receive meets its message -/

/-- A receive takes an unexpected or claimed header (R377, R378). -/
def recvTakes (s : State) (ep ring opc : Nat) (p h : MEnt) : State :=
  let q := s.queue p.queue
  let path : RecvPath := if h.rndv then .rndv else .pool
  let r : Recv := { id := s.rmaId, ep := ep, func := q.func, pd := q.pd, ring := ring, opc := opc, path := path, post := p, msg := h }
  let s1 := addRecv s.rmaNext r
  if h.rndv then startRndv s1 r (recvGroup s r) else s1

/-! ### Commands of an endpoint (R381) -/

/-- The endpoint of an entry's queue. -/
def entryEp (s : State) (e : Entry) : Nat := (s.queue e.queue).ep

/-- The receive that an entry describes; a probe's has no buffer (R381). -/
def postOf (s : State) (e : Entry) : MEnt :=
  let anytag := rowAnyTag (matchRow s (entryEp s e))
  { pat := patternOf (bitAt e.w6 0) e.w7 anytag, anysrc := bitAt e.w6 0, comm := fld e.w6 63 48, rank := fld e.w6 47 16, mbits := e.w5
    ignore := e.w7, key := e.lkey, queue := e.queue, addr := e.laddr, len := e.len, user := e.user }

/-- CREF: where a receive stands (R381). -/
def crefOf (row : Nat) (p : MEnt) : Nat := put p.pat 31 28 + (if p.pat = 4 then 0 else put (bucketOf row p.pat p) 13 0)

/-- RESULT of a RECV_POST: SEQ and CREF (R381). -/
def postResult (row : Nat) (p : MEnt) : Nat := put p.seq 31 0 + put (crefOf row p) 63 32

/-- RESULT of a successful probe (R381). -/
def probeResult (h : MEnt) (handle : Nat) : Nat :=
  put h.mbits 63 0 + put h.rank 95 64 + put h.comm 111 96 + put h.sep 127 112 + put h.len 191 128 + put h.sfna 209 192 + put handle 242 224

/-- The entry holds its endpoint's place in the pipe (R377). -/
def holdPipe (s : State) (ep id : Nat) : State := s.updMep ep fun m => { m with holder := some id }

/-- The pipe's place is free again, and the search that was made in it is forgotten. -/
def leavePipe (s : State) (ep : Nat) : State := s.updMep ep fun m => { m with holder := none, search := none, found := none }

/-- Another operation holds the endpoint's place in its pipe (R370, R377). -/
def pipeBusy (m : MatchEp) (id : Nat) : Bool :=
  m.holder.any (fun x => x ≠ id) || m.search.any fun x => x.op ≠ .command id

/-- The posted receives of an endpoint would span 2^31 sequence numbers or more (R370). -/
def seqSpan (m : MatchEp) : Bool :=
  match (m.posted ++ m.postedSpill).head? with
  | some p => decide (2 ^ 31 ≤ modSub (2 ^ 32) m.postSeq p.seq)
  | none => false

/-- Where a command finds the header it looks for. -/
inductive Found where
  /-- The spill list is still to be read. -/
  | wait
  | nothing
  | onDie (h : MEnt)
  | spilled (i : Nat) (h : MEnt)
deriving DecidableEq, Repr

/-- The unexpected header that a receive or a probe takes: on die, or found by a search of the spill list (R373, R375). -/
def findUnexp (s : State) (ep id : Nat) (p : MEnt) : State × Found :=
  let m := s.mep ep
  match m.found with
  | some none => (s, .nothing)
  | some (some i) => (s, match m.unexpSpill[i]? with
    | some h => .spilled i h
    | none => .nothing)
  | none =>
    match matchUnexp m p with
    | some h => (countReceive s ep p, .onDie h)
    | none =>
      if m.unexpSpill.isEmpty then (countReceive s ep p, .nothing)
      else if m.search.isSome then (s, .wait)
      else ((countReceive s ep p).updMep ep fun m => { m with search := some { op := .command id } }, .wait)

/-- The unexpected header that was found leaves its list. -/
def unlinkUnexp (s : State) (ep : Nat) (f : Found) : State :=
  match f with
  | .onDie h => s.updMep ep fun m => { m with unexp := m.unexp.filter fun x => x.idx ≠ h.idx }
  | .spilled i _ => s.updMep ep fun m => { m with unexpSpill := m.unexpSpill.eraseIdx i }
  | _ => s

/-- A command of an endpoint that does not match, or whose matching has failed (R381, R383). -/
def epRefuses (s : State) (ep : Nat) : Nat := if !matchValid s ep then 0x67 else if (s.mep ep).failed then 0x6B else 0

/-- A receive is posted, or takes the header found for it (R373, R377). -/
def postNow (s : State) (e : Entry) (ep : Nat) (p : MEnt) (f : Found) : State × Bool :=
  match f with
  | .wait => (s, false)
  | .nothing =>
    let s1 := s.updMep ep fun m => { m with postSeq := (m.postSeq + 1) % 2 ^ 32 }
    let r := insertPost s1 ep p
    if r.2 then (finishEntry (leavePipe r.1 ep) e.id 0 0 (postResult (matchRow s ep) p), true)
    else (finishEntry (leavePipe r.1 ep) e.id 0x63, true)
  | .onDie h | .spilled _ h =>
    match arrivalRing s ep with
    | none => (holdPipe (noteNoRing s ep) ep e.id, false)
    | some ring =>
      let s1 := (unlinkUnexp s ep f).updMep ep fun m => { m with postSeq := (m.postSeq + 1) % 2 ^ 32 }
      let s2 := recvTakes (s1.count 0x602 ep) ep ring 0x40 p h
      (finishEntry (leavePipe s2 ep) e.id 0 0 (postResult (matchRow s ep) p), true)

/-- RECV_POST starts (R373, R381). -/
def recvPost (s : State) (e : Entry) : State × Bool :=
  let ep := entryEp s e
  let v := epRefuses s ep
  if v ≠ 0 then (finishEntry (leavePipe s ep) e.id v, true)
  else if e.inl ∨ e.nsge ≠ 0 then (finishEntry s e.id 0x2A, true)
  else
    let b := checkBufs s (s.queue e.queue).pd .write [{ addr := e.laddr, len := e.len, key := e.lkey }]
    match b.2 with
    | .wait => (b.1, false)
    | .refused status reason => (failEntry b.1 e.id status reason, true)
    | .ok =>
      if pipeBusy (b.1.mep ep) e.id then (b.1, false)
      else if seqSpan (b.1.mep ep) then (finishEntry b.1 e.id 0x6A, true)
      else
        let p := { postOf s e with seq := (b.1.mep ep).postSeq }
        let f := findUnexp b.1 ep e.id p
        postNow f.1 e ep p f.2

/-- A cancelled receive writes its arrival completion (R379, R382). -/
def cancelled (s : State) (ep ring : Nat) (p : MEnt) : State :=
  let r : Recv := { id := s.rmaId, ep := ep, ring := ring, path := .nothing, post := p, status := 0x66 }
  recvDone (addRecv s.rmaNext r) r

/-- RECV_CANCEL starts (R382). -/
def recvCancel (s : State) (e : Entry) : State × Bool :=
  let ep := entryEp s e
  let v := epRefuses s ep
  let m := s.mep ep
  if v ≠ 0 then (finishEntry s e.id v, true)
  else if pipeBusy m e.id then (s, false)
  else
    let seq := fld e.w5 31 0
    let row := matchRow s ep
    match m.posted.find? (fun p => p.seq = seq && crefOf row p = fld e.w6 31 0), m.postedSpill.find? fun p => p.seq = seq with
    | none, none => (finishEntry (leavePipe s ep) e.id 0x62, true)
    | some p, _ | none, some p =>
      match arrivalRing s ep with
      | none => (holdPipe (noteNoRing s ep) ep e.id, false)
      | some ring =>
        let s1 := (s.updMep ep fun m =>
          { m with posted := m.posted.filter (fun x => x.seq ≠ seq), postedSpill := m.postedSpill.filter fun x => x.seq ≠ seq }).count 0x60D ep
        (finishEntry (leavePipe (cancelled s1 ep ring p) ep) e.id 0, true)

/-- PROBE and MPROBE start; an MPROBE claims the header, on die (R381). -/
def probe (claim : Bool) (s : State) (e : Entry) : State × Bool :=
  let ep := entryEp s e
  let v := epRefuses s ep
  if v ≠ 0 then (finishEntry (leavePipe s ep) e.id v, true)
  else if pipeBusy (s.mep ep) e.id then (s, false)
  else
    let f := findUnexp s ep e.id (postOf s e)
    match f.2 with
    | .wait => (f.1, false)
    | .nothing => (finishEntry (leavePipe f.1 ep) e.id 0x62, true)
    | .onDie h =>
      if claim then
        let s1 := (unlinkUnexp f.1 ep f.2).updMep ep fun m => { m with claimed := m.claimed ++ [h] }
        (finishEntry (leavePipe s1 ep) e.id 0 0 (probeResult h h.idx), true)
      else (finishEntry (leavePipe f.1 ep) e.id 0 0 (probeResult h 0), true)
    | .spilled i h =>
      if claim then
        let r := takeEntry f.1 ep
        match r.2 with
        | none => (finishEntry (leavePipe f.1 ep) e.id 0x63, true)
        | some idx =>
          let s1 := (unlinkUnexp r.1 ep (.spilled i h)).updMep ep fun m => { m with claimed := m.claimed ++ [{ h with idx := idx }] }
          (finishEntry (leavePipe (s1.count 0x607 ep) ep) e.id 0 0 (probeResult h idx), true)
      else (finishEntry (leavePipe f.1 ep) e.id 0 0 (probeResult h 0), true)

/-- MRECV starts (R381). -/
def mrecv (s : State) (e : Entry) : State × Bool :=
  let ep := entryEp s e
  let v := epRefuses s ep
  if v ≠ 0 then (finishEntry (leavePipe s ep) e.id v, true)
  else if e.inl ∨ e.nsge ≠ 0 then (finishEntry s e.id 0x2A, true)
  else
    let b := checkBufs s (s.queue e.queue).pd .write [{ addr := e.laddr, len := e.len, key := e.lkey }]
    match b.2 with
    | .wait => (b.1, false)
    | .refused status reason => (failEntry b.1 e.id status reason, true)
    | .ok =>
      if pipeBusy (b.1.mep ep) e.id then (b.1, false)
      else match (b.1.mep ep).claimed.find? fun h => h.idx = fld e.w5 18 0 with
        | none => (finishEntry (leavePipe b.1 ep) e.id 0x69, true)
        | some h =>
          match arrivalRing b.1 ep with
          | none => (holdPipe (noteNoRing b.1 ep) ep e.id, false)
          | some ring =>
            let s1 := b.1.updMep ep fun m => { m with claimed := m.claimed.filter fun x => x.idx ≠ h.idx }
            (finishEntry (leavePipe (recvTakes s1 ep ring 0x44 { postOf s e with pat := 0 } h) ep) e.id 0, true)

/-- RECV_POST (R381). -/
def execRecvPost (queue : Nat) (s : State) : Host.Outcome State Fault Refusal := startEntry s queue 1 [0x40] recvPost

/-- RECV_CANCEL (R382). -/
def execRecvCancel (queue : Nat) (s : State) : Host.Outcome State Fault Refusal := startEntry s queue 1 [0x41] recvCancel

/-- PROBE (R381). -/
def execProbe (queue : Nat) (s : State) : Host.Outcome State Fault Refusal := startEntry s queue 1 [0x42] (probe false)

/-- MPROBE (R381). -/
def execMprobe (queue : Nat) (s : State) : Host.Outcome State Fault Refusal := startEntry s queue 1 [0x43] (probe true)

/-- MRECV (R381). -/
def execMrecv (queue : Nat) (s : State) : Host.Outcome State Fault Refusal := startEntry s queue 1 [0x44] mrecv

/-! ### Loss (R383) -/

/-- Matching state of an endpoint was found lost: it fails at the next boundary (R383). -/
def matchLost (s : State) (ep : Nat) : State := s.updMep ep fun m => { m with failDue := true, search := none, found := none }

/-- The receives of a failed endpoint complete with 0x6B, as its arrival ring takes them (R295, R383). -/
def failPosts (s : State) (ep : Nat) : Nat → State
  | 0 => s
  | n + 1 =>
    match (s.mep ep).posted ++ (s.mep ep).postedSpill, arrivalRing s ep with
    | p :: _, some ring =>
      let s1 := s.updMep ep fun m =>
        { m with posted := m.posted.filter (fun x => x.seq ≠ p.seq), postedSpill := m.postedSpill.filter fun x => x.seq ≠ p.seq }
      let r : Recv := { id := s.rmaId, ep := ep, ring := ring, path := .nothing, post := p, status := 0x6B }
      failPosts (recvDone (addRecv s1.rmaNext r) r) ep n
    | _, _ => s

/-- What matching does at a boundary for an endpoint (R374, R383). -/
def matchBoundaryEp (s : State) (ep : Nat) : State :=
  let s1 := if (s.mep ep).failDue ∧ !(s.mep ep).failed then
      (s.updMep ep fun m => { m with failed := true, failDue := false, unexp := [], unexpSpill := [], claimed := [] }).event Dict.MATCH_EVENTS 0 3
    else s
  if (s1.mep ep).failed then failPosts s1 ep ((s1.mep ep).posted.length + (s1.mep ep).postedSpill.length) else refillEp s1 ep

/-- What matching does at a boundary. -/
def matchBoundary (s : State) : State := forEach s (s.mtch.eps.map (·.1)) matchBoundaryEp

/-- RNDV_TIMEOUT: the oldest rendezvous send of an endpoint without a release for MATCH_RNDV_LIMIT_FR frames (R366). -/
def execRndvTimeout (ep : Nat) (s : State) : Host.Outcome State Fault Refusal :=
  match s.mtch.rndv.find? fun r => r.sep = ep && r.ackedAt.any fun t => decide (t + s.reg Dict.MATCH_RNDV_LIMIT_FR ≤ s.time.count / 1024) with
  | some r => .next (rndvUnknown s r.entry (((s.entry? r.entry).map (·.func)).getD 0))
  | none => .next s

/-- A release has come for the oldest record of its key (R366). -/
def releaseIn (s : State) (sep dfna key addr : Nat) : State :=
  match s.mtch.rndv.find? fun r => r.sep = sep && r.dfna = dfna && r.key = key && r.addr = addr && !r.released with
  | none => s
  | some r =>
    rndvSettle ((s.count 0x60C sep).updMtch fun u =>
      { u with rndv := u.rndv.map fun x => if x.entry = r.entry then { x with released := true } else x }) r.entry

end Sys2Proof.Machine
end

