-- ==== Sys2Proof/Machine/RmaRecv.lean ====
section
/-!
DEFINITION. The responder: contexts and their sequence (R315, R317, R318), acknowledgement (R316, R319), the operations on memory
(R309, R312, R323 to R325), the miss pool (R328), sends (R363, R364, R372, R376, R377), and what the requester does with responses (R320).
-/
namespace Sys2Proof.Machine

/-! ### Acknowledging (R316, R317, R319) -/

/-- The PSN lies before RCV_NXT. -/
def passedBy (rcvNxt psn : Nat) : Bool := decide (1 ≤ psnDist psn rcvNxt) && decide (psnDist psn rcvNxt < 2 ^ 23)

/-- A PSN has been received on a context (R313, R317). -/
def RespCtx.received (c : RespCtx) (psn : Nat) : Bool :=
  passedBy c.rcvNxt psn || (decide (1 ≤ psnDist c.rcvNxt psn) && decide (psnDist c.rcvNxt psn ≤ 64) && bitAt c.sack (psnDist c.rcvNxt psn - 1))

/-- A PSN's effect is not yet observed (R317). -/
def RespCtx.hides (c : RespCtx) (psn : Nat) : Bool := c.unseen.any fun u => u.psn = psn

/-- CUM of an ACK: RCV_NXT, held back to the oldest PSN whose writes the host has not observed (R316, R317). -/
def RespCtx.cum (c : RespCtx) : Nat :=
  c.unseen.foldl (fun best u => if passedBy c.rcvNxt u.psn ∧ psnDist best c.rcvNxt < psnDist u.psn c.rcvNxt then u.psn else best) c.rcvNxt

/-- SACK of an ACK (R316). -/
def RespCtx.sackBits (c : RespCtx) : Nat :=
  sumOf (List.range 64) fun i =>
    let psn := psnAdd c.cum (i + 1)
    if c.received psn ∧ !c.hides psn then 2 ^ i else 0

/-- A KIND 0 ACK goes to a context's requester (R316, R319). -/
def ackContext (s : State) (key : Nat) (a : Ack) : State :=
  let c := s.respCtx key
  let full : Ack :=
    { a with kind := 0, inc := c.inc, cv := true, cum := c.cum, sack := c.sackBits, acked := min 255 c.accepted, ce := min 255 c.ces, hint := c.hint }
  sendAck (s.updResp key fun c => { c with accepted := 0, ces := 0, ackAt := none }) c.dep (respNode key) (respEp key) full

/-- The bitmap and RCV_NXT after the PSN at RCV_NXT has come: every consecutive PSN received is passed (R317). -/
def advanceNxt (nxt sack : Nat) : Nat → Nat × Nat
  | 0 => (nxt, sack)
  | n + 1 => if sack % 2 = 1 then advanceNxt (psnAdd nxt 1) (sack / 2) n else (psnAdd nxt 1, sack / 2)

/-- A PSN is marked received (R317). -/
def RespCtx.take (c : RespCtx) (psn : Nat) : RespCtx :=
  let d := psnDist c.rcvNxt psn
  if d = 0 then
    let r := advanceNxt c.rcvNxt c.sack 65
    { c with rcvNxt := r.1, sack := r.2 }
  else { c with sack := c.sack ||| 2 ^ (d - 1) }

/-- The arrival completions of a context that are due: RCV_NXT has passed the LAST packet and every piece is visible (R325). -/
def arrivalsDue (s : State) (key : Nat) : State :=
  let c := s.respCtx key
  let due := c.arrivals.filter fun a =>
    passedBy c.rcvNxt a.psn && !(c.unseen.any fun u => decide (psnDist a.mpsn u.psn ≤ psnDist a.mpsn a.psn))
  forEach (s.updResp key fun c => { c with arrivals := c.arrivals.filter fun a => !due.contains a }) due fun s a => writeOwed s a.ring a.unit

/-- Eager sends whose LAST packet RCV_NXT has passed are complete: the receive, or the unexpected entry's DONE (R369, R376). -/
def inflowsDone (s : State) (key : Nat) : State :=
  let c := s.respCtx key
  let ended := s.mtch.inflows.filter fun f => f.key = key && f.inc = c.inc && f.lastPsn.any fun p => passedBy c.rcvNxt p
  let s1 := s.updMtch fun u => { u with inflows := u.inflows.filter fun f => !ended.contains f }
  sweepRecvs (forEach s1 ended fun s f =>
    match f.recv with
    | some id => updRecv s id fun r => { r with ended := true }
    | none => if f.refused.isSome then s else markDone s f.dep f.seq)

/-- A packet is accepted: its PSN is received, and its effect acknowledged once these writes have been observed (R317, R319). -/
def accept (s : State) (key : Nat) (p : Packet) (tags : List Nat) (busy : Bool) : State :=
  let s1 := s.updResp key fun c =>
    let c1 := c.take p.psn
    { c1 with
      accepted := c1.accepted + 1, ces := c1.ces + b2n p.ce, ackAt := some (c1.ackAt.getD s.time.count), dep := p.dep
      unseen := if tags.isEmpty && !busy then c1.unseen else c1.unseen ++ [{ psn := p.psn, tags := tags, busy := busy }]
      ordHeld := if c1.ordHeld = some p.psn then none else c1.ordHeld }
  let s2 := if s.reg Dict.RMA_ACK_COALESCE ≤ (s1.respCtx key).accepted then ackContext s1 key {} else s1
  inflowsDone (arrivalsDue s2 key) key

/-- The host has observed a write: PSNs that waited for nothing else become visible (R317, R325). -/
def respObserved (s : State) (tag : Nat) : State :=
  let keys := (s.rma.resp.filter fun c => c.2.unseen.any fun u => u.tags.contains tag).map (·.1)
  forEach s keys fun s k =>
    arrivalsDue (s.updResp k fun c =>
      { c with unseen := (c.unseen.map fun u => { u with tags := u.tags.filter fun t => t ≠ tag }).filter fun u => u.busy || !u.tags.isEmpty }) k

/-- A packet is refused by ACK TYPE 1: its PSN is received, and no memory changes (R312, R317). -/
def refusePkt (s : State) (key : Nat) (p : Packet) (status reason : Nat) : State :=
  ackContext (accept s key p [] false) key { type := 1, epsn := p.psn, estatus := status, ereason := reason }

/-- A refused remote access is counted and logged (R312, R337). -/
def refuseAccess (s : State) (key : Nat) (p : Packet) (status reason : Nat) : State :=
  refusePkt (((s.count 0x50C (epInst s p.dep)).raise 0x0A07 5 p.dep).event Dict.RMA_EVENTS 0 5) key p status reason

/-- An ACK without cumulative fields (R316). -/
def ackAlone (s : State) (p : Packet) (a : Ack) : State := sendAck s p.dep p.sfna p.sep { a with kind := 0, inc := hdrInc p, epsn := p.psn }

/-- A packet is refused with retry-later; an ORD packet holds back the later ones of its context (R328, R329). -/
def retryLater (s : State) (key : Nat) (p : Packet) : State :=
  let s1 := s.updResp key fun c => { c with dep := p.dep, ordHeld := if p.ord ∧ c.ordHeld.isNone then some p.psn else c.ordHeld }
  ackAlone s1 p { type := 2, backoff := s.reg Dict.RMA_MISS_BACKOFF_ST }

/-! ### The miss pool (R328) -/

/-- The free flits of the miss pool. -/
def missPoolFree (s : State) : Nat :=
  131072 - sumOf s.rma.parked flitCount -
  sumOf s.mtch.eps fun c => match c.2.search with
    | some { op := .arrival p, .. } => flitCount p
    | _ => 0

/-- A packet is parked, or answered with retry-later when the pool has no room for it (R328). -/
def park (s : State) (p : Packet) (was : Bool) : State :=
  if was ∨ flitCount p ≤ missPoolFree s then s.updRma fun u => { u with parked := u.parked ++ [p] }
  else
    ackAlone ((((s.count 0x507 (epInst s p.dep)).raise 0x0A03).event Dict.RMA_EVENTS 0 2)) p
      { type := 2, backoff := s.reg Dict.RMA_MISS_BACKOFF_ST }

/-! ### Arrival completions of a PUT (R325) -/

/-- The unit of an arrival completion of a PUT. -/
def arrivalUnit (s : State) (g : Nat) (p : Packet) : Nat :=
  let len := 4032 * psnDist (hdrMpsn p) p.psn + p.payload.length
  completionUnit 1 0 p.opc (s.queue g).local' 0 0 (hdrRaddr p) len 0 + put p.sfna 127 110 + put p.sep 109 94

/-! ### PUT -/

/-- A PUT is accepted; its last packet with NOTIFY takes a unit of the arrival ring (R325). -/
def acceptPut (s : State) (key : Nat) (p : Packet) (tags : List Nat) : State :=
  match (if hdrLast p ∧ hdrNotify p then arrivalQueue s p.dep else none) with
  | some g =>
    let ring := ringOf s g
    let a : ArrivalDue := { psn := p.psn, mpsn := hdrMpsn p, ring := ring, unit := arrivalUnit s g p }
    accept ((oweUnit s ring).updResp key fun c => { c with arrivals := c.arrivals ++ [a] }) key p tags false
  | none => accept s key p tags false

/-- A PUT is checked and executed (R312, R325); one of LEN 0 passes no check and writes nothing, and may be a release (R324, R366). -/
def execPutPkt (s : State) (key : Nat) (p : Packet) (was : Bool) : State :=
  if hdrLast p ∧ hdrNotify p ∧ (arrivalRing s p.dep).isNone ∧ epServes s p.dep then retryLater (noteNoRing s p.dep) key p
  else if p.payload.isEmpty then
    let s1 := if hdrRkey p ≠ 0 ∧ !hdrNotify p then releaseIn s p.dep p.sfna (hdrRkey p) (hdrRaddr p) else s
    acceptPut s1 key p []
  else if !epServes s p.dep then refuseAccess s key p 0x21 0
  else
    let addr := hdrRaddr p + 4032 * psnDist (hdrMpsn p) p.psn
    let a := access s [3, key, p.psn] (hdrRkey p) (epPd s p.dep) addr p.payload.length .write
    match a.2 with
    | .wait => park a.1 p was
    | .refused status reason => refuseAccess a.1 key p (if status = 0 then 0x20 else status) reason
    | .ok func seg chk pieces =>
      let w := writePieces a.1 func (some seg) chk pieces p.payload
      acceptPut w.1 key p w.2

/-! ### GET -/

/-- The length that a GET asks for (R302). -/
def getLen (p : Packet) : Nat := natBE (p.payload.take 8)

/-- The part of checked pieces that holds some of their bytes. -/
def slicePieces : List Piece → Nat → Nat → List Piece
  | [], _, _ => []
  | x :: rest, off, len =>
    if len = 0 then []
    else if x.len ≤ off then slicePieces rest (off - x.len) len
    else
      let n := min len (x.len - off)
      { addr := x.addr + off, len := n } :: slicePieces rest 0 (len - n)

/-- A GET that passed its checks is read, one read for each of its responses (R306). -/
def startGet (s : State) (key : Nat) (p : Packet) (func seg chk : Nat) (pieces : List Piece) : State :=
  let id := s.rmaId
  let parts := responseNumbers (getLen p)
  let j : GetJob := { id := id, key := key, inc := hdrInc p, psn := p.psn, dep := p.dep, len := getLen p, left := parts.length }
  forEach (s.rmaNext.updRma fun u => { u with gets := u.gets ++ [j] }) parts fun s i =>
    readGrants s (.getData id i) [{ func := func, seg := seg, chk := chk, pieces := slicePieces pieces (4096 * i) 4096 }]

/-- A GET is checked and answered; a duplicate is answered again in full (R312, R317, R318). -/
def execGetPkt (s : State) (key : Nat) (p : Packet) (was dup : Bool) : State :=
  let done (s : State) : State := if dup then s else accept s key p [] false
  let no (s : State) (status reason : Nat) : State :=
    if dup then ackContext s key { type := 1, epsn := p.psn, estatus := status, ereason := reason } else refuseAccess s key p status reason
  if !epServes s p.dep then no s 0x21 0
  else if getLen p = 0 ∨ 1048576 < getLen p then no s 0x20 6
  else
    let a := access s [3, key, p.psn] (hdrRkey p) (epPd s p.dep) (hdrRaddr p) (getLen p) .read
    match a.2 with
    | .wait => park a.1 p was
    | .refused status reason => no a.1 (if status = 0 then 0x20 else status) reason
    | .ok func seg chk pieces => startGet (done a.1) key p func seg chk pieces

/-- A remote read met poison (R324). -/
def notePoison (s : State) : State := s.raise 0x0A09

/-- The data of one response of a GET has come (R306, R324). -/
def getReturn (s : State) (id part : Nat) (data : List Byte) (bad : Bool) : State :=
  match s.rma.gets.find? fun j => j.id = id with
  | none => s
  | some j =>
    let w0 := packRespWord (decide (part + 1 = (responseNumbers j.len).length)) j.inc part (if bad then 0x24 else 0) 0
    let s1 := sendResponse (if bad then notePoison s else s) 0x81 j.key j.dep j.psn (s.respCtx j.key).peerHint w0 (if bad then [] else data)
    s1.updRma fun u =>
      { u with gets := (u.gets.map fun x => if x.id = id then { x with left := x.left - 1 } else x).filter fun x => x.left ≠ 0 }

/-! ### Atomics (R309, R323) -/

/-- Two's-complement less-than of a width in bytes. -/
def signedLt (width x y : Nat) : Bool := decide (toSigned (8 * width) x < toSigned (8 * width) y)

/-- What an atomic writes, if it writes (R302, R309). -/
def atomicNew (opc old operand compare : Nat) : Option Nat :=
  let w := atomicWidth opc
  let m := 2 ^ (8 * w)
  match opc % 16 with
  | 0 => some ((old + operand) % m)
  | 1 => some (old &&& operand)
  | 2 => some (old ||| operand)
  | 3 => some (old ^^^ operand)
  | 4 => some (if signedLt w operand old then operand else old)
  | 5 => some (if signedLt w old operand then operand else old)
  | 6 => some operand
  | 7 => if old = compare then some operand else none
  | _ => some (fp64.add old operand)

/-- The operands of an atomic as its payload carries them: a compare value comes before the swap value (R308). -/
def atomicOperands (p : Packet) : Nat × Nat :=
  let w := atomicWidth p.opc
  if isCas p.opc then (natBE ((p.payload.drop w).take w), natBE (p.payload.take w)) else (natBE (p.payload.take w), 0)

/-- An atomic is checked and its line taken (R309, R312). -/
def execAtomicPkt (s : State) (key : Nat) (p : Packet) (was : Bool) : State :=
  let w := atomicWidth p.opc
  if !epServes s p.dep then refuseAccess s key p 0x21 0
  else if hdrRaddr p % w ≠ 0 then refuseAccess s key p 0x26 0
  else
    let a := access s [3, key, p.psn] (hdrRkey p) (epPd s p.dep) (hdrRaddr p) w .both
    match a.2 with
    | .wait => park a.1 p was
    | .refused status reason => refuseAccess a.1 key p (if status = 0 then 0x20 else status) reason
    | .ok func seg chk pieces =>
      let addr := (pieces.head?.map (·.addr)).getD 0
      let o := atomicOperands p
      let id := a.1.rmaId
      let j : AtomicJob :=
        { id := id, key := key, inc := hdrInc p, psn := p.psn, dep := p.dep, opc := p.opc, func := func, seg := seg, chk := chk, addr := addr
          operand := o.1, compare := o.2 }
      let s1 := a.1.rmaNext.updRma fun u => { u with atomics := u.atomics ++ [j] }
      issueReadSeg (accept s1 key p [] true) func addr w (.atomicLine id) (some seg) chk

/-- The entries that the replay cache and its overflow area hold, 64 bytes each (R260, R323). -/
def replayRoom (s : State) : Nat := 65536 + s.host.storeAreas.getD 3 0 / 64

/-- A response is kept; when every place is taken the oldest is dropped (R323). -/
def keepReplay (s : State) (r : Replay) : State :=
  let l := s.rma.replay
  if l.length < replayRoom s then s.updRma fun u => { u with replay := l ++ [r] }
  else ((s.updRma fun u => { u with replay := l.drop 1 ++ [r] }).raise 0x0A04).event Dict.RMA_EVENTS 0 6

/-- The old value goes back in an ATOMIC_RESP (R305, R309). -/
def sendAtomicResp (s : State) (key dep psn inc width value status : Nat) : State :=
  sendResponse s 0x82 key dep psn (s.respCtx key).peerHint (packRespWord true inc 0 status 0) (if status = 0 then bytesBE value width else [])

/-- The line of an atomic is owned: the operation is performed (R309, R323, R324). -/
def atomicReturn (s : State) (id : Nat) (data : List Byte) (bad : Bool) : State :=
  match s.rma.atomics.find? fun j => j.id = id with
  | none => s
  | some j =>
    let w := atomicWidth j.opc
    let s1 := s.updRma fun u => { u with atomics := u.atomics.filter fun x => x.id ≠ id }
    let unbusy (s : State) (tags : List Nat) : State :=
      s.updResp j.key fun c =>
        { c with unseen := (c.unseen.map fun u => if u.psn = j.psn then { u with busy := false, tags := tags } else u).filter fun u =>
            u.busy || !u.tags.isEmpty }
    if bad then
      let s2 := unbusy (notePoison s1) []
      if isFetch j.opc then sendAtomicResp s2 j.key j.dep j.psn j.inc w 0 0x24
      else ackContext s2 j.key { type := 1, epsn := j.psn, estatus := 0x24 }
    else
      let old := natLE (data.take w)
      let wr := match atomicNew j.opc old j.operand j.compare with
        | some v => issueWrite (cacheLine s1 (j.addr / 64) 2) j.func j.addr (bytesLE v w) (some j.seg) j.chk
        | none => (cacheLine s1 (j.addr / 64) 2, [])
      let s2 := arrivalsDue (unbusy wr.1 wr.2) j.key
      if isFetch j.opc then
        sendAtomicResp (keepReplay s2 { key := j.key, inc := j.inc, psn := j.psn, width := w, value := old, at' := s.time.count })
          j.key j.dep j.psn j.inc w old 0
      else s2

/-- A duplicate fetch atomic: its response is sent again; while the first is still being performed nothing is (R318, R323). -/
def replayAtomic (s : State) (key : Nat) (p : Packet) : State :=
  if s.rma.atomics.any fun j => j.key = key && j.psn = p.psn then s
  else match s.rma.replay.find? fun r => r.key = key && r.inc = hdrInc p && r.psn = p.psn with
    | some r => sendAtomicResp (s.count 0x504 (epInst s p.dep)) key p.dep p.psn (hdrInc p) r.width r.value 0
    | none => sendAtomicResp s key p.dep p.psn (hdrInc p) (atomicWidth p.opc) 0 0x27

/-! ### Sends (R363, R364, R372, R376, R377) -/

/-- The header of a send's FIRST packet (R304, R369). -/
def sendHeader (p : Packet) : MEnt :=
  let w2 := p.oph.getD 2 0
  { rndv := p.opc = 4, mbits := p.oph.getD 1 0, comm := fld w2 63 48, rank := fld w2 47 16
    len := if p.opc = 3 ∧ p.payload.isEmpty ∧ hdrLast p then 0 else fld (p.oph.getD 3 0) 63 32 + 1
    mpsn := hdrMpsn p, inc := hdrInc p, sfna := p.sfna, sep := p.sep, key := if p.opc = 4 then hdrRkey p else 0
    addr := if p.opc = 4 then natBE (p.payload.take 8) else 0 }

/-- The accepted send that a packet belongs to. -/
def inflowOf (s : State) (key : Nat) (p : Packet) : Option Inflow :=
  s.mtch.inflows.find? fun f => f.key = key && f.inc = hdrInc p && f.mpsn = hdrMpsn p

/-- An eager send whose FIRST packet has been taken up. -/
def addInflow (s : State) (f : Inflow) : State := s.updMtch fun u => { u with inflows := u.inflows ++ [f] }

/-- Where the bytes of an unexpected message are kept: its slot. -/
def unexpSlot (s : State) (ep seq : Nat) : Option Nat :=
  let m := s.mep ep
  ((m.unexp ++ m.unexpSpill ++ m.claimed).find? fun e => e.seq = seq).elim
    ((s.mtch.recvs.find? fun r => r.ep = ep && r.path = .pool && r.msg.seq = seq).bind (·.msg.slot)) (·.slot)

/-- A send's LAST packet notes its PSN (R369). -/
def lastSeen (f : Inflow) (p : Packet) (s : State) : State :=
  if hdrLast p then s.updMtch fun u => { u with inflows := u.inflows.map fun x => if x = f then { x with lastPsn := some p.psn } else x } else s

/-- A piece of a matched send has been written, or its buffer's keys are still awaited. -/
def pieceWritten (key : Nat) (p : Packet) (f : Inflow) (was : Bool) : State × Option (List Nat) → State
  | (s, none) => park s p was
  | (s, some tags) => accept (lastSeen f p s) key p tags false

/-- A packet of an accepted send is placed and accepted (R376, R377). -/
def sendPiece (s : State) (key : Nat) (p : Packet) (f : Inflow) (was : Bool) : State :=
  let off := 4032 * psnDist (hdrMpsn p) p.psn
  match f.refused with
  | some x => refusePkt (lastSeen f p s) key p x.1 x.2
  | none =>
    match f.recv with
    | some id =>
      match s.mtch.recvs.find? fun r => r.id = id with
      | none => accept (lastSeen f p s) key p [] false
      | some r => pieceWritten key p f was (recvPiece s r off p.payload)
    | none =>
      match unexpSlot s p.dep f.seq with
      | none => accept (lastSeen f p s) key p [] false
      | some slot =>
        let w := hostWrite s ((funcOfEp s p.dep).getD 0) (slotAddr (matchRow s p.dep) slot + off) p.payload
        accept (lastSeen f p w.st) key p w.tags false

/-- A send's FIRST packet is refused, and with it the packets that follow it (R364, R377). -/
def refuseSend (s : State) (key : Nat) (p : Packet) (status : Nat) : State :=
  let f : Inflow :=
    { key := key, inc := hdrInc p, mpsn := hdrMpsn p, dep := p.dep, lastPsn := if hdrLast p then some p.psn else none, refused := some (status, 0) }
  refusePkt (if hdrLast p then s else addInflow s f) key p status 0

/-- A send matched to a posted receive (R376, R378). -/
def sendMatched (s : State) (key : Nat) (p : Packet) (h post : MEnt) (was : Bool) : State :=
  match arrivalRing s p.dep with
  | none => retryLater (noteNoRing s p.dep) key p
  | some ring =>
    let q := s.queue post.queue
    let id := s.rmaId
    let r : Recv :=
      { id := id, ep := p.dep, func := q.func, pd := q.pd, ring := ring, path := if h.rndv then .rndv else .direct, post := post, msg := h }
    let s1 := s.rmaNext.updMep p.dep fun m =>
      { m with posted := m.posted.filter (fun x => x.seq ≠ post.seq), postedSpill := m.postedSpill.filter fun x => x.seq ≠ post.seq }
    let s2 := addRecv (s1.count 0x600 p.dep) r
    if h.rndv then startRndv (accept s2 key p [] false) r q.igroup
    else
      let f : Inflow := { key := key, inc := hdrInc p, mpsn := hdrMpsn p, dep := p.dep, recv := some id }
      sendPiece (addInflow s2 f) key p f was

/-- A send that matches nothing is stored as unexpected (R377). -/
def sendUnexp (s : State) (key : Nat) (p : Packet) (h : MEnt) (was : Bool) : State :=
  let row := matchRow s p.dep
  let needSlot := !h.rndv && h.len ≠ 0
  if needSlot ∧ (rowSlots row = 0 ∨ rowSlotBytes row < h.len) then refuseSend (s.raise 0x0C04 5 p.dep) key p 0x61
  else if !unexpRoom s p.dep then retryLater (noteOverflow s) key p
  else
    let sl := if needSlot then takeSlot s p.dep else (s, none)
    if needSlot ∧ sl.2.isNone then
      retryLater (((s.count 0x60E p.dep).raise 0x0C03 5 p.dep).event Dict.MATCH_EVENTS 0 2) key p
    else
      let seq := (s.mep p.dep).arrSeq
      let e := { h with seq := seq, slot := sl.2 }
      let s1 := sl.1.updMep p.dep fun m => { m with arrSeq := (m.arrSeq + 1) % 2 ^ 32 }
      let s2 := (insertUnexp s1 p.dep e).count 0x601 p.dep
      if h.rndv then accept s2 key p [] false
      else
        let f : Inflow := { key := key, inc := hdrInc p, mpsn := hdrMpsn p, dep := p.dep, seq := seq }
        sendPiece (addInflow s2 f) key p f was

/-- A send's FIRST packet in order is matched (R372). -/
def sendFirst (s : State) (key : Nat) (p : Packet) (was : Bool) : State :=
  let m := s.mep p.dep
  let h := sendHeader p
  let own := m.search.any fun x => x.op = .arrival p
  if !epServes s p.dep then refuseSend s key p 0x21
  else if !matchValid s p.dep then refuseSend s key p 0x67
  else if m.failed then refuseSend s key p 0x6B
  else if m.search.isSome ∧ !own then park s p was
  else if own then
    match m.found with
    | none => s
    | some f =>
      let s1 := s.updMep p.dep fun m => { m with search := none, found := none }
      match f.bind fun i => m.postedSpill[i]? with
      | some post => sendMatched s1 key p h post was
      | none => sendUnexp s1 key p h was
  else match matchPosted m h with
    | some post => sendMatched (countArrival s p.dep h) key p h post was
    | none =>
      if m.postedSpill.isEmpty then sendUnexp (countArrival s p.dep h) key p h was
      else (countArrival s p.dep h).updMep p.dep fun m => { m with search := some { op := .arrival p } }

/-- A packet of a send (R363). -/
def execSendPkt (s : State) (key : Nat) (p : Packet) (was : Bool) : State :=
  match inflowOf s key p with
  | some f => sendPiece s key p f was
  | none =>
    if hdrFirst p ∧ (s.respCtx key).rcvNxt = p.psn then sendFirst s key p was
    else park (if was then s else s.count 0x60F p.dep) p was

/-! ### A request arrives (R315, R317) -/

/-- The request is a send. -/
def isSend (p : Packet) : Bool := p.opc = 3 || p.opc = 4

/-- A request whose PSN is new is checked and executed, or refused (R312, R317). -/
def execRequest (s : State) (key : Nat) (p : Packet) (was : Bool) : State :=
  if isSend p then execSendPkt s key p was
  else if p.opc = 2 then execGetPkt s key p was false
  else if isAtomic p.opc then execAtomicPkt s key p was
  else execPutPkt s key p was

/-- A duplicate (R318). -/
def execDuplicate (s : State) (key : Nat) (p : Packet) (was : Bool) : State :=
  let s1 := if was then s else s.count 0x503 (epInst s p.dep)
  if p.opc = 2 then execGetPkt s1 key p was true
  else if isAtomic p.opc && isFetch p.opc then replayAtomic s1 key p
  else ackContext (s1.updResp key fun c => { c with dep := p.dep }) key {}

/-- An ORD packet waits behind one of its context that is parked. -/
def ordParked (s : State) (key : Nat) (p : Packet) : Bool :=
  p.ord && s.rma.parked.any fun x => x.ord && respKey x.sfna x.sep = key && decide (psnDist x.psn p.psn < 2 ^ 23) && x.psn ≠ p.psn

/-- A request on its context (R317, R329). -/
def onContext (s : State) (key : Nat) (p : Packet) (was : Bool) : State :=
  let c := s.respCtx key
  let d := psnDist c.rcvNxt p.psn
  if c.received p.psn then execDuplicate s key p was
  else if 64 < d then s.count 0x50F (epInst s p.dep)
  else if p.ord ∧ c.ordHeld.any (fun x => x ≠ p.psn && decide (psnDist x p.psn < 2 ^ 23)) then retryLater s key p
  else if ordParked s key p then park s p was
  else execRequest s key p was

/-- A responder context starts with a SYN packet (R315). -/
def newResp (s : State) (key : Nat) (p : Packet) (place : Nat) : State :=
  (s.took.updRma fun u => { u with replay := u.replay.filter fun r => !(r.key = key && r.inc ≠ hdrInc p) }).updResp key fun _ =>
    { live := true, place := place, inc := hdrInc p, rcvNxt := p.psn, hint := hintOf s.free, dep := p.dep }

/-- The units that a context owes to arrivals return to their rings. -/
def dropArrivals (s : State) (key : Nat) : State := forEach s (s.respCtx key).arrivals fun s a => dropOwed s a.ring

/-- A request packet is processed (R315, R317, R328). -/
def receive (s : State) (p : Packet) (was : Bool) : State :=
  let key := respKey p.sfna p.sep
  let c := s.respCtx key
  if !c.live then
    if !hdrSyn p then ackAlone s p { type := 3 }
    else match freePlace s (respCode key) with
      | none => ackAlone s p { type := 1, estatus := 0x29 }
      | some pl =>
        let r := placeOnDie s (respCode key)
        if !r.2 then park s p was
        else onContext (newResp (takePlace r.1 pl (respCode key) false) key p pl) key p was
  else if !onDie s (respCode key) then
    let s1 := if c.fetching then s else (s.updResp key fun c => { c with fetching := true }).count 0x505 (epInst s p.dep)
    park s1 p was
  else
    let s1 := (placeOnDie s (respCode key)).1
    if hdrInc p ≠ c.inc then
      if hdrSyn p then onContext (newResp (dropArrivals s1 key) key p c.place) key p was
      else s1.count 0x50E (epInst s p.dep)
    else onContext s1 key p was

/-- The parked packets are processed again, in order of arrival; those that still wait stay (R328). -/
def retryParked (s : State) : State :=
  let l := s.rma.parked
  forEach (s.updRma fun u => { u with parked := [] }) l fun s p => receive s p true

/-- The packet at the head of a host port's deliveries, if it is one of a row's, is taken by the remote memory units. -/
def takeRma (s : State) (hp : Nat) (mine : Packet → Bool) (f : State → Packet → State) : Host.Outcome State Fault Refusal :=
  if hp < 96 ∨ 100 ≤ hp then .fault .noSuchPort
  else match tget [] s.sw.delivered hp with
    | d :: _ => .next (if mine d.pkt then f (takeDelivered s hp) d.pkt else s)
    | [] => .next s

/-- A new request packet. -/
def receiveNew (s : State) (p : Packet) : State := receive s p false

/-- A PUT that releases a rendezvous (R366). -/
def isRelease (p : Packet) : Bool := p.opc = 1 && p.payload.isEmpty && hdrRkey p ≠ 0 && !hdrNotify p

/-- PUT_RECEIVE (R317). -/
def execPutReceive (hp : Nat) (s : State) : Host.Outcome State Fault Refusal :=
  takeRma s hp (fun p => p.opc = 1 && !isRelease p) receiveNew

/-- RELEASE_RECEIVE (R366). -/
def execReleaseReceive (hp : Nat) (s : State) : Host.Outcome State Fault Refusal := takeRma s hp isRelease receiveNew

/-- GET_RECEIVE (R317). -/
def execGetReceive (hp : Nat) (s : State) : Host.Outcome State Fault Refusal := takeRma s hp (fun p => p.opc = 2) receiveNew

/-- ATOMIC_RECEIVE (R309). -/
def execAtomicReceive (hp : Nat) (s : State) : Host.Outcome State Fault Refusal :=
  takeRma s hp (fun p => isAtomic p.opc && !isFetch p.opc) receiveNew

/-- FETCH_ATOMIC_RECEIVE (R323). -/
def execFetchAtomicReceive (hp : Nat) (s : State) : Host.Outcome State Fault Refusal :=
  takeRma s hp (fun p => isAtomic p.opc && isFetch p.opc) receiveNew

/-- SEND_EAGER_RECEIVE (R372). -/
def execSendEagerReceive (hp : Nat) (s : State) : Host.Outcome State Fault Refusal := takeRma s hp (fun p => p.opc = 3) receiveNew

/-- SEND_RNDV_RECEIVE (R372). -/
def execSendRndvReceive (hp : Nat) (s : State) : Host.Outcome State Fault Refusal := takeRma s hp (fun p => p.opc = 4) receiveNew

/-! ### Acknowledgements arrive -/

/-- The acknowledgement that a packet carries. -/
def ackOf (p : Packet) : Ack := unpackAck (natBE (p.payload.take 32))

/-- A packet is an ACK of a kind and a type. -/
def isAck (kind type : Nat) (p : Packet) : Bool := p.opc = 0x80 && (ackOf p).kind = kind && (ackOf p).type = type

/-- A KIND 0 ACK on its requester context; one for another incarnation or for no context is stale (R314, R320, R328). -/
def ackIn (s : State) (p : Packet) (f : State → Nat → Ack → State) : State :=
  let key := reqKey p.dep p.sfna
  let a := ackOf p
  let c := s.reqCtx key
  if (c.st ≠ .opening ∧ c.st ≠ .open) ∨ !onDie s (reqCode key) then s.count 0x50E (epInst s p.dep)
  else if a.inc ≠ c.inc then s.count 0x50D (epInst s p.dep)
  else
    let s1 := f (placeOnDie s (reqCode key)).1 key a
    if (s1.reqCtx key).st = .closing then s1 else afterAck s1 key

/-- ACK_RECEIVE: a KIND 0 ACK of TYPE 0; one of a reserved kind or type is ignored (R316, R320). -/
def execAckReceive (hp : Nat) (s : State) : Host.Outcome State Fault Refusal :=
  takeRma s hp (fun p => p.opc = 0x80 && (isAck 0 0 p || 2 ≤ (ackOf p).kind || 5 ≤ (ackOf p).type ||
      ((ackOf p).kind = 0 && (ackOf p).type = 4) || ((ackOf p).kind = 1 && (ackOf p).type ≠ 0 && (ackOf p).type ≠ 4)))
    fun s p => if isAck 0 0 p then ackIn s p ackFields else s.count 0x50D (epInst s p.dep)

/-- ACK TYPE 1: the packet it concerns fails, and is not among those that CUM and SACK then acknowledge as done (R324). -/
def errorIn (s : State) (key : Nat) (a : Ack) : State :=
  let s1 := ackError s key a
  if (s1.reqCtx key).st = .closing then s1 else ackFields s1 key a

/-- ACK_ERROR_RECEIVE: TYPE 1 (R314, R324). -/
def execAckErrorReceive (hp : Nat) (s : State) : Host.Outcome State Fault Refusal :=
  takeRma s hp (isAck 0 1) fun s p => ackIn s p errorIn

/-- ACK_RETRY_LATER_RECEIVE: TYPE 2 (R329). -/
def execAckRetryLaterReceive (hp : Nat) (s : State) : Host.Outcome State Fault Refusal :=
  takeRma s hp (isAck 0 2) fun s p => ackIn s p fun s key a => ackLater (ackFields s key a) key a

/-- ACK TYPE 3: the target has no context of this incarnation (R314, R336). -/
def peerLost (s : State) (key : Nat) : State :=
  ctxFails ((s.raise 0x0A02 3 (epInst s (reqEp key))).event Dict.RMA_EVENTS 0 1) key 0x23

/-- ACK_NO_CONTEXT_RECEIVE: TYPE 3 (R314). -/
def execAckNoContextReceive (hp : Nat) (s : State) : Host.Outcome State Fault Refusal :=
  takeRma s hp (isAck 0 3) fun s p => ackIn s p fun s key a => peerLost (ackFields s key a) key

/-- A responder context ends (R315). -/
def endResp (s : State) (key : Nat) : State :=
  (leavePlace (forgetDie (dropArrivals s key) (respCode key)) (s.respCtx key).place).updResp key fun _ => {}

/-- ACK_CLOSE_RECEIVE: KIND 1, TYPE 4 (R315). -/
def execAckCloseReceive (hp : Nat) (s : State) : Host.Outcome State Fault Refusal :=
  takeRma s hp (isAck 1 4) fun s p =>
    let key := respKey p.sfna p.sep
    if (s.respCtx key).live ∧ (s.respCtx key).inc = (ackOf p).inc then endResp s key else s.count 0x50D (epInst s p.dep)

/-- ACK_RESPONSES_RECEIVE: KIND 1, TYPE 0: responses below CUM have come, and their replay entries go (R323). -/
def execAckResponsesReceive (hp : Nat) (s : State) : Host.Outcome State Fault Refusal :=
  takeRma s hp (isAck 1 0) fun s p =>
    let key := respKey p.sfna p.sep
    let a := ackOf p
    let c := s.respCtx key
    if c.live ∧ c.inc = a.inc then
      let s1 := s.updResp key fun c => { c with peerHint := a.hint }
      if a.cv then s1.updRma fun u =>
        { u with replay := u.replay.filter fun r => !(r.key = key && r.inc = a.inc && passedBy a.cum r.psn) }
      else s1
    else s.count 0x50D (epInst s p.dep)

/-! ### Responses arrive (R320) -/

/-- The fields of a response's word 0 (R305). -/
def respIndex (p : Packet) : Nat := fld (hdrW0 p) 55 48
def respStatus (p : Packet) : Nat := fld (hdrW0 p) 47 40
def respReason (p : Packet) : Nat := fld (hdrW0 p) 39 32

/-- A GET_RESP is taken: its data goes to the local buffer (R320, R341). -/
def takeGetResp (s : State) (key : Nat) (p : Packet) (q : ReqPkt) (m : Msg) : State :=
  let i := respIndex p
  let done (s : State) : State :=
    responseTaken (updPktOf s key q.psn fun x => { x with missing := x.missing.filter fun n => n ≠ i }) key q.psn p.ce
  if respStatus p ≠ 0 then done (msgFails s key m.id q.psn (respStatus p) (respReason p))
  else
    let len := min p.payload.length (min 4096 (q.len - 4096 * i))
    let a := accessBufs s [4, key, q.psn, i] m.pd .write (sliceBufs m.bufs (q.off + 4096 * i) len)
    match a.2 with
    | .wait => a.1.updRma fun u => { u with respWait := u.respWait ++ [p] }
    | .refused status reason => done (msgFails a.1 key m.id q.psn status reason)
    | .ok gs =>
      let w := writeGrants a.1 gs (p.payload.take len)
      done (updMsg w.1 key m.id fun m => { m with done := m.done + len, tags := m.tags ++ w.2 })

/-- An ATOMIC_RESP is taken: the old value goes to the entry's completion (R309). -/
def takeAtomicResp (s : State) (key : Nat) (p : Packet) (q : ReqPkt) (m : Msg) : State :=
  let s1 := if respStatus p ≠ 0 then msgFails s key m.id q.psn (respStatus p) (respReason p)
    else updMsg s key m.id fun m => { m with result := natBE (p.payload.take (atomicWidth m.opc)), done := q.len }
  responseTaken (updPktOf s1 key q.psn fun x => { x with needResp := false }) key q.psn p.ce

/-- A response on its requester context; one that answers nothing outstanding is stale (R320, R328). -/
def responseIn (s : State) (p : Packet) : State :=
  let key := reqKey p.dep p.sfna
  let c := s.reqCtx key
  if (c.st ≠ .opening ∧ c.st ≠ .open) ∨ !onDie s (reqCode key) ∨ hdrInc p ≠ c.inc then s.count 0x50E (epInst s p.dep)
  else match c.pkts.find? fun q => q.psn = p.psn with
    | none => s
    | some q =>
      match c.msg q.msg with
      | none => s
      | some m =>
        if p.opc = 0x81 then (if q.missing.contains (respIndex p) then takeGetResp s key p q m else s)
        else if q.needResp then takeAtomicResp s key p q m else s

/-- The responses that waited for a translation are tried again. -/
def retryResponses (s : State) : State :=
  let l := s.rma.respWait
  forEach (s.updRma fun u => { u with respWait := [] }) l responseIn

/-- GET_RESP_RECEIVE (R320). -/
def execGetRespReceive (hp : Nat) (s : State) : Host.Outcome State Fault Refusal := takeRma s hp (fun p => p.opc = 0x81) responseIn

/-- ATOMIC_RESP_RECEIVE (R309). -/
def execAtomicRespReceive (hp : Nat) (s : State) : Host.Outcome State Fault Refusal := takeRma s hp (fun p => p.opc = 0x82) responseIn

/-! ### Timers -/

/-- RTO_EXPIRY: the timer of a requester context has expired (R321). -/
def execRtoExpiry (sep dfna : Nat) (s : State) : Host.Outcome State Fault Refusal :=
  let key := reqKey sep dfna
  let c := s.reqCtx key
  .next (if (c.st = .opening ∨ c.st = .open) ∧ c.timer.any (fun t => decide (t ≤ s.time.count)) ∧ !c.pkts.isEmpty then rtoExpires s key else s)

/-- BACKOFF_EXPIRY (R329). -/
def execBackoffExpiry (sep dfna : Nat) (s : State) : Host.Outcome State Fault Refusal := .next (backoffEnds s (reqKey sep dfna))

/-- ACK_DELAY_TIMER: RMA_ACK_DELAY_ST have passed since the first packet, or response, not yet acknowledged (R319, R320). -/
def execAckDelayTimer (responses : Bool) (node ep : Nat) (s : State) : Host.Outcome State Fault Refusal :=
  let due (t : Option Nat) : Bool := t.any fun t => decide (t + s.reg Dict.RMA_ACK_DELAY_ST ≤ s.time.count)
  .next (if responses then
      (if due (s.reqCtx (reqKey ep node)).respAt then sendRespAck s (reqKey ep node) else s)
    else if due (s.respCtx (respKey node ep)).ackAt then ackContext s (respKey node ep) {} else s)

/-- PEER_IDLE_EXPIRY: an Open context has been idle for RMA_PEER_IDLE_FR frames (R314). -/
def execPeerIdleExpiry (sep dfna : Nat) (s : State) : Host.Outcome State Fault Refusal :=
  let key := reqKey sep dfna
  let c := s.reqCtx key
  let n := s.reg Dict.RMA_PEER_IDLE_FR
  .next (if c.st = .open ∧ !c.busy ∧ n ≠ 0 ∧ c.since + 1024 * n ≤ s.time.count then closeCtx s key else s)

/-- A Closing context becomes Free; entries that waited for it open it anew (R314). -/
def closingEnds (s : State) (key : Nat) : State :=
  let c := s.reqCtx key
  pump ((leavePlace (forgetDie s (reqCode key)) c.place).updReq key fun c => { msgs := c.msgs, closers := c.closers }) key

/-- PEER_CLOSING_END (R314). -/
def execPeerClosingEnd (sep dfna : Nat) (s : State) : Host.Outcome State Fault Refusal :=
  let key := reqKey sep dfna
  let c := s.reqCtx key
  .next (if c.st = .closing ∧ c.since + 1024 ≤ s.time.count then closingEnds s key else s)

/-- RESP_CACHE_AGE_OUT: replay entries made 4 × RMA_RTO_MAX_ST ago go (R323). -/
def execRespCacheAgeOut (s : State) : Host.Outcome State Fault Refusal :=
  .next (s.updRma fun u => { u with replay := u.replay.filter fun r => decide (s.time.count < r.at' + 4 * s.reg Dict.RMA_RTO_MAX_ST) })

/-- RATE_PERIOD (R330). -/
def execRatePeriod (sep dfna : Nat) (s : State) : Host.Outcome State Fault Refusal :=
  let key := reqKey sep dfna
  let c := s.reqCtx key
  .next (if (c.st = .opening ∨ c.st = .open) ∧ c.periodAt + s.reg Dict.RMA_CC_PERIOD_ST ≤ s.time.count then ratePeriod s key else s)

/-- A context's fetch ends: it is on die, and what waited for it goes on; one that fails its check is treated as absent (R327, R328). -/
def contextFetched (s : State) (req : Bool) (node ep : Nat) (bad : Bool) : State :=
  if req then
    let key := reqKey ep node
    if !(s.reqCtx key).fetching then s
    else if bad then
      let s1 := (s.raise 0x0808).raise 0x0A08
      pump ((leavePlace s1 (s.reqCtx key).place).updReq key fun c => { msgs := c.msgs, closers := c.closers }) key
    else
      let r := placeOnDie s (reqCode key)
      if r.2 then pump (r.1.updReq key fun c => { c with fetching := false }) key else s
  else
    let key := respKey node ep
    if !(s.respCtx key).fetching then s
    else if bad then retryParked (endResp ((s.raise 0x0808).raise 0x0A08) key)
    else
      let r := placeOnDie s (respCode key)
      if r.2 then retryParked (r.1.updResp key fun c => { c with fetching := false }) else s

/-- CONTEXT_FETCH_DONE (R328). -/
def execContextFetchDone (req : Bool) (node ep : Nat) (bad : Bool) (s : State) : Host.Outcome State Fault Refusal :=
  .next (contextFetched s req node ep bad)

/-! ### Work entries (R302, R308, R310, R365) -/

/-- A work entry's message, without what its operation adds. -/
def entryMsg (s : State) (e : Entry) : Msg :=
  let q := s.queue e.queue
  { owner := .entry e.id, opc := e.opc, dep := e.dep, pd := q.pd, func := e.func, group := q.igroup, flow := e.flow, ord := e.ord, len := e.len }

/-- The key of the context of an entry. -/
def entryKey (s : State) (e : Entry) : Nat := reqKey (s.queue e.queue).ep e.dfna

/-- An entry's local buffers pass checks 2 to 6, or it waits, or fails (R341). -/
def withBufs (s : State) (e : Entry) (need : Need) (f : State → State) : State × Bool :=
  if e.inl then (f s, true)
  else
    let b := checkBufs s (s.queue e.queue).pd need e.buffers
    match b.2 with
    | .wait => (b.1, false)
    | .refused status reason => (failEntry b.1 e.id status reason, true)
    | .ok => (f b.1, true)

/-- The payload that an entry carries itself, or the buffers it names. -/
def Msg.withPayload (m : Msg) (e : Entry) : Msg :=
  if e.inl then { m with data := some e.inlineData } else { m with bufs := e.buffers }

/-- A PUT starts. Whether its LAST packet carries NOTIFY no field of the entry says (R303, R308). -/
def startPut (s : State) (e : Entry) : State × Bool :=
  withBufs s e .read fun s =>
    let m := { entryMsg s e with raddr := e.w5, rkey := fld e.w6 63 32, notify := s.free % 2 = 1 }
    submit s.took (entryKey s e) (m.withPayload e)

/-- A GET starts; one of no bytes is over at once (R306). -/
def startGetEntry (s : State) (e : Entry) : State × Bool :=
  withBufs s e .write fun s =>
    submit s (entryKey s e) { entryMsg s e with raddr := e.w5, rkey := fld e.w6 63 32, bufs := e.buffers }

/-- The operands of an atomic entry as its packet carries them, most significant byte first (R308). -/
def entryOperands (e : Entry) : List Byte :=
  let w := atomicWidth e.opc
  let c := e.more.getD 0 0
  if !atomicArgUnit e.opc then bytesBE e.w7 8
  else if isCas e.opc then bytesBE (fld c (8 * w - 1) 0) w ++ bytesBE (fld c (16 * w - 1) (8 * w)) w
  else bytesBE (fld c (8 * w - 1) 0) w

/-- An atomic starts (R309). -/
def startAtomic (s : State) (e : Entry) : State × Bool :=
  (submit s (entryKey s e) { entryMsg s e with raddr := e.w5, rkey := fld e.w6 63 32, data := some (entryOperands e) }, true)

/-- Words 1 to 3 of a send's operation header (R304). -/
def sendWords (e : Entry) : List Nat :=
  [e.w5, put (fld e.w6 63 48) 63 48 + put (fld e.w6 47 16) 47 16, put (e.len - 1) 63 32]

/-- A send goes by rendezvous (R365, R366). -/
def startRndvSend (s : State) (e : Entry) : State × Bool :=
  let q := s.queue e.queue
  if e.nsge ≠ 0 ∨ e.inl then (finishEntry s e.id 0x64, true)
  else if 65536 ≤ s.mtch.rndv.length then (s, false)
  else
    let b := checkBufs s q.pd .read e.buffers
    match b.2 with
    | .wait => (b.1, false)
    | .refused status reason => (failEntry b.1 e.id status reason, true)
    | .ok =>
      if !(bitAt (epRow s q.ep) 63) ∨ epPd s q.ep ≠ q.pd then (failEntry b.1 e.id 0x43 1, true)
      else
        let s1 := b.1.updMtch fun u =>
          { u with rndv := u.rndv ++ [{ sep := q.ep, dfna := e.dfna, key := e.lkey, addr := e.laddr, entry := e.id }] }
        (submit s1 (entryKey s e)
          { entryMsg s e with opc := 4, len := 8, rkey := e.lkey, words := sendWords e, data := some (bytesBE e.laddr 8) }, true)

/-- A send starts, eager or by rendezvous (R365). -/
def startSend (s : State) (e : Entry) : State × Bool :=
  if s.reg Dict.MATCH_EAGER_LIMIT < e.len then startRndvSend s e
  else withBufs s e .read fun s => submit s (entryKey s e) ({ entryMsg s e with words := sendWords e }.withPayload e)

/-- PEER_CLOSE starts: it completes when the context is Closing (R310). -/
def startPeerClose (s : State) (e : Entry) : State :=
  let key := entryKey s e
  let c := s.reqCtx key
  match c.st with
  | .free | .closing => finishEntry s e.id 0
  | _ =>
    let s1 := s.updReq key fun c => { c with closers := c.closers ++ [e.id] }
    if c.busy ∨ c.st ≠ .open then s1 else closeCtx s1 key

/-- Open contexts with nothing outstanding for which a PEER_CLOSE waits are closed (R310, R314). -/
def closeIdle (s : State) (key : Nat) : State :=
  let c := s.reqCtx key
  if c.st = .open ∧ !c.busy ∧ !c.closers.isEmpty then closeCtx s key else s

/-- PUT (R302). -/
def execPut (queue : Nat) (s : State) : Host.Outcome State Fault Refusal := startEntry s queue 0 [1] startPut

/-- GET (R302). -/
def execGet (queue : Nat) (s : State) : Host.Outcome State Fault Refusal := startEntry s queue 0 [2] startGetEntry

/-- SEND (R365). -/
def execSend (queue : Nat) (s : State) : Host.Outcome State Fault Refusal := startEntry s queue 0 [3] startSend

/-- The opcodes of a row of sixteen. -/
def opRow (base : Nat) : List Nat := (List.range 16).map fun i => base + i

/-- ATOMIC (R309). -/
def execAtomic (queue : Nat) (s : State) : Host.Outcome State Fault Refusal := startEntry s queue 0 (opRow 0x10) startAtomic

/-- FETCH_ATOMIC (R309). -/
def execFetchAtomic (queue : Nat) (s : State) : Host.Outcome State Fault Refusal := startEntry s queue 0 (opRow 0x20) startAtomic

/-- ATOMIC_128 (R309). -/
def execAtomic128 (queue : Nat) (s : State) : Host.Outcome State Fault Refusal := startEntry s queue 0 (opRow 0x30) startAtomic

/-- FETCH_ATOMIC_128 (R309). -/
def execFetchAtomic128 (queue : Nat) (s : State) : Host.Outcome State Fault Refusal := startEntry s queue 0 (opRow 0x40) startAtomic

/-- PEER_CLOSE (R310). -/
def execPeerClose (queue : Nat) (s : State) : Host.Outcome State Fault Refusal := startEntry s queue 1 [0x12] (atOnce startPeerClose)

end Sys2Proof.Machine
end

