-- ==== Sys2Proof/Machine/Coll.lean ====
section
/-!
DEFINITION. The collective engine: groups and trees (R388 to R392), blocks and their arithmetic (R393 to R397, R401), numbering (R400),
submission and completion (R402 to R408), and what happens when a tree breaks (R410 to R415).
-/
namespace Sys2Proof.Machine

/-- The state with the collective engine changed. -/
def State.updColl (s : State) (f : CollUnit → CollUnit) : State := { s with coll := f s.coll }

/-- What the engine keeps of a row. -/
def State.collRow (s : State) (r : Nat) : CollRow := tget {} s.coll.rows r

/-- The state with what the engine keeps of a row changed. -/
def State.updRow (s : State) (r : Nat) (f : CollRow → CollRow) : State :=
  s.updColl fun u => { u with rows := tupd {} u.rows r f }

/-! ### Rows (R389) -/

/-- The RW fields of a row of COLL_GROUP. -/
def collCfg (s : State) (r : Nat) : Nat := s.reg Dict.COLL_GROUP r
def cfgValid (v : Nat) : Bool := bitAt v 255
def cfgAltValid (v : Nat) : Bool := bitAt v 254
def cfgRetry (v : Nat) : Bool := bitAt v 253
def cfgRoot (v : Nat) : Bool := bitAt v 252
def cfgMember (v : Nat) : Bool := bitAt v 251
def cfgGid (v : Nat) : Nat := fld v 239 216
def cfgUp (v tree : Nat) : Nat := if tree = 0 then fld v 215 204 else fld v 203 192
def cfgChildren (v tree : Nat) : Nat := if tree = 0 then fld v 191 185 else fld v 184 178
def cfgDown (v tree : Nat) : Nat := if tree = 0 then fld v 177 164 else fld v 163 150
def cfgFunc (v : Nat) : Nat := fld v 149 140
def cfgEp (v : Nat) : Nat := fld v 139 124
def cfgMembers (v : Nat) : Nat := fld v 123 107
def cfgMidx (v : Nat) : Nat := fld v 106 90
def cfgW (v : Nat) : Nat := fld v 89 82 + 1

/-- The RW bits of a row. -/
def collRwBits : Nat := put 31 255 251 + (2 ^ 240 - 2 ^ 82)

/-- A row as it reads (R389). -/
def collRowRead (s : State) (r : Nat) : Nat :=
  let x := s.collRow r
  collCfg s r + put x.st.code 250 248 + put x.tree 247 247 + put x.next 81 50

/-- A row of COLL_GROUP_VIEW (R417). -/
def collViewRow (s : State) (r : Nat) : Nat :=
  let v := collCfg s r
  let x := s.collRow r
  put (cfgGid v) 63 40 + put x.st.code 39 37 + put x.tree 36 36 + put (b2n (cfgMember v)) 35 35 + put (cfgFunc v) 34 25

/-- The block buffers that a row takes (R390). -/
def rowBuffers (v : Nat) : Nat :=
  if cfgValid v then cfgW v * (max (cfgChildren v 0) (cfgChildren v 1) + b2n (cfgMember v)) + (if cfgRoot v then cfgW v else 0) else 0

/-- COLL_BLOCKS_FREE (R390). -/
def collBlocksFree (s : State) : Nat := 16384 - sumOf (List.range 4096) fun r => rowBuffers (collCfg s r)

/-- The state of a row allows no opening (R390). -/
def rowHeld (st : CollSt) : Bool := st = .waiting || st = .ready || st = .switching

/-- A write with VALID = 1 is judged (R390). -/
def collOpenCheck (s : State) (r v : Nat) : Nat :=
  if rowHeld (s.collRow r).st then 0x0C
  else if fld v 246 240 ≠ 0 ∨ fld v 49 0 ≠ 0 ∨ cfgGid v = 0 ∨ 96 < cfgChildren v 0 ∨ 96 < cfgChildren v 1 ∨ cfgMembers v = 0 ∨
      115297 < cfgMembers v ∨ cfgMembers v ≤ cfgMidx v then 6
  else if cfgMember v ∧ !(funcValid s (cfgFunc v) && inRange (cfgEp v) (epFirst s (cfgFunc v)) (epCount s (cfgFunc v))) then 6
  else if (List.range 4096).any (fun x => x ≠ r && cfgValid (collCfg s x) && decide (cfgGid (collCfg s x) = cfgGid v)) then 6
  else if collBlocksFree s + rowBuffers (collCfg s r) < rowBuffers v then 6
  else 0

/-! ### States (R392) -/

/-- A change of state is logged (R417). -/
def logColl (s : State) (r code : Nat) : State :=
  let x := s.collRow r
  let row := put (cfgGid (collCfg s r)) 127 104 + put x.st.code 103 101 + put x.tree 100 100 + put code 99 84 + put s.time.count 63 0
  s.updColl fun u => { u with log := pushLog 32 row u.log }

/-- A row enters a state. -/
def enterColl (s : State) (r : Nat) (st : CollSt) (code : Nat) : State :=
  logColl (s.updRow r fun x => { x with st := st, due := none }) r code

/-- A row enters a state at the next boundary. -/
def collDue (s : State) (r : Nat) (st : CollSt) (code : Nat) : State := s.updRow r fun x => { x with due := some (st, code) }

/-- Blocks on their way are discarded: those with some inputs, those read, and those that wait in the up entry of a tree (R412). -/
def discardBlocks (s : State) (r tree : Nat) : State :=
  let s1 := s.updRow r fun x => { x with blocks := [], chunks := [], asks := [], reading := [] }
  if cfgRoot (collCfg s r) then s1 else s1.updLast (409600 + cfgUp (collCfg s r) tree) fun e => { e with queue := [] }

/-! ### Arithmetic (R393, R395, R396) -/

/-- The bytes of an element in a block. -/
def elemBytes (dtype : Nat) : Nat :=
  match dtype with
  | 0 | 4 => 4 | 3 => 2 | 6 => 16 | _ => 8

/-- The bytes of an element in the source buffer. -/
def srcBytes (dtype : Nat) : Nat := if dtype = 6 then 8 else elemBytes dtype

/-- The elements of a full block. -/
def blockElems (dtype : Nat) : Nat := 432 / elemBytes dtype

/-- The format of a floating-point type. -/
def fmtOf (dtype : Nat) : FpFmt := if dtype = 3 then bf16 else if dtype = 4 then fp32 else fp64

/-- A number's place in the order of its format, −0 below +0 (R395). -/
def FpFmt.rank (f : FpFmt) (x : Nat) : Int :=
  if f.sign x then -((x % 2 ^ (f.ebits + f.mbits) : Nat) : Int) - 1 else (x : Int)

/-- Min and max (R395). -/
def FpFmt.least (f : FpFmt) (x y : Nat) : Nat := if f.isNan x ∨ f.isNan y then f.qnan else if f.rank y < f.rank x then y else x
def FpFmt.most (f : FpFmt) (x y : Nat) : Nat := if f.isNan x ∨ f.isNan y then f.qnan else if f.rank x < f.rank y then y else x

/-- The number with the other sign. -/
def FpFmt.neg (f : FpFmt) (x : Nat) : Nat := x ^^^ 2 ^ (f.ebits + f.mbits)

/-- A sum and its rounding error (R396). -/
def twoSum (x y : Nat) : Nat × Nat :=
  let s := fp64.add x y
  let x' := fp64.add s (fp64.neg y)
  let y' := fp64.add s (fp64.neg x')
  (s, fp64.add (fp64.add x (fp64.neg x')) (fp64.add y (fp64.neg y')))

/-- The same of two numbers of which the first is the larger (R396). -/
def fastTwoSum (x y : Nat) : Nat × Nat :=
  let s := fp64.add x y
  (s, fp64.add y (fp64.neg (fp64.add s (fp64.neg x))))

/-- One step of a compensated sum on pairs, s above e (R396). -/
def pairStep (acc x : Nat) : Nat :=
  let t := twoSum (acc / 2 ^ 64) (x / 2 ^ 64)
  let e := fp64.add (fp64.add (acc % 2 ^ 64) (x % 2 ^ 64)) t.2
  let r := fastTwoSum t.1 e
  r.1 * 2 ^ 64 + r.2

/-- One step on integers (R395). -/
def intStep (dtype op x y : Nat) : Nat :=
  let w := elemBytes dtype
  let less (a b : Nat) : Bool := if dtype = 2 then decide (a < b) else signedLt w a b
  match op with
  | 0 => (x + y) % 2 ^ (8 * w)
  | 1 => if less y x then y else x
  | 2 => if less x y then y else x
  | 3 => x &&& y
  | 4 => x ||| y
  | _ => x ^^^ y

/-- One step on an element: the accumulator and the input (R395, R396). -/
def elemStep (dtype op x y : Nat) : Nat :=
  if dtype ≤ 2 then intStep dtype op x y
  else if dtype = 6 then pairStep x y
  else match op with
    | 0 => (fmtOf dtype).add x y
    | 1 => (fmtOf dtype).least x y
    | _ => (fmtOf dtype).most x y

/-- The elements that bytes carry, each most significant byte first (R393). -/
def elemsOf (w : Nat) (data : List Byte) : List Nat :=
  (List.range (data.length / w)).map fun i => natBE ((data.drop (w * i)).take w)

/-- One step on a block (R397). -/
def blockStep (dtype op : Nat) (acc x : List Byte) : List Byte :=
  let w := elemBytes dtype
  (List.zipWith (elemStep dtype op) (elemsOf w acc) (elemsOf w x)).flatMap fun v => bytesBE v w

/-- Bytes with the order within each group of w turned round: elements between host memory and a block (R4, R393). -/
def swapElems (w : Nat) (data : List Byte) : List Byte :=
  (List.range (data.length / w)).flatMap fun i => ((data.drop (w * i)).take w).reverse

/-- The elements of a block as the result buffer takes them (R396). -/
def resultBytes (dtype : Nat) (data : List Byte) : List Byte := swapElems (min 8 (elemBytes dtype)) data

/-- A member's contribution as its blocks carry it (R396). -/
def sourceElems (dtype : Nat) (data : List Byte) : List Byte :=
  if dtype = 6 then (List.range (data.length / 8)).flatMap fun i => ((data.drop (8 * i)).take 8).reverse ++ List.replicate 8 0
  else swapElems (srcBytes dtype) data

/-- The type and the operation form an allowed pair (R395). -/
def pairAllowed (dtype op : Nat) : Bool :=
  if dtype ≤ 2 then decide (op ≤ 5) else if dtype ≤ 5 then decide (op ≤ 2) else decide (dtype = 6) && decide (op = 0)

/-! ### Headers (R394) -/

/-- A header's 128 bits. -/
def packColl (h : CollHdr) : Nat :=
  put h.kind 127 124 + put h.dtype 123 120 + put h.op 119 116 + put h.tree 115 115 + put (b2n h.lastb) 114 114 + put (b2n h.void) 113 113 +
  put (b2n h.replay) 112 112 + put h.count 111 104 + put h.gid 103 80 + put h.bnum 79 48 + put h.aux 47 24

/-- The header that 128 bits spell. -/
def unpackColl (n : Nat) : CollHdr :=
  { kind := fld n 127 124, dtype := fld n 123 120, op := fld n 119 116, tree := fld n 115 115, lastb := bitAt n 114, void := bitAt n 113
    replay := bitAt n 112, count := fld n 111 104, gid := fld n 103 80, bnum := fld n 79 48, aux := fld n 47 24 }

/-- A collective packet to a down group. What its DEP and SEP hold no rule says (R406). -/
def sendColl (s : State) (opc mc : Nat) (h : CollHdr) (data : List Byte) : State :=
  let bytes := bytesBE (packColl h) 16 ++ data
  let p : Packet :=
    { opc := opc, vc := 7, mc := true, dfna := mc, dep := s.free % 65536, sep := s.free / 65536 % 65536, len := bytes.length, payload := bytes }
  s.took.sendFrom portCP p

/-- Block numbers count modulo 2^32 (R400). -/
def bnumAdd (b n : Nat) : Nat := (b + n) % 2 ^ 32
def bnumDist (from' to' : Nat) : Nat := modSub (2 ^ 32) to' from'

/-! ### When a tree breaks (R410 to R414) -/

/-- A FLOOD or RESTART is sent, and will be sent twice more (R411, R413). -/
def startRepeat (s : State) (r opc mc : Nat) (h : CollHdr) : State :=
  let s1 := (sendColl s opc mc h []).count (if opc = 0x63 then 0x686 else 0x687) r
  s1.updRow r fun x => { x with repeats := x.repeats ++ [{ opc := opc, mc := mc, hdr := h, left := 2, at' := s.time.count }] }

/-- The header of a packet that carries no block; what fields it does not use hold no rule says (R394). -/
def noteHdr (s : State) (r kind tree bnum aux : Nat) : State × CollHdr :=
  (s.took, { kind := kind, dtype := s.free % 16, op := s.free / 16 % 16, lastb := s.free / 256 % 2 = 1, void := s.free / 512 % 2 = 1, tree := tree
             gid := cfgGid (collCfg s r), bnum := bnum, aux := aux })

/-- The root fixes B, and sends RESTART and the results that it keeps on the alternate tree (R413). -/
def rootRestart (s : State) (r : Nat) : State :=
  let v := collCfg s r
  let x := s.collRow r
  let b := x.next
  let kept := x.results.reverse.filter fun k => decide (1 ≤ bnumDist k.hdr.bnum b) && decide (bnumDist k.hdr.bnum b ≤ cfgW v)
  let h := noteHdr s r 4 1 b kept.length
  let s1 := startRepeat (h.1.updRow r fun x => { x with restart := some b }) r 0x62 (cfgDown v 1) h.2
  forEach s1 kept fun s k =>
    ((sendColl s 0x61 (cfgDown v 1) { k.hdr with replay := true, tree := 1 } k.data).count 0x688 r).count 0x683 r

/-- The first FLOOD of the tree in use at this router (R412). -/
def firstFlood (s : State) (r tree : Nat) : State :=
  let v := collCfg s r
  let x := s.collRow r
  if !rowHeld x.st ∨ x.tree ≠ tree ∨ bitAt x.flooded tree then s
  else
    let s1 := (discardBlocks s r tree).updRow r fun x =>
      { x with flooded := x.flooded + 2 ^ tree, ops := x.ops.map fun o => { o with broke := true } }
    if cfgRetry v ∧ cfgAltValid v ∧ tree = 0 ∧ x.st ≠ .switching then
      let s2 := collDue s1 r .switching 0
      if cfgRoot v then rootRestart s2 r else s2
    else collDue s1 r .broken 0x0D01

/-- A tree breaks at this router (R410, R411). -/
def treeBreaks (s : State) (r tree : Nat) : State :=
  let v := collCfg s r
  let x := s.collRow r
  if !cfgValid v ∨ !rowHeld x.st ∨ bitAt x.brokeHere tree ∨ (tree = 1 ∧ !cfgAltValid v) then s
  else
    let h := noteHdr s r 3 tree 0 (s.time.count % 2 ^ 24)
    let s1 := ((h.1.updRow r fun x => { x with brokeHere := x.brokeHere + 2 ^ tree }).raise 0x0D01 7 r).event Dict.COLL_EVENTS 0 0
    let s2 := startRepeat s1 r 0x63 (cfgDown v tree) h.2
    let s3 := if cfgAltValid v then startRepeat s2 r 0x63 (cfgDown v (1 - tree)) h.2 else s2
    firstFlood s3 r tree

/-- The row and the tree that an entry of a last with input or output CP serves (R388, R391). -/
def rowsOfEntry (s : State) (key : Nat) : List (Nat × Nat) :=
  let e := s.last key
  if e.outPort = 100 then [(fld e.outLabel 11 0, fld e.outLabel 12 12)]
  else if lastIn key = 100 then
    (List.range 4096).flatMap fun r =>
      let v := collCfg s r
      if !cfgValid v ∨ cfgRoot v then []
      else (if cfgUp v 0 = lastIndex key then [(r, 0)] else []) ++ (if cfgAltValid v && cfgUp v 1 = lastIndex key then [(r, 1)] else [])
  else []

/-- Signal records that reach CP: BROKEN, SUSPENDED and LOSS break the tree (R233, R410). -/
def collSignals (s : State) : State :=
  let l := s.lasts.cpSignals
  forEach (s.updLasts fun u => { u with cpSignals := [] }) l fun s g =>
    if [2, 3, 5, 0x11].contains g.2.event then forEach s (rowsOfEntry s g.1) fun s x => treeBreaks s x.1 x.2 else s

/-! ### Results at the member (R400, R404, R405, R407) -/

/-- The operation of a row that a block belongs to. -/
def opOfBlock (x : CollRow) (b : Nat) : Option CollOp := x.ops.find? fun o => decide (bnumDist o.first b < o.blocks)

/-- An operation has the RESULT of a block of its own. -/
def CollOp.has (o : CollOp) (b : Nat) : Bool := decide (bnumDist o.first b < o.low) || o.got.contains (bnumDist o.first b)

/-- A block's RESULT is marked received. -/
def CollOp.take (o : CollOp) (b : Nat) : CollOp :=
  let got := bnumDist o.first b :: o.got
  let n := ((List.range got.length).takeWhile fun i => got.contains (o.low + i)).length
  { o with low := o.low + n, got := got.filter fun i => o.low + n ≤ i }

/-- The state with an operation changed. -/
def updOp (s : State) (r entry : Nat) (f : CollOp → CollOp) : State :=
  s.updRow r fun x => { x with ops := x.ops.map fun o => if o.entry = entry then f o else o }

/-- RESULT of a COLL_START's completion (R407). -/
def CollOp.flags (o : CollOp) : Nat := b2n o.alt + 2 * b2n o.broke + put o.first 63 32

/-- An operation completes with a status, its writes observed first (R250, R407). -/
def endOp (s : State) (r : Nat) (o : CollOp) (status : Nat) : State :=
  let s1 := s.updRow r fun x => { x with ops := x.ops.filter fun y => y.entry ≠ o.entry }
  let s2 := if o.alt then s1.count 0x689 r else s1
  let left := o.tags.filter fun t => s.host.writes.any fun w => w.tag = t
  let reason := match o.fail with
    | some (st, re) => if st = status then failResult re 0 else 0
    | none => 0
  finishEntry s2 o.entry status o.wrote (o.flags + reason) left

/-- Bytes of a result are written, or wait for the translation of their place. -/
def writeResult (s : State) (r : Nat) (o : CollOp) (p : CollPart) : State :=
  if p.data.isEmpty then s
  else
    let a := accessBufs s [5, r, o.entry, p.off] o.pd .write [{ addr := o.raddr + p.off, len := p.data.length, key := o.rkey }]
    match a.2 with
    | .wait => updOp a.1 r o.entry fun o => { o with parts := o.parts ++ [p] }
    | .refused status reason => updOp a.1 r o.entry fun o => { o with fail := some (o.fail.getD (status, reason)) }
    | .ok gs =>
      let w := writeGrants a.1 gs p.data
      updOp w.1 r o.entry fun o => { o with wrote := o.wrote + p.data.length, tags := o.tags ++ w.2 }

/-- An operation whose last result has been taken up completes (R401, R404, R405). -/
def settleOp (s : State) (r entry : Nat) : State :=
  let x := s.collRow r
  match x.ops.find? fun o => o.entry = entry with
  | none => s
  | some o =>
    if o.low < o.blocks ∨ !o.parts.isEmpty then s
    else if o.void then endOp s r o 0x87
    else match o.fail with
      | some (status, _) => endOp s r o status
      | none =>
        if o.coll = 4 ∧ !(o.gathered && o.pieces.length = cfgMembers (collCfg s r)) then s else endOp s r o 0

/-- A piece of an all-gather goes to its place (R405). -/
def takePiece (s : State) (r : Nat) (o : CollOp) (midx : Nat) (data : List Byte) : State :=
  let s1 := updOp s r o.entry fun o => { o with pieces := o.pieces ++ [midx] }
  settleOp (if o.result then writeResult s1 r o { off := midx * o.len, data := data } else s1) r o.entry

/-- The member's own piece has been read: it is written, and sent to the others (R405). -/
def ownPiece (s : State) (r : Nat) (o : CollOp) (data : List Byte) : State :=
  let v := collCfg s r
  let h := noteHdr s r 5 (s.collRow r).tree o.first (cfgMidx v)
  let s1 := (sendColl h.1 0x64 (cfgDown v (s.collRow r).tree) { h.2 with count := 0 } data).count 0x68A r
  takePiece (updOp s1 r o.entry fun o => { o with gathered := true }) r o (cfgMidx v) data

/-- A member's piece is not to be had. -/
def noPiece (s : State) (r : Nat) (o : CollOp) (status reason : Nat) : State :=
  settleOp (updOp s r o.entry fun o => { o with fail := some (o.fail.getD (status, reason)) }) r o.entry

/-- The piece of an all-gather whose barrier is over is read (R405). -/
def readPiece (s : State) (r : Nat) (o : CollOp) : State :=
  match o.inl with
  | some d => ownPiece s r o d
  | none =>
    if o.len = 0 then ownPiece s r o []
    else
      let a := accessBufs s [6, r, o.first] o.pd .read [{ addr := o.laddr, len := o.len, key := o.lkey }]
      match a.2 with
      | .wait => a.1.updRow r fun x => { x with asks := x.asks ++ [o.first] }
      | .refused status reason => noPiece a.1 r o status reason
      | .ok gs => readGrants (a.1.updRow r fun x => { x with reading := x.reading ++ [o.first] }) (.collBlock r o.first) gs

/-- A VOID result is delivered (R401, R418, R419). -/
def noteVoid (s : State) : State := (s.raise 0x0D04).event Dict.COLL_EVENTS 0 5

/-- A RESULT reaches the member; one that it does not lack is ignored (R404, R414). -/
def memberResult (s : State) (r : Nat) (h : CollHdr) (data : List Byte) : State :=
  let x := s.collRow r
  match opOfBlock x h.bnum with
  | none => s
  | some o =>
    if o.has h.bnum then s
    else
      let i := bnumDist o.first h.bnum
      let s1 := updOp (s.count 0x684 r) r o.entry fun o =>
        { o.take h.bnum with void := o.void || h.void, alt := o.alt || (h.tree = 1 && !h.replay) }
      let s2 := if h.void then noteVoid s1 else s1
      let part : CollPart := { off := i * blockElems o.dtype * elemBytes o.dtype, data := resultBytes o.dtype data }
      let s3 := if o.result ∧ o.coll ≤ 2 ∧ !h.void then writeResult s2 r o part else s2
      if o.coll = 4 ∧ !h.void then readPiece s3 r o else settleOp s3 r o.entry

/-! ### Contributions (R393, R400, R401, R404) -/

/-- The header of the member's block. -/
def memberHdr (s : State) (r : Nat) (o : CollOp) (b kind count : Nat) (void : Bool) : CollHdr :=
  { kind := kind, dtype := o.dtype, op := o.op, tree := (s.collRow r).tree, lastb := decide (bnumDist o.first b + 1 = o.blocks), void := void
    count := count, gid := cfgGid (collCfg s r), bnum := b }

/-- The operation's member contributes elements (R404). -/
def CollOp.gives (o : CollOp) : Bool := decide (o.coll ≤ 1) || (o.coll = 2 && o.source)

/-- An input joins its block (R397). -/
def joinBlock (s : State) (r : Nat) (i : CollIn) : State :=
  s.updRow r fun x =>
    if x.blocks.any fun b => b.bnum = i.hdr.bnum then
      { x with blocks := x.blocks.map fun b => if b.bnum = i.hdr.bnum then { b with ins := b.ins ++ [i] } else b }
    else { x with blocks := x.blocks ++ [{ bnum := i.hdr.bnum, ins := [i] }] }

/-- The member's block is whole: its elements, or VOID (R401). -/
def memberBlock (s : State) (r : Nat) (o : CollOp) (b : Nat) (data : Option (List Byte)) : State :=
  match data with
  | some d =>
    let e := sourceElems o.dtype d
    joinBlock s r { port := 96, hdr := memberHdr s r o b 0 (e.length / elemBytes o.dtype) false, data := e }
  | none => joinBlock s r { port := 96, hdr := memberHdr s r o b 0 0 true }

/-- The part of the source buffer that a block carries. -/
def blockSource (o : CollOp) (b : Nat) : Nat × Nat :=
  let n := blockElems o.dtype * srcBytes o.dtype
  let off := bnumDist o.first b * n
  (off, min n (o.len - off))

/-- The member's block is made: at once, or its source is read (R400, R401, R404). -/
def contribute (s : State) (r : Nat) (o : CollOp) (b : Nat) : State :=
  let part := blockSource o b
  if !o.gives then joinBlock s r { port := 96, hdr := memberHdr s r o b 1 0 false }
  else match o.inl with
    | some d => memberBlock s r o b (some ((d.drop part.1).take part.2))
    | none =>
      if part.2 = 0 then memberBlock s r o b (some [])
      else
        let a := accessBufs s [6, r, b] o.pd .read [{ addr := o.laddr + part.1, len := part.2, key := o.lkey }]
        match a.2 with
        | .wait => a.1.updRow r fun x => { x with asks := x.asks ++ [b] }
        | .refused _ _ => memberBlock a.1 r o b none
        | .ok gs => readGrants (a.1.updRow r fun x => { x with reading := x.reading ++ [b] }) (.collBlock r b) gs

/-- The member lacks the RESULT of a block of an operation in flight. -/
def lacks (x : CollRow) (b : Nat) : Bool := x.ops.any fun o => decide (bnumDist o.first b < o.blocks) && !o.has b

/-- The member contributes the blocks that its window allows, at most fuel of them (R400). -/
def contributeRun (s : State) (r : Nat) : Nat → State
  | 0 => s
  | fuel + 1 =>
    let x := s.collRow r
    let b := x.memNext
    if x.st ≠ .ready ∨ x.due.isSome ∨ lacks x (modSub (2 ^ 32) b (cfgW (collCfg s r))) then s
    else match opOfBlock x b with
      | none => s
      | some o =>
        contributeRun (contribute (s.updRow r fun x => { x with memNext := bnumAdd b 1 }) r o b) r fuel

/-- A row's member goes on as far as it may. -/
def collPump (s : State) (r : Nat) : State := contributeRun s r (cfgW (collCfg s r))

/-- What waited for a translation is tried again. -/
def collRetry (s : State) (r : Nat) : State :=
  let x := s.collRow r
  let s1 := s.updRow r fun x => { x with asks := [], ops := x.ops.map fun o => { o with parts := [] } }
  let s2 := forEach s1 x.ops fun s o => settleOp (forEach s o.parts fun s p => writeResult s r o p) r o.entry
  forEach s2 x.asks fun s b =>
    match opOfBlock (s.collRow r) b with
    | some o => if o.coll = 4 then readPiece s r o else contribute s r o b
    | none => s

/-- The elements of a block, or the piece of an all-gather, have been read (R401, R405). -/
def collReturn (s : State) (r b : Nat) (data : List Byte) (bad : Bool) : State :=
  let x := s.collRow r
  if !x.reading.contains b then s
  else
    let s1 := s.updRow r fun x => { x with reading := x.reading.filter fun y => y ≠ b }
    match opOfBlock x b with
    | none => s1
    | some o =>
      if o.coll = 4 then (if bad then noPiece s1 r o 0x2B 0 else ownPiece s1 r o data)
      else memberBlock s1 r o b (if bad then none else some data)

/-! ### Submission (R402, R403) -/

/-- The arguments of a COLL_START (R402). -/
def argColl (e : Entry) : Nat := fld e.w5 31 28
def argDtype (e : Entry) : Nat := fld e.w5 27 24
def argOp (e : Entry) : Nat := fld e.w5 23 20
def argResult (e : Entry) : Bool := bitAt e.w5 19
def argSource (e : Entry) : Bool := bitAt e.w5 18
def argRow (e : Entry) : Nat := fld e.w5 11 0

/-- The arguments of an operation are allowed (R403). -/
def collArgsOk (e : Entry) : Bool :=
  let c := argColl e
  decide (c ≤ 4) && e.nsge = 0 &&
  (if c ≤ 1 then pairAllowed (argDtype e) (argOp e) else decide (argDtype e ≤ 6) && decide (argOp e = 15)) &&
  decide (e.len % srcBytes (argDtype e) = 0) && (c ≠ 3 || e.len = 0) && (c ≠ 4 || decide (e.len ≤ 4080))

/-- The status of the first of the checks on the row and the arguments that fails; 0 when none does (R403). -/
def collStatus (s : State) (e : Entry) : Nat :=
  let r := argRow e
  let v := collCfg s r
  let q := s.queue e.queue
  if !cfgValid v ∨ (s.collRow r).st = .idle then 0x81
  else if (s.collRow r).st = .broken then 0x80
  else if (s.collRow r).st = .failed then 0x85
  else if !cfgMember v ∨ cfgFunc v ≠ e.func ∨ cfgEp v ≠ q.ep then 0x82
  else if !collArgsOk e then 0x83
  else 0

/-- The operation that an entry describes. -/
def opOfEntry (s : State) (e : Entry) : CollOp :=
  let d := argDtype e
  let n := if argColl e ≤ 2 then (e.len / srcBytes d + blockElems d - 1) / blockElems d else 1
  { entry := e.id, coll := argColl e, dtype := d, op := argOp e, result := argResult e, source := argSource e, len := e.len, lkey := e.lkey
    laddr := e.laddr, inl := if e.inl then some e.inlineData else none, rkey := fld e.w5 63 32, raddr := e.w6, pd := (s.queue e.queue).pd
    func := e.func, first := (s.collRow (argRow e)).subNext, blocks := max 1 n, startAt := s.time.count }

/-- The bytes of an operation's result buffer (R396, R405). -/
def CollOp.resultLen (o : CollOp) (members : Nat) : Nat :=
  match o.coll with
  | 3 => 0
  | 4 => members * o.len
  | _ => if o.dtype = 6 then 2 * o.len else o.len

/-- COLL_START starts (R402, R403). -/
def collStart (s : State) (e : Entry) : State × Bool :=
  let r := argRow e
  let v := collStatus s e
  let o := opOfEntry s e
  if v ≠ 0 then (finishEntry s e.id v, true)
  else
    let src : List Sge := if e.inl ∨ !(o.gives || o.coll = 4) then [] else [{ addr := e.laddr, len := e.len, key := e.lkey }]
    let b := checkBufs s o.pd .read src
    match b.2 with
    | .wait => (b.1, false)
    | .refused status reason => (failEntry b.1 e.id status reason, true)
    | .ok =>
      let dst : List Sge := if o.result then [{ addr := o.raddr, len := o.resultLen (cfgMembers (collCfg s r)), key := o.rkey }] else []
      let b2 := checkBufs b.1 o.pd .write dst
      match b2.2 with
      | .wait => (b2.1, false)
      | .refused status reason => (failEntry b2.1 e.id status reason, true)
      | .ok =>
        let s1 := (b2.1.count 0x680 r).updRow r fun x => { x with subNext := bnumAdd x.subNext o.blocks, ops := x.ops ++ [o] }
        (collPump s1 r, true)

/-- COLL_START (R403). -/
def execCollStart (queue : Nat) (s : State) : Host.Outcome State Fault Refusal := startEntry s queue 1 [0x60] collStart

/-! ### Opening and closing (R390) -/

/-- Every operation in flight at the member completes. -/
def endOps (s : State) (r status : Nat) : State := forEach s (s.collRow r).ops fun s o => endOp s r o status

/-- A write with VALID = 1 is applied (R390). -/
def applyCollOpen (s : State) (r v : Nat) : State :=
  enterColl ((s.setReg Dict.COLL_GROUP r (v &&& collRwBits)).updRow r fun _ => {}) r .waiting 0

/-- A write with VALID = 0 is applied (R390). -/
def applyCollClose (s : State) (r v : Nat) : State :=
  let s1 := endOps s r 0x85
  let s2 := enterColl (s1.updRow r fun _ => {}) r .idle 0
  s2.setReg Dict.COLL_GROUP r (v &&& collRwBits)

/-- A row of COLL_GROUP is judged and applied. -/
def collGroupCheck (s : State) (r v : Nat) : Nat := if bitAt v 255 then collOpenCheck s r v else 0
def applyCollGroup (s : State) (r v : Nat) : State := if bitAt v 255 then applyCollOpen s r v else applyCollClose s r v

/-- COLL_GROUP_OPEN (R390). -/
def execCollGroupOpen (row value : Nat) (s : State) : Host.Outcome State Fault Refusal :=
  if 4096 ≤ row then .fault .noSuchRow
  else judged s (collOpenCheck s row (value ||| 2 ^ 255)) (applyCollOpen s row (value ||| 2 ^ 255))

/-- COLL_GROUP_CLOSE (R390). -/
def execCollGroupClose (row value : Nat) (s : State) : Host.Outcome State Fault Refusal :=
  if 4096 ≤ row then .fault .noSuchRow
  else judged s 0 (applyCollClose s row (clearBits value (2 ^ 255)))

/-! ### Chunks and combination (R391, R397 to R401) -/

/-- A child's block is whole. One outside the window, or whose place is taken, is discarded and breaks the tree (R400). -/
def childBlock (s : State) (r port : Nat) (bytes : List Byte) : State :=
  let v := collCfg s r
  let x := s.collRow r
  let h := unpackColl (natBE (bytes.take 16))
  let data := (bytes.drop 16).take (h.count * elemBytes h.dtype)
  if 1 < h.kind ∨ h.gid ≠ cfgGid v ∨ h.tree ≠ x.tree then s.count 0x68B r
  else if x.restart.any (fun b => decide (2 ^ 31 ≤ bnumDist b h.bnum)) then s.count 0x68B r
  else if cfgW v ≤ bnumDist x.next h.bnum ∨ x.blocks.any (fun b => b.bnum = h.bnum && b.ins.any fun i => i.port = port) then
    treeBreaks ((s.count 0x68B r).raise 0x0D06) r x.tree
  else joinBlock s r { port := port, hdr := h, data := data }

/-- A chunk reaches CP; a BAD one is a loss (R227, R391, R393). -/
def cpChunk (s : State) (key : Nat) (c : Chunk) : State :=
  let e := s.last key
  let r := fld e.outLabel 11 0
  let x := s.collRow r
  if !cfgValid (collCfg s r) ∨ fld e.outLabel 12 12 ≠ x.tree ∨ bitAt x.flooded x.tree then s.count 0x68B r
  else if c.bad then treeBreaks (chunkLost s (lastIn key)) r x.tree
  else
    let parts := tget [] x.chunks key ++ [c.data]
    if bitAt c.tag 7 ∨ parts.length = 8 then
      childBlock (s.updRow r fun x => { x with chunks := tset [] x.chunks key [] }) r (lastIn key) (parts.flatMap fun d => bytesBE d 56)
    else s.updRow r fun x => { x with chunks := tset [] x.chunks key parts }

/-- CP_CHUNK_ARRIVE: the oldest chunk on its way to CP reaches the engine (R397). -/
def execCpChunkArrive (s : State) : Host.Outcome State Fault Refusal :=
  match s.lasts.toCp with
  | [] => .next s
  | (key, c) :: rest => .next (cpChunk (s.updLasts fun u => { u with toCp := rest }) key c)

/-- LAST_SIGNAL_RECEIVE: the records of a LAST_SIGNAL flit (R233). -/
def execLastSignalReceive (port : Nat) (records : List SigRec) (s : State) : Host.Outcome State Fault Refusal :=
  onPort port (collSignals (forEach s records fun s r => signalIn s port r))

/-- Inputs in ascending order of arrival port (R397). -/
def byPort (l : List CollIn) : List CollIn := (List.range 97).flatMap fun p => l.filter fun i => i.port = p

/-- Two DATA inputs agree (R401). -/
def sameShape (a b : CollHdr) : Bool := a.dtype = b.dtype && a.op = b.op && a.count = b.count && a.lastb = b.lastb

/-- The block that the inputs of one make (R397, R401). -/
def combine (ins : List CollIn) (tree : Nat) : CollIn :=
  let l := byPort ins
  let datas := l.filter fun i => i.hdr.kind = 0
  match datas with
  | [] =>
    let h := (l.head?.map (·.hdr)).getD {}
    { hdr := { h with kind := 1, tree := tree, void := l.any fun i => i.hdr.void, count := 0, aux := 0, replay := false } }
  | d :: rest =>
    let void := l.any (fun i => i.hdr.void) || !(rest.all fun i => sameShape d.hdr i.hdr) || (d.hdr.op = 15 && !rest.isEmpty)
    let data := rest.foldl (fun acc i => blockStep d.hdr.dtype d.hdr.op acc i.data) d.data
    { hdr := { d.hdr with tree := tree, void := void, count := if void then 0 else d.hdr.count, aux := 0, replay := false }
      data := if void then [] else data }

/-- A block's chunks wait in the up entry for its reserved positions (R393, R398). -/
def sendUp (s : State) (r : Nat) (b : CollIn) : State :=
  let bytes := bytesBE (packColl b.hdr) 16 ++ b.data
  let n := (bytes.length + 55) / 56
  let chunks := (List.range n).map fun i =>
    let d := (bytes.drop (56 * i)).take 56
    ({ tag := packTag 0 0 0 (decide (i + 1 = n)) 0 false, data := natBE (d ++ List.replicate (56 - d.length) 0), at' := s.time.count } : Chunk)
  s.updLast (409600 + cfgUp (collCfg s r) b.hdr.tree) fun e => { e with queue := e.queue ++ chunks }

/-- The root sends a result down and keeps it; its own member takes it (R397, R400, R401). -/
def sendDown (s : State) (r : Nat) (b : CollIn) : State :=
  let v := collCfg s r
  let h : CollHdr := { b.hdr with kind := 2 }
  let s1 := (sendColl s 0x61 (cfgDown v h.tree) h b.data).count 0x683 r
  let s2 := s1.updRow r fun x => { x with results := pushLog (cfgW v) { b with hdr := h } x.results }
  let s3 := if h.void ∧ !cfgMember v then s2.raise 0x0D04 else s2
  if cfgMember v then collPump (memberResult s3 r h b.data) r else s3

/-- The inputs that a block needs (R397). -/
def inputsWanted (v tree : Nat) : Nat := cfgChildren v tree + b2n (cfgMember v)

/-- BLOCK_COMBINE_DONE: the combination of a row's next block, all of whose inputs are present, is over (R398). -/
def execBlockCombineDone (row : Nat) (s : State) : Host.Outcome State Fault Refusal :=
  let v := collCfg s row
  let x := s.collRow row
  if 4096 ≤ row then .fault .noSuchRow
  else match x.blocks.find? fun b => b.bnum = x.next with
    | none => .next s
    | some b =>
      if x.st ≠ .ready ∨ x.due.isSome ∨ b.ins.length < inputsWanted v x.tree then .next s
      else
        let out := combine b.ins x.tree
        let steps := (b.ins.filter fun i => i.hdr.kind = 0).length - 1
        let s1 := (s.updRow row fun x =>
          { x with next := bnumAdd x.next 1, blocks := x.blocks.filter fun y => y.bnum ≠ b.bnum }).count 0x681 row
        let s2 := if steps = 0 then s1 else s1.count 0x682 row steps
        .next (if cfgRoot v then sendDown s2 row out else sendUp s2 row out)

/-! ### Packets (R404 to R406, R411 to R414) -/

/-- The packet at the head of CP's deliveries, if it has the OPC, for the row of its group. -/
def takeColl (s : State) (opc : Nat) (f : State → Nat → CollHdr → List Byte → State) : Host.Outcome State Fault Refusal :=
  match deliveredHead s 100 opc with
  | none => .next s
  | some d =>
    let h := unpackColl (natBE (d.pkt.payload.take 16))
    let s1 := takeDelivered s 100
    .next (match collRowOf s1 h.gid with
      | some r => f s1 r h (d.pkt.payload.drop 16)
      | none => (s1.count 0x68B noInst).raise 0x0D08)

/-- RESULT_RECEIVE (R404). -/
def execResultReceive (s : State) : Host.Outcome State Fault Refusal :=
  takeColl s 0x61 fun s r h data => if cfgMember (collCfg s r) then collPump (memberResult s r h data) r else s

/-- PIECE_RECEIVE (R405). -/
def execPieceReceive (s : State) : Host.Outcome State Fault Refusal :=
  takeColl s 0x64 fun s r h data =>
    let s1 := s.count 0x68A r
    match (s.collRow r).ops.find? fun o => o.coll = 4 && o.first = h.bnum with
    | some o => if o.pieces.contains (h.aux % 2 ^ 17) then s1 else takePiece s1 r o (h.aux % 2 ^ 17) (data.take o.len)
    | none => s1

/-- FLOOD_RECEIVE (R411, R412). -/
def execFloodReceive (s : State) : Host.Outcome State Fault Refusal := takeColl s 0x63 fun s r h _ => firstFlood s r h.tree

/-- RESTART_RECEIVE (R414). -/
def execRestartReceive (s : State) : Host.Outcome State Fault Refusal :=
  takeColl s 0x62 fun s r h _ =>
    let x := s.collRow r
    let switching := x.st = .switching || x.due.any fun d => d.1 = .switching
    if !switching ∨ x.restart.isSome ∨ cfgRoot (collCfg s r) then s
    else s.updRow r fun x => { x with restart := some h.bnum }

/-- FLOOD_REPEAT: the FLOODs and RESTARTs of a row sent 16 st ago are sent again, three times in all (R411, R413). -/
def execFloodRepeat (row : Nat) (s : State) : Host.Outcome State Fault Refusal :=
  if 4096 ≤ row then .fault .noSuchRow
  else
    let isDue (k : CollRepeat) : Bool := decide (k.at' + 16 ≤ s.time.count)
    let l := (s.collRow row).repeats
    let s1 := s.updRow row fun x =>
      { x with repeats := (x.repeats.map fun k => if isDue k then { k with left := k.left - 1, at' := s.time.count } else k).filter fun k => k.left ≠ 0 }
    .next (forEach s1 (l.filter isDue) fun s k => (sendColl s k.opc k.mc k.hdr []).count (if k.opc = 0x63 then 0x686 else 0x687) row)

/-- RESTART_WAIT_TIMEOUT: a router in Switching has no RESTART (R415). -/
def execRestartWaitTimeout (row : Nat) (s : State) : Host.Outcome State Fault Refusal :=
  let x := s.collRow row
  if 4096 ≤ row then .fault .noSuchRow
  else .next (if x.st = .switching ∧ x.due.isNone ∧ x.restart.isNone ∧ x.switchAt + s.reg Dict.COLL_RESTART_WAIT_ST ≤ s.time.count then
      collDue (s.raise 0x0D02) row .broken 0x0D02 else s)

/-- COLL_OP_TIMEOUT: the oldest operation of a row is not complete within COLL_OP_TIMEOUT_ST (R405, R415). -/
def execCollOpTimeout (row : Nat) (s : State) : Host.Outcome State Fault Refusal :=
  let x := s.collRow row
  if 4096 ≤ row then .fault .noSuchRow
  else match x.ops.find? fun o => decide (o.startAt + s.reg Dict.COLL_OP_TIMEOUT_ST ≤ s.time.count) with
    | none => .next s
    | some o =>
      if o.coll = 4 ∧ o.blocks ≤ o.low then .next (endOp (s.raise 0x0D07) row o 0x86)
      else
        .next (collDue ((endOp (s.raise 0x0D03 7 row) row o 0x84).event Dict.COLL_EVENTS 0 3) row .failed 0x0D03)

/-! ### Boundaries (R391, R392, R410) -/

/-- A row's due state takes effect (R392, R412 to R415). -/
def collEnter (s : State) (r : Nat) : State :=
  match (s.collRow r).due with
  | none => s
  | some (st, code) =>
    let s1 := enterColl s r st code
    match st with
    | .switching => s1.updRow r fun x => { x with switchAt := s.time.count }
    | .broken => (endOps (discardBlocks s1 r (s1.collRow r).tree) r 0x80).event Dict.COLL_EVENTS 0 2
    | .failed => (endOps (discardBlocks s1 r (s1.collRow r).tree) r 0x85).event Dict.COLL_EVENTS 0 4
    | _ => s1

/-- A router in Switching that has its RESTART goes over to the alternate tree, and its member sends again from B on (R413, R414, R419). -/
def collTurn (s : State) (r : Nat) : State :=
  let x := s.collRow r
  match x.restart with
  | some b => if x.st = .switching ∧ x.tree = 0 then
      (s.updRow r fun x => { x with tree := 1, next := b, memNext := b, blocks := [], chunks := [], asks := [], reading := [] }).event
        Dict.COLL_EVENTS 0 1
    else s
  | none => s

/-- What the tree in use needs stands (R392). -/
def treeReady (s : State) (r : Nat) : Bool :=
  let v := collCfg s r
  let t := (s.collRow r).tree
  let children := s.lasts.entries.filter fun c => c.2.outPort = 100 && c.2.outLabel = r + 4096 * t && c.2.st = .active
  (cfgRoot v || (s.last (409600 + cfgUp v t)).isOpen) && decide (children.length = cfgChildren v t)

/-- The readiness of a row at a frame boundary (R392). -/
def collReady (s : State) (r : Nat) : State :=
  let x := s.collRow r
  let may := x.st = .waiting || (x.st = .switching && x.restart.isSome)
  if may && x.due.isNone && treeReady s r then collPump (enterColl s r .ready 0) r else s

/-- An entry with input or output CP has left Active: closed, the row waits again; otherwise its tree breaks (R392, R410). -/
def entryGone (s : State) (key : Nat) : State :=
  let closed := (s.last key).st = .closing || (s.last key).st = .empty || (s.last key).st = .written || (s.last key).st = .refused
  forEach s (rowsOfEntry s key) fun s x =>
    if closed then
      (if (s.collRow x.1).st = .ready ∧ (s.collRow x.1).tree = x.2 ∧ (s.collRow x.1).due.isNone then collDue s x.1 .waiting 0 else s)
    else treeBreaks s x.1 x.2

/-- Entries with output CP become READY when their row is VALID (R391). -/
def cpReady (s : State) (key : Nat) : State :=
  let e := s.last key
  if e.outPort = 100 ∧ e.st = .active ∧ !e.ready ∧ cfgValid (collCfg s (fld e.outLabel 11 0)) then becomeReady s key s.time.count else s

/-- The entries of lasts with input or output CP. -/
def cpKeys (s : State) : List Nat :=
  (s.lasts.entries.filter fun c => c.2.outPort = 100 || lastIn c.1 = 100).map (·.1)

/-- A block of a row waits for an input (R419). -/
def blockWaits (s : State) (r : Nat) : Bool :=
  (s.collRow r).blocks.any fun b => decide (b.ins.length < inputsWanted (collCfg s r) (s.collRow r).tree)

/-- The collective engine at a boundary. -/
def collBoundary (s : State) (frame : Bool) : State :=
  let gone := s.coll.active.filter fun k => (s.last k).st ≠ .active
  let s1 := forEach (collSignals s) gone entryGone
  let rows := s1.coll.rows.map (·.1)
  let s2 := forEach s1 rows fun s r => collTurn (collEnter s r) r
  let s3 := forEach s2 (cpKeys s2) cpReady
  let s4 := s3.updColl fun u => { u with active := (cpKeys s3).filter fun k => (s3.last k).st = .active }
  let s5 := if frame then forEach s4 rows collReady else s4
  forEach s5 rows fun s r => if blockWaits s r then s.count 0x685 r else s

/-- A function reset ends its member's work: the rows fail, and no completion is written (R256, R261, R392). -/
def collReset (s : State) (func : Nat) : State :=
  forEach s (s.coll.rows.map (·.1)) fun s r =>
    if cfgMember (collCfg s r) ∧ cfgFunc (collCfg s r) = func then
      let s1 := s.updRow r fun x => { x with ops := [], asks := [], reading := [] }
      if rowHeld (s.collRow r).st then collDue s1 r .failed 0 else s1
    else s

/-- The values of the collective objects (R417). -/
def collView (s : State) (id row : Nat) : Option Nat :=
  match id with
  | 0x0D0000 => some (collRowRead s row)
  | 0x0D0001 => some (collViewRow s row)
  | 0x0D0002 => some (collBlocksFree s)
  | 0x0D0200 => some (rowOf 0 s.coll.log row)
  | _ => none

end Sys2Proof.Machine
end

