-- ==== Sys2Proof/Machine/Sem.lean ====
section
/-!
DEFINITION. The commands of the semaphore bank: operations from its three routes (R421 to R431), its work at a boundary (R420), the
consumer index of an event ring (R433) and the parity error of a semaphore (R448).
-/
namespace Sys2Proof.Machine

/-- The OP field of SEM_OP as an operation (R428); none for 0. -/
def pageVerb (op : Nat) : Option SemVerb :=
  match op with
  | 1 => some .acquire | 2 => some .try | 3 => some .release | _ => none

/-- A page operation is dropped (R430). -/
def pageDrop (s : State) (func : Nat) : State := ((s.count 0x706).raise 0x0E04 3 func).event Dict.SEM_EVENTS 0 3

/-- A write to SEM_OP of the page of a function's agent (R428, R430). -/
def pageWrite (s : State) (func agent word : Nat) : State :=
  match pageVerb (fld word 31 30) with
  | none => s
  | some v =>
    let p := tget {} s.sem.pages (pageKey func agent)
    if p.pending ∨ fld word 25 24 ≠ 0 ∨ fld word 15 12 ≠ 0 then pageDrop s func
    else
      semSubmit (updPage s func agent fun p =>
          { p with pending := true, status := 0, tag := fld word 23 16, sem := fld word 11 0 })
        { verb := v, who := .h func agent, sem := fld word 11 0, prio := if v = .release then 0 else fld word 28 26
          notify := bitAt word 29 && decide (v = .acquire), tag := fld word 23 16 }

/-- An operation reaches the bank by one of its routes (R421). -/
def semRoute (s : State) (verb : SemVerb) (src : SemSource) : State :=
  match src with
  | .page func agent word =>
    if pageVerb (fld word 31 30) = some verb then stateAfter (mmio s func (pageWrite s func agent word)) s else s
  | .mport => acceptFront s (match verb with | .acquire => 4 | .try => 5 | .release => 6)
  | .core core agent prio sem => if bitAt s.exe.halted core then s
    else semSubmit s { verb := verb, who := .k core agent, sem := sem, prio := prio }

/-- The outcome of an operation's command: a source that does not exist stops. -/
def semCommand (s : State) (verb : SemVerb) (src : SemSource) : Host.Outcome State Fault Refusal :=
  match src with
  | .page func agent _ => if 1024 ≤ func ∨ 4096 ≤ agent then .fault .noSuchFunction else .next (semRoute s verb src)
  | .mport => .next (semRoute s verb src)
  | .core core _ prio sem =>
    if 8 ≤ core then .fault .noSuchCore
    else if 4096 ≤ sem ∨ 8 ≤ prio then .fault .noSuchSemaphore else .next (semRoute s verb src)

/-- EVR_CONSUMER is written: the index moves when R294 accepts it, and the ring is armed; VECTOR is sent at once when records
remain (R433). -/
def evrConsumer (s : State) (func value : Nat) : State :=
  let n := 2 ^ fld (s.reg Dict.SEM_EVRING func) 111 108
  let r := tget {} s.sem.rings func
  let cons := if consumerOk n r.cons r.prod value then value else r.cons
  let s1 := s.updSem fun u => { u with rings := tupd {} u.rings func fun r => { r with cons := cons, armed := true } }
  if cons = r.prod then s1 else evSendVector s1 func

/-- A row of SEM_EVRING is judged: its ring must lie in a window with W (R433). -/
def evringCheck (s : State) (func v : Nat) : Nat :=
  if fld v 111 108 < 6 then 6
  else if fld v 96 87 ≠ 0 ∧ (fld v 96 87 < 400 ∨ 1019 < fld v 96 87) then 6
  else if windowOk s func (fld v 51 0 * 4096) (64 * 2 ^ fld v 111 108) true then 0 else 6

/-- A row of SEM_EVRING applied: both indices of its ring return to 0 (R433). -/
def applyEvring (s : State) (func : Nat) : State :=
  s.updSem fun u => { u with rings := tupd {} u.rings func fun r => { r with prod := 0, cons := 0 } }

/-! ### Commands -/

/-- SEM_ACQUIRE: an acquire reaches the bank (R421, R423). -/
def execSemAcquire (src : SemSource) (s : State) : Host.Outcome State Fault Refusal := semCommand s .acquire src

/-- SEM_TRY: a try reaches the bank (R421, R423). -/
def execSemTry (src : SemSource) (s : State) : Host.Outcome State Fault Refusal := semCommand s .try src

/-- SEM_RELEASE: a release reaches the bank (R421, R423). -/
def execSemRelease (src : SemSource) (s : State) : Host.Outcome State Fault Refusal := semCommand s .release src

/-- SEM_BANK_PERFORM: the bank performs what the boundary's budget still lets it perform (R420). -/
def execSemBankPerform (s : State) : Host.Outcome State Fault Refusal := .next (semBank s)

/-- EVR_CONSUMER_WRITE: the driver's consumer index of a function's event ring (R433). -/
def execEvrConsumerWrite (func value : Nat) (s : State) : Host.Outcome State Fault Refusal :=
  mmio s func (evrConsumer s func value)

/-- SEM_STATE_PARITY_ERROR: the semaphore is treated as if its owner's master had reset (R448). -/
def execSemStateParityError (sem : Nat) (s : State) : Host.Outcome State Fault Refusal :=
  if 4096 ≤ sem then .fault .noSuchSemaphore
  else .next ((if (semOf s sem).st = .held then semPassOn s sem true else s).raise 0x0E07 8 sem)

end Sys2Proof.Machine
end

