-- ==== Sys2Proof/Machine/HostDone.lean ====
section
/-!
DEFINITION. What follows when host memory answers (R248, R250): the data of a read goes to the unit that asked, a write that has been observed
releases what waited for it, and operations that waited for a check are tried again; page-table walks and spill searches; and the management
requests of a function (R65).
-/
namespace Sys2Proof.Machine

/-! ### What waits is tried again -/

/-- The operation of a queue that has begun and waits is started again (R286). -/
def retryStart (s : State) (g : Nat) : State :=
  match startable (s.queue g).order with
  | none => s
  | some e =>
    if !e.begun then s
    else if e.kind = 0 then
      match e.opc with
      | 1 => startWith s g 0 [1] startPut
      | 2 => startWith s g 0 [2] startGetEntry
      | 3 => startWith s g 0 [3] startSend
      | _ => s
    else match e.opc with
      | 0x40 => startWith s g 1 [0x40] recvPost
      | 0x41 => startWith s g 1 [0x41] recvCancel
      | 0x42 => startWith s g 1 [0x42] (probe false)
      | 0x43 => startWith s g 1 [0x43] (probe true)
      | 0x44 => startWith s g 1 [0x44] mrecv
      | 0x60 => startWith s g 1 [0x60] collStart
      | opc => startWith s g 1 [opc] (startSeg opc)

/-- A context goes on: its packet's buffers are looked at again, it sends what it may, and it closes when it is asked to and idle. -/
def retryCtx (s : State) (key : Nat) : State := closeIdle (pump (workPrep s key) key) key

/-- The copies from pool slots whose buffers waited for a translation. -/
def retryRecvs (s : State) : State :=
  forEach s (s.mtch.recvs.filter fun r => r.data.isSome) fun s r => poolWrite s r (r.data.getD [])

/-- Everything that waits for a check, a translation or room is tried again, in the order of the chapters. -/
def resumeAll (s : State) : State :=
  let s1 := forEach s (s.queues.qs.map (·.1)) retryStart
  let s2 := retryResponses (retryParked s1)
  let s3 := retryRecvs (forEach s2 (s2.rma.req.map (·.1)) retryCtx)
  let s4 := forEach s3 (s3.coll.rows.map (·.1)) collRetry
  s4.updTrans fun t => { t with fails := [] }

/-! ### Management requests of a function (R65) -/

/-- SEQ and LEN of an access record as a packet carries it (R47, R50). -/
def recordSeq (rec' : List Byte) : Nat := fld (natBE (rec'.take 16)) 119 112
def recordLen (rec' : List Byte) : Nat := fld (natBE (rec'.take 16)) 15 0

/-- A management entry keeps the rules that need no record. -/
def mgmtFormOk (e : Entry) : Bool :=
  decide (e.dep = 0xFFFF) && decide (16 ≤ e.len) && decide (e.len ≤ 4096) && decide (fld e.w6 31 0 = 0) && decide (e.w7 = 0) && decide (e.nsge = 0)

/-- The head of a queue is consumed and completes at once with a status. -/
def mgmtEnds (s : State) (g : Nat) (e : Entry) (n status reason : Nat) : State :=
  let id := s.queues.nextId
  failEntry (consume s g { e with begun := true, started := true } n) id status reason

/-- The first free management slot. -/
def freeMgmtSlot (s : State) : Option Nat := (List.range 256).find? fun i => (tget none s.ctl.slots i).isNone

/-- A slot is held for an endpoint, a node and a SEQ. -/
def slotFor (s : State) (ep dfna seq : Nat) : Option (Nat × MgmtSlot) :=
  s.ctl.slots.findSome? fun c => c.2.bind fun m => if m.endpoint = ep ∧ m.dfna = dfna ∧ m.seq = seq then some (c.1, m) else none

/-- The packet of a management request. -/
def mgmtPacket (s : State) (g : Nat) (e : Entry) (rec' : List Byte) : State :=
  let q := s.queue g
  let p : Packet :=
    { opc := 0xF0, vc := 3, priv := true, dfna := e.dfna, dep := 0xFFFF, sep := q.ep, len := rec'.length, payload := rec' }
  s.inject (96 + fld (s.reg Dict.SW_INJ_GROUP q.igroup) 126 125) { pkt := p, group := some q.igroup, label := e.flow }

/-- A management entry whose record is at hand takes its slot and leaves, or waits at the head of its queue. -/
def mgmtGo (s : State) (g : Nat) (e : Entry) (n : Nat) (rec' : List Byte) : State :=
  let q := s.queue g
  if e.len ≠ 16 + recordLen rec' then mgmtEnds s g e n 0x2A 0
  else
    let b := checkBufs s q.pd .write [{ addr := e.w5, len := 4096, key := fld e.w6 63 32 }]
    match b.2 with
    | .wait => b.1
    | .refused _ reason => mgmtEnds b.1 g e n 0x2A reason
    | .ok =>
      match freeMgmtSlot b.1 with
      | none => b.1
      | some i =>
        if (slotFor b.1 q.ep e.dfna (recordSeq rec')).isSome then b.1
        else
          let id := b.1.queues.nextId
          let s1 := consume (mgmtPacket b.1 g e rec') g { e with begun := true, started := true } n
          let m : MgmtSlot :=
            { queue := g, func := q.func, endpoint := q.ep, dfna := e.dfna, seq := recordSeq rec', bufAddr := e.w5, bufKey := fld e.w6 63 32
              entryIdx := id, sentAt := s.time.count }
          { s1 with ctl := { s1.ctl with slots := tset none s1.ctl.slots i (some m) } }

/-- The record of a management entry at the head is read. -/
def mgmtRead (s : State) (g : Nat) (e : Entry) (n : Nat) : State :=
  let a := accessBufs s [7, g] (s.queue g).pd .read [{ addr := e.laddr, len := e.len, key := e.lkey }]
  match a.2 with
  | .wait => a.1
  | .refused status reason => mgmtEnds a.1 g e n status reason
  | .ok gs => readGrants (a.1.updQueue g fun q => { q with recordAsked := true }) (.mgmtRecord g 0) gs

/-- The record has come; a poisoned read fails the entry (R324). -/
def mgmtReturn (s : State) (g : Nat) (data : List Byte) (bad : Bool) : State :=
  if !(s.queue g).recordAsked ∨ (s.queue g).st ≠ .running then s
  else if !bad then s.updQueue g fun q => { q with record := some data }
  else match checkedHead s g with
    | (s1, some (e, n)) => mgmtEnds s1 g e n 0x2B 0
    | (s1, none) => s1

/-- A fence of the queue is still to be completed (R310). -/
def fenceAhead (q : Queue) : Bool := q.order.any fun e => e.kind = 1 && e.opc = 0x10

/-- MGMT_ENTRY: a work entry with OPC 0xF0 at the head of a queue whose turn it is (R65, R286). -/
def execMgmtEntry (queue : Nat) (s : State) : Host.Outcome State Fault Refusal :=
  if 1048576 ≤ queue then .fault .noSuchQueue
  else
    let grp := (s.queue queue).igroup
    let s1 := noteStage s grp
    if stageHolds s grp ∨ turnOf s1 true grp ≠ some queue ∨ fenceAhead (s.queue queue) then .next s1
    else
      let r := checkedHead (served s1 queue) queue
      .next (match r.2 with
        | none => r.1
        | some (e, n) =>
          if !mgmtFormOk e then mgmtEnds r.1 queue e n 0x2A 0
          else if e.inl then mgmtGo r.1 queue e n e.inlineData
          else match (r.1.queue queue).record with
            | some d => mgmtGo r.1 queue e n d
            | none => if (r.1.queue queue).recordAsked then r.1 else mgmtRead r.1 queue e n)

/-- A slot is free again. -/
def dropSlot (s : State) (i : Nat) : State := { s with ctl := { s.ctl with slots := tset none s.ctl.slots i none } }

/-- A response for a held slot: written whole to the buffer; one that is not Queued completes the entry. It waits while its buffer's translation
does. -/
def mgmtAnswer (s : State) (port i : Nat) (m : MgmtSlot) (payload : List Byte) : State :=
  let status := fld (natBE (payload.take 16)) 111 104
  let data := payload.take 4096
  let a := accessBufs s [8, i] (s.queue m.queue).pd .write [{ addr := m.bufAddr, len := data.length, key := m.bufKey }]
  match a.2 with
  | .wait => a.1
  | .refused st reason => dropSlot (failEntry (takeDelivered a.1 port) m.entryIdx st reason) i
  | .ok gs =>
    let w := writeGrants a.1 gs data
    let s1 := takeDelivered w.1 port
    if status = 0x13 then s1 else dropSlot (finishEntry s1 m.entryIdx 0 data.length status w.2) i

/-- MGMT_RESPONSE_PACKET: an OPC 0xF1 packet answers a held slot, or is a stray (R65). -/
def execMgmtResponsePacket (port : Nat) (s : State) : Host.Outcome State Fault Refusal :=
  if port < 96 ∨ 101 < port then .fault .noSuchPort
  else match deliveredHead s port 0xF1 with
    | none => .next s
    | some d =>
      .next (match slotFor s d.pkt.dep d.pkt.sfna (recordSeq d.pkt.payload) with
        | some (i, m) => mgmtAnswer s port i m d.pkt.payload
        | none => (takeDelivered s port).count 0x088)

/-- MGMT_SLOT_TIMEOUT: a slot without a final response after CTL_HOST_MGMT_TIMEOUT_ST (R65). -/
def execMgmtSlotTimeout (slot : Nat) (s : State) : Host.Outcome State Fault Refusal :=
  if 256 ≤ slot then .fault .noSuchRow
  else .next (match tget none s.ctl.slots slot with
    | some m =>
      if m.sentAt + s.reg Dict.CTL_HOST_MGMT_TIMEOUT_ST ≤ s.time.count then dropSlot (finishEntry s m.entryIdx 0x2C) slot else s
    | none => s)

/-! ### Reads (R248) -/

/-- The data of a read goes to the unit that asked; a read of several pieces is passed on by its gather. -/
def deliverRead (s : State) (why : ReadFor) (data : List Byte) (bad : Bool) : State :=
  match why with
  | .unit g i n => unitsReturn s g i n data bad
  | .queueCtx g => queueCtxReturn s g bad
  | .payload key => payloadReturn s key data bad
  | .getData job part => getReturn s job part data bad
  | .atomicLine job => atomicReturn s job data bad
  | .mgmtRecord g _ => mgmtReturn s g data bad
  | .lastRing r i => recordArrived s r i (natBE data) bad
  | .collBlock r b => collReturn s r b data bad
  | .poolCopy id => poolReturn s id data bad
  | .segDesc i => resumeAll (descReturn s i bad)
  | .adLine seg base => resumeAll (adReturn s seg base data bad)
  | .watch _ | .walkLine _ | .part _ | .nobody => s

/-- One piece of a gather has come; the last one passes the whole on. -/
def gatherPiece (s : State) (tag id : Nat) (data : List Byte) (bad : Bool) : State :=
  match s.host.gathers.find? fun g => g.id = id with
  | none => s
  | some g =>
    let g1 : Gather := { g with parts := g.parts.map (fun p => if p.1 = tag then (tag, some data) else p), bad := g.bad || bad }
    if g1.parts.all fun p => p.2.isSome then
      deliverRead (s.updHost fun h => { h with gathers := h.gathers.filter fun x => x.id ≠ id }) g1.why
        (g1.parts.flatMap fun p => p.2.getD []) g1.bad
    else s.updHost fun h => { h with gathers := h.gathers.map fun x => if x.id = id then g1 else x }

/-- Data of the length that was asked for. -/
def fitData (n : Nat) (data : List Byte) : List Byte := (data ++ List.replicate n 0).take n

/-- A read that has its data is no longer outstanding. -/
def endRead (s : State) (tag : Nat) : State := s.updHost fun h => { h with reads := h.reads.filter fun r => r.tag ≠ tag }

/-- HOST_READ_COMPLETE: data returns, possibly poisoned. Page-table lines and watched lines return by commands of their own (R345, R252). -/
def execHostReadComplete (tag : Nat) (data : List Byte) (bad : Bool) (s : State) : Host.Outcome State Fault Refusal :=
  match s.host.reads.find? fun r => r.tag = tag with
  | none => .next s
  | some r =>
    let d := fitData r.len data
    match r.why with
    | .watch _ | .walkLine _ => .next s
    | .part id => .next (gatherPiece (endRead s tag) tag id d bad)
    | why => .next (deliverRead (endRead s tag) why d bad)

/-! ### Writes (R250) -/

/-- What waited for writes that have all been observed is done. -/
def runDeferred (s : State) (d : Deferred) : State :=
  match d with
  | .ringVector g => ringVector s g
  | .evVector f => evSendVector s f
  | .arrival ring unit => writeOwed s ring unit
  | .slotFree ep slot => freeSlot s ep slot
  | .nothing => s

/-- A write has been observed: what it alone held back goes on. -/
def writeObserved (s : State) (tag : Nat) : State :=
  let s1 := s.updHost fun h => { h with writes := h.writes.filter fun w => w.tag ≠ tag }
  let gs := (s1.queues.qs.filter fun c => c.2.order.any fun e => e.tags.contains tag).map (·.1)
  let s2 := forEach s1 gs fun s g => flushQueue (s.updQueue g fun q => { q with order := q.order.map fun e => e.seen tag }) g
  let waits := s2.host.waits.map fun w => { w with tags := w.tags.filter fun t => t ≠ tag }
  let due := waits.filter fun w => w.tags.isEmpty
  let s3 := s2.updHost fun h => { h with waits := waits.filter fun w => !w.tags.isEmpty }
  let s4 := respObserved (forEach s3 due fun s w => runDeferred s w.act) tag
  if s.trans.ads.any fun a => a.tags.contains tag then resumeAll (adObserved s4 tag) else s4

/-- HOST_WRITE_OBSERVED: a host write reaches global observation (R250). -/
def execHostWriteObserved (tag : Nat) (s : State) : Host.Outcome State Fault Refusal :=
  if (s.host.writes.any fun w => w.tag = tag) && !(s.host.held.any fun w => w.tag = tag) then .next (writeObserved s tag) else .next s

/-! ### Walks (R345, R353) -/

/-- WALK_READ_DONE: a line of a page table returns (R345). -/
def execWalkReadDone (tag : Nat) (data : List Byte) (bad : Bool) (s : State) : Host.Outcome State Fault Refusal :=
  match s.host.reads.find? fun r => r.tag = tag with
  | some { why := .walkLine id, addr, .. } => .next (resumeAll (walkReturn (endRead s tag) id addr (fitData 64 data) bad))
  | _ => .next s

/-- WALK_TIMEOUT: a walk's read has had no data for TRANS_WALK_TIMEOUT_ST (R353). -/
def execWalkTimeout (tag : Nat) (s : State) : Host.Outcome State Fault Refusal :=
  match s.host.reads.find? fun r => r.tag = tag with
  | some { why := .walkLine id, addr, at', .. } => .next (resumeAll (walkTimeout s id addr at'))
  | _ => .next s

/-! ### Spill searches (R375, R383) -/

/-- What a search looks for, and the list it reads. -/
def searchList (s : State) (ep : Nat) (op : SpillOp) : List MEnt × (MEnt → Bool) :=
  let m := s.mep ep
  match op with
  | .arrival p => (m.postedSpill, fun x => matches' x (sendHeader p))
  | .command id =>
    match s.entry? id with
    | some e => let p := postOf s e; (m.unexpSpill, fun h => matches' p h)
    | none => ([], fun _ => false)

/-- A search that has its answer lets its operation go on. -/
def searchEnds (s : State) (ep : Nat) (op : SpillOp) (found : Option Nat) : State :=
  let s1 := s.updMep ep fun m => { m with found := some found }
  match op with
  | .arrival p => receive s1 p true
  | .command id =>
    match queueOfEntry s1 id with
    | some g => retryStart s1 g
    | none => leavePipe s1 ep

/-- An endpoint's matching has been found lost: it fails, and an operation that searched its lists goes on when it has (R375, R383). -/
def searchLost (s : State) (ep : Nat) (op : SpillOp) : State :=
  let s1 := matchLost s ep
  match op with
  | .arrival p => s1.updRma fun u => { u with parked := u.parked ++ [p] }
  | .command _ => s1

/-- SPILL_BATCH_READ: a batch of 16 entries of a spill list has been read (R375). -/
def execSpillBatchRead (ep : Nat) (bad : Bool) (s : State) : Host.Outcome State Fault Refusal :=
  match (s.mep ep).search, (s.mep ep).found with
  | some x, none =>
    let s1 := s.count 0x608 ep
    if bad then .next (searchLost ((s1.raise 0x0808).raise 0x0C07 5 ep) ep x.op)
    else
      let l := searchList s1 ep x.op
      match indexWhere ((l.1.drop x.pos).take 16) l.2 with
      | some i => .next (searchEnds s1 ep x.op (some (x.pos + i)))
      | none =>
        if l.1.length ≤ x.pos + 16 then .next (searchEnds s1 ep x.op none)
        else .next (s1.updMep ep fun m => { m with search := some { x with pos := x.pos + 16 } })
  | _, _ => .next s

end Sys2Proof.Machine
end

