-- ==== Sys2Proof/Machine/HostLife.lean ====
section
/-!
DEFINITION. The life of the host side: function resets (R256) and the loss of the host (R261), VF Enable (R253), the device store (R259,
R260), and the BAR writes to registers (R257).
-/
namespace Sys2Proof.Machine

/-! ### What a reset of functions takes away (R256, R261) -/

/-- The functions that the semaphores know of. -/
def semFuncs (s : State) : List Nat :=
  let own (m : Master) : List Nat := match m with
    | .h f _ => [f] | _ => []
  ((s.sem.sems.flatMap fun c => (c.2.owner.map own).getD [] ++ c.2.waiters.flatMap fun w => own w.who) ++ s.sem.ops.flatMap fun o => own o.who).eraseDups

/-- The semaphores of functions are freed as abandoned, and their pages and rings return to reset (R256 step 4, R426, R430). -/
def endSems (s : State) (hit : Nat → Bool) : State :=
  let fs := (semFuncs s).filter hit
  s.updSem fun u =>
    { u with
      resets := u.resets ++ fs.map MReset.func
      pages := u.pages.filter fun c => !hit (c.1 / 65536)
      rings := u.rings.filter fun c => !hit c.1
      recs := u.recs.filter fun r => !hit r.func }

/-- The queues of functions return to Reset (R256 step 5). -/
def endQueues (s : State) (hit : Nat → Bool) : State :=
  forEach s ((s.queues.qs.filter fun c => hit (queueFunc s c.1)).map (·.1)) queueReset

/-- An endpoint's or a protection domain's function is among those that are reset. -/
def ownerHit (hit : Nat → Bool) (f : Option Nat) : Bool := f.any hit

/-- The segments of functions become Free, and their gates 0 (R332, R350). -/
def endSegs (s : State) (hit : Nat → Bool) : State :=
  let mine (pd : Nat) : Bool := ownerHit hit (funcOfPd s pd)
  let gone := (s.trans.segs.filter fun c => c.2.st ≠ .free && mine c.2.pd).map (·.1)
  let s1 := forEach s gone segFree
  s1.updTrans fun t =>
    { t with
      gates := t.gates.filter fun c => !mine c.1
      gateDue := t.gateDue.filter fun g => !mine g.pd
      due := t.due.filter fun d => match d with
        | .register _ _ x => !hit x.func
        | .revoke i _ => !gone.contains i
        | .inval i _ _ _ => !gone.contains i
      drains := t.drains.filter fun d => !hit (s.queue d.queue).func
      ads := t.ads.filter fun a => !gone.contains a.seg
      passes := t.passes.filter fun p => !gone.contains p.seg
      walks := t.walks.filter fun w => !gone.contains w.seg }

/-- A requester context becomes Free without completions (R314). -/
def dropReq (s : State) (key : Nat) : State :=
  (leavePlace (forgetDie s (reqCode key)) (s.reqCtx key).place).updReq key fun _ => {}

/-- The requester contexts and rendezvous records of functions' endpoints are freed (R314, R383). -/
def endRma (s : State) (hit : Nat → Bool) : State :=
  let mine (ep : Nat) : Bool := ownerHit hit (funcOfEp s ep)
  let s1 := forEach s ((s.rma.req.filter fun c => mine (reqEp c.1)).map (·.1)) dropReq
  s1.updMtch fun u => { u with rndv := u.rndv.filter fun r => !mine r.sep }

/-- The matching of functions' endpoints is empty again; the rest of a send under way there is refused (R364, R383). -/
def endMatch (s : State) (hit : Nat → Bool) : State :=
  let mine (ep : Nat) : Bool := ownerHit hit (funcOfEp s ep)
  s.updMtch fun u =>
    { u with
      eps := u.eps.filter fun c => !mine c.1
      recvs := u.recvs.filter fun r => !mine r.ep
      inflows := u.inflows.map fun f => if mine f.dep then { f with recv := none, refused := some (0x21, 0) } else f }

/-- The management slots, MSI-X tables, last rings and collective work of functions (R65, R234, R256 step 6, R392). -/
def endOther (s : State) (hit : Nat → Bool) : State :=
  let s1 := { s with ctl := { s.ctl with slots := s.ctl.slots.filter fun c => !(c.2.any fun (m : MgmtSlot) => hit m.func) } }
  let s2 := s1.updHost fun h => { h with msix := h.msix.filter fun c => !hit (c.1 / 2048) }
  let rings := (List.range 4096).filter fun r => bitAt (ringRow s r) 127 && hit (fld (ringRow s r) 123 114)
  let s3 := forEach s2 rings fun s r => s.updRing r fun g => { g with stopped := true, records := [] }
  let rows := s3.coll.rows.map (·.1)
  let funcs := (rows.map fun r => cfgFunc (collCfg s3 r)).eraseDups.filter hit
  let s4 := forEach s3 funcs collReset
  if hit 0 then mailboxReset (resetHostTargets s4) else s4

/-- The reset of functions, once their accesses are over (R256 steps 4 to 6). -/
def endFunctions (s : State) (hit : Nat → Bool) : State :=
  endOther (endQueues (endMatch (endRma (endSegs (endSems s hit) hit) hit) hit) hit) hit

/-! ### Function resets (R256) -/

/-- A function reset begins at the next boundary. -/
def requestReset (s : State) (func : Nat) : State :=
  if (tget none s.host.resets func).isSome then s
  else s.updHost fun h => { h with resets := tset none h.resets func (some { since := s.time.count + 1 }) }

/-- FUNCTION_RESET_REQUEST: a Function Level Reset (R256). -/
def execFunctionResetRequest (func : Nat) (s : State) : Host.Outcome State Fault Refusal :=
  if 1024 ≤ func then .fault .noSuchFunction
  else if s.host.units = 0 || !fnPresent s func then .next s
  else .next (requestReset s func)

/-- An access issued for a function has not been completed (R256 step 3). -/
def funcBusy (s : State) (func : Nat) : Bool :=
  (s.host.reads.any fun r => r.func = func) || s.host.writes.any fun w => w.func = func

/-- FUNCTION_RESET_COMPLETE: every access issued for the function is over (R256). -/
def execFunctionResetComplete (func : Nat) (s : State) : Host.Outcome State Fault Refusal :=
  if 1024 ≤ func then .fault .noSuchFunction
  else .next (match tget none s.host.resets func with
    | some r =>
      if r.since ≤ s.time.count ∧ !funcBusy s func then
        ((endFunctions s (fun f => f = func)).updHost fun h => { h with resets := tset none h.resets func none }).event Dict.ATTACH_EVENTS 0 5
      else s
    | none => s)

/-- FUNCTION_RESET_SLOW: a function reset is not complete within 1 fr (R256). -/
def execFunctionResetSlow (func : Nat) (s : State) : Host.Outcome State Fault Refusal :=
  if 1024 ≤ func then .fault .noSuchFunction
  else .next (match tget none s.host.resets func with
    | some r =>
      if r.since + 1024 ≤ s.time.count ∧ !r.slowLogged then
        (s.raise 0x080A 3 func).updHost fun h => { h with resets := tset none h.resets func (some { r with slowLogged := true }) }
      else s
    | none => s)

/-- VF_ENABLE_WRITE: enabling takes NumVFs; clearing VF Enable resets every VF (R253, R256). -/
def execVfEnableWrite (enable num : Nat) (s : State) : Host.Outcome State Fault Refusal :=
  if s.host.units = 0 then .next s
  else if enable % 2 = 1 then
    .next (if s.host.vfEnable then s else s.updHost fun h => { h with vfEnable := true, numVfs := min num 1023 })
  else if s.host.vfEnable then
    .next ((forEach s ((List.range s.host.numVfs).map (· + 1)) requestReset).updHost fun h => { h with vfEnable := false })
  else .next s

/-! ### The store (R259, R260) -/

/-- The store changes its state (R259, R265). -/
def storeEnters (s : State) (st : StoreSt) : State := (s.updHost fun h => { h with store := st }).event Dict.ATTACH_EVENTS 0 3

/-- A size rounded up to 2 MiB. -/
def upTo2M (n : Nat) : Nat := (n + 2097151) / 2097152 * 2097152

/-- The first five areas of the store (R260). -/
def storeHeadAreas (s : State) : List Nat :=
  [2097152, (if s.reg Dict.QUEUE_MODE = 0 then 8 else 64) * 1048576, upTo2M (s.reg Dict.ATTACH_STORE_PEERS * 256),
   s.reg Dict.ATTACH_STORE_RESP_MIB * 1048576, s.reg Dict.ATTACH_STORE_TRACE_MIB * 1048576]

/-- The six areas of the store. -/
def storeSplit (s : State) : List Nat :=
  storeHeadAreas s ++ [s.reg Dict.ATTACH_STORE_SIZE - sumOf (storeHeadAreas s) id]

/-- Two ranges of bytes overlap. -/
def overlaps (a n b m : Nat) : Bool := decide (0 < n) && decide (0 < m) && decide (a < b + m) && decide (b < a + n)

/-- A VALID row of ATTACH_DMA_WINDOW overlaps bytes of host memory (R255, R259). -/
def windowHits (s : State) (base size : Nat) : Bool :=
  (List.range 8192).any fun r =>
    let row := s.reg Dict.ATTACH_DMA_WINDOW r
    bitAt row 127 && overlaps (fld row 99 48 * 4096) (fld row 47 12 * 4096) base size

/-- The sizes of a store fit (R259, R260). -/
def storeFits (s : State) : Bool :=
  let base := s.reg Dict.ATTACH_STORE_BASE
  let size := s.reg Dict.ATTACH_STORE_SIZE
  base % 2097152 = 0 && size % 2097152 = 0 && decide (268435456 ≤ size) && decide (size ≤ 137438953472) &&
  decide (s.reg Dict.ATTACH_STORE_PEERS ≤ 16777216) && decide (sumOf (storeHeadAreas s) id + 67108864 ≤ size)

/-- A Give is judged (R259, R260). -/
def giveCheck (s : State) : Nat :=
  if (s.host.store ≠ .absent ∧ s.host.store ≠ .lost) ∨ s.host.units = 0 then 0x0C
  else if !storeFits s ∨ windowHits s (s.reg Dict.ATTACH_STORE_BASE) (s.reg Dict.ATTACH_STORE_SIZE) then 6
  else 0

/-- A Give is applied (R259, R261, R266). -/
def applyGive (s : State) : State :=
  let s1 := s.updHost fun h =>
    { h with storeBase := s.reg Dict.ATTACH_STORE_BASE, storeAreas := storeSplit s, hostLost := false }
  storeEnters (s1.updQueues fun u => { u with mode := s.reg Dict.QUEUE_MODE }) .given

/-- STORE_GIVE (R259). -/
def execStoreGive (s : State) : Host.Outcome State Fault Refusal := judged s (giveCheck s) (applyGive s)

/-- A Return is judged: no queue runs, and no port is Admitted (R259). -/
def returnCheck (s : State) : Nat :=
  if s.host.store ≠ .given ∨ (s.queues.qs.any fun c => c.2.st ≠ .reset) ∨ (fabricPorts.any fun p => (s.link p).st = .admitted) then 0x0C else 0

/-- STORE_RETURN (R259). -/
def execStoreReturn (s : State) : Host.Outcome State Fault Refusal := judged s (returnCheck s) (storeEnters s .returning)

/-- ATTACH_STORE_CTL: 1 gives, 2 returns (R263). -/
def storeCtlCheck (s : State) (v : Nat) : Nat := if v = 1 then giveCheck s else if v = 2 then returnCheck s else 6
def applyStoreCtl (s : State) (v : Nat) : State := if v = 1 then applyGive s else storeEnters s .returning

/-- STORE_RETURN_DONE: every line that Ezura held from the store has been written back or dropped (R259). -/
def execStoreReturnDone (s : State) : Host.Outcome State Fault Refusal :=
  .next (if s.host.store = .returning then storeEnters s .absent else s)

/-! ### Losing the host (R261) -/

/-- Every access is abandoned, and every line dropped (R261 steps 1 and 2). -/
def abandonHost (s : State) : State :=
  let s1 := s.updHost fun h =>
    { h with
      reads := [], gathers := [], writes := [], held := [], waits := [], cache := [], watch := [], resets := [], dieDue := false, hostLost := true }
  let s2 := s1.updTrans fun t => { t with walks := [], ads := [], passes := [], drains := [], due := [], gateDue := [], fails := [], descAsked := [] }
  (s2.updRma fun u => { u with parked := [], respWait := [], replay := [], gets := [], atomics := [], resp := [], places := [], onDie := [] }).updMtch
    fun u => { u with inflows := [] }

/-- A host-die reset at a boundary (R261). -/
def hostDie (s : State) : State :=
  let s1 := endFunctions (abandonHost s) fun _ => true
  let s2 := match s.host.store with
    | .given | .returning => storeEnters s1 .lost
    | _ => s1
  (((s2.updTrans fun t => { t with segs := [], gates := [], tlb := [], wcache := [], descs := [] }).raise 0x0806).event Dict.ATTACH_EVENTS 0 2).fire 152

/-- HOST_DIE_RESET: the link goes Down, a hot reset or a link-disable takes effect at the next boundary (R261). -/
def execHostDieReset (s : State) : Host.Outcome State Fault Refusal :=
  .next (if s.host.units = 0 then s else s.updHost fun h => { h with dieDue := true })

/-! ### BAR writes (R257) -/

/-- A word of an MSI-X entry is written, as PCIe lays it out; unmasking a pending vector sends its message (R258). -/
def msixWrite (s : State) (func off v : Nat) : State :=
  let vec := off / 16
  let k := 2048 * func + vec
  let set (f : MsixEntry → MsixEntry) : State := s.updHost fun h => { h with msix := tupd {} h.msix k f }
  match off % 16 with
  | 0 => set fun e => { e with addr := e.addr / 2 ^ 32 * 2 ^ 32 + v }
  | 4 => set fun e => { e with addr := v * 2 ^ 32 + e.addr % 2 ^ 32 }
  | 8 => set fun e => { e with data := v }
  | _ =>
    let e := tget {} s.host.msix k
    let s1 := set fun e => { e with masked := bitAt v 0, pending := e.pending && bitAt v 0 }
    if e.pending && !bitAt v 0 then sendMsix s1 func vec else s1

/-- A word of the mailbox page is written (R61). -/
def mailboxWord (s : State) (off v : Nat) : State :=
  match off with
  | 0x0 => mailboxDoorbell s (fld v 10 0)
  | 0x8 => mailboxDone s v
  | 0xC => s.updCtl fun c => { c with mbxIrq := bitAt v 0 }
  | _ =>
    if 0x100 ≤ off ∧ off < 0x500 then s.updCtl fun c => { c with mbxReqBuf := bufWrite c.mbxReqBuf (off - 0x100) (bytesLE v 4) } else s

/-- A word of the function page is written; none where the offset is reserved (R257, R440). -/
def functionWord (s : State) (func off v : Nat) : Option State :=
  if off < 0xC then some s
  else if func = 0 ∧ 0x100 ≤ off ∧ off < 0x140 then
    let t := 8 + (off - 0x100) / 16
    some (match off % 16 with
      | 4 => claimComplete s t (fld v 9 0)
      | 8 => s.updClaim fun c => { c with thresholds := tset 0 c.thresholds t (v % 16) }
      | 12 => claimPend s (fld v 9 0)
      | _ => s)
  else none

/-- A last-ring word is written; none where the function does not hold the ring (R257). -/
def lastRingWord (s : State) (func off v : Nat) : Option State :=
  let r := off / 16
  let row := ringRow s r
  if !bitAt row 127 ∨ fld row 123 114 ≠ func then none
  else match off % 16 with
    | 0 => some (if bitAt row 126 then s else stateAfter (execLastRingProducerWrite r v s) s)
    | 4 => some (if bitAt row 126 then stateAfter (execLastRingConsumerWrite r v s) s else s)
    | 8 => some s
    | _ => none

/-- A word of a queue's register block is written; none where the function does not hold the queue (R257, R270). -/
def queueWord (s : State) (func off v : Nat) : Option State :=
  let lq := off / 4096 * 64 + off % 4096 / 64
  (globalQueue s func lq).map fun g =>
    match off % 64 with
    | 0x00 => doorbell s g v
    | 0x04 => invalidateQueue s g
    | 0x10 => consumerWrite s g v
    | 0x18 => armRing s g v
    | 0x1C => stateAfter (execQEnable func lq v s) s
    | o => if 0x20 ≤ o then configWrite s func g (o - 0x20) (bytesLE v 4) else s

/-- A rights word is written; none where the function has no such protection domain (R257, R349). -/
def rightsWord (s : State) (func off v : Nat) : Option State :=
  if funcValid s func ∧ off / 4 < pdCount s func then some (gateWrite s (pdFirst s func + off / 4) v none) else none

/-- A word of BAR0 is written (R257). -/
def bar0Word (s : State) (func off v : Nat) : Option State :=
  if off < 0x1000 then functionWord s func off v
  else if off < 0x2000 then (if func = 0 then some (mailboxWord s (off - 0x1000) v) else none)
  else if 0x8000 ≤ off ∧ off < 0x8000 + 16 * vectorsOf func then some (msixWrite s func (off - 0x8000) v)
  else if 0x10000 ≤ off ∧ off < 0x10100 then some s
  else if 0x20000 ≤ off ∧ off < 0x30000 then lastRingWord s func (off - 0x20000) v
  else if 0x30000 ≤ off ∧ off < 0x100000 then rightsWord s func (off - 0x30000) v
  else if 0x100000 ≤ off then queueWord s func (off - 0x100000) v
  else none

/-- A word of BAR4 is written (R257, R427). -/
def bar4Word (s : State) (func off v : Nat) : Option State :=
  if off < 0x10000 then (if (counterPageWord s func (off / 8 * 8)).isSome then some s else none)
  else if 0x100000 ≤ off ∧ off < 0x1100000 then
    match off % 4096 with
    | 0x000 => some (pageWrite s func ((off - 0x100000) / 4096) v)
    | 0x008 | 0x00C | 0x010 | 0x014 | 0x020 => some s
    | 0x024 => some (evrConsumer s func v)
    | _ => none
  else none

/-- The words of an access are written in order; none when one of them is refused. -/
def barWords (f : State → Nat → Nat → Option State) (s : State) (off : Nat) (data : List Byte) : Option State :=
  match f s off (natLE (data.take 4)) with
  | none => none
  | some s1 => if data.length = 4 then some s1 else f s1 (off + 4) (natLE (data.drop 4))

/-- A write to a function's BAR: applied, dropped, or refused (R257). -/
def barWrite (s : State) (func bar off : Nat) (data : List Byte) : State :=
  let refused := mmioRefused s func
  match bar with
  | 2 => stateAfter (execPush func (off / 256) (off % 256) data s) s
  | 0 => if formOk off data then (barWords (fun s o v => bar0Word s func o v) s off data).getD refused else refused
  | 4 => if formOk off data then (barWords (fun s o v => bar4Word s func o v) s off data).getD refused else refused
  | _ => s

/-- MMIO_WRITE (R257). -/
def execMmioWrite (func bar offset : Nat) (data : List Byte) (s : State) : Host.Outcome State Fault Refusal :=
  mmio s func (barWrite s func bar offset data)

end Sys2Proof.Machine
end

