-- ==== Sys2Proof/Machine/Power.lean ====
section
/-!
DEFINITION. Power, live insertion and start-up (R471 to R492, R540, R550, R553, R554), and the supply reset (R465).
-/
namespace Sys2Proof.Machine

/-- The state with the power unit changed. -/
def State.updPwr (s : State) (f : PwrUnit → PwrUnit) : State := { s with pwr := f s.pwr }

/-! ### Kinds of reset -/

/-- The object of a key of the register table. -/
def objOfKey (k : Nat) : Option Obj := Dict.find? (k / 1048576 / 256) (k / 1048576 % 256)

/-- A writable value that a device reset keeps in force: a B object's, and on a warm reset that of a P object of the always-on
domain (R9, R474). -/
def keptKey (warm : Bool) (k : Nat) : Bool :=
  match objOfKey k with
  | some o => o.persist = .b || (warm && o.persist = .p && alwaysOn o)
  | none => false

/-- A writable value that the always-on domain mirrors in the MRAM, restored when its rail rises (R490). -/
def mirroredKey (k : Nat) : Bool := (objOfKey k).any alwaysOn

/-- What a loss of the core domain leaves of the whole part: the always-on domain and the MRAM when warm, the MRAM alone when cold (R474, R509). The
writable values of the always-on domain come back from the MRAM on a cold start (R490). -/
def coreLost (s : State) (warm : Bool) : Chip :=
  let f := s.mon.fault
  let u := s.sec
  { ctl := if warm then
      { persistQ := s.ctl.persistQ.filter (keptKey true), sbReqQ := s.ctl.sbReqQ, sbRespQ := s.ctl.sbRespQ
        sbPecErr := s.ctl.sbPecErr, sbDynAddr := s.ctl.sbDynAddr }
      else {}
    mon := { fault :=
      { history := f.history, records := f.records, recordsNext := f.recordsNext, mv := f.mv
        seq := if warm then f.seq else 0
        faultN := warm && f.faultN
        isolateN := warm && f.isolateN
        fatal := warm && f.fatal
        fatalCode := if warm then f.fatalCode else 0
        fatalDip := if warm then f.fatalDip else 0
        lowest := if warm then f.lowest else 0
        supplyReset := warm && f.supplyReset } }
    sec :=
      { stage := u.stage, reason := u.reason, bitmap := u.bitmap, staging := u.staging, active := u.active
        commitA := u.commitA, commitB := u.commitB, formatTag := u.formatTag }
    pwr := s.pwr
    regs := if warm then s.regs.filter (fun c => keptKey true c.1)
      else regMerge (s.regs.filter (fun c => keptKey false c.1)) (s.mram.filter fun c => mirroredKey c.1)
    mram := s.mram }
where
  /-- A register table with the rows of another one written into it. -/
  regMerge (a b : Tbl Nat) : Tbl Nat :=
    b.foldl (fun t c => (t.filter fun d => d.1 < c.1) ++ [c] ++ (t.filter fun d => c.1 < d.1)) a

/-- The state after a loss of the core domain: what has been sent, the free values and the waiting commands are the model's own. -/
def loseCore (s : State) (warm : Bool) : State :=
  ({ s with toChip := coreLost s warm } : State).latched

/-- Every supply and RESET_N allow the core to start (R472, R465 step 3, R540, R550). -/
def startAllowed (s : State) : Bool :=
  let w := s.pwr
  !w.off && !w.resetLow && w.pgCore && w.pgSerdes && w.pgUcie && !w.coreFell && !w.refLost && !w.hot &&
  (!s.mon.fault.supplyReset || decide (710 < s.mon.fault.mv)) && (w.st = .run)

/-- Step 2 of R475 ends once everything allows it: the stitch count runs from 0 (step 3). -/
def advance (s : State) : State :=
  if s.pwr.step ≤ 2 ∧ startAllowed s ∧ !s.mon.fault.fatal then s.updPwr fun w => { w with step := 3 } else s

/-- The STITCH of a reset's history entry: 0 before time was acquired (R459). -/
def resetStitch (s : State) : Nat := if s.time.st = .free then 0 else s.time.count

/-- A device reset of a kind (R474). Kind 0 is cold. -/
def deviceReset (s : State) (kind : Nat) : State :=
  let warm := kind ≠ 0
  let e : HistEntry := { kind := 2, code := kind, stitch := resetStitch s }
  let s1 := loseCore s warm
  let s2 := s1.updFault fun f =>
    { f with
      fatal := false, fatalDip := 0, isolateN := true
      faultN := f.faultN && kind ≠ 1
      supplyReset := f.supplyReset || kind = 3
      history := pushLog 32 e f.history }
  let s3 := s2.updPwr fun w =>
    { w with
      st := .run, step := 2, kind := kind, coreFell := false
      refLost := w.refLost && kind ≠ 1, hot := w.hot && kind ≠ 1
      wakeN := false, wake := none, wakeSlow := false, wakeSecs := 0, lastWake := 0
      dormant := if warm then w.dormant else 0
      idleFrames := 0, departAt := 0, departing := false, departed := false
      benches := 0, benchUp := 0, benchAt := [], benchSlow := 0, resetCmd := none }
  (advance s3).latched

/-- The device is Fatal, or a Fatal record takes effect at the next boundary (R463). -/
def isFatal (s : State) : Bool := s.mon.fault.fatal || s.mon.fault.fatalDue.isSome

/-- The core is held in reset: its domain has lost what it held, and a reset of kind 1 follows (R473, R540, R550). -/
def holdCore (s : State) : State :=
  ((loseCore s true).updPwr fun w =>
    { w with
      st := .run, step := 2, wakeN := false, wake := none, benches := 0, benchUp := 0, benchAt := [], resetCmd := none
      departing := false, departed := false, departAt := 0, idleFrames := 0 }).latched

/-- The device is in Standby or on its way into it. -/
def standingBy (s : State) : Bool := s.pwr.st = .standby || s.pwr.st = .entering

/-! ### Standby and waking -/

/-- The state of Standby's conditions at a frame boundary (R482). -/
def standbyReady (s : State) : Bool :=
  s.reg Dict.PWR_STANDBY_ALLOW = 1 &&
  (fabricPorts.all fun p => (s.link p).st ≠ .admitted && (s.link p).st ≠ .hold) &&
  (s.host.store = .absent || s.host.store = .lost) &&
  (faultState s = 0 || faultState s = 2) && !s.pwr.departing

/-- A frame boundary judges the conditions and counts (R482, R492). -/
def standbyCount (s : State) : State :=
  if standbyReady s then (s.updPwr fun w => { w with idleFrames := w.idleFrames + 1 }).count 0x805
  else s.updPwr fun w => { w with idleFrames := 0 }

/-- Everything that entry waits for has been copied to the MRAM (R482 step 2). -/
def flushed (s : State) : Bool := s.ctl.persistQ.isEmpty && s.mon.fault.copyQ.isEmpty && s.mon.fault.queue.isEmpty

/-- A wake takes effect: WAKE_N goes low (R484 step 1). -/
def wakeStarts (s : State) (src : WakeSrc) : State :=
  s.updPwr fun w => { w with st := .waking, wakeN := true, wake := some src }

/-- The always-on domain gates the other domains and records a reset of kind 5; a held wake follows at once (R482 step 3). -/
def gateAll (s : State) : State :=
  let held := s.pwr.wake
  let s1 := (deviceReset s 5).updPwr fun w => { w with st := .standby, step := 2 }
  (match held with
   | some src => wakeStarts s1 src
   | none => s1).latched

/-- Entry begins: every port goes Down with its lanes Off, every module to Reset (R482 step 1). -/
def enterStandby (s : State) : State :=
  let s1 := s.updPwr fun w => { w with st := .entering, idleFrames := 0 }
  let s2 := forEach s1 fabricPorts fun s p => enterLink (laneEnter s p .off) p .down
  forEach s2 (List.range 4) moduleReset

/-- A wake source acts, if its bit of PWR_WAKE_ENABLE is 1: in Standby it takes effect, on the way in it is held (R482, R484). -/
def wakeBy (s : State) (bit : Nat) (src : WakeSrc) : State :=
  if !bitAt (s.reg Dict.PWR_WAKE_ENABLE) bit ∨ s.pwr.off then s
  else match s.pwr.st with
    | .standby => wakeStarts s src
    | .entering => if s.pwr.wake.isSome then s else s.updPwr fun w => { w with wake := some src }
    | _ => s

/-- PWR_LAST_WAKE (R486). -/
def packWake (src : Option WakeSrc) (secs : Nat) : Nat :=
  match src with
  | none => 0
  | some .sideband => put 1 63 60 + min secs (2 ^ 32 - 1)
  | some .ucie => put 2 63 60 + min secs (2 ^ 32 - 1)
  | some (.signal p) => put 3 63 60 + put p 59 53 + min secs (2 ^ 32 - 1)
  | some .timer => put 4 63 60 + min secs (2 ^ 32 - 1)

/-! ### Step 6 -/

/-- The dictionary is restored from the MRAM: every P object that is not kept by the always-on domain takes the value last copied (R9, R475). -/
def restoreDict (s : State) : State :=
  let back := s.mram.filter fun c => !(keptKey true c.1)
  { s with regs := back.foldl (fun t c => (t.filter fun d => d.1 < c.1) ++ [c] ++ (t.filter fun d => c.1 < d.1)) s.regs }

/-- TARGETS_K as the firmware sets it: K6 serves the fault sources (R447). -/
def firmwareTargets (s : State) : State :=
  forEach s (List.range 50) fun s i => updRow s (300 + i) fun r => { r with targetsK := 0x40 }

/-- What a wake leaves at step 6 (R484). -/
def wakeEnds (s : State) : State :=
  if s.pwr.st = .waking then
    let s1 := s.updPwr fun w =>
      { w with st := .run, wakeN := false, wake := none, lastWake := packWake w.wake w.wakeSecs, wakeSlow := false }
    if s.pwr.wakeSlow then (s1.raise 0x1003).event Dict.PWR_EVENTS 0 4 else s1
  else s

/-- What the kind of reset brings at step 6: 0x1005 after a commanded one, isolation with 0x0F03 after a supply reset (R465, R491); otherwise ISOLATE_N is
released. -/
def kindEnds (s : State) : State :=
  let s1 := if s.pwr.kind = 4 then s.raise 0x1005 else s
  if s.mon.fault.supplyReset then
    let before := faultState s1
    let s2 := s1.updFault fun f => { f with supplyReset := false, isolated := true, cause := 0x0F03, isolateN := true }
    let s3 : State := { s2 with mon := s2.mon.raiseAs s2.regs s2.time.count { code := 0x0F03, cls := .contained, detail := s2.mon.fault.lowest % 65536 } }
    noteState before (s3.event Dict.FAULT_EVENTS 0 3)
  else s1.updFault fun f => { f with isolateN := false }

/-- A row of a P object that the persistent dictionary area holds: the fault and staging objects stand outside it (R9). -/
def inDictArea (k : Nat) : Bool :=
  (objOfKey k).any (·.persist = .p) && decide (k / 1048576 / 65536 ≠ 0x0F) && decide (k / 1048576 / 65536 ≠ 0x11)

/-- The persistent dictionary area has failed its check: every P object that it holds starts from its default, and 0x0106 is logged (R71). -/
def dictFails (s : State) : State :=
  let keep (c : Nat × Nat) : Bool := !inDictArea c.1
  ({ s with
    mram := s.mram.filter keep, regs := s.regs.filter keep
    ctl := { s.ctl with persistQ := s.ctl.persistQ.filter fun k => !inDictArea k } } : State).raise 0x0106

/-- Step 6 of R475: the firmware starts, and finds the persistent dictionary area good or bad. -/
def firmwareStart (bad : Bool) (s : State) : State :=
  let s1 := logBootFaults (firmwareTargets (restoreDict (s.updPwr fun w => { w with step := 6 })))
  let s2 := wakeEnds (kindEnds (if bad then dictFails s1 else s1))
  let s3 := if s.sec.activated then (s2.count 0x887).event Dict.SEC_EVENTS 0 4 else s2
  let s4 := s3.event Dict.PWR_EVENTS 0 0
  forEach s4 (List.range 12) benchStart

/-! ### Writes -/

/-- A write to PWR_RESET is judged (R490). -/
def pwrResetCheck (v : Nat) : Nat := if v = 0xA5 then 0 else 6

/-- PWR_RESET applied: the reset waits for the response to leave by its feed (R554). -/
def applyPwrReset (s : State) (q : Req) : State :=
  s.updPwr fun w => { w with resetCmd := some { feed := q.feed, sfna := q.sfna, sep := q.sep, at' := s.time.count } }

/-- A packet is the in-band response to a commanded reset. -/
def isResetResp (c : ResetCmd) (p : Packet) : Bool := p.opc = 0xF1 && p.dfna = c.sfna && p.dep = c.sep

/-- The response has left the device (R554). -/
def responseLeft (s : State) (c : ResetCmd) : Bool :=
  match c.feed with
  | .mbx => true
  | .sideband =>
    let mine (r : Resp) : Bool := r.op = 2 && r.index = 0x1000 && r.sub = 2
    !(s.ctl.sbRespQ.any mine || s.ctl.sbHeld.any mine)
  | .inband =>
    !((tget [] s.sw.inject portSP).any (fun x => isResetResp c x.pkt) ||
      s.sw.pkts.any fun x => x.own && isResetResp c x.hdr)

/-- A write to PWR_DEPART is judged (R477). -/
def departCheck (s : State) (v : Nat) : Nat :=
  if 1 < v then 6 else if v = 1 ∧ (s.pwr.departing ∨ isFatal s) then 0x0C else 0

/-- PWR_DEPART applied: D is the second frame boundary after this one (R477). -/
def applyDepart (s : State) (v : Nat) : State :=
  if v = 1 then s.updPwr fun w => { w with departing := true, departed := false, departAt := (s.time.count / 1024 + 2) * 1024 } else s

/-- The departure boundary (R477): every port goes Down with its lanes Off, the device isolates, and it says so. -/
def departNow (s : State) : State :=
  let s1 := forEach s fabricPorts fun s p => enterLink (laneEnter s p .off) p .down
  let s2 := s1.updPwr fun w => { w with departing := false, departed := true }
  ((isolateDevice s2 0x0F07).raise 0x1004).event Dict.PWR_EVENTS 0 2

/-! ### What the objects read -/

/-- PWR_DOMAINS (R490). -/
def domainsNow (s : State) : Nat :=
  fld s.pwr.benches 11 0 +
  sumOf (List.range 4) (fun m => if s.reg Dict.ATTACH_MODULE_ENABLE m = 1 ∧ s.pwr.pgUcie then 2 ^ (16 + m) else 0) + 2 ^ 24

/-- The values of the power objects (R490). -/
def powerView (s : State) (id : Nat) : Option Nat :=
  match id with
  | 0x100000 => some s.pwr.st.code
  | 0x100001 => some s.pwr.kind
  | 0x100003 => some (domainsNow s)
  | 0x100004 => some s.pwr.dormant
  | 0x100205 => some s.pwr.lastWake
  | 0x100301 => some (if s.pwr.departing || s.pwr.departed then s.pwr.departAt else 0)
  | _ => none

/-- The 32 bits of IDCODE (R552). -/
def jtagIdcode : Nat := put (fld (Config.fused 3) 11 8) 31 28 + 0xE960B47

/-! ### Commands: supplies and pins -/

/-- POWER_ON: the always-on rail rises, and the straps ADDR_SEL are sampled (R474, R475 step 1, R541). -/
def execPowerOn (addrSel : Nat) (s : State) : Host.Outcome State Fault Refusal :=
  let s1 := s.updPwr fun w =>
    { w with off := false, addrSel := addrSel % 16, coreFell := false, refLost := false, hot := false, jtag := .bypass, jtagPins := false }
  .next (deviceReset s1 0)

/-- ALWAYS_ON_RAIL_LOST: the device is Off: nothing answers and every open-drain output floats high (R480, R543). -/
def execAlwaysOnRailLost (s : State) : Host.Outcome State Fault Refusal :=
  let s1 := loseCore s false
  .next (s1.updPwr fun w =>
    { pgCore := w.pgCore, pgSerdes := w.pgSerdes, pgUcie := w.pgUcie, resetLow := w.resetLow, off := true }).latched

/-- PG_CORE_FALL (R473): the core is held in reset, but in Standby or on the way into it the fall is expected. While Fatal it begins the power
cycle of R463. -/
def execPgCoreFall (s : State) : Host.Outcome State Fault Refusal :=
  let s1 := s.updPwr fun w => { w with pgCore := false }
  .next (if s.pwr.off ∨ standingBy s ∨ !s.pwr.pgCore then s1
    else
      let fatal := isFatal s
      (((holdCore s1).updPwr fun w => { w with coreFell := true }).updFault fun f => { f with fatal := fatal }).latched)

/-- PG_CORE_RISE (R474): after a fall, a reset of kind 1. -/
def execPgCoreRise (s : State) : Host.Outcome State Fault Refusal :=
  let s1 := s.updPwr fun w => { w with pgCore := true }
  .next (if s.pwr.off ∨ standingBy s then s1
    else if s.pwr.coreFell ∧ !s.pwr.refLost ∧ !s.pwr.hot then deviceReset s1 1
    else advance s1)

/-- PG_SERDES_FALL (R473). -/
def execPgSerdesFall (s : State) : Host.Outcome State Fault Refusal :=
  let s1 := s.updPwr fun w => { w with pgSerdes := false }
  .next (if s.pwr.off ∨ standingBy s ∨ !s.pwr.pgSerdes ∨ s.pwr.step < 6 then s1
    else
      let s2 := forEach s1 fabricPorts fun s p => laneEnter s p .off
      ((s2.updPwr fun w => { w with benches := 0, benchUp := 0 }).raise 0x1002).event Dict.PWR_EVENTS 0 3)

/-- PG_SERDES_RISE: the lanes start again from Off once their benches are powered (R473, R480). -/
def execPgSerdesRise (s : State) : Host.Outcome State Fault Refusal :=
  let s1 := s.updPwr fun w => { w with pgSerdes := true }
  .next (if s.pwr.off ∨ standingBy s then s1
    else if coreUp s1 then forEach s1 (List.range 12) benchStart else advance s1)

/-- PG_UCIE_FALL (R473): every module goes to Reset, the CXL link goes Down and R261 applies. -/
def execPgUcieFall (s : State) : Host.Outcome State Fault Refusal :=
  let s1 := s.updPwr fun w => { w with pgUcie := false }
  .next (if s.pwr.off ∨ standingBy s ∨ !s.pwr.pgUcie ∨ s.pwr.step < 6 then s1
    else
      let s2 := (forEach s1 (List.range 4) moduleReset).updHost fun h => { h with dieDue := true }
      (s2.raise 0x1002).event Dict.PWR_EVENTS 0 3)

/-- PG_UCIE_RISE (R472). -/
def execPgUcieRise (s : State) : Host.Outcome State Fault Refusal :=
  let s1 := s.updPwr fun w => { w with pgUcie := true }
  .next (if s.pwr.off ∨ standingBy s then s1 else advance s1)

/-- RESET_N_LOW: a pin reset, unless the device is Fatal (R474). -/
def execResetNLow (s : State) : Host.Outcome State Fault Refusal :=
  let s1 := s.updPwr fun w => { w with resetLow := true }
  .next (if s.pwr.off ∨ isFatal s then s1 else deviceReset s1 2)

/-- RESET_N_RELEASE: start-up may go on, and the pins return to normal control (R475, R553). -/
def execResetNRelease (s : State) : Host.Outcome State Fault Refusal :=
  .next (advance (s.updPwr fun w => { w with resetLow := false, jtagPins := false }))

/-- COREREF_LOST: the core reference is gone: the core is held in reset as for a fall of PG_CORE (R540). -/
def execCorerefLost (s : State) : Host.Outcome State Fault Refusal :=
  .next (if s.pwr.off ∨ standingBy s then s
    else
      let fatal := isFatal s
      (((holdCore s).updPwr fun w => { w with refLost := true }).updFault fun f => { f with fatal := fatal }).latched)

/-- THERMAL_TRIP: a sensor reads 125 °C: the core is held in reset and ISOLATE_N goes low (R550). -/
def execThermalTrip (s : State) : Host.Outcome State Fault Refusal :=
  .next (if s.pwr.off ∨ standingBy s then s
    else
      let fatal := isFatal s
      (((holdCore s).updPwr fun w => { w with hot := true }).updFault fun f => { f with fatal := fatal, isolateN := true }).latched)

/-- SUPPLY_RESET_CROSS: the core rail crosses 0.66 V (R465): a reset of kind 3; while Fatal only a history entry. With the core domain gated or
not yet started there is nothing to reset. -/
def execSupplyResetCross (mv : Nat) (s : State) : Host.Outcome State Fault Refusal :=
  let s1 := s.updFault fun f => { f with mv := mv, lowest := if inDip f then min f.lowest mv else mv }
  .next (if s.pwr.off ∨ standingBy s ∨ s.pwr.step < 3 then s1
    else if isFatal s then
      if s.mon.fault.fatalDip = 2 then s1
      else (pushHistory s1 { code := 0x0F03, cls := FClass.contained.code }).updFault fun f => { f with fatalDip := 2 }
    else deviceReset s1 3)

/-- JTAG_UPDATE_IR: an instruction is loaded (R498, R552, R553). One that takes the pins is obeyed only while RESET_N is low; every opcode
not named selects BYPASS while the debug lock is closed. -/
def execJtagUpdateIr (instr : JtagInstr) (s : State) : Host.Outcome State Fault Refusal :=
  if s.pwr.off then .next s
  else
    let takes : Bool := match instr with
      | .extest | .clamp | .highz | .extestPulse | .extestTrain => true
      | _ => false
    let now : JtagInstr := match instr with
      | .other n => if s.reg Dict.PMAP_DEBUG_LOCK = 0 then .bypass else .other n
      | i => i
    .next (s.updPwr fun w => { w with jtag := now, jtagPins := takes && w.resetLow })

/-! ### Commands: resets and start-up -/

/-- PWR_RESET: the boundary that applies a write, which came in-band from a requester or by the sideband (R490, R554). -/
def execPwrReset (value : Nat) (sideband : Bool) (sfna sep : Nat) (s : State) : Host.Outcome State Fault Refusal :=
  judgedAlways s (if coreUp s || inRecovery s then pwrResetCheck value else 9)
    (applyPwrReset s { feed := if sideband then .sideband else .inband, sfna := sfna, sep := sep })

/-- COMMANDED_RESET_START: the first boundary after the response has left, or b + 1,024 (R554). -/
def execCommandedResetStart (s : State) : Host.Outcome State Fault Refusal :=
  .next (match s.pwr.resetCmd with
    | some c =>
      if (c.at' < s.time.count ∧ responseLeft s c) ∨ c.at' + 1024 ≤ s.time.count then deviceReset s 4 else s
    | none => s)

/-- DEVICE_RESET: a reset of a kind of R474. While the device is Fatal only a power-on, or the return of the core supply, resets it; kind 6 is
no device reset. -/
def execDeviceReset (kind : Nat) (s : State) : Host.Outcome State Fault Refusal :=
  .next (if 5 < kind ∨ (s.pwr.off ∧ kind ≠ 0) then s
    else if isFatal s ∧ kind ≠ 0 ∧ !(kind = 1 ∧ s.pwr.coreFell) then s
    else deviceReset (if kind = 0 then s.updPwr fun w => { w with off := false } else s) kind)

/-- FIRMWARE_START: step 6, once the boot ROM has passed control, with whether the persistent dictionary area fails its check (R71, R475,
R494). -/
def execFirmwareStart (dictBad : Bool) (s : State) : Host.Outcome State Fault Refusal :=
  .next (if s.pwr.step = 5 ∧ s.sec.sealed ∧ s.sec.bootStatus = 0 ∧ !s.pwr.off ∧ !s.mon.fault.fatal then firmwareStart dictBad s else s)

/-- COBBLER_CORE_RESET: the firmware restarts one core (R426, R444, R474). -/
def execCobblerCoreReset (core : Nat) (s : State) : Host.Outcome State Fault Refusal :=
  if 8 ≤ core then .fault .noSuchCore
  else if !coreUp s then .next s
  else .next ((completeAll s [core]).updSem fun u => { u with resets := u.resets ++ [.core core] })

/-- BENCH_POWER_UP: a bench domain is powered, and its enabled ports enter Detect (R480). -/
def execBenchPowerUp (bench : Nat) (s : State) : Host.Outcome State Fault Refusal :=
  if 12 ≤ bench then .fault .noSuchBench
  else if bitAt s.pwr.benchUp bench ∧ s.pwr.pgSerdes ∧ coreUp s then
    let s1 := s.updPwr fun w => { w with benches := w.benches ||| 2 ^ bench, benchUp := clearBits w.benchUp (2 ^ bench) }
    .next (forEach s1 ((List.range 8).map (8 * bench + ·)) laneStart)
  else .next s

/-- BENCH_POWER_SLOW: a bench domain is not powered within 200 µs, 1,954 boundaries (R480, R491). -/
def execBenchPowerSlow (bench : Nat) (s : State) : Host.Outcome State Fault Refusal :=
  if 12 ≤ bench then .fault .noSuchBench
  else if bitAt s.pwr.benchUp bench ∧ !bitAt s.pwr.benchSlow bench ∧ tget 0 s.pwr.benchAt bench + 1954 ≤ s.time.count then
    .next (((s.updPwr fun w => { w with benchSlow := w.benchSlow ||| 2 ^ bench }).raise 0x1006 2 bench).event Dict.PWR_EVENTS 0 4)
  else .next s

/-! ### Commands: departure, Standby and waking -/

/-- PWR_DEPART (R477). -/
def execPwrDepart (value : Nat) (s : State) : Host.Outcome State Fault Refusal :=
  judgedAlways s (if coreUp s then departCheck s value else 9) (applyDepart s value)

/-- DEPART_BOUNDARY: the boundary D (R477). -/
def execDepartBoundary (s : State) : Host.Outcome State Fault Refusal :=
  .next (if s.pwr.departing ∧ s.pwr.departAt ≤ s.time.count then departNow s else s)

/-- STANDBY_ENTER: entry begins once the conditions have held long enough, and ends once everything is in the MRAM (R482). -/
def execStandbyEnter (s : State) : Host.Outcome State Fault Refusal :=
  if s.pwr.st = .entering then .next (if flushed s then gateAll s else s)
  else if coreUp s ∧ s.pwr.st = .run ∧ s.time.count % 1024 = 0 ∧ standbyReady s ∧ s.reg Dict.PWR_STANDBY_IDLE_FR ≤ s.pwr.idleFrames then
    let s1 := enterStandby s
    .next (if flushed s1 then gateAll s1 else s1)
  else .next s

/-- WAKE_ADDRESS_MATCH: a transfer at the wake address (R484, R485). -/
def execWakeAddressMatch (s : State) : Host.Outcome State Fault Refusal :=
  .next (if s.pwr.st = .run ∧ coreUp s then s.count 0x806 else wakeBy s 0 .sideband)

/-- UCIE_WAKE_REQUEST (R484). -/
def execUcieWakeRequest (s : State) : Host.Outcome State Fault Refusal := .next (wakeBy s 1 .ucie)

/-- WAKE_SIGNAL_DETECT: a lane of a port detects a signal (R484). -/
def execWakeSignalDetect (port : Nat) (s : State) : Host.Outcome State Fault Refusal :=
  onPort port (if s.reg Dict.PWR_WAKE_PORTS port = 1 then wakeBy s 2 (.signal port) else s)

/-- WAKE_TIMER: the always-on timer has run PWR_WAKE_TIMER_S seconds in Standby (R484). -/
def execWakeTimer (s : State) : Host.Outcome State Fault Refusal :=
  .next (if s.reg Dict.PWR_WAKE_TIMER_S = 0 ∨ s.pwr.st ≠ .standby then s else wakeBy s 3 .timer)

/-- WAKE: with every power-good input high the core starts from step 3, as a reset of kind 5 (R484 steps 2 and 3). The operand is the seconds spent in
Standby. -/
def execWake (seconds : Nat) (s : State) : Host.Outcome State Fault Refusal :=
  let w := s.pwr
  .next (if w.st = .waking ∧ w.step < 3 ∧ w.pgCore ∧ w.pgSerdes ∧ w.pgUcie ∧ !w.resetLow ∧ !w.off then
      s.updPwr fun w => { w with step := 3, kind := 5, wakeSecs := seconds }
    else s)

/-- WAKE_SLOW: a wake has not reached step 6 within 100 ms; 0x1003 is logged once it arrives (R484). -/
def execWakeSlow (s : State) : Host.Outcome State Fault Refusal :=
  .next (if s.pwr.st = .waking ∧ 3 ≤ s.pwr.step then s.updPwr fun w => { w with wakeSlow := true } else s)

/-! ### Commands: arbitration -/

/-- ARBITRATION_PARITY_ERROR: a parity error in a bench's grant or configuration state (R211). -/
def execArbitrationParityError (bench : Nat) (s : State) : Host.Outcome State Fault Refusal :=
  if 13 ≤ bench then .fault .noSuchBench
  else
    let s1 := (s.raise 0x0608 2 bench).event Dict.SW_BENCH_EVENTS bench 6
    .next (if bench = 12 then isolateDevice s1 0x0608
      else forEach s1 ((List.range 8).map (8 * bench + ·)) isolatePort)

end Sys2Proof.Machine
end

