-- ==== Sys2Proof/Machine/Serve.lean ====
section
/-!
DEFINITION. What every object of the dictionary reads as (R7, R45 to R51), and the service of READ, DESCRIBE and ECHO requests
(R57).
-/
namespace Sys2Proof.Machine

/-! ### Values of the status objects of chapters 6 and 8 to 12 -/

/-- The values of the switch-core objects (R210). -/
def swView (s : State) (id row : Nat) : Option Nat :=
  match id with
  | 0x060002 => some (sharedFree (s.inPort row))
  | 0x060202 => some (anchorFree s)
  | 0x060302 => some (b2n (shaperRecovery s))
  | 0x060407 => some s.sw.cup.prod
  | _ => none

/-- A row of ATTACH_STORE_MAP: the offset and the size of an area, as fixed at Give (R260). -/
def storeMapRow (areas : List Nat) (row : Nat) : Nat :=
  put (sumOf (areas.take row) id) 127 64 + put (areas.getD row 0) 63 0

/-- The values of the attach objects (R263). -/
def attachView (s : State) (id row : Nat) : Option Nat :=
  match id with
  | 0x080000 => some (linkStateCode s)
  | 0x080001 => some (tget {} s.host.modules row).st.code
  | 0x080002 => some (tget {} s.host.modules row).repaired
  | 0x080003 => some s.host.units
  | 0x080103 => some (Config.fused 0x080103)
  | 0x080306 => some s.host.store.code
  | 0x080307 => some (storeMapRow s.host.storeAreas row)
  | _ => none

/-- The values of the queue objects (R298). -/
def queueView (s : State) (id row : Nat) : Option Nat :=
  match id with
  | 0x090001 => some s.queues.mode
  | 0x090100 => some (s.queue row).st.code
  | 0x090101 => some (rowOf 0 s.queues.errLog row)
  | 0x090300 => some s.queues.onDie.length
  | 0x090301 => some s.host.watch.length
  | _ => none

/-- The values of the remote memory objects (R335). -/
def rmaView (s : State) (id : Nat) : Option Nat :=
  match id with
  | 0x0A0202 => some s.rma.onDie.length
  | 0x0A0203 => some (s.rma.places.filter fun c => c.2.holder ≠ 0).length
  | 0x0A0204 => some (missPoolFree s)
  | 0x0A0205 => some s.rma.replay.length
  | _ => none

/-- The values of the translation objects (R358). -/
def transView (s : State) (id row : Nat) : Option Nat :=
  match id with
  | 0x0B0200 => some s.trans.tlb.length
  | 0x0B0201 => some (s.trans.walks.filter fun w => w.running).length
  | 0x0B0300 => some (rowOf 0 s.trans.faultLog row)
  | _ => none

/-! ### The match table (R368, R369) -/

/-- A count as MATCH_EP_USE shows it. -/
def sat16 (n : Nat) : Nat := min n 65535

/-- A row of MATCH_EP_USE (R385). -/
def epUseRow (m : MatchEp) : Nat :=
  put (sat16 m.posted.length) 63 48 + put (sat16 m.unexp.length) 47 32 + put (sat16 m.postedSpill.length) 31 16 +
  put (sat16 m.unexpSpill.length) 15 0

/-- The posted receives chained in a bucket of a pattern, or in the masked list. -/
def chainPosted (row : Nat) (m : MatchEp) (pat bucket : Nat) : List MEnt :=
  m.posted.filter fun e => e.pat = pat && (pat = 4 || bucketOf row pat e = bucket)

/-- The unexpected headers chained in a bucket of a structure, 4 standing for the one by COMM. -/
def chainUnexp (row : Nat) (m : MatchEp) (pat bucket : Nat) : List MEnt := m.unexp.filter fun e => bucketOf row pat e = bucket

/-- The entry after one in its chain; 0 ends a chain. -/
def chainNext (chain : List MEnt) (idx : Nat) : Nat :=
  match indexWhere chain fun e => e.idx = idx with
  | some i => ((chain[i + 1]?).map (·.idx)).getD 0
  | none => 0

/-- The word of a bucket: the head and the tail of its chain (R368). -/
def bucketWord (chain : List MEnt) : Nat :=
  put ((chain.head?.map (·.idx)).getD 0) 37 19 + put ((chain.getLast?.map (·.idx)).getD 0) 18 0

/-- A bucket by its number in the partition: the nine structures follow one another. -/
def bucketAt (row : Nat) (m : MatchEp) (n : Nat) : Nat :=
  let st := n / 2 ^ rowBlog row
  let b := n % 2 ^ rowBlog row
  bucketWord (if st < 4 then chainPosted row m st b else chainUnexp row m (st - 4) b)

/-- An entry that holds eight buckets; its first word carries TYPE 1. -/
def bucketEntry (row : Nat) (m : MatchEp) (i : Nat) : Nat :=
  put 1 63 61 + sumOf (List.range 8) fun j => bucketAt row m (8 * i + j) * 2 ^ (64 * j)

/-- Eight 64-bit words of a little-endian entry, W0 first. -/
def words64 (ws : List Nat) : Nat := ws.foldr (fun w a => w % 2 ^ 64 + 2 ^ 64 * a) 0

/-- A posted receive as its entry shows it (R369). -/
def postedEntry (s : State) (ep row : Nat) (m : MatchEp) (e : MEnt) : Nat :=
  words64
    [put 2 63 61 + put e.pat 60 58 + put (b2n e.anysrc) 55 55 + put ep 50 35 + put e.comm 34 19 +
       put (chainNext (chainPosted row m e.pat (bucketOf row e.pat e)) e.idx) 18 0,
     put e.seq 63 32 + put e.rank 31 0, e.mbits, e.ignore, put e.key 63 32 + put (s.queue e.queue).local' 31 12, e.addr,
     put e.len 63 31, e.user]

/-- An unexpected or a claimed header as its entry shows it (R369). -/
def unexpEntry (ep row : Nat) (m : MatchEp) (claimed : Bool) (e : MEnt) : Nat :=
  let next (pat : Nat) : Nat := if claimed then 0 else chainNext (chainUnexp row m pat (bucketOf row pat e)) e.idx
  words64
    [put (if claimed then 4 else 3) 63 61 + put (b2n e.rndv) 57 57 + put (b2n e.done) 56 56 + put ep 50 35 + put e.comm 34 19 +
       put (next 0) 18 0,
     put e.seq 63 32 + put e.rank 31 0, e.mbits, put (next 1) 63 45 + put (next 2) 44 26 + put (next 3) 25 7,
     put (if e.rndv then e.key else 0) 63 32 + put (e.slot.getD 0) 31 12, if e.rndv then e.addr else 0,
     put e.len 63 31 + put e.mpsn 30 7 + put e.inc 6 3, put e.sfna 63 46 + put e.sep 45 30 + put (next 4) 29 11]

/-- The endpoint whose partition holds an entry of the table (R367). -/
def partitionOf (s : State) (i : Nat) : Option Nat :=
  (List.range 65535).find? fun ep => bitAt (matchRow s ep) 255 && inRange i (rowBase (matchRow s ep)) (rowSize (matchRow s ep))

/-- A row of MATCH_TABLE; a free entry reads 0 (R369). -/
def matchTableRow (s : State) (i : Nat) : Nat :=
  match partitionOf s i with
  | none => 0
  | some ep =>
    let row := matchRow s ep
    let m := s.mep ep
    if i < rowBase row + bucketEntries row then bucketEntry row m (i - rowBase row)
    else match m.posted.find? fun e => e.idx = i with
      | some e => postedEntry s ep row m e
      | none => match m.unexp.find? fun e => e.idx = i with
        | some e => unexpEntry ep row m false e
        | none => ((m.claimed.find? fun e => e.idx = i).map (unexpEntry ep row m true)).getD 0

/-- The values of the matching objects (R385). -/
def matchView (s : State) (id row : Nat) : Option Nat :=
  match id with
  | 0x0C0001 => some (epUseRow (s.mep row))
  | 0x0C0200 => some (matchTableRow s row)
  | 0x0C0201 => some s.mtch.rndv.length
  | _ => none

/-- The values of the counter objects (R518, R520, R522). -/
def cntView (s : State) (id row : Nat) : Option Nat :=
  match id with
  | 0x120000 => some (cntCtlRead s.mon.cnt row)
  | 0x120001 => some (tget 0 s.mon.cnt.value row)
  | 0x120002 => some (tget 0 s.mon.cnt.shadow row)
  | 0x120003 => some (cntOvfRow s.mon.cnt row)
  | _ => none

/-! ### Every object -/

/-- The values that the units keep, by subject (R44); none for an object that holds what was last written to it. -/
def unitView (s : State) (id row : Nat) : Option Nat :=
  match id / 65536 with
  | 0 | 1 => ctlView s id
  | 2 => timeView s id row
  | 3 => laneView s id row
  | 4 => linkView s id row
  | 5 => routeView s id
  | 6 => swView s id row
  | 7 => lastView s id row
  | 8 => attachView s id row
  | 9 => queueView s id row
  | 0x0A => rmaView s id
  | 0x0B => transView s id row
  | 0x0C => matchView s id row
  | 0x0D => collView s id row
  | 0x0E => (semView s id row).or (claimView s id row)
  | 0x0F => faultView s id row
  | 0x10 => powerView s id
  | 0x11 => secView s id row
  | 0x12 => (cntView s id row).or (traceView s id row)
  | _ => none

/-- The object is one of the event registers, whose bits the units set (R7). -/
def isEventReg (o : Obj) : Bool := o.access = .w1c && o.id ≠ 0x030402

/-- The value of a row of an object. -/
def objValue (s : State) (o : Obj) (row : Nat) : Nat :=
  (if isEventReg o then evregGet s.mon.evreg o row else (unitView s o.id row).getD (s.reg o row)) % 2 ^ (8 * o.width)

/-- The object's values are strings of bytes, carried in string order on every feed (R46, R50). -/
def isText (o : Obj) : Bool :=
  o.ty = .str || o.ty = .octets || (o.ty = .table && (o.rowTy = 10 || o.rowTy = 11))

/-- The bytes of a value of n bytes in a feed's order (R50). -/
def feedBytes (f : Feed) (text : Bool) (v n : Nat) : List Byte := if f = .inband ∨ text then bytesBE v n else bytesLE v n

/-- The value that bytes carry in a feed's order (R50). -/
def feedValue (f : Feed) (text : Bool) (bs : List Byte) : Nat := if f = .inband ∨ text then natBE bs else natLE bs

/-! ### READ, DESCRIBE and ECHO -/

/-- The rows that a request names. -/
def windowRows (q : Req) : List Nat := (List.range q.count).map fun i => q.row + i

/-- What a READ returns. -/
def readData (s : State) (q : Req) (o : Obj) : List Byte :=
  (windowRows q).flatMap fun r => feedBytes q.feed (isText o) (objValue s o r) o.width

/-- What a DESCRIBE returns (R51). -/
def describeBits (s : State) (o : Obj) : Nat :=
  put o.ty.code 127 120 + put o.access.code 119 112 + put (rightsOf s o) 111 110 + put o.persist.code 109 108 + put o.width 95 80 +
  put (if o.ty = .table then o.rowTy else 0) 79 64 + put (if o.ty = .table then objRows s o else 1) 63 32

/-- The units as READs see them: as they stood at the latest boundary; while the core does not run there is none, and they are read as
they stand (R57, R483). -/
def readBase (s : State) : State := if coreUp s then { s with toChip := s.latch } else s

/-- The boundary that a response carries: 0 from the always-on domain and from the boot ROM (R483, R497). -/
def respStitch (s : State) : Nat := if coreUp s then s.time.count else 0

/-- The rows that a request is charged (R57). -/
def readRows (q : Req) (o : Obj) : Nat := if q.op = 1 ∧ o.ty = .table then q.count else 1

/-- The part of a window that is dormant answers for the whole (R487). -/
def windowDormant (s : State) (q : Req) (o : Obj) : Bool := if o.ty = .table then (windowRows q).any (dormant s o) else dormant s o 0

/-- The rows are charged to this stitch and those after it; without a stitch there is no charge. -/
def chargeRead (s : State) (n : Nat) : State :=
  if coreUp s then s.updCtl fun c => { c with readCharge := c.readCharge + n } else s

/-- A request refused after its acceptance is answered and counted (R52, R72). -/
def answerRefused (s : State) (q : Req) (status : Nat) : State :=
  let s1 := s.count 0x082
  respond (if status = 0x09 then s1.count 0x804 else s1) q status (respStitch s) []

/-- A READ or a DESCRIBE of an object is served. -/
def serveObj (s : State) (q : Req) (o : Obj) : State :=
  let s1 := chargeRead s (readRows q o)
  if q.op = 1 ∧ windowDormant s q o then answerRefused s1 q 0x09
  else
    let data := if q.op = 1 then readData (readBase s) q o else feedBytes q.feed false (describeBits (readBase s) o) 16
    let s2 := if q.op = 1 ∧ o.id = Dict.TIME_PHASE_NOW.id then s1.took else s1
    respond s2 q 0 (respStitch s) data

/-- A request is served (R49, R57). -/
def serveReq (s : State) (q : Req) : State :=
  if q.op = 7 then respond s q 0 (respStitch s) q.data
  else match Dict.find? q.index q.sub with
    | none => answerRefused s q 0x01
    | some o => serveObj s q o

/-- READ_SERVE: the oldest READ, DESCRIBE or ECHO is served, while rows of the stitch's budget remain (R57). -/
def execReadServe (s : State) : Host.Outcome State Fault Refusal :=
  .next (match s.ctl.readQ with
    | [] => s
    | q :: rest => if 64 ≤ s.ctl.readCharge ∧ coreUp s then s else serveReq (s.updCtl fun c => { c with readQ := rest }) q)

end Sys2Proof.Machine
end

