-- ==== Sys2Proof/Machine/Apply.lean ====
section
/-!
DEFINITION. The application of dictionary writes (R29, R30, R53, R56): what each object's description refuses, and what a written row
does.
-/
namespace Sys2Proof.Machine

/-! ### What a row keeps -/

/-- A value without its bits hi:lo. -/
def dropFld (v hi lo : Nat) : Nat := v - put (fld v hi lo) hi lo

/-- A row as it is stored: its reserved bits read zero (R6). -/
def keptBits (o : Obj) (v : Nat) : Nat :=
  match o.id with
  | 0x000200 => fld v 17 0
  | 0x050100 | 0x050101 => dropFld v 3 0
  | 0x050200 | 0x050201 => dropFld v 15 0
  | 0x060200 => dropFld v 126 98
  | 0x060201 => dropFld v 30 14
  | 0x060300 => dropFld (dropFld v 124 112) 31 0
  | 0x070200 => dropFld v 57 52
  | 0x080100 => dropFld (dropFld v 126 112) 8 0
  | 0x080101 => dropFld (dropFld v 124 100) 11 0
  | 0x0A0000 => dropFld v 22 0
  | 0x0B0002 => dropFld (dropFld v 63 56) 31 25
  | 0x0C0000 => dropFld (dropFld v 136 128) 63 0
  | 0x0E0001 => semRightsKeep v
  | 0x0E0100 => dropFld (dropFld v 126 112) 86 52
  | _ => v

/-! ### What is refused -/

/-- A value outside its type or its stated range, or with an unlisted bit (R45). -/
def valueBad (o : Obj) (v : Nat) : Bool :=
  decide (v < o.lo) || decide (o.hi < v) || clearBits v o.mask ≠ 0 ||
  (o.ty = .str && (bytesBE v o.width).any fun b => decide (127 < b.toNat))

/-- A status of wrong-state, else of bad-value, else none. -/
def refusal (wrong bad : Bool) : Nat := if wrong then 0x0C else if bad then 0x06 else 0

/-- The store is Given or Returning (R259). -/
def storeHeld (s : State) : Bool := s.host.store = .given || s.host.store = .returning

/-- Another row of a table overlaps a range of a row: rows up to n, with the range that each holds. -/
def rangeTaken (n row : Nat) (rangeOf : Nat → Nat × Nat) : Bool :=
  (List.range n).any fun r =>
    r ≠ row && overlaps (rangeOf row).1 (rangeOf row).2 (rangeOf r).1 (rangeOf r).2

/-- The range that a VALID row of ATTACH_FUNC gives, hi:lo of its first and of its count; an empty one without VALID. -/
def funcRange (s : State) (h1 l1 h2 l2 f : Nat) : Nat × Nat :=
  let v := funcRow s f
  (fld v h1 l1, if bitAt v 127 then fld v h2 l2 else 0)

/-- A row of ATTACH_FUNC is judged, in the state that holds the write's rows (R254). -/
def funcRowBad (s : State) (f : Nat) : Bool :=
  decide ((if s.reg Dict.QUEUE_MODE = 1 then 16384 else 256) < qgFirst s f + qgCount s f) ||
  decide (0xFFFF < epFirst s f + epCount s f) || decide (2 ^ 20 < pdFirst s f + pdCount s f) ||
  rangeTaken 1024 f (funcRange s 111 98 97 83) || rangeTaken 1024 f (funcRange s 82 67 66 50) ||
  rangeTaken 1024 f (funcRange s 49 30 29 9) ||
  (f ≠ 0 && decide ((2 ^ s.reg Dict.ATTACH_VF_BAR0_LOG - 2 ^ 20) / 4096 < qgCount s f))

/-- A VALID row of ATTACH_FUNC exceeds a queue mode's groups (R298). -/
def modeTooSmall (s : State) (mode : Nat) : Bool :=
  (List.range 1024).any fun f => funcValid s f && decide ((if mode = 1 then 16384 else 256) < qgFirst s f + qgCount s f)

/-- The last retransmission would leave later than 3 × RMA_RTO_MAX_ST after the first send (R321). -/
def rtoBad (init most limit : Nat) : Bool := decide (3 * most < sumOf (List.range limit) fun i => min (init * 2 ^ i) most)

/-- The range of a row of TRANS_FUNC_SEGS (R358). -/
def segRange (s : State) (f : Nat) : Nat × Nat :=
  let v := s.reg Dict.TRANS_FUNC_SEGS f
  (fld v 55 32, fld v 24 0)

/-- The partition of an endpoint's row, empty without VALID (R367). -/
def partRange (s : State) (ep : Nat) : Nat × Nat :=
  (rowBase (matchRow s ep), if bitAt (matchRow s ep) 255 then rowSize (matchRow s ep) else 0)

/-- The pool of a row lies in a window of the endpoint's function with R and W (R367). -/
def poolOk (s : State) (ep v : Nat) : Bool :=
  rowSlots v = 0 || match funcOfEp s ep with
    | none => false
    | some f =>
      windowOk s f (rowPool v) (rowSlots v * rowSlotBytes v) false && windowOk s f (rowPool v) (rowSlots v * rowSlotBytes v) true

/-- A row of MATCH_EP with VALID is judged, in the state that holds the write's rows (R367). -/
def matchRowBad (s : State) (ep v : Nat) : Bool :=
  rowBase v = 0 || decide (rowBlog v < 3) || decide (14 < rowBlog v) || decide (fld v 212 209 < 10) || decide (14 < fld v 212 209) ||
  decide (524288 < rowBase v + rowSize v) || decide (rowSize v < bucketEntries v + 64) ||
  (rowSlots v ≠ 0 && decide (rowSlotBytes v < s.reg Dict.MATCH_EAGER_LIMIT)) || !poolOk s ep v || rangeTaken 65535 ep (partRange s)

/-- The endpoint holds an entry, on die or spilled, or a rendezvous of it is in progress (R367). -/
def epInUse (s : State) (ep : Nat) : Bool :=
  let m := s.mep ep
  !(m.posted.isEmpty && m.unexp.isEmpty && m.claimed.isEmpty && m.postedSpill.isEmpty && m.unexpSpill.isEmpty) ||
  s.mtch.recvs.any fun r => r.ep = ep && r.path = .rndv

/-- A row of COLL_GROUP is judged; the block buffers are counted over the rows as they would stand (R56, R390). -/
def collRowCheck (s sa : State) (r v : Nat) : Nat :=
  let others : State := { sa with regs := regSet sa.regs Dict.COLL_GROUP r (s.reg Dict.COLL_GROUP r) }
  let st := collGroupCheck others r v
  if st = 0 ∧ bitAt v 255 ∧ 16384 < sumOf (List.range 4096) (fun x => rowBuffers (collCfg sa x)) then 6 else st

/-- A role table of a bank breaks the bound on hint records (R175). -/
def rolesBad (sa : State) (bank period : Nat) : Bool := hintsTooMany (globalPorts fun p => sa.reg (roleObj bank) p) period

/-- A row of SW_MC_TABLE names a port whose role is Off in both banks (R199). -/
def mcRowBad (s : State) (v : Nat) : Bool :=
  fabricPorts.any fun p => bitAt v p && s.reg Dict.ROUTE_ROLE_A p = 0 && s.reg Dict.ROUTE_ROLE_B p = 0

/-- A row of SW_ANCHOR_TABLE anchors the group (R202). -/
def anchors (s : State) (r g : Nat) : Bool :=
  bitAt (s.reg Dict.SW_ANCHOR_TABLE r) 31 && fld (s.reg Dict.SW_ANCHOR_TABLE r) 13 0 = g

/-- A number of leading zero bits by which headers are sampled: 0, or 4 to 20 (R203, R526). -/
def sampleBad (v : Nat) : Bool := v ≠ 0 && (decide (v < 4) || decide (20 < v))

/-- What the descriptions of chapters 2, 3 and 5 refuse (R41, R70, R90 to R92, R98, R134, R148 to R150, R175). s is the state at the
boundary, sa the same with the write's rows in their tables (R56). -/
def checkLow (s sa : State) (id row v : Nat) : Nat :=
  match id with
  | 0x000200 => refusal (fabricPorts.any fun p => (s.link p).st = .admitted)
      (fld v 17 0 ≠ 0x3FFFF && (groupOf v = 0xFFF || memberOf v = 0x3F))
  | 0x010103 => refusal false (s.reg Dict.PMAP_MGMT_VF_ALLOW = 0 && (if row = 0 then v / 2 else v) ≠ 0)
  | 0x020300 => refusal false (decide (toSigned 32 v < -32768) || decide (32767 < toSigned 32 v))
  | 0x020500 => refusal false (decide (3 < fld v 63 56))
  | 0x030100 => fecCheck s row v
  | 0x030400 => loopbackCheck s row v
  | 0x030401 => patternCheck s row v
  | 0x030500 => eyeCheck s row v
  | 0x040001 => admitCheck s row v
  | 0x040002 => reinitCheck s row v
  | 0x050100 => refusal (!bankOpen s 0) (groupRowBad v)
  | 0x050101 => refusal (!bankOpen s 1) (groupRowBad v)
  | 0x050200 => refusal (!bankOpen s 0) (decide (48 < validMembers sa fun m => sa.reg Dict.ROUTE_MEMBER_A m))
  | 0x050201 => refusal (!bankOpen s 1) (decide (48 < validMembers sa fun m => sa.reg Dict.ROUTE_MEMBER_B m))
  | 0x050300 => refusal (!bankOpen s 0) (rolesBad sa 0 (s.reg Dict.ROUTE_HINT_PERIOD_ST))
  | 0x050301 => refusal (!bankOpen s 1) (rolesBad sa 1 (s.reg Dict.ROUTE_HINT_PERIOD_ST))
  | 0x050500 => refusal false (rolesBad s 0 v || rolesBad s 1 v)
  | 0x050602 => refusal false (decide (s.reg Dict.ROUTE_INJ_HIGH ≤ v))
  | _ => 0

/-- What the descriptions of chapters 6 to 9 refuse (R183, R198, R199, R202, R203, R206, R217, R222, R234, R254, R255, R259, R263,
R298). onH: the write came through the H port. -/
def checkMid (s sa : State) (onH : Bool) (id row v : Nat) : Nat :=
  match id with
  | 0x060000 => refusal false (decide (v < 69) || decide (16384 < v) ||
      decide (16384 < sumOf (List.range 8) fun i => sa.reg Dict.SW_VC_RESERVE (row / 8 * 8 + i)))
  | 0x060200 => refusal (onH && (List.range 64).any fun r => anchors s r row) (mcRowBad s v)
  | 0x060201 => refusal false (bitAt v 31 && (List.range 64).any fun r => r ≠ row && anchors sa r (fld v 13 0))
  | 0x060300 => refusal false (decide (fld v 111 96 < 64) || (fld v 95 64 ≠ 0 && decide (fld v 63 32 < 4148)))
  | 0x060400 => refusal false (sampleBad v)
  | 0x060404 => cupRingCheck s false v
  | 0x060405 => cupRingCheck s true v
  | 0x070000 => lastEntryCheck s row v
  | 0x070002 => capCheck s row v
  | 0x070200 => ringCheck s row v
  | 0x080100 => refusal (s.queues.qs.any fun c => c.2.func = row && c.2.st ≠ .reset) (funcRowBad sa row)
  | 0x080101 => refusal false (storeHeld s && bitAt v 127 &&
      overlaps (fld v 99 48 * 4096) (fld v 47 12 * 4096) s.host.storeBase (sumOf s.host.storeAreas fun n => n))
  | 0x080102 => refusal s.host.vfEnable false
  | 0x080300 | 0x080301 | 0x080302 => refusal (storeHeld s) false
  | 0x080303 | 0x080304 => refusal false (v % 2 ≠ 0)
  | 0x080305 => storeCtlCheck s v
  | 0x090000 => refusal (storeHeld s) (modeTooSmall s v)
  | _ => 0

/-- What the descriptions of chapters 10 to 18 refuse (R321, R335, R358, R367, R385, R390, R422, R433, R447, R462, R466, R477, R490,
R501, R506, R507, R518, R523, R526). -/
def checkHigh (s sa : State) (id row v : Nat) : Nat :=
  let rto (init most limit : Nat) : Nat := refusal false (rtoBad init most limit)
  let init := s.reg Dict.RMA_RTO_INIT_ST
  let most := s.reg Dict.RMA_RTO_MAX_ST
  match id with
  | 0x0A0000 => refusal false (bitAt v 63 && match funcOfEp s row with
      | none => true
      | some f => !inRange (fld v 62 43) (pdFirst s f) (pdCount s f))
  | 0x0A0101 => rto v most (s.reg Dict.RMA_RETRY_LIMIT)
  | 0x0A0102 => rto init v (s.reg Dict.RMA_RETRY_LIMIT)
  | 0x0A0103 => rto init most v
  | 0x0A0301 => refusal false (decide (s.reg Dict.RMA_RATE_MAX < v))
  | 0x0B0000 | 0x0B0001 => refusal (storeHeld s) false
  | 0x0B0002 => refusal (sa.reg Dict.TRANS_FUNC_SEGS row ≠ s.reg Dict.TRANS_FUNC_SEGS row &&
      s.trans.segs.any fun c => c.2.st = .valid && c.2.func = row) (rangeTaken 1024 row (segRange sa))
  | 0x0C0000 => refusal (epInUse s row) (bitAt v 255 && matchRowBad sa row v)
  | 0x0C0100 => refusal ((List.range 65535).any fun ep =>
      matchValid s ep && rowSlots (matchRow s ep) ≠ 0 && decide (rowSlotBytes (matchRow s ep) < v)) false
  | 0x0D0000 => collRowCheck s sa row v
  | 0x0E0001 => semRightsCheck s row (semRightsKeep v)
  | 0x0E0100 => evringCheck s row v
  | 0x0E0201 => refusal false (decide (row < 8))
  | 0x0F0401 => releaseCheck s v
  | 0x0F0500 => injectCheck s v
  | 0x100300 => departCheck s v
  | 0x110200 => nonceCheck s
  | 0x110300 => stageCtlCheck s v
  | 0x110303 => stageRowCheck s row
  | 0x110304 => chunkDoneCheck s v
  | 0x120000 => refusal false (cntCtlBad row v)
  | 0x120100 => refusal false (decide (1023 < v) && v ≠ 0xFFFF)
  | 0x120200 => refusal false (sampleBad v)
  | _ => 0

/-- The status of a row of a write (R53, R56). -/
def rowStatus (s sa : State) (onH : Bool) (o : Obj) (row v : Nat) : Nat :=
  let st :=
    if o.id < 0x060000 then checkLow s sa o.id row v
    else if o.id < 0x0A0000 then checkMid s sa onH o.id row v else checkHigh s sa o.id row v
  if st = 0x0C then st else if valueBad o v then 0x06 else st

/-- The first failure of a write: wrong-state before bad-value, then the lower row (R56). -/
def firstFailure (l : List Nat) : Nat := if l.contains 0x0C then 0x0C else (l.find? fun x => x ≠ 0).getD 0

/-! ### What a row does -/

/-- TIME_IN_MODE is written: the status follows the mode (R27, R41). -/
def applyTimeIn (s : State) (v : Nat) : State :=
  (s.setReg Dict.TIME_IN_MODE 0 v).updTime fun t =>
    { t with inStatus := if v = 0 then 0 else if s.reg Dict.TIME_IN_MODE = 0 then 1 else t.inStatus, inMissed := 0 }

/-- TIME_ROLE is written (R20). -/
def applyTimeRole (s : State) (v : Nat) : State :=
  if v = 2 then appointMaster s else demote s (if v = 1 then .standby else .follower)

/-- A threshold of a host target (R440, R447). -/
def applyThreshold (s : State) (row v : Nat) : State :=
  s.updClaim fun c => { c with thresholds := tset 0 c.thresholds row v }

/-- A write of ones clears bits of an event register, or of an error count (R7). -/
def applyClear (s : State) (o : Obj) (row v : Nat) : State :=
  if isEventReg o then { s with mon := { s.mon with evreg := tupd 0 s.mon.evreg (regKey o row) fun x => clearBits x v } }
  else s.setReg o row (clearBits (s.reg o row) v)

/-- The written rows that act beyond being stored, subjects 0x01 to 0x0B; none for the rest. -/
def actLow (s : State) (id row v : Nat) : Option State :=
  match id with
  | 0x010100 => some (applyMReset s v)
  | 0x020200 => some (applyTimeRole s v)
  | 0x020400 => some (applyTimeIn s v)
  | 0x020500 => some (writeAction s row v)
  | 0x030001 => some (applyLaneEnable s row v)
  | 0x030100 => some (applyFecMode s row v)
  | 0x030400 => some (applyLoopback s row v)
  | 0x030500 => some (applyEye s row v)
  | 0x040001 => some (admitPort (s.setReg Dict.LINK_ADMIT row v) row (v = 1))
  | 0x040002 => some (applyReinit s row v)
  | 0x050000 => some (bankSwitch s v)
  | 0x050300 => some (applyRole s 0 row v)
  | 0x050301 => some (applyRole s 1 row v)
  | 0x060404 => some (applyCupRing s false v)
  | 0x060405 => some (applyCupRing s true v)
  | 0x070000 => some (applyLastEntry s row v)
  | 0x070200 => some (applyRing s row (keptBits Dict.LAST_RING v))
  | 0x080004 => some (applyModuleEnable s row v)
  | 0x080305 => some (applyStoreCtl s v)
  | 0x0B0100 => some (applyDeviceRegion s row v)
  | _ => none

/-- The same for subjects 0x0D to 0x12; q is the request. -/
def actHigh (s : State) (q : Req) (id row v : Nat) : Option State :=
  match id with
  | 0x0D0000 => some (applyCollGroup s row v)
  | 0x0E0100 => some (applyEvring (s.setReg Dict.SEM_EVRING row (keptBits Dict.SEM_EVRING v)) row)
  | 0x0E0200 => some (applyClaimRow s row v)
  | 0x0E0201 => some (applyThreshold s row v)
  | 0x0F0103 => some (applyFaultNClear s v)
  | 0x0F0202 => some (applyHistoryClear s v)
  | 0x0F0400 => some (applyDeviceIsolate s v)
  | 0x0F0401 => some (applyDeviceRelease s v)
  | 0x0F0402 => some (applyPortIsolate s row v)
  | 0x0F0500 => some (applyInject s v)
  | 0x100002 => some (applyPwrReset s q)
  | 0x100102 => some (if v = 1 then wakePort s row false else s)
  | 0x100300 => some (applyDepart s v)
  | 0x110200 => some (applyNonce s v)
  | 0x110300 => some (applyStageCtl s v)
  | 0x110303 => some (applyStageRow s row v)
  | 0x110304 => some (applyChunkDone s v)
  | 0x120000 => some (applyCntCtl s row v)
  | 0x120001 => some (applyCntValue s row v)
  | 0x120004 => some (if v = 1 then takeSnapshot s else s)
  | 0x120205 => some (applyTraceConsumer s v)
  | _ => none

/-- A row of a write takes effect. -/
def applyRowOf (s : State) (q : Req) (o : Obj) (row v : Nat) : State :=
  if o.access = .w1c then applyClear s o row v
  else match (if o.id < 0x0C0000 then actLow s o.id row v else actHigh s q o.id row v) with
    | some t => t
    | none => s.setReg o row (keptBits o v)

/-! ### A write -/

/-- The rows of a write with their values. -/
def writeRows (q : Req) (o : Obj) : List (Nat × Nat) :=
  (List.range q.count).map fun i => (q.row + i, feedValue q.feed (isText o) ((q.data.drop (i * o.width)).take o.width))

/-- The state with the rows of a write in their table, by which limits over several rows are judged (R56). -/
def withRows (s : State) (o : Obj) (rows : List (Nat × Nat)) : State :=
  { s with regs := rows.foldl (fun t r => regSet t o r.1 (keptBits o r.2)) s.regs }

/-- The status of a write at its boundary (R53, R56). -/
def writeStatusOf (s : State) (q : Req) (o : Obj) : Nat :=
  if windowDormant s q o then 0x09
  else firstFailure ((writeRows q o).map fun r => rowStatus s (withRows s o (writeRows q o)) (onH q) o r.1 r.2)

/-- The whole write takes effect, and the copies of a P object are owed (R56, R58). -/
def effectOf (s : State) (q : Req) (o : Obj) : State :=
  let s1 := forEach s (writeRows q o) fun s r => applyRowOf s q o r.1 r.2
  (if o.persist = .p then forEach s1 (writeRows q o) fun s r => s.persists o r.1 else s1).applied

/-- Refused staging data is counted (R512). -/
def countStaging (s : State) (o : Obj) : State :=
  if o.id = Dict.FW_STAGE_DATA.id ∨ o.id = Dict.FW_CHUNK_DONE.id then s.count 0x886 else s

/-- A write is applied whole, or refused, and answered (R56). -/
def applyReq (s : State) (q : Req) : State :=
  match Dict.find? q.index q.sub with
  | none => answerRefused (s.wrote 0x01) q 0x01
  | some o =>
    let st := writeStatusOf s q o
    if st = 0 then respond ((effectOf s q o).wrote 0) q 0 (respStitch s) []
    else answerRefused ((if st = 0x09 then s else countStaging s o).wrote st) q st

/-- The object that a write names is a TABLE, whose rows are counted in place of the write (R30, R56). -/
def writesTable (q : Req) : Bool := (Dict.find? q.index q.sub).any fun o => o.ty = .table

/-- The front write may be applied now: accepted before the present boundary, and within its budget. The always-on domain and the boot
ROM, which have no boundary, apply a write as they take it (R30, R56, R483, R497). -/
def writeReady (s : State) (q : Req) : Bool :=
  !coreUp s || (decide (q.accAt < s.time.count) &&
    (if writesTable q then decide (s.ctl.usedRows + q.count ≤ 16) else decide (s.ctl.usedWrites < 32)))

/-- The budget of the boundary is charged, for a refused write too (R53). -/
def chargeWrite (c : Ctl) (q : Req) : Ctl :=
  if writesTable q then { c with usedRows := c.usedRows + q.count } else { c with usedWrites := c.usedWrites + 1 }

/-- The front write is taken from the queue and applied. -/
def applyFront (s : State) (q : Req) (rest : List Req) : State :=
  let up := coreUp s
  let s1 := applyReq (s.updCtl fun c => { (if up then chargeWrite c q else c) with applyQ := rest }) q
  if up then s1.latched else s1

/-- WRITE_APPLY: the oldest accepted write is applied at the present boundary, if its budget allows (R30, R56). -/
def execWriteApply (s : State) : Host.Outcome State Fault Refusal :=
  .next (match s.ctl.applyQ with
    | [] => s
    | q :: rest => if writeReady s q then applyFront s q rest else s)

end Sys2Proof.Machine
end

