-- ==== Sys2Proof/Machine/MemErrors.lean ====
section
/-!
DEFINITION. Memory errors that the part meets and that have no row of their own: in the buffers of the switch core (R187, R201), in a last buffer
(R227), in the translation cache (R354), in matching (R383) and in the collective engine (R401).
-/
namespace Sys2Proof.Machine

/-! ### The switch core (R187, R201) -/

/-- A single-bit error is corrected, in a buffer of a port or in the anchored store, which no bench owns (R187, R211, R212). -/
def eccCorrected (s : State) : Option Nat → State
  | some p => if p < 102 then benchEvent ((s.count 0x305 p).raise 0x0601 2 (benchOf p)) p 0 else s
  | none => (s.count 0x305 noInst).raise 0x0601

/-- An uncorrectable error is logged, for the bench of a port's buffer or for the device (R187, R211, R212). -/
def eccFound (s : State) : Option Nat → State
  | some p => benchEvent (s.raise 0x0602 2 (benchOf p)) p 1
  | none => s.raise 0x0602

/-- A packet of which no SOP flit has left is discarded whole (R187). -/
def loseWhole (s : State) (k : SwPkt) : State :=
  let s1 := if k.copies.isEmpty then dropPkt s k.id else forEach s k.copies fun s c => endCopy s c.out k.id false
  benchEvent (s1.count 0x304 k.inPort) k.inPort 2

/-- A copy that its output has begun to send ends BAD (R187). -/
def copyBad (s : State) (k : SwPkt) (c : Copy) : State :=
  if k.bad || c.bad then s else (s.updPkt k.id fun k => k.updCopy c.out fun c => { c with bad := true }).count 0x303 c.out

/-- The anchored store's error marks the copies that have begun, and drops the others (R201). -/
def storeCopyError (s : State) (k : SwPkt) (c : Copy) : State :=
  if 0 < c.sent then copyBad s k c else (endCopy s c.out k.id false).count 0x304 c.out

/-- An uncorrectable error on a flit in the input buffer of a packet, or in the anchored store (R187, R201). -/
def storedFlitError (s : State) (k : SwPkt) : State :=
  if k.anchored then
    if k.copies.any fun c => !crossedAll k c then forEach (eccFound s none) k.copies fun s c => storeCopyError s k c else s
  else if k.inBuffer = 0 ∨ (k.looked ∧ k.stallAt.isNone ∧ k.copies.isEmpty) then s
  else
    let s1 := eccFound s (some k.inPort)
    if !k.begun then loseWhole s1 k
    else if k.bad then s1
    else (s1.updPkt k.id fun k => { k with bad := true }).count 0x303 k.inPort

/-- An uncorrectable error on a flit of a copy in the staging buffer of its output (R187). -/
def stagedFlitError (s : State) (k : SwPkt) (c : Copy) : State :=
  if c.crossed ≤ c.sent then s
  else
    let s1 := eccFound s (some c.out)
    if 0 < c.sent then copyBad s1 k c
    else if k.copies.length ≤ 1 then loseWhole s1 k
    else (endCopy s1 c.out k.id false).count 0x304 c.out

/-! ### The other units -/

/-- An uncorrectable error on the n-th chunk that waits for an entry: its payload is known to be corrupt (R227). -/
def lastBufferError (s : State) (key n : Nat) : State :=
  if (s.last key).queue[n]?.any fun c => !c.bad then
    (chunkLost (s.updLast key fun e => { e with queue := e.queue.modify n fun c => { c with bad := true } }) (lastIn key)).raise 0x0708
  else s

/-- A parity error drops a cached translation (R354). -/
def transCacheError (s : State) (seg va : Nat) : State :=
  match tlbFind s.trans seg va with
  | some x => (s.updTrans fun t => { t with tlb := t.tlb.filter fun y => y ≠ x }).raise 0x0B05
  | none => s

/-- An endpoint has an entry, on die or spilled. -/
def holdsEntry (m : MatchEp) : Bool :=
  !(m.posted.isEmpty && m.postedSpill.isEmpty && m.unexp.isEmpty && m.unexpSpill.isEmpty && m.claimed.isEmpty)

/-- An uncorrectable error in an entry of an endpoint: its matching state is lost (R383). -/
def matchEntryError (s : State) (ep : Nat) : State :=
  let m := s.mep ep
  if !holdsEntry m || m.failed then s
  else
    let s1 := s.raise 0x0C05 5 ep
    match m.search with
    | some x => searchLost s1 ep x.op
    | none => matchLost s1 ep

/-- An uncorrectable error in the buffer of a block that has an input makes the block VOID (R401). -/
def collBufferError (s : State) (row bnum : Nat) : State :=
  if (s.collRow row).blocks.any fun b => b.bnum = bnum && !b.ins.isEmpty then
    (s.updRow row fun x =>
      { x with blocks := x.blocks.map fun b =>
          if b.bnum = bnum then { b with ins := b.ins.map fun i => { i with hdr := { i.hdr with void := true } } } else b }).raise 0x0D05
  else s

/-- A memory error has its effect. -/
def memError (s : State) : MemError → State
  | .corrected port => eccCorrected s port
  | .storedFlit pkt => match s.pkt? pkt with
    | some k => storedFlitError s k
    | none => s
  | .stagedFlit pkt out => match s.pkt? pkt with
    | some k => match k.copyTo out with
      | some c => stagedFlitError s k c
      | none => s
    | none => s
  | .lastBuffer port index n => lastBufferError s (4096 * port + index) n
  | .transCache seg va => transCacheError s seg va
  | .matchEntry ep => matchEntryError s ep
  | .collBuffer row bnum => collBufferError s row bnum

/-- The memory errors of the stitch that ends. -/
def memErrors (s : State) (l : List MemError) : State := forEach s l memError

end Sys2Proof.Machine
end

