-- ==== Sys2Proof/Machine/Boundary.lean ====
section
/-!
DEFINITION. STITCH_BOUNDARY (R31): what one stitch boundary does to the whole part, in order: the stitch that ends is counted,
the count advances, time and stitch actions, what the units had due, the dictionary writes, and what the stitch that begins sends.
-/
namespace Sys2Proof.Machine

/-! ### The stitch that ends (R515) -/

/-- A packet waits for credits of a port's VC (R136). -/
def creditWait (s : State) (p : Nat) : Bool :=
  let l := s.link p
  l.st ≠ .down && (waitersOf s p).any fun k => (k.copyTo p).any fun c => stateAllows l c.vc && decide (credits l c.vc < k.total)

/-- The stitch events of a fabric port (R136, R212, R492). -/
def portStitchEvents (s : State) (p : Nat) : State :=
  let sp := s.inPort p
  let s1 := if sp.lent ≠ 0 ∨ sp.loan.any (· ≠ 0) then s.count 0x30B p else s
  let s2 := if (s.lane p).st = .rest then s1.count 0x800 p else s1
  let s3 := if 2047 ≤ outstanding (s.link p) then s2.count 0x20D p else s2
  if creditWait s p then s3.count 0x20E p else s3

/-- The functions that an entry without a context place keeps waiting (R314, R337). -/
def placeWaiters (s : State) : List Nat :=
  s.rma.req.foldl (fun l c => if c.2.st = .free then c.2.msgs.foldl (fun l m => if l.contains m.func then l else l ++ [m.func]) l else l) []

/-- The event of the time state that the stitch was spent in (R43, R515). -/
def stateEvent (s : State) : State :=
  match s.time.st with
  | .locked => s.count 0x004
  | .doubt => s.count 0x103
  | .lost => s.count 0x104
  | _ => s

/-- Device-wide conditions that held in the stitch, with their events (R43, R177, R265, R300, R360, R449, R470). -/
def deviceConditions (s : State) : List (Nat × Bool) :=
  [(0x105, s.time.steer.natAbs = 20000), (0x28B, s.sw.outs.any (·.2.throttled)), (0x408, decide (s.host.units < 8)),
   (0x48C, s.queues.stageHeld), (0x58B, s.trans.queueFull), (0x784, s.mon.fault.hold), (0x785, s.mon.fault.isolated)]

/-- Every event that counts core cycles or stitches with a condition, for the stitch that ends (R515). -/
def stitchEvents (s : State) : State :=
  let s1 := stateEvent (s.count 0x001 0 128)
  let s2 := forEach s1 (deviceConditions s) fun s c => if c.2 then s.count c.1 else s
  let s3 := forEach s2 (s.sw.outs.filter fun c => c.2.starved) fun s c => s.count 0x30A c.1
  let s4 := forEach s3 (s.sw.groups.filter fun c => c.2.held) fun s c => s.count 0x30C c.1
  let s5 := forEach s4 (placeWaiters s) fun s f => s.count 0x506 f
  forEach s5 fabricPorts portStitchEvents

/-- The budgets and the marks of the stitch that ends start afresh (R38). -/
def freshBudgets (s : State) : State :=
  { s with
    ctl := { s.ctl with usedWrites := 0, usedRows := 0, readCharge := s.ctl.readCharge - 64 }
    sem := { s.sem with done := 0, written := 0 }
    links := tmap {} (fun l => { l with slotAt := 0, ctlSent := 0, acksSent := 0, hintsSent := 0, sigsSent := 0 }) s.links
    host := { s.host with hpCharge := tmap 0 (fun n => n - hostRate s) s.host.hpCharge }
    queues := { s.queues with stageHeld := false }
    trans := { s.trans with queueFull := false }
    sw := { s.sw with
      ports := tmap {} (fun x => { x with lent := 0 }) s.sw.ports
      outs := tmap {} (fun x => { x with starved := false }) s.sw.outs
      groups := tmap {} (fun g => { g with held := false }) s.sw.groups
      cup := { s.sw.cup with made := 0, given := 0 } }
    mon := { s.mon with
      fault := { s.mon.fault with logged := 0 }
      cnt := { s.mon.cnt with traceNow := 0 } } }

/-! ### The count, the servo and the time state (R12, R13, R25, R34, R40) -/

/-- The count of the stitch that begins: one more, or one more than the count that an exchange asked for (R12, R25). A step leaves rows of
TIME_ACTIONS behind (R34). -/
def newCount (s : State) : State :=
  match s.time.stepTo with
  | some c => missActions (s.updTime fun t => { t with count := c + 1, stepTo := none }) (c + 1)
  | none => s.updTime fun t => { t with count := t.count + 1 }

/-- The steering moves towards a target by at most 0.1 ppm, within a bound (R13, R27). -/
def steerTo (now target bound : Int) : Int := max (-bound) (min bound (now + max (-100) (min 100 (target - now))))

/-- The servo steers towards what its filtered offset asks for, a master towards what TIME_IN asks for; without either it holds (R13, R18, R27). -/
def servo (s : State) : State :=
  s.updTime fun t =>
    if isMaster t then (if t.inStatus = 2 then { t with steer := steerTo t.steer t.inSteer 1000 } else t)
    else if t.parent.isSome then { t with steer := steerTo t.steer (Config.servoTarget t.filtered) 20000 } else t

/-- A master starts a probe round every 16 st, with its own count as the stamp (R15, R21). -/
def probeRound (s : State) : State :=
  if isMaster s.time ∧ s.time.count % 16 = 0 then s.updTime fun t => { t with stamp := t.count, hasStamp := true } else s

/-- The state that an exchange asked for is entered (R25). -/
def timeDue (s : State) : State :=
  match s.time.due with
  | some st => (timeEnter s st).updTime fun t => { t with due := none }
  | none => s

/-- A task's third overrun is logged and takes effect; the servo's takes a Locked router to Doubt (R40). -/
def overrunDue (s : State) (slice : Nat) : State :=
  let s1 := (s.raise 0x0208 10 (sliceCore slice) slice).fire 116
  if slice = 0 ∧ s1.time.st = .locked ∧ !isMaster s1.time then timeEnter s1 .doubt else s1

/-- Everything time does at a boundary, but the choice of the parent. -/
def timeBoundary (s : State) : State :=
  let s1 := timeDue (probeRound (servo s))
  (forEach s1 s1.exe.due overrunDue)

/-! ### Stitch actions (R31, R32, R40) -/

/-- What an action does. -/
def doAction (s : State) (a : Action) : State :=
  match a.action with
  | 1 => takeSnapshot s
  | 2 => bankSwitch s (a.arg % 2)
  | 3 => claimPend s (a.arg % 1024)
  | _ => s

/-- A due row is performed, or performed late (R32, R40). -/
def performAction (s : State) (row : Nat) : State :=
  let a := tget {} s.time.actions row
  let late := decide (a.target < s.time.count)
  let s1 := ((doAction s a).updTime fun t =>
    { t with actions := tset {} t.actions row { a with st := if late then .late else .performed } }).count 0x107
  if late then (s1.raise 0x0207).fire 114 else s1.fire 113

/-- The rows due at this boundary, ascending (R31). -/
def dueActions (s : State) : List Nat :=
  (List.range 16).filter fun r => (tget {} s.time.actions r).st = .pending && decide ((tget {} s.time.actions r).target ≤ s.time.count)

/-- The stitch actions, unless their task is behind (R31, R40). -/
def runActions (s : State) : State := if s.exe.servicesBehind then s else forEach s (dueActions s) performAction

/-! ### Ports (R128, R129, R478) -/

/-- The partner's Isolated takes effect (R128). -/
def haltPort (s : State) (p : Nat) : State :=
  (closeInput s p).updLink p fun l => { l with halted := true, haltDue := false, replay := [], replayPos := none }

/-- No port enters Listening: the device is isolated, or becomes so at this boundary (R129). -/
def noListening (s : State) : Bool := s.mon.fault.isolated || s.mon.fault.isolateDue.isSome || s.mon.fault.fatalDue.isSome

/-- The partner's Leaving: the port is unusable from the next boundary, and Down at the frame boundary (R478). -/
def leaveTurn (s : State) (p : Nat) (frame : Bool) : State :=
  match (s.link p).leaveAt with
  | none => s
  | some b =>
    if frame ∧ b ≤ s.time.count then laneEnter (enterLink s p .down) p .detect
    else s.updLink p fun l => { l with leaving := true }

/-- The transition that a port asked for (R129). -/
def dueTurn (s : State) (p : Nat) : State :=
  match (s.link p).due with
  | none => s
  | some .listening => if noListening s then s.updLink p fun l => { l with due := none } else enterLink s p .listening
  | some d => enterLink s p d

/-- The transitions of a port at a boundary (R128, R129, R131, R478). -/
def linkTurn (frame : Bool) (s : State) (p : Nat) : State :=
  let s1 := if (s.link p).haltDue then haltPort s p else s
  let s2 := dueTurn (leaveTurn s1 p frame) p
  let l := s2.link p
  if l.st = .listening ∧ l.init1Rx ∧ l.init1Tx ∧ !noListening s2 then enterLink s2 p .quarantine else s2

/-! ### What the units had due -/

/-- The harmless states that were decided take effect (R462, R463, R464). -/
def faultTurn (s : State) : State :=
  let s1 := match s.mon.fault.isolateDue with
    | some c => isolateNow s c
    | none => s
  let s2 := if s1.mon.fault.holdDue then holdNow s1 else s1
  match s2.mon.fault.fatalDue with
  | some code => fatalNow s2 code
  | none => s2

/-- The resets that were decided take effect (R69, R261). -/
def resetTurn (s : State) : State :=
  let s1 := if s.ctl.mResetDue then mPortReset s else s
  if s1.host.dieDue then hostDie s1 else s1

/-- The units on the host's side and the bank at a boundary (R245, R275, R330, R340, R374, R392, R420, R435). -/
def unitTurn (s : State) (frame : Bool) : State :=
  let s1 := evFlush (semBank s)
  let s2 := if s1.sem.ops.isEmpty then s1 else s1.count 0x707
  let s3 := queuesBoundary (transBoundary (unitsBoundary s2))
  let s4 := resumeAll (forEach s3 (s3.rma.req.map (·.1)) rateBoundary)
  collBoundary (matchBoundary s4) frame

/-- The parent is chosen, and a resting parent port woken (R16, R481). -/
def parentTurn (s : State) (frame : Bool) : State :=
  let s1 := parentChoice s frame
  match s1.time.parent with
  | some p => if s1.time.parent = s.time.parent then s1 else wakePort s1 p false
  | none => s1

/-! ### The dictionary writes (R30, R31, R40) -/

/-- The writes that fit the boundary's budget, in order. -/
def applyWrites (s : State) : Nat → State
  | 0 => s
  | n + 1 =>
    match s.ctl.applyQ with
    | [] => s
    | q :: rest => if writeReady s q then applyWrites (applyFront s q rest) n else s

/-- A write accepted before the boundary has waited for budget (R72). -/
def writeWaits (s : State) : Bool := s.ctl.applyQ.any fun q => decide (q.accAt < s.time.count)

/-- The dictionary writes of the boundary; none while their task is behind (R31, R40). -/
def writeTurn (s : State) : State :=
  let s0 := if s.exe.dictBehind then s.updCtl fun c => { c with usedWrites := 32, usedRows := 16 } else s
  let s1 := applyWrites s0 288
  if writeWaits s1 then s1.count 0x087 else s1

/-! ### What the stitch that begins sends -/

/-- The accrual of the shaped groups (R196). -/
def shaperTurn (s : State) : State :=
  let keys := (s.regs.filter fun c => c.1 / 1048576 = Dict.SW_INJ_GROUP.id).map fun c => c.1 % 1048576
  forEach s keys fun s g =>
    let row := s.reg Dict.SW_INJ_GROUP g
    if fld row 95 64 = 0 then s
    else s.updSw fun w => { w with groups := tupd {} w.groups g fun x =>
      { x with tokens := min ((fld row 63 32 : Nat) * 1024) (x.tokens + (fld row 95 64 : Nat)) } }

/-- The port sends Rest-request: it asks for rest, or answers its partner (R95). Only Normal gives way to it (R81). -/
def restRequest (s : State) (p : Nat) : Bool := ((s.lane p).askRest || (s.link p).psc = some 4) && couldRest s p

/-- The seam of a port: its marker, and the pace blocks that its accumulator asks for (R76, R77, R79, R81). -/
def sendMarker (env : TickEnv) (s : State) (p : Nat) : State :=
  let l := s.lane p
  if !hasSlots l then s
  else
    let code := pscOf s p
    let rest := code = 0 && restRequest s p
    let acc := l.pace + ((env.drift.find? fun d => d.1 = p).map (·.2)).getD 0
    let pace : Nat := if 1000000 ≤ acc then 8 else if acc ≤ -1000000 then 6 else 7
    let payload := packMarker (s.time.count % 2 ^ 24) (if rest then 4 else code) (s.reg Dict.LANE_FEC_RX_MODE p = 0) p
    let s1 := (s.updLane p fun l =>
      { l with
        pace := acc - ((pace : Int) - 7) * 1000000, sentRest := rest
        askRest := rest && l.askRest, restRun := if rest then l.restRun else 0 }).emit (.marker p payload pace)
    if pace = 8 then s1.count 0x184 p else if pace = 6 then s1.count 0x185 p else s1

/-- The probe that a port sends in stitch n + 1 on the markers of stitch n; the phase at which its own marker left is not known to the model
(R21, R122). -/
def probeNow (s : State) (p : Nat) : TimeProbe :=
  let t := s.time
  let n := (t.count - 1) % 2 ^ 24
  { mstitch := n, t2 := (s.tport p).t2, t3 := n * 65536 + s.free % 65536, tstate := t.st.code, master := isMaster t, errEst := toSigned 32 (psWord s t.errEst)
    hops := t.hops, masterFna := t.masterFna, gen := t.gen, mstamp := t.stamp }

/-- A port whose turn it is sends its probe (R21). -/
def sendProbe (s : State) (p : Nat) : State :=
  if p % 16 = s.time.count % 16 ∧ probesRun (s.link p) ∧ (s.lane p).st = .up then
    (sendCtl (s.updLink p fun l => { l with ctlQ := l.ctlQ.filter fun f => subtypeOf f.body ≠ 3 }) p (packProbe (probeNow s p))).took.count 0x100
  else s

/-- The CREDIT_SYNC of a frame: due in stitch 512, skipped when the frame ends without it (R115). -/
def syncTurn (s : State) (p : Nat) : State :=
  if s.time.count % 1024 = 0 ∧ (s.link p).syncDue then (s.updLink p fun l => { l with syncDue := false }).count 0x20B p
  else if s.time.count % 1024 = 512 ∧ inService (s.link p) then s.updLink p fun l => { l with syncDue := true }
  else s

/-- A port sends INIT every 4 st in Listening, and in Quarantine while its partner still sends Listening (R131). -/
def sendInit (s : State) (p : Nat) : State :=
  let l := s.link p
  if (s.time.count - l.listenAt) % 4 = 0 ∧ (l.st = .listening ∨ (l.st = .quarantine ∧ l.psc = some 6)) ∧
      !(l.ctlQ.any fun f => subtypeOf f.body = 7) then sendCtl s p (packInit (initBody s p))
  else s

/-- The LAST_SIGNAL flits of a port (R118, R124, R233). -/
def sendSignals (s : State) (p : Nat) : State :=
  if !sendsControl s p then s
  else
    let r := takeSignals s.lasts.entries p 28
    if r.1.isEmpty then s
    else
      ((s.updLasts fun u => { u with entries := r.2 }).updLink p fun l =>
        { l with ctlQ := l.ctlQ ++ (cutSeven (r.1.map packSig) 4).map fun x => ctlFlit (packRecords 5 x) }).count 0x386 p r.1.length

/-- What a port queues for the bypass channel in the stitch that begins. -/
def portSends (s : State) (p : Nat) : State := sendSignals (sendInit (syncTurn (sendProbe s p) p) p) p

/-- TIME_OUT: a pulse at each frame boundary, or at each whole second of the count (R28). -/
def timeOutPulse (s : State) : State :=
  let mode := s.reg Dict.TIME_OUT_MODE
  if (mode = 1 ∧ s.time.count % 1024 = 0) ∨ (mode = 2 ∧ s.time.count % 9765625 = 0) then s.emit .timeOut else s

/-! ### Frames -/

/-- A bench domain of which all eight rows of LANE_ENABLE are 0 is gated (R480). -/
def gateBench (s : State) (b : Nat) : State :=
  if benchWanted s b then s
  else s.updPwr fun w => { w with benches := clearBits w.benches (2 ^ b), benchUp := clearBits w.benchUp (2 ^ b) }

/-- The idle time of a port's transmit direction, in frames without a break (R95, R481), and its Bypass count of the frame that ends (R84). -/
def laneTurn (frame : Bool) (s : State) (p : Nat) : State :=
  let idle := transmitIdle s p
  s.updLane p fun l =>
    { l with
      idleFrames := if !idle then 0 else if frame then l.idleFrames + 1 else l.idleFrames
      bypPrev := if frame then l.bypNow else l.bypPrev
      bypNow := if frame then 0 else l.bypNow }

/-- What a frame boundary adds (R480, R482). -/
def frameTurn (s : State) : State := standbyCount (forEach s (List.range 12) gateBench)

/-! ### The boundary -/

/-- The executive's marks of the stitch before have had their effect (R40). -/
def executiveDone (s : State) : State := { s with exe := { s.exe with servicesBehind := false, dictBehind := false, servoWhole := true, due := [] } }

/-- What the stitch that begins sends (R21, R28, R76, R115, R131, R159, R205). -/
def sendTurn (env : TickEnv) (s : State) : State :=
  let s1 := cupToRing (shaperTurn s) 1024
  let s2 := forEach s1 fabricPorts (sendMarker env)
  timeOutPulse (publishHints (forEach s2 fabricPorts portSends))

/-- The boundary up to the harmless states: the count, time, actions, and every transition that was decided. -/
def decidedTurn (s : State) (frame : Bool) : State :=
  let s1 := runActions (timeBoundary s)
  let s2 := (if frame then (s1.count 0x002).count 0x003 else s1.count 0x002)
  let s3 := requeueAll (lastsBoundary s2 frame)
  let s4 := forEach s3 (s3.sw.outs.map (·.1)) judgeThrottle
  resetTurn (faultTurn (forEach s4 fabricPorts (linkTurn frame)))

/-- The rest of a boundary of a part that runs. -/
def runningTurn (env : TickEnv) (s : State) (frame : Bool) : State :=
  let s1 := writeTurn (parentTurn (unitTurn s frame) frame)
  let s2 := forEach (executiveDone s1) fabricPorts (laneTurn frame)
  sendTurn env (if frame then frameTurn s2 else s2)

/-- The errors that the part met in the stitch that ends. -/
def errorsSeen (env : TickEnv) (s : State) : State :=
  forEach (memErrors s env.errors) env.patternErrors fun s e => patternErrors s e.1 e.2

/-- The boundary of a part that runs (R29, R31). A part that becomes Fatal goes on with its seams alone (R463). -/
def runBoundary (env : TickEnv) (s : State) : State :=
  let s1 := newCount (freshBudgets (stitchEvents (errorsSeen env s)))
  let frame := decide (s1.time.count % 1024 = 0)
  let s2 := decidedTurn s1 frame
  (if coreUp s2 then runningTurn env s2 frame else forEach s2 fabricPorts (sendMarker env)).latched

/-- The boundary of a part whose count runs but whose firmware does not: it starts up, or it is Fatal and only its seams go on (R463, R475). -/
def quietBoundary (env : TickEnv) (s : State) : State :=
  let s1 := s.updTime fun t => { t with count := t.count + 1 }
  (if s.mon.fault.fatal then forEach s1 fabricPorts (sendMarker env) else s1).latched

/-- STITCH_BOUNDARY: a stitch boundary with the core rail and the drift of the lines as the surroundings give them. Until start-up has
reached step 3 no count runs, and only the supply is seen (R468, R475). -/
def execStitchBoundary (env : TickEnv) (s : State) : Host.Outcome State Fault Refusal :=
  let s1 := s.updFault fun f => { f with mv := env.railMv, lowest := if inDip f then min f.lowest env.railMv else f.lowest }
  .next (if s.pwr.off then s
    else if s.pwr.step < 3 then advance s1
    else if coreUp s then runBoundary env s1
    else quietBoundary env s1)

end Sys2Proof.Machine
end

