-- ==== Sys2Proof/Machine/Dispatch.lean ====
section
/-!
DEFINITION. One arm per command: the direct call of its meaning.
-/
namespace Sys2Proof.Machine

/-- The effect of a command on everything but the queue. -/
def exec (i : Instr) (s : State) : Host.Outcome State Fault Refusal :=
  match i with
  | .stitchBoundary env => Sys2Proof.Machine.execStitchBoundary env s
  | .cobblerSliceEnd slice cycles done => Sys2Proof.Machine.execCobblerSliceEnd slice cycles done s
  | .timeProbeReceive port n t1 t4 probe => Sys2Proof.Machine.execTimeProbeReceive port n t1 t4 probe s
  | .standbyTakeover => Sys2Proof.Machine.execStandbyTakeover s
  | .timeNoSyncLimit => Sys2Proof.Machine.execTimeNoSyncLimit s
  | .timeAcquireSlow => Sys2Proof.Machine.execTimeAcquireSlow s
  | .timeRoleMaster => Sys2Proof.Machine.execTimeRoleMaster s
  | .timeRoleFollower => Sys2Proof.Machine.execTimeRoleFollower s
  | .timeRoleStandby => Sys2Proof.Machine.execTimeRoleStandby s
  | .timeInEdge residue missNs => Sys2Proof.Machine.execTimeInEdge residue missNs s
  | .timeInLost => Sys2Proof.Machine.execTimeInLost s
  | .timeActionsWrite row value => Sys2Proof.Machine.execTimeActionsWrite row value s
  | .dictRead => Sys2Proof.Machine.execDictRead s
  | .dictWrite => Sys2Proof.Machine.execDictWrite s
  | .dictDescribe => Sys2Proof.Machine.execDictDescribe s
  | .dictEcho => Sys2Proof.Machine.execDictEcho s
  | .readServe => Sys2Proof.Machine.execReadServe s
  | .writeApply => Sys2Proof.Machine.execWriteApply s
  | .persistCopy ok => Sys2Proof.Machine.execPersistCopy ok s
  | .mbxDoorbell bytes => Sys2Proof.Machine.execMbxDoorbell bytes s
  | .mbxRespDone value => Sys2Proof.Machine.execMbxRespDone value s
  | .mgmtRequestPacket => Sys2Proof.Machine.execMgmtRequestPacket s
  | .dupFilterExpiry => Sys2Proof.Machine.execDupFilterExpiry s
  | .mgmtEntry queue => Sys2Proof.Machine.execMgmtEntry queue s
  | .mgmtResponsePacket port => Sys2Proof.Machine.execMgmtResponsePacket port s
  | .mgmtSlotTimeout slot => Sys2Proof.Machine.execMgmtSlotTimeout slot s
  | .sbRequestWrite bytes byteCount pec => Sys2Proof.Machine.execSbRequestWrite bytes byteCount pec s
  | .sbResponseRead => Sys2Proof.Machine.execSbResponseRead s
  | .sbStatusRead => Sys2Proof.Machine.execSbStatusRead s
  | .sbResetByte value => Sys2Proof.Machine.execSbResetByte value s
  | .sbDynamicAddress address => Sys2Proof.Machine.execSbDynamicAddress address s
  | .ctlMInbandEnableWrite value => Sys2Proof.Machine.execCtlMInbandEnableWrite value s
  | .ctlMResetWrite value => Sys2Proof.Machine.execCtlMResetWrite value s
  | .mIdleResetExpiry => Sys2Proof.Machine.execMIdleResetExpiry s
  | .mPortReset => Sys2Proof.Machine.execMPortReset s
  | .signalDetect port => Sys2Proof.Machine.execSignalDetect port s
  | .signalLost port => Sys2Proof.Machine.execSignalLost port s
  | .laneAdaptDone port eye => Sys2Proof.Machine.execLaneAdaptDone port eye s
  | .blockReceive lane header payload => Sys2Proof.Machine.execBlockReceive lane header payload s
  | .trainingBlockReceive lane payload inverted => Sys2Proof.Machine.execTrainingBlockReceive lane payload inverted s
  | .codewordReceive port symbols => Sys2Proof.Machine.execCodewordReceive port symbols s
  | .markerReceive port payload pace spoiled => Sys2Proof.Machine.execMarkerReceive port payload pace spoiled s
  | .laneBringupTimeout port => Sys2Proof.Machine.execLaneBringupTimeout port s
  | .laneFailedRetry port => Sys2Proof.Machine.execLaneFailedRetry port s
  | .laneEnableWrite port value => Sys2Proof.Machine.execLaneEnableWrite port value s
  | .laneFecRxModeWrite port value => Sys2Proof.Machine.execLaneFecRxModeWrite port value s
  | .laneLoopbackWrite port value => Sys2Proof.Machine.execLaneLoopbackWrite port value s
  | .lanePatternWrite port value => Sys2Proof.Machine.execLanePatternWrite port value s
  | .eyeScanGo lane value => Sys2Proof.Machine.execEyeScanGo lane value s
  | .eyeScanDone lane errors => Sys2Proof.Machine.execEyeScanDone lane errors s
  | .restIdleTimerExpiry port => Sys2Proof.Machine.execRestIdleTimerExpiry port s
  | .restEnter port => Sys2Proof.Machine.execRestEnter port s
  | .restWake port => Sys2Proof.Machine.execRestWake port s
  | .pwrWakePortWrite port value => Sys2Proof.Machine.execPwrWakePortWrite port value s
  | .wakeTimeout port => Sys2Proof.Machine.execWakeTimeout port s
  | .flitReceive port pos flit spoiled => Sys2Proof.Machine.execFlitReceive port pos flit spoiled s
  | .ackcrTimer port => Sys2Proof.Machine.execAckcrTimer port s
  | .ackcrReceive port a => Sys2Proof.Machine.execAckcrReceive port a s
  | .replayReceive port num nakId => Sys2Proof.Machine.execReplayReceive port num nakId s
  | .nakWaitTimeout port => Sys2Proof.Machine.execNakWaitTimeout port s
  | .replayTimeout port => Sys2Proof.Machine.execReplayTimeout port s
  | .creditSyncReceive port c => Sys2Proof.Machine.execCreditSyncReceive port c s
  | .initReceive port b => Sys2Proof.Machine.execInitReceive port b s
  | .linkInitSlow port => Sys2Proof.Machine.execLinkInitSlow port s
  | .linkAdmitWrite port value => Sys2Proof.Machine.execLinkAdmitWrite port value s
  | .linkReinitWrite port value => Sys2Proof.Machine.execLinkReinitWrite port value s
  | .congHintReceive port records => Sys2Proof.Machine.execCongHintReceive port records s
  | .packetInject port => Sys2Proof.Machine.execPacketInject port s
  | .packetLookup port => Sys2Proof.Machine.execPacketLookup port s
  | .routeBankWrite value => Sys2Proof.Machine.execRouteBankWrite value s
  | .bankDrainHorizon => Sys2Proof.Machine.execBankDrainHorizon s
  | .openPacketAgeOut out => Sys2Proof.Machine.execOpenPacketAgeOut out s
  | .arbiterGrant out => Sys2Proof.Machine.execArbiterGrant out s
  | .egressSlot port slot => Sys2Proof.Machine.execEgressSlot port slot s
  | .anchorAdmit port => Sys2Proof.Machine.execAnchorAdmit port s
  | .anchorStall port => Sys2Proof.Machine.execAnchorStall port s
  | .hostDeliver out => Sys2Proof.Machine.execHostDeliver out s
  | .cupInbandSend => Sys2Proof.Machine.execCupInbandSend s
  | .cupPacketDeliver hp => Sys2Proof.Machine.execCupPacketDeliver hp s
  | .cupRingBaseWrite order value => Sys2Proof.Machine.execCupRingBaseWrite order value s
  | .lastEntryOpen port index value => Sys2Proof.Machine.execLastEntryOpen port index value s
  | .lastEntryClose port index value => Sys2Proof.Machine.execLastEntryClose port index value s
  | .lastArmCheck port index => Sys2Proof.Machine.execLastArmCheck port index s
  | .lastedFlitReceive port pos tag data bad => Sys2Proof.Machine.execLastedFlitReceive port pos tag data bad s
  | .lastSignalReceive port records => Sys2Proof.Machine.execLastSignalReceive port records s
  | .wrapTimer port index => Sys2Proof.Machine.execWrapTimer port index s
  | .wrapDeliver hp => Sys2Proof.Machine.execWrapDeliver hp s
  | .lastRingProducerWrite ring value => Sys2Proof.Machine.execLastRingProducerWrite ring value s
  | .lastRingConsumerWrite ring value => Sys2Proof.Machine.execLastRingConsumerWrite ring value s
  | .moduleTrainStart m => Sys2Proof.Machine.execModuleTrainStart m s
  | .moduleTrainDone m result repaired => Sys2Proof.Machine.execModuleTrainDone m result repaired s
  | .moduleRetrain m => Sys2Proof.Machine.execModuleRetrain m s
  | .moduleRetrainDone m result repaired => Sys2Proof.Machine.execModuleRetrainDone m result repaired s
  | .moduleRetrainTimeout m => Sys2Proof.Machine.execModuleRetrainTimeout m s
  | .moduleFailedRetry m => Sys2Proof.Machine.execModuleFailedRetry m s
  | .attachModuleEnableWrite m value => Sys2Proof.Machine.execAttachModuleEnableWrite m value s
  | .snoopReceive line kind => Sys2Proof.Machine.execSnoopReceive line kind s
  | .watchRefetchDone tag data bad => Sys2Proof.Machine.execWatchRefetchDone tag data bad s
  | .hostReadComplete tag data bad => Sys2Proof.Machine.execHostReadComplete tag data bad s
  | .hostWriteObserved tag => Sys2Proof.Machine.execHostWriteObserved tag s
  | .functionResetRequest func => Sys2Proof.Machine.execFunctionResetRequest func s
  | .functionResetComplete func => Sys2Proof.Machine.execFunctionResetComplete func s
  | .functionResetSlow func => Sys2Proof.Machine.execFunctionResetSlow func s
  | .vfEnableWrite enable num => Sys2Proof.Machine.execVfEnableWrite enable num s
  | .mmioWrite func bar offset data => Sys2Proof.Machine.execMmioWrite func bar offset data s
  | .storeGive => Sys2Proof.Machine.execStoreGive s
  | .storeReturn => Sys2Proof.Machine.execStoreReturn s
  | .storeReturnDone => Sys2Proof.Machine.execStoreReturnDone s
  | .hostDieReset => Sys2Proof.Machine.execHostDieReset s
  | .claimRead target => Sys2Proof.Machine.execClaimRead target s
  | .claimComplete target source => Sys2Proof.Machine.execClaimComplete target source s
  | .claimPendset target source => Sys2Proof.Machine.execClaimPendset target source s
  | .claimPresent => Sys2Proof.Machine.execClaimPresent s
  | .wqProducerDoorbell func queue value => Sys2Proof.Machine.execWqProducerDoorbell func queue value s
  | .wqInvalidate func queue => Sys2Proof.Machine.execWqInvalidate func queue s
  | .crConsumerWrite func queue value => Sys2Proof.Machine.execCrConsumerWrite func queue value s
  | .crArm func queue value => Sys2Proof.Machine.execCrArm func queue value s
  | .qEnable func queue value => Sys2Proof.Machine.execQEnable func queue value s
  | .qEnableCheck queue => Sys2Proof.Machine.execQEnableCheck queue s
  | .qConfigWrite func queue offset data => Sys2Proof.Machine.execQConfigWrite func queue offset data s
  | .push func queue offset data => Sys2Proof.Machine.execPush func queue offset data s
  | .entryConsume queue => Sys2Proof.Machine.execEntryConsume queue s
  | .phaseRetry queue => Sys2Proof.Machine.execPhaseRetry queue s
  | .crFullLimit queue => Sys2Proof.Machine.execCrFullLimit queue s
  | .nop queue => Sys2Proof.Machine.execNop queue s
  | .put queue => Sys2Proof.Machine.execPut queue s
  | .get queue => Sys2Proof.Machine.execGet queue s
  | .send queue => Sys2Proof.Machine.execSend queue s
  | .atomic queue => Sys2Proof.Machine.execAtomic queue s
  | .fetchAtomic queue => Sys2Proof.Machine.execFetchAtomic queue s
  | .atomic128 queue => Sys2Proof.Machine.execAtomic128 queue s
  | .fetchAtomic128 queue => Sys2Proof.Machine.execFetchAtomic128 queue s
  | .fence queue => Sys2Proof.Machine.execFence queue s
  | .segRevoke queue => Sys2Proof.Machine.execSegRevoke queue s
  | .revokeDrainDone seg => Sys2Proof.Machine.execRevokeDrainDone seg s
  | .revokeSlow seg => Sys2Proof.Machine.execRevokeSlow seg s
  | .peerClose queue => Sys2Proof.Machine.execPeerClose queue s
  | .putReceive hp => Sys2Proof.Machine.execPutReceive hp s
  | .getReceive hp => Sys2Proof.Machine.execGetReceive hp s
  | .atomicReceive hp => Sys2Proof.Machine.execAtomicReceive hp s
  | .fetchAtomicReceive hp => Sys2Proof.Machine.execFetchAtomicReceive hp s
  | .releaseReceive hp => Sys2Proof.Machine.execReleaseReceive hp s
  | .ackReceive hp => Sys2Proof.Machine.execAckReceive hp s
  | .ackErrorReceive hp => Sys2Proof.Machine.execAckErrorReceive hp s
  | .ackRetryLaterReceive hp => Sys2Proof.Machine.execAckRetryLaterReceive hp s
  | .ackNoContextReceive hp => Sys2Proof.Machine.execAckNoContextReceive hp s
  | .ackCloseReceive hp => Sys2Proof.Machine.execAckCloseReceive hp s
  | .ackResponsesReceive hp => Sys2Proof.Machine.execAckResponsesReceive hp s
  | .getRespReceive hp => Sys2Proof.Machine.execGetRespReceive hp s
  | .atomicRespReceive hp => Sys2Proof.Machine.execAtomicRespReceive hp s
  | .rtoExpiry sep dfna => Sys2Proof.Machine.execRtoExpiry sep dfna s
  | .backoffExpiry sep dfna => Sys2Proof.Machine.execBackoffExpiry sep dfna s
  | .ackDelayTimer responses node ep => Sys2Proof.Machine.execAckDelayTimer responses node ep s
  | .peerIdleExpiry sep dfna => Sys2Proof.Machine.execPeerIdleExpiry sep dfna s
  | .peerClosingEnd sep dfna => Sys2Proof.Machine.execPeerClosingEnd sep dfna s
  | .respCacheAgeOut => Sys2Proof.Machine.execRespCacheAgeOut s
  | .ratePeriod sep dfna => Sys2Proof.Machine.execRatePeriod sep dfna s
  | .contextFetchDone req node ep bad => Sys2Proof.Machine.execContextFetchDone req node ep bad s
  | .segRegister queue => Sys2Proof.Machine.execSegRegister queue s
  | .invalRange queue => Sys2Proof.Machine.execInvalRange queue s
  | .invalSeg queue => Sys2Proof.Machine.execInvalSeg queue s
  | .invalComplete queue => Sys2Proof.Machine.execInvalComplete queue s
  | .invalSlow queue => Sys2Proof.Machine.execInvalSlow queue s
  | .kgateSet queue => Sys2Proof.Machine.execKgateSet queue s
  | .kgateSync queue => Sys2Proof.Machine.execKgateSync queue s
  | .kgateSyncComplete queue => Sys2Proof.Machine.execKgateSyncComplete queue s
  | .rightsWordWrite func offset data => Sys2Proof.Machine.execRightsWordWrite func offset data s
  | .walkReadDone tag data bad => Sys2Proof.Machine.execWalkReadDone tag data bad s
  | .walkTimeout tag => Sys2Proof.Machine.execWalkTimeout tag s
  | .transDeviceRegionWrite row value => Sys2Proof.Machine.execTransDeviceRegionWrite row value s
  | .recvPost queue => Sys2Proof.Machine.execRecvPost queue s
  | .recvCancel queue => Sys2Proof.Machine.execRecvCancel queue s
  | .probe queue => Sys2Proof.Machine.execProbe queue s
  | .mprobe queue => Sys2Proof.Machine.execMprobe queue s
  | .mrecv queue => Sys2Proof.Machine.execMrecv queue s
  | .sendEagerReceive hp => Sys2Proof.Machine.execSendEagerReceive hp s
  | .sendRndvReceive hp => Sys2Proof.Machine.execSendRndvReceive hp s
  | .spillBatchRead ep bad => Sys2Proof.Machine.execSpillBatchRead ep bad s
  | .poolCopy ep => Sys2Proof.Machine.execPoolCopy ep s
  | .rndvGetsDone ep => Sys2Proof.Machine.execRndvGetsDone ep s
  | .rndvTimeout ep => Sys2Proof.Machine.execRndvTimeout ep s
  | .collStart queue => Sys2Proof.Machine.execCollStart queue s
  | .collGroupOpen row value => Sys2Proof.Machine.execCollGroupOpen row value s
  | .collGroupClose row value => Sys2Proof.Machine.execCollGroupClose row value s
  | .cpChunkArrive => Sys2Proof.Machine.execCpChunkArrive s
  | .blockCombineDone row => Sys2Proof.Machine.execBlockCombineDone row s
  | .resultReceive => Sys2Proof.Machine.execResultReceive s
  | .pieceReceive => Sys2Proof.Machine.execPieceReceive s
  | .floodReceive => Sys2Proof.Machine.execFloodReceive s
  | .restartReceive => Sys2Proof.Machine.execRestartReceive s
  | .floodRepeat row => Sys2Proof.Machine.execFloodRepeat row s
  | .restartWaitTimeout row => Sys2Proof.Machine.execRestartWaitTimeout row s
  | .collOpTimeout row => Sys2Proof.Machine.execCollOpTimeout row s
  | .semAcquire src => Sys2Proof.Machine.execSemAcquire src s
  | .semTry src => Sys2Proof.Machine.execSemTry src s
  | .semRelease src => Sys2Proof.Machine.execSemRelease src s
  | .semBankPerform => Sys2Proof.Machine.execSemBankPerform s
  | .evrConsumerWrite func value => Sys2Proof.Machine.execEvrConsumerWrite func value s
  | .faultLogRaise => Sys2Proof.Machine.execFaultLogRaise s
  | .faultAckSlice => Sys2Proof.Machine.execFaultAckSlice s
  | .faultRecordCopy ok => Sys2Proof.Machine.execFaultRecordCopy ok s
  | .faultNClear value => Sys2Proof.Machine.execFaultNClear value s
  | .faultHistoryClear value => Sys2Proof.Machine.execFaultHistoryClear value s
  | .faultDeviceIsolate value => Sys2Proof.Machine.execFaultDeviceIsolate value s
  | .faultDeviceRelease value => Sys2Proof.Machine.execFaultDeviceRelease value s
  | .faultPortIsolate port value => Sys2Proof.Machine.execFaultPortIsolate port value s
  | .faultInject value => Sys2Proof.Machine.execFaultInject value s
  | .supplyWarningCross mv => Sys2Proof.Machine.execSupplyWarningCross mv s
  | .holdResume => Sys2Proof.Machine.execHoldResume s
  | .supplyHoldLong => Sys2Proof.Machine.execSupplyHoldLong s
  | .supplyResetCross mv => Sys2Proof.Machine.execSupplyResetCross mv s
  | .powerOn addrSel => Sys2Proof.Machine.execPowerOn addrSel s
  | .pgCoreFall => Sys2Proof.Machine.execPgCoreFall s
  | .pgCoreRise => Sys2Proof.Machine.execPgCoreRise s
  | .pgSerdesFall => Sys2Proof.Machine.execPgSerdesFall s
  | .pgSerdesRise => Sys2Proof.Machine.execPgSerdesRise s
  | .pgUcieFall => Sys2Proof.Machine.execPgUcieFall s
  | .resetNLow => Sys2Proof.Machine.execResetNLow s
  | .corerefLost => Sys2Proof.Machine.execCorerefLost s
  | .thermalTrip => Sys2Proof.Machine.execThermalTrip s
  | .pwrReset value sideband sfna sep => Sys2Proof.Machine.execPwrReset value sideband sfna sep s
  | .commandedResetStart => Sys2Proof.Machine.execCommandedResetStart s
  | .deviceReset kind => Sys2Proof.Machine.execDeviceReset kind s
  | .bootRomRun bootSel badStaging badActive cut => Sys2Proof.Machine.execBootRomRun bootSel badStaging badActive cut s
  | .firmwareStart dictBad => Sys2Proof.Machine.execFirmwareStart dictBad s
  | .cobblerCoreReset core => Sys2Proof.Machine.execCobblerCoreReset core s
  | .pwrDepart value => Sys2Proof.Machine.execPwrDepart value s
  | .departBoundary => Sys2Proof.Machine.execDepartBoundary s
  | .standbyEnter => Sys2Proof.Machine.execStandbyEnter s
  | .wakeAddressMatch => Sys2Proof.Machine.execWakeAddressMatch s
  | .ucieWakeRequest => Sys2Proof.Machine.execUcieWakeRequest s
  | .wakeSignalDetect port => Sys2Proof.Machine.execWakeSignalDetect port s
  | .wakeTimer => Sys2Proof.Machine.execWakeTimer s
  | .wake seconds => Sys2Proof.Machine.execWake seconds s
  | .wakeSlow => Sys2Proof.Machine.execWakeSlow s
  | .benchPowerUp bench => Sys2Proof.Machine.execBenchPowerUp bench s
  | .benchPowerSlow bench => Sys2Proof.Machine.execBenchPowerSlow bench s
  | .fwStageBegin => Sys2Proof.Machine.execFwStageBegin s
  | .fwStageManifestDone => Sys2Proof.Machine.execFwStageManifestDone s
  | .fwStageAbort => Sys2Proof.Machine.execFwStageAbort s
  | .fwStageDataWrite row value => Sys2Proof.Machine.execFwStageDataWrite row value s
  | .fwChunkDone value => Sys2Proof.Machine.execFwChunkDone value s
  | .chunkCheckDone bad => Sys2Proof.Machine.execChunkCheckDone bad s
  | .secAttestNonce value => Sys2Proof.Machine.execSecAttestNonce value s
  | .attestReportDone => Sys2Proof.Machine.execAttestReportDone s
  | .cntSnapNow value => Sys2Proof.Machine.execCntSnapNow value s
  | .counterPageRead func offset cycle => Sys2Proof.Machine.execCounterPageRead func offset cycle s
  | .traceConsumerWrite value => Sys2Proof.Machine.execTraceConsumerWrite value s
  | .jtagUpdateIr instr => Sys2Proof.Machine.execJtagUpdateIr instr s
  | .resetNRelease => Sys2Proof.Machine.execResetNRelease s
  | .alwaysOnRailLost => Sys2Proof.Machine.execAlwaysOnRailLost s
  | .pgUcieRise => Sys2Proof.Machine.execPgUcieRise s
  | .counterParityError counter control => Sys2Proof.Machine.execCounterParityError counter control s
  | .arbitrationParityError bench => Sys2Proof.Machine.execArbitrationParityError bench s
  | .claimRowParityError row => Sys2Proof.Machine.execClaimRowParityError row s
  | .semStateParityError sem => Sys2Proof.Machine.execSemStateParityError sem s
  | .faultStateParityError => Sys2Proof.Machine.execFaultStateParityError s
  | .smbusTimeout => Sys2Proof.Machine.execSmbusTimeout s

end Sys2Proof.Machine
end

