-- ==== Sys2Proof/WellFormed.lean ====
section
/-!
DEFINITION. The commands that name only things the part has: a command that is not well formed stops with the fault that names what is
missing.
-/
namespace Sys2Proof

/-- A fabric port, P0 to P95 (R73). -/
def fabricPort (n : Nat) : Bool := decide (n < 96)

/-- A port of the switch core: P0 to P95, HP0 to HP3, CP, SP (R178). -/
def switchPort (n : Nat) : Bool := decide (n < 102)

/-- An internal port: HP0 to HP3, CP, SP (R178). -/
def internalPort (n : Nat) : Bool := decide (96 ≤ n) && decide (n < 102)

/-- A host port, HP0 to HP3 (R178). -/
def hostPort (n : Nat) : Bool := decide (96 ≤ n) && decide (n < 100)

/-- A lane, L0 to L191 (R73). -/
def fabricLane (n : Nat) : Bool := decide (n < 192)

/-- An attach module, M0 to M3 (R242). -/
def moduleNo (n : Nat) : Bool := decide (n < 4)

/-- A function, 0 to 1,023 (R253). -/
def funcNo (n : Nat) : Bool := decide (n < 1024)

/-- A global queue number (R266). -/
def queueNo (n : Nat) : Bool := decide (n < 1048576)

/-- A row of a table with so many rows (R46). -/
def rowBelow (rows n : Nat) : Bool := decide (n < rows)

/-- A row of LAST_ENTRY, by its input port and index (R219). -/
def lastRow (port index : Nat) : Bool := decide (port < 101) && decide (index < 4096)

/-- A claim target, 0 to 11 (R436). -/
def targetNo (n : Nat) : Bool := decide (n < 12)

/-- A cobbler core, K0 to K7 (R39). -/
def coreNo (n : Nat) : Bool := decide (n < 8)

/-- A cobbler slice, in the order of R39. -/
def sliceNo (n : Nat) : Bool := decide (n < 9)

/-- A bench with a domain of its own, B0 to B11 (R480). -/
def benchNo (n : Nat) : Bool := decide (n < 12)

/-- A bench, B0 to B12 (R178). -/
def arbiterNo (n : Nat) : Bool := decide (n < 13)

/-- A counter, 0 to 543 (R514). -/
def counterNo (n : Nat) : Bool := decide (n < 544)

/-- A semaphore, 0 to 4,095 (R420). -/
def semaphoreNo (n : Nat) : Bool := decide (n < 4096)

/-- A source of a semaphore operation: a page, the M port, or a cobbler core's firmware with a priority of 0 to 7 (R421, R423, R427). -/
def sourceOk : SemSource → Bool
  | .page func agent _ => funcNo func && decide (agent < 4096)
  | .mport => true
  | .core core _ prio sem => coreNo core && semaphoreNo sem && decide (prio < 8)

/-- The command names only things that the part has. -/
def Instr.wellFormed : Instr → Bool
  | .stitchBoundary _ => true
  | .cobblerSliceEnd slice _ _ => sliceNo slice
  | .timeProbeReceive port _ _ _ _ => fabricPort port
  | .standbyTakeover => true
  | .timeNoSyncLimit => true
  | .timeAcquireSlow => true
  | .timeRoleMaster => true
  | .timeRoleFollower => true
  | .timeRoleStandby => true
  | .timeInEdge _ _ => true
  | .timeInLost => true
  | .timeActionsWrite row _ => rowBelow 16 row
  | .dictRead => true
  | .dictWrite => true
  | .dictDescribe => true
  | .dictEcho => true
  | .readServe => true
  | .writeApply => true
  | .persistCopy _ => true
  | .mbxDoorbell _ => true
  | .mbxRespDone _ => true
  | .mgmtRequestPacket => true
  | .dupFilterExpiry => true
  | .mgmtEntry queue => queueNo queue
  | .mgmtResponsePacket port => internalPort port
  | .mgmtSlotTimeout slot => rowBelow 256 slot
  | .sbRequestWrite _ _ _ => true
  | .sbResponseRead => true
  | .sbStatusRead => true
  | .sbResetByte _ => true
  | .sbDynamicAddress _ => true
  | .ctlMInbandEnableWrite _ => true
  | .ctlMResetWrite _ => true
  | .mIdleResetExpiry => true
  | .mPortReset => true
  | .signalDetect port => fabricPort port
  | .signalLost port => fabricPort port
  | .laneAdaptDone port _ => fabricPort port
  | .blockReceive lane _ _ => fabricLane lane
  | .trainingBlockReceive lane _ _ => fabricLane lane
  | .codewordReceive port _ => fabricPort port
  | .markerReceive port _ _ _ => fabricPort port
  | .laneBringupTimeout port => fabricPort port
  | .laneFailedRetry port => fabricPort port
  | .laneEnableWrite port _ => fabricPort port
  | .laneFecRxModeWrite port _ => fabricPort port
  | .laneLoopbackWrite port _ => fabricPort port
  | .lanePatternWrite port _ => fabricPort port
  | .eyeScanGo lane _ => fabricLane lane
  | .eyeScanDone lane _ => fabricLane lane
  | .restIdleTimerExpiry port => fabricPort port
  | .restEnter port => fabricPort port
  | .restWake port => fabricPort port
  | .pwrWakePortWrite port _ => fabricPort port
  | .wakeTimeout port => fabricPort port
  | .flitReceive port _ _ _ => fabricPort port
  | .ackcrTimer port => fabricPort port
  | .ackcrReceive port _ => fabricPort port
  | .replayReceive port _ _ => fabricPort port
  | .nakWaitTimeout port => fabricPort port
  | .replayTimeout port => fabricPort port
  | .creditSyncReceive port _ => fabricPort port
  | .initReceive port _ => fabricPort port
  | .linkInitSlow port => fabricPort port
  | .linkAdmitWrite port _ => fabricPort port
  | .linkReinitWrite port _ => fabricPort port
  | .congHintReceive port _ => fabricPort port
  | .packetInject port => internalPort port
  | .packetLookup port => switchPort port
  | .routeBankWrite _ => true
  | .bankDrainHorizon => true
  | .openPacketAgeOut out => switchPort out
  | .arbiterGrant out => switchPort out
  | .egressSlot port _ => fabricPort port
  | .anchorAdmit port => switchPort port
  | .anchorStall port => switchPort port
  | .hostDeliver out => internalPort out
  | .cupInbandSend => true
  | .cupPacketDeliver _ => true
  | .cupRingBaseWrite _ _ => true
  | .lastEntryOpen port index _ => lastRow port index
  | .lastEntryClose port index _ => lastRow port index
  | .lastArmCheck port index => lastRow port index
  | .lastedFlitReceive port _ _ _ _ => fabricPort port
  | .lastSignalReceive port _ => fabricPort port
  | .wrapTimer port index => lastRow port index
  | .wrapDeliver _ => true
  | .lastRingProducerWrite ring _ => rowBelow 4096 ring
  | .lastRingConsumerWrite ring _ => rowBelow 4096 ring
  | .moduleTrainStart m => moduleNo m
  | .moduleTrainDone m _ _ => moduleNo m
  | .moduleRetrain m => moduleNo m
  | .moduleRetrainDone m _ _ => moduleNo m
  | .moduleRetrainTimeout m => moduleNo m
  | .moduleFailedRetry m => moduleNo m
  | .attachModuleEnableWrite m _ => moduleNo m
  | .snoopReceive _ _ => true
  | .watchRefetchDone _ _ _ => true
  | .hostReadComplete _ _ _ => true
  | .hostWriteObserved _ => true
  | .functionResetRequest func => funcNo func
  | .functionResetComplete func => funcNo func
  | .functionResetSlow func => funcNo func
  | .vfEnableWrite _ _ => true
  | .mmioWrite func _ _ _ => funcNo func
  | .storeGive => true
  | .storeReturn => true
  | .storeReturnDone => true
  | .hostDieReset => true
  | .claimRead target => targetNo target
  | .claimComplete target _ => targetNo target
  | .claimPendset target _ => targetNo target
  | .claimPresent => true
  | .wqProducerDoorbell func _ _ => funcNo func
  | .wqInvalidate func _ => funcNo func
  | .crConsumerWrite func _ _ => funcNo func
  | .crArm func _ _ => funcNo func
  | .qEnable func _ _ => funcNo func
  | .qEnableCheck queue => queueNo queue
  | .qConfigWrite func _ _ _ => funcNo func
  | .push func _ _ _ => funcNo func
  | .entryConsume queue => queueNo queue
  | .phaseRetry queue => queueNo queue
  | .crFullLimit queue => queueNo queue
  | .nop queue => queueNo queue
  | .put queue => queueNo queue
  | .get queue => queueNo queue
  | .send queue => queueNo queue
  | .atomic queue => queueNo queue
  | .fetchAtomic queue => queueNo queue
  | .atomic128 queue => queueNo queue
  | .fetchAtomic128 queue => queueNo queue
  | .fence queue => queueNo queue
  | .segRevoke queue => queueNo queue
  | .revokeDrainDone _ => true
  | .revokeSlow _ => true
  | .peerClose queue => queueNo queue
  | .putReceive hp => hostPort hp
  | .getReceive hp => hostPort hp
  | .atomicReceive hp => hostPort hp
  | .fetchAtomicReceive hp => hostPort hp
  | .releaseReceive hp => hostPort hp
  | .ackReceive hp => hostPort hp
  | .ackErrorReceive hp => hostPort hp
  | .ackRetryLaterReceive hp => hostPort hp
  | .ackNoContextReceive hp => hostPort hp
  | .ackCloseReceive hp => hostPort hp
  | .ackResponsesReceive hp => hostPort hp
  | .getRespReceive hp => hostPort hp
  | .atomicRespReceive hp => hostPort hp
  | .rtoExpiry _ _ => true
  | .backoffExpiry _ _ => true
  | .ackDelayTimer _ _ _ => true
  | .peerIdleExpiry _ _ => true
  | .peerClosingEnd _ _ => true
  | .respCacheAgeOut => true
  | .ratePeriod _ _ => true
  | .contextFetchDone _ _ _ _ => true
  | .segRegister queue => queueNo queue
  | .invalRange queue => queueNo queue
  | .invalSeg queue => queueNo queue
  | .invalComplete queue => queueNo queue
  | .invalSlow queue => queueNo queue
  | .kgateSet queue => queueNo queue
  | .kgateSync queue => queueNo queue
  | .kgateSyncComplete queue => queueNo queue
  | .rightsWordWrite func _ _ => funcNo func
  | .walkReadDone _ _ _ => true
  | .walkTimeout _ => true
  | .transDeviceRegionWrite row _ => rowBelow 16 row
  | .recvPost queue => queueNo queue
  | .recvCancel queue => queueNo queue
  | .probe queue => queueNo queue
  | .mprobe queue => queueNo queue
  | .mrecv queue => queueNo queue
  | .sendEagerReceive hp => hostPort hp
  | .sendRndvReceive hp => hostPort hp
  | .spillBatchRead _ _ => true
  | .poolCopy _ => true
  | .rndvGetsDone _ => true
  | .rndvTimeout _ => true
  | .collStart queue => queueNo queue
  | .collGroupOpen row _ => rowBelow 4096 row
  | .collGroupClose row _ => rowBelow 4096 row
  | .cpChunkArrive => true
  | .blockCombineDone row => rowBelow 4096 row
  | .resultReceive => true
  | .pieceReceive => true
  | .floodReceive => true
  | .restartReceive => true
  | .floodRepeat row => rowBelow 4096 row
  | .restartWaitTimeout row => rowBelow 4096 row
  | .collOpTimeout row => rowBelow 4096 row
  | .semAcquire src => sourceOk src
  | .semTry src => sourceOk src
  | .semRelease src => sourceOk src
  | .semBankPerform => true
  | .evrConsumerWrite func _ => funcNo func
  | .faultLogRaise => true
  | .faultAckSlice => true
  | .faultRecordCopy _ => true
  | .faultNClear _ => true
  | .faultHistoryClear _ => true
  | .faultDeviceIsolate _ => true
  | .faultDeviceRelease _ => true
  | .faultPortIsolate port _ => fabricPort port
  | .faultInject _ => true
  | .supplyWarningCross _ => true
  | .holdResume => true
  | .supplyHoldLong => true
  | .supplyResetCross _ => true
  | .powerOn _ => true
  | .pgCoreFall => true
  | .pgCoreRise => true
  | .pgSerdesFall => true
  | .pgSerdesRise => true
  | .pgUcieFall => true
  | .resetNLow => true
  | .corerefLost => true
  | .thermalTrip => true
  | .pwrReset _ _ _ _ => true
  | .commandedResetStart => true
  | .deviceReset _ => true
  | .bootRomRun _ _ _ _ => true
  | .firmwareStart _ => true
  | .cobblerCoreReset core => coreNo core
  | .pwrDepart _ => true
  | .departBoundary => true
  | .standbyEnter => true
  | .wakeAddressMatch => true
  | .ucieWakeRequest => true
  | .wakeSignalDetect port => fabricPort port
  | .wakeTimer => true
  | .wake _ => true
  | .wakeSlow => true
  | .benchPowerUp bench => benchNo bench
  | .benchPowerSlow bench => benchNo bench
  | .fwStageBegin => true
  | .fwStageManifestDone => true
  | .fwStageAbort => true
  | .fwStageDataWrite row _ => rowBelow 196608 row
  | .fwChunkDone _ => true
  | .chunkCheckDone _ => true
  | .secAttestNonce _ => true
  | .attestReportDone => true
  | .cntSnapNow _ => true
  | .counterPageRead func _ _ => funcNo func
  | .traceConsumerWrite _ => true
  | .jtagUpdateIr _ => true
  | .resetNRelease => true
  | .alwaysOnRailLost => true
  | .pgUcieRise => true
  | .counterParityError counter _ => counterNo counter
  | .arbitrationParityError bench => arbiterNo bench
  | .claimRowParityError row => rowBelow 1024 row
  | .semStateParityError sem => semaphoreNo sem
  | .faultStateParityError => true
  | .smbusTimeout => true

end Sys2Proof
end

