-- ==== Sys2Proof/Safety.lean ====
section
/-!
DEFINITION. What counts as a safe run, in the terms that claims use.
-/
namespace Sys2Proof.Machine

/-- A command or a step completes: it answers a next state, neither a fault nor a refusal. -/
def Completes (o : Host.Outcome State Fault Refusal) : Prop := ∃ t, o = .next t

/-- Every command that waits names only things that the part has. -/
def State.queueWellFormed (s : State) : Bool := s.pending.all Instr.wellFormed

/-- A run of so many steps that stops nowhere. -/
def runsSafely : Nat → State → Prop
  | 0, _ => True
  | n + 1, s => ∃ t, step s = .next t ∧ runsSafely n t

/-- A router in role Master, or acting master, is Locked, and no change of its time state is due (R25). -/
def MastersLocked (s : State) : Prop := isMaster s.time = true → s.time.st = .locked ∧ s.time.due = none

/-! ### What statements say of a fault, and of a write -/

/-- A fault that a unit raises at the present stitch, of its own class, not injected (R451, R452). -/
def ownRaise (s : State) (code scope inst detail : Nat) : Raise :=
  { code := code, cls := faultClass code, scope := scope, inst := inst, detail := detail, stitch := s.time.count }

/-- A raise would be let through: the logging unit's queue has room, and no rate limit holds the key back (R452, R457). -/
def Loggable (s : State) (code scope inst : Nat) : Prop :=
  s.mon.fault.queue.length < 256 ∧
  (limitPeriod code s.time.count = 0 ∨ tget 0 s.mon.fault.stamps (limitKey code scope inst) ≠ limitPeriod code s.time.count)

/-- Exactly one fault was raised between two states, and it waits for the logging unit. -/
def Logged (s t : State) (code scope inst detail : Nat) : Prop :=
  t.mon.fault.queue = s.mon.fault.queue ++ [ownRaise s code scope inst detail]

/-- No fault was raised between two states, and nothing else of the fault unit changed. -/
def Unfaulted (s t : State) : Prop := t.mon.fault = s.mon.fault

/-- A write was applied at the present boundary: its status is ok, CTL_APPLY_LAST holds the boundary, and READs see what it wrote
(R53, R57, R70). -/
def WriteApplied (s t : State) : Prop :=
  t.ctl = { s.ctl with writeStatus := 0, applyLast := t.time.count } ∧ t.latch = t.toChip

/-- A write was refused with a status: nothing changed but the status and the counters (R53, R56). -/
def WriteRefused (s t : State) (status : Nat) : Prop :=
  t = { s with ctl := { s.ctl with writeStatus := status }, mon := t.mon } ∧ Unfaulted s t

/-- A claim source that is not reserved and has edge sense has become pending (R437). -/
def Fired (s t : State) (n : Nat) : Prop :=
  reservedSource n = false → (tget {} s.mon.claim.rows n).sense = false → (tget {} t.mon.claim.rows n).pending = true

/-! ### What statements say of a port's lines -/

/-- Only lanes, scans, links and the watching units differ, and no fault was raised. -/
def LineOnly (s t : State) : Prop :=
  t = { s with lanes := t.lanes, eyes := t.eyes, links := t.links, mon := t.mon } ∧ t.mon.fault = s.mon.fault

/-- Every attach module but one is as it was. -/
def OtherModules (s t : State) (m : Nat) : Prop := ∀ k, k ≠ m → t.module k = s.module k

/-- A read of host memory is outstanding no more, and nothing else of the host attach has changed. -/
def readEnded (s : State) (tag : Nat) : State := s.updHost fun h => { h with reads := h.reads.filter fun r => r.tag ≠ tag }

/-- A function reaches a queue by its local number: the link is Up, the function is enabled, the core runs, and the function's row holds the queue
(R253, R257, R261, R266). -/
def HeldQueue (s : State) (func lq g : Nat) : Prop :=
  func < 1024 ∧ s.host.units ≠ 0 ∧ fnPresent s func = true ∧ coreUp s = true ∧ globalQueue s func lq = some g

/-- Only the queues, the host accesses they make and the watching units differ. -/
def QueueWork (s t : State) : Prop := t = { s with queues := t.queues, host := t.host, mon := t.mon, out := t.out }

/-- Every queue keeps its configuration and its work ring's consumer index, and every queue but one its producer index. -/
def RingsKept (s t : State) (g : Nat) : Prop :=
  ∀ h, (t.queue h).config = (s.queue h).config ∧ (t.queue h).wqCons = (s.queue h).wqCons ∧ (h ≠ g → (t.queue h).wqProd = (s.queue h).wqProd)

/-- A queue has stopped with a reason: it is in Error, and the newest row of QUEUE_ERR_LOG says so (R276). -/
def QueueStopped (s t : State) (g reason : Nat) : Prop :=
  (t.queue g).st = .error ∧ (t.queue g).reason = reason ∧ (t.queue g).wqCons = (s.queue g).wqCons ∧
  t.queues.errLog.head? = some (put g 127 108 + put reason 107 100 + put (s.queue g).wqCons 95 64 + put s.time.count 63 0) ∧
  bitAt (evregGet t.mon.evreg Dict.QUEUE_EVENTS 0) 0 = true

/-- A write into the next unit of a completion ring is issued at once (R248, R255, R256, R461). -/
def RingWritable (s : State) (r : Nat) : Prop :=
  (s.queue r).crUnits ≠ 0 ∧
  windowOk s (s.queue r).func ((s.queue r).crBase + 64 * ((s.queue r).crProd % (s.queue r).crUnits)) 64 true = true ∧
  accessGone s (s.queue r).func = false ∧ writesFenced s = false

/-- A unit was written at the producer index of a ring, with the PHASE of that index, and nothing else left the part (R268, R290). -/
def UnitWritten (s t : State) (r unit : Nat) : Prop :=
  t.out = .hostWrite (s.queue r).func ((s.queue r).crBase + 64 * ((s.queue r).crProd % (s.queue r).crUnits))
    (bytesLE (unit + put (ringPhase (s.queue r).crUnits (s.queue r).crProd) 63 63) 64) :: s.out ∧
  (t.queue r).crProd = ringNext (s.queue r).crUnits (s.queue r).crProd

/-- A queue's only entry in progress, without a status and waiting for no write; its number names it alone. -/
def LoneEntry (s : State) (g : Nat) (e : Entry) : Prop :=
  (s.queue g).order = [e] ∧ e.queue = g ∧ e.status = none ∧ e.tags = [] ∧ ∀ c ∈ s.queues.qs, c.1 ≠ g → ∀ x ∈ c.2.order, x.id ≠ e.id

/-- The queue's only entry has completed: its completion unit was written into its ring (R290, R291). -/
def CompletedWith (s t : State) (g : Nat) (e : Entry) (status done result : Nat) : Prop :=
  (t.queue g).order = [] ∧
  UnitWritten s t (ringOf s g) (completionUnit 0 status e.opc (s.queue g).local' e.wqIndex e.wqCons e.user done result)

/-- The queue's only entry has completed without a completion: its unit has returned to the free units (R295). -/
def CompletedSilently (s t : State) (g : Nat) : Prop :=
  t = { s with queues := t.queues, mon := t.mon } ∧ (t.queue g).order = [] ∧
  (t.queue (ringOf s g)).owed = (s.queue (ringOf s g)).owed - 1 ∧ (t.queue (ringOf s g)).crProd = (s.queue (ringOf s g)).crProd

/-- The next entry of a queue to start (R286). -/
def NextStart (s : State) (g : Nat) (e : Entry) : Prop := g < 1048576 ∧ startable (s.queue g).order = some e ∧ e.queue = g

/-- The state with an entry begun, and started or still to be tried again. -/
def markEntry (s : State) (g : Nat) (e : Entry) (started : Bool) : State :=
  s.updQueue g fun q => { q with order := q.order.map fun x => if x.id = e.id then { x with begun := true, started := started } else x }

/-- A message is that of a work entry, and nothing of it has left (R302, R304, R308). -/
def EntryMessage (s : State) (e : Entry) (m : Msg) : Prop :=
  m.owner = .entry e.id ∧ m.opc = e.opc ∧ m.dep = e.dep ∧ m.pd = (s.queue e.queue).pd ∧ m.func = e.func ∧ m.group = (s.queue e.queue).igroup ∧
  m.flow = e.flow ∧ m.ord = e.ord ∧ m.len = e.len ∧ m.assigned = 0 ∧ m.again = [] ∧ m.failed = none ∧ m.stopped = false ∧ m.done = 0 ∧
  m.tags = [] ∧ (e.opc = 3 → m.words = sendWords e) ∧ (e.opc ≠ 3 → m.raddr = e.w5 ∧ m.rkey = fld e.w6 63 32)

/-- A requester context is Open and on die with nothing outstanding or on its way (R313, R314). -/
def CtxIdle (s : State) (key : Nat) : Prop :=
  (s.reqCtx key).st = .open ∧ onDie s (reqCode key) = true ∧ (s.reqCtx key).msgs = [] ∧ (s.reqCtx key).pkts = [] ∧ (s.reqCtx key).retx = [] ∧
  (s.reqCtx key).prep = none ∧ (s.reqCtx key).holdUntil = none ∧ (s.reqCtx key).timer = none ∧ (s.reqCtx key).una = (s.reqCtx key).nxt ∧
  0 < s.reg Dict.RMA_WINDOW

/-- A packet waits last at a host port's injection, and is that of a message's first piece (R303, R304, R308, R313). -/
def RequestLeaves (s t : State) (key : Nat) (m : Msg) (psn inc hint : Nat) (syn : Bool) (d : List Byte) : Prop :=
  ∃ pkt : Packet, tget [] t.sw.inject (96 + fld (s.reg Dict.SW_INJ_GROUP m.group) 126 125) =
      tget [] s.sw.inject (96 + fld (s.reg Dict.SW_INJ_GROUP m.group) 126 125) ++
        [{ pkt := pkt, group := some m.group, label := m.flow, ctx := if m.ord then some key else none }] ∧
    pkt.pcls = 1 ∧ pkt.opc = m.opc ∧ pkt.dfna = reqNode key ∧ pkt.dep = m.dep ∧ pkt.sep = reqEp key ∧ pkt.psn = psn ∧ pkt.peerctx = hint ∧
    pkt.ord = m.ord ∧ pkt.payload = d ∧
    pkt.oph.head? = some (packReqWord syn true true m.notify inc psn (if m.opc = 3 then 0 else m.rkey)) ∧
    (m.opc ≠ 3 → m.opc ≠ 4 → pkt.oph = pkt.oph.take 1 ++ [m.raddr]) ∧ (m.opc = 3 ∨ m.opc = 4 → pkt.oph = pkt.oph.take 1 ++ m.words)

/-- The request rows: each takes the packets of its operation from the head of a host port's deliveries (R302, R366). -/
def RequestRow (hp : Nat) (i : Instr) (p : Packet) : Prop :=
  (i = .putReceive hp ∧ p.opc = 1 ∧ isRelease p = false) ∨ (i = .releaseReceive hp ∧ isRelease p = true) ∨ (i = .getReceive hp ∧ p.opc = 2) ∨
  (i = .atomicReceive hp ∧ isAtomic p.opc = true ∧ isFetch p.opc = false) ∨
  (i = .fetchAtomicReceive hp ∧ isAtomic p.opc = true ∧ isFetch p.opc = true) ∨
  (i = .sendEagerReceive hp ∧ p.opc = 3) ∨ (i = .sendRndvReceive hp ∧ p.opc = 4)

/-- A packet is the first of a host port's deliveries. -/
def AtHead (s : State) (hp : Nat) (p : Packet) : Prop :=
  96 ≤ hp ∧ hp < 100 ∧ ∃ d rest, tget [] s.sw.delivered hp = d :: rest ∧ d.pkt = p

/-- A request's responder context is live and on die, with the packet's incarnation (R315, R328). -/
def RespHere (s : State) (p : Packet) : Prop :=
  (s.respCtx (respKey p.sfna p.sep)).live = true ∧ onDie s (respCode (respKey p.sfna p.sep)) = true ∧
  (s.respCtx (respKey p.sfna p.sep)).inc = hdrInc p

/-- The state in which a request is judged: it has been taken, and its context was used last. -/
def requestTaken (s : State) (hp : Nat) (p : Packet) : State :=
  (placeOnDie (takeDelivered s hp) (respCode (respKey p.sfna p.sep))).1

/-- A request's PSN is new and within the bitmap, and no ORD packet holds it back (R317, R329). -/
def NewPsn (s : State) (p : Packet) : Prop :=
  (s.respCtx (respKey p.sfna p.sep)).received p.psn = false ∧ psnDist (s.respCtx (respKey p.sfna p.sep)).rcvNxt p.psn ≤ 64 ∧
  (p.ord = true → (s.respCtx (respKey p.sfna p.sep)).ordHeld = none ∧ ordParked s (respKey p.sfna p.sep) p = false)

/-- An acknowledgement or response finds its requester context under way, on die, in its incarnation (R320, R328). -/
def ReqHere (s : State) (p : Packet) (inc : Nat) : Prop :=
  ((s.reqCtx (reqKey p.dep p.sfna)).st = .open ∨ (s.reqCtx (reqKey p.dep p.sfna)).st = .opening) ∧
  onDie s (reqCode (reqKey p.dep p.sfna)) = true ∧ (s.reqCtx (reqKey p.dep p.sfna)).inc = inc

/-- A context's one message is the work of an entry and its one packet is the message's last, with nothing else on its way. -/
def LoneMessage (s : State) (key : Nat) (m : Msg) (p : ReqPkt) (e : Entry) : Prop :=
  (s.reqCtx key).msgs = [m] ∧ (s.reqCtx key).pkts = [p] ∧ (s.reqCtx key).prep = none ∧ p.msg = m.id ∧ p.got = false ∧ p.filler = false ∧
  m.owner = .entry e.id ∧ m.opc ≠ 4 ∧ m.pieces ≤ m.assigned ∧ m.again = [] ∧ m.failed = none ∧ m.tags = []

/-- An endpoint's place in its match pipe is free, and nothing searches its spill lists (R370, R375). -/
def PipeFree (s : State) (ep : Nat) : Prop := (s.mep ep).holder = none ∧ (s.mep ep).search = none ∧ (s.mep ep).found = none

/-- An endpoint matches: its row is VALID and its matching has not failed (R364, R381). -/
def Matching (s : State) (ep : Nat) : Prop := matchValid s ep = true ∧ (s.mep ep).failed = false

/-- A matching command is the queue's only entry, next to start, with a completion to be written into a ring that takes it. -/
def MatchCommand (s : State) (g : Nat) (e : Entry) (opc : Nat) : Prop :=
  NextStart s g e ∧ e.kind = 1 ∧ e.opc = opc ∧ LoneEntry s g e ∧ e.cmpl = true ∧ RingWritable s (ringOf s g)

/-- A local buffer passes checks 2 to 6 for writing (R341, R381). -/
def BufferOk (s : State) (g : Nat) (e : Entry) : Prop :=
  e.inl = false ∧ e.nsge = 0 ∧
  (checkBufs (markEntry s g e true) (s.queue g).pd .write [{ addr := e.laddr, len := e.len, key := e.lkey }]).2 = .ok

/-- The packet at the head of CP's deliveries is a collective one with this header and data, for a group that a VALID row holds (R406). -/
def CollHere (s : State) (opc r : Nat) (h : CollHdr) (data : List Byte) : Prop :=
  ∃ d, deliveredHead s 100 opc = some d ∧ h = unpackColl (natBE (d.pkt.payload.take 16)) ∧ data = d.pkt.payload.drop 16 ∧
    collRowOf s h.gid = some r

/-- A packet waits last at CP's injection: a collective packet to a down group, a header and data its payload (R406). -/
def SentFromCp (s t : State) (opc mc : Nat) (h : CollHdr) (data : List Byte) : Prop :=
  ∃ p : Packet, tget [] t.sw.inject 100 = tget [] s.sw.inject 100 ++ [{ pkt := p }] ∧ p.opc = opc ∧ p.dfna = mc ∧ p.mc = true ∧ p.vc = 7 ∧
    p.payload = bytesBE (packColl h) 16 ++ data ∧ p.psn = 0 ∧ p.peerctx = 0 ∧ p.oph = []

/-- An operation is the only one of its row, and its entry the only one of a queue whose ring takes a completion; no access of it failed or waits. -/
def LoneOp (s : State) (r g : Nat) (o : CollOp) (e : Entry) : Prop :=
  (s.collRow r).ops = [o] ∧ o.entry = e.id ∧ LoneEntry s g e ∧ e.cmpl = true ∧ RingWritable s (ringOf s g) ∧ o.tags = [] ∧ o.fail = none ∧
  o.parts = []

/-- Every row of the collective engine but one is as it was. -/
def OtherRows (s t : State) (r : Nat) : Prop := ∀ k, k ≠ r → t.collRow k = s.collRow k

/-- A row whose tree in use the first FLOOD has broken: its partial blocks are discarded and every operation in flight has BROKE (R412). -/
def floodedRow (x : CollRow) (tree : Nat) (due : CollSt × Nat) : CollRow :=
  { x with blocks := [], chunks := [], asks := [], reading := [], flooded := x.flooded + 2 ^ tree
           ops := x.ops.map fun o => { o with broke := true }, due := some due }

/-- A host access to a function's BARs reaches the part (R253, R261, R487). -/
def Reaches (s : State) (func : Nat) : Prop := func < 1024 ∧ s.host.units ≠ 0 ∧ fnPresent s func = true ∧ coreUp s = true

/-- A target may use its claim registers: a core that is not halted, or a host target by the PF's BAR (R440). -/
def TargetReaches (s : State) (t : Nat) : Prop := (t < 8 ∧ bitAt s.exe.halted t = false) ∨ (8 ≤ t ∧ t < 12 ∧ Reaches s 0)

/-- Counting makes no claim source fire: no counter is programmed, or bit 0 of CNT_EVENTS already stands (R520, R532). -/
def CountsQuietly (s : State) : Prop := s.mon.cnt.ctl = [] ∨ bitAt (evregGet s.mon.evreg Dict.CNT_EVENTS 0) 0 = true

/-- One operation waits for the bank, no reset is due, and the stitch's budget has room. -/
def BankHas (s : State) (op : SemOp) : Prop := s.sem.resets = [] ∧ s.sem.ops = [op] ∧ s.sem.done < 64

/-- Every semaphore but one is as it was. -/
def OtherSems (s t : State) (n : Nat) : Prop := ∀ k, k ≠ n → semOf t k = semOf s k

/-- An operation was performed with a result: on its page, or to its core (R423, R429, R431). -/
def SemDone (t : State) (op : SemOp) (status : Nat) : Prop :=
  t.sem.ops = [] ∧
  (∀ f a, op.who = .h f a → (tget {} t.sem.pages (pageKey f a)).status = status ∧ (tget {} t.sem.pages (pageKey f a)).tag = op.tag ∧
    (tget {} t.sem.pages (pageKey f a)).sem = op.sem ∧ (tget {} t.sem.pages (pageKey f a)).pending = false) ∧
  ∀ c a, op.who = .k c a → t.out.head? = some (.coreResult c a op.sem status)

/-- A semaphore's waiter that a pass-on takes: of highest priority, and of those the first queued (R424). -/
def FirstWaiter (ws : List Waiter) (w : Waiter) : Prop :=
  ∃ older newer, ws = older ++ w :: newer ∧ (∀ v ∈ older, v.prio < w.prio) ∧ ∀ v ∈ newer, v.prio ≤ w.prio

/-- A device reset of a kind has been performed (R9, R459, R474): the core domain is afresh, the writable values that a reset keeps in force stand, the
MRAM is as it was, and the commands that wait stay. -/
def ResetDone (s t : State) (kind : Nat) : Prop :=
  t.pwr.kind = kind ∧ t.pwr.st = .run ∧ t.pwr.step = (if startAllowed t then 3 else 2) ∧ t.mon.fault.isolateN = true ∧ t.mon.fault.fatal = false ∧
  t.mon.fault.history.head? = some { kind := 2, code := kind, stitch := resetStitch s } ∧ t.mon.fault.log = [] ∧ t.mram = s.mram ∧
  t.mon.fault.records = s.mon.fault.records ∧ t.pending = s.pending ∧ t.out = s.out ∧ t.time = {} ∧ t.lanes = [] ∧ t.links = [] ∧ t.host = {} ∧
  t.lasts = {} ∧ t.queues = {} ∧ t.rma = {} ∧ t.sem = {} ∧ t.mon.claim = {} ∧
  (kind ≠ 0 → ∀ k d, tget d t.regs k = if keptKey true k then tget d s.regs k else d)

/-- The core is held in reset, Fatal or not as before, until what held it ends (R473, R540, R550). -/
def CoreHeld (s t : State) : Prop :=
  coreUp t = false ∧ t.pwr.step = 2 ∧ t.mon.fault.fatal = isFatal s ∧ t.mon.fault.history = s.mon.fault.history ∧ t.mram = s.mram ∧ t.lanes = [] ∧
  t.links = [] ∧ t.host = {} ∧ t.pending = s.pending ∧ t.out = s.out

/-- Every last entry but one is as it was. -/
def OtherLasts (s t : State) (key : Nat) : Prop := ∀ k, k ≠ key → t.last k = s.last k

/-- Only one port's link layer and the watching units differ. -/
def OnLink (s t : State) (p : Nat) : Prop :=
  t = { s with links := t.links, mon := t.mon } ∧ ∀ q, q ≠ p → t.link q = s.link q

end Sys2Proof.Machine
end

