-- ==== Sys2Proof/Certificates/Slice0/Obligations.lean ====
section
/-!
DEFINITION. The statements for the provers, chapter by chapter.
-/
section
open Sys2Proof Sys2Proof.Machine

/-- The queue is first in, first out: a step takes its front command and nothing else. That an empty queue idles is log entry 1. -/
def Obligations.StepRunsFrontCommand : Prop :=
  (∀ (c : Instr) (s : State) (rest : List Instr), step (s.withPending (c :: rest)) = exec c (s.withPending rest)) ∧
  ∀ s : State, step (s.withPending []) = .next (s.withPending [])

/-- R20: a change of TIME_ROLE at the boundary that applies it. -/
def Obligations.TimeRoleTakesEffect : Prop :=
  (∀ s : State, coreUp s = true → s.time.role ≠ .master →
    ∃ t, exec .timeRoleMaster s = .next t ∧
      t = { s with time := t.time, mon := t.mon, ctl := t.ctl, latch := t.latch } ∧ WriteApplied s t ∧
      t.time.role = .master ∧ t.time.st = .locked ∧ t.time.errEst = 0 ∧ t.time.parent = none ∧
      t.time.gen = (s.time.genSeen.getD 0 + 1) % 65536 ∧ t.time.genSeen = some t.time.gen ∧
      t.time.masterFna = s.reg Dict.ID_FNA ∧
      t.time.count = if s.time.st = .free then s.reg Dict.TIME_START_COUNT else s.time.count) ∧
  (∀ s : State, coreUp s = true → isMaster s.time = false →
    (∃ t, exec .timeRoleFollower s = .next t ∧ WriteApplied s t ∧ Unfaulted s t ∧
      t = { s with time := { s.time with role := .follower }, mon := t.mon, ctl := t.ctl, latch := t.latch }) ∧
    ∃ t, exec .timeRoleStandby s = .next t ∧ WriteApplied s t ∧ Unfaulted s t ∧
      t = { s with time := { s.time with role := .standby }, mon := t.mon, ctl := t.ctl, latch := t.latch }) ∧
  ∀ s : State, coreUp s = true → isMaster s.time = true →
    (∃ t, exec .timeRoleFollower s = .next t ∧ WriteApplied s t ∧
      t = { s with time := t.time, mon := t.mon, ctl := t.ctl, latch := t.latch } ∧
      t.time.role = .follower ∧ t.time.count = s.time.count ∧ t.time.st = s.time.st ∧ t.time.stamp = s.time.stamp) ∧
    ∃ t, exec .timeRoleStandby s = .next t ∧ WriteApplied s t ∧
      t = { s with time := t.time, mon := t.mon, ctl := t.ctl, latch := t.latch } ∧
      t.time.role = .standby ∧ t.time.count = s.time.count ∧ t.time.st = s.time.st ∧ t.time.stamp = s.time.stamp

/-- R18, R25 and R26: the three events of the time unit, with their faults. -/
def Obligations.TimeEventsAct : Prop :=
  (∀ s : State, s.time.role = .standby → s.time.st ≠ .free → s.time.hasStamp = true →
    s.reg Dict.TIME_TAKEOVER_ST ≤ s.time.count - s.time.stamp → Loggable s 0x0204 0 0 →
    ∃ t, exec .standbyTakeover s = .next t ∧ t = { s with time := t.time, mon := t.mon } ∧
      t.time.role = .acting ∧ t.time.st = .locked ∧ t.time.gen = (s.time.genSeen.getD 0 + 1) % 65536 ∧
      t.time.stamp = s.time.count ∧ t.time.count = s.time.count ∧ t.time.actions = s.time.actions ∧ Logged s t 0x0204 0 0 0) ∧
  (∀ s : State, (s.time.st = .locked ∨ s.time.st = .doubt) → isMaster s.time = false → 1024 < s.time.count - s.time.stamp →
    Loggable s 0x0202 0 0 →
    ∃ t, exec .timeNoSyncLimit s = .next t ∧
      t = { s with time := { s.time with st := .lost, lockRun := 0 }, mon := t.mon, links := t.links } ∧ Logged s t 0x0202 0 0 0 ∧
      ∀ p, p < 96 →
        ((s.link p).st = .admitted → t.link p = { s.link p with st := .quarantine, due := none }) ∧
        ((s.link p).st = .hold → t.link p = { s.link p with holdLost := true }) ∧
        ((s.link p).st ≠ .admitted → (s.link p).st ≠ .hold → t.link p = s.link p)) ∧
  ∀ s : State, s.time.st = .acquiring → 8192 ≤ s.time.count - s.time.acquireAt → s.time.slowLogged = false → Loggable s 0x020A 0 0 →
    ∃ t, exec .timeAcquireSlow s = .next t ∧ t = { s with time := { s.time with slowLogged := true }, mon := t.mon } ∧
      Logged s t 0x020A 0 0 0

/-- R21 and R22: what an exchange leaves in the port's own row. -/
def Obligations.ProbeExchangeJudged : Prop :=
  ∀ (s : State) (p n t1 t4 : Nat) (b : TimeProbe), p < 96 → probesRun (s.link p) = true → (s.lane p).st ≠ .loopback →
    ∃ t, exec (.timeProbeReceive p n t1 t4 b) s = .next t ∧ t = { s with time := t.time, mon := t.mon, lasts := t.lasts } ∧
      (∀ q, q ≠ p → t.tport q = s.tport q) ∧ t.time.count = s.time.count ∧ t.time.st = s.time.st ∧
      (0 ≤ exchangeDelay t1 b.t2 b.t3 t4 → exchangeDelay t1 b.t2 b.t3 t4 ≤ 2000000 → (b.mstitch = n % 2 ^ 24 ∨ s.time.st = .free) →
        t.tport p = { s.tport p with
          probe := some b, goodRun := min 16 ((s.tport p).goodRun + 1), badRun := 0, delay := (exchangeDelay t1 b.t2 b.t3 t4).toNat
          offset := exchangeOffset t1 b.t2 b.t3 t4 (toSigned 32 (s.reg Dict.TIME_PORT_ASYM p)) }) ∧
      ((exchangeDelay t1 b.t2 b.t3 t4 < 0 ∨ 2000000 < exchangeDelay t1 b.t2 b.t3 t4 ∨
          (b.mstitch ≠ n % 2 ^ 24 ∧ s.time.st ≠ .free)) →
        t.tport p = { s.tport p with probe := some b, goodRun := 0, badRun := min 16 ((s.tport p).badRun + 1) } ∧ t.lasts = s.lasts ∧
        (s.time.parent = some p → isMaster s.time = false → (s.tport p).badRun = 15 → t.time.parentLost = true))

/-- R27: TIME_IN at the master. How far an edge steers is open (log entry 22); its bound is not. -/
def Obligations.TimeInAtMaster : Prop :=
  (∀ (s : State) (residue miss : Nat), isMaster s.time = true → s.reg Dict.TIME_IN_MODE = 1 → s.time.inStatus ≠ 2 →
    ∃ t, exec (.timeInEdge residue miss) s = .next t ∧ Unfaulted s t ∧
      t = { s with time := { s.time with inStatus := 2, inResidue := residue % 9765625, inMissed := 0 }, mon := t.mon }) ∧
  (∀ (s : State) (residue miss : Nat), isMaster s.time = true → s.reg Dict.TIME_IN_MODE = 1 → s.time.inStatus = 2 →
    ∃ t, exec (.timeInEdge residue miss) s = .next t ∧
      (miss ≤ 1000 → ∃ d : Int, -1000 ≤ d ∧ d ≤ 1000 ∧ t = { s with time := { s.time with inMissed := 0, inSteer := d } }) ∧
      (1000 < miss → t = { s with time := { s.time with inMissed := s.time.inMissed + 1 } })) ∧
  (∀ (s : State) (residue miss : Nat), (isMaster s.time = false ∨ s.reg Dict.TIME_IN_MODE ≠ 1) →
    exec (.timeInEdge residue miss) s = .next s) ∧
  ∀ s : State, isMaster s.time = true → s.reg Dict.TIME_IN_MODE = 1 → s.time.inStatus = 2 → Loggable s 0x0205 0 0 →
    ∃ t, exec .timeInLost s = .next t ∧ Logged s t 0x0205 0 0 0 ∧
      t = { s with time := { s.time with inStatus := 3, inMissed := 0 }, mon := t.mon }

/-- R32 and R33: the judgement of a written row. -/
def Obligations.StitchActionWritten : Prop :=
  ∀ (s : State) (row v : Nat), row < 16 → coreUp s = true →
    (fld v 63 56 ≤ 3 → (fld v 63 56 ≠ 0 → fld v 127 64 ≤ s.time.count → Loggable s 0x0207 0 0) →
      ∃ t, exec (.timeActionsWrite row v) s = .next t ∧ WriteApplied s t ∧
        t = { s with time := { s.time with actions := t.time.actions }, mon := t.mon, ctl := t.ctl, latch := t.latch } ∧
        (∀ r, r ≠ row → tget {} t.time.actions r = tget {} s.time.actions r) ∧
        tget {} t.time.actions row =
          (if fld v 63 56 = 0 then
            (if (tget {} s.time.actions row).st = .pending then { tget {} s.time.actions row with st := .cancelled }
             else tget {} s.time.actions row)
           else
            { target := fld v 127 64, action := fld v 63 56, arg := fld v 31 0
              st := if s.time.count < fld v 127 64 then .pending else .missed }) ∧
        (if fld v 63 56 ≠ 0 ∧ fld v 127 64 ≤ s.time.count then Logged s t 0x0207 0 0 0 else Unfaulted s t)) ∧
    (3 < fld v 63 56 → ∃ t, exec (.timeActionsWrite row v) s = .next t ∧ WriteRefused s t 6)

/-- R40: what the executive keeps of a slice. -/
def Obligations.SliceOverrunCounted : Prop :=
  ∀ (s : State) (slice cycles : Nat), slice < 9 →
    (∃ t, exec (.cobblerSliceEnd slice cycles true) s = .next t ∧ t = { s with exe := t.exe } ∧
      t.exe.overruns = s.exe.overruns ∧ tget 0 t.exe.runs slice = 0 ∧ t.exe.due = s.exe.due ∧
      ∀ k, k ≠ slice → tget 0 t.exe.runs k = tget 0 s.exe.runs k) ∧
    ((slice ≠ 0 ∨ s.time.st ≠ .doubt) →
      ∃ t, exec (.cobblerSliceEnd slice cycles false) s = .next t ∧ t = { s with exe := t.exe, mon := t.mon } ∧ Unfaulted s t ∧
        tget 0 t.exe.overruns slice = (tget 0 s.exe.overruns slice + 1) % 2 ^ 32 ∧
        tget 0 t.exe.runs slice = tget 0 s.exe.runs slice + 1 ∧
        t.exe.due = (if tget 0 s.exe.runs slice = 2 then s.exe.due ++ [slice] else s.exe.due) ∧
        t.exe.servicesBehind = (s.exe.servicesBehind || decide (slice = 1)) ∧
        ∀ k, k ≠ slice → tget 0 t.exe.runs k = tget 0 s.exe.runs k ∧ tget 0 t.exe.overruns k = tget 0 s.exe.overruns k)

/-- R53, R54: the acceptance of the request at the front. -/
def Obligations.FrontRequestAccepted : Prop :=
  ∀ (s : State) (f : Feed) (q : Req), frontFeed s = some f → headOf s f = some q → q.mute = false →
    (acceptStatus (takeHead s f) q = 0 →
      (q.op = 1 → ∃ t, exec .dictRead s = .next t ∧ t = { s with ctl := t.ctl, mon := t.mon } ∧ Unfaulted s t ∧
        t.ctl.readQ = s.ctl.readQ ++ [{ q with accAt := s.time.count }] ∧ t.ctl.applyQ = s.ctl.applyQ) ∧
      (q.op = 3 → ∃ t, exec .dictDescribe s = .next t ∧ t = { s with ctl := t.ctl, mon := t.mon } ∧ Unfaulted s t ∧
        t.ctl.readQ = s.ctl.readQ ++ [{ q with accAt := s.time.count }] ∧ t.ctl.applyQ = s.ctl.applyQ) ∧
      (q.op = 7 → ∃ t, exec .dictEcho s = .next t ∧ t = { s with ctl := t.ctl, mon := t.mon } ∧ Unfaulted s t ∧
        t.ctl.readQ = s.ctl.readQ ++ [{ q with accAt := s.time.count }] ∧ t.ctl.applyQ = s.ctl.applyQ) ∧
      (q.op = 2 → ∃ t, exec .dictWrite s = .next t ∧ t = { s with ctl := t.ctl, mon := t.mon } ∧ Unfaulted s t ∧
        t.ctl.applyQ = s.ctl.applyQ ++ [{ q with accAt := s.time.count }] ∧ t.ctl.readQ = s.ctl.readQ)) ∧
    (acceptStatus (takeHead s f) q ≠ 0 → acceptStatus (takeHead s f) q ≠ 0x0A → q.op = 2 → q.feed = f →
      (f = .mbx ∨ (f = .sideband ∧ s.ctl.sbRespQ.length < 4)) →
      ∃ t, exec .dictWrite s = .next t ∧ t = { s with ctl := t.ctl, mon := t.mon, out := t.out } ∧ Unfaulted s t ∧
        t.ctl.applyQ = s.ctl.applyQ ∧ t.ctl.readQ = s.ctl.readQ ∧
        t.out = .resp (answer q (acceptStatus (takeHead s f) q) 0 []) :: s.out)

/-- R56, R57: a request served and a write applied. TIME_EPOCH_TAI_S stands for the objects that hold what was last written. -/
def Obligations.ReadServedWriteApplied : Prop :=
  (∀ (s : State) (q : Req) (rest : List Req), coreUp s = true → s.ctl.readCharge < 64 → s.ctl.readQ = q :: rest →
    q.mute = false → q.feed = .sideband → s.ctl.sbRespQ.length < 4 →
    (∀ o, q.op = 1 → Dict.find? q.index q.sub = some o → windowDormant s q o = false → o.id ≠ Dict.TIME_PHASE_NOW.id →
      ∃ t, exec .readServe s = .next t ∧ t = { s with ctl := t.ctl, out := t.out } ∧ t.ctl.readQ = rest ∧
        t.ctl.applyQ = s.ctl.applyQ ∧ t.ctl.readCharge = s.ctl.readCharge + (if o.ty = .table then q.count else 1) ∧
        t.out = .resp (answer q 0 s.time.count (readData { s with toChip := s.latch } q o)) :: s.out) ∧
    (q.op = 7 →
      ∃ t, exec .readServe s = .next t ∧ t = { s with ctl := t.ctl, out := t.out } ∧ t.ctl.readQ = rest ∧
        t.out = .resp (answer q 0 s.time.count q.data) :: s.out)) ∧
  ∀ (s : State) (q : Req) (rest : List Req), coreUp s = true → s.ctl.applyQ = q :: rest → q.accAt < s.time.count →
    s.ctl.usedWrites < 32 → q.mute = false → q.feed = .sideband → s.ctl.sbRespQ.length < 4 → q.op = 2 → q.index = 0x0200 → q.sub = 2 →
    q.row = 0 → q.count = 1 → q.data.length = 8 →
      ∃ t, exec .writeApply s = .next t ∧
        t = { s with regs := t.regs, ctl := t.ctl, mon := t.mon, out := t.out, latch := t.latch } ∧ Unfaulted s t ∧
        t.reg Dict.TIME_EPOCH_TAI_S = natLE q.data ∧
        (∀ (o : Obj) (row : Nat), regKey o row ≠ regKey Dict.TIME_EPOCH_TAI_S 0 → t.reg o row = s.reg o row) ∧
        t.ctl.applyQ = rest ∧ t.ctl.usedWrites = s.ctl.usedWrites + 1 ∧ t.ctl.applyLast = s.time.count ∧ t.ctl.writeStatus = 0 ∧
        t.latch = t.toChip ∧ t.out = .resp (answer q 0 s.time.count []) :: s.out

/-- R58, R61 to R64. -/
def Obligations.MailboxAndInbandTaken : Prop :=
  (∀ (s : State) (k : Nat) (rest : List Nat), s.ctl.persistQ = k :: rest →
    (∃ t, exec (.persistCopy true) s = .next t ∧ t = { s with ctl := { s.ctl with persistQ := rest }, mram := t.mram } ∧
      (∀ d, tget d t.mram k = tget d s.regs k) ∧ ∀ d k', k' ≠ k → tget d t.mram k' = tget d s.mram k') ∧
    (Loggable s 0x0104 0 0 → ∃ t, exec (.persistCopy false) s = .next t ∧
      t = { s with ctl := { s.ctl with persistQ := rest }, mon := t.mon } ∧ Logged s t 0x0104 0 0 0)) ∧
  (∀ (s : State) (bytes : Nat), coreUp s = true → s.host.units ≠ 0 → bytes < 2048 →
    (s.ctl.mbxBusy = false → s.ctl.mbxResp = false → 16 ≤ bytes → bytes ≤ 1024 → bytes = 16 + (mailboxReq s bytes).len →
      exec (.mbxDoorbell bytes) s = .next { s with ctl := { s.ctl with mbxBusy := true, mbxWait := some (mailboxReq s bytes) } }) ∧
    ((s.ctl.mbxBusy = true ∨ s.ctl.mbxResp = true) →
      ∃ t, exec (.mbxDoorbell bytes) s = .next t ∧ t = { s with mon := t.mon } ∧ Unfaulted s t)) ∧
  (∀ (s : State) (v : Nat), coreUp s = true → s.host.units ≠ 0 → bitAt v 0 = true →
    exec (.mbxRespDone v) s = .next { s with ctl := { s.ctl with mbxResp := false } }) ∧
  (∀ (s : State) (d : Delivered), deliveredHead s portSP 0xF0 = some d → d.pkt.priv = true →
    (sourceAllowed s d.pkt.sfna = true → inbandOpen s = true → 16 ≤ d.pkt.payload.length →
      s.ctl.dups.find? (dupMatches (inbandReq d)) = none → s.ctl.dups.length < 256 → s.ctl.inbandQ.length < 16 →
      ∃ t, exec .mgmtRequestPacket s = .next t ∧ t = { s with ctl := t.ctl, sw := t.sw } ∧
        t.ctl = { s.ctl with
          inbandQ := s.ctl.inbandQ ++ [inbandReq d]
          dups := s.ctl.dups ++ [{ sfna := (inbandReq d).sfna, agent := (inbandReq d).agent, seq := (inbandReq d).seq }] }) ∧
    (sourceAllowed s d.pkt.sfna = false →
      ∃ t, exec .mgmtRequestPacket s = .next t ∧ t = { s with ctl := t.ctl, sw := t.sw, mon := t.mon } ∧
        t.ctl = { s.ctl with refusedSfna := d.pkt.sfna })) ∧
  ∀ s : State, ∃ t, exec .dupFilterExpiry s = .next t ∧ t = { s with ctl := { s.ctl with dups := t.ctl.dups } } ∧
    t.ctl.dups.Sublist s.ctl.dups ∧
    ∀ e, e ∈ t.ctl.dups ↔ e ∈ s.ctl.dups ∧ (e.resp = none ∨ s.time.count < e.sentAt + 1024)

/-- R66 to R69. -/
def Obligations.SidebandAndMPortReset : Prop :=
  (∀ (s : State) (bytes : List Byte) (n : Nat) (pec : PecCheck), s.pwr.off = false → s.ctl.sbReqQ.length < 4 → 16 ≤ n → n ≤ 252 →
    (pecFails s pec = false → exec (.sbRequestWrite bytes n pec) s =
      .next { s with ctl := { s.ctl with sbReqQ := s.ctl.sbReqQ ++ [sidebandReq bytes n] } }) ∧
    (pecFails s pec = true → ∃ t, exec (.sbRequestWrite bytes n pec) s = .next t ∧
      t = { s with ctl := { s.ctl with sbPecErr := true }, mon := t.mon })) ∧
  (∀ (s : State) (r : Resp) (rest : List Resp), s.pwr.off = false → s.ctl.sbRespQ = r :: rest →
    exec .sbResponseRead s = .next { s with
      ctl := { s.ctl with sbRespQ := rest ++ s.ctl.sbHeld.toList, sbHeld := none }, out := .sideband (respBytes r) :: s.out }) ∧
  (∀ s : State, s.pwr.off = false → ∃ b : Byte,
    exec .sbStatusRead s = .next { s with ctl := { s.ctl with sbPecErr := false }, out := .sideband [b] :: s.out } ∧
      b.getLsbD 0 = !s.ctl.sbRespQ.isEmpty ∧ b.getLsbD 1 = decide (4 ≤ s.ctl.sbReqQ.length) ∧ b.getLsbD 2 = s.ctl.sbPecErr ∧ b.toNat < 8) ∧
  (∀ (s : State) (v : Nat), s.pwr.off = false → exec (.sbDynamicAddress v) s =
    .next { s with ctl := { s.ctl with sbDynAddr := some (v % 128) } }) ∧
  (∀ s : State, exec .smbusTimeout s = .next s) ∧
  (∀ (s : State) (v : Nat), s.pwr.off = false → exec (.sbResetByte v) s =
    .next { s with ctl := { s.ctl with mResetDue := s.ctl.mResetDue || decide (v = 0xA5) } }) ∧
  (∀ (s : State) (v : Nat), coreUp s = true → v ≤ 1 → ∃ t, exec (.ctlMResetWrite v) s = .next t ∧
    t = { s with ctl := t.ctl, mon := t.mon, latch := t.latch } ∧ Unfaulted s t ∧ t.latch = t.toChip ∧
    t.ctl = { s.ctl with mResetDue := s.ctl.mResetDue || decide (v = 1), writeStatus := 0, applyLast := s.time.count }) ∧
  (∀ s : State, idleResetDue s = true → exec .mIdleResetExpiry s = .next { s with ctl := { s.ctl with mResetDue := true } }) ∧
  (∀ (s : State) (v : Nat), coreUp s = true → v ≤ 1 → ∃ t, exec (.ctlMInbandEnableWrite v) s = .next t ∧
    t = { s with regs := t.regs, ctl := t.ctl, mon := t.mon, latch := t.latch } ∧ Unfaulted s t ∧
    t.reg Dict.CTL_M_INBAND_ENABLE = v ∧ t.ctl.writeStatus = 0 ∧ t.ctl.applyLast = s.time.count ∧ t.ctl.inbandQ = s.ctl.inbandQ) ∧
  ∀ s : State, s.ctl.mResetDue = true → Loggable s 0x0105 0 0 → ∃ t, exec .mPortReset s = .next t ∧
    t = { s with ctl := t.ctl, sem := t.sem, mon := t.mon } ∧ Logged s t 0x0105 0 0 0 ∧
    t.ctl.inbandQ = [] ∧ t.ctl.sbReqQ = [] ∧ t.ctl.sbHeld = none ∧ t.ctl.dups = [] ∧ t.ctl.mResetDue = false ∧
    t.ctl.applyQ.length = s.ctl.applyQ.length ∧ t.ctl.readQ = s.ctl.readQ.filter onH ∧
    t.sem = { s.sem with resets := s.sem.resets ++ [.mport] }

/-- R87, R89 and R96: the transitions that need no block. 1.0 ms, 8 µs and a frame are counted as log entry 51 says. -/
def Obligations.BringUpTransitions : Prop :=
  (∀ (s : State) (p : Nat), p < 96 → (s.lane p).st = .detect →
    ∃ t, exec (.signalDetect p) s = .next t ∧ LineOnly s t ∧ (t.lane p).st = .lock ∧ (t.lane p).lockAt = s.time.count ∧
      ∀ q, q ≠ p → t.lane q = s.lane q) ∧
  (∀ (s : State) (p : Nat), p < 96 → (s.lane p).st = .rest →
    ∃ t, exec (.signalDetect p) s = .next t ∧ LineOnly s t ∧ (t.lane p).st = .seam ∧ (t.lane p).fromRest = true ∧
      (t.lane p).wakeAt = s.time.count ∧ ∀ q, q ≠ p → t.lane q = s.lane q) ∧
  (∀ (s : State) (p : Nat), p < 96 →
    ((s.lane p).st = .lock ∨ (s.lane p).st = .block ∨ (s.lane p).st = .train ∨ (s.lane p).st = .stripe ∨
      ((s.lane p).st = .seam ∧ (s.lane p).fromRest = false)) →
    ∃ t, exec (.signalLost p) s = .next t ∧ LineOnly s t ∧ (t.lane p).st = .detect ∧ ∀ q, q ≠ p → t.lane q = s.lane q) ∧
  (∀ (s : State) (p : Nat), p < 96 → (s.lane p).st = .up → ((s.lane p).sentRest = false ∨ (s.link p).psc ≠ some 4) →
    Loggable s 0x0309 1 p →
    ∃ t, exec (.signalLost p) s = .next t ∧ Logged s t 0x0309 1 p 0 ∧ (t.lane p).st = .detect ∧
      t = { s with lanes := t.lanes, eyes := t.eyes, links := t.links, mon := t.mon } ∧ ∀ q, q ≠ p → t.lane q = s.lane q) ∧
  (∀ (s : State) (p eye : Nat), p < 96 → (s.lane p).st = .lock → (s.lane p).lockAt + 9766 ≤ s.time.count →
    ∃ t, exec (.laneAdaptDone p eye) s = .next t ∧ LineOnly s t ∧ (t.lane p).st = .block ∧ ∀ q, q ≠ p → t.lane q = s.lane q) ∧
  (∀ (s : State) (p : Nat), p < 96 →
    ((s.lane p).st = .lock ∨ (s.lane p).st = .block ∨ (s.lane p).st = .train ∨ (s.lane p).st = .stripe) →
    (s.lane p).lockAt + 1024 * s.reg Dict.LANE_BRINGUP_TIMEOUT_FR ≤ s.time.count → Loggable s 0x0301 1 p →
    ∃ t, exec (.laneBringupTimeout p) s = .next t ∧ Logged s t 0x0301 1 p 0 ∧ (t.lane p).st = .failed ∧
      t = { s with lanes := t.lanes, eyes := t.eyes, links := t.links, mon := t.mon } ∧ ∀ q, q ≠ p → t.lane q = s.lane q) ∧
  (∀ (s : State) (p : Nat), p < 96 → (s.lane p).st = .failed → (s.lane p).failedAt + 65536 ≤ s.time.count →
    ∃ t, exec (.laneFailedRetry p) s = .next t ∧ LineOnly s t ∧ (t.lane p).st = .detect ∧ ∀ q, q ≠ p → t.lane q = s.lane q) ∧
  ∀ (s : State) (p : Nat), p < 96 → (s.lane p).st = .seam → (s.lane p).fromRest = true → (s.lane p).wakeAt + 79 ≤ s.time.count →
    Loggable s 0x030A 1 p →
    ∃ t, exec (.wakeTimeout p) s = .next t ∧ Logged s t 0x030A 1 p 0 ∧ (t.lane p).st = .detect ∧
      t = { s with lanes := t.lanes, eyes := t.eyes, links := t.links, mon := t.mon } ∧ ∀ q, q ≠ p → t.lane q = s.lane q

/-- R78, R83, R86 and R87: the receiver. -/
def Obligations.LineReceived : Prop :=
  (∀ (s : State) (lane h payload : Nat), lane < 192 → (s.lane (lane / 2)).st = .block → (h = 1 ∨ h = 2) → payload < 2 ^ 64 →
    63 ≤ (if lane % 2 = 1 then (s.lane (lane / 2)).b else (s.lane (lane / 2)).a).histLen →
    (if lane % 2 = 1 then (s.lane (lane / 2)).b else (s.lane (lane / 2)).a).hist = 0 →
    headersGood (if lane % 2 = 1 then (s.lane (lane / 2)).a else (s.lane (lane / 2)).b) = true →
    (if lane % 2 = 1 then (s.lane (lane / 2)).b else (s.lane (lane / 2)).a).histLen ≤ 64 →
    ∃ t, exec (.blockReceive lane h payload) s = .next t ∧ LineOnly s t ∧ (t.lane (lane / 2)).st = .train ∧
      ∀ q, q ≠ lane / 2 → t.lane q = s.lane q) ∧
  (∀ (s : State) (lane payload : Nat) (inv : Bool), lane < 192 → (s.lane (lane / 2)).st = .train → payload < 2 ^ 64 →
    blockGood 0x9C payload = false →
    exec (.trainingBlockReceive lane payload inv) s =
      .next (s.updLane (lane / 2) fun l => updRx l (decide (lane % 2 = 1)) fun x => { x with goodTrain := 0, ackSeen := false })) ∧
  (∀ (s : State) (lane payload : Nat) (inv : Bool), lane < 192 → (s.lane (lane / 2)).st = .train → payload < 2 ^ 64 →
    blockGood 0x9C payload = true → (s.lane (lane / 2)).a.goodTrain = 0 → (s.lane (lane / 2)).b.goodTrain = 0 →
    (s.lane (lane / 2)).a.ackSeen = false → (s.lane (lane / 2)).b.ackSeen = false →
    ∃ t, exec (.trainingBlockReceive lane payload inv) s = .next t ∧ t = { s with lanes := t.lanes } ∧
      (if lane % 2 = 1 then (t.lane (lane / 2)).b else (t.lane (lane / 2)).a) =
        { (if lane % 2 = 1 then (s.lane (lane / 2)).b else (s.lane (lane / 2)).a) with
          goodTrain := 1, ackSeen := bitAt payload 54, par := fld payload 55 55, port := fld payload 53 47
          fna := fld payload 46 29, inverted := inv } ∧
      ∀ q, q ≠ lane / 2 → t.lane q = s.lane q) ∧
  (∀ (s : State) (p : Nat) (symbols : List Nat), p < 96 → (s.lane p).st = .stripe → (s.lane p).cleanRun = 3 →
    correctable symbols = some 0 →
    ∃ t, exec (.codewordReceive p symbols) s = .next t ∧ LineOnly s t ∧ (t.lane p).st = .seam ∧ (t.lane p).expect = none ∧
      ∀ q, q ≠ p → t.lane q = s.lane q) ∧
  (∀ (s : State) (p payload pace : Nat), p < 96 → (s.lane p).st = .up → payload < 2 ^ 64 → blockGood 0xE1 payload = true → pace ≤ 14 →
    (s.lane p).expect = some (fld payload 55 32) → fld payload 31 28 = 0 →
    ∃ t, exec (.markerReceive p payload pace false) s = .next t ∧ (t.lane p).st = .up ∧
      (t.lane p).expect = some ((fld payload 55 32 + 1) % 2 ^ 24) ∧ (t.lane p).errRun = 0 ∧
      (t.link p).psc = some 0 ∧ (∀ q, q ≠ p → t.lane q = s.lane q ∧ t.link q = s.link q) ∧
      t = { s with lanes := t.lanes, links := t.links, time := t.time, freeN := s.freeN + 1 }) ∧
  ∀ (s : State) (p payload pace e : Nat), p < 96 → (s.lane p).st = .up → (s.lane p).errRun < 2 → (s.lane p).expect = some e →
    ∃ t, exec (.markerReceive p payload pace true) s = .next t ∧ (t.lane p).st = .up ∧
      (t.lane p).expect = some ((e + 1) % 2 ^ 24) ∧ (t.lane p).errRun = (s.lane p).errRun + 1 ∧
      t = { s with lanes := t.lanes, mon := t.mon } ∧ Unfaulted s t ∧ ∀ q, q ≠ p → t.lane q = s.lane q

/-- R84 to R94: the writes and their refusals. -/
def Obligations.LaneWritesApplied : Prop :=
  (∀ (s : State) (p : Nat), p < 96 → coreUp s = true → (s.lane p).st ≠ .off →
    ∃ t, exec (.laneEnableWrite p 0) s = .next t ∧ (t.lane p).st = .off ∧ t.reg Dict.LANE_ENABLE p = 0 ∧ Unfaulted s t ∧
      (∀ q, q ≠ p → t.lane q = s.lane q) ∧ t.ctl.writeStatus = 0 ∧ t.latch = t.toChip ∧
      t = { s with regs := t.regs, lanes := t.lanes, eyes := t.eyes, links := t.links, mon := t.mon, ctl := t.ctl, latch := t.latch }) ∧
  (∀ (s : State) (p v : Nat), p < 96 → coreUp s = true →
    ((s.lane p).st = .off ∨ (s.lane p).st = .detect ∨ (s.lane p).st = .failed) →
    (1 ≤ v → v ≤ 3 → ∃ t, exec (.laneLoopbackWrite p v) s = .next t ∧ WriteApplied s t ∧ Unfaulted s t ∧ (t.lane p).st = .loopback ∧
      t.reg Dict.LANE_LOOPBACK p = v ∧ (∀ q, q ≠ p → t.lane q = s.lane q) ∧
      t = { s with regs := t.regs, lanes := t.lanes, eyes := t.eyes, links := t.links, mon := t.mon, ctl := t.ctl, latch := t.latch }) ∧
    (v ≤ 2 → ∃ t, exec (.lanePatternWrite p v) s = .next t ∧ WriteApplied s t ∧ Unfaulted s t ∧ t.reg Dict.LANE_PATTERN p = v ∧
      t = { s with regs := t.regs, mon := t.mon, ctl := t.ctl, latch := t.latch })) ∧
  (∀ (s : State) (p v : Nat), p < 96 → coreUp s = true →
    ((s.lane p).st = .lock ∨ (s.lane p).st = .block ∨ (s.lane p).st = .train ∨ (s.lane p).st = .stripe ∨ (s.lane p).st = .seam) →
    (∃ t, exec (.laneLoopbackWrite p v) s = .next t ∧ WriteRefused s t 0x0C) ∧
    (∃ t, exec (.lanePatternWrite p v) s = .next t ∧ WriteRefused s t 0x0C) ∧
    ∃ t, exec (.laneFecRxModeWrite p 1) s = .next t ∧ WriteRefused s t 0x0C) ∧
  (∀ (s : State) (p : Nat), p < 96 → coreUp s = true → s.reg Dict.LANE_FEC_RX_MODE p = 1 → tget none s.lasts.base p = none →
    ∃ t, exec (.laneFecRxModeWrite p 0) s = .next t ∧ Unfaulted s t ∧ t.reg Dict.LANE_FEC_RX_MODE p = 0 ∧
      t.lane p = { s.lane p with blind := (s.lane p).blind || decide ((s.lane p).st = .up) } ∧ (∀ q, q ≠ p → t.lane q = s.lane q) ∧
      t = { s with regs := t.regs, lanes := t.lanes, mon := t.mon, ctl := t.ctl, latch := t.latch }) ∧
  (∀ (s : State) (lane v : Nat), lane < 192 → coreUp s = true → (s.lane (lane / 2)).st = .up →
    bitAt (tget {} s.eyes lane).ctl 31 = false → bitAt v 31 = true → eyeCheck s lane v = 0 →
    ∃ t, exec (.eyeScanGo lane v) s = .next t ∧ WriteApplied s t ∧ Unfaulted s t ∧
      fld (tget {} t.eyes lane).ctl 31 30 = 2 ∧ (tget {} t.eyes lane).startAt = s.time.count ∧
      (∀ k, k ≠ lane → tget {} t.eyes k = tget {} s.eyes k) ∧
      t = { s with eyes := t.eyes, mon := t.mon, ctl := t.ctl, latch := t.latch }) ∧
  ∀ (s : State) (lane errors : Nat), lane < 192 → bitAt (tget {} s.eyes lane).ctl 31 = true →
    2 ^ fld (tget {} s.eyes lane).ctl 27 22 ≤ (s.time.count - (tget {} s.eyes lane).startAt) * 10880 →
    ∃ t, exec (.eyeScanDone lane errors) s = .next t ∧ Unfaulted s t ∧ t = { s with eyes := t.eyes, mon := t.mon } ∧
      fld (tget {} t.eyes lane).ctl 31 30 = 1 ∧ fld (tget {} t.eyes lane).result 63 32 = min 0xFFFFFFFF errors ∧
      fld (tget {} t.eyes lane).result 31 0 = s.time.count % 2 ^ 32 ∧ ∀ k, k ≠ lane → tget {} t.eyes k = tget {} s.eyes k

/-- R95, R96 and R481. -/
def Obligations.RestOnTheLanes : Prop :=
  (∀ (s : State) (p : Nat), p < 96 → couldRest s p = true → s.reg Dict.PWR_REST_IDLE_FR ≤ (s.lane p).idleFrames →
    exec (.restIdleTimerExpiry p) s = .next (s.updLane p fun l => { l with askRest := true })) ∧
  (∀ (s : State) (p : Nat), p < 96 → (s.lane p).st = .up → (s.lane p).restRun = 16 →
    (s.time.count % 1024 = 0 → ∃ t, exec (.restEnter p) s = .next t ∧ LineOnly s t ∧ (t.lane p).st = .rest ∧
      t.links = s.links ∧ ∀ q, q ≠ p → t.lane q = s.lane q) ∧
    (s.time.count % 1024 ≠ 0 → exec (.restEnter p) s = .next s)) ∧
  (∀ (s : State) (p : Nat), p < 96 → (s.lane p).st = .rest →
    ∃ t, exec (.restWake p) s = .next t ∧ LineOnly s t ∧ (t.lane p).st = .seam ∧ (t.lane p).fromRest = true ∧
      (t.lane p).wakeAt = s.time.count ∧ t.links = s.links ∧ ∀ q, q ≠ p → t.lane q = s.lane q) ∧
  ∀ (s : State) (p : Nat), p < 96 → coreUp s = true → (s.lane p).st = .rest →
    ∃ t, exec (.pwrWakePortWrite p 1) s = .next t ∧ WriteApplied s t ∧ Unfaulted s t ∧ (t.lane p).st = .seam ∧
      (t.lane p).fromRest = true ∧ (∀ q, q ≠ p → t.lane q = s.lane q) ∧
      t = { s with lanes := t.lanes, eyes := t.eyes, links := t.links, mon := t.mon, ctl := t.ctl, latch := t.latch }

/-- R108, whole, for the ports that take control flits. -/
def Obligations.AckcrWindow : Prop :=
  ∀ (s : State) (p : Nat) (a : Ackcr), p < 96 → takesControl (s.link p) = true →
    (modSub 4096 a.ne (s.link p).oldest ≤ outstanding (s.link p) →
      ∃ t, exec (.ackcrReceive p a) s = .next t ∧ OnLink s t p ∧ (t.link p).oldest = a.ne ∧
        (t.link p).replay = (s.link p).replay.drop (modSub 4096 a.ne (s.link p).oldest)) ∧
    (outstanding (s.link p) < modSub 4096 a.ne (s.link p).oldest →
      ∃ t, exec (.ackcrReceive p a) s = .next t ∧ t = (s.count 0x209 p).raise 0x0404 1 p ∧ t = { s with mon := t.mon } ∧
        (Loggable s 0x0404 1 p → Logged s t 0x0404 1 p 0))

/-- R107, R109 to R112. -/
def Obligations.ReplayStartedAndJudged : Prop :=
  (∀ (s : State) (p : Nat), p < 96 → takesControl (s.link p) = true → (s.lane p).st ≠ .rest →
    (0 < (s.link p).ackOwed ∨ (s.link p).discarding = true ∨ (s.link p).ackAt + 8 ≤ s.time.count) →
    exec (.ackcrTimer p) s = .next (s.updLink p fun l => { l with ackDue := true })) ∧
  (∀ (s : State) (p : Nat) (a : Ackcr), p < 96 → inService (s.link p) = true → (s.link p).halted = false → a.nak = true →
    a.nakId ≠ (s.link p).served → a.ne = (s.link p).oldest → creditsBad ((s.link p).acked a 0 s.time.count) = false →
    ((s.link p).replays < s.reg Dict.LINK_REPLAY_LIMIT →
      ∃ t, exec (.ackcrReceive p a) s = .next t ∧ OnLink s t p ∧ Unfaulted s t ∧ (t.link p).served = a.nakId ∧
        (t.link p).replays = (s.link p).replays + 1 ∧ (t.link p).replay = (s.link p).replay ∧
        (t.link p).replayPos = (if (s.link p).replay.isEmpty then none else some 0) ∧
        (t.link p).ctlQ.getLast? = some (ctlFlit (packReplay a.ne a.nakId))) ∧
    (s.reg Dict.LINK_REPLAY_LIMIT ≤ (s.link p).replays → Loggable s 0x0403 1 p →
      ∃ t, exec (.ackcrReceive p a) s = .next t ∧ OnLink s t p ∧ Logged s t 0x0403 1 p 0 ∧
        ((s.link p).due = none → (t.link p).due = some .isolated))) ∧
  (∀ (s : State) (p : Nat), p < 96 → inService (s.link p) = true → (s.link p).halted = false → 0 < outstanding (s.link p) →
    (s.link p).oldestAt + s.reg Dict.LINK_REPLAY_TIMEOUT_ST ≤ s.time.count →
    ((s.link p).replays < s.reg Dict.LINK_REPLAY_LIMIT →
      ∃ t, exec (.replayTimeout p) s = .next t ∧ OnLink s t p ∧ Unfaulted s t ∧
        (t.link p).replays = (s.link p).replays + 1 ∧ (t.link p).oldestAt = s.time.count ∧
        (t.link p).replayPos = (if (s.link p).replay.isEmpty then none else some 0) ∧
        (t.link p).ctlQ.getLast? = some (ctlFlit (packReplay (s.link p).oldest (s.link p).served))) ∧
    (s.reg Dict.LINK_REPLAY_LIMIT ≤ (s.link p).replays → Loggable s 0x0403 1 p →
      ∃ t, exec (.replayTimeout p) s = .next t ∧ OnLink s t p ∧ Logged s t 0x0403 1 p 0 ∧
        ((s.link p).due = none → (t.link p).due = some .isolated))) ∧
  (∀ (s : State) (p num nakId : Nat), p < 96 → takesControl (s.link p) = true →
    ((s.link p).discarding = true →
      exec (.replayReceive p num nakId) s = .next (if nakId = (s.link p).nakId ∧ num = (s.link p).ne then
        s.updLink p fun l => { l with discarding := false, behind := 0 } else s)) ∧
    ((s.link p).discarding = false → modSub 4096 (s.link p).ne num ≤ 2047 →
      exec (.replayReceive p num nakId) s = .next (s.updLink p fun l => { l with behind := modSub 4096 (s.link p).ne num })) ∧
    ((s.link p).discarding = false → 2047 < modSub 4096 (s.link p).ne num → inService (s.link p) = true → s.mon.fault.isolated = false →
      (s.link p).due = none → Loggable s 0x040A 1 p →
      ∃ t, exec (.replayReceive p num nakId) s = .next t ∧ OnLink s t p ∧ Logged s t 0x040A 1 p 0 ∧
        (t.link p).due = some .listening)) ∧
  ∀ (s : State) (p : Nat), p < 96 → inService (s.link p) = true → (s.link p).discarding = true →
    (s.link p).nakAt + s.reg Dict.LINK_NAK_WAIT_ST ≤ s.time.count →
    ∃ t, exec (.nakWaitTimeout p) s = .next t ∧ t = { s with links := t.links } ∧ OnLink s t p ∧ (t.link p).discarding = true ∧
      (t.link p).nakId = ((s.link p).nakId + 1) % 16 ∧ (t.link p).ackDue = true ∧ (t.link p).ne = (s.link p).ne

/-- R116, R129 to R131 and R134. -/
def Obligations.CreditsInitAndAdmission : Prop :=
  (∀ (s : State) (p : Nat) (c : CreditSync), p < 96 → takesControl (s.link p) = true →
    ((s.link p).discarding = true ∨ c.num ≠ (s.link p).ne → exec (.creditSyncReceive p c) s = .next (s.count 0x20B p)) ∧
    ((s.link p).discarding = false → c.num = (s.link p).ne →
      ((∀ d ∈ drifts (s.link p) c, d = 0) → exec (.creditSyncReceive p c) s = .next (s.count 0x20A p)) ∧
      ((∃ d ∈ drifts (s.link p) c, d ≠ 0) → (∀ d ∈ drifts (s.link p) c, d.natAbs ≤ s.reg Dict.LINK_DRIFT_LIMIT) → Loggable s 0x0405 1 p →
        ∃ t, exec (.creditSyncReceive p c) s = .next t ∧ OnLink s t p ∧ Logged s t 0x0405 1 p 0 ∧ (t.link p).rcvd = c.sent ∧
          ∀ v, v < 8 → (t.link p).freed.getD v 0 =
            ofSigned 16 (((s.link p).freed.getD v 0 : Int) + toSigned 16 (modSub 65536 (c.sent.getD v 0) ((s.link p).rcvd.getD v 0)))))) ∧
  (∀ (s : State) (p : Nat) (i : InitBody), p < 96 → (s.link p).st = .listening → i.step ≤ 1 →
    (i.version = 1 → put i.fna 24 7 + put i.port 6 0 = (s.lane p).partner →
      ∃ t, exec (.initReceive p i) s = .next t ∧ t = { s with links := t.links } ∧ OnLink s t p ∧ (t.link p).initRx = true ∧
        (t.link p).limit = i.limit ∧ (t.link p).init1Rx = ((s.link p).init1Rx || decide (i.step = 1)) ∧
        ((s.link p).initRx = false → ∃ b : InitBody, b.step = 1 ∧ b.fna = s.reg Dict.ID_FNA ∧ b.port = p ∧ b.version = 1 ∧
          b.limit = (s.inPort p).reserve ∧ (t.link p).ctlQ = (s.link p).ctlQ ++ [ctlFlit (packInit b)])) ∧
    (i.version ≠ 1 → (s.link p).versionLogged = false → Loggable s 0x0402 1 p →
      ∃ t, exec (.initReceive p i) s = .next t ∧ OnLink s t p ∧ Logged s t 0x0402 1 p 0 ∧ (t.link p).versionLogged = true ∧
        (t.link p).initRx = (s.link p).initRx) ∧
    (i.version ≠ 1 → (s.link p).versionLogged = true → exec (.initReceive p i) s = .next s)) ∧
  (∀ (s : State) (p : Nat), p < 96 → (s.link p).st = .listening → (s.link p).slowLogged = false →
    (s.link p).listenAt + 1024 ≤ s.time.count → Loggable s 0x0401 1 p →
    ∃ t, exec (.linkInitSlow p) s = .next t ∧ OnLink s t p ∧ Logged s t 0x0401 1 p 0 ∧
      (t.link p).slowLogged = true ∧ (t.link p).st = .listening) ∧
  (∀ (s : State) (p : Nat), p < 96 → coreUp s = true → s.time.st = .locked →
    ((s.link p).st = .quarantine → ∃ t, exec (.linkAdmitWrite p 1) s = .next t ∧ WriteApplied s t ∧ Unfaulted s t ∧
      (t.link p).st = .admitted ∧ t.reg Dict.LINK_ADMIT p = 1 ∧ (∀ q, q ≠ p → t.link q = s.link q) ∧
      t = { s with regs := t.regs, links := t.links, sw := t.sw, mon := t.mon, ctl := t.ctl, latch := t.latch }) ∧
    ((s.link p).st = .admitted → ∃ t, exec (.linkAdmitWrite p 0) s = .next t ∧ WriteApplied s t ∧ Unfaulted s t ∧
      (t.link p).st = .quarantine ∧ t.reg Dict.LINK_ADMIT p = 0 ∧ (∀ q, q ≠ p → t.link q = s.link q) ∧
      t = { s with regs := t.regs, links := t.links, mon := t.mon, ctl := t.ctl, latch := t.latch }) ∧
    (inService (s.link p) = false → ∃ t, exec (.linkAdmitWrite p 1) s = .next t ∧ WriteRefused s t 0x0C)) ∧
  ∀ (s : State) (p : Nat), p < 96 → coreUp s = true →
    (((s.link p).st = .quarantine ∨ (s.link p).st = .admitted ∨ (s.link p).st = .hold ∨ (s.link p).st = .isolated) → s.mon.fault.isolated = false →
      ∃ t, exec (.linkReinitWrite p 1) s = .next t ∧ WriteApplied s t ∧ (t.link p).st = .listening ∧ (t.link p).replay = [] ∧
        (t.link p).next = 0 ∧ (t.link p).ne = 0 ∧ (t.link p).nakId = 0 ∧ (t.link p).sent = List.replicate 8 0 ∧
        (t.link p).rcvd = List.replicate 8 0 ∧ (t.link p).freed = List.replicate 8 0 ∧ (t.link p).limit = List.replicate 8 0 ∧
        (t.link p).listenAt = s.time.count ∧ ((s.link p).rxOpen = none → ∀ q, q ≠ p → t.link q = s.link q)) ∧
    ((s.link p).st = .down ∨ s.mon.fault.isolated = true →
      ∃ t, exec (.linkReinitWrite p 1) s = .next t ∧ WriteRefused s t 0x0C)

/-- R102 to R105, R109, R119 and R127. -/
def Obligations.FlitReceived : Prop :=
  ∀ (s : State) (p pos : Nat) (f : BitVec 512), p < 96 → (s.lane p).st = .up → (s.lane p).blind = false → s.mon.fault.fatal = false →
    (s.link p).st ≠ .down →
    (flitGood f.toNat = false →
      (inService (s.link p) = true → (s.link p).discarding = false →
        ∃ t, exec (.flitReceive p pos f false) s = .next t ∧ OnLink s t p ∧ Unfaulted s t ∧ (t.link p).discarding = true ∧
          (t.link p).nakId = ((s.link p).nakId + 1) % 16 ∧ (t.link p).ackDue = true ∧ (t.link p).ne = (s.link p).ne) ∧
      (inService (s.link p) = false ∨ (s.link p).discarding = true →
        exec (.flitReceive p pos f false) s = .next (s.count 0x204 p))) ∧
    (flitGood f.toNat = true → flitCtl f.toNat = 0 → exec (.flitReceive p pos f false) s = .next s) ∧
    (flitGood f.toNat = true → flitCtl f.toNat = 0x86 →
      ((s.link p).st = .listening → subtypeOf (flitBody f.toNat) = 7 →
        exec (.flitReceive p pos f false) s = exec (.initReceive p (unpackInit (flitBody f.toNat))) s) ∧
      ((s.link p).st ≠ .listening →
        (subtypeOf (flitBody f.toNat) = 1 →
          exec (.flitReceive p pos f false) s = exec (.ackcrReceive p (unpackAckcr (flitBody f.toNat))) s) ∧
        (subtypeOf (flitBody f.toNat) = 2 → exec (.flitReceive p pos f false) s =
          exec (.replayReceive p (fld (flitBody f.toNat) 471 460) (fld (flitBody f.toNat) 459 456)) s) ∧
        (subtypeOf (flitBody f.toNat) = 6 →
          exec (.flitReceive p pos f false) s = exec (.creditSyncReceive p (unpackSync (flitBody f.toNat))) s) ∧
        (7 < subtypeOf (flitBody f.toNat) → Loggable s 0x040B 1 p →
          ∃ t, exec (.flitReceive p pos f false) s = .next t ∧ t = { s with mon := t.mon } ∧ Logged s t 0x040B 1 p 0))) ∧
    (flitGood f.toNat = true → fld (flitCtl f.toNat) 7 6 = 1 → inService (s.link p) = true → (s.link p).discarding = false →
      (s.link p).behind = 0 → (s.link p).rxOpen = none →
      (bitAt (flitCtl f.toNat) 2 = false → (s.link p).due = none → Loggable s 0x0408 1 p →
        ∃ t, exec (.flitReceive p pos f false) s = .next t ∧ OnLink s t p ∧ Logged s t 0x0408 1 p 0 ∧
          (t.link p).due = some .isolated ∧ (t.link p).ne = (s.link p).ne) ∧
      (bitAt (flitCtl f.toNat) 2 = true → bitAt (flitCtl f.toNat) 1 = true → (s.link p).st = .quarantine →
        fld (flitCtl f.toNat) 5 3 ≠ 3 → inDepth s p (fld (flitCtl f.toNat) 5 3) < committed (s.inPort p) (fld (flitCtl f.toNat) 5 3) →
        (s.link p).freed.length = 8 → (s.link p).rcvd.length = 8 → Loggable s 0x0409 1 p →
        ∃ t, exec (.flitReceive p pos f false) s = .next t ∧ OnLink s t p ∧ Logged s t 0x0409 1 p 0 ∧
          (t.link p).ne = ((s.link p).ne + 1) % 4096 ∧ (t.link p).rxOpen = none ∧
          (t.link p).freed.getD (fld (flitCtl f.toNat) 5 3) 0 = ((s.link p).freed.getD (fld (flitCtl f.toNat) 5 3) 0 + 1) % 65536 ∧
          (t.link p).rcvd.getD (fld (flitCtl f.toNat) 5 3) 0 = ((s.link p).rcvd.getD (fld (flitCtl f.toNat) 5 3) 0 + 1) % 65536))

/-- R160, R169, R172, R177. -/
def Obligations.HintsAndBankSwitch : Prop :=
  (∀ (s : State) (p : Nat) (r : HintRec), p < 96 →
    ∃ t, exec (.congHintReceive p [r]) s = .next t ∧ t = { s with sw := { s.sw with hints := t.sw.hints }, mon := t.mon } ∧ Unfaulted s t ∧
      ({ member := memberOf r.origin, level := r.level, stamp := r.stamp } : Hint) ∈ tget [] t.sw.hints r.toGroup ∧
      (∀ g, g ≠ r.toGroup → tget [] t.sw.hints g = tget [] s.sw.hints g) ∧
      (∀ x ∈ tget [] s.sw.hints r.toGroup, x.member ≠ memberOf r.origin →
        ((tget [] s.sw.hints r.toGroup).length < 4 ∨ ∃ y ∈ tget [] s.sw.hints r.toGroup, y.member = memberOf r.origin) →
        x ∈ tget [] t.sw.hints r.toGroup) ∧
      ∀ x ∈ tget [] s.sw.hints r.toGroup, x ∉ tget [] t.sw.hints r.toGroup → x.member ≠ memberOf r.origin →
        ∀ y ∈ tget [] s.sw.hints r.toGroup, hintAge s.time.count y.stamp ≤ hintAge s.time.count x.stamp) ∧
  (∀ (s : State) (v : Nat), coreUp s = true → v ≤ 1 →
    (v ≠ s.reg Dict.ROUTE_BANK → ∃ t, exec (.routeBankWrite v) s = .next t ∧ WriteApplied s t ∧ t.reg Dict.ROUTE_BANK = v ∧
      t.sw.switchAt = s.time.count ∧ t.sw.writableAt = s.time.count + 1024 ∧ t.sw.switched = true ∧ Fired s t 118 ∧
      t = { s with regs := t.regs, sw := t.sw, mon := t.mon, ctl := t.ctl, latch := t.latch }) ∧
    (v = s.reg Dict.ROUTE_BANK → ∃ t, exec (.routeBankWrite v) s = .next t ∧ WriteApplied s t ∧ Unfaulted s t ∧
      t = { s with mon := t.mon, ctl := t.ctl, latch := t.latch })) ∧
  ∀ s : State, s.sw.switched = true → s.sw.drained = false →
    (s.sw.writableAt ≤ s.time.count → ∃ t, exec .bankDrainHorizon s = .next t ∧ Fired s t 119 ∧
      t = { s with sw := { s.sw with drained := true }, mon := t.mon }) ∧
    (s.time.count < s.sw.writableAt → exec .bankDrainHorizon s = .next s)

/-- R143, R144, R151, R173, R188, R189. -/
def Obligations.PacketsEnterAndArrive : Prop :=
  (∀ (s : State) (port : Nat) (i : InjPkt), 96 ≤ port → port < 102 → hpOpen s port 0 = true → i.poisoned = false →
    ((tget [] s.sw.inject port).find? fun i => i.group.isNone && mayStart s port i) = some i →
    ∃ t k, exec (.packetInject port) s = .next t ∧ t = { s with sw := t.sw, host := t.host } ∧ t.sw.pkts = s.sw.pkts ++ [k] ∧
      k.own = true ∧ k.inPort = port ∧ k.looked = false ∧ k.flits = packetBodies k.hdr ∧ k.eop = true ∧ k.hdr.hv = 1 ∧ k.hdr.ce = false ∧
      k.hdr.nmin = false ∧ k.hdr.epoch = s.reg Dict.ROUTE_BANK ∧ k.hdr.dfna = i.pkt.dfna ∧ k.hdr.dep = i.pkt.dep ∧ k.hdr.sep = i.pkt.sep ∧
      k.hdr.opc = i.pkt.opc ∧ k.hdr.sfna = i.sfna.getD (s.reg Dict.ID_FNA) ∧ k.hdr.pcls = (if i.ctl then 0 else 1) ∧
      k.hdr.payload = i.pkt.payload ∧ tget [] t.sw.inject port = (tget [] s.sw.inject port).erase i) ∧
  (∀ (s : State) (port : Nat) (k : SwPkt), port < 96 → nextLookup s port = some k → s.pkt? k.id = some k → k.own = false →
    k.requeued = false → k.stallAt = none → s.reg Dict.CUP_K port = 0 → k.hdr.tag = false →
    (headerBad s k = false → misrouted s k = false → modSub 1024 s.time.count k.hdr.age ≤ 640 → k.hdr.mc = false →
      k.hdr.dfna = s.reg Dict.ID_FNA → s.reg Dict.ID_FNA ≠ 0x3FFFF →
      ∃ t k', exec (.packetLookup port) s = .next t ∧ t = { s with sw := t.sw, mon := t.mon, freeN := t.freeN } ∧ Unfaulted s t ∧
        t.pkt? k.id = some k' ∧ k'.looked = true ∧ k'.flits = k.flits ∧ k'.copies.map (·.out) = [hostOut s k.hdr] ∧
        k'.hdr = { k.hdr with ce := k'.hdr.ce }) ∧
    (headerBad s k = true → k.eop = true → Loggable s 0x0501 1 port →
      ∃ t, exec (.packetLookup port) s = .next t ∧ Logged s t 0x0501 1 port 0 ∧ t.pkt? k.id = none ∧
        t = { s with sw := t.sw, links := t.links, mon := t.mon })) ∧
  ∀ (s : State) (out : Nat) (k : SwPkt), 96 ≤ out → out < 100 → deliverable s out = some k → s.pkt? k.id = some k →
    ageOf k s.time.count ≤ 640 → hpOpen s out 1 = true → s.host.hostLost = false → k.hdr.tag = false →
    (k.bad = false → icrcPasses (deliveredPkt k) = true → hostServes (deliveredPkt k).opc = true →
      ∃ t, exec (.hostDeliver out) s = .next t ∧ Unfaulted s t ∧
        tget [] t.sw.delivered out = tget [] s.sw.delivered out ++ [{ pkt := deliveredPkt k, inPort := k.inPort }] ∧
        ∀ o, o ≠ out → tget [] t.sw.delivered o = tget [] s.sw.delivered o) ∧
    (k.bad = true → Loggable s 0x0603 0 0 →
      ∃ t, exec (.hostDeliver out) s = .next t ∧ Logged s t 0x0603 0 0 0 ∧ t.sw.delivered = s.sw.delivered) ∧
    (k.bad = false → icrcPasses (deliveredPkt k) = false → Loggable s 0x0507 0 0 →
      ∃ t, exec (.hostDeliver out) s = .next t ∧ Logged s t 0x0507 0 0 0 ∧ t.sw.delivered = s.sw.delivered)

/-- R107, R110, R171, R180, R192, R193. -/
def Obligations.OutputsGrantAndSend : Prop :=
  (∀ (s : State) (out v : Nat) (k : SwPkt), out < 102 → v < 8 → crossing s out < lanesOf out → (s.outPort out).drr.now = v →
    (s.outPort out).drr.fresh = true → (vcView s (waitersOf s out) out v).waiting = true →
    vcHead s (waitersOf s out) out v = some k → vcEligible s out v k.total = true →
    drrCharge s k.hdr ≤ tget 0 (s.outPort out).drr.deficit v + s.reg Dict.SW_DRR_QUANTUM v →
    ∃ t, exec (.arbiterGrant out) s = .next t ∧ (t.outPort out).order = (s.outPort out).order ++ [k.id] ∧
      ∀ o, o ≠ out → t.outPort o = s.outPort o) ∧
  (∀ (s : State) (out : Nat), out < 102 → waitersOf s out = [] → exec (.arbiterGrant out) s = .next s) ∧
  (∀ (s : State) (p slot : Nat), p < 96 → hasSlots (s.lane p) = true → (s.link p).slotAt < slot → slot < 80 →
    s.mon.fault.fatal = false → (s.outPort p).order = [] → s.lasts.entries = [] → inService (s.link p) = true → (s.link p).ctlSent < 16 →
    (s.link p).syncDue = false →
    ((s.link p).ackDue = true → (s.link p).acksSent < 4 →
      ∃ t, exec (.egressSlot p slot) s = .next t ∧ t.out = .flit p (ctlFlit (packAckcr (ackNow (s.link p)))) :: s.out ∧
        t.link p = { (s.link p).ackSent s.time.count with slotAt := slot } ∧ (∀ q, q ≠ p → t.link q = s.link q) ∧
        t = { s with links := t.links, mon := t.mon, out := t.out } ∧ Unfaulted s t) ∧
    ((s.link p).ackDue = false → (s.link p).ctlQ = [] →
      (∀ (n : Nat) (f : Flit), (s.link p).replayPos = some n → (s.link p).replay[n]? = some f → (s.link p).halted = false →
        ∃ t, exec (.egressSlot p slot) s = .next t ∧ t.out = .flit p f :: s.out ∧
          t.link p = { s.link p with slotAt := slot, replayPos := if n + 1 < (s.link p).replay.length then some (n + 1) else none } ∧
          (∀ q, q ≠ p → t.link q = s.link q) ∧ t = { s with links := t.links, mon := t.mon, out := t.out } ∧ Unfaulted s t) ∧
      ((s.link p).replayPos = none →
        ∃ t, exec (.egressSlot p slot) s = .next t ∧ t.out = .flit p { ctl := 0, body := 0 } :: s.out ∧
          t.link p = { s.link p with slotAt := slot } ∧ (∀ q, q ≠ p → t.link q = s.link q) ∧
          t = { s with links := t.links, mon := t.mon, out := t.out } ∧ Unfaulted s t))) ∧
  ∀ (s : State) (out : Nat) (k : SwPkt), out < 102 → overdue s out = some k → s.pkt? k.id = some k → Loggable s 0x0504 1 out →
    ∃ t k', exec (.openPacketAgeOut out) s = .next t ∧ Logged s t 0x0504 1 out 0 ∧ t.pkt? k.id = some k' ∧ k'.eop = true ∧ k'.bad = true ∧
      k'.flits = k.flits ++ [0]

/-- R200, R201, R206, R207. -/
def Obligations.AnchorsAndCupping : Prop :=
  (∀ (s : State) (port : Nat) (k : SwPkt), port < 102 → stalledOf s port = some k → s.pkt? k.id = some k → copySet s k ≠ [] →
    (anchorRoom s k (copySet s k) = true → ∃ t k', exec (.anchorAdmit port) s = .next t ∧ Unfaulted s t ∧ t.pkt? k.id = some k' ∧
      k'.anchored = true ∧ k'.stallAt = none ∧ k'.copies.map (·.out) = copySet s k ∧ (∀ c ∈ k'.copies, c.sent = 0 ∧ c.vc = 7) ∧
      t = { s with sw := t.sw, links := t.links, mon := t.mon }) ∧
    (anchorRoom s k (copySet s k) = false → exec (.anchorAdmit port) s = .next s)) ∧
  (∀ (s : State) (port a : Nat) (k : SwPkt), port < 102 → stalledOf s port = some k → s.pkt? k.id = some k → k.stallAt = some a →
    (k.stallLogged = false → a + 1024 < s.time.count → Loggable s 0x0605 0 0 →
      ∃ t k', exec (.anchorStall port) s = .next t ∧ Logged s t 0x0605 0 0 0 ∧ t.pkt? k.id = some k' ∧ k'.stallLogged = true ∧
        t = { s with sw := t.sw, mon := t.mon }) ∧
    (k.stallLogged = true ∨ s.time.count ≤ a + 1024 → exec (.anchorStall port) s = .next s)) ∧
  (∀ s : State, s.reg Dict.CUP_COLLECTOR = 2 → s.sw.cup.given + 16 ≤ s.reg Dict.CUP_INBAND_MAX → 16 ≤ s.sw.cup.queue.length →
    ∃ t i, exec .cupInbandSend s = .next t ∧ t = { s with sw := t.sw, freeN := s.freeN + 1 } ∧
      tget [] t.sw.inject 101 = tget [] s.sw.inject 101 ++ [i] ∧ i.pkt.opc = 0x5F ∧ i.pkt.len = 1024 ∧ i.pkt.psn = 0 ∧ i.pkt.peerctx = 0 ∧
      i.pkt.dfna = fld (s.reg Dict.CUP_DEST) 33 16 ∧ i.pkt.dep = fld (s.reg Dict.CUP_DEST) 15 0 ∧
      t.sw.cup.queue = s.sw.cup.queue.drop 16 ∧ t.sw.cup.given = s.sw.cup.given + 16) ∧
  (∀ (s : State) (hp : Nat) (d : Delivered) (rest : List Delivered), hp < 4 → tget [] s.sw.delivered (96 + hp) = d :: rest →
    d.pkt.opc = 0x5F → (d.pkt.dep ≠ s.reg Dict.CUP_RING_EP ∨ s.reg Dict.CUP_COLLECTOR ≠ 1) →
    ∃ t, exec (.cupPacketDeliver hp) s = .next t ∧ t = { s with sw := t.sw, mon := t.mon } ∧ Unfaulted s t ∧
      tget [] t.sw.delivered (96 + hp) = rest ∧ t.sw.cup = s.sw.cup) ∧
  ∀ (s : State) (v : Nat), coreUp s = true →
    (s.reg Dict.CUP_COLLECTOR ≠ 1 → v % 4096 = 0 → ∃ t, exec (.cupRingBaseWrite false v) s = .next t ∧ WriteApplied s t ∧ Unfaulted s t ∧
      t.reg Dict.CUP_RING_BASE = v ∧ t.reg Dict.CUP_RING_CONSUMER = 0 ∧ t.sw.cup.prod = 0 ∧
      t = { s with regs := t.regs, sw := t.sw, mon := t.mon, ctl := t.ctl, latch := t.latch }) ∧
    (s.reg Dict.CUP_COLLECTOR ≠ 1 → 8 ≤ v → v ≤ 20 → ∃ t, exec (.cupRingBaseWrite true v) s = .next t ∧ WriteApplied s t ∧ Unfaulted s t ∧
      t.reg Dict.CUP_RING_ORDER = v ∧ t.reg Dict.CUP_RING_CONSUMER = 0 ∧ t.sw.cup.prod = 0 ∧
      t = { s with regs := t.regs, sw := t.sw, mon := t.mon, ctl := t.ctl, latch := t.latch }) ∧
    (s.reg Dict.CUP_COLLECTOR = 1 → ∀ b, ∃ t, exec (.cupRingBaseWrite b v) s = .next t ∧ WriteRefused s t 0x0C)

/-- R219, R221, R222. -/
def Obligations.LastEntriesWrittenCheckedClosed : Prop :=
  (∀ (s : State) (port index v : Nat), coreUp s = true → port < 101 → index < 4096 →
    ((s.last (4096 * port + index)).st.used = false → fld v 229 223 ≠ 100 →
      ∃ t, exec (.lastEntryOpen port index v) s = .next t ∧ WriteApplied s t ∧ Unfaulted s t ∧ OtherLasts s t (4096 * port + index) ∧
        (t.last (4096 * port + index)).st = .written ∧ (t.last (4096 * port + index)).cfg = lastRwBits (v ||| 2 ^ 255) ∧
        (t.last (4096 * port + index)).writtenAt = s.time.count ∧
        (t.last (4096 * port + index)).lastGen = (s.last (4096 * port + index)).lastGen ∧
        t = { s with lasts := t.lasts, mon := t.mon, ctl := t.ctl, latch := t.latch }) ∧
    ((s.last (4096 * port + index)).st.used = true →
      ∃ t, exec (.lastEntryOpen port index v) s = .next t ∧ WriteRefused s t 0x0C) ∧
    ((s.last (4096 * port + index)).st = .written ∨ (s.last (4096 * port + index)).st = .refused →
      ∃ t, exec (.lastEntryClose port index v) s = .next t ∧ WriteApplied s t ∧ Unfaulted s t ∧ OtherLasts s t (4096 * port + index) ∧
        (t.last (4096 * port + index)).st = .empty ∧ t = { s with lasts := t.lasts, mon := t.mon, ctl := t.ctl, latch := t.latch }) ∧
    (((s.last (4096 * port + index)).st = .armed ∨ (s.last (4096 * port + index)).st = .active ∨
        (s.last (4096 * port + index)).st = .suspended ∨ (s.last (4096 * port + index)).st = .broken) →
      (s.last (4096 * port + index)).queue = [] →
      ∃ t, exec (.lastEntryClose port index v) s = .next t ∧ WriteApplied s t ∧ Unfaulted s t ∧ OtherLasts s t (4096 * port + index) ∧
        (t.last (4096 * port + index)).st = .closing ∧ (t.last (4096 * port + index)).isOpen = false ∧
        (t.last (4096 * port + index)).signals = [] ∧ t = { s with lasts := t.lasts, mon := t.mon, ctl := t.ctl, latch := t.latch })) ∧
  ∀ (s : State) (port index : Nat), port < 101 → index < 4096 → (s.last (4096 * port + index)).st = .written →
    (s.last (4096 * port + index)).writtenAt < s.time.count →
    (s.time.count % 1024 = 0 → armReason s (4096 * port + index) (s.last (4096 * port + index)) = none →
      ∃ t, exec (.lastArmCheck port index) s = .next t ∧ OtherLasts s t (4096 * port + index) ∧
        (t.last (4096 * port + index)).st = .armed ∧ (t.last (4096 * port + index)).wrapNum = 0 ∧
        (t.last (4096 * port + index)).guard = s.reg Dict.LAST_GUARD_POS ∧
        (t.last (4096 * port + index)).cfg = (s.last (4096 * port + index)).cfg) ∧
    (∀ r, s.time.count % 1024 = 0 → armReason s (4096 * port + index) (s.last (4096 * port + index)) = some r → Loggable s 0x0701 0 0 →
      ∃ t, exec (.lastArmCheck port index) s = .next t ∧ OtherLasts s t (4096 * port + index) ∧ Logged s t 0x0701 0 0 0 ∧ Fired s t 125 ∧
        (t.last (4096 * port + index)).st = .refused ∧ (t.last (4096 * port + index)).reason = r ∧
        t = { s with lasts := t.lasts, mon := t.mon }) ∧
    (s.time.count % 1024 ≠ 0 → exec (.lastArmCheck port index) s = .next s)

/-- R220, R225, R230 to R233, R235, R237. -/
def Obligations.ChunksAndSignalsOnLasts : Prop :=
  (∀ (s : State) (p pos tag data : Nat) (bad : Bool), p < 96 → tag < 2 ^ 32 → data < 2 ^ 448 →
    (((s.last (4096 * p + fld tag 27 16)).st = .empty ∨ (s.last (4096 * p + fld tag 27 16)).st = .written ∨
        (s.last (4096 * p + fld tag 27 16)).st = .armed ∨ (s.last (4096 * p + fld tag 27 16)).st = .refused ∨
        fld tag 31 28 ≠ (s.last (4096 * p + fld tag 27 16)).gen) → Loggable s 0x0704 1 p →
      ∃ t, exec (.lastedFlitReceive p pos tag data bad) s = .next t ∧ t = { s with mon := t.mon } ∧ Logged s t 0x0704 1 p 0) ∧
    (∀ v, (s.last (4096 * p + fld tag 27 16)).st = .active → fld tag 31 28 = (s.last (4096 * p + fld tag 27 16)).gen →
      (s.last (4096 * p + fld tag 27 16)).outPort < 96 → lastDepth s p < 64 →
      arrivalSlot (s.last (4096 * p + fld tag 27 16)) pos = true → bitAt tag 4 = false → (s.last (4096 * p + fld tag 27 16)).queue = [] →
      shiftFor s (4096 * p + fld tag 27 16) (s.last (4096 * p + fld tag 27 16)) = some v → v ≤ (s.last (4096 * p + fld tag 27 16)).delta →
      ∃ t, exec (.lastedFlitReceive p pos tag data bad) s = .next t ∧ t = { s with lasts := t.lasts } ∧
        OtherLasts s t (4096 * p + fld tag 27 16) ∧
        (t.last (4096 * p + fld tag 27 16)).queue =
          [{ tag := tag, data := data, bad := bad, due := pos + (s.last (4096 * p + fld tag 27 16)).delta, at' := s.time.count }]) ∧
    ((s.last (4096 * p + fld tag 27 16)).st = .suspended → fld tag 31 28 = (s.last (4096 * p + fld tag 27 16)).gen → bad = false →
      (s.last (4096 * p + fld tag 27 16)).fbFna ≠ 0x3FFFF → (s.last (4096 * p + fld tag 27 16)).wrap = [] → wrapFree s ≠ 0 →
      ∃ t, exec (.lastedFlitReceive p pos tag data bad) s = .next t ∧ t = { s with lasts := t.lasts, mon := t.mon } ∧ Unfaulted s t ∧
        OtherLasts s t (4096 * p + fld tag 27 16) ∧ (t.last (4096 * p + fld tag 27 16)).wrapReason = 1 ∧
        (t.last (4096 * p + fld tag 27 16)).wrap = [{ tag := tag, data := data, at' := s.time.count }])) ∧
  (∀ (s : State) (p : Nat) (r : SigRec), p < 96 →
    (signalEntry s p r.label (upstream r.event) = none →
      ∃ t, exec (.lastSignalReceive p [r]) s = .next t ∧ t = { s with mon := t.mon } ∧ Unfaulted s t) ∧
    (∀ key, signalEntry s p r.label (upstream r.event) = some key → (r.event = 2 ∨ r.event = 0x11) → (s.last key).st.holds = true →
      (s.last key).due = none →
      ∃ t, exec (.lastSignalReceive p [r]) s = .next t ∧ t = { s with lasts := t.lasts, mon := t.mon } ∧ Unfaulted s t ∧
        OtherLasts s t key ∧ t.last key = { s.last key with due := some (10, r.stitch) })) ∧
  (∀ (s : State) (port index : Nat) (c : Chunk) (rest : List Chunk), port < 101 → index < 4096 →
    (s.last (4096 * port + index)).wrap = c :: rest →
    (c.at' + s.reg Dict.LAST_WRAP_WAIT_ST ≤ s.time.count →
      ∃ t k, exec (.wrapTimer port index) s = .next t ∧ t = { s with sw := t.sw, lasts := t.lasts, mon := t.mon } ∧ Unfaulted s t ∧
        OtherLasts s t (4096 * port + index) ∧ (t.last (4096 * port + index)).wrap = [] ∧
        (t.last (4096 * port + index)).wrapNum = ((s.last (4096 * port + index)).wrapNum + 1) % 2 ^ 32 ∧
        t.sw.pkts = s.sw.pkts ++ [k] ∧ k.own = true ∧ k.inPort = port ∧ k.hdr.pcls = 2 ∧ k.hdr.opc = 0x5E ∧ k.hdr.sep = 0xFFFF ∧
        k.hdr.dfna = (s.last (4096 * port + index)).fbFna ∧ k.hdr.dep = (s.last (4096 * port + index)).fbEp ∧
        k.hdr.len = 60 * (rest.length + 1)) ∧
    (s.time.count < c.at' + s.reg Dict.LAST_WRAP_WAIT_ST → exec (.wrapTimer port index) s = .next s)) ∧
  (∀ (s : State) (hp : Nat) (d : Delivered) (rest : List Delivered), hp < 4 → tget [] s.sw.delivered (96 + hp) = d :: rest →
    d.pkt.opc = 0x5E →
    (fallbackRing s d.pkt = none → Loggable s 0x0709 0 0 →
      ∃ t, exec (.wrapDeliver hp) s = .next t ∧ Logged s t 0x0709 0 0 0 ∧ Fired s t 129 ∧
        tget [] t.sw.delivered (96 + hp) = rest ∧ t.lasts = s.lasts) ∧
    (∀ r, fallbackRing s d.pkt = some r → d.pkt.payload.length = 60 → (s.ring r).stopped = false →
      ringFull (ringSize (ringRow s r)) (s.ring r).prod (s.ring r).cons = false →
      windowOk s (fld (ringRow s r) 123 114) (recordAddr (ringRow s r) (s.ring r).prod) 64 true = true →
      ∃ t, exec (.wrapDeliver hp) s = .next t ∧ Unfaulted s t ∧ tget [] t.sw.delivered (96 + hp) = rest ∧
        t.ring r = { s.ring r with prod := ringNext (ringSize (ringRow s r)) (s.ring r).prod } ∧ t.lasts.entries = s.lasts.entries)) ∧
  ∀ (s : State) (r v : Nat), r < 4096 →
    (judgeProducer (ringSize (ringRow s r)) (s.ring r).cons (s.ring r).prod v = .fresh →
      ∃ t, exec (.lastRingProducerWrite r v) s = .next t ∧ (t.ring r).prod = v ∧ (t.ring r).cons = (s.ring r).cons) ∧
    (consumerOk (ringSize (ringRow s r)) (s.ring r).cons (s.ring r).prod v = true → (s.ring r).lossAt = none →
      exec (.lastRingConsumerWrite r v) s = .next (s.updRing r fun g => { g with cons := v }))

/-- R243, R244. 1 ms is counted as log entry 51 says. -/
def Obligations.AttachModulesChangeState : Prop :=
  (∀ (s : State) (m : Nat), m < 4 → (s.module m).st = .reset → moduleMayTrain s m = true →
    ∃ t, exec (.moduleTrainStart m) s = .next t ∧ t = { s with host := t.host, mon := t.mon } ∧ Unfaulted s t ∧ OtherModules s t m ∧
      t.module m = { s.module m with st := .training, since := s.time.count }) ∧
  (∀ (s : State) (m : Nat), m < 4 → (s.module m).st = .training →
    (∃ t, exec (.moduleTrainDone m .x64 0) s = .next t ∧ t = { s with host := t.host, mon := t.mon } ∧ Unfaulted s t ∧
      OtherModules s t m ∧ t.module m = { s.module m with st := .x64, since := s.time.count, repaired := 0 }) ∧
    (Loggable s 0x0802 9 m → ∃ t, exec (.moduleTrainDone m .x32 0) s = .next t ∧ t = { s with host := t.host, mon := t.mon } ∧
      Logged s t 0x0802 9 m 0 ∧ OtherModules s t m ∧ t.module m = { s.module m with st := .x32, since := s.time.count, repaired := 0 }) ∧
    (Loggable s 0x0804 9 m → ∃ t, exec (.moduleTrainDone m .noHalf 0) s = .next t ∧ Logged s t 0x0804 9 m 0 ∧
      OtherModules s t m ∧ (t.module m).st = .failed ∧ (t.module m).since = s.time.count) ∧
    (((s.module m).fails.filter fun a => s.time.count < a + 1024).length = 2 → Loggable s 0x0804 9 m →
      ∃ t, exec (.moduleTrainDone m .failed 0) s = .next t ∧ Logged s t 0x0804 9 m 0 ∧ OtherModules s t m ∧ (t.module m).st = .failed) ∧
    (((s.module m).fails.filter fun a => s.time.count < a + 1024) = [] →
      ∃ t, exec (.moduleTrainDone m .failed 0) s = .next t ∧ Unfaulted s t ∧ OtherModules s t m ∧ (t.module m).st = .training)) ∧
  (∀ (s : State) (m : Nat), m < 4 → ((s.module m).st = .x64 ∨ (s.module m).st = .x32) → Loggable s 0x0807 9 m →
    ∃ t, exec (.moduleRetrain m) s = .next t ∧ t = { s with host := t.host, mon := t.mon } ∧ Logged s t 0x0807 9 m 0 ∧
      OtherModules s t m ∧ t.module m = { s.module m with st := .retrain, since := s.time.count }) ∧
  (∀ (s : State) (m : Nat), m < 4 → (s.module m).st = .retrain →
    (∃ t, exec (.moduleRetrainDone m .x64 0) s = .next t ∧ Unfaulted s t ∧ OtherModules s t m ∧ (t.module m).st = .x64) ∧
    ((s.module m).since + 9766 ≤ s.time.count → Loggable s 0x0804 9 m →
      ∃ t, exec (.moduleRetrainTimeout m) s = .next t ∧ t = { s with host := t.host, mon := t.mon } ∧ Logged s t 0x0804 9 m 0 ∧
        OtherModules s t m ∧ (t.module m).st = .failed) ∧
    (s.time.count < (s.module m).since + 9766 → exec (.moduleRetrainTimeout m) s = .next s)) ∧
  (∀ (s : State) (m : Nat), m < 4 → (s.module m).st = .failed →
    ((s.module m).since + 65536 ≤ s.time.count → moduleMayTrain s m = true →
      ∃ t, exec (.moduleFailedRetry m) s = .next t ∧ t = { s with host := t.host, mon := t.mon } ∧ Unfaulted s t ∧ OtherModules s t m ∧
        (t.module m).st = .training) ∧
    (moduleMayTrain s m = false → exec (.moduleFailedRetry m) s = .next s)) ∧
  ∀ (s : State) (m : Nat), m < 4 → coreUp s = true →
    ∃ t, exec (.attachModuleEnableWrite m 0) s = .next t ∧ Unfaulted s t ∧ (t.module m).st = .reset ∧ OtherModules s t m ∧
      t.reg Dict.ATTACH_MODULE_ENABLE m = 0 ∧ t.ctl.writeStatus = 0 ∧ t.ctl.applyLast = s.time.count ∧ t.latch = t.toChip ∧
      t = { s with regs := t.regs, host := t.host, mon := t.mon, ctl := t.ctl, latch := t.latch }

/-- R235, R249, R250, R252. -/
def Obligations.HostMemoryAnswers : Prop :=
  (∀ (s : State) (line : Nat), s.host.units ≠ 0 → watchers s line = [] →
    (∃ t, exec (.snoopReceive line .snpInv) s = .next t ∧ t = { s with host := { s.host with cache := t.host.cache }, mon := t.mon } ∧
      Unfaulted s t ∧ tget 0 t.host.cache line = 0 ∧ ∀ l, l ≠ line → tget 0 t.host.cache l = tget 0 s.host.cache l) ∧
    (∃ t, exec (.snoopReceive line .snpData) s = .next t ∧ t = { s with host := { s.host with cache := t.host.cache }, mon := t.mon } ∧
      Unfaulted s t ∧ tget 0 t.host.cache line = min (tget 0 s.host.cache line) 1) ∧
    ∃ t, exec (.snoopReceive line .snpCur) s = .next t ∧ t = { s with mon := t.mon } ∧ Unfaulted s t) ∧
  (∀ (s : State) (tag g : Nat) (r : HRead) (data : List Byte), s.host.reads.find? (fun r => r.tag = tag) = some r → r.why = .watch g →
    ((s.queue g).live = true → exec (.watchRefetchDone tag data false) s = .next (doorbell (readEnded s tag) g (natLE (data.take 4)))) ∧
    ((s.queue g).live = false → exec (.watchRefetchDone tag data false) s = .next (readEnded s tag))) ∧
  (∀ (s : State) (tag : Nat) (data : List Byte) (bad : Bool),
    (s.host.reads.find? (fun r => r.tag = tag) = none → exec (.hostReadComplete tag data bad) s = .next s) ∧
    (∀ (x : HRead) (r i : Nat), s.host.reads.find? (fun r => r.tag = tag) = some x → x.why = .lastRing r i → x.len = 64 → data.length = 64 →
      fld (natLE (bytesBE (fld (natBE data) 63 0) 8)) 63 63 = ringPhase (ringSize (ringRow s r)) i →
      ∃ t rec', exec (.hostReadComplete tag data bad) s = .next t ∧ t = { readEnded s tag with lasts := t.lasts } ∧
        t.ring r = { s.ring r with records := (s.ring r).records ++ [rec'] } ∧ fld rec' 511 64 = fld (natBE data) 511 64 ∧
        bitAt rec' 63 = bad)) ∧
  ∀ (s : State) (tag g : Nat), (s.host.writes.any fun w => w.tag = tag) = true → (s.host.held.any fun w => w.tag = tag) = false →
    s.host.waits = [{ tags := [tag], act := .ringVector g }] → (∀ c ∈ s.queues.qs, ∀ e ∈ c.2.order, tag ∉ e.tags) → s.rma.resp = [] →
    s.trans.ads = [] →
    exec (.hostWriteObserved tag) s =
      .next (ringVector { s with host := { s.host with writes := s.host.writes.filter fun w => w.tag ≠ tag, waits := [] } } g)

/-- R253, R256, R265. -/
def Obligations.FunctionResetsAndVfEnable : Prop :=
  (∀ (s : State) (f : Nat), f < 1024 → s.host.units ≠ 0 → fnPresent s f = true → tget none s.host.resets f = none →
    ∃ t, exec (.functionResetRequest f) s = .next t ∧ t = { s with host := { s.host with resets := t.host.resets } } ∧
      tget none t.host.resets f = some { since := s.time.count + 1 } ∧
      ∀ k, k ≠ f → tget none t.host.resets k = tget none s.host.resets k) ∧
  (∀ (s : State) (f : Nat) (r : FnReset), f < 1024 → tget none s.host.resets f = some r →
    (r.since ≤ s.time.count → funcBusy s f = false →
      ∃ t, exec (.functionResetComplete f) s = .next t ∧ tget none t.host.resets f = none ∧
        (∀ g, (s.queue g).st ≠ .reset → (s.queue g).func = f → (t.queue g).st = .reset) ∧
        (∀ k, k / 2048 = f → tget {} t.host.msix k = {}) ∧
        (∀ i m, tget none t.ctl.slots i = some m → m.func ≠ f) ∧ bitAt (evregGet t.mon.evreg Dict.ATTACH_EVENTS 0) 5 = true) ∧
    (funcBusy s f = true ∨ s.time.count < r.since → exec (.functionResetComplete f) s = .next s) ∧
    (r.since + 1024 ≤ s.time.count → r.slowLogged = false → Loggable s 0x080A 3 f →
      ∃ t, exec (.functionResetSlow f) s = .next t ∧ t = { s with host := { s.host with resets := t.host.resets }, mon := t.mon } ∧
        Logged s t 0x080A 3 f 0 ∧ tget none t.host.resets f = some { r with slowLogged := true }) ∧
    (r.slowLogged = true ∨ s.time.count < r.since + 1024 → exec (.functionResetSlow f) s = .next s)) ∧
  ∀ (s : State) (n : Nat), s.host.units ≠ 0 →
    (s.host.vfEnable = false → exec (.vfEnableWrite 1 n) s = .next { s with host := { s.host with vfEnable := true, numVfs := min n 1023 } }) ∧
    (s.host.vfEnable = true → ∃ t, exec (.vfEnableWrite 0 n) s = .next t ∧
      t = { s with host := { s.host with vfEnable := false, resets := t.host.resets } } ∧
      ∀ f, 1 ≤ f → f ≤ s.host.numVfs → (tget none t.host.resets f).isSome = true)

/-- R257, R259 to R261. -/
def Obligations.StoreHostLossAndBarWrites : Prop :=
  (∀ s : State, coreUp s = true →
    (giveCheck s = 0 → ∃ t, exec .storeGive s = .next t ∧ WriteApplied s t ∧ Unfaulted s t ∧ t.host.store = .given ∧ t.host.hostLost = false ∧
      t.host.storeBase = s.reg Dict.ATTACH_STORE_BASE ∧ t.host.storeAreas.length = 6 ∧
      sumOf t.host.storeAreas id = s.reg Dict.ATTACH_STORE_SIZE ∧ 67108864 ≤ t.host.storeAreas.getD 5 0 ∧
      t.queues = { s.queues with mode := s.reg Dict.QUEUE_MODE } ∧
      t = { s with host := t.host, queues := t.queues, mon := t.mon, ctl := t.ctl, latch := t.latch }) ∧
    (s.host.units = 0 → ∃ t, exec .storeGive s = .next t ∧ WriteRefused s t 0x0C) ∧
    (s.host.store = .given → (∀ c ∈ s.queues.qs, c.2.st = .reset) → (∀ p, p < 96 → (s.link p).st ≠ .admitted) →
      ∃ t, exec .storeReturn s = .next t ∧ WriteApplied s t ∧ Unfaulted s t ∧ t.host = { s.host with store := .returning } ∧
        t = { s with host := t.host, mon := t.mon, ctl := t.ctl, latch := t.latch }) ∧
    (s.host.store ≠ .given → ∃ t, exec .storeReturn s = .next t ∧ WriteRefused s t 0x0C)) ∧
  (∀ s : State, s.host.store = .returning → ∃ t, exec .storeReturnDone s = .next t ∧ Unfaulted s t ∧
    t.host = { s.host with store := .absent } ∧ t = { s with host := t.host, mon := t.mon }) ∧
  (∀ s : State, s.host.units ≠ 0 → exec .hostDieReset s = .next { s with host := { s.host with dieDue := true } }) ∧
  (∀ (s : State) (func lq g : Nat) (data : List Byte), HeldQueue s func lq g → data.length = 4 →
    ∃ t, exec (.mmioWrite func 0 (0x100000 + 4096 * (lq / 64) + 64 * (lq % 64)) data) s = .next t ∧ t = doorbell s g (natLE data)) ∧
  ∀ (s : State) (func bar off : Nat) (data : List Byte), func < 1024 → coreUp s = true → s.host.units ≠ 0 → fnPresent s func = true →
    (bar = 0 ∨ bar = 4) → formOk off data = false → Loggable s 0x0803 3 func →
    ∃ t, exec (.mmioWrite func bar off data) s = .next t ∧ t = { s with mon := t.mon } ∧ Logged s t 0x0803 3 func 0

/-- R269, R270, R273, R274, R276, R283, R288, R289, R293, R294. -/
def Obligations.QueueRegistersWritten : Prop :=
  ∀ (s : State) (func lq g : Nat), HeldQueue s func lq g →
    (∀ v, v < 2 ^ 32 →
      ((s.queue g).live = false → exec (.wqProducerDoorbell func lq v) s = .next (s.count 0x481 (queueFunc s g))) ∧
      ((s.queue g).live = true → (s.queue g).cached = true → (s.queue g).wrUnits ≠ 0 →
        ∃ t, exec (.wqProducerDoorbell func lq v) s = .next t ∧ QueueWork s t ∧ RingsKept s t g ∧
          (2 * (s.queue g).wrUnits ≤ v ∨ (s.queue g).wrUnits < ringDist (s.queue g).wrUnits (s.queue g).wqCons v →
            (t.queue g).wqProd = (s.queue g).wqProd ∧ QueueStopped s t g 0x06) ∧
          (v < 2 * (s.queue g).wrUnits → ringDist (s.queue g).wrUnits (s.queue g).wqCons v ≤ (s.queue g).wrUnits →
            (ringDist (s.queue g).wrUnits (s.queue g).wqCons (s.queue g).wqProd ≤ ringDist (s.queue g).wrUnits (s.queue g).wqCons v →
              (t.queue g).wqProd = v) ∧
            (ringDist (s.queue g).wrUnits (s.queue g).wqCons v < ringDist (s.queue g).wrUnits (s.queue g).wqCons (s.queue g).wqProd →
              (t.queue g).wqProd = (s.queue g).wqProd ∧ (t.queue g).st = (s.queue g).st ∧ t.out = s.out ∧ Unfaulted s t)))) ∧
    (((s.queue g).dbBound = true → exec (.wqInvalidate func lq) s = .next s) ∧
      ((s.queue g).dbBound = false → s.reg Dict.QUEUE_PREFETCH ≠ 0 → ∃ t, exec (.wqInvalidate func lq) s = .next t ∧ QueueWork s t ∧
        RingsKept s t g ∧ (t.queue g).wqProd = (s.queue g).wqProd ∧ (t.queue g).units = [])) ∧
    (∀ v, v < 2 ^ 32 →
      ((s.queue g).crUnits ≠ 0 → v < 2 * (s.queue g).crUnits →
        ringDist (s.queue g).crUnits (s.queue g).crCons v ≤ ringDist (s.queue g).crUnits (s.queue g).crCons (s.queue g).crProd →
        ∃ t, exec (.crConsumerWrite func lq v) s = .next t ∧ t = { s with queues := t.queues, mon := t.mon } ∧
          t.queue g = { s.queue g with crCons := v, fullSince := (t.queue g).fullSince } ∧ ∀ h, h ≠ g → t.queue h = s.queue h) ∧
      ((s.queue g).crUnits = 0 ∨ 2 * (s.queue g).crUnits ≤ v ∨
        ringDist (s.queue g).crUnits (s.queue g).crCons (s.queue g).crProd < ringDist (s.queue g).crUnits (s.queue g).crCons v →
        exec (.crConsumerWrite func lq v) s = .next (s.count 0x481 (queueFunc s g)))) ∧
    (∀ v, v < 2 ^ 32 → (s.queue g).crUnits ≠ 0 → v < 2 * (s.queue g).crUnits →
      ringDist (s.queue g).crUnits (s.queue g).crCons v ≤ ringDist (s.queue g).crUnits (s.queue g).crCons (s.queue g).crProd →
      ∃ t, exec (.crArm func lq v) s = .next t ∧ t = { s with queues := t.queues, mon := t.mon, host := t.host, out := t.out } ∧
        (t.queue g).crCons = v ∧ (∀ h, h ≠ g → t.queue h = s.queue h) ∧
        (v = (s.queue g).crProd → (t.queue g).armed = true ∧ t.out = s.out ∧ t.host = s.host) ∧
        (unobserved s g < ringDist (s.queue g).crUnits v (s.queue g).crProd → s.mon.fault.fatal = false →
          (tget {} s.host.msix (2048 * (s.queue g).func + (s.queue g).vector)).masked = false →
          (t.queue g).armed = false ∧ t.out = .msix (s.queue g).func (s.queue g).vector :: s.out)) ∧
    (((s.queue g).st = .reset → exec (.qEnable func lq 1) s =
        .next (s.updQueue g fun q => { q with enableDue := true, func := func, local' := lq })) ∧
      ∀ v, v < 2 ^ 32 → v ≠ 1 ∨ (s.queue g).st ≠ .reset → exec (.qEnable func lq v) s = .next s) ∧
    ∀ (off : Nat) (data : List Byte), formOk off data = true → off + data.length ≤ 32 →
      ((s.queue g).st = .reset → (s.queue g).config < 2 ^ 256 → ∃ t, exec (.qConfigWrite func lq off data) s = .next t ∧
        t = { s with queues := t.queues } ∧ t.queue g = { s.queue g with config := (t.queue g).config } ∧ (∀ h, h ≠ g → t.queue h = s.queue h) ∧
        ∀ k, k < 32 → fld (t.queue g).config (8 * k + 7) (8 * k) =
          if off ≤ k ∧ k < off + data.length then (data.getD (k - off) 0).toNat else fld (s.queue g).config (8 * k + 7) (8 * k)) ∧
      ((s.queue g).st ≠ .reset → Loggable s 0x0907 3 func → ∃ t, exec (.qConfigWrite func lq off data) s = .next t ∧
        t = { s with mon := t.mon } ∧ Logged s t 0x0907 3 func 0)

/-- R274, R284, R287, R295, R296, R300. -/
def Obligations.PushesEnablesAndRingLimit : Prop :=
  (∀ (s : State) (func lq g : Nat) (data : List Byte), HeldQueue s func lq g → (s.queue g).live = true → (s.queue g).wrUnits ≠ 0 →
    8 ≤ data.length → data.length ≤ 256 →
    (data.length % 64 = 0 → phasesOk (s.queue g).wrUnits (s.queue g).wqProd (unitsOf data) = true → (s.queue g).wqProd < 2 * (s.queue g).wrUnits →
      (s.queue g).wqCons < 2 * (s.queue g).wrUnits →
      ringDist (s.queue g).wrUnits (s.queue g).wqCons (s.queue g).wqProd + data.length / 64 ≤ (s.queue g).wrUnits →
      ∃ t, exec (.push func lq 0 data) s = .next t ∧ QueueWork s t ∧ RingsKept s t g ∧
        (t.queue g).wqProd = ((s.queue g).wqProd + data.length / 64) % (2 * (s.queue g).wrUnits) ∧
        ((t.queue g).live = true → ∀ k, k < data.length / 64 →
          cachedUnit (t.queue g) (((s.queue g).wqProd + k) % (2 * (s.queue g).wrUnits)) = some (natLE ((data.drop (64 * k)).take 64)))) ∧
    (data.length % 64 ≠ 0 ∨ phasesOk (s.queue g).wrUnits (s.queue g).wqProd (unitsOf data) = false →
      ∃ t, exec (.push func lq 0 data) s = .next t ∧ QueueWork s t ∧ RingsKept s t g ∧ (t.queue g).wqProd = (s.queue g).wqProd ∧
        QueueStopped s t g 0x07)) ∧
  (∀ (s : State) (g : Nat), g < 1048576 → (s.queue g).enableDue = true → (s.queue g).st = .reset → fnResetting s (s.queue g).func = false →
    (enableCheck s g = 0 → (s.queue g).dbFree = false → ∃ t, exec (.qEnableCheck g) s = .next t ∧
      t = { s with queues := t.queues, mon := t.mon } ∧ (t.queue g).st = .running ∧ (t.queue g).enableDue = false ∧
      (t.queue g).wqProd = 0 ∧ (t.queue g).wqCons = 0 ∧ (t.queue g).crProd = 0 ∧ (t.queue g).crCons = 0 ∧ (t.queue g).armed = false ∧
      (t.queue g).config = (s.queue g).config ∧
      (t.queue (ringOf s g)).heldUnits = (if ringOf s g = g then 0 else (s.queue (ringOf s g)).heldUnits) + 1) ∧
    (enableCheck s g ≠ 0 → Loggable s 0x0908 3 (s.queue g).func → ∃ t, exec (.qEnableCheck g) s = .next t ∧
      t = { s with queues := t.queues, mon := t.mon } ∧ t.queue g = { s.queue g with enableDue := false, reason := enableCheck s g } ∧
      (∀ h, h ≠ g → t.queue h = s.queue h) ∧ Logged s t 0x0908 3 (s.queue g).func 0 ∧
      bitAt (evregGet t.mon.evreg Dict.QUEUE_EVENTS 0) 3 = true)) ∧
  (∀ (s : State) (g : Nat), g < 1048576 →
    ((s.queue g).retryDue = true → (s.queue g).live = true → (s.queue g).retryAt < s.time.count →
      ∃ t, exec (.phaseRetry g) s = .next t ∧ QueueWork s t ∧ RingsKept s t g ∧ (t.queue g).wqProd = (s.queue g).wqProd ∧
        (t.queue g).retryDue = false ∧ (t.queue g).retries = (s.queue g).retries + 1) ∧
    ((s.queue g).retryDue = false ∨ s.time.count ≤ (s.queue g).retryAt → exec (.phaseRetry g) s = .next s)) ∧
  ∀ (s : State) (r a : Nat), r < 1048576 → (s.queue r).fullSince = some a →
    (a + s.reg Dict.QUEUE_CR_FULL_LIMIT_ST ≤ s.time.count → feeders s r ≠ [] → ∃ t, exec (.crFullLimit r) s = .next t ∧ QueueWork s t ∧
      (∀ g, g ∈ feeders s r → (t.queue g).st = .error ∧ (t.queue g).reason = 0x0A ∧ (t.queue g).wqCons = (s.queue g).wqCons) ∧
      bitAt (evregGet t.mon.evreg Dict.QUEUE_EVENTS 0) 2 = true) ∧
    (s.time.count < a + s.reg Dict.QUEUE_CR_FULL_LIMIT_ST → exec (.crFullLimit r) s = .next s)

/-- R282, R286, R290, R291, R295, R310. -/
def Obligations.EntriesConsumedAndCompleted : Prop :=
  (∀ (s : State) (g : Nat), g < 1048576 →
    (stageHolds s (s.queue g).igroup = false → turnOf s false (s.queue g).igroup = some g →
      (∀ units, headUnits s g = .whole units →
        (entryReason s (entryOf s g units) units = 0 → bitAt (s.reg Dict.SW_INJ_GROUP (s.queue g).igroup) 127 = true →
          headHeld s (entryOf s g units) = false →
          ∃ t, exec (.entryConsume g) s = .next t ∧ QueueWork s t ∧
            (t.queue g).wqCons = ((s.queue g).wqCons + units.length) % (2 * (s.queue g).wrUnits) ∧
            (t.queue g).order = (s.queue g).order ++ [{ entryOf s g units with id := s.queues.nextId }] ∧
            t.queues.nextId = s.queues.nextId + 1 ∧ (t.queue (ringOf s g)).owed = (s.queue (ringOf s g)).owed + 1 ∧
            ∀ h, (t.queue h).wqProd = (s.queue h).wqProd ∧ (t.queue h).config = (s.queue h).config ∧
              (h ≠ g → (t.queue h).wqCons = (s.queue h).wqCons ∧ (t.queue h).order = (s.queue h).order)) ∧
        (entryReason s (entryOf s g units) units ≠ 0 → ∃ t, exec (.entryConsume g) s = .next t ∧ QueueWork s t ∧
          QueueStopped s t g (entryReason s (entryOf s g units) units)) ∧
        (entryReason s (entryOf s g units) units = 0 → bitAt (s.reg Dict.SW_INJ_GROUP (s.queue g).igroup) 127 = false →
          ∃ t, exec (.entryConsume g) s = .next t ∧ QueueWork s t ∧ QueueStopped s t g 0x0C)) ∧
      ∀ reason, headUnits s g = .bad reason → ∃ t, exec (.entryConsume g) s = .next t ∧ QueueWork s t ∧ QueueStopped s t g reason) ∧
    (stageHolds s (s.queue g).igroup = true ∨ turnOf s false (s.queue g).igroup ≠ some g → ∃ t, exec (.entryConsume g) s = .next t ∧
      t = { s with queues := { s.queues with stageHeld := t.queues.stageHeld, stageOver := t.queues.stageOver } })) ∧
  (∀ (s : State) (g : Nat) (e : Entry), g < 1048576 → LoneEntry s g e → e.kind = 1 → e.started = false →
    (e.opc = 1 →
      (e.cmpl = true → RingWritable s (ringOf s g) → ∃ t, exec (.nop g) s = .next t ∧ QueueWork s t ∧ CompletedWith s t g e 0 0 0) ∧
      (e.cmpl = false → ∃ t, exec (.nop g) s = .next t ∧ CompletedSilently s t g)) ∧
    (e.opc = 0x10 →
      (e.cmpl = true → RingWritable s (ringOf s g) →
        ∃ t, exec (.fence g) s = .next t ∧ QueueWork s t ∧ CompletedWith s t g e 0 e.done e.result) ∧
      (e.cmpl = false → ∃ t, exec (.fence g) s = .next t ∧ CompletedSilently s t g))) ∧
  ∀ (s : State) (g : Nat) (a e : Entry) (rest : List Entry), g < 1048576 → (s.queue g).order = a :: e :: rest → a.started = true →
    a.status = none → a.kind = 0 → a.id ≠ e.id → (∀ x ∈ rest, x.id ≠ e.id) → e.queue = g → e.kind = 1 → e.opc = 0x10 → e.started = false →
    ∃ t, exec (.fence g) s = .next t ∧ t = { s with queues := t.queues } ∧
      (t.queue g).order = a :: { e with begun := true, started := true } :: rest ∧ startable (t.queue g).order = none

/-- R65, R286. -/
def Obligations.FunctionManagementRequests : Prop :=
  (∀ (s s0 : State) (g : Nat) (units : List Nat) (e : Entry), g < 1048576 → s0 = served (noteStage s (s.queue g).igroup) g →
    stageHolds s (s.queue g).igroup = false → turnOf s true (s.queue g).igroup = some g → fenceAhead (s.queue g) = false →
    headUnits s g = .whole units → e = entryOf s g units → entryReason s e units = 0 →
    bitAt (s.reg Dict.SW_INJ_GROUP (s.queue g).igroup) 127 = true →
    (mgmtFormOk e = true → e.inl = true → e.len = 16 + recordLen e.inlineData →
      (checkBufs s0 (s.queue g).pd .write [{ addr := e.w5, len := 4096, key := fld e.w6 63 32 }]).2 = .ok →
      ∀ i, freeMgmtSlot s = some i → slotFor s (s.queue g).ep e.dfna (recordSeq e.inlineData) = none →
      ∃ t, exec (.mgmtEntry g) s = .next t ∧
        t = { s with queues := t.queues, host := t.host, mon := t.mon, out := t.out, ctl := t.ctl, sw := t.sw, trans := t.trans } ∧
        (t.queue g).wqCons = ((s.queue g).wqCons + units.length) % (2 * (s.queue g).wrUnits) ∧
        (t.queue g).order = (s.queue g).order ++ [{ e with begun := true, started := true, id := s.queues.nextId }] ∧
        (∀ k, k ≠ i → tget none t.ctl.slots k = tget none s.ctl.slots k) ∧
        (∃ m, tget none t.ctl.slots i = some m ∧ m.queue = g ∧ m.func = (s.queue g).func ∧ m.endpoint = (s.queue g).ep ∧ m.dfna = e.dfna ∧
          m.seq = recordSeq e.inlineData ∧ m.entryIdx = s.queues.nextId ∧ m.sentAt = s.time.count) ∧
        t.sw = (mgmtPacket s g e e.inlineData).sw) ∧
    (mgmtFormOk e = false → ∃ t, exec (.mgmtEntry g) s = .next t ∧ QueueWork s t ∧
      (t.queue g).wqCons = ((s.queue g).wqCons + units.length) % (2 * (s.queue g).wrUnits))) ∧
  (∀ (s : State) (port : Nat) (d : Delivered), 96 ≤ port → port ≤ 101 → deliveredHead s port 0xF1 = some d →
    (slotFor s d.pkt.dep d.pkt.sfna (recordSeq d.pkt.payload) = none →
      exec (.mgmtResponsePacket port) s = .next ((takeDelivered s port).count 0x088)) ∧
    ∀ (i : Nat) (m : MgmtSlot) (u : State) (gs : List Grant), slotFor s d.pkt.dep d.pkt.sfna (recordSeq d.pkt.payload) = some (i, m) →
      accessBufs s [8, i] (s.queue m.queue).pd .write
        [{ addr := m.bufAddr, len := (d.pkt.payload.take 4096).length, key := m.bufKey }] = (u, .ok gs) →
      (fld (natBE (d.pkt.payload.take 16)) 111 104 = 0x13 →
        exec (.mgmtResponsePacket port) s = .next (takeDelivered (writeGrants u gs (d.pkt.payload.take 4096)).1 port)) ∧
      (fld (natBE (d.pkt.payload.take 16)) 111 104 ≠ 0x13 → ∃ t, exec (.mgmtResponsePacket port) s = .next t ∧
        tget none t.ctl.slots i = none ∧ (∀ k, k ≠ i → tget none t.ctl.slots k = tget none s.ctl.slots k) ∧
        tget [] t.sw.delivered port = (tget [] s.sw.delivered port).drop 1 ∧
        t = { s with queues := t.queues, host := t.host, mon := t.mon, out := t.out, ctl := t.ctl, sw := t.sw, trans := t.trans })) ∧
  ∀ (s : State) (i : Nat) (m : MgmtSlot), i < 256 → tget none s.ctl.slots i = some m →
    (m.sentAt + s.reg Dict.CTL_HOST_MGMT_TIMEOUT_ST ≤ s.time.count → ∃ t, exec (.mgmtSlotTimeout i) s = .next t ∧
      t = { s with queues := t.queues, host := t.host, mon := t.mon, out := t.out, ctl := t.ctl } ∧
      tget none t.ctl.slots i = none ∧ (∀ k, k ≠ i → tget none t.ctl.slots k = tget none s.ctl.slots k) ∧
      ∀ e, LoneEntry s m.queue e → e.id = m.entryIdx → RingWritable s (ringOf s m.queue) → CompletedWith s t m.queue e 0x2C 0 0) ∧
    (s.time.count < m.sentAt + s.reg Dict.CTL_HOST_MGMT_TIMEOUT_ST → exec (.mgmtSlotTimeout i) s = .next s)

/-- R302, R308, R310, R314, R341. The rendezvous form of a SEND is stated with chapter 12. -/
def Obligations.RemoteOperationsStart : Prop :=
  (∀ (s : State) (g : Nat) (e : Entry) (i : Instr) (need : Need), NextStart s g e → e.kind = 0 →
    (i = .put g ∧ e.opc = 1 ∧ need = .read) ∨ (i = .get g ∧ e.opc = 2 ∧ need = .write ∧ e.inl = false) ∨
      (i = .send g ∧ e.opc = 3 ∧ need = .read ∧ e.len ≤ s.reg Dict.MATCH_EAGER_LIMIT) →
    (e.inl = true → ∃ m u, EntryMessage s e m ∧ m.data = some e.inlineData ∧ m.bufs = [] ∧ u = { markEntry s g e true with freeN := u.freeN } ∧
      exec i s = .next (submit u (reqKey (s.queue g).ep e.dfna) m)) ∧
    (e.inl = false → ∀ b,
      (checkBufs (markEntry s g e true) (s.queue g).pd need e.buffers = (b, .ok) →
        ∃ m u, EntryMessage s e m ∧ m.data = none ∧ m.bufs = e.buffers ∧ u = { b with freeN := u.freeN } ∧
          exec i s = .next (submit u (reqKey (s.queue g).ep e.dfna) m)) ∧
      (∀ status reason, checkBufs (markEntry s g e true) (s.queue g).pd need e.buffers = (b, .refused status reason) →
        exec i s = .next (failEntry b e.id status reason)) ∧
      (checkBufs (markEntry s g e true) (s.queue g).pd need e.buffers = (b, .wait) → exec i s = .next (markEntry b g e false)))) ∧
  (∀ (s : State) (g : Nat) (e : Entry) (i : Instr), NextStart s g e → e.kind = 0 →
    (i = .atomic g ∧ e.opc / 16 = 1) ∨ (i = .fetchAtomic g ∧ e.opc / 16 = 2) ∨ (i = .atomic128 g ∧ e.opc / 16 = 3) ∨
      (i = .fetchAtomic128 g ∧ e.opc / 16 = 4) →
    ∃ m, EntryMessage s e m ∧ m.data = some (entryOperands e) ∧ m.bufs = [] ∧
      exec i s = .next (submit (markEntry s g e true) (reqKey (s.queue g).ep e.dfna) m)) ∧
  ∀ (s : State) (g : Nat) (e : Entry), NextStart s g e → e.kind = 1 → e.opc = 0x12 → LoneEntry s g e → e.cmpl = true →
    RingWritable s (ringOf s g) →
    ((s.reqCtx (reqKey (s.queue g).ep e.dfna)).st = .open → (s.reqCtx (reqKey (s.queue g).ep e.dfna)).busy = false →
      (s.reqCtx (reqKey (s.queue g).ep e.dfna)).closers = [] →
      ∃ t, exec (.peerClose g) s = .next t ∧ (t.reqCtx (reqKey (s.queue g).ep e.dfna)).st = .closing ∧
        (t.reqCtx (reqKey (s.queue g).ep e.dfna)).since = s.time.count ∧ CompletedWith s t g e 0 0 0 ∧
        t = { s with queues := t.queues, host := t.host, mon := t.mon, out := t.out, rma := t.rma, sw := t.sw }) ∧
    ((s.reqCtx (reqKey (s.queue g).ep e.dfna)).st = .free ∨ (s.reqCtx (reqKey (s.queue g).ep e.dfna)).st = .closing →
      ∃ t, exec (.peerClose g) s = .next t ∧ QueueWork s t ∧ CompletedWith s t g e 0 0 0) ∧
    ((s.reqCtx (reqKey (s.queue g).ep e.dfna)).st = .open → (s.reqCtx (reqKey (s.queue g).ep e.dfna)).busy = true →
      exec (.peerClose g) s = .next ((markEntry s g e true).updReq (reqKey (s.queue g).ep e.dfna) fun c => { c with closers := c.closers ++ [e.id] }))

/-- R303, R304, R306, R313, R314, R321. -/
def Obligations.SubmittedMessageSent : Prop :=
  ∀ (s : State) (key : Nat) (m : Msg) (d : List Byte), m.assigned = 0 → m.again = [] → m.stopped = false → m.failed = none → m.pieces = 1 →
    payloadAtHand m 0 (m.pieceLen 0) = some d →
    (CtxIdle s key → pieceCharge s m (m.pieceLen 0) ≤ (s.reqCtx key).credit →
      ((submit s key m).reqCtx key).st = .open ∧ ((submit s key m).reqCtx key).una = (s.reqCtx key).nxt ∧
      ((submit s key m).reqCtx key).nxt = psnAdd (s.reqCtx key).nxt 1 ∧
      ((submit s key m).reqCtx key).timer = some (s.time.count + (s.reqCtx key).rto) ∧
      (∃ p, ((submit s key m).reqCtx key).pkts = [p] ∧ p.psn = (s.reqCtx key).nxt ∧ p.sentAt = s.time.count ∧ p.got = false ∧ p.resends = 0 ∧
        p.syn = false) ∧
      RequestLeaves s (submit s key m) key m (s.reqCtx key).nxt (s.reqCtx key).inc (s.reqCtx key).hint false d) ∧
    ∀ pl, s.reqCtx key = {} → freePlace s (reqCode key) = some pl → s.rma.onDie.length < 65536 →
      pieceCharge s m (m.pieceLen 0) ≤ s.reg Dict.RMA_RATE_MAX →
      ((submit s key m).reqCtx key).st = .opening ∧ ((submit s key m).reqCtx key).inc = ((tget {} s.rma.places pl).inc + 1) % 16 ∧
      ((submit s key m).reqCtx key).una = s.time.count % 2 ^ 24 ∧ ((submit s key m).reqCtx key).nxt = psnAdd (s.time.count % 2 ^ 24) 1 ∧
      ((submit s key m).reqCtx key).timer = some (s.time.count + s.reg Dict.RMA_RTO_INIT_ST) ∧
      (∃ p, ((submit s key m).reqCtx key).pkts = [p] ∧ p.psn = s.time.count % 2 ^ 24 ∧ p.syn = true) ∧
      RequestLeaves s (submit s key m) key m (s.time.count % 2 ^ 24) (((tget {} s.rma.places pl).inc + 1) % 16) 0 true d

/-- R309, R312, R315, R317, R318, R323, R366. -/
def Obligations.RequestsReceived : Prop :=
  (∀ (s : State) (hp : Nat) (i : Instr) (p : Packet), AtHead s hp p → RequestRow hp i p →
    ((s.respCtx (respKey p.sfna p.sep)).live = false → hdrSyn p = false → exec i s = .next (ackAlone (takeDelivered s hp) p { type := 3 })) ∧
    ((s.respCtx (respKey p.sfna p.sep)).live = true → onDie s (respCode (respKey p.sfna p.sep)) = true →
      (s.respCtx (respKey p.sfna p.sep)).inc ≠ hdrInc p → hdrSyn p = false →
      exec i s = .next ((requestTaken s hp p).count 0x50E (epInst s p.dep))) ∧
    (RespHere s p →
      ((s.respCtx (respKey p.sfna p.sep)).received p.psn = false → 64 < psnDist (s.respCtx (respKey p.sfna p.sep)).rcvNxt p.psn →
        exec i s = .next ((requestTaken s hp p).count 0x50F (epInst s p.dep))) ∧
      ((s.respCtx (respKey p.sfna p.sep)).received p.psn = true →
        (p.opc = 1 ∨ p.opc = 3 ∨ p.opc = 4 ∨ (isAtomic p.opc = true ∧ isFetch p.opc = false) →
          exec i s = .next (ackContext (((requestTaken s hp p).count 0x503 (epInst s p.dep)).updResp (respKey p.sfna p.sep)
            fun c => { c with dep := p.dep }) (respKey p.sfna p.sep) {})) ∧
        ∀ r, isAtomic p.opc = true → isFetch p.opc = true →
          (s.rma.atomics.any fun j => j.key = respKey p.sfna p.sep && j.psn = p.psn) = false →
          s.rma.replay.find? (fun r => r.key = respKey p.sfna p.sep && r.inc = hdrInc p && r.psn = p.psn) = some r →
          exec i s = .next (sendAtomicResp (((requestTaken s hp p).count 0x503 (epInst s p.dep)).count 0x504 (epInst s p.dep))
            (respKey p.sfna p.sep) p.dep p.psn (hdrInc p) r.width r.value 0)))) ∧
  (∀ (s u : State) (hp : Nat) (p : Packet), AtHead s hp p → RespHere s p → NewPsn s p → p.opc = 1 → p.payload ≠ [] → epServes s p.dep = true →
    (hdrLast p = true → hdrNotify p = true → (arrivalRing s p.dep).isSome = true) → isRelease p = false →
    (∀ func seg chk pieces, access (requestTaken s hp p) [3, respKey p.sfna p.sep, p.psn] (hdrRkey p) (epPd s p.dep)
        (hdrRaddr p + 4032 * psnDist (hdrMpsn p) p.psn) p.payload.length .write = (u, .ok func seg chk pieces) →
      ∃ t, exec (.putReceive hp) s = .next t ∧ (t.respCtx (respKey p.sfna p.sep)).received p.psn = true ∧
        t = acceptPut (writePieces u func (some seg) chk pieces p.payload).1 (respKey p.sfna p.sep) p
          (writePieces u func (some seg) chk pieces p.payload).2) ∧
    (∀ status reason, access (requestTaken s hp p) [3, respKey p.sfna p.sep, p.psn] (hdrRkey p) (epPd s p.dep)
        (hdrRaddr p + 4032 * psnDist (hdrMpsn p) p.psn) p.payload.length .write = (u, .refused status reason) →
      exec (.putReceive hp) s = .next (refuseAccess u (respKey p.sfna p.sep) p (if status = 0 then 0x20 else status) reason))) ∧
  (∀ (s : State) (hp : Nat) (p : Packet), AtHead s hp p → RespHere s p → NewPsn s p → isRelease p = true →
    exec (.releaseReceive hp) s = .next (acceptPut (releaseIn (requestTaken s hp p) p.dep p.sfna (hdrRkey p) (hdrRaddr p))
      (respKey p.sfna p.sep) p [])) ∧
  (∀ (s u : State) (hp : Nat) (p : Packet) (func seg chk : Nat) (pieces : List Piece), AtHead s hp p → RespHere s p → NewPsn s p → p.opc = 2 →
    epServes s p.dep = true → 1 ≤ getLen p → getLen p ≤ 1048576 →
    access (requestTaken s hp p) [3, respKey p.sfna p.sep, p.psn] (hdrRkey p) (epPd s p.dep) (hdrRaddr p) (getLen p) .read =
      (u, .ok func seg chk pieces) →
    exec (.getReceive hp) s = .next (startGet (accept u (respKey p.sfna p.sep) p [] false) (respKey p.sfna p.sep) p func seg chk pieces)) ∧
  ∀ (s u : State) (hp : Nat) (p : Packet) (i : Instr) (func seg chk : Nat) (pieces : List Piece), AtHead s hp p → RespHere s p → NewPsn s p →
    isAtomic p.opc = true → i = (if isFetch p.opc then .fetchAtomicReceive hp else .atomicReceive hp) → epServes s p.dep = true →
    (hdrRaddr p % atomicWidth p.opc = 0 →
      access (requestTaken s hp p) [3, respKey p.sfna p.sep, p.psn] (hdrRkey p) (epPd s p.dep) (hdrRaddr p) (atomicWidth p.opc) .both =
        (u, .ok func seg chk pieces) →
      ∃ t j, exec i s = .next t ∧ t.rma.atomics = u.rma.atomics ++ [j] ∧ (t.respCtx (respKey p.sfna p.sep)).received p.psn = true ∧
        j.key = respKey p.sfna p.sep ∧ j.inc = hdrInc p ∧ j.psn = p.psn ∧ j.opc = p.opc ∧ j.addr = (pieces.head?.map (·.addr)).getD 0 ∧
        j.operand = (atomicOperands p).1 ∧ j.compare = (atomicOperands p).2) ∧
    (hdrRaddr p % atomicWidth p.opc ≠ 0 → exec i s = .next (refuseAccess (requestTaken s hp p) (respKey p.sfna p.sep) p 0x26 0))

/-- R311, R314 to R316, R319, R320, R323, R324, R329. -/
def Obligations.AcknowledgementsReceived : Prop :=
  (∀ (s : State) (hp key : Nat) (p : Packet) (a : Ack), AtHead s hp p → key = reqKey p.dep p.sfna → a = ackOf p → p.opc = 0x80 → a.kind = 0 →
    ((s.reqCtx key).st = .free → ∀ i, (i = .ackReceive hp ∧ a.type = 0) ∨ (i = .ackErrorReceive hp ∧ a.type = 1) ∨
      (i = .ackRetryLaterReceive hp ∧ a.type = 2) ∨ (i = .ackNoContextReceive hp ∧ a.type = 3) →
      exec i s = .next ((takeDelivered s hp).count 0x50E (epInst s p.dep))) ∧
    (ReqHere s p a.inc →
      (a.type = 0 → a.cv = true → ∃ t, exec (.ackReceive hp) s = .next t ∧
        tget [] t.sw.delivered hp = (tget [] s.sw.delivered hp).drop 1 ∧
        (psnDist (s.reqCtx key).una a.cum ≤ psnDist (s.reqCtx key).una (s.reqCtx key).nxt →
          (t.reqCtx key).una = a.cum ∧ (t.reqCtx key).hint = a.hint ∧
          ∀ m q g e, LoneMessage s key m q e → q.missing = [] → q.needResp = false → m.opc ≠ 2 → (isAtomic m.opc && isFetch m.opc) = false →
            psnIn q.psn (s.reqCtx key).una a.cum = true → LoneEntry s g e → e.cmpl = true → RingWritable s (ringOf s g) →
            CompletedWith s t g e 0 (m.done + q.len) m.result) ∧
        (psnDist (s.reqCtx key).una (s.reqCtx key).nxt < psnDist (s.reqCtx key).una a.cum → (t.reqCtx key).una = (s.reqCtx key).una)) ∧
      (a.type = 1 → ∃ t, exec (.ackErrorReceive hp) s = .next t ∧
        (a.estatus = 0x29 → (t.reqCtx key).st = .closing ∧ (t.reqCtx key).msgs = [] ∧ (t.reqCtx key).pkts = []) ∧
        (a.estatus ≠ 0x29 → a.estatus ≠ 0 → ∀ m q g e, LoneMessage s key m q e → q.psn = a.epsn → a.cv = false ∨
            psnDist (s.reqCtx key).una a.cum ≤ psnDist (s.reqCtx key).una (s.reqCtx key).nxt →
          LoneEntry s g e → RingWritable s (ringOf s g) → CompletedWith s t g e a.estatus m.done (failResult a.ereason q.psn))) ∧
      (a.type = 2 → a.cv = false → ∀ q, (s.reqCtx key).pkts.find? (fun q => q.psn = a.epsn && !q.got) = some q →
        q.rlater + 1 < s.reg Dict.RMA_RLATER_LIMIT → ∃ t, exec (.ackRetryLaterReceive hp) s = .next t ∧ a.epsn ∈ (t.reqCtx key).held ∧
          (t.reqCtx key).holdUntil = some (max ((s.reqCtx key).holdUntil.getD 0) (s.time.count + a.backoff))) ∧
      (a.type = 3 → a.cv = false → ∃ t, exec (.ackNoContextReceive hp) s = .next t ∧ (t.reqCtx key).st = .closing ∧
        (t.reqCtx key).since = s.time.count ∧ (t.reqCtx key).msgs = [] ∧ (t.reqCtx key).pkts = [] ∧
        bitAt (evregGet t.mon.evreg Dict.RMA_EVENTS 0) 1 = true))) ∧
  (∀ (s : State) (hp key : Nat) (p : Packet) (a : Ack), AtHead s hp p → key = respKey p.sfna p.sep → a = ackOf p → p.opc = 0x80 → a.kind = 1 →
    (a.type = 4 → (s.respCtx key).live = true → (s.respCtx key).inc = a.inc → ∃ t, exec (.ackCloseReceive hp) s = .next t ∧
      t.respCtx key = {} ∧ (∀ k, k ≠ key → t.respCtx k = s.respCtx k) ∧ onDie t (respCode key) = false ∧
      (tget {} t.rma.places (s.respCtx key).place).holder = 0) ∧
    (a.type = 4 → (s.respCtx key).live = false → exec (.ackCloseReceive hp) s = .next ((takeDelivered s hp).count 0x50D (epInst s p.dep))) ∧
    (a.type = 0 → a.cv = true → (s.respCtx key).live = true → (s.respCtx key).inc = a.inc → ∃ t, exec (.ackResponsesReceive hp) s = .next t ∧
      t = { takeDelivered s hp with rma := t.rma } ∧ (t.respCtx key).peerHint = a.hint ∧
      ∀ r, r ∈ t.rma.replay ↔ r ∈ s.rma.replay ∧ ¬ (r.key = key ∧ r.inc = a.inc ∧ passedBy a.cum r.psn = true))) ∧
  ∀ (s : State) (node ep : Nat),
    (∀ a, (s.respCtx (respKey node ep)).ackAt = some a → a + s.reg Dict.RMA_ACK_DELAY_ST ≤ s.time.count →
      ∃ t, exec (.ackDelayTimer false node ep) s = .next t ∧ t = ackContext s (respKey node ep) {} ∧ (t.respCtx (respKey node ep)).accepted = 0 ∧
        (t.respCtx (respKey node ep)).ackAt = none) ∧
    (∀ a, (s.reqCtx (reqKey ep node)).respAt = some a → a + s.reg Dict.RMA_ACK_DELAY_ST ≤ s.time.count →
      ∃ t, exec (.ackDelayTimer true node ep) s = .next t ∧ t = sendRespAck s (reqKey ep node) ∧ (t.reqCtx (reqKey ep node)).respN = 0 ∧
        (t.reqCtx (reqKey ep node)).respAt = none) ∧
    ((s.respCtx (respKey node ep)).ackAt = none → exec (.ackDelayTimer false node ep) s = .next s)

/-- R309, R311, R314, R320, R321, R323, R327 to R330. -/
def Obligations.ResponsesTimersAndRates : Prop :=
  (∀ (s : State) (hp key g : Nat) (p : Packet) (m : Msg) (q : ReqPkt) (e : Entry), AtHead s hp p → key = reqKey p.dep p.sfna →
    ReqHere s p (hdrInc p) → LoneMessage s key m q e → q.psn = p.psn → LoneEntry s g e → e.cmpl = true → RingWritable s (ringOf s g) →
    (p.opc = 0x82 → isAtomic m.opc = true → isFetch m.opc = true → q.needResp = true → q.missing = [] → respStatus p = 0 → ∃ t, exec (.atomicRespReceive hp) s = .next t ∧
      CompletedWith s t g e 0 q.len (natBE (p.payload.take (atomicWidth m.opc)))) ∧
    (p.opc = 0x81 → m.opc = 2 → q.needResp = false → q.missing = [respIndex p] → respStatus p ≠ 0 → ∃ t, exec (.getRespReceive hp) s = .next t ∧
      CompletedWith s t g e (respStatus p) m.done (failResult (respReason p) q.psn))) ∧
  (∀ (s : State) (hp : Nat) (p : Packet), AtHead s hp p → (s.reqCtx (reqKey p.dep p.sfna)).st = .free →
    (p.opc = 0x81 → exec (.getRespReceive hp) s = .next ((takeDelivered s hp).count 0x50E (epInst s p.dep))) ∧
    (p.opc = 0x82 → exec (.atomicRespReceive hp) s = .next ((takeDelivered s hp).count 0x50E (epInst s p.dep)))) ∧
  (∀ (s : State) (sep dfna a : Nat), (s.reqCtx (reqKey sep dfna)).st = .open → (s.reqCtx (reqKey sep dfna)).timer = some a → a ≤ s.time.count →
    (s.reqCtx (reqKey sep dfna)).held = [] → (∀ q ∈ (s.reqCtx (reqKey sep dfna)).pkts, q.got = false) → (s.reqCtx (reqKey sep dfna)).pkts ≠ [] →
    ((∃ q ∈ (s.reqCtx (reqKey sep dfna)).pkts, s.reg Dict.RMA_RETRY_LIMIT ≤ q.resends) → ∃ t, exec (.rtoExpiry sep dfna) s = .next t ∧
      (t.reqCtx (reqKey sep dfna)).st = .closing ∧ (t.reqCtx (reqKey sep dfna)).pkts = [] ∧ (t.reqCtx (reqKey sep dfna)).msgs = [] ∧
      bitAt (evregGet t.mon.evreg Dict.RMA_EVENTS 0) 0 = true) ∧
    ((∀ q ∈ (s.reqCtx (reqKey sep dfna)).pkts, q.resends < s.reg Dict.RMA_RETRY_LIMIT) → onDie s (reqCode (reqKey sep dfna)) = true →
      ∃ t, exec (.rtoExpiry sep dfna) s = .next t ∧ (t.reqCtx (reqKey sep dfna)).st = .open ∧
        (t.reqCtx (reqKey sep dfna)).rto = min (2 * (s.reqCtx (reqKey sep dfna)).rto) (s.reg Dict.RMA_RTO_MAX_ST) ∧
        (t.reqCtx (reqKey sep dfna)).timer =
          some (s.time.count + min (2 * (s.reqCtx (reqKey sep dfna)).rto) (s.reg Dict.RMA_RTO_MAX_ST)))) ∧
  (∀ (s : State) (sep dfna : Nat),
    (∀ a, (s.reqCtx (reqKey sep dfna)).holdUntil = some a → a ≤ s.time.count → ∃ t, exec (.backoffExpiry sep dfna) s = .next t ∧
      ((s.reqCtx (reqKey sep dfna)).st = .open → (t.reqCtx (reqKey sep dfna)).holdUntil = none ∧ (t.reqCtx (reqKey sep dfna)).held = [])) ∧
    ((s.reqCtx (reqKey sep dfna)).holdUntil = none → exec (.backoffExpiry sep dfna) s = .next s) ∧
    ((s.reqCtx (reqKey sep dfna)).st = .open → (s.reqCtx (reqKey sep dfna)).busy = false → s.reg Dict.RMA_PEER_IDLE_FR ≠ 0 →
      (s.reqCtx (reqKey sep dfna)).since + 1024 * s.reg Dict.RMA_PEER_IDLE_FR ≤ s.time.count → (s.reqCtx (reqKey sep dfna)).closers = [] →
      ∃ t, exec (.peerIdleExpiry sep dfna) s = .next t ∧ t = { s with rma := t.rma, sw := t.sw, mon := t.mon } ∧
        (t.reqCtx (reqKey sep dfna)).st = .closing ∧ (t.reqCtx (reqKey sep dfna)).since = s.time.count ∧
        ∀ k, k ≠ reqKey sep dfna → t.reqCtx k = s.reqCtx k) ∧
    ((s.reqCtx (reqKey sep dfna)).st = .closing → (s.reqCtx (reqKey sep dfna)).since + 1024 ≤ s.time.count →
      (s.reqCtx (reqKey sep dfna)).msgs = [] → ∃ t, exec (.peerClosingEnd sep dfna) s = .next t ∧ (t.reqCtx (reqKey sep dfna)).st = .free ∧
        (tget {} t.rma.places (s.reqCtx (reqKey sep dfna)).place).holder = 0 ∧ ∀ k, k ≠ reqKey sep dfna → t.reqCtx k = s.reqCtx k) ∧
    ((s.reqCtx (reqKey sep dfna)).st = .open → (s.reqCtx (reqKey sep dfna)).periodAt + s.reg Dict.RMA_CC_PERIOD_ST ≤ s.time.count →
      ∃ t, exec (.ratePeriod sep dfna) s = .next t ∧ t = { s with rma := t.rma, mon := t.mon } ∧
        t.reqCtx (reqKey sep dfna) = { s.reqCtx (reqKey sep dfna) with
          ceSum := 0, ackSum := 0, periodAt := s.time.count
          rate := if s.reg Dict.RMA_CC_ENABLE = 0 then s.reg Dict.RMA_RATE_MAX
            else if (s.reqCtx (reqKey sep dfna)).ceSum = 0 then
              min (s.reg Dict.RMA_RATE_MAX) ((s.reqCtx (reqKey sep dfna)).rate + s.reg Dict.RMA_RATE_AI)
            else max (s.reg Dict.RMA_RATE_MIN) ((s.reqCtx (reqKey sep dfna)).rate *
              (2 * max 1 (s.reqCtx (reqKey sep dfna)).ackSum - (s.reqCtx (reqKey sep dfna)).ceSum) /
                (2 * max 1 (s.reqCtx (reqKey sep dfna)).ackSum)) })) ∧
  (∀ s : State, ∃ t, exec .respCacheAgeOut s = .next t ∧ t = { s with rma := { s.rma with replay := t.rma.replay } } ∧
    ∀ r, r ∈ t.rma.replay ↔ r ∈ s.rma.replay ∧ s.time.count < r.at' + 4 * s.reg Dict.RMA_RTO_MAX_ST) ∧
  ∀ (s : State) (node ep : Nat),
    ((s.respCtx (respKey node ep)).fetching = true → s.rma.parked = [] →
      (s.rma.onDie.length < 65536 → ∃ t, exec (.contextFetchDone false node ep false) s = .next t ∧ t = { s with rma := t.rma } ∧
        onDie t (respCode (respKey node ep)) = true ∧
        t.respCtx (respKey node ep) = { s.respCtx (respKey node ep) with fetching := false }) ∧
      ∃ t, exec (.contextFetchDone false node ep true) s = .next t ∧ t.respCtx (respKey node ep) = {}) ∧
    ((s.reqCtx (reqKey ep node)).fetching = true → (s.reqCtx (reqKey ep node)).msgs = [] → s.rma.onDie.length < 65536 →
      ∃ t, exec (.contextFetchDone true node ep false) s = .next t ∧ onDie t (reqCode (reqKey ep node)) = true) ∧
    ((s.respCtx (respKey node ep)).fetching = false → exec (.contextFetchDone false node ep false) s = .next s)

/-- R332, R333, R340, R354, R355. -/
def Obligations.SegmentsRegisteredRevokedInvalidated : Prop :=
  (∀ (s u : State) (g : Nat) (e : Entry), NextStart s g e → e.kind = 1 → segIndexed s (fld e.w5 23 0) = true →
    fld e.w5 23 0 ∈ s.trans.descs → u = (lookDesc (markEntry s g e true) (fld e.w5 23 0)).1 →
    (e.opc = 0x30 →
      (segAllowed s e.func (fld e.w5 23 0) = false → exec (.segRegister g) s = .next (finishEntry u e.id 0x2A)) ∧
      (segAllowed s e.func (fld e.w5 23 0) = true → (s.seg (fld e.w5 23 0)).st ≠ .free →
        exec (.segRegister g) s = .next (finishEntry u e.id 0x44)) ∧
      (registerStatus u e = 0 → ∃ t d, exec (.segRegister g) s = .next t ∧ t = transDue u (.register (fld e.w5 23 0) e.id d) ∧
        d.st = .valid ∧ d.pd = (s.queue g).pd ∧ d.func = e.func ∧ d.tag = ((s.seg (fld e.w5 23 0)).tag + 1) % 256 ∧
        d.start = fld (e.more.getD 0 0) 63 0 ∧ d.len = fld (e.more.getD 0 0) 127 64 ∧ d.root = fld (e.more.getD 0 0) 191 140 * 4096 ∧
        d.r = bitAt (e.more.getD 0 0) 192 ∧ d.w = bitAt (e.more.getD 0 0) 193 ∧ d.adupd = bitAt (e.more.getD 0 0) 194 ∧ d.faulted = false)) ∧
    ((s.seg (fld e.w5 23 0)).st ≠ .free → (s.seg (fld e.w5 23 0)).pd = (s.queue g).pd →
      (e.opc = 0x11 → exec (.segRevoke g) s = .next (transDue u (.revoke (fld e.w5 23 0) e.id))) ∧
      (e.opc = 0x31 → exec (.invalRange g) s = .next (transDue u (.inval (fld e.w5 23 0) e.id g (some (e.w6, e.w7))))) ∧
      (e.opc = 0x32 → exec (.invalSeg g) s = .next (transDue u (.inval (fld e.w5 23 0) e.id g none)))) ∧
    ((s.seg (fld e.w5 23 0)).st = .free ∨ (s.seg (fld e.w5 23 0)).pd ≠ (s.queue g).pd →
      (e.opc = 0x11 → exec (.segRevoke g) s = .next (finishEntry u e.id 0x2A)) ∧
      (e.opc = 0x31 → exec (.invalRange g) s = .next (finishEntry u e.id 0x2A)) ∧
      (e.opc = 0x32 → exec (.invalSeg g) s = .next (finishEntry u e.id 0x2A)))) ∧
  (∀ (s : State) (i id q : Nat) (x : Seg),
    ((applyTransDue s (.register i id x)).seg i = { x with regStitch := s.time.count, gen := ((s.seg i).gen + 1) % 65536 } ∧
      ∀ y ∈ (applyTransDue s (.register i id x)).trans.tlb, y.seg ≠ i) ∧
    ((s.seg i).st = .valid → ((applyTransDue s (.revoke i id)).seg i).st = .revoking) ∧
    ∀ y ∈ (applyTransDue s (.inval i id q none)).trans.tlb, y.seg ≠ i) ∧
  (∀ (s : State) (i : Nat),
    ((s.seg i).st = .revoking → segBusy s i (s.time.count + 1) = false → (s.trans.ads.any fun a => a.seg = i) = false →
      ∃ t, exec (.revokeDrainDone i) s = .next t ∧ (t.seg i).st = .free ∧ (∀ y ∈ t.trans.tlb, y.seg ≠ i) ∧ (∀ k, k ≠ i → t.seg k = s.seg k) ∧
        (∀ d ∈ t.trans.drains, ¬ (d.kind = .revoke ∧ d.seg = i)) ∧ bitAt (evregGet t.mon.evreg Dict.RMA_EVENTS 0) 3 = true) ∧
    ((s.seg i).st ≠ .revoking ∨ segBusy s i (s.time.count + 1) = true → exec (.revokeDrainDone i) s = .next s) ∧
    (∀ d, s.trans.drains = [d] → d.kind = .revoke → d.seg = i → Loggable s 0x0A05 6 i →
      (d.slow = false → d.since + 1024 < s.time.count → ∃ t, exec (.revokeSlow i) s = .next t ∧ Logged s t 0x0A05 6 i 0 ∧
        t = { s with trans := { s.trans with drains := [{ d with slow := true }] }, mon := t.mon }) ∧
      (d.slow = true ∨ s.time.count ≤ d.since + 1024 → exec (.revokeSlow i) s = .next s))) ∧
  ∀ (s : State) (g : Nat) (d : Drain), g < 1048576 → s.trans.drains = [d] → d.kind = .inval → d.queue = g →
    (segBusy s d.seg d.since = false → (s.trans.ads.any fun a => a.seg = d.seg && decide (a.since < d.since)) = false →
      ∃ t, exec (.invalComplete g) s = .next t ∧ t.trans = { s.trans with drains := [] } ∧
        ∀ h e, LoneEntry s h e → e.id = d.entry → e.cmpl = true → RingWritable s (ringOf s h) → CompletedWith s t h e 0 0 0) ∧
    (segBusy s d.seg d.since = true → exec (.invalComplete g) s = .next s) ∧
    (d.slow = false → d.since + 1024 < s.time.count → Loggable s 0x0B07 6 d.seg → ∃ t, exec (.invalSlow g) s = .next t ∧
      Logged s t 0x0B07 6 d.seg 0 ∧ t = { s with trans := { s.trans with drains := [{ d with slow := true }] }, mon := t.mon }) ∧
    (d.slow = true ∨ s.time.count ≤ d.since + 1024 → exec (.invalSlow g) s = .next s)

/-- R343 to R346, R349 to R353. -/
def Obligations.RightsWalksAndRegions : Prop :=
  (∀ (s : State) (func n : Nat) (data : List Byte), func < 1024 → s.host.units ≠ 0 → fnPresent s func = true → coreUp s = true →
    data.length = 4 → n ≤ 212991 →
    (funcValid s func = true → n < pdCount s func → ∃ t, exec (.rightsWordWrite func (0x30000 + 4 * n) data) s = .next t ∧
      t = { s with trans := { s.trans with gateDue := s.trans.gateDue ++ [{ pd := pdFirst s func + n, value := natLE data, entry := none }] } }) ∧
    (pdCount s func ≤ n → Loggable s 0x0803 3 func → ∃ t, exec (.rightsWordWrite func (0x30000 + 4 * n) data) s = .next t ∧
      t = { s with mon := t.mon } ∧ Logged s t 0x0803 3 func 0)) ∧
  (∀ (s : State) (g : GateDue), tget 0 (applyGate s g).trans.gates g.pd = g.value ∧ tget 0 (applyGate s g).trans.gateAt g.pd = s.time.count ∧
    ∀ pd, pd ≠ g.pd → tget 0 (applyGate s g).trans.gates pd = tget 0 s.trans.gates pd) ∧
  (∀ (s : State) (g : Nat) (e : Entry), NextStart s g e → e.kind = 1 →
    (e.opc = 0x33 → ∃ t, exec (.kgateSet g) s = .next t ∧ t = { markEntry s g e true with trans := { s.trans with gateDue := s.trans.gateDue ++
      [{ pd := (s.queue g).pd, value := fld e.w5 31 0, entry := some e.id }] } }) ∧
    (e.opc = 0x34 → exec (.kgateSync g) s = .next (addDrain (markEntry s g e true)
      { kind := .sync, queue := g, entry := e.id, seg := (s.queue g).pd, since := s.time.count }))) ∧
  (∀ (s : State) (g : Nat) (d : Drain), g < 1048576 → s.trans.drains = [d] → d.kind = .sync → d.queue = g →
    ((s.trans.gateDue.any fun x => x.pd = d.seg) = false → pdBusy s d.seg (tget 0 s.trans.gateAt d.seg) = false →
      ∃ t, exec (.kgateSyncComplete g) s = .next t ∧ t.trans = { s.trans with drains := [] } ∧
        ∀ h e, LoneEntry s h e → e.id = d.entry → e.cmpl = true → RingWritable s (ringOf s h) → CompletedWith s t h e 0 0 0) ∧
    (pdBusy s d.seg (tget 0 s.trans.gateAt d.seg) = true → exec (.kgateSyncComplete g) s = .next s)) ∧
  (∀ (s : State) (tag : Nat) (r : HRead) (w : Walk) (data : List Byte), s.host.reads.find? (fun r => r.tag = tag) = some r →
    r.why = .walkLine w.id → s.trans.walks = [w] → s.trans.fails = [] → data.length = 64 →
    (∀ e, e = pteIn r.addr data w.pteAddr → w.line = none →
      (bitAt e 0 = true → pteBad w.level e = false → bitAt e 4 = true → ¬ (w.level = 0 ∧ bitAt e 7 = true) →
        inDeviceRegion s (pteFrame e) (pageBytes w.level false) = false →
        ∃ u, walkReturn (readEnded s tag) w.id r.addr data false = u ∧ exec (.walkReadDone tag data false) s = .next (resumeAll u) ∧
          u.trans.walks = [] ∧ u.trans.fails = [] ∧ ∃ x, u.trans.tlb.head? = some x ∧ x.seg = w.seg ∧ x.frame = pteFrame e ∧
          x.r = bitAt e 1 ∧ x.w = bitAt e 2 ∧ x.pkey = fld e 63 60 ∧ x.size = pageBytes w.level false ∧
          x.base = w.va / pageBytes w.level false * pageBytes w.level false ∧ x.acc = bitAt e 5 ∧ x.dirty = bitAt e 6) ∧
      (bitAt e 0 = false → ∃ u, exec (.walkReadDone tag data false) s = .next (resumeAll u) ∧ u = { readEnded s tag with trans := u.trans } ∧
        u.trans.tlb = s.trans.tlb ∧ u.trans.walks = [] ∧ u.trans.fails = [{ seg := w.seg, va := w.va, status := 0x40, reason := 0 }]) ∧
      (bitAt e 0 = true → pteBad w.level e = true → ∃ u, exec (.walkReadDone tag data false) s = .next (resumeAll u) ∧
        u = { readEnded s tag with trans := u.trans } ∧ u.trans.tlb = s.trans.tlb ∧ u.trans.walks = [] ∧
        u.trans.fails = [{ seg := w.seg, va := w.va, status := 0x42, reason := 0 }])) ∧
    ((s.seg w.seg).faulted = false →
      (∃ u, exec (.walkReadDone tag data true) s = .next (resumeAll u) ∧ u.trans.tlb = s.trans.tlb ∧ u.trans.walks = [] ∧
        u.seg w.seg = { s.seg w.seg with faulted := true, fkind := 1, faultAddr := r.addr } ∧
        u.trans.fails = [{ seg := w.seg, va := w.va, status := 0, reason := 7 }]) ∧
      (w.running = true → r.at' + s.reg Dict.TRANS_WALK_TIMEOUT_ST ≤ s.time.count → ∃ u, exec (.walkTimeout tag) s = .next (resumeAll u) ∧
        u.trans.tlb = s.trans.tlb ∧ u.trans.walks = [] ∧
        u.seg w.seg = { s.seg w.seg with faulted := true, fkind := 1, faultAddr := r.addr } ∧
        u.trans.fails = [{ seg := w.seg, va := w.va, status := 0, reason := 7 }]))) ∧
  (∀ (gates pkey : Nat) (need : Need), gateOk gates pkey need = true ↔ fld gates (2 * pkey + 1) (2 * pkey) = 0 ∨
    (fld gates (2 * pkey + 1) (2 * pkey) = 1 ∧ need = .read) ∨ (fld gates (2 * pkey + 1) (2 * pkey) = 2 ∧ need = .write)) ∧
  ∀ (s : State) (row v : Nat), row < 16 → coreUp s = true → ∃ t, exec (.transDeviceRegionWrite row v) s = .next t ∧ WriteApplied s t ∧
    Unfaulted s t ∧ t = { s with regs := t.regs, trans := { s.trans with tlb := [], wcache := [] }, mon := t.mon, ctl := t.ctl, latch := t.latch } ∧
    t.reg Dict.TRANS_DEVICE_REGION row = put (fld v 127 127) 127 127 + put (fld v 115 64) 115 64 + fld v 51 0

/-- R361, R370, R373, R377, R381 to R383. -/
def Obligations.MatchCommandsTaken : Prop :=
  (∀ (s : State) (g : Nat) (e : Entry) (i : Instr), MatchCommand s g e e.opc → matchValid s (s.queue g).ep = false →
    (i = .recvPost g ∧ e.opc = 0x40) ∨ (i = .recvCancel g ∧ e.opc = 0x41) ∨ (i = .probe g ∧ e.opc = 0x42) ∨ (i = .mprobe g ∧ e.opc = 0x43) ∨
      (i = .mrecv g ∧ e.opc = 0x44) → ∃ t, exec i s = .next t ∧ CompletedWith s t g e 0x67 0 0) ∧
  (∀ (s : State) (g ep : Nat) (e : Entry) (p : MEnt), MatchCommand s g e 0x40 → ep = (s.queue g).ep → Matching s ep → PipeFree s ep →
    BufferOk s g e → seqSpan (s.mep ep) = false → p = { postOf s e with seq := (s.mep ep).postSeq } →
    (matchUnexp (s.mep ep) p = none → (s.mep ep).unexpSpill = [] → spillsSide (s.mep ep) 0 = false →
      freeEntries (matchRow s ep) (s.mep ep) ≠ 0 → (p.pat = 4 → ((s.mep ep).posted.filter fun x => x.pat = 4).length < 4096) →
      ∃ t idx, exec (.recvPost g) s = .next t ∧ CompletedWith s t g e 0 0 (postResult (matchRow s ep) p) ∧
        (t.mep ep).posted = (s.mep ep).posted ++ [{ p with idx := idx }] ∧ (t.mep ep).postSeq = ((s.mep ep).postSeq + 1) % 2 ^ 32 ∧
        (t.mep ep).unexp = (s.mep ep).unexp ∧ idx ∉ usedEntries (s.mep ep) ∧ rowBase (matchRow s ep) + bucketEntries (matchRow s ep) ≤ idx ∧
        idx < rowBase (matchRow s ep) + rowSize (matchRow s ep)) ∧
    (∀ h ring, matchUnexp (s.mep ep) p = some h → arrivalRing s ep = some ring →
      ∃ t r, exec (.recvPost g) s = .next t ∧ (t.mep ep).unexp = (s.mep ep).unexp.filter (fun x => x.idx ≠ h.idx) ∧
        (t.mep ep).posted = (s.mep ep).posted ∧ (t.mep ep).postSeq = ((s.mep ep).postSeq + 1) % 2 ^ 32 ∧ r ∈ t.mtch.recvs ∧ r.msg = h ∧
        r.post = p ∧ r.ring = ring ∧ r.opc = 0x40 ∧ r.path = (if h.rndv then .rndv else .pool) ∧
        (h.rndv = false → CompletedWith s t g e 0 0 (postResult (matchRow s ep) p)))) ∧
  (∀ (s : State) (g ep : Nat) (e : Entry), MatchCommand s g e 0x41 → ep = (s.queue g).ep → Matching s ep → PipeFree s ep →
    (∀ p ring, (s.mep ep).posted.find? (fun p => p.seq = fld e.w5 31 0 && crefOf (matchRow s ep) p = fld e.w6 31 0) = some p →
      arrivalRing s ep = some ring → ∃ t, exec (.recvCancel g) s = .next t ∧ QueueWork s { t with mtch := s.mtch, rma := s.rma } ∧
        (t.mep ep).posted = (s.mep ep).posted.filter (fun x => x.seq ≠ fld e.w5 31 0) ∧ (t.queue g).order = [] ∧
        (ring ≠ ringOf s g → (t.queue ring).crProd = ringNext (s.queue ring).crUnits (s.queue ring).crProd)) ∧
    ((∀ p ∈ (s.mep ep).posted ++ (s.mep ep).postedSpill, p.seq ≠ fld e.w5 31 0) →
      ∃ t, exec (.recvCancel g) s = .next t ∧ CompletedWith s t g e 0x62 0 0 ∧ t.mep ep = s.mep ep)) ∧
  (∀ (s : State) (g ep : Nat) (e : Entry) (claim : Bool) (i : Instr), MatchCommand s g e (if claim then 0x43 else 0x42) →
    i = (if claim then .mprobe g else .probe g) → ep = (s.queue g).ep → Matching s ep → PipeFree s ep →
    (∀ h, matchUnexp (s.mep ep) (postOf s e) = some h → ∃ t, exec i s = .next t ∧
      CompletedWith s t g e 0 0 (probeResult h (if claim then h.idx else 0)) ∧
      t.mep ep = (if claim then { s.mep ep with unexp := (s.mep ep).unexp.filter (fun x => x.idx ≠ h.idx), claimed := (s.mep ep).claimed ++ [h] }
        else s.mep ep)) ∧
    (matchUnexp (s.mep ep) (postOf s e) = none → (s.mep ep).unexpSpill = [] →
      ∃ t, exec i s = .next t ∧ CompletedWith s t g e 0x62 0 0 ∧ t.mep ep = s.mep ep)) ∧
  (∀ (s : State) (g ep : Nat) (e : Entry), MatchCommand s g e 0x44 → ep = (s.queue g).ep → Matching s ep → PipeFree s ep → BufferOk s g e →
    (∀ h ring, (s.mep ep).claimed.find? (fun h => h.idx = fld e.w5 18 0) = some h → arrivalRing s ep = some ring → h.rndv = false →
      ∃ t r, exec (.mrecv g) s = .next t ∧ CompletedWith s t g e 0 0 0 ∧ (t.mep ep).claimed = (s.mep ep).claimed.filter (fun x => x.idx ≠ h.idx) ∧
        t.mtch.recvs = s.mtch.recvs ++ [r] ∧ r.msg = h ∧ r.opc = 0x44 ∧ r.path = .pool ∧ r.ring = ring) ∧
    ((∀ h ∈ (s.mep ep).claimed, h.idx ≠ fld e.w5 18 0) → ∃ t, exec (.mrecv g) s = .next t ∧ CompletedWith s t g e 0x69 0 0)) ∧
  ∀ (m : MatchEp) (h p : MEnt), matchPosted m h = some p →
    p ∈ m.posted ∧ matches' p h = true ∧ ∃ older newer, m.posted = older ++ p :: newer ∧ ∀ q ∈ older, matches' q h = false

/-- R363 to R366, R372, R375 to R378, R383. -/
def Obligations.SendsArriveAndSettle : Prop :=
  (∀ (s : State) (hp : Nat) (p : Packet) (i : Instr) (h : MEnt), AtHead s hp p → RespHere s p → NewPsn s p →
    (p.opc = 3 ∧ i = .sendEagerReceive hp) ∨ (p.opc = 4 ∧ i = .sendRndvReceive hp) → hdrFirst p = true → inflowOf s (respKey p.sfna p.sep) p = none →
    (s.respCtx (respKey p.sfna p.sep)).rcvNxt = p.psn → h = sendHeader p →
    (epServes s p.dep = false → exec i s = .next (refuseSend (requestTaken s hp p) (respKey p.sfna p.sep) p 0x21)) ∧
    (epServes s p.dep = true → matchValid s p.dep = false →
      exec i s = .next (refuseSend (requestTaken s hp p) (respKey p.sfna p.sep) p 0x67)) ∧
    (epServes s p.dep = true → matchValid s p.dep = true → (s.mep p.dep).failed = true →
      exec i s = .next (refuseSend (requestTaken s hp p) (respKey p.sfna p.sep) p 0x6B)) ∧
    (epServes s p.dep = true → Matching s p.dep → (s.mep p.dep).search = none →
      (∀ post ring, matchPosted (s.mep p.dep) h = some post → arrivalRing s p.dep = some ring → ∃ t, exec i s = .next t ∧
        (t.mep p.dep).posted = (s.mep p.dep).posted.filter (fun x => x.seq ≠ post.seq)) ∧
      (∀ post, matchPosted (s.mep p.dep) h = some post → arrivalRing s p.dep = none → ∃ t, exec i s = .next t ∧
        (t.mep p.dep).posted = (s.mep p.dep).posted ∧ (t.respCtx (respKey p.sfna p.sep)).received p.psn = false) ∧
      (matchPosted (s.mep p.dep) h = none → (s.mep p.dep).postedSpill = [] → spillsSide (s.mep p.dep) 1 = false →
        freeEntries (matchRow s p.dep) (s.mep p.dep) ≠ 0 →
        h.rndv = true ∨ h.len = 0 ∨ (h.len ≤ rowSlotBytes (matchRow s p.dep) ∧
          ∃ k, k < rowSlots (matchRow s p.dep) ∧ (s.mep p.dep).slots.contains k = false) →
        ∃ t u, exec i s = .next t ∧ u ∈ (t.mep p.dep).unexp ∧ u.seq = (s.mep p.dep).arrSeq ∧ u.mbits = h.mbits ∧ u.comm = h.comm ∧ u.rank = h.rank ∧
          u.len = h.len ∧ u.sfna = p.sfna ∧ u.sep = p.sep ∧ u.rndv = h.rndv ∧ (u.slot.isSome = (!h.rndv && h.len ≠ 0)) ∧
          (t.mep p.dep).arrSeq = ((s.mep p.dep).arrSeq + 1) % 2 ^ 32 ∧ (t.mep p.dep).unexp.length = (s.mep p.dep).unexp.length + 1 ∧
          (t.respCtx (respKey p.sfna p.sep)).received p.psn = true))) ∧
  (∀ (s : State) (ep : Nat) (x : SpillSearch), (s.mep ep).search = some x → (s.mep ep).found = none →
    (∀ i, indexWhere (((searchList (s.count 0x608 ep) ep x.op).1.drop x.pos).take 16) (searchList (s.count 0x608 ep) ep x.op).2 = some i →
      exec (.spillBatchRead ep false) s = .next (searchEnds (s.count 0x608 ep) ep x.op (some (x.pos + i)))) ∧
    (indexWhere (((searchList (s.count 0x608 ep) ep x.op).1.drop x.pos).take 16) (searchList (s.count 0x608 ep) ep x.op).2 = none →
      x.pos + 16 < (searchList (s.count 0x608 ep) ep x.op).1.length → ∃ t, exec (.spillBatchRead ep false) s = .next t ∧
      t = { s with mtch := t.mtch, mon := t.mon } ∧ t.mep ep = { s.mep ep with search := some { x with pos := x.pos + 16 } } ∧
      ∀ k, k ≠ ep → t.mep k = s.mep k) ∧
    ∃ t, exec (.spillBatchRead ep true) s = .next t ∧ (t.mep ep).failDue = true ∧ (t.mep ep).search = none) ∧
  (∀ (s : State) (ep : Nat) (r : Recv),
    (∀ slot, s.mtch.recvs.find? (fun r => r.ep = ep && r.path = .pool && r.msg.done && !r.reading && !r.ended) = some r → r.msg.slot = some slot →
      0 < r.take → windowOk s r.func (slotAddr (matchRow s ep) slot) r.take false = true → accessGone s r.func = false →
      ∃ t, exec (.poolCopy ep) s = .next t ∧ t = { s with mtch := t.mtch, host := t.host, mon := t.mon, out := t.out } ∧
        t.out = .hostRead s.host.nextTag r.func (slotAddr (matchRow s ep) slot) r.take :: s.out ∧
        t.mtch.recvs = s.mtch.recvs.map fun x => if x.id = r.id then { x with reading := true } else x) ∧
    (s.mtch.recvs.find? (fun r => r.ep = ep && r.path = .rndv && r.ended) = some r → ∃ t, exec (.rndvGetsDone ep) s = .next t ∧
      t = sendRelease (recvDone s r) r (recvGroup s r) ∧ ∀ x ∈ t.mtch.recvs, x.id ≠ r.id)) ∧
  (∀ (s : State) (ep a g : Nat) (r : RndvRec) (e : Entry), s.mtch.rndv = [r] → r.sep = ep → r.ackedAt = some a →
    (a + s.reg Dict.MATCH_RNDV_LIMIT_FR ≤ s.time.count / 1024 → LoneEntry s g e → e.id = r.entry → RingWritable s (ringOf s g) →
      ∃ t, exec (.rndvTimeout ep) s = .next t ∧ t.mtch.rndv = [] ∧ CompletedWith s t g e 0x65 0 0 ∧
        bitAt (evregGet t.mon.evreg Dict.MATCH_EVENTS 0) 4 = true) ∧
    (s.time.count / 1024 < a + s.reg Dict.MATCH_RNDV_LIMIT_FR → exec (.rndvTimeout ep) s = .next s)) ∧
  ∀ (s b : State) (g : Nat) (e : Entry), NextStart s g e → e.kind = 0 → e.opc = 3 → s.reg Dict.MATCH_EAGER_LIMIT < e.len →
    (e.nsge ≠ 0 ∨ e.inl = true → LoneEntry s g e → RingWritable s (ringOf s g) → ∃ t, exec (.send g) s = .next t ∧ CompletedWith s t g e 0x64 0 0) ∧
    (e.nsge = 0 → e.inl = false → s.mtch.rndv.length < 65536 →
      checkBufs (markEntry s g e true) (s.queue g).pd .read e.buffers = (b, .ok) →
      bitAt (epRow s (s.queue g).ep) 63 = true → epPd s (s.queue g).ep = (s.queue g).pd →
      ∃ m u, exec (.send g) s = .next (submit u (reqKey (s.queue g).ep e.dfna) m) ∧ m.opc = 4 ∧ m.rkey = e.lkey ∧ m.words = sendWords e ∧
        m.data = some (bytesBE e.laddr 8) ∧ m.owner = .entry e.id ∧
        u = { b with mtch := { b.mtch with
          rndv := b.mtch.rndv ++ [{ sep := (s.queue g).ep, dfna := e.dfna, key := e.lkey, addr := e.laddr, entry := e.id }] } })

/-- R390 to R393, R395, R397, R399, R400, R402, R403. -/
def Obligations.CollectivesStartAndCombine : Prop :=
  (∀ (s : State) (row value : Nat), row < 4096 → coreUp s = true →
    (collOpenCheck s row (value ||| 2 ^ 255) = 0 → ∃ t, exec (.collGroupOpen row value) s = .next t ∧ WriteApplied s t ∧ Unfaulted s t ∧
      t = { s with regs := t.regs, coll := t.coll, ctl := t.ctl, mon := t.mon, latch := t.latch } ∧ OtherRows s t row ∧
      t.collRow row = { st := .waiting } ∧ t.reg Dict.COLL_GROUP row = (value ||| 2 ^ 255) &&& collRwBits) ∧
    (collOpenCheck s row (value ||| 2 ^ 255) ≠ 0 → ∃ t, exec (.collGroupOpen row value) s = .next t ∧
      WriteRefused s t (collOpenCheck s row (value ||| 2 ^ 255))) ∧
    (rowHeld (s.collRow row).st = true → collOpenCheck s row (value ||| 2 ^ 255) = 0x0C) ∧
    ((s.collRow row).ops = [] → ∃ t, exec (.collGroupClose row value) s = .next t ∧ WriteApplied s t ∧ Unfaulted s t ∧
      t = { s with regs := t.regs, coll := t.coll, ctl := t.ctl, mon := t.mon, latch := t.latch } ∧ OtherRows s t row ∧ t.collRow row = {} ∧
      cfgValid (t.reg Dict.COLL_GROUP row) = false) ∧
    ∀ g o e, LoneOp s row g o e → ∃ t, exec (.collGroupClose row value) s = .next t ∧ CompletedWith s t g e 0x85 o.wrote o.flags ∧
      OtherRows s t row ∧ t.collRow row = {} ∧ cfgValid (t.reg Dict.COLL_GROUP row) = false) ∧
  (∀ (s : State) (g : Nat) (e : Entry), MatchCommand s g e 0x60 →
    (collStatus s e ≠ 0 → ∃ t, exec (.collStart g) s = .next t ∧ CompletedWith s t g e (collStatus s e) 0 0 ∧ t.coll = s.coll) ∧
    (cfgValid (collCfg s (argRow e)) = false → collStatus s e = 0x81) ∧
    (cfgValid (collCfg s (argRow e)) = true → (s.collRow (argRow e)).st = .broken → collStatus s e = 0x80) ∧
    (cfgValid (collCfg s (argRow e)) = true → (s.collRow (argRow e)).st = .failed → collStatus s e = 0x85) ∧
    (cfgValid (collCfg s (argRow e)) = true → rowHeld (s.collRow (argRow e)).st = true →
      (cfgMember (collCfg s (argRow e)) = false → collStatus s e = 0x82) ∧
      (cfgMember (collCfg s (argRow e)) = true → cfgFunc (collCfg s (argRow e)) = e.func → cfgEp (collCfg s (argRow e)) = (s.queue e.queue).ep →
        collArgsOk e = false → collStatus s e = 0x83)) ∧
    (collStatus s e = 0 → e.inl = true → argResult e = false →
      ∃ t, exec (.collStart g) s = .next t ∧ (t.collRow (argRow e)).ops = (s.collRow (argRow e)).ops ++ [opOfEntry s e] ∧
        (t.collRow (argRow e)).subNext = bnumAdd (s.collRow (argRow e)).subNext (opOfEntry s e).blocks ∧ OtherRows s t (argRow e) ∧
        ((s.collRow (argRow e)).ops = [] → t = { s with queues := t.queues, coll := t.coll, mon := t.mon } ∧ Unfaulted s t) ∧
        ((s.collRow (argRow e)).st ≠ .ready → (t.collRow (argRow e)).blocks = (s.collRow (argRow e)).blocks))) ∧
  (∀ (s : State) (key r : Nat) (c : Chunk) (rest : List (Nat × Chunk)), s.lasts.toCp = (key, c) :: rest → r = fld (s.last key).outLabel 11 0 →
    (cfgValid (collCfg s r) = false ∨ fld (s.last key).outLabel 12 12 ≠ (s.collRow r).tree →
      ∃ t, exec .cpChunkArrive s = .next t ∧ t = { s with lasts := { s.lasts with toCp := rest }, mon := t.mon } ∧ Unfaulted s t) ∧
    (cfgValid (collCfg s r) = true → fld (s.last key).outLabel 12 12 = (s.collRow r).tree → bitAt (s.collRow r).flooded (s.collRow r).tree = false →
      c.bad = false →
      (bitAt c.tag 7 = false → (tget [] (s.collRow r).chunks key).length < 7 →
        ∃ t, exec .cpChunkArrive s = .next t ∧ t = { s with lasts := { s.lasts with toCp := rest }, coll := t.coll } ∧ OtherRows s t r ∧
          tget [] (t.collRow r).chunks key = tget [] (s.collRow r).chunks key ++ [c.data] ∧ (t.collRow r).blocks = (s.collRow r).blocks) ∧
      ∀ bytes h, bytes = (tget [] (s.collRow r).chunks key ++ [c.data]).flatMap (fun d => bytesBE d 56) → h = unpackColl (natBE (bytes.take 16)) →
        bitAt c.tag 7 = true → h.kind ≤ 1 → h.gid = cfgGid (collCfg s r) → h.tree = (s.collRow r).tree → (s.collRow r).restart = none →
        bnumDist (s.collRow r).next h.bnum < cfgW (collCfg s r) → (∀ b ∈ (s.collRow r).blocks, b.bnum ≠ h.bnum) →
        ∃ t, exec .cpChunkArrive s = .next t ∧ t = { s with lasts := { s.lasts with toCp := rest }, coll := t.coll } ∧ OtherRows s t r ∧
          (t.collRow r).blocks = (s.collRow r).blocks ++
            [{ bnum := h.bnum, ins := [{ port := lastIn key, hdr := h, data := (bytes.drop 16).take (h.count * elemBytes h.dtype) }] }])) ∧
  (∀ (s : State) (row : Nat) (b : CollBlock), row < 4096 → (s.collRow row).blocks.find? (fun b => b.bnum = (s.collRow row).next) = some b →
    ((s.collRow row).st ≠ .ready ∨ (s.collRow row).due.isSome ∨ b.ins.length < inputsWanted (collCfg s row) (s.collRow row).tree →
      exec (.blockCombineDone row) s = .next s) ∧
    ((s.collRow row).st = .ready → (s.collRow row).due = none → inputsWanted (collCfg s row) (s.collRow row).tree ≤ b.ins.length →
      (cfgRoot (collCfg s row) = false → ∃ t chunks, exec (.blockCombineDone row) s = .next t ∧
        t = { s with coll := t.coll, lasts := t.lasts, mon := t.mon } ∧ Unfaulted s t ∧ OtherRows s t row ∧
        t.collRow row = { s.collRow row with next := bnumAdd (s.collRow row).next 1
                                             blocks := (s.collRow row).blocks.filter fun y => y.bnum ≠ b.bnum } ∧
        OtherLasts s t (409600 + cfgUp (collCfg s row) (s.collRow row).tree) ∧
        (t.last (409600 + cfgUp (collCfg s row) (s.collRow row).tree)).queue =
          (s.last (409600 + cfgUp (collCfg s row) (s.collRow row).tree)).queue ++ chunks ∧
        (chunks.flatMap fun c => bytesBE c.data 56).take (16 + (combine b.ins (s.collRow row).tree).data.length) =
          bytesBE (packColl (combine b.ins (s.collRow row).tree).hdr) 16 ++ (combine b.ins (s.collRow row).tree).data ∧
        ∀ i c, chunks[i]? = some c → (bitAt c.tag 7 = true ↔ i + 1 = chunks.length)) ∧
      (cfgRoot (collCfg s row) = true → cfgMember (collCfg s row) = false → ∃ t, exec (.blockCombineDone row) s = .next t ∧
        SentFromCp s t 0x61 (cfgDown (collCfg s row) (s.collRow row).tree) { (combine b.ins (s.collRow row).tree).hdr with kind := 2 }
          (combine b.ins (s.collRow row).tree).data ∧
        (t.collRow row).next = bnumAdd (s.collRow row).next 1 ∧ OtherRows s t row ∧
        (t.collRow row).results.head? = some { combine b.ins (s.collRow row).tree with
          hdr := { (combine b.ins (s.collRow row).tree).hdr with kind := 2 } }))) ∧
  (∀ (l l' : List CollIn) (tree : Nat), l.Perm l' → (l.map (·.port)).Nodup → combine l tree = combine l' tree) ∧
  (∀ (d : CollIn) (rest : List CollIn) (tree : Nat), (d :: rest).Pairwise (fun a b => a.port < b.port) → (∀ i ∈ d :: rest, i.port ≤ 96 ∧
      i.hdr.kind = 0 ∧ i.hdr.void = false ∧ sameShape d.hdr i.hdr = true) → d.hdr.op ≠ 15 →
    (combine (d :: rest) tree).data = rest.foldl (fun acc i => blockStep d.hdr.dtype d.hdr.op acc i.data) d.data ∧
    (combine (d :: rest) tree).hdr.void = false ∧ (combine (d :: rest) tree).hdr.count = d.hdr.count) ∧
  ∀ dtype op x y z : Nat, pairAllowed dtype op = true → (3 ≤ dtype → op ≠ 0) → x < 256 ^ elemBytes dtype → y < 256 ^ elemBytes dtype →
    z < 256 ^ elemBytes dtype → elemStep dtype op x y = elemStep dtype op y x ∧
    elemStep dtype op (elemStep dtype op x y) z = elemStep dtype op x (elemStep dtype op y z)

/-- R401, R404 to R407, R411 to R415. -/
def Obligations.CollectivesDeliverAndBreak : Prop :=
  (∀ (s : State) (r : Nat) (h : CollHdr) (data : List Byte), CollHere s 0x61 r h data →
    (cfgMember (collCfg s r) = false → exec .resultReceive s = .next (takeDelivered s 100)) ∧
    (cfgMember (collCfg s r) = true → (s.collRow r).ops = [] → exec .resultReceive s = .next (takeDelivered s 100)) ∧
    ∀ g o e, cfgMember (collCfg s r) = true → LoneOp s r g o e → o.result = false → o.coll ≤ 3 → o.got = [] → o.void = false →
      o.blocks = o.low + 1 → bnumDist o.first h.bnum = o.low →
      (h.void = false → ∃ t, exec .resultReceive s = .next t ∧
        CompletedWith s t g e 0 o.wrote { o with alt := o.alt || (h.tree = 1 && !h.replay) }.flags ∧ (t.collRow r).ops = [] ∧
        OtherRows s t r ∧ tget [] t.sw.delivered 100 = (tget [] s.sw.delivered 100).drop 1) ∧
      (h.void = true → ∃ t, exec .resultReceive s = .next t ∧
        CompletedWith s t g e 0x87 o.wrote { o with alt := o.alt || (h.tree = 1 && !h.replay) }.flags ∧ (t.collRow r).ops = [] ∧
        bitAt (evregGet t.mon.evreg Dict.COLL_EVENTS 0) 5 = true ∧
        (Loggable s 0x0D04 0 0 → ownRaise s 0x0D04 0 0 0 ∈ t.mon.fault.queue))) ∧
  (∀ (s : State) (r g : Nat) (h : CollHdr) (data : List Byte) (o : CollOp) (e : Entry), CollHere s 0x64 r h data → LoneOp s r g o e →
    o.coll = 4 → o.first = h.bnum → o.result = false → h.aux < 2 ^ 17 →
    (h.aux ∈ o.pieces → ∃ t, exec .pieceReceive s = .next t ∧ t = { takeDelivered s 100 with mon := t.mon } ∧ Unfaulted s t) ∧
    (h.aux ∉ o.pieces →
      (o.gathered = false ∨ o.pieces.length + 1 < cfgMembers (collCfg s r) → o.low = o.blocks → o.void = false →
        ∃ t, exec .pieceReceive s = .next t ∧ (t.collRow r).ops = [{ o with pieces := o.pieces ++ [h.aux] }] ∧ OtherRows s t r) ∧
      (o.gathered = true → o.pieces.length + 1 = cfgMembers (collCfg s r) → o.low = o.blocks → o.void = false →
        ∃ t, exec .pieceReceive s = .next t ∧ (t.collRow r).ops = [] ∧ CompletedWith s t g e 0 o.wrote o.flags))) ∧
  (∀ (s : State) (r : Nat) (h : CollHdr) (data : List Byte), CollHere s 0x63 r h data →
    (rowHeld (s.collRow r).st = false ∨ (s.collRow r).tree ≠ h.tree ∨ bitAt (s.collRow r).flooded h.tree = true →
      exec .floodReceive s = .next (takeDelivered s 100)) ∧
    (rowHeld (s.collRow r).st = true → (s.collRow r).tree = h.tree → bitAt (s.collRow r).flooded h.tree = false →
      (cfgRetry (collCfg s r) = true → cfgAltValid (collCfg s r) = true → h.tree = 0 → (s.collRow r).st ≠ .switching →
        (cfgRoot (collCfg s r) = false → ∃ t, exec .floodReceive s = .next t ∧
          t.collRow r = floodedRow (s.collRow r) h.tree (.switching, 0) ∧ OtherRows s t r ∧ t.mon = s.mon ∧
          (t.last (409600 + cfgUp (collCfg s r) h.tree)).queue = [] ∧ OtherLasts s t (409600 + cfgUp (collCfg s r) h.tree)) ∧
        (cfgRoot (collCfg s r) = true → (s.collRow r).results = [] → ∃ t k, exec .floodReceive s = .next t ∧
          t.collRow r = { floodedRow (s.collRow r) h.tree (.switching, 0) with
            restart := some (s.collRow r).next, repeats := (s.collRow r).repeats ++ [k] } ∧ OtherRows s t r ∧ t.lasts = s.lasts ∧
          SentFromCp s t 0x62 (cfgDown (collCfg s r) 1) k.hdr [] ∧ k.hdr.kind = 4 ∧ k.hdr.bnum = (s.collRow r).next ∧ k.hdr.aux = 0 ∧
          k.opc = 0x62 ∧ k.left = 2 ∧ k.at' = s.time.count)) ∧
      (cfgRetry (collCfg s r) = false ∨ cfgAltValid (collCfg s r) = false ∨ h.tree ≠ 0 → ∃ t, exec .floodReceive s = .next t ∧
        t.collRow r = floodedRow (s.collRow r) h.tree (.broken, 0x0D01) ∧ OtherRows s t r ∧ t.mon = s.mon))) ∧
  (∀ (s : State) (r : Nat) (h : CollHdr) (data : List Byte), CollHere s 0x62 r h data →
    ((s.collRow r).st = .switching → (s.collRow r).restart = none → cfgRoot (collCfg s r) = false → ∃ t, exec .restartReceive s = .next t ∧
      t = { takeDelivered s 100 with coll := t.coll } ∧ t.collRow r = { s.collRow r with restart := some h.bnum } ∧ OtherRows s t r) ∧
    ((s.collRow r).restart.isSome ∨ cfgRoot (collCfg s r) = true ∨
        ((s.collRow r).st ≠ .switching ∧ (s.collRow r).due = none) → exec .restartReceive s = .next (takeDelivered s 100))) ∧
  (∀ (s : State) (row : Nat) (k : CollRepeat), row < 4096 → (s.collRow row).repeats = [k] →
    (k.at' + 16 ≤ s.time.count → ∃ t, exec (.floodRepeat row) s = .next t ∧ SentFromCp s t k.opc k.mc k.hdr [] ∧ OtherRows s t row ∧
      (t.collRow row).repeats = (if k.left ≤ 1 then [] else [{ k with left := k.left - 1, at' := s.time.count }])) ∧
    (s.time.count < k.at' + 16 → k.left ≠ 0 → ∃ t, exec (.floodRepeat row) s = .next t ∧ t = { s with coll := t.coll } ∧
      ∀ r, t.collRow r = s.collRow r)) ∧
  (∀ (s : State) (row : Nat), row < 4096 →
    ((s.collRow row).st = .switching → (s.collRow row).due = none → (s.collRow row).restart = none →
      (s.collRow row).switchAt + s.reg Dict.COLL_RESTART_WAIT_ST ≤ s.time.count →
      ∃ t, exec (.restartWaitTimeout row) s = .next t ∧ t.collRow row = { s.collRow row with due := some (.broken, 0x0D02) } ∧
        OtherRows s t row ∧ t = { s with coll := t.coll, mon := t.mon } ∧ (Loggable s 0x0D02 0 0 → Logged s t 0x0D02 0 0 0)) ∧
    ((s.collRow row).st ≠ .switching ∨ (s.collRow row).restart.isSome ∨
        s.time.count < (s.collRow row).switchAt + s.reg Dict.COLL_RESTART_WAIT_ST → exec (.restartWaitTimeout row) s = .next s) ∧
    ((∀ o ∈ (s.collRow row).ops, s.time.count < o.startAt + s.reg Dict.COLL_OP_TIMEOUT_ST) → exec (.collOpTimeout row) s = .next s) ∧
    ∀ g o e, LoneOp s row g o e → o.startAt + s.reg Dict.COLL_OP_TIMEOUT_ST ≤ s.time.count →
      (o.coll ≠ 4 ∨ o.low < o.blocks → ∃ t, exec (.collOpTimeout row) s = .next t ∧ CompletedWith s t g e 0x84 o.wrote o.flags ∧
        (t.collRow row).ops = [] ∧ (t.collRow row).due = some (.failed, 0x0D03) ∧ OtherRows s t row ∧
        bitAt (evregGet t.mon.evreg Dict.COLL_EVENTS 0) 3 = true ∧
        (Loggable s 0x0D03 7 row → ownRaise s 0x0D03 7 row 0 ∈ t.mon.fault.queue)) ∧
      (o.coll = 4 → o.blocks ≤ o.low → ∃ t, exec (.collOpTimeout row) s = .next t ∧ CompletedWith s t g e 0x86 o.wrote o.flags ∧
        (t.collRow row).ops = [] ∧ (t.collRow row).due = (s.collRow row).due ∧ OtherRows s t row ∧
        (Loggable s 0x0D07 0 0 → ownRaise s 0x0D07 0 0 0 ∈ t.mon.fault.queue)))

/-- R420, R422 to R426, R428, R430, R432, R433, R448. -/
def Obligations.SemaphoresPerformed : Prop :=
  (∀ (s : State) (func agent word : Nat) (i : Instr), Reaches s func → agent < 4096 →
    (fld word 31 30 = 1 ∧ i = .semAcquire (.page func agent word)) ∨ (fld word 31 30 = 2 ∧ i = .semTry (.page func agent word)) ∨
      (fld word 31 30 = 3 ∧ i = .semRelease (.page func agent word)) →
    ((tget {} s.sem.pages (pageKey func agent)).pending = false → fld word 25 24 = 0 → fld word 15 12 = 0 →
      ∃ t op, exec i s = .next t ∧ t = { s with sem := t.sem } ∧ t.sem.ops = s.sem.ops ++ [op] ∧ op.who = .h func agent ∧
        op.sem = fld word 11 0 ∧ op.tag = fld word 23 16 ∧ (fld word 31 30 ≠ 3 → op.prio = fld word 28 26) ∧
        op.verb = (if fld word 31 30 = 1 then .acquire else if fld word 31 30 = 2 then .try else .release) ∧
        op.notify = (bitAt word 29 && decide (fld word 31 30 = 1)) ∧ t.sem.sems = s.sem.sems ∧
        tget {} t.sem.pages (pageKey func agent) =
          { tget {} s.sem.pages (pageKey func agent) with pending := true, status := 0, tag := fld word 23 16, sem := fld word 11 0 }) ∧
    ((tget {} s.sem.pages (pageKey func agent)).pending = true ∨ fld word 25 24 ≠ 0 ∨ fld word 15 12 ≠ 0 →
      ∃ t, exec i s = .next t ∧ t = { s with mon := t.mon } ∧ (Loggable s 0x0E04 3 func → Logged s t 0x0E04 3 func 0) ∧
        bitAt (evregGet t.mon.evreg Dict.SEM_EVENTS 0) 3 = true)) ∧
  (∀ (s : State) (core agent prio sem : Nat), core < 8 → sem < 4096 → prio < 8 → bitAt s.exe.halted core = false →
    exec (.semAcquire (.core core agent prio sem)) s =
      .next { s with sem := { s.sem with ops := s.sem.ops ++ [{ verb := .acquire, who := .k core agent, sem := sem, prio := prio }] } } ∧
    exec (.semTry (.core core agent prio sem)) s =
      .next { s with sem := { s.sem with ops := s.sem.ops ++ [{ verb := .try, who := .k core agent, sem := sem, prio := prio }] } } ∧
    exec (.semRelease (.core core agent prio sem)) s =
      .next { s with sem := { s.sem with ops := s.sem.ops ++ [{ verb := .release, who := .k core agent, sem := sem, prio := prio }] } }) ∧
  (∀ (s : State) (op : SemOp), BankHas s op → ∃ t, exec .semBankPerform s = .next t ∧ OtherSems s t op.sem ∧
    (semAllowed s op.sem op.who = false → SemDone t op 0x03 ∧ semOf t op.sem = semOf s op.sem) ∧
    (semAllowed s op.sem op.who = true →
      (op.verb ≠ .release → (semOf s op.sem).st ≠ .held → SemDone t op (if (semOf s op.sem).st = .free then 0x10 else 0x11) ∧
        semOf t op.sem = { st := .held, owner := some op.who, ownerPrio := op.prio, ceiling := op.prio, grantAt := s.time.count }) ∧
      ((op.verb = .try ∧ (semOf s op.sem).st = .held) ∨ (op.verb = .acquire ∧ (semOf s op.sem).st = .held ∧
          ((semOf s op.sem).owner = some op.who ∨ waitsAnywhere s op.who = true ∨ 16384 ≤ waitersTotal s)) →
        SemDone t op 0x12 ∧ semOf t op.sem = semOf s op.sem) ∧
      (op.verb = .acquire → (semOf s op.sem).st = .held → (semOf s op.sem).owner ≠ some op.who → waitsAnywhere s op.who = false →
        waitersTotal s < 16384 → semOf t op.sem = { semOf s op.sem with
          waiters := (semOf s op.sem).waiters ++ [{ who := op.who, prio := op.prio, notify := op.notify, tag := op.tag, req := op.req }]
          ceiling := max (semOf s op.sem).ceiling op.prio } ∧
        ∀ f a, op.who = .h f a → (tget {} t.sem.pages (pageKey f a)).status = 0x13 ∧ (tget {} t.sem.pages (pageKey f a)).waiting = true) ∧
      (op.verb = .release → (semOf s op.sem).st = .held → (semOf s op.sem).owner = some op.who →
        SemDone t op 0x00 ∧
        ((semOf s op.sem).waiters = [] → semOf t op.sem = {}) ∧
        ∀ w, FirstWaiter (semOf s op.sem).waiters w → (semOf t op.sem).st = .held ∧ (semOf t op.sem).owner = some w.who ∧
          (semOf t op.sem).ownerPrio = w.prio ∧ (semOf t op.sem).waiters = (semOf s op.sem).waiters.erase w) ∧
      (op.verb = .release → ¬((semOf s op.sem).st = .held ∧ (semOf s op.sem).owner = some op.who) → SemDone t op 0x14 ∧
        ((∀ w ∈ (semOf s op.sem).waiters, w.who ≠ op.who) → semOf t op.sem = semOf s op.sem) ∧
        ∀ w, (semOf s op.sem).waiters.find? (fun w => w.who = op.who) = some w →
          (semOf t op.sem).waiters = (semOf s op.sem).waiters.erase w ∧ (semOf t op.sem).owner = (semOf s op.sem).owner ∧
          (semOf t op.sem).st = (semOf s op.sem).st))) ∧
  (∀ (s : State) (r : MReset) (n : Nat) (x : Sem) (o : Master), s.sem.resets = [r] → s.sem.ops = [] → s.sem.sems = [(n, x)] → x.st = .held →
    x.owner = some o → (resetHits r o = false → x.waiters = [] → x.ceiling = x.ownerPrio →
      ∃ t, exec .semBankPerform s = .next t ∧ semOf t n = x ∧ Unfaulted s t) ∧
    (resetHits r o = true → x.waiters.filter (fun w => !resetHits r w.who) = [] →
      ∃ t, exec .semBankPerform s = .next t ∧ semOf t n = { st := .abandoned } ∧ (Loggable s 0x0E01 0 0 → Logged s t 0x0E01 0 0 0)) ∧
    ∀ w, resetHits r o = true → FirstWaiter (x.waiters.filter fun w => !resetHits r w.who) w →
      ∃ t, exec .semBankPerform s = .next t ∧ (semOf t n).st = .held ∧ (semOf t n).owner = some w.who ∧
        (∀ f a, w.who = .h f a → (tget {} t.sem.pages (pageKey f a)).gStatus = 0x11)) ∧
  (∀ (s : State) (func value : Nat) (r : EvRing) (n : Nat), Reaches s func → r = tget {} s.sem.rings func →
    n = 2 ^ fld (s.reg Dict.SEM_EVRING func) 111 108 →
    (consumerOk n r.cons r.prod value = true → value = r.prod → ∃ t, exec (.evrConsumerWrite func value) s = .next t ∧
      t = { s with sem := t.sem } ∧ tget {} t.sem.rings func = { r with cons := value, armed := true }) ∧
    (consumerOk n r.cons r.prod value = true → value ≠ r.prod → ∃ t, exec (.evrConsumerWrite func value) s = .next t ∧
      tget {} t.sem.rings func = { r with cons := value, armed := false }) ∧
    (consumerOk n r.cons r.prod value = false → r.cons = r.prod → ∃ t, exec (.evrConsumerWrite func value) s = .next t ∧
      t = { s with sem := t.sem } ∧ tget {} t.sem.rings func = { r with armed := true })) ∧
  ∀ (s : State) (sem : Nat), sem < 4096 →
    ((semOf s sem).st ≠ .held → ∃ t, exec (.semStateParityError sem) s = .next t ∧ t = { s with mon := t.mon } ∧
      (Loggable s 0x0E07 8 sem → Logged s t 0x0E07 8 sem 0)) ∧
    ((semOf s sem).st = .held → (semOf s sem).waiters = [] → (semOf s sem).ceiling = (semOf s sem).ownerPrio →
      ∃ t, exec (.semStateParityError sem) s = .next t ∧ t = { s with sem := t.sem, mon := t.mon } ∧ OtherSems s t sem ∧
        semOf t sem = { st := .abandoned } ∧ (Loggable s 0x0E07 8 sem → Logged s t 0x0E07 8 sem 0))

/-- R436 to R441, R445, R448. -/
def Obligations.ClaimsJudged : Prop :=
  (∀ (s : State), ∃ t, exec .claimPresent s = .next t ∧ t.mon.fault = s.mon.fault ∧
    ∀ k, k < 12 → (∀ n, n ∈ tget [] t.mon.claim.presented k ↔ n ∈ knownSources s ∧ isPending s n = true ∧ (claimRow s n).masked = false ∧
        (claimRow s n).inService = false ∧ targetsOf (claimRow s n) k = true ∧ tget 0 s.mon.claim.thresholds k < (claimRow s n).prio) ∧
      (8 ≤ k → tget [] t.mon.claim.presented k ≠ [] → bitAt t.mon.claim.armed (k - 8) = false) ∧
      (8 ≤ k → tget [] t.mon.claim.presented k = [] → bitAt t.mon.claim.armed (k - 8) = bitAt s.mon.claim.armed (k - 8))) ∧
  (∀ (s : State) (k : Nat), TargetReaches s k →
    (tget [] s.mon.claim.presented k = [] → ∃ t, exec (.claimRead k) s = .next t ∧ t = { s with mon := t.mon, out := .claim k 0 :: s.out } ∧
      t.mon.claim.rows = s.mon.claim.rows ∧ (8 ≤ k → bitAt t.mon.claim.armed (k - 8) = true)) ∧
    ∀ n, CountsQuietly s → n ∈ tget [] s.mon.claim.presented k → (tget [] s.mon.claim.presented k).Pairwise (· < ·) →
      (∀ m ∈ tget [] s.mon.claim.presented k, (claimRow s m).prio < (claimRow s n).prio ∨ ((claimRow s m).prio = (claimRow s n).prio ∧ n ≤ m)) →
      ∃ t v, exec (.claimRead k) s = .next t ∧ t = { s with mon := t.mon, out := .claim k v :: s.out } ∧
        t.mon.claim.armed = s.mon.claim.armed ∧ tget [] t.mon.claim.presented k = (tget [] s.mon.claim.presented k).erase n ∧
        (∀ m, m ≠ n → claimRow t m = claimRow s m) ∧
        ((claimRow s n).inService = true → v = 1023 ∧ claimRow t n = claimRow s n) ∧
        ((claimRow s n).inService = false → (claimRow s n).masked = true ∨ targetsOf (claimRow s n) k = false → v = 1022 ∧ claimRow t n = claimRow s n) ∧
        ((claimRow s n).inService = false → (claimRow s n).masked = false → targetsOf (claimRow s n) k = true →
          (isPending s n = false → (v = if (claimRow s n).sense then 1022 else 1023) ∧ claimRow t n = claimRow s n) ∧
          (isPending s n = true → v = n ∧ claimRow t n = { claimRow s n with pending := false, inService := true, claimant := k }))) ∧
  (∀ (s : State) (k n : Nat), TargetReaches s k →
    (1 ≤ n → n ≤ 1019 → (claimRow s n).inService = true → (claimRow s n).claimant = k → ∃ t, exec (.claimComplete k n) s = .next t ∧
      t = { s with mon := t.mon } ∧ claimRow t n = { claimRow s n with inService := false, claimant := 0 } ∧
      (∀ m, m ≠ n → claimRow t m = claimRow s m) ∧ Unfaulted s t) ∧
    (n < 1024 → n = 0 ∨ 1019 < n ∨ (claimRow s n).inService = false ∨ (claimRow s n).claimant ≠ k → ∃ t, exec (.claimComplete k n) s = .next t ∧
      t = { s with mon := t.mon } ∧ (Loggable s 0x0E06 0 0 → Logged s t 0x0E06 0 0 0) ∧
      bitAt (evregGet t.mon.evreg Dict.SEM_EVENTS 0) 5 = true) ∧
    (CountsQuietly s → 1 ≤ n → n ≤ 1019 → reservedSource n = false → ∃ t, exec (.claimPendset k n) s = .next t ∧ t = { s with mon := t.mon } ∧ Unfaulted s t ∧
      claimRow t n = { claimRow s n with pending := true } ∧ ∀ m, m ≠ n → claimRow t m = claimRow s m) ∧
    (n < 1024 → n = 0 ∨ 1019 < n → exec (.claimPendset k n) s = .next s)) ∧
  ∀ (s : State) (n : Nat), 1 ≤ n → n ≤ 1019 → reservedSource n = false →
    ∃ t, exec (.claimRowParityError n) s = .next t ∧ t = { s with mon := t.mon } ∧
      (Loggable s 0x0E05 7 n → Logged s t 0x0E05 7 n 0) ∧ bitAt (evregGet t.mon.evreg Dict.SEM_EVENTS 0) 4 = true ∧
      (claimRow t n).pending = true ∧ (claimRow t n).targetsK = (if 300 ≤ n ∧ n ≤ 349 then 0x40 else 0) ∧ (claimRow t n).inService = false ∧
      (claimRow t n).prio = 8 ∧ (claimRow t n).masked = false

/-- R450, R453 to R459, R463, R469. -/
def Obligations.FaultsLoggedAndAcknowledged : Prop :=
  (∀ (s : State), (s.mon.fault.queue = [] ∨ 16 ≤ s.mon.fault.logged → exec .faultLogRaise s = .next s) ∧
    ∀ r rest, s.mon.fault.queue = r :: rest → s.mon.fault.logged < 16 → s.mon.fault.lostRaises = 0 → (trackedKeys s.mon.fault).length < 1024 →
      ∃ t x, exec .faultLogRaise s = .next t ∧ t.mon.fault.log.head? = some x ∧ t.mon.fault.queue = rest ∧
        t.mon.fault.logged = s.mon.fault.logged + 1 ∧ t.mon.fault.seq = (s.mon.fault.seq + 1) % 2 ^ 32 ∧
        t.mon.fault.unacked = s.mon.fault.unacked ++ [x] ∧ x.code = r.code ∧ x.scope = r.scope ∧ x.inst = r.inst ∧ x.stitch = r.stitch ∧
        x.inj = r.inj ∧ x.seq = s.mon.fault.seq ∧ x.ack = false ∧ x.loggedAt = s.time.count ∧
        (x.esc = true ↔ keyStands s.mon.fault (faultKey r.code r.scope r.inst) = true ∧ r.cls ≠ .fatal) ∧
        x.cls = (if x.esc then r.cls.above else r.cls) ∧
        t.mon.fault.copyQ = (if x.cls = .corrected then s.mon.fault.copyQ else s.mon.fault.copyQ ++ [x]) ∧
        (t.mon.fault.faultN = true ↔ s.mon.fault.faultN = true ∨ x.cls ≠ .corrected) ∧
        (if x.cls ≠ .corrected ∨ s.reg Dict.FAULT_HISTORY_CORRECTED = 1 then
            ∃ h, t.mon.fault.history.head? = some h ∧ h.kind = 0 ∧ h.code = x.code ∧ h.cls = x.cls.code ∧ h.esc = x.esc ∧ h.scope = x.scope ∧
              h.inst = x.inst ∧ h.stitch = x.stitch
         else t.mon.fault.history = s.mon.fault.history) ∧
        (x.cls = .fatal → r.act = true → s.mon.fault.fatal = false → s.mon.fault.fatalDue = none → t.mon.fault.fatalDue = some x.code) ∧
        (x.cls = .contained → x.esc = true → r.act = true → r.scope = 1 → r.inst < 96 → (s.link r.inst).st ≠ .down → (s.link r.inst).due = none →
          (t.link r.inst).due = some .isolated ∨ r.inj = true) ∧
        (x.cls = .corrected → t.links = s.links)) ∧
  (∀ (s : State), (bitAt s.exe.halted 6 = true → exec .faultAckSlice s = .next s) ∧
    (∀ r : FRecord, r.cls = .corrected → mayAck s r = true) ∧ (∀ r : FRecord, r.cls = .fatal → mayAck s r = false) ∧
    (∀ r : FRecord, r.cls = .contained → s.time.count < r.loggedAt + s.reg Dict.FAULT_UC_HOLD_ST → mayAck s r = false) ∧
    (bitAt s.exe.halted 6 = false → (s.mon.fault.unacked.map (·.seq)).Nodup → (s.mon.fault.unacked.filter (mayAck s)).length ≤ 32 →
      ∃ t, exec .faultAckSlice s = .next t ∧ t = { s with mon := t.mon } ∧ t.mon.fault.unacked = s.mon.fault.unacked.filter (fun r => !mayAck s r) ∧
        t.mon.fault.queue = s.mon.fault.queue ∧
        t.mon.fault.log = s.mon.fault.log.map fun x =>
          if (s.mon.fault.unacked.filter (mayAck s)).any (fun a => a.seq = x.seq) then { x with ack := true } else x)) ∧
  (∀ (s : State) (ok : Bool), (s.mon.fault.copyQ = [] → exec (.faultRecordCopy ok) s = .next s) ∧
    ∀ r rest, s.mon.fault.copyQ = r :: rest → ∃ t, exec (.faultRecordCopy ok) s = .next t ∧ t.mon.fault.copyQ = rest ∧
      t = { s with exe := t.exe, mon := t.mon } ∧ t.exe.halted = (if r.cls = .fatal then 0xFF else s.exe.halted) ∧
      (ok = true → tget {} t.mon.fault.records s.mon.fault.recordsNext = r ∧ t.mon.fault.recordsNext = (s.mon.fault.recordsNext + 1) % 32768 ∧
        t.mon.fault.queue = s.mon.fault.queue ∧
        ∀ k, k ≠ s.mon.fault.recordsNext → tget {} t.mon.fault.records k = tget {} s.mon.fault.records k) ∧
      (ok = false → t.mon.fault.records = s.mon.fault.records ∧ t.mon.fault.recordsNext = s.mon.fault.recordsNext ∧
        (Loggable s 0x0F06 0 0 → Logged s t 0x0F06 0 0 r.seq))) ∧
  (∀ (s : State) (v : Nat), s.pwr.off = false →
    (v ≤ 1 → ∃ t, exec (.faultNClear v) s = .next t ∧ WriteApplied s t ∧ t = { s with mon := t.mon, ctl := t.ctl, latch := t.latch } ∧
      t.mon.fault = { s.mon.fault with faultN := s.mon.fault.faultN && !(v = 1 && !s.mon.fault.fatal) }) ∧
    (v ≤ 1 → ∃ t, exec (.faultHistoryClear v) s = .next t ∧ WriteApplied s t ∧ t = { s with mon := t.mon, ctl := t.ctl, latch := t.latch } ∧
      t.mon.fault = (if v = 1 then { s.mon.fault with history := [], fatalCode := 0 } else s.mon.fault)) ∧
    (1 < v → (∃ t, exec (.faultNClear v) s = .next t ∧ WriteRefused s t 6) ∧ ∃ t, exec (.faultHistoryClear v) s = .next t ∧ WriteRefused s t 6)) ∧
  ∀ (s : State), Loggable s 0x0F05 0 0 → ∃ t, exec .faultStateParityError s = .next t ∧ t = { s with mon := t.mon } ∧
    Logged s t 0x0F05 0 0 0 ∧ (ownRaise s 0x0F05 0 0 0).cls = .fatal

/-- R459, R462, R464 to R466, R468, R469. -/
def Obligations.HarmlessStatesEntered : Prop :=
  (∀ (s : State), s.pwr.off = false → s.mon.fault.isolated = false → s.mon.fault.isolateDue = none → s.mon.fault.fatal = false →
    s.mon.fault.fatalDue = none → ∃ t, exec (.faultDeviceIsolate 1) s = .next t ∧ WriteApplied s t ∧
      t = { s with mon := t.mon, ctl := t.ctl, latch := t.latch } ∧ t.mon.fault.isolateDue = some 0x0F07 ∧
      (Loggable s 0x0F07 0 0 → Logged s t 0x0F07 0 0 0)) ∧
  (∀ (s : State), s.pwr.off = false →
    (s.mon.fault.fatal = true ∨ s.mon.fault.hold = true ∨ s.mon.fault.mv < 700 →
      ∃ t, exec (.faultDeviceRelease 1) s = .next t ∧ WriteRefused s t 0x0C) ∧
    (s.mon.fault.fatal = false → s.mon.fault.hold = false → 700 ≤ s.mon.fault.mv → s.mon.fault.isolated = true →
      ∃ t, exec (.faultDeviceRelease 1) s = .next t ∧ WriteApplied s t ∧ t.mon.fault.isolated = false ∧ t.mon.fault.isolateDue = none ∧
        t.mon.fault.isolateN = false ∧ t.host.held = [] ∧ t.pwr.departed = false ∧ t.regs = s.regs ∧ faultState t = 0 ∧
        t.mon.fault.history.head? = some { kind := 1, code := 0, stitch := s.time.count } ∧
        ∀ p, p < 96 → (s.lane p).st = .up → (s.link p).st = .isolated → (t.link p).st = .listening)) ∧
  (∀ (s : State) (p : Nat), s.pwr.off = false → p < 96 → (s.link p).st ≠ .down →
    ∃ t, exec (.faultPortIsolate p 1) s = .next t ∧ WriteApplied s t ∧ (t.link p).st = .isolated ∧ (Loggable s 0x0F07 1 p → Logged s t 0x0F07 1 p 0)) ∧
  (∀ (s : State) (v : Nat), s.pwr.off = false →
    (s.reg Dict.PMAP_DEBUG_LOCK = 0 → ∃ t, exec (.faultInject v) s = .next t ∧ WriteRefused s t 0x0C) ∧
    (s.reg Dict.PMAP_DEBUG_LOCK ≠ 0 → fld v 47 46 = 3 ∨ 12 ≤ fld v 43 40 → ∃ t, exec (.faultInject v) s = .next t ∧ WriteRefused s t 6) ∧
    (s.reg Dict.PMAP_DEBUG_LOCK ≠ 0 → fld v 47 46 ≠ 3 → fld v 43 40 < 12 → Loggable s (fld v 63 48) (fld v 43 40) (fld v 23 0) →
      ∃ t r, exec (.faultInject v) s = .next t ∧ WriteApplied s t ∧ t = { s with mon := t.mon, ctl := t.ctl, latch := t.latch } ∧
        t.mon.fault.queue = s.mon.fault.queue ++ [r] ∧ r.code = fld v 63 48 ∧ r.cls.code = fld v 47 46 ∧ r.scope = fld v 43 40 ∧ r.inst = fld v 23 0 ∧
        r.inj = true ∧ r.act = bitAt v 45 ∧ r.stitch = s.time.count ∧ r.detail = 0)) ∧
  (∀ (s : State) (mv : Nat), ∃ t, exec (.supplyWarningCross mv) s = .next t ∧ t = { s with mon := t.mon } ∧ t.mon.fault.mv = mv ∧ t.mon.fault.hold = s.mon.fault.hold ∧
    t.mon.fault.queue = s.mon.fault.queue ∧
    (s.mon.fault.fatal = true ∨ s.mon.fault.fatalDue.isSome → t.mon.fault.holdDue = s.mon.fault.holdDue ∧ t.mon.fault.fatalDip = max 1 s.mon.fault.fatalDip) ∧
    (s.mon.fault.fatal = false → s.mon.fault.fatalDue = none →
      (s.mon.fault.hold = false → t.mon.fault.holdDue = true) ∧ (s.mon.fault.hold = true → t.mon.fault.holdDue = s.mon.fault.holdDue) ∧
      (inDip s.mon.fault = false → t.mon.fault.lowest = mv) ∧ (inDip s.mon.fault = true → t.mon.fault.lowest = min s.mon.fault.lowest mv))) ∧
  (∀ (s : State), (s.mon.fault.fatal = false → s.mon.fault.hold = false → exec .holdResume s = .next s) ∧
    (s.mon.fault.fatal = true → ∃ t, exec .holdResume s = .next t ∧ t = { s with mon := t.mon } ∧ t.mon.fault.fatalDip = 0 ∧ t.mon.fault.fatal = true ∧
      (s.mon.fault.fatalDip = 1 → t.mon.fault.history.head? = some { kind := 0, code := 0x0F01 })) ∧
    (s.mon.fault.fatal = false → s.mon.fault.hold = true → ∃ t, exec .holdResume s = .next t ∧ t.mon.fault.hold = false ∧ t.regs = s.regs ∧
      (∀ p, p < 96 → (s.link p).st = .hold → (s.link p).holdLost = false → (s.link p).holdAdmit = none →
        (s.link p).held = .quarantine ∨ (s.link p).held = .admitted → (t.link p).st = (s.link p).held) ∧
      (Loggable s 0x0F01 0 0 →
        Logged s t 0x0F01 0 0 (s.mon.fault.lowest % 65536 + ((s.time.count - s.mon.fault.holdAt) % 2 ^ 32) * 65536)))) ∧
  (∀ (s : State),
    (s.mon.fault.hold = false ∨ s.mon.fault.holdLong = true ∨ s.time.count < s.mon.fault.holdAt + 9766 → exec .supplyHoldLong s = .next s) ∧
    (s.mon.fault.hold = true → s.mon.fault.holdLong = false → s.mon.fault.holdAt + 9766 ≤ s.time.count → s.mon.fault.isolated = false →
      s.mon.fault.isolateDue = none → s.mon.fault.fatal = false → s.mon.fault.fatalDue = none →
      ∃ t, exec .supplyHoldLong s = .next t ∧ t = { s with mon := t.mon } ∧ t.mon.fault.hold = true ∧ t.mon.fault.isolateDue = some 0x0F02 ∧
        (Loggable s 0x0F02 0 0 → Logged s t 0x0F02 0 0 (s.mon.fault.lowest % 65536)))) ∧
  ∀ (s : State) (mv : Nat), s.pwr.off = false → standingBy s = false → 3 ≤ s.pwr.step → mv ≤ 710 →
    (isFatal s = false → ∃ t, exec (.supplyResetCross mv) s = .next t ∧ t.mon.fault.supplyReset = true ∧ t.mon.fault.isolateN = true ∧
      t.mon.fault.hold = false ∧ t.pwr.step = 2 ∧ t.pwr.kind = 3 ∧ t.mram = s.mram ∧ t.pending = s.pending ∧ t.out = s.out ∧
      t.mon.fault.history.head? = some { kind := 2, code := 3, stitch := resetStitch s }) ∧
    (isFatal s = true → s.mon.fault.fatalDip ≠ 2 → ∃ t, exec (.supplyResetCross mv) s = .next t ∧ t = { s with mon := t.mon } ∧
      t.mon.fault.fatalDip = 2 ∧ t.mon.fault.history.head? = some { kind := 0, code := 0x0F03, cls := 1 })

/-- R426, R444, R459, R472 to R475, R490, R540, R550, R553, R554. -/
def Obligations.SuppliesAndResets : Prop :=
  (∀ (s : State) (a : Nat), ∃ t, exec (.powerOn a) s = .next t ∧ ResetDone s t 0 ∧ t.pwr.off = false ∧ t.pwr.addrSel = a % 16 ∧
    t.mon.fault.faultN = false ∧ t.pwr.lastWake = 0) ∧
  (∀ (s : State), ∃ t, exec .alwaysOnRailLost s = .next t ∧ t.pwr.off = true ∧ t.mram = s.mram ∧ t.mon.fault.history = s.mon.fault.history ∧
    t.pwr.pgCore = s.pwr.pgCore ∧ t.mon.fault.isolateN = false ∧ t.mon.fault.faultN = false ∧ t.pending = s.pending ∧ t.out = s.out) ∧
  (∀ (s : State),
    (s.pwr.off = true ∨ standingBy s = true ∨ s.pwr.pgCore = false → exec .pgCoreFall s = .next { s with pwr := { s.pwr with pgCore := false } }) ∧
    (s.pwr.off = false → standingBy s = false → s.pwr.pgCore = true →
      ∃ t, exec .pgCoreFall s = .next t ∧ CoreHeld s t ∧ t.pwr.pgCore = false ∧ t.pwr.coreFell = true) ∧
    (s.pwr.off = false → standingBy s = false → ∃ t, exec .corerefLost s = .next t ∧ CoreHeld s t ∧ t.pwr.refLost = true) ∧
    (s.pwr.off = false → standingBy s = false → ∃ t, exec .thermalTrip s = .next t ∧ CoreHeld s t ∧ t.pwr.hot = true ∧ t.mon.fault.isolateN = true) ∧
    (s.pwr.off = false → standingBy s = false → s.pwr.coreFell = true → s.pwr.refLost = false → s.pwr.hot = false →
      ∃ t, exec .pgCoreRise s = .next t ∧ ResetDone s t 1 ∧ t.pwr.pgCore = true ∧ t.pwr.coreFell = false ∧ t.mon.fault.faultN = false) ∧
    (s.pwr.off = false → isFatal s = false → ∃ t, exec .resetNLow s = .next t ∧ ResetDone s t 2 ∧ t.pwr.resetLow = true) ∧
    (s.pwr.off = true ∨ isFatal s = true → exec .resetNLow s = .next { s with pwr := { s.pwr with resetLow := true } }) ∧
    (3 ≤ s.pwr.step → exec .resetNRelease s = .next { s with pwr := { s.pwr with resetLow := false, jtagPins := false } }) ∧
    (s.pwr.step = 2 → s.mon.fault.fatal = false → startAllowed { s with pwr := { s.pwr with resetLow := false } } = true →
      exec .resetNRelease s = .next { s with pwr := { s.pwr with resetLow := false, jtagPins := false, step := 3 } })) ∧
  (∀ (s : State), s.pwr.off = false → standingBy s = false → 6 ≤ s.pwr.step →
    (s.pwr.pgSerdes = true → ∃ t, exec .pgSerdesFall s = .next t ∧ t.pwr.pgSerdes = false ∧ t.pwr.benches = 0 ∧ (∀ p, p < 96 → (t.lane p).st = .off) ∧
      (∀ p, p < 96 → (s.lane p).st = .up → (s.link p).st ≠ .down → (s.link p).due = none → (t.link p).due = some .down) ∧
      (Loggable s 0x1002 0 0 → Logged s t 0x1002 0 0 0) ∧ bitAt (evregGet t.mon.evreg Dict.PWR_EVENTS 0) 3 = true) ∧
    (coreUp s = true → ∃ t, exec .pgSerdesRise s = .next t ∧ t.pwr.pgSerdes = true ∧ t = { s with pwr := t.pwr } ∧
      ∀ b, b < 12 → benchWanted s b = true → bitAt s.pwr.benches b = false → bitAt t.pwr.benchUp b = true) ∧
    (s.pwr.pgUcie = true → ∃ t, exec .pgUcieFall s = .next t ∧ t.pwr.pgUcie = false ∧ (∀ m, m < 4 → (t.module m).st = .reset) ∧ t.host.dieDue = true ∧
      (Loggable s 0x1002 0 0 → Logged s t 0x1002 0 0 0) ∧ bitAt (evregGet t.mon.evreg Dict.PWR_EVENTS 0) 3 = true) ∧
    exec .pgUcieRise s = .next { s with pwr := { s.pwr with pgUcie := true } }) ∧
  (∀ (s : State) (kind : Nat), s.pwr.off = false →
    (isFatal s = false → kind ≤ 5 → ∃ t, exec (.deviceReset kind) s = .next t ∧ ResetDone s t kind) ∧
    (5 < kind ∨ (isFatal s = true ∧ 2 ≤ kind) → exec (.deviceReset kind) s = .next s)) ∧
  (∀ (s : State), (s.pwr.resetCmd = none → exec .commandedResetStart s = .next s) ∧
    ∀ c, s.pwr.resetCmd = some c →
      ((c.at' < s.time.count ∧ responseLeft s c = true) ∨ c.at' + 1024 ≤ s.time.count → ∃ t, exec .commandedResetStart s = .next t ∧ ResetDone s t 4) ∧
      (s.time.count < c.at' + 1024 → s.time.count ≤ c.at' ∨ responseLeft s c = false → exec .commandedResetStart s = .next s)) ∧
  (∀ (s : State) (v sfna sep : Nat) (sb : Bool), coreUp s = true →
    (v = 0xA5 → ∃ t, exec (.pwrReset v sb sfna sep) s = .next t ∧ WriteApplied s t ∧ Unfaulted s t ∧
      t = { s with pwr := t.pwr, mon := t.mon, ctl := t.ctl, latch := t.latch } ∧
      t.pwr = { s.pwr with resetCmd := some { feed := if sb then .sideband else .inband, sfna := sfna, sep := sep, at' := s.time.count } }) ∧
    (v ≠ 0xA5 → ∃ t, exec (.pwrReset v sb sfna sep) s = .next t ∧ WriteRefused s t 6)) ∧
  (∀ (s : State), s.pwr.off = false → ∃ t u v, exec (.jtagUpdateIr .extest) s = .next t ∧ t = { s with pwr := { s.pwr with jtag := .extest, jtagPins := s.pwr.resetLow } } ∧
    exec (.jtagUpdateIr .idcode) s = .next u ∧ u = { s with pwr := { s.pwr with jtag := .idcode, jtagPins := false } } ∧
    exec (.jtagUpdateIr (.other 7)) s = .next v ∧
    v = { s with pwr := { s.pwr with jtag := (if s.reg Dict.PMAP_DEBUG_LOCK = 0 then .bypass else .other 7), jtagPins := false } }) ∧
  ∀ (s : State) (core : Nat), core < 8 → coreUp s = true → ∃ t, exec (.cobblerCoreReset core) s = .next t ∧ t = { s with sem := t.sem, mon := t.mon } ∧
    t.sem = { s.sem with resets := s.sem.resets ++ [.core core] } ∧ Unfaulted s t ∧
    ∀ n, claimRow t n = if (claimRow s n).inService && (claimRow s n).claimant = core then { claimRow s n with inService := false, claimant := 0 } else claimRow s n

/-- R211, R455, R477, R480, R482 to R486, R490 to R492. -/
def Obligations.DepartStandbyWake : Prop :=
  (∀ (s : State), coreUp s = true →
    (s.pwr.departing = false → isFatal s = false → ∃ t, exec (.pwrDepart 1) s = .next t ∧ WriteApplied s t ∧ Unfaulted s t ∧
      t.pwr = { s.pwr with departing := true, departed := false, departAt := (s.time.count / 1024 + 2) * 1024 } ∧
      t = { s with pwr := t.pwr, mon := t.mon, ctl := t.ctl, latch := t.latch }) ∧
    (s.pwr.departing = true → ∃ t, exec (.pwrDepart 1) s = .next t ∧ WriteRefused s t 0x0C)) ∧
  (∀ (s : State),
    (s.pwr.departing = false ∨ s.time.count < s.pwr.departAt → exec .departBoundary s = .next s) ∧
    (s.pwr.departing = true → s.pwr.departAt ≤ s.time.count → s.mon.fault.isolated = false → s.mon.fault.isolateDue = none → isFatal s = false →
      ∃ t, exec .departBoundary s = .next t ∧ (∀ p, p < 96 → (t.lane p).st = .off ∧ (t.link p).st = .down) ∧ t.pwr.departing = false ∧
        t.pwr.departed = true ∧ t.mon.fault.isolateDue = some 0x0F07 ∧ bitAt (evregGet t.mon.evreg Dict.PWR_EVENTS 0) 2 = true)) ∧
  (∀ (s : State),
    (s.pwr.st ≠ .entering → coreUp s = false ∨ s.time.count % 1024 ≠ 0 ∨ standbyReady s = false ∨
      s.pwr.idleFrames < s.reg Dict.PWR_STANDBY_IDLE_FR → exec .standbyEnter s = .next s) ∧
    (s.pwr.st = .run → coreUp s = true → s.time.count % 1024 = 0 → standbyReady s = true → s.reg Dict.PWR_STANDBY_IDLE_FR ≤ s.pwr.idleFrames →
      s.ctl.persistQ ≠ [] → ∃ t, exec .standbyEnter s = .next t ∧ t.pwr.st = .entering ∧
        (∀ p, p < 96 → (t.lane p).st = .off ∧ (t.link p).st = .down) ∧ (∀ m, m < 4 → (t.module m).st = .reset) ∧ t.regs = s.regs) ∧
    (s.pwr.st = .entering → flushed s = false → exec .standbyEnter s = .next s) ∧
    (s.pwr.st = .entering → flushed s = true → ∃ t, exec .standbyEnter s = .next t ∧ t.pwr.kind = 5 ∧ t.pwr.step = 2 ∧ t.mram = s.mram ∧
      t.mon.fault.history.head? = some { kind := 2, code := 5, stitch := resetStitch s } ∧
      (s.pwr.wake = none → t.pwr.st = .standby ∧ t.pwr.wakeN = false) ∧
      (∀ src, s.pwr.wake = some src → t.pwr.st = .waking ∧ t.pwr.wakeN = true ∧ t.pwr.wake = some src))) ∧
  (∀ (s : State) (i : Instr) (bit : Nat) (src : WakeSrc), s.pwr.off = false → (s.pwr.st = .standby ∨ s.pwr.st = .entering) →
    (i = .wakeAddressMatch ∧ bit = 0 ∧ src = .sideband) ∨ (i = .ucieWakeRequest ∧ bit = 1 ∧ src = .ucie) ∨
      (∃ p, p < 96 ∧ s.reg Dict.PWR_WAKE_PORTS p = 1 ∧ i = .wakeSignalDetect p ∧ bit = 2 ∧ src = .signal p) ∨
      (i = .wakeTimer ∧ s.reg Dict.PWR_WAKE_TIMER_S ≠ 0 ∧ s.pwr.st = .standby ∧ bit = 3 ∧ src = .timer) →
    (bitAt (s.reg Dict.PWR_WAKE_ENABLE) bit = false → exec i s = .next s) ∧
    (bitAt (s.reg Dict.PWR_WAKE_ENABLE) bit = true →
      (s.pwr.st = .standby → exec i s = .next { s with pwr := { s.pwr with st := .waking, wakeN := true, wake := some src } }) ∧
      (s.pwr.st = .entering → s.pwr.wake = none → exec i s = .next { s with pwr := { s.pwr with wake := some src } }))) ∧
  (∀ (s : State) (seconds : Nat),
    (s.pwr.st = .run → coreUp s = true → ∃ t, exec .wakeAddressMatch s = .next t ∧ t = { s with mon := t.mon } ∧ Unfaulted s t) ∧
    (s.pwr.st = .waking → s.pwr.step < 3 → s.pwr.off = false → s.pwr.pgCore = true → s.pwr.pgSerdes = true → s.pwr.pgUcie = true → s.pwr.resetLow = false →
      exec (.wake seconds) s = .next { s with pwr := { s.pwr with step := 3, kind := 5, wakeSecs := seconds } }) ∧
    (s.pwr.st ≠ .waking ∨ s.pwr.pgCore = false ∨ s.pwr.pgSerdes = false ∨ s.pwr.pgUcie = false → exec (.wake seconds) s = .next s) ∧
    (s.pwr.st = .waking → 3 ≤ s.pwr.step → exec .wakeSlow s = .next { s with pwr := { s.pwr with wakeSlow := true } })) ∧
  (∀ (s : State) (b : Nat), b < 12 →
    (bitAt s.pwr.benchUp b = false → exec (.benchPowerUp b) s = .next s ∧ exec (.benchPowerSlow b) s = .next s) ∧
    (bitAt s.pwr.benchUp b = true → s.pwr.pgSerdes = true → coreUp s = true → ∃ t, exec (.benchPowerUp b) s = .next t ∧
      bitAt t.pwr.benches b = true ∧ bitAt t.pwr.benchUp b = false ∧ t.mon.fault = s.mon.fault ∧
      ∀ p, 8 * b ≤ p → p < 8 * b + 8 → s.reg Dict.LANE_ENABLE p = 1 → (s.lane p).st = .off → s.pwr.st = .run → s.pwr.departed = false →
        (t.lane p).st = .detect) ∧
    (bitAt s.pwr.benchUp b = true → bitAt s.pwr.benchSlow b = false → tget 0 s.pwr.benchAt b + 1954 ≤ s.time.count → ∃ t, exec (.benchPowerSlow b) s = .next t ∧
      t = { s with pwr := t.pwr, mon := t.mon } ∧ bitAt t.pwr.benchSlow b = true ∧ (Loggable s 0x1006 2 b → Logged s t 0x1006 2 b 0))) ∧
  ∀ (s : State) (b : Nat), b < 13 → ∃ t, exec (.arbitrationParityError b) s = .next t ∧ (Loggable s 0x0608 2 b → Logged s t 0x0608 2 b 0) ∧
    (b < 12 → ∀ p, 8 * b ≤ p → p < 8 * b + 8 → (s.link p).st ≠ .down → (s.link p).due = none → (t.link p).due = some .isolated) ∧
    (b = 12 → s.mon.fault.isolated = false → s.mon.fault.isolateDue = none → isFatal s = false → t.mon.fault.isolateDue = some 0x0608)

/-- R9, R71, R436, R465, R475, R484, R493 to R495, R497, R502, R503. -/
def Obligations.BootRunsAndFirmwareStarts : Prop :=
  (∀ (s : State) (sel : Nat) (bs ba : Bool) (cut : Option Nat), (s.pwr.step < 3 ∨ 6 ≤ s.pwr.step ∨ s.pwr.off = true ∨ s.mon.fault.fatal = true →
      exec (.bootRomRun sel bs ba cut) s = .next s)) ∧
  (∀ (s : State) (bs ba : Bool) (cut : Option Nat), 3 ≤ s.pwr.step → s.pwr.step < 6 → s.pwr.off = false → s.mon.fault.fatal = false →
    (∃ t, exec (.bootRomRun 1 bs ba cut) s = .next t ∧ t.sec.bootStatus = 1 ∧ t.sec.sealed = true ∧ t.sec.bootSel = 1 ∧ t.pwr.step = 5 ∧
      coreUp t = false ∧ t.regs = s.regs ∧ t.sec.active = s.sec.active ∧ t.sec.staging = s.sec.staging ∧ t.sec.stage = s.sec.stage) ∧
    (s.sec.stage ≠ .complete →
      (∀ c, commitOf s.sec = some c → c.copying = false → c.digest = setDigest s.sec.active → setVerifies s s.sec.active = true →
        s.sec.formatTag = mfDictFormat s.sec.active →
        ∃ t, exec (.bootRomRun 0 bs false cut) s = .next t ∧ t.sec.bootStatus = 0 ∧ t.sec.sealed = true ∧ t.pwr.step = 5 ∧ t.mon = s.mon ∧
          t.reg Dict.ID_FW_VERSION = mfVersion s.sec.active ∧ t.reg Dict.ID_DICT_FORMAT = mfDictFormat s.sec.active ∧
          (∀ i, i < mfParts s.sec.active → i < 16 → tget 0 t.sec.measure i = (mfPart s.sec.active i).hash) ∧ t.mram = s.mram) ∧
      ((∀ c, commitOf s.sec = some c → c.copying = false ∧ c.digest ≠ setDigest s.sec.active) → s.sec.bootFaults = [] →
        s.mon.fault.queue.length < 250 → ∃ t, exec (.bootRomRun 0 bs false cut) s = .next t ∧ t.sec.bootStatus = 1 ∧ t.sec.sealed = true ∧
          t.regs = s.regs ∧ t.mon.fault.queue = s.mon.fault.queue ++ [{ code := 0x1105, cls := .contained }])) ∧
    (s.sec.stage = .complete → (∀ c, commitOf s.sec = some c → c.copying = false) →
      (setVerifies s s.sec.staging = false → ∃ t, exec (.bootRomRun 0 bs ba cut) s = .next t ∧ t.sec.stage = .idle ∧ t.sec.bitmap = 0 ∧
        t.sec.active = s.sec.active ∧ (t.sec.bootStatus = 0 → 0x1104 ∈ t.sec.bootFaults)) ∧
      (setVerifies s s.sec.staging = true →
        (∃ t c, exec (.bootRomRun 0 false ba (some 0)) s = .next t ∧ commitOf t.sec = some c ∧ c.copying = true ∧ c.next = 0 ∧
          c.upTo = mfEnd s.sec.staging ∧ t.sec.stage = .copying ∧ t.sec.active = s.sec.active) ∧
        (∃ t, exec (.bootRomRun 0 false ba none) s = .next t ∧ t.sec.stage = .idle ∧ t.sec.bitmap = 0 ∧ t.sec.staging = s.sec.staging ∧
          s.reg Dict.SEC_MIN_SVN ≤ t.reg Dict.SEC_MIN_SVN)))) ∧
  ∀ (s : State),
    (∀ bad, s.pwr.step ≠ 5 ∨ s.sec.sealed = false ∨ s.sec.bootStatus ≠ 0 → exec (.firmwareStart bad) s = .next s) ∧
    (s.pwr.step = 5 → s.sec.sealed = true → s.sec.bootStatus = 0 → s.pwr.off = false → s.mon.fault.fatal = false → (s.mram.map (·.1)).Nodup →
      ∃ t, exec (.firmwareStart false) s = .next t ∧ t.pwr.step = 6 ∧ bitAt (evregGet t.mon.evreg Dict.PWR_EVENTS 0) 0 = true ∧ t.sec.bootFaults = [] ∧
        (∀ k v d, (k, v) ∈ s.mram → keptKey true k = false → tget d t.regs k = v) ∧
        (∀ k d, (∀ v, (k, v) ∉ s.mram) → tget d t.regs k = tget d s.regs k) ∧
        (∀ n, 300 ≤ n → n ≤ 349 → (claimRow t n).targetsK = 0x40) ∧
        (s.mon.fault.supplyReset = false → t.mon.fault.isolateN = false ∧ t.mon.fault.isolated = s.mon.fault.isolated) ∧
        (s.mon.fault.supplyReset = true → t.mon.fault.isolated = true ∧ t.mon.fault.supplyReset = false ∧ t.mon.fault.cause = 0x0F03 ∧
          t.mon.fault.isolateN = true) ∧
        (s.pwr.st = .waking → t.pwr.st = .run ∧ t.pwr.wakeN = false ∧ t.pwr.lastWake = packWake s.pwr.wake s.pwr.wakeSecs) ∧
        (s.pwr.st ≠ .waking → t.pwr.st = s.pwr.st) ∧
        ∀ b, b < 12 → benchWanted t b = true → bitAt t.pwr.benches b = true ∨ bitAt t.pwr.benchUp b = true) ∧
    (s.pwr.step = 5 → s.sec.sealed = true → s.sec.bootStatus = 0 → s.pwr.off = false → s.mon.fault.fatal = false →
      ∃ t, exec (.firmwareStart true) s = .next t ∧ t.pwr.step = 6 ∧ (∀ k d, inDictArea k = true → tget d t.regs k = d) ∧
        (∀ c ∈ t.mram, inDictArea c.1 = false) ∧
        (∀ k d, inDictArea k = false → (∀ v, (k, v) ∉ s.mram) → tget d t.regs k = tget d s.regs k) ∧
        (s.sec.bootFaults = [] → Loggable s 0x0106 0 0 → ownRaise s 0x0106 0 0 0 ∈ t.mon.fault.queue))

/-- R499, R501, R506 to R509, R511. -/
def Obligations.StagingAndAttestation : Prop :=
  (∀ (s : State), stagingServed s = true → s.pwr.off = false →
    (s.sec.stage ≠ .copying → ∃ t, exec .fwStageBegin s = .next t ∧ WriteApplied s t ∧ Unfaulted s t ∧
      t = { s with sec := t.sec, mon := t.mon, ctl := t.ctl, latch := t.latch } ∧ t.sec = { s.sec with stage := .manifest, bitmap := 0, reason := 0, checks := [] }) ∧
    (s.sec.stage ≠ .manifest → ∃ t, exec .fwStageManifestDone s = .next t ∧ WriteRefused s t 0x0C) ∧
    (s.sec.stage = .manifest → manifestReason s s.sec.staging = 0 → ∃ t, exec .fwStageManifestDone s = .next t ∧ WriteApplied s t ∧
      t.sec = { s.sec with stage := .receiving } ∧ Unfaulted s t) ∧
    (s.sec.stage = .manifest → manifestReason s s.sec.staging ≠ 0 → ∃ t, exec .fwStageManifestDone s = .next t ∧ WriteApplied s t ∧
      t.sec = { s.sec with stage := .idle, reason := manifestReason s s.sec.staging } ∧ bitAt (evregGet t.mon.evreg Dict.SEC_EVENTS 0) 1 = true ∧
      (Loggable s 0x1102 0 0 → Logged s t 0x1102 0 0 0)) ∧
    (s.sec.stage = .manifest ∨ s.sec.stage = .receiving ∨ s.sec.stage = .complete → ∃ t, exec .fwStageAbort s = .next t ∧ WriteApplied s t ∧
      t.sec = { s.sec with stage := .idle, checks := [] } ∧ Unfaulted s t) ∧
    (s.sec.stage = .idle ∨ s.sec.stage = .copying → ∃ t, exec .fwStageAbort s = .next t ∧ WriteRefused s t 0x0C)) ∧
  (∀ (s : State) (row v : Nat), stagingServed s = true → s.pwr.off = false → row < 196608 →
    ((s.sec.stage = .manifest ∧ row < 2048) ∨ (s.sec.stage = .receiving ∧ isPartChunk s.sec.staging (row / 64) = true ∧ bitAt s.sec.bitmap (row / 64) = false) →
      ∃ t, exec (.fwStageDataWrite row v) s = .next t ∧ WriteApplied s t ∧ Unfaulted s t ∧ tget 0 t.sec.staging row = v % 2 ^ 512 ∧
        (∀ r, r ≠ row → tget 0 t.sec.staging r = tget 0 s.sec.staging r) ∧ t.sec = { s.sec with staging := t.sec.staging }) ∧
    (s.sec.stage = .idle ∨ s.sec.stage = .complete ∨ (s.sec.stage = .manifest ∧ 2048 ≤ row) ∨
        (s.sec.stage = .receiving ∧ (isPartChunk s.sec.staging (row / 64) = false ∨ bitAt s.sec.bitmap (row / 64) = true)) →
      ∃ t, exec (.fwStageDataWrite row v) s = .next t ∧ WriteRefused s t 0x0C)) ∧
  (∀ (s : State) (c : Nat), stagingServed s = true → s.pwr.off = false →
    (s.sec.stage = .receiving → isPartChunk s.sec.staging c = true → bitAt s.sec.bitmap c = false →
      (s.sec.checks.length < 16 → ∃ t, exec (.fwChunkDone c) s = .next t ∧ WriteApplied s t ∧ t.sec = { s.sec with checks := s.sec.checks ++ [c] }) ∧
      (16 ≤ s.sec.checks.length → ∃ t, exec (.fwChunkDone c) s = .next t ∧ WriteRefused s t 0x0A)) ∧
    (s.sec.stage ≠ .receiving ∨ isPartChunk s.sec.staging c = false ∨ bitAt s.sec.bitmap c = true →
      ∃ t, exec (.fwChunkDone c) s = .next t ∧ WriteRefused s t 0x0C)) ∧
  (∀ (s : State), (∀ bad, s.sec.checks = [] → exec (.chunkCheckDone bad) s = .next s) ∧
    ∀ c rest, s.sec.checks = c :: rest → s.sec.stage = .receiving →
      (chunkGood s.sec.staging c = true → ∃ t, exec (.chunkCheckDone false) s = .next t ∧ t = { s with sec := t.sec, mon := t.mon } ∧ Unfaulted s t ∧
        t.sec.checks = rest ∧ t.sec.bitmap = s.sec.bitmap ||| 2 ^ c ∧
        (t.sec.stage = if (partChunks s.sec.staging).all (fun x => bitAt (s.sec.bitmap ||| 2 ^ c) x) then .complete else .receiving)) ∧
      (chunkGood s.sec.staging c = false → ∃ t, exec (.chunkCheckDone false) s = .next t ∧ t.sec = { s.sec with checks := rest } ∧
        (Loggable s 0x1103 0 0 → Logged s t 0x1103 0 0 0) ∧ bitAt (evregGet t.mon.evreg Dict.SEC_EVENTS 0) 2 = true) ∧
      (∃ t, exec (.chunkCheckDone true) s = .next t ∧ t.sec = { s.sec with checks := rest } ∧
        (Loggable s 0x1109 0 0 → ownRaise s 0x1109 0 0 0 ∈ t.mon.fault.queue))) ∧
  ∀ (s : State) (v : Nat), stagingServed s = true → s.pwr.off = false →
    (s.sec.attest = 1 → ∃ t, exec (.secAttestNonce v) s = .next t ∧ WriteRefused s t 0x0C) ∧
    (s.sec.attest ≠ 1 → ∃ t, exec (.secAttestNonce v) s = .next t ∧ WriteApplied s t ∧ Unfaulted s t ∧
      t.sec = { s.sec with attest := 1, nonce := v % 2 ^ 512, nonceAt := s.time.count }) ∧
    (s.sec.attest ≠ 1 → exec .attestReportDone s = .next s) ∧
    (s.sec.attest = 1 → ∃ t, exec .attestReportDone s = .next t ∧ t = { s with sec := t.sec, mon := t.mon } ∧ Unfaulted s t ∧ t.sec.attest = 2 ∧
      tget 0 t.sec.report 0 = reportHeader s ∧ tget 0 t.sec.report 1 = s.sec.nonce ∧
      (∀ i, i < 16 → tget 0 t.sec.report (4 + i) = tget 0 s.sec.measure i) ∧ bitAt (evregGet t.mon.evreg Dict.SEC_EVENTS 0) 3 = true)

/-- R36, R257, R294, R519, R520, R522 to R524, R530 to R532. -/
def Obligations.CountersReadAndTraced : Prop :=
  (∀ (s : State) (c w ev inst n : Nat), s.mon.cnt.ctl = [(c, w)] → counts c w ev inst = true → ev ≠ 0x903 → ev ≠ 0x708 → 1 ≤ n → n ≤ 1024 →
    (tget 0 s.mon.cnt.value c = 2 ^ 48 - 1 → tget 0 (s.count ev inst n).mon.cnt.value c = n - 1 ∧ tget false (s.count ev inst n).mon.cnt.ovf c = true ∧
      (bitAt w 60 = true → bitAt (evregGet (s.count ev inst n).mon.evreg Dict.CNT_EVENTS 0) 0 = true)) ∧
    (tget 0 s.mon.cnt.value c + n < 2 ^ 48 → tget 0 (s.count ev inst n).mon.cnt.value c = tget 0 s.mon.cnt.value c + n ∧
      (s.count ev inst n).mon.cnt.ovf = s.mon.cnt.ovf)) ∧
  (∀ (s : State), coreUp s = true → (s.mon.cnt.ovf.map (·.1)).Nodup →
    (∃ t, exec (.cntSnapNow 1) s = .next t ∧ WriteApplied s t ∧ Unfaulted s t ∧ t = { s with time := t.time, mon := t.mon, ctl := t.ctl, latch := t.latch } ∧
      t.time = { s.time with snapStitch := s.time.count, snapGrade := s.time.st.code, snapSeq := (s.time.snapSeq + 1) % 2 ^ 32 } ∧
      (∀ c, tget 0 t.mon.cnt.shadow c = tget 0 s.mon.cnt.value c + b2n (tget false s.mon.cnt.ovf c) * 2 ^ 48) ∧ Fired s t 115) ∧
    (∃ t, exec (.cntSnapNow 0) s = .next t ∧ WriteApplied s t ∧ t.time = s.time ∧ t.mon.cnt.shadow = s.mon.cnt.shadow) ∧
    ∃ t, exec (.cntSnapNow 2) s = .next t ∧ WriteRefused s t 6) ∧
  (∀ (s : State) (func c cycle : Nat), Reaches s func → c < 544 →
    (s.reg Dict.CNT_GRANT c = func →
      (∃ t, exec (.counterPageRead func (8 * c) cycle) s = .next t ∧ t = { s with mon := t.mon, out := .mmioData func 4 (8 * c) (liveWord s.mon.cnt c) :: s.out } ∧
        t.mon.cnt.lastSample = some (match s.mon.cnt.lastSample with | none => cycle | some x => max cycle (x + 50)) ∧ Unfaulted s t) ∧
      exec (.counterPageRead func (0x2000 + 8 * c) cycle) s =
        .next { s with out := .mmioData func 4 (0x2000 + 8 * c) (tget 0 s.mon.cnt.shadow c) :: s.out } ∧
      exec (.counterPageRead func 0x4008 cycle) s = .next { s with out := .mmioData func 4 0x4008 s.time.snapStitch :: s.out }) ∧
    (s.reg Dict.CNT_GRANT c ≠ func → ∃ t, exec (.counterPageRead func (8 * c) cycle) s = .next t ∧
      t = { s with mon := t.mon, out := .mmioData func 4 (8 * c) (2 ^ 64 - 1) :: s.out } ∧ (Loggable s 0x0803 3 func → Logged s t 0x0803 3 func 0))) ∧
  (∀ (s : State) (c : Nat) (control : Bool), c < 544 → ∃ t, exec (.counterParityError c control) s = .next t ∧ t = { s with mon := t.mon } ∧
    tget false t.mon.cnt.err c = true ∧ (Loggable s 0x1201 0 0 → Logged s t 0x1201 0 0 0) ∧ bitAt (evregGet t.mon.evreg Dict.CNT_EVENTS 0) 2 = true ∧
    (control = true → bitAt (tget 0 t.mon.cnt.ctl c) 63 = false) ∧
    (control = false → t.mon.cnt.ctl = s.mon.cnt.ctl ∧ (s.mon.cnt.ctl = [] → tget 0 t.mon.cnt.value c = 0))) ∧
  ∀ (s : State) (v : Nat), coreUp s = true → v < 2 ^ 32 →
    (traceRows s.host ≠ 0 → v < 2 * traceRows s.host →
      modSub (2 * traceRows s.host) v s.mon.cnt.traceCons ≤ modSub (2 * traceRows s.host) s.mon.cnt.traceProd s.mon.cnt.traceCons →
      ∃ t, exec (.traceConsumerWrite v) s = .next t ∧ WriteApplied s t ∧ t.mon.cnt.traceCons = v ∧ t.mon.cnt.trace = s.mon.cnt.trace ∧
        t.mon.cnt.traceProd = s.mon.cnt.traceProd) ∧
    (traceRows s.host = 0 ∨ 2 * traceRows s.host ≤ v → ∃ t, exec (.traceConsumerWrite v) s = .next t ∧ WriteApplied s t ∧
      t.mon.cnt.traceCons = s.mon.cnt.traceCons)

/-- R12, R25, R31, R32, R57, R76, R79, R463, R468, R475: what every boundary does. -/
def Obligations.StitchBoundaryAdvances : Prop :=
  (∀ (s : State) (env : TickEnv), s.pwr.off = true → exec (.stitchBoundary env) s = .next s) ∧
  (∀ (s : State) (env : TickEnv), s.pwr.off = false → s.pwr.step < 3 →
    ∃ t, exec (.stitchBoundary env) s = .next t ∧ t = { s with pwr := { s.pwr with step := t.pwr.step }, mon := t.mon } ∧ t.mon.fault.mv = env.railMv ∧
      t.pwr.step = if startAllowed t = true ∧ s.mon.fault.fatal = false then 3 else s.pwr.step) ∧
  (∀ (s : State) (env : TickEnv), s.pwr.off = false → 3 ≤ s.pwr.step → coreUp s = false →
    ∃ t, exec (.stitchBoundary env) s = .next t ∧ t.time = { s.time with count := s.time.count + 1 } ∧ t.latch = t.toChip ∧
      t.mon.fault = { s.mon.fault with mv := env.railMv, lowest := t.mon.fault.lowest } ∧
      (s.mon.fault.fatal = false → t = { s with time := t.time, mon := { s.mon with fault := t.mon.fault }, latch := t.latch }) ∧
      (s.mon.fault.fatal = true → t = { s with time := t.time, mon := t.mon, lanes := t.lanes, out := t.out, latch := t.latch } ∧
        ∀ p, p < 96 → hasSlots (s.lane p) = true → ∃ v pace, .marker p v pace ∈ t.out ∧ 6 ≤ pace ∧ pace ≤ 8 ∧
          blockGood 0xE1 v = true ∧ fld v 55 32 = (s.time.count + 1) % 2 ^ 24 ∧ fld v 31 28 = 3 ∧ fld v 23 17 = p)) ∧
  ∀ (s : State) (env : TickEnv), coreUp s = true →
    ∃ t, exec (.stitchBoundary env) s = .next t ∧ t.latch = t.toChip ∧ t.pending = s.pending ∧
      (s.ctl.applyQ = [] → s.time.stepTo = none → t.time.count = s.time.count + 1 ∧
        (s.exe.servicesBehind = false → ∀ row, row < 16 → (tget {} s.time.actions row).st = .pending →
          (s.time.count + 1 < (tget {} s.time.actions row).target → tget {} t.time.actions row = tget {} s.time.actions row) ∧
          ((tget {} s.time.actions row).target = s.time.count + 1 →
            tget {} t.time.actions row = { tget {} s.time.actions row with st := .performed }) ∧
          ((tget {} s.time.actions row).target ≤ s.time.count →
            tget {} t.time.actions row = { tget {} s.time.actions row with st := .late }))) ∧
      ∀ c, s.ctl.applyQ = [] → s.time.stepTo = some c → t.time.count = c + 1

/-- R5, R9, R25, R87, R129, R244, R475: the state right after a cold start; log entry 9 names the values the spec does not give. -/
def Obligations.ResetLeavesNothingRunning : Prop :=
  (∀ (o : Obj) (row : Nat), State.reset.reg o row = rowDefault o row) ∧ State.reset.mram = [] ∧
  State.reset.time.st = .free ∧ State.reset.time.count = 0 ∧ State.reset.time.role = .follower ∧
  (∀ p, (State.reset.lane p).st = .off ∧ (State.reset.link p).st = .down) ∧ (∀ m, (State.reset.module m).st = .reset) ∧
  (∀ g, (State.reset.queue g).st = .reset) ∧ (∀ k, (State.reset.last k).st = .empty) ∧
  (∀ n, (semOf State.reset n).st = .free ∧ (semOf State.reset n).owner = none) ∧ (∀ r, (State.reset.collRow r).st = .idle) ∧
  (∀ k, (State.reset.reqCtx k).st = .free ∧ (State.reset.respCtx k).live = false) ∧
  State.reset.mon.fault.log = [] ∧ State.reset.mon.fault.queue = [] ∧ State.reset.mon.fault.faultN = false ∧
  State.reset.mon.fault.isolated = false ∧ State.reset.mon.fault.fatal = false ∧ State.reset.mon.fault.hold = false ∧
  coreUp State.reset = false ∧ State.reset.pending = [] ∧ State.reset.queueWellFormed = true

/-- No command stops but for a name of something that the part does not have; that it then stops is the model's choice, log entry 5. -/
def Obligations.CommandsCompleteOrNameWhatIsMissing : Prop :=
  ∀ (c : Instr) (s : State),
    (c.wellFormed = true → Completes (exec c s)) ∧ (c.wellFormed = false → ∃ f, exec c s = .fault f)

/-- R75, R79, R86, R101, R103, R119 to R126: what is written reads back. -/
def Obligations.LineFormatsReadBack : Prop :=
  (∀ h v, h < 2 ^ 58 → v < 2 ^ 64 → descramble h (scramble h v).2 = ((scramble h v).1, v)) ∧
  (∀ stitch psc port rxfec, stitch < 2 ^ 24 → psc < 16 → port < 128 → blockGood 0xE1 (packMarker stitch psc rxfec port) = true ∧
    fld (packMarker stitch psc rxfec port) 55 32 = stitch ∧ fld (packMarker stitch psc rxfec port) 31 28 = psc ∧
    bitAt (packMarker stitch psc rxfec port) 27 = rxfec ∧ fld (packMarker stitch psc rxfec port) 23 17 = port) ∧
  (∀ par port fna ack, par < 2 → port < 128 → fna < 2 ^ 18 → blockGood 0x9C (packTraining par ack port fna) = true ∧
    fld (packTraining par ack port fna) 55 55 = par ∧ bitAt (packTraining par ack port fna) 54 = ack ∧
    fld (packTraining par ack port fna) 53 47 = port ∧ fld (packTraining par ack port fna) 46 29 = fna) ∧
  (∀ ctl body, ctl < 256 → body < 2 ^ 480 → flitGood (packFlit ctl body) = true ∧ flitCtl (packFlit ctl body) = ctl ∧
    flitBody (packFlit ctl body) = body) ∧
  (∀ a : Ackcr, a.ne < 4096 → a.nakId < 16 → a.freed.length = 8 → (∀ n ∈ a.freed, n < 65536) → a.freedBp < 65536 →
    unpackAckcr (packAckcr a) = a ∧ subtypeOf (packAckcr a) = 1) ∧
  (∀ num id, num < 4096 → id < 16 → fld (packReplay num id) 471 460 = num ∧ fld (packReplay num id) 459 456 = id ∧
    subtypeOf (packReplay num id) = 2) ∧
  (∀ b : TimeProbe, b.mstitch < 2 ^ 24 → b.t2 < 2 ^ 40 → b.t3 < 2 ^ 40 → b.tstate < 8 → -2147483648 ≤ b.errEst → b.errEst < 2147483648 →
    b.hops < 256 → b.masterFna < 2 ^ 18 → b.gen < 65536 → b.mstamp < 2 ^ 64 →
    unpackProbe (packProbe b) = b ∧ subtypeOf (packProbe b) = 3) ∧
  (∀ r : HintRec, r.origin < 2 ^ 18 → r.toGroup < 4096 → r.level < 16 → r.stamp < 1024 → unpackHint (packHint r) = r) ∧
  (∀ r : SigRec, r.label < 65536 → r.event < 256 → r.stitch < 2 ^ 24 → unpackSig (packSig r) = r) ∧
  (∀ sub l, sub < 256 → l.length ≤ 7 → (∀ r ∈ l, r < 2 ^ 64) → unpackRecords (packRecords sub l) = l ∧ subtypeOf (packRecords sub l) = sub) ∧
  (∀ c : CreditSync, c.num < 4096 → c.sent.length = 8 → (∀ n ∈ c.sent, n < 65536) → unpackSync (packSync c) = c ∧ subtypeOf (packSync c) = 6) ∧
  ∀ i : InitBody, i.step < 4 → i.fna < 2 ^ 18 → i.port < 128 → i.limit.length = 8 → (∀ n ∈ i.limit, n < 65536) → i.bpLimit < 65536 →
    i.version < 65536 → unpackInit (packInit i) = i ∧ subtypeOf (packInit i) = 7

/-- R138 to R142, R316, R394: no bit of a packet, of a collective header or of an acknowledgement is dropped. -/
def Obligations.PacketsReadBack : Prop :=
  (∀ p : Packet, p.hv < 4 → p.pcls < 4 → p.vc < 8 → p.epoch < 2 → p.intg < 4096 → p.dfna < 2 ^ 18 → p.sfna < 2 ^ 18 → p.dep < 65536 → p.sep < 65536 →
    p.opc < 256 → p.age < 1024 → p.payload.length = p.len →
    (p.pcls ≠ 0 → p.psn < 2 ^ 24 → p.len < 8192 → p.fhash < 65536 → p.peerctx < 2 ^ 20 → p.oph.length ≤ 7 → (∀ w ∈ p.oph, w < 2 ^ 64) → p.icrc < 2 ^ 32 →
      readPacket (packetBodies p) p.bad = p) ∧
    ∀ h, p.pcls = 0 → p.len ≤ 44 → h < 256 → p.fhash = h * 257 → p.psn = 0 → p.peerctx = 0 → p.oph = [] → p.icrc = 0 →
      readPacket (packetBodies p) p.bad = p) ∧
  (∀ h : CollHdr, h.kind < 16 → h.dtype < 16 → h.op < 16 → h.tree < 2 → h.count < 256 → h.gid < 2 ^ 24 → h.bnum < 2 ^ 32 → h.aux < 2 ^ 24 →
    unpackColl (natBE (bytesBE (packColl h) 16)) = h) ∧
  ∀ a : Ack, a.kind < 4 → a.type < 8 → a.inc < 16 → a.cum < 2 ^ 24 → a.sack < 2 ^ 64 → a.acked < 256 → a.ce < 256 → a.hint < 2 ^ 20 → a.epsn < 2 ^ 24 →
    a.estatus < 256 → a.ereason < 256 → a.backoff < 4096 → unpackAck (natBE (bytesBE (packAck a) 32)) = a

/-- R25: a router in role Master, or in the role of acting master, is always Locked. -/
def Obligations.MastersStayLocked : Prop :=
  MastersLocked State.reset ∧ ∀ s t : State, MastersLocked s → step s = .next t → MastersLocked t

/-- The queue is kept, first in, first out (log entry 1), and well-formed commands run on. -/
def Obligations.QueueKeptAndRunsOn : Prop :=
  (∀ s t : State, step s = .next t → t.pending = s.pending.tail) ∧
  (∀ s t : State, s.queueWellFormed = true → step s = .next t → t.queueWellFormed = true) ∧
  ∀ (n : Nat) (s : State), s.queueWellFormed = true → runsSafely n s

end
end

