-- ==== Sys2Proof/Laws/Bytes.lean ====
section
/-!
SUPPORT. Numbers and their bytes: what a number's bytes spell, in either order, and what stands in the first of them.
-/
namespace Sys2Proof.Machine

@[simp] theorem bytesBE_length (v n : Nat) : (bytesBE v n).length = n := by
  induction n with
  | zero => rfl
  | succ n ih => simp [bytesBE, ih]

@[simp] theorem bytesLE_length (v n : Nat) : (bytesLE v n).length = n := by
  induction n generalizing v with
  | zero => rfl
  | succ n ih => simp [bytesLE, ih]

/-- More bytes before those of a number weigh more. -/
theorem natBE_append (a b : List Byte) : natBE (a ++ b) = natBE a * 256 ^ b.length + natBE b := by
  suffices h : ∀ (l : List Byte) (x : Nat), l.foldl (fun a b => a * 256 + b.toNat) x = x * 256 ^ l.length + natBE l by
    unfold natBE; rw [List.foldl_append, h b]; rfl
  intro l
  induction l with
  | nil => intro x; simp [natBE]
  | cons c l ih =>
    intro x
    rw [List.foldl_cons, ih, show natBE (c :: l) = c.toNat * 256 ^ l.length + natBE l by
      unfold natBE; rw [List.foldl_cons, ih]; simp [natBE]]
    simp only [List.length_cons, Nat.pow_succ, Nat.add_mul]
    rw [Nat.mul_assoc, Nat.mul_comm 256, Nat.add_assoc]

/-- So many bytes spell a number below the power of 256. -/
theorem natBE_lt (l : List Byte) : natBE l < 256 ^ l.length := by
  induction l with
  | nil => simp [natBE]
  | cons c l ih =>
    rw [show c :: l = [c] ++ l from rfl, natBE_append]
    have h : natBE [c] < 256 := by simp [natBE]; omega
    simp only [List.length_append, List.length_cons, List.length_nil, Nat.pow_add]
    calc natBE [c] * 256 ^ l.length + natBE l < natBE [c] * 256 ^ l.length + 256 ^ l.length := by omega
      _ = (natBE [c] + 1) * 256 ^ l.length := by rw [Nat.add_mul, Nat.one_mul]
      _ ≤ 256 * 256 ^ l.length := Nat.mul_le_mul_right _ (by omega)
      _ = _ := by simp

/-- A number's n bytes, the most significant first, spell it below 256^n. -/
theorem natBE_bytesBE (v n : Nat) : natBE (bytesBE v n) = v % 256 ^ n := by
  induction n with
  | zero => simp [bytesBE, natBE, Nat.mod_one]
  | succ n ih =>
    rw [show bytesBE v (n + 1) = [BitVec.ofNat 8 (v >>> (8 * n))] ++ bytesBE v n from rfl, natBE_append, ih]
    have h : natBE [BitVec.ofNat 8 (v >>> (8 * n))] = v / 256 ^ n % 256 := by
      simp [natBE, Nat.shiftRight_eq_div_pow, Nat.pow_mul]
    rw [h, bytesBE_length, Nat.pow_succ, Nat.mod_mul, Nat.mul_comm]; omega

/-- The first m bytes of m + n are those of the number's upper part. -/
theorem take_bytesBE (v m n : Nat) : (bytesBE v (m + n)).take m = bytesBE (v / 256 ^ n) m := by
  induction m with
  | zero => simp [bytesBE]
  | succ m ih =>
    rw [show m + 1 + n = m + n + 1 by omega, bytesBE, List.take_succ_cons, ih, bytesBE]
    rw [Nat.shiftRight_eq_div_pow, Nat.shiftRight_eq_div_pow, Nat.div_div_eq_div_mul, Nat.pow_mul, Nat.pow_mul, Nat.pow_add, Nat.mul_comm]

/-- A number's n bytes, the least significant first, spell it below 256^n. -/
theorem natLE_bytesLE (v n : Nat) : natLE (bytesLE v n) = v % 256 ^ n := by
  induction n generalizing v with
  | zero => simp [bytesLE, natLE, Nat.mod_one]
  | succ n ih =>
    have h : natLE (bytesLE v (n + 1)) = v % 256 + 256 * natLE (bytesLE (v >>> 8) n) := by simp [bytesLE, natLE]
    rw [h, ih, Nat.shiftRight_eq_div_pow, show (2 : Nat) ^ 8 = 256 from rfl, Nat.pow_succ, Nat.mul_comm (256 ^ n), Nat.mod_mul]

end Sys2Proof.Machine
end

