-- ==== Sys2Proof/Laws/Table.lean ====
section
/-!
SUPPORT. Sparse tables: what a read gives after a write, and that every write keeps the canonical form.
-/
namespace Sys2Proof.Machine

variable {α : Type}

theorem tget_tdrop_self (d : α) (t : Tbl α) (k : Nat) : tget d (tdrop t k) k = d := by
  induction t with
  | nil => rfl
  | cons c t ih =>
    obtain ⟨k0, v0⟩ := c
    by_cases h : k0 = k
    · simpa [tdrop, List.filter, h] using ih
    · simp only [tdrop, ne_eq, List.filter, h, not_false_eq_true, decide_true, tget, if_neg (Ne.symm h)]
      simpa [tdrop] using ih

theorem tget_tdrop_ne (d : α) (t : Tbl α) {k k' : Nat} (h : k' ≠ k) : tget d (tdrop t k) k' = tget d t k' := by
  induction t with
  | nil => rfl
  | cons c t ih =>
    obtain ⟨k0, v0⟩ := c
    by_cases h0 : k0 = k
    · subst h0
      have e : tdrop ((k0, v0) :: t) k0 = tdrop t k0 := by simp [tdrop]
      rw [e, ih]
      simp [tget, h]
    · have e : tdrop ((k0, v0) :: t) k = (k0, v0) :: tdrop t k := by simp [tdrop, h0]
      rw [e]
      simp only [tget, ih]

theorem tget_tput_self (d : α) (t : Tbl α) (k : Nat) (v : α) (hk : ∀ c ∈ t, c.1 ≠ k) :
    tget d (tput t k v) k = v := by
  induction t with
  | nil => simp [tput, tget]
  | cons c t ih =>
    obtain ⟨k0, v0⟩ := c
    have h0 : k0 ≠ k := hk (k0, v0) (by simp)
    by_cases hl : k < k0
    · simp [tput, hl, tget]
    · simp only [tput, hl, if_false, tget, if_neg (Ne.symm h0)]
      exact ih fun c hc => hk c (List.mem_cons_of_mem _ hc)

theorem tget_tput_ne (d : α) (t : Tbl α) {k k' : Nat} (v : α) (h : k' ≠ k) : tget d (tput t k v) k' = tget d t k' := by
  induction t with
  | nil => simp [tput, tget, h]
  | cons c t ih =>
    obtain ⟨k0, v0⟩ := c
    by_cases hl : k < k0
    · simp [tput, hl, tget, h]
    · simp only [tput, hl, if_false, tget, ih]

theorem tdrop_fst_ne (t : Tbl α) (k : Nat) : ∀ c ∈ tdrop t k, c.1 ≠ k := by
  intro c hc
  simpa using (List.mem_filter.mp hc).2

/-- A read after a write: the value written at that key, and what was there at every other. -/
theorem tget_tset [DecidableEq α] (d : α) (t : Tbl α) (k k' : Nat) (v : α) :
    tget d (tset d t k v) k' = if k' = k then v else tget d t k' := by
  unfold tset
  by_cases hk : k' = k
  · subst hk
    by_cases hv : v = d
    · simp [hv, tget_tdrop_self]
    · simp [hv, tget_tput_self d _ k' v (tdrop_fst_ne t k')]
  · by_cases hv : v = d
    · simp [hv, hk, tget_tdrop_ne]
    · simp [hv, hk, tget_tput_ne, tget_tdrop_ne]

@[simp] theorem tget_tset_self [DecidableEq α] (d : α) (t : Tbl α) (k : Nat) (v : α) : tget d (tset d t k v) k = v := by
  simp [tget_tset]

theorem tget_tset_ne [DecidableEq α] (d : α) (t : Tbl α) {k k' : Nat} (v : α) (h : k' ≠ k) :
    tget d (tset d t k v) k' = tget d t k' := by
  simp [tget_tset, h]

/-- The same where the other key has a default of its own. -/
theorem tget_tset_other [DecidableEq α] (d d' : α) (t : Tbl α) {k k' : Nat} (v : α) (h : k' ≠ k) :
    tget d' (tset d t k v) k' = tget d' t k' := by
  unfold tset
  by_cases hv : v = d
  · simp [hv, tget_tdrop_ne d' t h]
  · simp [hv, tget_tput_ne d' _ v h, tget_tdrop_ne d' t h]

/-- A read after a change of one key. -/
theorem tget_tupd [DecidableEq α] (d : α) (t : Tbl α) (k k' : Nat) (f : α → α) :
    tget d (tupd d t k f) k' = if k' = k then f (tget d t k) else tget d t k' := tget_tset d t k k' _

@[simp] theorem tget_tupd_self [DecidableEq α] (d : α) (t : Tbl α) (k : Nat) (f : α → α) :
    tget d (tupd d t k f) k = f (tget d t k) := by
  simp [tget_tupd]

theorem tget_tupd_ne [DecidableEq α] (d : α) (t : Tbl α) {k k' : Nat} (f : α → α) (h : k' ≠ k) :
    tget d (tupd d t k f) k' = tget d t k' := by
  simp [tget_tupd, h]

/-! ### The canonical form -/

theorem twf_cons [DecidableEq α] (d : α) (k : Nat) (v : α) (t : Tbl α) :
    twf d ((k, v) :: t) = true ↔ v ≠ d ∧ (∀ c ∈ t, k < c.1) ∧ twf d t = true := by
  simp [twf, and_assoc]

theorem twf_tdrop [DecidableEq α] (d : α) (t : Tbl α) (k : Nat) (h : twf d t = true) : twf d (tdrop t k) = true := by
  induction t with
  | nil => exact h
  | cons c t ih =>
    obtain ⟨k0, v0⟩ := c
    obtain ⟨hv, hlt, ht⟩ := (twf_cons d k0 v0 t).mp h
    by_cases h0 : k0 = k
    · have e : tdrop ((k0, v0) :: t) k = tdrop t k := by simp [tdrop, h0]
      rw [e]; exact ih ht
    · have e : tdrop ((k0, v0) :: t) k = (k0, v0) :: tdrop t k := by simp [tdrop, h0]
      rw [e]
      exact (twf_cons d k0 v0 _).mpr ⟨hv, fun c hc => hlt c (List.mem_filter.mp hc).1, ih ht⟩

theorem mem_tput (t : Tbl α) (k : Nat) (v : α) (c : Nat × α) (h : c ∈ tput t k v) : c = (k, v) ∨ c ∈ t := by
  induction t with
  | nil => simpa [tput] using h
  | cons a t ih =>
    obtain ⟨k0, v0⟩ := a
    by_cases hl : k < k0
    · simpa [tput, hl] using h
    · simp only [tput, hl, if_false, List.mem_cons] at h
      rcases h with h | h
      · exact Or.inr (by simp [h])
      · rcases ih h with h | h
        · exact Or.inl h
        · exact Or.inr (List.mem_cons_of_mem _ h)

theorem twf_tput [DecidableEq α] (d : α) (t : Tbl α) (k : Nat) (v : α) (hv : v ≠ d) (hk : ∀ c ∈ t, c.1 ≠ k) (h : twf d t = true) :
    twf d (tput t k v) = true := by
  induction t with
  | nil => simp [tput, twf, hv]
  | cons c t ih =>
    obtain ⟨k0, v0⟩ := c
    obtain ⟨h0, hlt, ht⟩ := (twf_cons d k0 v0 t).mp h
    by_cases hl : k < k0
    · simp only [tput, hl, if_true]
      refine (twf_cons d k v _).mpr ⟨hv, ?_, h⟩
      intro c hc
      rcases List.mem_cons.mp hc with rfl | hc
      · exact hl
      · exact Nat.lt_trans hl (hlt c hc)
    · simp only [tput, hl, if_false]
      refine (twf_cons d k0 v0 _).mpr ⟨h0, ?_, ih (fun c hc => hk c (List.mem_cons_of_mem _ hc)) ht⟩
      intro c hc
      rcases mem_tput t k v c hc with rfl | hc
      · have : k0 ≠ k := hk (k0, v0) (by simp)
        show k0 < k
        omega
      · exact hlt c hc

/-- A write keeps the canonical form. -/
theorem twf_tset [DecidableEq α] (d : α) (t : Tbl α) (k : Nat) (v : α) (h : twf d t = true) : twf d (tset d t k v) = true := by
  unfold tset
  by_cases hv : v = d
  · simpa [hv] using twf_tdrop d t k h
  · simpa [hv] using twf_tput d _ k v hv (tdrop_fst_ne t k) (twf_tdrop d t k h)

/-- So does a change of one key. -/
theorem twf_tupd [DecidableEq α] (d : α) (t : Tbl α) (k : Nat) (f : α → α) (h : twf d t = true) : twf d (tupd d t k f) = true :=
  twf_tset d t k _ h

theorem mem_tmap [DecidableEq α] (d : α) (f : α → α) (t : Tbl α) (c : Nat × α) (h : c ∈ tmap d f t) : ∃ v, (c.1, v) ∈ t := by
  induction t with
  | nil => simp [tmap] at h
  | cons a t ih =>
    obtain ⟨k0, v0⟩ := a
    by_cases hd : f v0 = d
    · simp only [tmap, hd, if_true] at h
      obtain ⟨v, hv⟩ := ih h
      exact ⟨v, List.mem_cons_of_mem _ hv⟩
    · simp only [tmap, hd, if_false, List.mem_cons] at h
      rcases h with rfl | h
      · exact ⟨v0, by simp⟩
      · obtain ⟨v, hv⟩ := ih h
        exact ⟨v, List.mem_cons_of_mem _ hv⟩

/-- So does a change of every listed value. -/
theorem twf_tmap [DecidableEq α] (d : α) (f : α → α) (t : Tbl α) (h : twf d t = true) : twf d (tmap d f t) = true := by
  induction t with
  | nil => exact h
  | cons a t ih =>
    obtain ⟨k0, v0⟩ := a
    obtain ⟨_, hlt, ht⟩ := (twf_cons d k0 v0 t).mp h
    by_cases hd : f v0 = d
    · simpa [tmap, hd] using ih ht
    · simp only [tmap, hd, if_false]
      refine (twf_cons d k0 _ _).mpr ⟨hd, ?_, ih ht⟩
      intro c hc
      obtain ⟨v, hv⟩ := mem_tmap d f t c hc
      exact hlt (c.1, v) hv

end Sys2Proof.Machine
end

