-- ==== Sys2Proof/Laws/State.lean ====
section
/-!
SUPPORT. What each change of the state leaves and what it writes, a field at a time, so that no proof unfolds a record update.
-/
namespace Sys2Proof.Machine

/-! ### count -/

@[simp] theorem State.count_time (s : State) (ev inst n : Nat) : (s.count ev inst n).time = s.time := rfl
@[simp] theorem State.count_exe (s : State) (ev inst n : Nat) : (s.count ev inst n).exe = s.exe := rfl
@[simp] theorem State.count_ctl (s : State) (ev inst n : Nat) : (s.count ev inst n).ctl = s.ctl := rfl
@[simp] theorem State.count_lanes (s : State) (ev inst n : Nat) : (s.count ev inst n).lanes = s.lanes := rfl
@[simp] theorem State.count_eyes (s : State) (ev inst n : Nat) : (s.count ev inst n).eyes = s.eyes := rfl
@[simp] theorem State.count_links (s : State) (ev inst n : Nat) : (s.count ev inst n).links = s.links := rfl
@[simp] theorem State.count_host (s : State) (ev inst n : Nat) : (s.count ev inst n).host = s.host := rfl
@[simp] theorem State.count_queues (s : State) (ev inst n : Nat) : (s.count ev inst n).queues = s.queues := rfl
@[simp] theorem State.count_rma (s : State) (ev inst n : Nat) : (s.count ev inst n).rma = s.rma := rfl
@[simp] theorem State.count_mtch (s : State) (ev inst n : Nat) : (s.count ev inst n).mtch = s.mtch := rfl
@[simp] theorem State.count_trans (s : State) (ev inst n : Nat) : (s.count ev inst n).trans = s.trans := rfl
@[simp] theorem State.count_coll (s : State) (ev inst n : Nat) : (s.count ev inst n).coll = s.coll := rfl
@[simp] theorem State.count_sw (s : State) (ev inst n : Nat) : (s.count ev inst n).sw = s.sw := rfl
@[simp] theorem State.count_lasts (s : State) (ev inst n : Nat) : (s.count ev inst n).lasts = s.lasts := rfl
@[simp] theorem State.count_sem (s : State) (ev inst n : Nat) : (s.count ev inst n).sem = s.sem := rfl
@[simp] theorem State.count_pwr (s : State) (ev inst n : Nat) : (s.count ev inst n).pwr = s.pwr := rfl
@[simp] theorem State.count_sec (s : State) (ev inst n : Nat) : (s.count ev inst n).sec = s.sec := rfl
@[simp] theorem State.count_mon (s : State) (ev inst n : Nat) : (s.count ev inst n).mon = s.mon.count s.regs ev inst n := rfl
@[simp] theorem State.count_regs (s : State) (ev inst n : Nat) : (s.count ev inst n).regs = s.regs := rfl
@[simp] theorem State.count_mram (s : State) (ev inst n : Nat) : (s.count ev inst n).mram = s.mram := rfl
@[simp] theorem State.count_latch (s : State) (ev inst n : Nat) : (s.count ev inst n).latch = s.latch := rfl
@[simp] theorem State.count_out (s : State) (ev inst n : Nat) : (s.count ev inst n).out = s.out := rfl
@[simp] theorem State.count_freeN (s : State) (ev inst n : Nat) : (s.count ev inst n).freeN = s.freeN := rfl
@[simp] theorem State.count_pending (s : State) (ev inst n : Nat) : (s.count ev inst n).pending = s.pending := rfl

/-! ### fire -/

@[simp] theorem State.fire_time (s : State) (n : Nat) : (s.fire n).time = s.time := rfl
@[simp] theorem State.fire_exe (s : State) (n : Nat) : (s.fire n).exe = s.exe := rfl
@[simp] theorem State.fire_ctl (s : State) (n : Nat) : (s.fire n).ctl = s.ctl := rfl
@[simp] theorem State.fire_lanes (s : State) (n : Nat) : (s.fire n).lanes = s.lanes := rfl
@[simp] theorem State.fire_eyes (s : State) (n : Nat) : (s.fire n).eyes = s.eyes := rfl
@[simp] theorem State.fire_links (s : State) (n : Nat) : (s.fire n).links = s.links := rfl
@[simp] theorem State.fire_host (s : State) (n : Nat) : (s.fire n).host = s.host := rfl
@[simp] theorem State.fire_queues (s : State) (n : Nat) : (s.fire n).queues = s.queues := rfl
@[simp] theorem State.fire_rma (s : State) (n : Nat) : (s.fire n).rma = s.rma := rfl
@[simp] theorem State.fire_mtch (s : State) (n : Nat) : (s.fire n).mtch = s.mtch := rfl
@[simp] theorem State.fire_trans (s : State) (n : Nat) : (s.fire n).trans = s.trans := rfl
@[simp] theorem State.fire_coll (s : State) (n : Nat) : (s.fire n).coll = s.coll := rfl
@[simp] theorem State.fire_sw (s : State) (n : Nat) : (s.fire n).sw = s.sw := rfl
@[simp] theorem State.fire_lasts (s : State) (n : Nat) : (s.fire n).lasts = s.lasts := rfl
@[simp] theorem State.fire_sem (s : State) (n : Nat) : (s.fire n).sem = s.sem := rfl
@[simp] theorem State.fire_pwr (s : State) (n : Nat) : (s.fire n).pwr = s.pwr := rfl
@[simp] theorem State.fire_sec (s : State) (n : Nat) : (s.fire n).sec = s.sec := rfl
@[simp] theorem State.fire_mon (s : State) (n : Nat) : (s.fire n).mon = s.mon.fire s.regs n := rfl
@[simp] theorem State.fire_regs (s : State) (n : Nat) : (s.fire n).regs = s.regs := rfl
@[simp] theorem State.fire_mram (s : State) (n : Nat) : (s.fire n).mram = s.mram := rfl
@[simp] theorem State.fire_latch (s : State) (n : Nat) : (s.fire n).latch = s.latch := rfl
@[simp] theorem State.fire_out (s : State) (n : Nat) : (s.fire n).out = s.out := rfl
@[simp] theorem State.fire_freeN (s : State) (n : Nat) : (s.fire n).freeN = s.freeN := rfl
@[simp] theorem State.fire_pending (s : State) (n : Nat) : (s.fire n).pending = s.pending := rfl

/-! ### event -/

@[simp] theorem State.event_time (s : State) (ev : Obj) (row bit : Nat) : (s.event ev row bit).time = s.time := rfl
@[simp] theorem State.event_exe (s : State) (ev : Obj) (row bit : Nat) : (s.event ev row bit).exe = s.exe := rfl
@[simp] theorem State.event_ctl (s : State) (ev : Obj) (row bit : Nat) : (s.event ev row bit).ctl = s.ctl := rfl
@[simp] theorem State.event_lanes (s : State) (ev : Obj) (row bit : Nat) : (s.event ev row bit).lanes = s.lanes := rfl
@[simp] theorem State.event_eyes (s : State) (ev : Obj) (row bit : Nat) : (s.event ev row bit).eyes = s.eyes := rfl
@[simp] theorem State.event_links (s : State) (ev : Obj) (row bit : Nat) : (s.event ev row bit).links = s.links := rfl
@[simp] theorem State.event_host (s : State) (ev : Obj) (row bit : Nat) : (s.event ev row bit).host = s.host := rfl
@[simp] theorem State.event_queues (s : State) (ev : Obj) (row bit : Nat) : (s.event ev row bit).queues = s.queues := rfl
@[simp] theorem State.event_rma (s : State) (ev : Obj) (row bit : Nat) : (s.event ev row bit).rma = s.rma := rfl
@[simp] theorem State.event_mtch (s : State) (ev : Obj) (row bit : Nat) : (s.event ev row bit).mtch = s.mtch := rfl
@[simp] theorem State.event_trans (s : State) (ev : Obj) (row bit : Nat) : (s.event ev row bit).trans = s.trans := rfl
@[simp] theorem State.event_coll (s : State) (ev : Obj) (row bit : Nat) : (s.event ev row bit).coll = s.coll := rfl
@[simp] theorem State.event_sw (s : State) (ev : Obj) (row bit : Nat) : (s.event ev row bit).sw = s.sw := rfl
@[simp] theorem State.event_lasts (s : State) (ev : Obj) (row bit : Nat) : (s.event ev row bit).lasts = s.lasts := rfl
@[simp] theorem State.event_sem (s : State) (ev : Obj) (row bit : Nat) : (s.event ev row bit).sem = s.sem := rfl
@[simp] theorem State.event_pwr (s : State) (ev : Obj) (row bit : Nat) : (s.event ev row bit).pwr = s.pwr := rfl
@[simp] theorem State.event_sec (s : State) (ev : Obj) (row bit : Nat) : (s.event ev row bit).sec = s.sec := rfl
@[simp] theorem State.event_mon (s : State) (ev : Obj) (row bit : Nat) : (s.event ev row bit).mon = s.mon.event s.regs ev row bit := rfl
@[simp] theorem State.event_regs (s : State) (ev : Obj) (row bit : Nat) : (s.event ev row bit).regs = s.regs := rfl
@[simp] theorem State.event_mram (s : State) (ev : Obj) (row bit : Nat) : (s.event ev row bit).mram = s.mram := rfl
@[simp] theorem State.event_latch (s : State) (ev : Obj) (row bit : Nat) : (s.event ev row bit).latch = s.latch := rfl
@[simp] theorem State.event_out (s : State) (ev : Obj) (row bit : Nat) : (s.event ev row bit).out = s.out := rfl
@[simp] theorem State.event_freeN (s : State) (ev : Obj) (row bit : Nat) : (s.event ev row bit).freeN = s.freeN := rfl
@[simp] theorem State.event_pending (s : State) (ev : Obj) (row bit : Nat) : (s.event ev row bit).pending = s.pending := rfl

/-! ### raise -/

@[simp] theorem State.raise_time (s : State) (code scope inst detail : Nat) : (s.raise code scope inst detail).time = s.time := rfl
@[simp] theorem State.raise_exe (s : State) (code scope inst detail : Nat) : (s.raise code scope inst detail).exe = s.exe := rfl
@[simp] theorem State.raise_ctl (s : State) (code scope inst detail : Nat) : (s.raise code scope inst detail).ctl = s.ctl := rfl
@[simp] theorem State.raise_lanes (s : State) (code scope inst detail : Nat) : (s.raise code scope inst detail).lanes = s.lanes := rfl
@[simp] theorem State.raise_eyes (s : State) (code scope inst detail : Nat) : (s.raise code scope inst detail).eyes = s.eyes := rfl
@[simp] theorem State.raise_links (s : State) (code scope inst detail : Nat) : (s.raise code scope inst detail).links = s.links := rfl
@[simp] theorem State.raise_host (s : State) (code scope inst detail : Nat) : (s.raise code scope inst detail).host = s.host := rfl
@[simp] theorem State.raise_queues (s : State) (code scope inst detail : Nat) : (s.raise code scope inst detail).queues = s.queues := rfl
@[simp] theorem State.raise_rma (s : State) (code scope inst detail : Nat) : (s.raise code scope inst detail).rma = s.rma := rfl
@[simp] theorem State.raise_mtch (s : State) (code scope inst detail : Nat) : (s.raise code scope inst detail).mtch = s.mtch := rfl
@[simp] theorem State.raise_trans (s : State) (code scope inst detail : Nat) : (s.raise code scope inst detail).trans = s.trans := rfl
@[simp] theorem State.raise_coll (s : State) (code scope inst detail : Nat) : (s.raise code scope inst detail).coll = s.coll := rfl
@[simp] theorem State.raise_sw (s : State) (code scope inst detail : Nat) : (s.raise code scope inst detail).sw = s.sw := rfl
@[simp] theorem State.raise_lasts (s : State) (code scope inst detail : Nat) : (s.raise code scope inst detail).lasts = s.lasts := rfl
@[simp] theorem State.raise_sem (s : State) (code scope inst detail : Nat) : (s.raise code scope inst detail).sem = s.sem := rfl
@[simp] theorem State.raise_pwr (s : State) (code scope inst detail : Nat) : (s.raise code scope inst detail).pwr = s.pwr := rfl
@[simp] theorem State.raise_sec (s : State) (code scope inst detail : Nat) : (s.raise code scope inst detail).sec = s.sec := rfl
@[simp] theorem State.raise_mon (s : State) (code scope inst detail : Nat) : (s.raise code scope inst detail).mon = s.mon.raise s.regs s.time.count code scope inst detail := rfl
@[simp] theorem State.raise_regs (s : State) (code scope inst detail : Nat) : (s.raise code scope inst detail).regs = s.regs := rfl
@[simp] theorem State.raise_mram (s : State) (code scope inst detail : Nat) : (s.raise code scope inst detail).mram = s.mram := rfl
@[simp] theorem State.raise_latch (s : State) (code scope inst detail : Nat) : (s.raise code scope inst detail).latch = s.latch := rfl
@[simp] theorem State.raise_out (s : State) (code scope inst detail : Nat) : (s.raise code scope inst detail).out = s.out := rfl
@[simp] theorem State.raise_freeN (s : State) (code scope inst detail : Nat) : (s.raise code scope inst detail).freeN = s.freeN := rfl
@[simp] theorem State.raise_pending (s : State) (code scope inst detail : Nat) : (s.raise code scope inst detail).pending = s.pending := rfl

/-! ### wrote -/

@[simp] theorem State.wrote_time (s : State) (st : Nat) : (s.wrote st).time = s.time := rfl
@[simp] theorem State.wrote_exe (s : State) (st : Nat) : (s.wrote st).exe = s.exe := rfl
@[simp] theorem State.wrote_ctl (s : State) (st : Nat) : (s.wrote st).ctl = { s.ctl with writeStatus := st } := rfl
@[simp] theorem State.wrote_lanes (s : State) (st : Nat) : (s.wrote st).lanes = s.lanes := rfl
@[simp] theorem State.wrote_eyes (s : State) (st : Nat) : (s.wrote st).eyes = s.eyes := rfl
@[simp] theorem State.wrote_links (s : State) (st : Nat) : (s.wrote st).links = s.links := rfl
@[simp] theorem State.wrote_host (s : State) (st : Nat) : (s.wrote st).host = s.host := rfl
@[simp] theorem State.wrote_queues (s : State) (st : Nat) : (s.wrote st).queues = s.queues := rfl
@[simp] theorem State.wrote_rma (s : State) (st : Nat) : (s.wrote st).rma = s.rma := rfl
@[simp] theorem State.wrote_mtch (s : State) (st : Nat) : (s.wrote st).mtch = s.mtch := rfl
@[simp] theorem State.wrote_trans (s : State) (st : Nat) : (s.wrote st).trans = s.trans := rfl
@[simp] theorem State.wrote_coll (s : State) (st : Nat) : (s.wrote st).coll = s.coll := rfl
@[simp] theorem State.wrote_sw (s : State) (st : Nat) : (s.wrote st).sw = s.sw := rfl
@[simp] theorem State.wrote_lasts (s : State) (st : Nat) : (s.wrote st).lasts = s.lasts := rfl
@[simp] theorem State.wrote_sem (s : State) (st : Nat) : (s.wrote st).sem = s.sem := rfl
@[simp] theorem State.wrote_pwr (s : State) (st : Nat) : (s.wrote st).pwr = s.pwr := rfl
@[simp] theorem State.wrote_sec (s : State) (st : Nat) : (s.wrote st).sec = s.sec := rfl
@[simp] theorem State.wrote_mon (s : State) (st : Nat) : (s.wrote st).mon = s.mon := rfl
@[simp] theorem State.wrote_regs (s : State) (st : Nat) : (s.wrote st).regs = s.regs := rfl
@[simp] theorem State.wrote_mram (s : State) (st : Nat) : (s.wrote st).mram = s.mram := rfl
@[simp] theorem State.wrote_latch (s : State) (st : Nat) : (s.wrote st).latch = s.latch := rfl
@[simp] theorem State.wrote_out (s : State) (st : Nat) : (s.wrote st).out = s.out := rfl
@[simp] theorem State.wrote_freeN (s : State) (st : Nat) : (s.wrote st).freeN = s.freeN := rfl
@[simp] theorem State.wrote_pending (s : State) (st : Nat) : (s.wrote st).pending = s.pending := rfl

/-! ### latched -/

@[simp] theorem State.latched_time (s : State) : (s.latched).time = s.time := rfl
@[simp] theorem State.latched_exe (s : State) : (s.latched).exe = s.exe := rfl
@[simp] theorem State.latched_ctl (s : State) : (s.latched).ctl = s.ctl := rfl
@[simp] theorem State.latched_lanes (s : State) : (s.latched).lanes = s.lanes := rfl
@[simp] theorem State.latched_eyes (s : State) : (s.latched).eyes = s.eyes := rfl
@[simp] theorem State.latched_links (s : State) : (s.latched).links = s.links := rfl
@[simp] theorem State.latched_host (s : State) : (s.latched).host = s.host := rfl
@[simp] theorem State.latched_queues (s : State) : (s.latched).queues = s.queues := rfl
@[simp] theorem State.latched_rma (s : State) : (s.latched).rma = s.rma := rfl
@[simp] theorem State.latched_mtch (s : State) : (s.latched).mtch = s.mtch := rfl
@[simp] theorem State.latched_trans (s : State) : (s.latched).trans = s.trans := rfl
@[simp] theorem State.latched_coll (s : State) : (s.latched).coll = s.coll := rfl
@[simp] theorem State.latched_sw (s : State) : (s.latched).sw = s.sw := rfl
@[simp] theorem State.latched_lasts (s : State) : (s.latched).lasts = s.lasts := rfl
@[simp] theorem State.latched_sem (s : State) : (s.latched).sem = s.sem := rfl
@[simp] theorem State.latched_pwr (s : State) : (s.latched).pwr = s.pwr := rfl
@[simp] theorem State.latched_sec (s : State) : (s.latched).sec = s.sec := rfl
@[simp] theorem State.latched_mon (s : State) : (s.latched).mon = s.mon := rfl
@[simp] theorem State.latched_regs (s : State) : (s.latched).regs = s.regs := rfl
@[simp] theorem State.latched_mram (s : State) : (s.latched).mram = s.mram := rfl
@[simp] theorem State.latched_latch (s : State) : (s.latched).latch = s.toChip := rfl
@[simp] theorem State.latched_out (s : State) : (s.latched).out = s.out := rfl
@[simp] theorem State.latched_freeN (s : State) : (s.latched).freeN = s.freeN := rfl
@[simp] theorem State.latched_pending (s : State) : (s.latched).pending = s.pending := rfl

/-! ### emit -/

@[simp] theorem State.emit_time (s : State) (o : Out) : (s.emit o).time = s.time := rfl
@[simp] theorem State.emit_exe (s : State) (o : Out) : (s.emit o).exe = s.exe := rfl
@[simp] theorem State.emit_ctl (s : State) (o : Out) : (s.emit o).ctl = s.ctl := rfl
@[simp] theorem State.emit_lanes (s : State) (o : Out) : (s.emit o).lanes = s.lanes := rfl
@[simp] theorem State.emit_eyes (s : State) (o : Out) : (s.emit o).eyes = s.eyes := rfl
@[simp] theorem State.emit_links (s : State) (o : Out) : (s.emit o).links = s.links := rfl
@[simp] theorem State.emit_host (s : State) (o : Out) : (s.emit o).host = s.host := rfl
@[simp] theorem State.emit_queues (s : State) (o : Out) : (s.emit o).queues = s.queues := rfl
@[simp] theorem State.emit_rma (s : State) (o : Out) : (s.emit o).rma = s.rma := rfl
@[simp] theorem State.emit_mtch (s : State) (o : Out) : (s.emit o).mtch = s.mtch := rfl
@[simp] theorem State.emit_trans (s : State) (o : Out) : (s.emit o).trans = s.trans := rfl
@[simp] theorem State.emit_coll (s : State) (o : Out) : (s.emit o).coll = s.coll := rfl
@[simp] theorem State.emit_sw (s : State) (o : Out) : (s.emit o).sw = s.sw := rfl
@[simp] theorem State.emit_lasts (s : State) (o : Out) : (s.emit o).lasts = s.lasts := rfl
@[simp] theorem State.emit_sem (s : State) (o : Out) : (s.emit o).sem = s.sem := rfl
@[simp] theorem State.emit_pwr (s : State) (o : Out) : (s.emit o).pwr = s.pwr := rfl
@[simp] theorem State.emit_sec (s : State) (o : Out) : (s.emit o).sec = s.sec := rfl
@[simp] theorem State.emit_mon (s : State) (o : Out) : (s.emit o).mon = s.mon := rfl
@[simp] theorem State.emit_regs (s : State) (o : Out) : (s.emit o).regs = s.regs := rfl
@[simp] theorem State.emit_mram (s : State) (o : Out) : (s.emit o).mram = s.mram := rfl
@[simp] theorem State.emit_latch (s : State) (o : Out) : (s.emit o).latch = s.latch := rfl
@[simp] theorem State.emit_out (s : State) (o : Out) : (s.emit o).out = o :: s.out := rfl
@[simp] theorem State.emit_freeN (s : State) (o : Out) : (s.emit o).freeN = s.freeN := rfl
@[simp] theorem State.emit_pending (s : State) (o : Out) : (s.emit o).pending = s.pending := rfl

/-! ### took -/

@[simp] theorem State.took_time (s : State) : (s.took).time = s.time := rfl
@[simp] theorem State.took_exe (s : State) : (s.took).exe = s.exe := rfl
@[simp] theorem State.took_ctl (s : State) : (s.took).ctl = s.ctl := rfl
@[simp] theorem State.took_lanes (s : State) : (s.took).lanes = s.lanes := rfl
@[simp] theorem State.took_eyes (s : State) : (s.took).eyes = s.eyes := rfl
@[simp] theorem State.took_links (s : State) : (s.took).links = s.links := rfl
@[simp] theorem State.took_host (s : State) : (s.took).host = s.host := rfl
@[simp] theorem State.took_queues (s : State) : (s.took).queues = s.queues := rfl
@[simp] theorem State.took_rma (s : State) : (s.took).rma = s.rma := rfl
@[simp] theorem State.took_mtch (s : State) : (s.took).mtch = s.mtch := rfl
@[simp] theorem State.took_trans (s : State) : (s.took).trans = s.trans := rfl
@[simp] theorem State.took_coll (s : State) : (s.took).coll = s.coll := rfl
@[simp] theorem State.took_sw (s : State) : (s.took).sw = s.sw := rfl
@[simp] theorem State.took_lasts (s : State) : (s.took).lasts = s.lasts := rfl
@[simp] theorem State.took_sem (s : State) : (s.took).sem = s.sem := rfl
@[simp] theorem State.took_pwr (s : State) : (s.took).pwr = s.pwr := rfl
@[simp] theorem State.took_sec (s : State) : (s.took).sec = s.sec := rfl
@[simp] theorem State.took_mon (s : State) : (s.took).mon = s.mon := rfl
@[simp] theorem State.took_regs (s : State) : (s.took).regs = s.regs := rfl
@[simp] theorem State.took_mram (s : State) : (s.took).mram = s.mram := rfl
@[simp] theorem State.took_latch (s : State) : (s.took).latch = s.latch := rfl
@[simp] theorem State.took_out (s : State) : (s.took).out = s.out := rfl
@[simp] theorem State.took_freeN (s : State) : (s.took).freeN = s.freeN + 1 := rfl
@[simp] theorem State.took_pending (s : State) : (s.took).pending = s.pending := rfl

/-! ### setReg -/

@[simp] theorem State.setReg_time (s : State) (o : Obj) (row v : Nat) : (s.setReg o row v).time = s.time := rfl
@[simp] theorem State.setReg_exe (s : State) (o : Obj) (row v : Nat) : (s.setReg o row v).exe = s.exe := rfl
@[simp] theorem State.setReg_ctl (s : State) (o : Obj) (row v : Nat) : (s.setReg o row v).ctl = s.ctl := rfl
@[simp] theorem State.setReg_lanes (s : State) (o : Obj) (row v : Nat) : (s.setReg o row v).lanes = s.lanes := rfl
@[simp] theorem State.setReg_eyes (s : State) (o : Obj) (row v : Nat) : (s.setReg o row v).eyes = s.eyes := rfl
@[simp] theorem State.setReg_links (s : State) (o : Obj) (row v : Nat) : (s.setReg o row v).links = s.links := rfl
@[simp] theorem State.setReg_host (s : State) (o : Obj) (row v : Nat) : (s.setReg o row v).host = s.host := rfl
@[simp] theorem State.setReg_queues (s : State) (o : Obj) (row v : Nat) : (s.setReg o row v).queues = s.queues := rfl
@[simp] theorem State.setReg_rma (s : State) (o : Obj) (row v : Nat) : (s.setReg o row v).rma = s.rma := rfl
@[simp] theorem State.setReg_mtch (s : State) (o : Obj) (row v : Nat) : (s.setReg o row v).mtch = s.mtch := rfl
@[simp] theorem State.setReg_trans (s : State) (o : Obj) (row v : Nat) : (s.setReg o row v).trans = s.trans := rfl
@[simp] theorem State.setReg_coll (s : State) (o : Obj) (row v : Nat) : (s.setReg o row v).coll = s.coll := rfl
@[simp] theorem State.setReg_sw (s : State) (o : Obj) (row v : Nat) : (s.setReg o row v).sw = s.sw := rfl
@[simp] theorem State.setReg_lasts (s : State) (o : Obj) (row v : Nat) : (s.setReg o row v).lasts = s.lasts := rfl
@[simp] theorem State.setReg_sem (s : State) (o : Obj) (row v : Nat) : (s.setReg o row v).sem = s.sem := rfl
@[simp] theorem State.setReg_pwr (s : State) (o : Obj) (row v : Nat) : (s.setReg o row v).pwr = s.pwr := rfl
@[simp] theorem State.setReg_sec (s : State) (o : Obj) (row v : Nat) : (s.setReg o row v).sec = s.sec := rfl
@[simp] theorem State.setReg_mon (s : State) (o : Obj) (row v : Nat) : (s.setReg o row v).mon = s.mon := rfl
@[simp] theorem State.setReg_regs (s : State) (o : Obj) (row v : Nat) : (s.setReg o row v).regs = regSet s.regs o row v := rfl
@[simp] theorem State.setReg_mram (s : State) (o : Obj) (row v : Nat) : (s.setReg o row v).mram = s.mram := rfl
@[simp] theorem State.setReg_latch (s : State) (o : Obj) (row v : Nat) : (s.setReg o row v).latch = s.latch := rfl
@[simp] theorem State.setReg_out (s : State) (o : Obj) (row v : Nat) : (s.setReg o row v).out = s.out := rfl
@[simp] theorem State.setReg_freeN (s : State) (o : Obj) (row v : Nat) : (s.setReg o row v).freeN = s.freeN := rfl
@[simp] theorem State.setReg_pending (s : State) (o : Obj) (row v : Nat) : (s.setReg o row v).pending = s.pending := rfl

/-! ### updLane -/

@[simp] theorem State.updLane_time (s : State) (p : Nat) (f : LanePort → LanePort) : (s.updLane p f).time = s.time := rfl
@[simp] theorem State.updLane_exe (s : State) (p : Nat) (f : LanePort → LanePort) : (s.updLane p f).exe = s.exe := rfl
@[simp] theorem State.updLane_ctl (s : State) (p : Nat) (f : LanePort → LanePort) : (s.updLane p f).ctl = s.ctl := rfl
@[simp] theorem State.updLane_lanes (s : State) (p : Nat) (f : LanePort → LanePort) : (s.updLane p f).lanes = tupd {} s.lanes p f := rfl
@[simp] theorem State.updLane_eyes (s : State) (p : Nat) (f : LanePort → LanePort) : (s.updLane p f).eyes = s.eyes := rfl
@[simp] theorem State.updLane_links (s : State) (p : Nat) (f : LanePort → LanePort) : (s.updLane p f).links = s.links := rfl
@[simp] theorem State.updLane_host (s : State) (p : Nat) (f : LanePort → LanePort) : (s.updLane p f).host = s.host := rfl
@[simp] theorem State.updLane_queues (s : State) (p : Nat) (f : LanePort → LanePort) : (s.updLane p f).queues = s.queues := rfl
@[simp] theorem State.updLane_rma (s : State) (p : Nat) (f : LanePort → LanePort) : (s.updLane p f).rma = s.rma := rfl
@[simp] theorem State.updLane_mtch (s : State) (p : Nat) (f : LanePort → LanePort) : (s.updLane p f).mtch = s.mtch := rfl
@[simp] theorem State.updLane_trans (s : State) (p : Nat) (f : LanePort → LanePort) : (s.updLane p f).trans = s.trans := rfl
@[simp] theorem State.updLane_coll (s : State) (p : Nat) (f : LanePort → LanePort) : (s.updLane p f).coll = s.coll := rfl
@[simp] theorem State.updLane_sw (s : State) (p : Nat) (f : LanePort → LanePort) : (s.updLane p f).sw = s.sw := rfl
@[simp] theorem State.updLane_lasts (s : State) (p : Nat) (f : LanePort → LanePort) : (s.updLane p f).lasts = s.lasts := rfl
@[simp] theorem State.updLane_sem (s : State) (p : Nat) (f : LanePort → LanePort) : (s.updLane p f).sem = s.sem := rfl
@[simp] theorem State.updLane_pwr (s : State) (p : Nat) (f : LanePort → LanePort) : (s.updLane p f).pwr = s.pwr := rfl
@[simp] theorem State.updLane_sec (s : State) (p : Nat) (f : LanePort → LanePort) : (s.updLane p f).sec = s.sec := rfl
@[simp] theorem State.updLane_mon (s : State) (p : Nat) (f : LanePort → LanePort) : (s.updLane p f).mon = s.mon := rfl
@[simp] theorem State.updLane_regs (s : State) (p : Nat) (f : LanePort → LanePort) : (s.updLane p f).regs = s.regs := rfl
@[simp] theorem State.updLane_mram (s : State) (p : Nat) (f : LanePort → LanePort) : (s.updLane p f).mram = s.mram := rfl
@[simp] theorem State.updLane_latch (s : State) (p : Nat) (f : LanePort → LanePort) : (s.updLane p f).latch = s.latch := rfl
@[simp] theorem State.updLane_out (s : State) (p : Nat) (f : LanePort → LanePort) : (s.updLane p f).out = s.out := rfl
@[simp] theorem State.updLane_freeN (s : State) (p : Nat) (f : LanePort → LanePort) : (s.updLane p f).freeN = s.freeN := rfl
@[simp] theorem State.updLane_pending (s : State) (p : Nat) (f : LanePort → LanePort) : (s.updLane p f).pending = s.pending := rfl

/-! ### updLink -/

@[simp] theorem State.updLink_time (s : State) (p : Nat) (f : LinkPort → LinkPort) : (s.updLink p f).time = s.time := rfl
@[simp] theorem State.updLink_exe (s : State) (p : Nat) (f : LinkPort → LinkPort) : (s.updLink p f).exe = s.exe := rfl
@[simp] theorem State.updLink_ctl (s : State) (p : Nat) (f : LinkPort → LinkPort) : (s.updLink p f).ctl = s.ctl := rfl
@[simp] theorem State.updLink_lanes (s : State) (p : Nat) (f : LinkPort → LinkPort) : (s.updLink p f).lanes = s.lanes := rfl
@[simp] theorem State.updLink_eyes (s : State) (p : Nat) (f : LinkPort → LinkPort) : (s.updLink p f).eyes = s.eyes := rfl
@[simp] theorem State.updLink_links (s : State) (p : Nat) (f : LinkPort → LinkPort) : (s.updLink p f).links = tupd {} s.links p f := rfl
@[simp] theorem State.updLink_host (s : State) (p : Nat) (f : LinkPort → LinkPort) : (s.updLink p f).host = s.host := rfl
@[simp] theorem State.updLink_queues (s : State) (p : Nat) (f : LinkPort → LinkPort) : (s.updLink p f).queues = s.queues := rfl
@[simp] theorem State.updLink_rma (s : State) (p : Nat) (f : LinkPort → LinkPort) : (s.updLink p f).rma = s.rma := rfl
@[simp] theorem State.updLink_mtch (s : State) (p : Nat) (f : LinkPort → LinkPort) : (s.updLink p f).mtch = s.mtch := rfl
@[simp] theorem State.updLink_trans (s : State) (p : Nat) (f : LinkPort → LinkPort) : (s.updLink p f).trans = s.trans := rfl
@[simp] theorem State.updLink_coll (s : State) (p : Nat) (f : LinkPort → LinkPort) : (s.updLink p f).coll = s.coll := rfl
@[simp] theorem State.updLink_sw (s : State) (p : Nat) (f : LinkPort → LinkPort) : (s.updLink p f).sw = s.sw := rfl
@[simp] theorem State.updLink_lasts (s : State) (p : Nat) (f : LinkPort → LinkPort) : (s.updLink p f).lasts = s.lasts := rfl
@[simp] theorem State.updLink_sem (s : State) (p : Nat) (f : LinkPort → LinkPort) : (s.updLink p f).sem = s.sem := rfl
@[simp] theorem State.updLink_pwr (s : State) (p : Nat) (f : LinkPort → LinkPort) : (s.updLink p f).pwr = s.pwr := rfl
@[simp] theorem State.updLink_sec (s : State) (p : Nat) (f : LinkPort → LinkPort) : (s.updLink p f).sec = s.sec := rfl
@[simp] theorem State.updLink_mon (s : State) (p : Nat) (f : LinkPort → LinkPort) : (s.updLink p f).mon = s.mon := rfl
@[simp] theorem State.updLink_regs (s : State) (p : Nat) (f : LinkPort → LinkPort) : (s.updLink p f).regs = s.regs := rfl
@[simp] theorem State.updLink_mram (s : State) (p : Nat) (f : LinkPort → LinkPort) : (s.updLink p f).mram = s.mram := rfl
@[simp] theorem State.updLink_latch (s : State) (p : Nat) (f : LinkPort → LinkPort) : (s.updLink p f).latch = s.latch := rfl
@[simp] theorem State.updLink_out (s : State) (p : Nat) (f : LinkPort → LinkPort) : (s.updLink p f).out = s.out := rfl
@[simp] theorem State.updLink_freeN (s : State) (p : Nat) (f : LinkPort → LinkPort) : (s.updLink p f).freeN = s.freeN := rfl
@[simp] theorem State.updLink_pending (s : State) (p : Nat) (f : LinkPort → LinkPort) : (s.updLink p f).pending = s.pending := rfl

/-! ### updTport -/

@[simp] theorem State.updTport_time (s : State) (p : Nat) (f : TimePort → TimePort) : (s.updTport p f).time = { s.time with ports := tupd {} s.time.ports p f } := rfl
@[simp] theorem State.updTport_exe (s : State) (p : Nat) (f : TimePort → TimePort) : (s.updTport p f).exe = s.exe := rfl
@[simp] theorem State.updTport_ctl (s : State) (p : Nat) (f : TimePort → TimePort) : (s.updTport p f).ctl = s.ctl := rfl
@[simp] theorem State.updTport_lanes (s : State) (p : Nat) (f : TimePort → TimePort) : (s.updTport p f).lanes = s.lanes := rfl
@[simp] theorem State.updTport_eyes (s : State) (p : Nat) (f : TimePort → TimePort) : (s.updTport p f).eyes = s.eyes := rfl
@[simp] theorem State.updTport_links (s : State) (p : Nat) (f : TimePort → TimePort) : (s.updTport p f).links = s.links := rfl
@[simp] theorem State.updTport_host (s : State) (p : Nat) (f : TimePort → TimePort) : (s.updTport p f).host = s.host := rfl
@[simp] theorem State.updTport_queues (s : State) (p : Nat) (f : TimePort → TimePort) : (s.updTport p f).queues = s.queues := rfl
@[simp] theorem State.updTport_rma (s : State) (p : Nat) (f : TimePort → TimePort) : (s.updTport p f).rma = s.rma := rfl
@[simp] theorem State.updTport_mtch (s : State) (p : Nat) (f : TimePort → TimePort) : (s.updTport p f).mtch = s.mtch := rfl
@[simp] theorem State.updTport_trans (s : State) (p : Nat) (f : TimePort → TimePort) : (s.updTport p f).trans = s.trans := rfl
@[simp] theorem State.updTport_coll (s : State) (p : Nat) (f : TimePort → TimePort) : (s.updTport p f).coll = s.coll := rfl
@[simp] theorem State.updTport_sw (s : State) (p : Nat) (f : TimePort → TimePort) : (s.updTport p f).sw = s.sw := rfl
@[simp] theorem State.updTport_lasts (s : State) (p : Nat) (f : TimePort → TimePort) : (s.updTport p f).lasts = s.lasts := rfl
@[simp] theorem State.updTport_sem (s : State) (p : Nat) (f : TimePort → TimePort) : (s.updTport p f).sem = s.sem := rfl
@[simp] theorem State.updTport_pwr (s : State) (p : Nat) (f : TimePort → TimePort) : (s.updTport p f).pwr = s.pwr := rfl
@[simp] theorem State.updTport_sec (s : State) (p : Nat) (f : TimePort → TimePort) : (s.updTport p f).sec = s.sec := rfl
@[simp] theorem State.updTport_mon (s : State) (p : Nat) (f : TimePort → TimePort) : (s.updTport p f).mon = s.mon := rfl
@[simp] theorem State.updTport_regs (s : State) (p : Nat) (f : TimePort → TimePort) : (s.updTport p f).regs = s.regs := rfl
@[simp] theorem State.updTport_mram (s : State) (p : Nat) (f : TimePort → TimePort) : (s.updTport p f).mram = s.mram := rfl
@[simp] theorem State.updTport_latch (s : State) (p : Nat) (f : TimePort → TimePort) : (s.updTport p f).latch = s.latch := rfl
@[simp] theorem State.updTport_out (s : State) (p : Nat) (f : TimePort → TimePort) : (s.updTport p f).out = s.out := rfl
@[simp] theorem State.updTport_freeN (s : State) (p : Nat) (f : TimePort → TimePort) : (s.updTport p f).freeN = s.freeN := rfl
@[simp] theorem State.updTport_pending (s : State) (p : Nat) (f : TimePort → TimePort) : (s.updTport p f).pending = s.pending := rfl

/-! ### updSw -/

@[simp] theorem State.updSw_time (s : State) (f : SwUnit → SwUnit) : (s.updSw f).time = s.time := rfl
@[simp] theorem State.updSw_exe (s : State) (f : SwUnit → SwUnit) : (s.updSw f).exe = s.exe := rfl
@[simp] theorem State.updSw_ctl (s : State) (f : SwUnit → SwUnit) : (s.updSw f).ctl = s.ctl := rfl
@[simp] theorem State.updSw_lanes (s : State) (f : SwUnit → SwUnit) : (s.updSw f).lanes = s.lanes := rfl
@[simp] theorem State.updSw_eyes (s : State) (f : SwUnit → SwUnit) : (s.updSw f).eyes = s.eyes := rfl
@[simp] theorem State.updSw_links (s : State) (f : SwUnit → SwUnit) : (s.updSw f).links = s.links := rfl
@[simp] theorem State.updSw_host (s : State) (f : SwUnit → SwUnit) : (s.updSw f).host = s.host := rfl
@[simp] theorem State.updSw_queues (s : State) (f : SwUnit → SwUnit) : (s.updSw f).queues = s.queues := rfl
@[simp] theorem State.updSw_rma (s : State) (f : SwUnit → SwUnit) : (s.updSw f).rma = s.rma := rfl
@[simp] theorem State.updSw_mtch (s : State) (f : SwUnit → SwUnit) : (s.updSw f).mtch = s.mtch := rfl
@[simp] theorem State.updSw_trans (s : State) (f : SwUnit → SwUnit) : (s.updSw f).trans = s.trans := rfl
@[simp] theorem State.updSw_coll (s : State) (f : SwUnit → SwUnit) : (s.updSw f).coll = s.coll := rfl
@[simp] theorem State.updSw_sw (s : State) (f : SwUnit → SwUnit) : (s.updSw f).sw = f s.sw := rfl
@[simp] theorem State.updSw_lasts (s : State) (f : SwUnit → SwUnit) : (s.updSw f).lasts = s.lasts := rfl
@[simp] theorem State.updSw_sem (s : State) (f : SwUnit → SwUnit) : (s.updSw f).sem = s.sem := rfl
@[simp] theorem State.updSw_pwr (s : State) (f : SwUnit → SwUnit) : (s.updSw f).pwr = s.pwr := rfl
@[simp] theorem State.updSw_sec (s : State) (f : SwUnit → SwUnit) : (s.updSw f).sec = s.sec := rfl
@[simp] theorem State.updSw_mon (s : State) (f : SwUnit → SwUnit) : (s.updSw f).mon = s.mon := rfl
@[simp] theorem State.updSw_regs (s : State) (f : SwUnit → SwUnit) : (s.updSw f).regs = s.regs := rfl
@[simp] theorem State.updSw_mram (s : State) (f : SwUnit → SwUnit) : (s.updSw f).mram = s.mram := rfl
@[simp] theorem State.updSw_latch (s : State) (f : SwUnit → SwUnit) : (s.updSw f).latch = s.latch := rfl
@[simp] theorem State.updSw_out (s : State) (f : SwUnit → SwUnit) : (s.updSw f).out = s.out := rfl
@[simp] theorem State.updSw_freeN (s : State) (f : SwUnit → SwUnit) : (s.updSw f).freeN = s.freeN := rfl
@[simp] theorem State.updSw_pending (s : State) (f : SwUnit → SwUnit) : (s.updSw f).pending = s.pending := rfl

/-! ### updPkt -/

@[simp] theorem State.updPkt_time (s : State) (k : Nat) (f : SwPkt → SwPkt) : (s.updPkt k f).time = s.time := rfl
@[simp] theorem State.updPkt_exe (s : State) (k : Nat) (f : SwPkt → SwPkt) : (s.updPkt k f).exe = s.exe := rfl
@[simp] theorem State.updPkt_ctl (s : State) (k : Nat) (f : SwPkt → SwPkt) : (s.updPkt k f).ctl = s.ctl := rfl
@[simp] theorem State.updPkt_lanes (s : State) (k : Nat) (f : SwPkt → SwPkt) : (s.updPkt k f).lanes = s.lanes := rfl
@[simp] theorem State.updPkt_eyes (s : State) (k : Nat) (f : SwPkt → SwPkt) : (s.updPkt k f).eyes = s.eyes := rfl
@[simp] theorem State.updPkt_links (s : State) (k : Nat) (f : SwPkt → SwPkt) : (s.updPkt k f).links = s.links := rfl
@[simp] theorem State.updPkt_host (s : State) (k : Nat) (f : SwPkt → SwPkt) : (s.updPkt k f).host = s.host := rfl
@[simp] theorem State.updPkt_queues (s : State) (k : Nat) (f : SwPkt → SwPkt) : (s.updPkt k f).queues = s.queues := rfl
@[simp] theorem State.updPkt_rma (s : State) (k : Nat) (f : SwPkt → SwPkt) : (s.updPkt k f).rma = s.rma := rfl
@[simp] theorem State.updPkt_mtch (s : State) (k : Nat) (f : SwPkt → SwPkt) : (s.updPkt k f).mtch = s.mtch := rfl
@[simp] theorem State.updPkt_trans (s : State) (k : Nat) (f : SwPkt → SwPkt) : (s.updPkt k f).trans = s.trans := rfl
@[simp] theorem State.updPkt_coll (s : State) (k : Nat) (f : SwPkt → SwPkt) : (s.updPkt k f).coll = s.coll := rfl
@[simp] theorem State.updPkt_lasts (s : State) (k : Nat) (f : SwPkt → SwPkt) : (s.updPkt k f).lasts = s.lasts := rfl
@[simp] theorem State.updPkt_sem (s : State) (k : Nat) (f : SwPkt → SwPkt) : (s.updPkt k f).sem = s.sem := rfl
@[simp] theorem State.updPkt_pwr (s : State) (k : Nat) (f : SwPkt → SwPkt) : (s.updPkt k f).pwr = s.pwr := rfl
@[simp] theorem State.updPkt_sec (s : State) (k : Nat) (f : SwPkt → SwPkt) : (s.updPkt k f).sec = s.sec := rfl
@[simp] theorem State.updPkt_mon (s : State) (k : Nat) (f : SwPkt → SwPkt) : (s.updPkt k f).mon = s.mon := rfl
@[simp] theorem State.updPkt_regs (s : State) (k : Nat) (f : SwPkt → SwPkt) : (s.updPkt k f).regs = s.regs := rfl
@[simp] theorem State.updPkt_mram (s : State) (k : Nat) (f : SwPkt → SwPkt) : (s.updPkt k f).mram = s.mram := rfl
@[simp] theorem State.updPkt_latch (s : State) (k : Nat) (f : SwPkt → SwPkt) : (s.updPkt k f).latch = s.latch := rfl
@[simp] theorem State.updPkt_out (s : State) (k : Nat) (f : SwPkt → SwPkt) : (s.updPkt k f).out = s.out := rfl
@[simp] theorem State.updPkt_freeN (s : State) (k : Nat) (f : SwPkt → SwPkt) : (s.updPkt k f).freeN = s.freeN := rfl
@[simp] theorem State.updPkt_pending (s : State) (k : Nat) (f : SwPkt → SwPkt) : (s.updPkt k f).pending = s.pending := rfl

/-! ### updIn -/

@[simp] theorem State.updIn_time (s : State) (p : Nat) (f : SwPort → SwPort) : (s.updIn p f).time = s.time := rfl
@[simp] theorem State.updIn_exe (s : State) (p : Nat) (f : SwPort → SwPort) : (s.updIn p f).exe = s.exe := rfl
@[simp] theorem State.updIn_ctl (s : State) (p : Nat) (f : SwPort → SwPort) : (s.updIn p f).ctl = s.ctl := rfl
@[simp] theorem State.updIn_lanes (s : State) (p : Nat) (f : SwPort → SwPort) : (s.updIn p f).lanes = s.lanes := rfl
@[simp] theorem State.updIn_eyes (s : State) (p : Nat) (f : SwPort → SwPort) : (s.updIn p f).eyes = s.eyes := rfl
@[simp] theorem State.updIn_links (s : State) (p : Nat) (f : SwPort → SwPort) : (s.updIn p f).links = s.links := rfl
@[simp] theorem State.updIn_host (s : State) (p : Nat) (f : SwPort → SwPort) : (s.updIn p f).host = s.host := rfl
@[simp] theorem State.updIn_queues (s : State) (p : Nat) (f : SwPort → SwPort) : (s.updIn p f).queues = s.queues := rfl
@[simp] theorem State.updIn_rma (s : State) (p : Nat) (f : SwPort → SwPort) : (s.updIn p f).rma = s.rma := rfl
@[simp] theorem State.updIn_mtch (s : State) (p : Nat) (f : SwPort → SwPort) : (s.updIn p f).mtch = s.mtch := rfl
@[simp] theorem State.updIn_trans (s : State) (p : Nat) (f : SwPort → SwPort) : (s.updIn p f).trans = s.trans := rfl
@[simp] theorem State.updIn_coll (s : State) (p : Nat) (f : SwPort → SwPort) : (s.updIn p f).coll = s.coll := rfl
@[simp] theorem State.updIn_sw (s : State) (p : Nat) (f : SwPort → SwPort) : (s.updIn p f).sw = { s.sw with ports := tupd {} s.sw.ports p f } := rfl
@[simp] theorem State.updIn_lasts (s : State) (p : Nat) (f : SwPort → SwPort) : (s.updIn p f).lasts = s.lasts := rfl
@[simp] theorem State.updIn_sem (s : State) (p : Nat) (f : SwPort → SwPort) : (s.updIn p f).sem = s.sem := rfl
@[simp] theorem State.updIn_pwr (s : State) (p : Nat) (f : SwPort → SwPort) : (s.updIn p f).pwr = s.pwr := rfl
@[simp] theorem State.updIn_sec (s : State) (p : Nat) (f : SwPort → SwPort) : (s.updIn p f).sec = s.sec := rfl
@[simp] theorem State.updIn_mon (s : State) (p : Nat) (f : SwPort → SwPort) : (s.updIn p f).mon = s.mon := rfl
@[simp] theorem State.updIn_regs (s : State) (p : Nat) (f : SwPort → SwPort) : (s.updIn p f).regs = s.regs := rfl
@[simp] theorem State.updIn_mram (s : State) (p : Nat) (f : SwPort → SwPort) : (s.updIn p f).mram = s.mram := rfl
@[simp] theorem State.updIn_latch (s : State) (p : Nat) (f : SwPort → SwPort) : (s.updIn p f).latch = s.latch := rfl
@[simp] theorem State.updIn_out (s : State) (p : Nat) (f : SwPort → SwPort) : (s.updIn p f).out = s.out := rfl
@[simp] theorem State.updIn_freeN (s : State) (p : Nat) (f : SwPort → SwPort) : (s.updIn p f).freeN = s.freeN := rfl
@[simp] theorem State.updIn_pending (s : State) (p : Nat) (f : SwPort → SwPort) : (s.updIn p f).pending = s.pending := rfl

/-! ### updOut -/

@[simp] theorem State.updOut_time (s : State) (o : Nat) (f : OutPort → OutPort) : (s.updOut o f).time = s.time := rfl
@[simp] theorem State.updOut_exe (s : State) (o : Nat) (f : OutPort → OutPort) : (s.updOut o f).exe = s.exe := rfl
@[simp] theorem State.updOut_ctl (s : State) (o : Nat) (f : OutPort → OutPort) : (s.updOut o f).ctl = s.ctl := rfl
@[simp] theorem State.updOut_lanes (s : State) (o : Nat) (f : OutPort → OutPort) : (s.updOut o f).lanes = s.lanes := rfl
@[simp] theorem State.updOut_eyes (s : State) (o : Nat) (f : OutPort → OutPort) : (s.updOut o f).eyes = s.eyes := rfl
@[simp] theorem State.updOut_links (s : State) (o : Nat) (f : OutPort → OutPort) : (s.updOut o f).links = s.links := rfl
@[simp] theorem State.updOut_host (s : State) (o : Nat) (f : OutPort → OutPort) : (s.updOut o f).host = s.host := rfl
@[simp] theorem State.updOut_queues (s : State) (o : Nat) (f : OutPort → OutPort) : (s.updOut o f).queues = s.queues := rfl
@[simp] theorem State.updOut_rma (s : State) (o : Nat) (f : OutPort → OutPort) : (s.updOut o f).rma = s.rma := rfl
@[simp] theorem State.updOut_mtch (s : State) (o : Nat) (f : OutPort → OutPort) : (s.updOut o f).mtch = s.mtch := rfl
@[simp] theorem State.updOut_trans (s : State) (o : Nat) (f : OutPort → OutPort) : (s.updOut o f).trans = s.trans := rfl
@[simp] theorem State.updOut_coll (s : State) (o : Nat) (f : OutPort → OutPort) : (s.updOut o f).coll = s.coll := rfl
@[simp] theorem State.updOut_sw (s : State) (o : Nat) (f : OutPort → OutPort) : (s.updOut o f).sw = { s.sw with outs := tupd {} s.sw.outs o f } := rfl
@[simp] theorem State.updOut_lasts (s : State) (o : Nat) (f : OutPort → OutPort) : (s.updOut o f).lasts = s.lasts := rfl
@[simp] theorem State.updOut_sem (s : State) (o : Nat) (f : OutPort → OutPort) : (s.updOut o f).sem = s.sem := rfl
@[simp] theorem State.updOut_pwr (s : State) (o : Nat) (f : OutPort → OutPort) : (s.updOut o f).pwr = s.pwr := rfl
@[simp] theorem State.updOut_sec (s : State) (o : Nat) (f : OutPort → OutPort) : (s.updOut o f).sec = s.sec := rfl
@[simp] theorem State.updOut_mon (s : State) (o : Nat) (f : OutPort → OutPort) : (s.updOut o f).mon = s.mon := rfl
@[simp] theorem State.updOut_regs (s : State) (o : Nat) (f : OutPort → OutPort) : (s.updOut o f).regs = s.regs := rfl
@[simp] theorem State.updOut_mram (s : State) (o : Nat) (f : OutPort → OutPort) : (s.updOut o f).mram = s.mram := rfl
@[simp] theorem State.updOut_latch (s : State) (o : Nat) (f : OutPort → OutPort) : (s.updOut o f).latch = s.latch := rfl
@[simp] theorem State.updOut_out (s : State) (o : Nat) (f : OutPort → OutPort) : (s.updOut o f).out = s.out := rfl
@[simp] theorem State.updOut_freeN (s : State) (o : Nat) (f : OutPort → OutPort) : (s.updOut o f).freeN = s.freeN := rfl
@[simp] theorem State.updOut_pending (s : State) (o : Nat) (f : OutPort → OutPort) : (s.updOut o f).pending = s.pending := rfl

/-! ### updTime -/

@[simp] theorem State.updTime_time (s : State) (f : TimeUnit → TimeUnit) : (s.updTime f).time = f s.time := rfl
@[simp] theorem State.updTime_exe (s : State) (f : TimeUnit → TimeUnit) : (s.updTime f).exe = s.exe := rfl
@[simp] theorem State.updTime_ctl (s : State) (f : TimeUnit → TimeUnit) : (s.updTime f).ctl = s.ctl := rfl
@[simp] theorem State.updTime_lanes (s : State) (f : TimeUnit → TimeUnit) : (s.updTime f).lanes = s.lanes := rfl
@[simp] theorem State.updTime_eyes (s : State) (f : TimeUnit → TimeUnit) : (s.updTime f).eyes = s.eyes := rfl
@[simp] theorem State.updTime_links (s : State) (f : TimeUnit → TimeUnit) : (s.updTime f).links = s.links := rfl
@[simp] theorem State.updTime_host (s : State) (f : TimeUnit → TimeUnit) : (s.updTime f).host = s.host := rfl
@[simp] theorem State.updTime_queues (s : State) (f : TimeUnit → TimeUnit) : (s.updTime f).queues = s.queues := rfl
@[simp] theorem State.updTime_rma (s : State) (f : TimeUnit → TimeUnit) : (s.updTime f).rma = s.rma := rfl
@[simp] theorem State.updTime_mtch (s : State) (f : TimeUnit → TimeUnit) : (s.updTime f).mtch = s.mtch := rfl
@[simp] theorem State.updTime_trans (s : State) (f : TimeUnit → TimeUnit) : (s.updTime f).trans = s.trans := rfl
@[simp] theorem State.updTime_coll (s : State) (f : TimeUnit → TimeUnit) : (s.updTime f).coll = s.coll := rfl
@[simp] theorem State.updTime_sw (s : State) (f : TimeUnit → TimeUnit) : (s.updTime f).sw = s.sw := rfl
@[simp] theorem State.updTime_lasts (s : State) (f : TimeUnit → TimeUnit) : (s.updTime f).lasts = s.lasts := rfl
@[simp] theorem State.updTime_sem (s : State) (f : TimeUnit → TimeUnit) : (s.updTime f).sem = s.sem := rfl
@[simp] theorem State.updTime_pwr (s : State) (f : TimeUnit → TimeUnit) : (s.updTime f).pwr = s.pwr := rfl
@[simp] theorem State.updTime_sec (s : State) (f : TimeUnit → TimeUnit) : (s.updTime f).sec = s.sec := rfl
@[simp] theorem State.updTime_mon (s : State) (f : TimeUnit → TimeUnit) : (s.updTime f).mon = s.mon := rfl
@[simp] theorem State.updTime_regs (s : State) (f : TimeUnit → TimeUnit) : (s.updTime f).regs = s.regs := rfl
@[simp] theorem State.updTime_mram (s : State) (f : TimeUnit → TimeUnit) : (s.updTime f).mram = s.mram := rfl
@[simp] theorem State.updTime_latch (s : State) (f : TimeUnit → TimeUnit) : (s.updTime f).latch = s.latch := rfl
@[simp] theorem State.updTime_out (s : State) (f : TimeUnit → TimeUnit) : (s.updTime f).out = s.out := rfl
@[simp] theorem State.updTime_freeN (s : State) (f : TimeUnit → TimeUnit) : (s.updTime f).freeN = s.freeN := rfl
@[simp] theorem State.updTime_pending (s : State) (f : TimeUnit → TimeUnit) : (s.updTime f).pending = s.pending := rfl

/-! ### updFault -/

@[simp] theorem State.updFault_time (s : State) (f : FaultUnit → FaultUnit) : (s.updFault f).time = s.time := rfl
@[simp] theorem State.updFault_exe (s : State) (f : FaultUnit → FaultUnit) : (s.updFault f).exe = s.exe := rfl
@[simp] theorem State.updFault_ctl (s : State) (f : FaultUnit → FaultUnit) : (s.updFault f).ctl = s.ctl := rfl
@[simp] theorem State.updFault_lanes (s : State) (f : FaultUnit → FaultUnit) : (s.updFault f).lanes = s.lanes := rfl
@[simp] theorem State.updFault_eyes (s : State) (f : FaultUnit → FaultUnit) : (s.updFault f).eyes = s.eyes := rfl
@[simp] theorem State.updFault_links (s : State) (f : FaultUnit → FaultUnit) : (s.updFault f).links = s.links := rfl
@[simp] theorem State.updFault_host (s : State) (f : FaultUnit → FaultUnit) : (s.updFault f).host = s.host := rfl
@[simp] theorem State.updFault_queues (s : State) (f : FaultUnit → FaultUnit) : (s.updFault f).queues = s.queues := rfl
@[simp] theorem State.updFault_rma (s : State) (f : FaultUnit → FaultUnit) : (s.updFault f).rma = s.rma := rfl
@[simp] theorem State.updFault_mtch (s : State) (f : FaultUnit → FaultUnit) : (s.updFault f).mtch = s.mtch := rfl
@[simp] theorem State.updFault_trans (s : State) (f : FaultUnit → FaultUnit) : (s.updFault f).trans = s.trans := rfl
@[simp] theorem State.updFault_coll (s : State) (f : FaultUnit → FaultUnit) : (s.updFault f).coll = s.coll := rfl
@[simp] theorem State.updFault_sw (s : State) (f : FaultUnit → FaultUnit) : (s.updFault f).sw = s.sw := rfl
@[simp] theorem State.updFault_lasts (s : State) (f : FaultUnit → FaultUnit) : (s.updFault f).lasts = s.lasts := rfl
@[simp] theorem State.updFault_sem (s : State) (f : FaultUnit → FaultUnit) : (s.updFault f).sem = s.sem := rfl
@[simp] theorem State.updFault_pwr (s : State) (f : FaultUnit → FaultUnit) : (s.updFault f).pwr = s.pwr := rfl
@[simp] theorem State.updFault_sec (s : State) (f : FaultUnit → FaultUnit) : (s.updFault f).sec = s.sec := rfl
@[simp] theorem State.updFault_mon (s : State) (f : FaultUnit → FaultUnit) : (s.updFault f).mon = { s.mon with fault := f s.mon.fault } := rfl
@[simp] theorem State.updFault_regs (s : State) (f : FaultUnit → FaultUnit) : (s.updFault f).regs = s.regs := rfl
@[simp] theorem State.updFault_mram (s : State) (f : FaultUnit → FaultUnit) : (s.updFault f).mram = s.mram := rfl
@[simp] theorem State.updFault_latch (s : State) (f : FaultUnit → FaultUnit) : (s.updFault f).latch = s.latch := rfl
@[simp] theorem State.updFault_out (s : State) (f : FaultUnit → FaultUnit) : (s.updFault f).out = s.out := rfl
@[simp] theorem State.updFault_freeN (s : State) (f : FaultUnit → FaultUnit) : (s.updFault f).freeN = s.freeN := rfl
@[simp] theorem State.updFault_pending (s : State) (f : FaultUnit → FaultUnit) : (s.updFault f).pending = s.pending := rfl

/-! ### updClaim -/

@[simp] theorem State.updClaim_time (s : State) (f : ClaimUnit → ClaimUnit) : (s.updClaim f).time = s.time := rfl
@[simp] theorem State.updClaim_exe (s : State) (f : ClaimUnit → ClaimUnit) : (s.updClaim f).exe = s.exe := rfl
@[simp] theorem State.updClaim_ctl (s : State) (f : ClaimUnit → ClaimUnit) : (s.updClaim f).ctl = s.ctl := rfl
@[simp] theorem State.updClaim_lanes (s : State) (f : ClaimUnit → ClaimUnit) : (s.updClaim f).lanes = s.lanes := rfl
@[simp] theorem State.updClaim_eyes (s : State) (f : ClaimUnit → ClaimUnit) : (s.updClaim f).eyes = s.eyes := rfl
@[simp] theorem State.updClaim_links (s : State) (f : ClaimUnit → ClaimUnit) : (s.updClaim f).links = s.links := rfl
@[simp] theorem State.updClaim_host (s : State) (f : ClaimUnit → ClaimUnit) : (s.updClaim f).host = s.host := rfl
@[simp] theorem State.updClaim_queues (s : State) (f : ClaimUnit → ClaimUnit) : (s.updClaim f).queues = s.queues := rfl
@[simp] theorem State.updClaim_rma (s : State) (f : ClaimUnit → ClaimUnit) : (s.updClaim f).rma = s.rma := rfl
@[simp] theorem State.updClaim_mtch (s : State) (f : ClaimUnit → ClaimUnit) : (s.updClaim f).mtch = s.mtch := rfl
@[simp] theorem State.updClaim_trans (s : State) (f : ClaimUnit → ClaimUnit) : (s.updClaim f).trans = s.trans := rfl
@[simp] theorem State.updClaim_coll (s : State) (f : ClaimUnit → ClaimUnit) : (s.updClaim f).coll = s.coll := rfl
@[simp] theorem State.updClaim_sw (s : State) (f : ClaimUnit → ClaimUnit) : (s.updClaim f).sw = s.sw := rfl
@[simp] theorem State.updClaim_lasts (s : State) (f : ClaimUnit → ClaimUnit) : (s.updClaim f).lasts = s.lasts := rfl
@[simp] theorem State.updClaim_sem (s : State) (f : ClaimUnit → ClaimUnit) : (s.updClaim f).sem = s.sem := rfl
@[simp] theorem State.updClaim_pwr (s : State) (f : ClaimUnit → ClaimUnit) : (s.updClaim f).pwr = s.pwr := rfl
@[simp] theorem State.updClaim_sec (s : State) (f : ClaimUnit → ClaimUnit) : (s.updClaim f).sec = s.sec := rfl
@[simp] theorem State.updClaim_mon (s : State) (f : ClaimUnit → ClaimUnit) : (s.updClaim f).mon = { s.mon with claim := f s.mon.claim } := rfl
@[simp] theorem State.updClaim_regs (s : State) (f : ClaimUnit → ClaimUnit) : (s.updClaim f).regs = s.regs := rfl
@[simp] theorem State.updClaim_mram (s : State) (f : ClaimUnit → ClaimUnit) : (s.updClaim f).mram = s.mram := rfl
@[simp] theorem State.updClaim_latch (s : State) (f : ClaimUnit → ClaimUnit) : (s.updClaim f).latch = s.latch := rfl
@[simp] theorem State.updClaim_out (s : State) (f : ClaimUnit → ClaimUnit) : (s.updClaim f).out = s.out := rfl
@[simp] theorem State.updClaim_freeN (s : State) (f : ClaimUnit → ClaimUnit) : (s.updClaim f).freeN = s.freeN := rfl
@[simp] theorem State.updClaim_pending (s : State) (f : ClaimUnit → ClaimUnit) : (s.updClaim f).pending = s.pending := rfl

/-! ### updCtl -/

@[simp] theorem State.updCtl_time (s : State) (f : Ctl → Ctl) : (s.updCtl f).time = s.time := rfl
@[simp] theorem State.updCtl_exe (s : State) (f : Ctl → Ctl) : (s.updCtl f).exe = s.exe := rfl
@[simp] theorem State.updCtl_ctl (s : State) (f : Ctl → Ctl) : (s.updCtl f).ctl = f s.ctl := rfl
@[simp] theorem State.updCtl_lanes (s : State) (f : Ctl → Ctl) : (s.updCtl f).lanes = s.lanes := rfl
@[simp] theorem State.updCtl_eyes (s : State) (f : Ctl → Ctl) : (s.updCtl f).eyes = s.eyes := rfl
@[simp] theorem State.updCtl_links (s : State) (f : Ctl → Ctl) : (s.updCtl f).links = s.links := rfl
@[simp] theorem State.updCtl_host (s : State) (f : Ctl → Ctl) : (s.updCtl f).host = s.host := rfl
@[simp] theorem State.updCtl_queues (s : State) (f : Ctl → Ctl) : (s.updCtl f).queues = s.queues := rfl
@[simp] theorem State.updCtl_rma (s : State) (f : Ctl → Ctl) : (s.updCtl f).rma = s.rma := rfl
@[simp] theorem State.updCtl_mtch (s : State) (f : Ctl → Ctl) : (s.updCtl f).mtch = s.mtch := rfl
@[simp] theorem State.updCtl_trans (s : State) (f : Ctl → Ctl) : (s.updCtl f).trans = s.trans := rfl
@[simp] theorem State.updCtl_coll (s : State) (f : Ctl → Ctl) : (s.updCtl f).coll = s.coll := rfl
@[simp] theorem State.updCtl_sw (s : State) (f : Ctl → Ctl) : (s.updCtl f).sw = s.sw := rfl
@[simp] theorem State.updCtl_lasts (s : State) (f : Ctl → Ctl) : (s.updCtl f).lasts = s.lasts := rfl
@[simp] theorem State.updCtl_sem (s : State) (f : Ctl → Ctl) : (s.updCtl f).sem = s.sem := rfl
@[simp] theorem State.updCtl_pwr (s : State) (f : Ctl → Ctl) : (s.updCtl f).pwr = s.pwr := rfl
@[simp] theorem State.updCtl_sec (s : State) (f : Ctl → Ctl) : (s.updCtl f).sec = s.sec := rfl
@[simp] theorem State.updCtl_mon (s : State) (f : Ctl → Ctl) : (s.updCtl f).mon = s.mon := rfl
@[simp] theorem State.updCtl_regs (s : State) (f : Ctl → Ctl) : (s.updCtl f).regs = s.regs := rfl
@[simp] theorem State.updCtl_mram (s : State) (f : Ctl → Ctl) : (s.updCtl f).mram = s.mram := rfl
@[simp] theorem State.updCtl_latch (s : State) (f : Ctl → Ctl) : (s.updCtl f).latch = s.latch := rfl
@[simp] theorem State.updCtl_out (s : State) (f : Ctl → Ctl) : (s.updCtl f).out = s.out := rfl
@[simp] theorem State.updCtl_freeN (s : State) (f : Ctl → Ctl) : (s.updCtl f).freeN = s.freeN := rfl
@[simp] theorem State.updCtl_pending (s : State) (f : Ctl → Ctl) : (s.updCtl f).pending = s.pending := rfl

/-! ### updSem -/

@[simp] theorem State.updSem_time (s : State) (f : SemUnit → SemUnit) : (s.updSem f).time = s.time := rfl
@[simp] theorem State.updSem_exe (s : State) (f : SemUnit → SemUnit) : (s.updSem f).exe = s.exe := rfl
@[simp] theorem State.updSem_ctl (s : State) (f : SemUnit → SemUnit) : (s.updSem f).ctl = s.ctl := rfl
@[simp] theorem State.updSem_lanes (s : State) (f : SemUnit → SemUnit) : (s.updSem f).lanes = s.lanes := rfl
@[simp] theorem State.updSem_eyes (s : State) (f : SemUnit → SemUnit) : (s.updSem f).eyes = s.eyes := rfl
@[simp] theorem State.updSem_links (s : State) (f : SemUnit → SemUnit) : (s.updSem f).links = s.links := rfl
@[simp] theorem State.updSem_host (s : State) (f : SemUnit → SemUnit) : (s.updSem f).host = s.host := rfl
@[simp] theorem State.updSem_queues (s : State) (f : SemUnit → SemUnit) : (s.updSem f).queues = s.queues := rfl
@[simp] theorem State.updSem_rma (s : State) (f : SemUnit → SemUnit) : (s.updSem f).rma = s.rma := rfl
@[simp] theorem State.updSem_mtch (s : State) (f : SemUnit → SemUnit) : (s.updSem f).mtch = s.mtch := rfl
@[simp] theorem State.updSem_trans (s : State) (f : SemUnit → SemUnit) : (s.updSem f).trans = s.trans := rfl
@[simp] theorem State.updSem_coll (s : State) (f : SemUnit → SemUnit) : (s.updSem f).coll = s.coll := rfl
@[simp] theorem State.updSem_sw (s : State) (f : SemUnit → SemUnit) : (s.updSem f).sw = s.sw := rfl
@[simp] theorem State.updSem_lasts (s : State) (f : SemUnit → SemUnit) : (s.updSem f).lasts = s.lasts := rfl
@[simp] theorem State.updSem_sem (s : State) (f : SemUnit → SemUnit) : (s.updSem f).sem = f s.sem := rfl
@[simp] theorem State.updSem_pwr (s : State) (f : SemUnit → SemUnit) : (s.updSem f).pwr = s.pwr := rfl
@[simp] theorem State.updSem_sec (s : State) (f : SemUnit → SemUnit) : (s.updSem f).sec = s.sec := rfl
@[simp] theorem State.updSem_mon (s : State) (f : SemUnit → SemUnit) : (s.updSem f).mon = s.mon := rfl
@[simp] theorem State.updSem_regs (s : State) (f : SemUnit → SemUnit) : (s.updSem f).regs = s.regs := rfl
@[simp] theorem State.updSem_mram (s : State) (f : SemUnit → SemUnit) : (s.updSem f).mram = s.mram := rfl
@[simp] theorem State.updSem_latch (s : State) (f : SemUnit → SemUnit) : (s.updSem f).latch = s.latch := rfl
@[simp] theorem State.updSem_out (s : State) (f : SemUnit → SemUnit) : (s.updSem f).out = s.out := rfl
@[simp] theorem State.updSem_freeN (s : State) (f : SemUnit → SemUnit) : (s.updSem f).freeN = s.freeN := rfl
@[simp] theorem State.updSem_pending (s : State) (f : SemUnit → SemUnit) : (s.updSem f).pending = s.pending := rfl

/-! ### updHost -/

@[simp] theorem State.updHost_time (s : State) (f : HostUnit → HostUnit) : (s.updHost f).time = s.time := rfl
@[simp] theorem State.updHost_exe (s : State) (f : HostUnit → HostUnit) : (s.updHost f).exe = s.exe := rfl
@[simp] theorem State.updHost_ctl (s : State) (f : HostUnit → HostUnit) : (s.updHost f).ctl = s.ctl := rfl
@[simp] theorem State.updHost_lanes (s : State) (f : HostUnit → HostUnit) : (s.updHost f).lanes = s.lanes := rfl
@[simp] theorem State.updHost_eyes (s : State) (f : HostUnit → HostUnit) : (s.updHost f).eyes = s.eyes := rfl
@[simp] theorem State.updHost_links (s : State) (f : HostUnit → HostUnit) : (s.updHost f).links = s.links := rfl
@[simp] theorem State.updHost_host (s : State) (f : HostUnit → HostUnit) : (s.updHost f).host = f s.host := rfl
@[simp] theorem State.updHost_queues (s : State) (f : HostUnit → HostUnit) : (s.updHost f).queues = s.queues := rfl
@[simp] theorem State.updHost_rma (s : State) (f : HostUnit → HostUnit) : (s.updHost f).rma = s.rma := rfl
@[simp] theorem State.updHost_mtch (s : State) (f : HostUnit → HostUnit) : (s.updHost f).mtch = s.mtch := rfl
@[simp] theorem State.updHost_trans (s : State) (f : HostUnit → HostUnit) : (s.updHost f).trans = s.trans := rfl
@[simp] theorem State.updHost_coll (s : State) (f : HostUnit → HostUnit) : (s.updHost f).coll = s.coll := rfl
@[simp] theorem State.updHost_sw (s : State) (f : HostUnit → HostUnit) : (s.updHost f).sw = s.sw := rfl
@[simp] theorem State.updHost_lasts (s : State) (f : HostUnit → HostUnit) : (s.updHost f).lasts = s.lasts := rfl
@[simp] theorem State.updHost_sem (s : State) (f : HostUnit → HostUnit) : (s.updHost f).sem = s.sem := rfl
@[simp] theorem State.updHost_pwr (s : State) (f : HostUnit → HostUnit) : (s.updHost f).pwr = s.pwr := rfl
@[simp] theorem State.updHost_sec (s : State) (f : HostUnit → HostUnit) : (s.updHost f).sec = s.sec := rfl
@[simp] theorem State.updHost_mon (s : State) (f : HostUnit → HostUnit) : (s.updHost f).mon = s.mon := rfl
@[simp] theorem State.updHost_regs (s : State) (f : HostUnit → HostUnit) : (s.updHost f).regs = s.regs := rfl
@[simp] theorem State.updHost_mram (s : State) (f : HostUnit → HostUnit) : (s.updHost f).mram = s.mram := rfl
@[simp] theorem State.updHost_latch (s : State) (f : HostUnit → HostUnit) : (s.updHost f).latch = s.latch := rfl
@[simp] theorem State.updHost_out (s : State) (f : HostUnit → HostUnit) : (s.updHost f).out = s.out := rfl
@[simp] theorem State.updHost_freeN (s : State) (f : HostUnit → HostUnit) : (s.updHost f).freeN = s.freeN := rfl
@[simp] theorem State.updHost_pending (s : State) (f : HostUnit → HostUnit) : (s.updHost f).pending = s.pending := rfl

/-! ### updModule -/

@[simp] theorem State.updModule_time (s : State) (m : Nat) (f : Module → Module) : (s.updModule m f).time = s.time := rfl
@[simp] theorem State.updModule_exe (s : State) (m : Nat) (f : Module → Module) : (s.updModule m f).exe = s.exe := rfl
@[simp] theorem State.updModule_ctl (s : State) (m : Nat) (f : Module → Module) : (s.updModule m f).ctl = s.ctl := rfl
@[simp] theorem State.updModule_lanes (s : State) (m : Nat) (f : Module → Module) : (s.updModule m f).lanes = s.lanes := rfl
@[simp] theorem State.updModule_eyes (s : State) (m : Nat) (f : Module → Module) : (s.updModule m f).eyes = s.eyes := rfl
@[simp] theorem State.updModule_links (s : State) (m : Nat) (f : Module → Module) : (s.updModule m f).links = s.links := rfl
@[simp] theorem State.updModule_host (s : State) (m : Nat) (f : Module → Module) : (s.updModule m f).host = { s.host with modules := tupd {} s.host.modules m f } := rfl
@[simp] theorem State.updModule_queues (s : State) (m : Nat) (f : Module → Module) : (s.updModule m f).queues = s.queues := rfl
@[simp] theorem State.updModule_rma (s : State) (m : Nat) (f : Module → Module) : (s.updModule m f).rma = s.rma := rfl
@[simp] theorem State.updModule_mtch (s : State) (m : Nat) (f : Module → Module) : (s.updModule m f).mtch = s.mtch := rfl
@[simp] theorem State.updModule_trans (s : State) (m : Nat) (f : Module → Module) : (s.updModule m f).trans = s.trans := rfl
@[simp] theorem State.updModule_coll (s : State) (m : Nat) (f : Module → Module) : (s.updModule m f).coll = s.coll := rfl
@[simp] theorem State.updModule_sw (s : State) (m : Nat) (f : Module → Module) : (s.updModule m f).sw = s.sw := rfl
@[simp] theorem State.updModule_lasts (s : State) (m : Nat) (f : Module → Module) : (s.updModule m f).lasts = s.lasts := rfl
@[simp] theorem State.updModule_sem (s : State) (m : Nat) (f : Module → Module) : (s.updModule m f).sem = s.sem := rfl
@[simp] theorem State.updModule_pwr (s : State) (m : Nat) (f : Module → Module) : (s.updModule m f).pwr = s.pwr := rfl
@[simp] theorem State.updModule_sec (s : State) (m : Nat) (f : Module → Module) : (s.updModule m f).sec = s.sec := rfl
@[simp] theorem State.updModule_mon (s : State) (m : Nat) (f : Module → Module) : (s.updModule m f).mon = s.mon := rfl
@[simp] theorem State.updModule_regs (s : State) (m : Nat) (f : Module → Module) : (s.updModule m f).regs = s.regs := rfl
@[simp] theorem State.updModule_mram (s : State) (m : Nat) (f : Module → Module) : (s.updModule m f).mram = s.mram := rfl
@[simp] theorem State.updModule_latch (s : State) (m : Nat) (f : Module → Module) : (s.updModule m f).latch = s.latch := rfl
@[simp] theorem State.updModule_out (s : State) (m : Nat) (f : Module → Module) : (s.updModule m f).out = s.out := rfl
@[simp] theorem State.updModule_freeN (s : State) (m : Nat) (f : Module → Module) : (s.updModule m f).freeN = s.freeN := rfl
@[simp] theorem State.updModule_pending (s : State) (m : Nat) (f : Module → Module) : (s.updModule m f).pending = s.pending := rfl

/-! ### updQueues -/

@[simp] theorem State.updQueues_time (s : State) (f : QueueUnit → QueueUnit) : (s.updQueues f).time = s.time := rfl
@[simp] theorem State.updQueues_exe (s : State) (f : QueueUnit → QueueUnit) : (s.updQueues f).exe = s.exe := rfl
@[simp] theorem State.updQueues_ctl (s : State) (f : QueueUnit → QueueUnit) : (s.updQueues f).ctl = s.ctl := rfl
@[simp] theorem State.updQueues_lanes (s : State) (f : QueueUnit → QueueUnit) : (s.updQueues f).lanes = s.lanes := rfl
@[simp] theorem State.updQueues_eyes (s : State) (f : QueueUnit → QueueUnit) : (s.updQueues f).eyes = s.eyes := rfl
@[simp] theorem State.updQueues_links (s : State) (f : QueueUnit → QueueUnit) : (s.updQueues f).links = s.links := rfl
@[simp] theorem State.updQueues_host (s : State) (f : QueueUnit → QueueUnit) : (s.updQueues f).host = s.host := rfl
@[simp] theorem State.updQueues_queues (s : State) (f : QueueUnit → QueueUnit) : (s.updQueues f).queues = f s.queues := rfl
@[simp] theorem State.updQueues_rma (s : State) (f : QueueUnit → QueueUnit) : (s.updQueues f).rma = s.rma := rfl
@[simp] theorem State.updQueues_mtch (s : State) (f : QueueUnit → QueueUnit) : (s.updQueues f).mtch = s.mtch := rfl
@[simp] theorem State.updQueues_trans (s : State) (f : QueueUnit → QueueUnit) : (s.updQueues f).trans = s.trans := rfl
@[simp] theorem State.updQueues_coll (s : State) (f : QueueUnit → QueueUnit) : (s.updQueues f).coll = s.coll := rfl
@[simp] theorem State.updQueues_sw (s : State) (f : QueueUnit → QueueUnit) : (s.updQueues f).sw = s.sw := rfl
@[simp] theorem State.updQueues_lasts (s : State) (f : QueueUnit → QueueUnit) : (s.updQueues f).lasts = s.lasts := rfl
@[simp] theorem State.updQueues_sem (s : State) (f : QueueUnit → QueueUnit) : (s.updQueues f).sem = s.sem := rfl
@[simp] theorem State.updQueues_pwr (s : State) (f : QueueUnit → QueueUnit) : (s.updQueues f).pwr = s.pwr := rfl
@[simp] theorem State.updQueues_sec (s : State) (f : QueueUnit → QueueUnit) : (s.updQueues f).sec = s.sec := rfl
@[simp] theorem State.updQueues_mon (s : State) (f : QueueUnit → QueueUnit) : (s.updQueues f).mon = s.mon := rfl
@[simp] theorem State.updQueues_regs (s : State) (f : QueueUnit → QueueUnit) : (s.updQueues f).regs = s.regs := rfl
@[simp] theorem State.updQueues_mram (s : State) (f : QueueUnit → QueueUnit) : (s.updQueues f).mram = s.mram := rfl
@[simp] theorem State.updQueues_latch (s : State) (f : QueueUnit → QueueUnit) : (s.updQueues f).latch = s.latch := rfl
@[simp] theorem State.updQueues_out (s : State) (f : QueueUnit → QueueUnit) : (s.updQueues f).out = s.out := rfl
@[simp] theorem State.updQueues_freeN (s : State) (f : QueueUnit → QueueUnit) : (s.updQueues f).freeN = s.freeN := rfl
@[simp] theorem State.updQueues_pending (s : State) (f : QueueUnit → QueueUnit) : (s.updQueues f).pending = s.pending := rfl

/-! ### updQueue -/

@[simp] theorem State.updQueue_time (s : State) (g : Nat) (f : Queue → Queue) : (s.updQueue g f).time = s.time := rfl
@[simp] theorem State.updQueue_exe (s : State) (g : Nat) (f : Queue → Queue) : (s.updQueue g f).exe = s.exe := rfl
@[simp] theorem State.updQueue_ctl (s : State) (g : Nat) (f : Queue → Queue) : (s.updQueue g f).ctl = s.ctl := rfl
@[simp] theorem State.updQueue_lanes (s : State) (g : Nat) (f : Queue → Queue) : (s.updQueue g f).lanes = s.lanes := rfl
@[simp] theorem State.updQueue_eyes (s : State) (g : Nat) (f : Queue → Queue) : (s.updQueue g f).eyes = s.eyes := rfl
@[simp] theorem State.updQueue_links (s : State) (g : Nat) (f : Queue → Queue) : (s.updQueue g f).links = s.links := rfl
@[simp] theorem State.updQueue_host (s : State) (g : Nat) (f : Queue → Queue) : (s.updQueue g f).host = s.host := rfl
@[simp] theorem State.updQueue_queues (s : State) (g : Nat) (f : Queue → Queue) : (s.updQueue g f).queues = { s.queues with qs := tupd {} s.queues.qs g f } := rfl
@[simp] theorem State.updQueue_rma (s : State) (g : Nat) (f : Queue → Queue) : (s.updQueue g f).rma = s.rma := rfl
@[simp] theorem State.updQueue_mtch (s : State) (g : Nat) (f : Queue → Queue) : (s.updQueue g f).mtch = s.mtch := rfl
@[simp] theorem State.updQueue_trans (s : State) (g : Nat) (f : Queue → Queue) : (s.updQueue g f).trans = s.trans := rfl
@[simp] theorem State.updQueue_coll (s : State) (g : Nat) (f : Queue → Queue) : (s.updQueue g f).coll = s.coll := rfl
@[simp] theorem State.updQueue_sw (s : State) (g : Nat) (f : Queue → Queue) : (s.updQueue g f).sw = s.sw := rfl
@[simp] theorem State.updQueue_lasts (s : State) (g : Nat) (f : Queue → Queue) : (s.updQueue g f).lasts = s.lasts := rfl
@[simp] theorem State.updQueue_sem (s : State) (g : Nat) (f : Queue → Queue) : (s.updQueue g f).sem = s.sem := rfl
@[simp] theorem State.updQueue_pwr (s : State) (g : Nat) (f : Queue → Queue) : (s.updQueue g f).pwr = s.pwr := rfl
@[simp] theorem State.updQueue_sec (s : State) (g : Nat) (f : Queue → Queue) : (s.updQueue g f).sec = s.sec := rfl
@[simp] theorem State.updQueue_mon (s : State) (g : Nat) (f : Queue → Queue) : (s.updQueue g f).mon = s.mon := rfl
@[simp] theorem State.updQueue_regs (s : State) (g : Nat) (f : Queue → Queue) : (s.updQueue g f).regs = s.regs := rfl
@[simp] theorem State.updQueue_mram (s : State) (g : Nat) (f : Queue → Queue) : (s.updQueue g f).mram = s.mram := rfl
@[simp] theorem State.updQueue_latch (s : State) (g : Nat) (f : Queue → Queue) : (s.updQueue g f).latch = s.latch := rfl
@[simp] theorem State.updQueue_out (s : State) (g : Nat) (f : Queue → Queue) : (s.updQueue g f).out = s.out := rfl
@[simp] theorem State.updQueue_freeN (s : State) (g : Nat) (f : Queue → Queue) : (s.updQueue g f).freeN = s.freeN := rfl
@[simp] theorem State.updQueue_pending (s : State) (g : Nat) (f : Queue → Queue) : (s.updQueue g f).pending = s.pending := rfl

/-! ### updRma -/

@[simp] theorem State.updRma_time (s : State) (f : RmaUnit → RmaUnit) : (s.updRma f).time = s.time := rfl
@[simp] theorem State.updRma_exe (s : State) (f : RmaUnit → RmaUnit) : (s.updRma f).exe = s.exe := rfl
@[simp] theorem State.updRma_ctl (s : State) (f : RmaUnit → RmaUnit) : (s.updRma f).ctl = s.ctl := rfl
@[simp] theorem State.updRma_lanes (s : State) (f : RmaUnit → RmaUnit) : (s.updRma f).lanes = s.lanes := rfl
@[simp] theorem State.updRma_eyes (s : State) (f : RmaUnit → RmaUnit) : (s.updRma f).eyes = s.eyes := rfl
@[simp] theorem State.updRma_links (s : State) (f : RmaUnit → RmaUnit) : (s.updRma f).links = s.links := rfl
@[simp] theorem State.updRma_host (s : State) (f : RmaUnit → RmaUnit) : (s.updRma f).host = s.host := rfl
@[simp] theorem State.updRma_queues (s : State) (f : RmaUnit → RmaUnit) : (s.updRma f).queues = s.queues := rfl
@[simp] theorem State.updRma_rma (s : State) (f : RmaUnit → RmaUnit) : (s.updRma f).rma = f s.rma := rfl
@[simp] theorem State.updRma_mtch (s : State) (f : RmaUnit → RmaUnit) : (s.updRma f).mtch = s.mtch := rfl
@[simp] theorem State.updRma_trans (s : State) (f : RmaUnit → RmaUnit) : (s.updRma f).trans = s.trans := rfl
@[simp] theorem State.updRma_coll (s : State) (f : RmaUnit → RmaUnit) : (s.updRma f).coll = s.coll := rfl
@[simp] theorem State.updRma_sw (s : State) (f : RmaUnit → RmaUnit) : (s.updRma f).sw = s.sw := rfl
@[simp] theorem State.updRma_lasts (s : State) (f : RmaUnit → RmaUnit) : (s.updRma f).lasts = s.lasts := rfl
@[simp] theorem State.updRma_sem (s : State) (f : RmaUnit → RmaUnit) : (s.updRma f).sem = s.sem := rfl
@[simp] theorem State.updRma_pwr (s : State) (f : RmaUnit → RmaUnit) : (s.updRma f).pwr = s.pwr := rfl
@[simp] theorem State.updRma_sec (s : State) (f : RmaUnit → RmaUnit) : (s.updRma f).sec = s.sec := rfl
@[simp] theorem State.updRma_mon (s : State) (f : RmaUnit → RmaUnit) : (s.updRma f).mon = s.mon := rfl
@[simp] theorem State.updRma_regs (s : State) (f : RmaUnit → RmaUnit) : (s.updRma f).regs = s.regs := rfl
@[simp] theorem State.updRma_mram (s : State) (f : RmaUnit → RmaUnit) : (s.updRma f).mram = s.mram := rfl
@[simp] theorem State.updRma_latch (s : State) (f : RmaUnit → RmaUnit) : (s.updRma f).latch = s.latch := rfl
@[simp] theorem State.updRma_out (s : State) (f : RmaUnit → RmaUnit) : (s.updRma f).out = s.out := rfl
@[simp] theorem State.updRma_freeN (s : State) (f : RmaUnit → RmaUnit) : (s.updRma f).freeN = s.freeN := rfl
@[simp] theorem State.updRma_pending (s : State) (f : RmaUnit → RmaUnit) : (s.updRma f).pending = s.pending := rfl

/-! ### updReq -/

@[simp] theorem State.updReq_time (s : State) (k : Nat) (f : ReqCtx → ReqCtx) : (s.updReq k f).time = s.time := rfl
@[simp] theorem State.updReq_exe (s : State) (k : Nat) (f : ReqCtx → ReqCtx) : (s.updReq k f).exe = s.exe := rfl
@[simp] theorem State.updReq_ctl (s : State) (k : Nat) (f : ReqCtx → ReqCtx) : (s.updReq k f).ctl = s.ctl := rfl
@[simp] theorem State.updReq_lanes (s : State) (k : Nat) (f : ReqCtx → ReqCtx) : (s.updReq k f).lanes = s.lanes := rfl
@[simp] theorem State.updReq_eyes (s : State) (k : Nat) (f : ReqCtx → ReqCtx) : (s.updReq k f).eyes = s.eyes := rfl
@[simp] theorem State.updReq_links (s : State) (k : Nat) (f : ReqCtx → ReqCtx) : (s.updReq k f).links = s.links := rfl
@[simp] theorem State.updReq_host (s : State) (k : Nat) (f : ReqCtx → ReqCtx) : (s.updReq k f).host = s.host := rfl
@[simp] theorem State.updReq_queues (s : State) (k : Nat) (f : ReqCtx → ReqCtx) : (s.updReq k f).queues = s.queues := rfl
@[simp] theorem State.updReq_mtch (s : State) (k : Nat) (f : ReqCtx → ReqCtx) : (s.updReq k f).mtch = s.mtch := rfl
@[simp] theorem State.updReq_trans (s : State) (k : Nat) (f : ReqCtx → ReqCtx) : (s.updReq k f).trans = s.trans := rfl
@[simp] theorem State.updReq_coll (s : State) (k : Nat) (f : ReqCtx → ReqCtx) : (s.updReq k f).coll = s.coll := rfl
@[simp] theorem State.updReq_sw (s : State) (k : Nat) (f : ReqCtx → ReqCtx) : (s.updReq k f).sw = s.sw := rfl
@[simp] theorem State.updReq_lasts (s : State) (k : Nat) (f : ReqCtx → ReqCtx) : (s.updReq k f).lasts = s.lasts := rfl
@[simp] theorem State.updReq_sem (s : State) (k : Nat) (f : ReqCtx → ReqCtx) : (s.updReq k f).sem = s.sem := rfl
@[simp] theorem State.updReq_pwr (s : State) (k : Nat) (f : ReqCtx → ReqCtx) : (s.updReq k f).pwr = s.pwr := rfl
@[simp] theorem State.updReq_sec (s : State) (k : Nat) (f : ReqCtx → ReqCtx) : (s.updReq k f).sec = s.sec := rfl
@[simp] theorem State.updReq_mon (s : State) (k : Nat) (f : ReqCtx → ReqCtx) : (s.updReq k f).mon = s.mon := rfl
@[simp] theorem State.updReq_regs (s : State) (k : Nat) (f : ReqCtx → ReqCtx) : (s.updReq k f).regs = s.regs := rfl
@[simp] theorem State.updReq_mram (s : State) (k : Nat) (f : ReqCtx → ReqCtx) : (s.updReq k f).mram = s.mram := rfl
@[simp] theorem State.updReq_latch (s : State) (k : Nat) (f : ReqCtx → ReqCtx) : (s.updReq k f).latch = s.latch := rfl
@[simp] theorem State.updReq_out (s : State) (k : Nat) (f : ReqCtx → ReqCtx) : (s.updReq k f).out = s.out := rfl
@[simp] theorem State.updReq_freeN (s : State) (k : Nat) (f : ReqCtx → ReqCtx) : (s.updReq k f).freeN = s.freeN := rfl
@[simp] theorem State.updReq_pending (s : State) (k : Nat) (f : ReqCtx → ReqCtx) : (s.updReq k f).pending = s.pending := rfl

/-! ### updResp -/

@[simp] theorem State.updResp_time (s : State) (k : Nat) (f : RespCtx → RespCtx) : (s.updResp k f).time = s.time := rfl
@[simp] theorem State.updResp_exe (s : State) (k : Nat) (f : RespCtx → RespCtx) : (s.updResp k f).exe = s.exe := rfl
@[simp] theorem State.updResp_ctl (s : State) (k : Nat) (f : RespCtx → RespCtx) : (s.updResp k f).ctl = s.ctl := rfl
@[simp] theorem State.updResp_lanes (s : State) (k : Nat) (f : RespCtx → RespCtx) : (s.updResp k f).lanes = s.lanes := rfl
@[simp] theorem State.updResp_eyes (s : State) (k : Nat) (f : RespCtx → RespCtx) : (s.updResp k f).eyes = s.eyes := rfl
@[simp] theorem State.updResp_links (s : State) (k : Nat) (f : RespCtx → RespCtx) : (s.updResp k f).links = s.links := rfl
@[simp] theorem State.updResp_host (s : State) (k : Nat) (f : RespCtx → RespCtx) : (s.updResp k f).host = s.host := rfl
@[simp] theorem State.updResp_queues (s : State) (k : Nat) (f : RespCtx → RespCtx) : (s.updResp k f).queues = s.queues := rfl
@[simp] theorem State.updResp_mtch (s : State) (k : Nat) (f : RespCtx → RespCtx) : (s.updResp k f).mtch = s.mtch := rfl
@[simp] theorem State.updResp_trans (s : State) (k : Nat) (f : RespCtx → RespCtx) : (s.updResp k f).trans = s.trans := rfl
@[simp] theorem State.updResp_coll (s : State) (k : Nat) (f : RespCtx → RespCtx) : (s.updResp k f).coll = s.coll := rfl
@[simp] theorem State.updResp_sw (s : State) (k : Nat) (f : RespCtx → RespCtx) : (s.updResp k f).sw = s.sw := rfl
@[simp] theorem State.updResp_lasts (s : State) (k : Nat) (f : RespCtx → RespCtx) : (s.updResp k f).lasts = s.lasts := rfl
@[simp] theorem State.updResp_sem (s : State) (k : Nat) (f : RespCtx → RespCtx) : (s.updResp k f).sem = s.sem := rfl
@[simp] theorem State.updResp_pwr (s : State) (k : Nat) (f : RespCtx → RespCtx) : (s.updResp k f).pwr = s.pwr := rfl
@[simp] theorem State.updResp_sec (s : State) (k : Nat) (f : RespCtx → RespCtx) : (s.updResp k f).sec = s.sec := rfl
@[simp] theorem State.updResp_mon (s : State) (k : Nat) (f : RespCtx → RespCtx) : (s.updResp k f).mon = s.mon := rfl
@[simp] theorem State.updResp_regs (s : State) (k : Nat) (f : RespCtx → RespCtx) : (s.updResp k f).regs = s.regs := rfl
@[simp] theorem State.updResp_mram (s : State) (k : Nat) (f : RespCtx → RespCtx) : (s.updResp k f).mram = s.mram := rfl
@[simp] theorem State.updResp_latch (s : State) (k : Nat) (f : RespCtx → RespCtx) : (s.updResp k f).latch = s.latch := rfl
@[simp] theorem State.updResp_out (s : State) (k : Nat) (f : RespCtx → RespCtx) : (s.updResp k f).out = s.out := rfl
@[simp] theorem State.updResp_freeN (s : State) (k : Nat) (f : RespCtx → RespCtx) : (s.updResp k f).freeN = s.freeN := rfl
@[simp] theorem State.updResp_pending (s : State) (k : Nat) (f : RespCtx → RespCtx) : (s.updResp k f).pending = s.pending := rfl

/-! ### updMtch -/

@[simp] theorem State.updMtch_time (s : State) (f : MatchUnit → MatchUnit) : (s.updMtch f).time = s.time := rfl
@[simp] theorem State.updMtch_exe (s : State) (f : MatchUnit → MatchUnit) : (s.updMtch f).exe = s.exe := rfl
@[simp] theorem State.updMtch_ctl (s : State) (f : MatchUnit → MatchUnit) : (s.updMtch f).ctl = s.ctl := rfl
@[simp] theorem State.updMtch_lanes (s : State) (f : MatchUnit → MatchUnit) : (s.updMtch f).lanes = s.lanes := rfl
@[simp] theorem State.updMtch_eyes (s : State) (f : MatchUnit → MatchUnit) : (s.updMtch f).eyes = s.eyes := rfl
@[simp] theorem State.updMtch_links (s : State) (f : MatchUnit → MatchUnit) : (s.updMtch f).links = s.links := rfl
@[simp] theorem State.updMtch_host (s : State) (f : MatchUnit → MatchUnit) : (s.updMtch f).host = s.host := rfl
@[simp] theorem State.updMtch_queues (s : State) (f : MatchUnit → MatchUnit) : (s.updMtch f).queues = s.queues := rfl
@[simp] theorem State.updMtch_rma (s : State) (f : MatchUnit → MatchUnit) : (s.updMtch f).rma = s.rma := rfl
@[simp] theorem State.updMtch_mtch (s : State) (f : MatchUnit → MatchUnit) : (s.updMtch f).mtch = f s.mtch := rfl
@[simp] theorem State.updMtch_trans (s : State) (f : MatchUnit → MatchUnit) : (s.updMtch f).trans = s.trans := rfl
@[simp] theorem State.updMtch_coll (s : State) (f : MatchUnit → MatchUnit) : (s.updMtch f).coll = s.coll := rfl
@[simp] theorem State.updMtch_sw (s : State) (f : MatchUnit → MatchUnit) : (s.updMtch f).sw = s.sw := rfl
@[simp] theorem State.updMtch_lasts (s : State) (f : MatchUnit → MatchUnit) : (s.updMtch f).lasts = s.lasts := rfl
@[simp] theorem State.updMtch_sem (s : State) (f : MatchUnit → MatchUnit) : (s.updMtch f).sem = s.sem := rfl
@[simp] theorem State.updMtch_pwr (s : State) (f : MatchUnit → MatchUnit) : (s.updMtch f).pwr = s.pwr := rfl
@[simp] theorem State.updMtch_sec (s : State) (f : MatchUnit → MatchUnit) : (s.updMtch f).sec = s.sec := rfl
@[simp] theorem State.updMtch_mon (s : State) (f : MatchUnit → MatchUnit) : (s.updMtch f).mon = s.mon := rfl
@[simp] theorem State.updMtch_regs (s : State) (f : MatchUnit → MatchUnit) : (s.updMtch f).regs = s.regs := rfl
@[simp] theorem State.updMtch_mram (s : State) (f : MatchUnit → MatchUnit) : (s.updMtch f).mram = s.mram := rfl
@[simp] theorem State.updMtch_latch (s : State) (f : MatchUnit → MatchUnit) : (s.updMtch f).latch = s.latch := rfl
@[simp] theorem State.updMtch_out (s : State) (f : MatchUnit → MatchUnit) : (s.updMtch f).out = s.out := rfl
@[simp] theorem State.updMtch_freeN (s : State) (f : MatchUnit → MatchUnit) : (s.updMtch f).freeN = s.freeN := rfl
@[simp] theorem State.updMtch_pending (s : State) (f : MatchUnit → MatchUnit) : (s.updMtch f).pending = s.pending := rfl

/-! ### updMep -/

@[simp] theorem State.updMep_time (s : State) (k : Nat) (f : MatchEp → MatchEp) : (s.updMep k f).time = s.time := rfl
@[simp] theorem State.updMep_exe (s : State) (k : Nat) (f : MatchEp → MatchEp) : (s.updMep k f).exe = s.exe := rfl
@[simp] theorem State.updMep_ctl (s : State) (k : Nat) (f : MatchEp → MatchEp) : (s.updMep k f).ctl = s.ctl := rfl
@[simp] theorem State.updMep_lanes (s : State) (k : Nat) (f : MatchEp → MatchEp) : (s.updMep k f).lanes = s.lanes := rfl
@[simp] theorem State.updMep_eyes (s : State) (k : Nat) (f : MatchEp → MatchEp) : (s.updMep k f).eyes = s.eyes := rfl
@[simp] theorem State.updMep_links (s : State) (k : Nat) (f : MatchEp → MatchEp) : (s.updMep k f).links = s.links := rfl
@[simp] theorem State.updMep_host (s : State) (k : Nat) (f : MatchEp → MatchEp) : (s.updMep k f).host = s.host := rfl
@[simp] theorem State.updMep_queues (s : State) (k : Nat) (f : MatchEp → MatchEp) : (s.updMep k f).queues = s.queues := rfl
@[simp] theorem State.updMep_rma (s : State) (k : Nat) (f : MatchEp → MatchEp) : (s.updMep k f).rma = s.rma := rfl
@[simp] theorem State.updMep_trans (s : State) (k : Nat) (f : MatchEp → MatchEp) : (s.updMep k f).trans = s.trans := rfl
@[simp] theorem State.updMep_coll (s : State) (k : Nat) (f : MatchEp → MatchEp) : (s.updMep k f).coll = s.coll := rfl
@[simp] theorem State.updMep_sw (s : State) (k : Nat) (f : MatchEp → MatchEp) : (s.updMep k f).sw = s.sw := rfl
@[simp] theorem State.updMep_lasts (s : State) (k : Nat) (f : MatchEp → MatchEp) : (s.updMep k f).lasts = s.lasts := rfl
@[simp] theorem State.updMep_sem (s : State) (k : Nat) (f : MatchEp → MatchEp) : (s.updMep k f).sem = s.sem := rfl
@[simp] theorem State.updMep_pwr (s : State) (k : Nat) (f : MatchEp → MatchEp) : (s.updMep k f).pwr = s.pwr := rfl
@[simp] theorem State.updMep_sec (s : State) (k : Nat) (f : MatchEp → MatchEp) : (s.updMep k f).sec = s.sec := rfl
@[simp] theorem State.updMep_mon (s : State) (k : Nat) (f : MatchEp → MatchEp) : (s.updMep k f).mon = s.mon := rfl
@[simp] theorem State.updMep_regs (s : State) (k : Nat) (f : MatchEp → MatchEp) : (s.updMep k f).regs = s.regs := rfl
@[simp] theorem State.updMep_mram (s : State) (k : Nat) (f : MatchEp → MatchEp) : (s.updMep k f).mram = s.mram := rfl
@[simp] theorem State.updMep_latch (s : State) (k : Nat) (f : MatchEp → MatchEp) : (s.updMep k f).latch = s.latch := rfl
@[simp] theorem State.updMep_out (s : State) (k : Nat) (f : MatchEp → MatchEp) : (s.updMep k f).out = s.out := rfl
@[simp] theorem State.updMep_freeN (s : State) (k : Nat) (f : MatchEp → MatchEp) : (s.updMep k f).freeN = s.freeN := rfl
@[simp] theorem State.updMep_pending (s : State) (k : Nat) (f : MatchEp → MatchEp) : (s.updMep k f).pending = s.pending := rfl

/-! ### updTrans -/

@[simp] theorem State.updTrans_time (s : State) (f : TransUnit → TransUnit) : (s.updTrans f).time = s.time := rfl
@[simp] theorem State.updTrans_exe (s : State) (f : TransUnit → TransUnit) : (s.updTrans f).exe = s.exe := rfl
@[simp] theorem State.updTrans_ctl (s : State) (f : TransUnit → TransUnit) : (s.updTrans f).ctl = s.ctl := rfl
@[simp] theorem State.updTrans_lanes (s : State) (f : TransUnit → TransUnit) : (s.updTrans f).lanes = s.lanes := rfl
@[simp] theorem State.updTrans_eyes (s : State) (f : TransUnit → TransUnit) : (s.updTrans f).eyes = s.eyes := rfl
@[simp] theorem State.updTrans_links (s : State) (f : TransUnit → TransUnit) : (s.updTrans f).links = s.links := rfl
@[simp] theorem State.updTrans_host (s : State) (f : TransUnit → TransUnit) : (s.updTrans f).host = s.host := rfl
@[simp] theorem State.updTrans_queues (s : State) (f : TransUnit → TransUnit) : (s.updTrans f).queues = s.queues := rfl
@[simp] theorem State.updTrans_rma (s : State) (f : TransUnit → TransUnit) : (s.updTrans f).rma = s.rma := rfl
@[simp] theorem State.updTrans_mtch (s : State) (f : TransUnit → TransUnit) : (s.updTrans f).mtch = s.mtch := rfl
@[simp] theorem State.updTrans_trans (s : State) (f : TransUnit → TransUnit) : (s.updTrans f).trans = f s.trans := rfl
@[simp] theorem State.updTrans_coll (s : State) (f : TransUnit → TransUnit) : (s.updTrans f).coll = s.coll := rfl
@[simp] theorem State.updTrans_sw (s : State) (f : TransUnit → TransUnit) : (s.updTrans f).sw = s.sw := rfl
@[simp] theorem State.updTrans_lasts (s : State) (f : TransUnit → TransUnit) : (s.updTrans f).lasts = s.lasts := rfl
@[simp] theorem State.updTrans_sem (s : State) (f : TransUnit → TransUnit) : (s.updTrans f).sem = s.sem := rfl
@[simp] theorem State.updTrans_pwr (s : State) (f : TransUnit → TransUnit) : (s.updTrans f).pwr = s.pwr := rfl
@[simp] theorem State.updTrans_sec (s : State) (f : TransUnit → TransUnit) : (s.updTrans f).sec = s.sec := rfl
@[simp] theorem State.updTrans_mon (s : State) (f : TransUnit → TransUnit) : (s.updTrans f).mon = s.mon := rfl
@[simp] theorem State.updTrans_regs (s : State) (f : TransUnit → TransUnit) : (s.updTrans f).regs = s.regs := rfl
@[simp] theorem State.updTrans_mram (s : State) (f : TransUnit → TransUnit) : (s.updTrans f).mram = s.mram := rfl
@[simp] theorem State.updTrans_latch (s : State) (f : TransUnit → TransUnit) : (s.updTrans f).latch = s.latch := rfl
@[simp] theorem State.updTrans_out (s : State) (f : TransUnit → TransUnit) : (s.updTrans f).out = s.out := rfl
@[simp] theorem State.updTrans_freeN (s : State) (f : TransUnit → TransUnit) : (s.updTrans f).freeN = s.freeN := rfl
@[simp] theorem State.updTrans_pending (s : State) (f : TransUnit → TransUnit) : (s.updTrans f).pending = s.pending := rfl

/-! ### updSeg -/

@[simp] theorem State.updSeg_time (s : State) (k : Nat) (f : Seg → Seg) : (s.updSeg k f).time = s.time := rfl
@[simp] theorem State.updSeg_exe (s : State) (k : Nat) (f : Seg → Seg) : (s.updSeg k f).exe = s.exe := rfl
@[simp] theorem State.updSeg_ctl (s : State) (k : Nat) (f : Seg → Seg) : (s.updSeg k f).ctl = s.ctl := rfl
@[simp] theorem State.updSeg_lanes (s : State) (k : Nat) (f : Seg → Seg) : (s.updSeg k f).lanes = s.lanes := rfl
@[simp] theorem State.updSeg_eyes (s : State) (k : Nat) (f : Seg → Seg) : (s.updSeg k f).eyes = s.eyes := rfl
@[simp] theorem State.updSeg_links (s : State) (k : Nat) (f : Seg → Seg) : (s.updSeg k f).links = s.links := rfl
@[simp] theorem State.updSeg_host (s : State) (k : Nat) (f : Seg → Seg) : (s.updSeg k f).host = s.host := rfl
@[simp] theorem State.updSeg_queues (s : State) (k : Nat) (f : Seg → Seg) : (s.updSeg k f).queues = s.queues := rfl
@[simp] theorem State.updSeg_rma (s : State) (k : Nat) (f : Seg → Seg) : (s.updSeg k f).rma = s.rma := rfl
@[simp] theorem State.updSeg_mtch (s : State) (k : Nat) (f : Seg → Seg) : (s.updSeg k f).mtch = s.mtch := rfl
@[simp] theorem State.updSeg_coll (s : State) (k : Nat) (f : Seg → Seg) : (s.updSeg k f).coll = s.coll := rfl
@[simp] theorem State.updSeg_sw (s : State) (k : Nat) (f : Seg → Seg) : (s.updSeg k f).sw = s.sw := rfl
@[simp] theorem State.updSeg_lasts (s : State) (k : Nat) (f : Seg → Seg) : (s.updSeg k f).lasts = s.lasts := rfl
@[simp] theorem State.updSeg_sem (s : State) (k : Nat) (f : Seg → Seg) : (s.updSeg k f).sem = s.sem := rfl
@[simp] theorem State.updSeg_pwr (s : State) (k : Nat) (f : Seg → Seg) : (s.updSeg k f).pwr = s.pwr := rfl
@[simp] theorem State.updSeg_sec (s : State) (k : Nat) (f : Seg → Seg) : (s.updSeg k f).sec = s.sec := rfl
@[simp] theorem State.updSeg_mon (s : State) (k : Nat) (f : Seg → Seg) : (s.updSeg k f).mon = s.mon := rfl
@[simp] theorem State.updSeg_regs (s : State) (k : Nat) (f : Seg → Seg) : (s.updSeg k f).regs = s.regs := rfl
@[simp] theorem State.updSeg_mram (s : State) (k : Nat) (f : Seg → Seg) : (s.updSeg k f).mram = s.mram := rfl
@[simp] theorem State.updSeg_latch (s : State) (k : Nat) (f : Seg → Seg) : (s.updSeg k f).latch = s.latch := rfl
@[simp] theorem State.updSeg_out (s : State) (k : Nat) (f : Seg → Seg) : (s.updSeg k f).out = s.out := rfl
@[simp] theorem State.updSeg_freeN (s : State) (k : Nat) (f : Seg → Seg) : (s.updSeg k f).freeN = s.freeN := rfl
@[simp] theorem State.updSeg_pending (s : State) (k : Nat) (f : Seg → Seg) : (s.updSeg k f).pending = s.pending := rfl

/-! ### updColl -/

@[simp] theorem State.updColl_time (s : State) (f : CollUnit → CollUnit) : (s.updColl f).time = s.time := rfl
@[simp] theorem State.updColl_exe (s : State) (f : CollUnit → CollUnit) : (s.updColl f).exe = s.exe := rfl
@[simp] theorem State.updColl_ctl (s : State) (f : CollUnit → CollUnit) : (s.updColl f).ctl = s.ctl := rfl
@[simp] theorem State.updColl_lanes (s : State) (f : CollUnit → CollUnit) : (s.updColl f).lanes = s.lanes := rfl
@[simp] theorem State.updColl_eyes (s : State) (f : CollUnit → CollUnit) : (s.updColl f).eyes = s.eyes := rfl
@[simp] theorem State.updColl_links (s : State) (f : CollUnit → CollUnit) : (s.updColl f).links = s.links := rfl
@[simp] theorem State.updColl_host (s : State) (f : CollUnit → CollUnit) : (s.updColl f).host = s.host := rfl
@[simp] theorem State.updColl_queues (s : State) (f : CollUnit → CollUnit) : (s.updColl f).queues = s.queues := rfl
@[simp] theorem State.updColl_rma (s : State) (f : CollUnit → CollUnit) : (s.updColl f).rma = s.rma := rfl
@[simp] theorem State.updColl_mtch (s : State) (f : CollUnit → CollUnit) : (s.updColl f).mtch = s.mtch := rfl
@[simp] theorem State.updColl_trans (s : State) (f : CollUnit → CollUnit) : (s.updColl f).trans = s.trans := rfl
@[simp] theorem State.updColl_coll (s : State) (f : CollUnit → CollUnit) : (s.updColl f).coll = f s.coll := rfl
@[simp] theorem State.updColl_sw (s : State) (f : CollUnit → CollUnit) : (s.updColl f).sw = s.sw := rfl
@[simp] theorem State.updColl_lasts (s : State) (f : CollUnit → CollUnit) : (s.updColl f).lasts = s.lasts := rfl
@[simp] theorem State.updColl_sem (s : State) (f : CollUnit → CollUnit) : (s.updColl f).sem = s.sem := rfl
@[simp] theorem State.updColl_pwr (s : State) (f : CollUnit → CollUnit) : (s.updColl f).pwr = s.pwr := rfl
@[simp] theorem State.updColl_sec (s : State) (f : CollUnit → CollUnit) : (s.updColl f).sec = s.sec := rfl
@[simp] theorem State.updColl_mon (s : State) (f : CollUnit → CollUnit) : (s.updColl f).mon = s.mon := rfl
@[simp] theorem State.updColl_regs (s : State) (f : CollUnit → CollUnit) : (s.updColl f).regs = s.regs := rfl
@[simp] theorem State.updColl_mram (s : State) (f : CollUnit → CollUnit) : (s.updColl f).mram = s.mram := rfl
@[simp] theorem State.updColl_latch (s : State) (f : CollUnit → CollUnit) : (s.updColl f).latch = s.latch := rfl
@[simp] theorem State.updColl_out (s : State) (f : CollUnit → CollUnit) : (s.updColl f).out = s.out := rfl
@[simp] theorem State.updColl_freeN (s : State) (f : CollUnit → CollUnit) : (s.updColl f).freeN = s.freeN := rfl
@[simp] theorem State.updColl_pending (s : State) (f : CollUnit → CollUnit) : (s.updColl f).pending = s.pending := rfl

/-! ### updLasts -/

@[simp] theorem State.updLasts_time (s : State) (f : LastUnit → LastUnit) : (s.updLasts f).time = s.time := rfl
@[simp] theorem State.updLasts_exe (s : State) (f : LastUnit → LastUnit) : (s.updLasts f).exe = s.exe := rfl
@[simp] theorem State.updLasts_ctl (s : State) (f : LastUnit → LastUnit) : (s.updLasts f).ctl = s.ctl := rfl
@[simp] theorem State.updLasts_lanes (s : State) (f : LastUnit → LastUnit) : (s.updLasts f).lanes = s.lanes := rfl
@[simp] theorem State.updLasts_eyes (s : State) (f : LastUnit → LastUnit) : (s.updLasts f).eyes = s.eyes := rfl
@[simp] theorem State.updLasts_links (s : State) (f : LastUnit → LastUnit) : (s.updLasts f).links = s.links := rfl
@[simp] theorem State.updLasts_host (s : State) (f : LastUnit → LastUnit) : (s.updLasts f).host = s.host := rfl
@[simp] theorem State.updLasts_queues (s : State) (f : LastUnit → LastUnit) : (s.updLasts f).queues = s.queues := rfl
@[simp] theorem State.updLasts_rma (s : State) (f : LastUnit → LastUnit) : (s.updLasts f).rma = s.rma := rfl
@[simp] theorem State.updLasts_mtch (s : State) (f : LastUnit → LastUnit) : (s.updLasts f).mtch = s.mtch := rfl
@[simp] theorem State.updLasts_trans (s : State) (f : LastUnit → LastUnit) : (s.updLasts f).trans = s.trans := rfl
@[simp] theorem State.updLasts_coll (s : State) (f : LastUnit → LastUnit) : (s.updLasts f).coll = s.coll := rfl
@[simp] theorem State.updLasts_sw (s : State) (f : LastUnit → LastUnit) : (s.updLasts f).sw = s.sw := rfl
@[simp] theorem State.updLasts_lasts (s : State) (f : LastUnit → LastUnit) : (s.updLasts f).lasts = f s.lasts := rfl
@[simp] theorem State.updLasts_sem (s : State) (f : LastUnit → LastUnit) : (s.updLasts f).sem = s.sem := rfl
@[simp] theorem State.updLasts_pwr (s : State) (f : LastUnit → LastUnit) : (s.updLasts f).pwr = s.pwr := rfl
@[simp] theorem State.updLasts_sec (s : State) (f : LastUnit → LastUnit) : (s.updLasts f).sec = s.sec := rfl
@[simp] theorem State.updLasts_mon (s : State) (f : LastUnit → LastUnit) : (s.updLasts f).mon = s.mon := rfl
@[simp] theorem State.updLasts_regs (s : State) (f : LastUnit → LastUnit) : (s.updLasts f).regs = s.regs := rfl
@[simp] theorem State.updLasts_mram (s : State) (f : LastUnit → LastUnit) : (s.updLasts f).mram = s.mram := rfl
@[simp] theorem State.updLasts_latch (s : State) (f : LastUnit → LastUnit) : (s.updLasts f).latch = s.latch := rfl
@[simp] theorem State.updLasts_out (s : State) (f : LastUnit → LastUnit) : (s.updLasts f).out = s.out := rfl
@[simp] theorem State.updLasts_freeN (s : State) (f : LastUnit → LastUnit) : (s.updLasts f).freeN = s.freeN := rfl
@[simp] theorem State.updLasts_pending (s : State) (f : LastUnit → LastUnit) : (s.updLasts f).pending = s.pending := rfl

/-! ### updLast -/

@[simp] theorem State.updLast_time (s : State) (k : Nat) (f : LastEntry → LastEntry) : (s.updLast k f).time = s.time := rfl
@[simp] theorem State.updLast_exe (s : State) (k : Nat) (f : LastEntry → LastEntry) : (s.updLast k f).exe = s.exe := rfl
@[simp] theorem State.updLast_ctl (s : State) (k : Nat) (f : LastEntry → LastEntry) : (s.updLast k f).ctl = s.ctl := rfl
@[simp] theorem State.updLast_lanes (s : State) (k : Nat) (f : LastEntry → LastEntry) : (s.updLast k f).lanes = s.lanes := rfl
@[simp] theorem State.updLast_eyes (s : State) (k : Nat) (f : LastEntry → LastEntry) : (s.updLast k f).eyes = s.eyes := rfl
@[simp] theorem State.updLast_links (s : State) (k : Nat) (f : LastEntry → LastEntry) : (s.updLast k f).links = s.links := rfl
@[simp] theorem State.updLast_host (s : State) (k : Nat) (f : LastEntry → LastEntry) : (s.updLast k f).host = s.host := rfl
@[simp] theorem State.updLast_queues (s : State) (k : Nat) (f : LastEntry → LastEntry) : (s.updLast k f).queues = s.queues := rfl
@[simp] theorem State.updLast_rma (s : State) (k : Nat) (f : LastEntry → LastEntry) : (s.updLast k f).rma = s.rma := rfl
@[simp] theorem State.updLast_mtch (s : State) (k : Nat) (f : LastEntry → LastEntry) : (s.updLast k f).mtch = s.mtch := rfl
@[simp] theorem State.updLast_trans (s : State) (k : Nat) (f : LastEntry → LastEntry) : (s.updLast k f).trans = s.trans := rfl
@[simp] theorem State.updLast_coll (s : State) (k : Nat) (f : LastEntry → LastEntry) : (s.updLast k f).coll = s.coll := rfl
@[simp] theorem State.updLast_sw (s : State) (k : Nat) (f : LastEntry → LastEntry) : (s.updLast k f).sw = s.sw := rfl
@[simp] theorem State.updLast_lasts (s : State) (k : Nat) (f : LastEntry → LastEntry) : (s.updLast k f).lasts = { s.lasts with entries := tupd {} s.lasts.entries k f } := rfl
@[simp] theorem State.updLast_sem (s : State) (k : Nat) (f : LastEntry → LastEntry) : (s.updLast k f).sem = s.sem := rfl
@[simp] theorem State.updLast_pwr (s : State) (k : Nat) (f : LastEntry → LastEntry) : (s.updLast k f).pwr = s.pwr := rfl
@[simp] theorem State.updLast_sec (s : State) (k : Nat) (f : LastEntry → LastEntry) : (s.updLast k f).sec = s.sec := rfl
@[simp] theorem State.updLast_mon (s : State) (k : Nat) (f : LastEntry → LastEntry) : (s.updLast k f).mon = s.mon := rfl
@[simp] theorem State.updLast_regs (s : State) (k : Nat) (f : LastEntry → LastEntry) : (s.updLast k f).regs = s.regs := rfl
@[simp] theorem State.updLast_mram (s : State) (k : Nat) (f : LastEntry → LastEntry) : (s.updLast k f).mram = s.mram := rfl
@[simp] theorem State.updLast_latch (s : State) (k : Nat) (f : LastEntry → LastEntry) : (s.updLast k f).latch = s.latch := rfl
@[simp] theorem State.updLast_out (s : State) (k : Nat) (f : LastEntry → LastEntry) : (s.updLast k f).out = s.out := rfl
@[simp] theorem State.updLast_freeN (s : State) (k : Nat) (f : LastEntry → LastEntry) : (s.updLast k f).freeN = s.freeN := rfl
@[simp] theorem State.updLast_pending (s : State) (k : Nat) (f : LastEntry → LastEntry) : (s.updLast k f).pending = s.pending := rfl

/-! ### updRing -/

@[simp] theorem State.updRing_time (s : State) (r : Nat) (f : LastRing → LastRing) : (s.updRing r f).time = s.time := rfl
@[simp] theorem State.updRing_exe (s : State) (r : Nat) (f : LastRing → LastRing) : (s.updRing r f).exe = s.exe := rfl
@[simp] theorem State.updRing_ctl (s : State) (r : Nat) (f : LastRing → LastRing) : (s.updRing r f).ctl = s.ctl := rfl
@[simp] theorem State.updRing_lanes (s : State) (r : Nat) (f : LastRing → LastRing) : (s.updRing r f).lanes = s.lanes := rfl
@[simp] theorem State.updRing_eyes (s : State) (r : Nat) (f : LastRing → LastRing) : (s.updRing r f).eyes = s.eyes := rfl
@[simp] theorem State.updRing_links (s : State) (r : Nat) (f : LastRing → LastRing) : (s.updRing r f).links = s.links := rfl
@[simp] theorem State.updRing_host (s : State) (r : Nat) (f : LastRing → LastRing) : (s.updRing r f).host = s.host := rfl
@[simp] theorem State.updRing_queues (s : State) (r : Nat) (f : LastRing → LastRing) : (s.updRing r f).queues = s.queues := rfl
@[simp] theorem State.updRing_rma (s : State) (r : Nat) (f : LastRing → LastRing) : (s.updRing r f).rma = s.rma := rfl
@[simp] theorem State.updRing_mtch (s : State) (r : Nat) (f : LastRing → LastRing) : (s.updRing r f).mtch = s.mtch := rfl
@[simp] theorem State.updRing_trans (s : State) (r : Nat) (f : LastRing → LastRing) : (s.updRing r f).trans = s.trans := rfl
@[simp] theorem State.updRing_coll (s : State) (r : Nat) (f : LastRing → LastRing) : (s.updRing r f).coll = s.coll := rfl
@[simp] theorem State.updRing_sw (s : State) (r : Nat) (f : LastRing → LastRing) : (s.updRing r f).sw = s.sw := rfl
@[simp] theorem State.updRing_lasts (s : State) (r : Nat) (f : LastRing → LastRing) : (s.updRing r f).lasts = { s.lasts with rings := tupd {} s.lasts.rings r f } := rfl
@[simp] theorem State.updRing_sem (s : State) (r : Nat) (f : LastRing → LastRing) : (s.updRing r f).sem = s.sem := rfl
@[simp] theorem State.updRing_pwr (s : State) (r : Nat) (f : LastRing → LastRing) : (s.updRing r f).pwr = s.pwr := rfl
@[simp] theorem State.updRing_sec (s : State) (r : Nat) (f : LastRing → LastRing) : (s.updRing r f).sec = s.sec := rfl
@[simp] theorem State.updRing_mon (s : State) (r : Nat) (f : LastRing → LastRing) : (s.updRing r f).mon = s.mon := rfl
@[simp] theorem State.updRing_regs (s : State) (r : Nat) (f : LastRing → LastRing) : (s.updRing r f).regs = s.regs := rfl
@[simp] theorem State.updRing_mram (s : State) (r : Nat) (f : LastRing → LastRing) : (s.updRing r f).mram = s.mram := rfl
@[simp] theorem State.updRing_latch (s : State) (r : Nat) (f : LastRing → LastRing) : (s.updRing r f).latch = s.latch := rfl
@[simp] theorem State.updRing_out (s : State) (r : Nat) (f : LastRing → LastRing) : (s.updRing r f).out = s.out := rfl
@[simp] theorem State.updRing_freeN (s : State) (r : Nat) (f : LastRing → LastRing) : (s.updRing r f).freeN = s.freeN := rfl
@[simp] theorem State.updRing_pending (s : State) (r : Nat) (f : LastRing → LastRing) : (s.updRing r f).pending = s.pending := rfl

/-! ### updPwr -/

@[simp] theorem State.updPwr_time (s : State) (f : PwrUnit → PwrUnit) : (s.updPwr f).time = s.time := rfl
@[simp] theorem State.updPwr_exe (s : State) (f : PwrUnit → PwrUnit) : (s.updPwr f).exe = s.exe := rfl
@[simp] theorem State.updPwr_ctl (s : State) (f : PwrUnit → PwrUnit) : (s.updPwr f).ctl = s.ctl := rfl
@[simp] theorem State.updPwr_lanes (s : State) (f : PwrUnit → PwrUnit) : (s.updPwr f).lanes = s.lanes := rfl
@[simp] theorem State.updPwr_eyes (s : State) (f : PwrUnit → PwrUnit) : (s.updPwr f).eyes = s.eyes := rfl
@[simp] theorem State.updPwr_links (s : State) (f : PwrUnit → PwrUnit) : (s.updPwr f).links = s.links := rfl
@[simp] theorem State.updPwr_host (s : State) (f : PwrUnit → PwrUnit) : (s.updPwr f).host = s.host := rfl
@[simp] theorem State.updPwr_queues (s : State) (f : PwrUnit → PwrUnit) : (s.updPwr f).queues = s.queues := rfl
@[simp] theorem State.updPwr_rma (s : State) (f : PwrUnit → PwrUnit) : (s.updPwr f).rma = s.rma := rfl
@[simp] theorem State.updPwr_mtch (s : State) (f : PwrUnit → PwrUnit) : (s.updPwr f).mtch = s.mtch := rfl
@[simp] theorem State.updPwr_trans (s : State) (f : PwrUnit → PwrUnit) : (s.updPwr f).trans = s.trans := rfl
@[simp] theorem State.updPwr_coll (s : State) (f : PwrUnit → PwrUnit) : (s.updPwr f).coll = s.coll := rfl
@[simp] theorem State.updPwr_sw (s : State) (f : PwrUnit → PwrUnit) : (s.updPwr f).sw = s.sw := rfl
@[simp] theorem State.updPwr_lasts (s : State) (f : PwrUnit → PwrUnit) : (s.updPwr f).lasts = s.lasts := rfl
@[simp] theorem State.updPwr_sem (s : State) (f : PwrUnit → PwrUnit) : (s.updPwr f).sem = s.sem := rfl
@[simp] theorem State.updPwr_pwr (s : State) (f : PwrUnit → PwrUnit) : (s.updPwr f).pwr = f s.pwr := rfl
@[simp] theorem State.updPwr_sec (s : State) (f : PwrUnit → PwrUnit) : (s.updPwr f).sec = s.sec := rfl
@[simp] theorem State.updPwr_mon (s : State) (f : PwrUnit → PwrUnit) : (s.updPwr f).mon = s.mon := rfl
@[simp] theorem State.updPwr_regs (s : State) (f : PwrUnit → PwrUnit) : (s.updPwr f).regs = s.regs := rfl
@[simp] theorem State.updPwr_mram (s : State) (f : PwrUnit → PwrUnit) : (s.updPwr f).mram = s.mram := rfl
@[simp] theorem State.updPwr_latch (s : State) (f : PwrUnit → PwrUnit) : (s.updPwr f).latch = s.latch := rfl
@[simp] theorem State.updPwr_out (s : State) (f : PwrUnit → PwrUnit) : (s.updPwr f).out = s.out := rfl
@[simp] theorem State.updPwr_freeN (s : State) (f : PwrUnit → PwrUnit) : (s.updPwr f).freeN = s.freeN := rfl
@[simp] theorem State.updPwr_pending (s : State) (f : PwrUnit → PwrUnit) : (s.updPwr f).pending = s.pending := rfl

/-! ### updSec -/

@[simp] theorem State.updSec_time (s : State) (f : SecUnit → SecUnit) : (s.updSec f).time = s.time := rfl
@[simp] theorem State.updSec_exe (s : State) (f : SecUnit → SecUnit) : (s.updSec f).exe = s.exe := rfl
@[simp] theorem State.updSec_ctl (s : State) (f : SecUnit → SecUnit) : (s.updSec f).ctl = s.ctl := rfl
@[simp] theorem State.updSec_lanes (s : State) (f : SecUnit → SecUnit) : (s.updSec f).lanes = s.lanes := rfl
@[simp] theorem State.updSec_eyes (s : State) (f : SecUnit → SecUnit) : (s.updSec f).eyes = s.eyes := rfl
@[simp] theorem State.updSec_links (s : State) (f : SecUnit → SecUnit) : (s.updSec f).links = s.links := rfl
@[simp] theorem State.updSec_host (s : State) (f : SecUnit → SecUnit) : (s.updSec f).host = s.host := rfl
@[simp] theorem State.updSec_queues (s : State) (f : SecUnit → SecUnit) : (s.updSec f).queues = s.queues := rfl
@[simp] theorem State.updSec_rma (s : State) (f : SecUnit → SecUnit) : (s.updSec f).rma = s.rma := rfl
@[simp] theorem State.updSec_mtch (s : State) (f : SecUnit → SecUnit) : (s.updSec f).mtch = s.mtch := rfl
@[simp] theorem State.updSec_trans (s : State) (f : SecUnit → SecUnit) : (s.updSec f).trans = s.trans := rfl
@[simp] theorem State.updSec_coll (s : State) (f : SecUnit → SecUnit) : (s.updSec f).coll = s.coll := rfl
@[simp] theorem State.updSec_sw (s : State) (f : SecUnit → SecUnit) : (s.updSec f).sw = s.sw := rfl
@[simp] theorem State.updSec_lasts (s : State) (f : SecUnit → SecUnit) : (s.updSec f).lasts = s.lasts := rfl
@[simp] theorem State.updSec_sem (s : State) (f : SecUnit → SecUnit) : (s.updSec f).sem = s.sem := rfl
@[simp] theorem State.updSec_pwr (s : State) (f : SecUnit → SecUnit) : (s.updSec f).pwr = s.pwr := rfl
@[simp] theorem State.updSec_sec (s : State) (f : SecUnit → SecUnit) : (s.updSec f).sec = f s.sec := rfl
@[simp] theorem State.updSec_mon (s : State) (f : SecUnit → SecUnit) : (s.updSec f).mon = s.mon := rfl
@[simp] theorem State.updSec_regs (s : State) (f : SecUnit → SecUnit) : (s.updSec f).regs = s.regs := rfl
@[simp] theorem State.updSec_mram (s : State) (f : SecUnit → SecUnit) : (s.updSec f).mram = s.mram := rfl
@[simp] theorem State.updSec_latch (s : State) (f : SecUnit → SecUnit) : (s.updSec f).latch = s.latch := rfl
@[simp] theorem State.updSec_out (s : State) (f : SecUnit → SecUnit) : (s.updSec f).out = s.out := rfl
@[simp] theorem State.updSec_freeN (s : State) (f : SecUnit → SecUnit) : (s.updSec f).freeN = s.freeN := rfl
@[simp] theorem State.updSec_pending (s : State) (f : SecUnit → SecUnit) : (s.updSec f).pending = s.pending := rfl

/-! ### withPending -/

@[simp] theorem State.withPending_time (s : State) (q : List Instr) : (s.withPending q).time = s.time := rfl
@[simp] theorem State.withPending_exe (s : State) (q : List Instr) : (s.withPending q).exe = s.exe := rfl
@[simp] theorem State.withPending_ctl (s : State) (q : List Instr) : (s.withPending q).ctl = s.ctl := rfl
@[simp] theorem State.withPending_lanes (s : State) (q : List Instr) : (s.withPending q).lanes = s.lanes := rfl
@[simp] theorem State.withPending_eyes (s : State) (q : List Instr) : (s.withPending q).eyes = s.eyes := rfl
@[simp] theorem State.withPending_links (s : State) (q : List Instr) : (s.withPending q).links = s.links := rfl
@[simp] theorem State.withPending_host (s : State) (q : List Instr) : (s.withPending q).host = s.host := rfl
@[simp] theorem State.withPending_queues (s : State) (q : List Instr) : (s.withPending q).queues = s.queues := rfl
@[simp] theorem State.withPending_rma (s : State) (q : List Instr) : (s.withPending q).rma = s.rma := rfl
@[simp] theorem State.withPending_mtch (s : State) (q : List Instr) : (s.withPending q).mtch = s.mtch := rfl
@[simp] theorem State.withPending_trans (s : State) (q : List Instr) : (s.withPending q).trans = s.trans := rfl
@[simp] theorem State.withPending_coll (s : State) (q : List Instr) : (s.withPending q).coll = s.coll := rfl
@[simp] theorem State.withPending_sw (s : State) (q : List Instr) : (s.withPending q).sw = s.sw := rfl
@[simp] theorem State.withPending_lasts (s : State) (q : List Instr) : (s.withPending q).lasts = s.lasts := rfl
@[simp] theorem State.withPending_sem (s : State) (q : List Instr) : (s.withPending q).sem = s.sem := rfl
@[simp] theorem State.withPending_pwr (s : State) (q : List Instr) : (s.withPending q).pwr = s.pwr := rfl
@[simp] theorem State.withPending_sec (s : State) (q : List Instr) : (s.withPending q).sec = s.sec := rfl
@[simp] theorem State.withPending_mon (s : State) (q : List Instr) : (s.withPending q).mon = s.mon := rfl
@[simp] theorem State.withPending_regs (s : State) (q : List Instr) : (s.withPending q).regs = s.regs := rfl
@[simp] theorem State.withPending_mram (s : State) (q : List Instr) : (s.withPending q).mram = s.mram := rfl
@[simp] theorem State.withPending_latch (s : State) (q : List Instr) : (s.withPending q).latch = s.latch := rfl
@[simp] theorem State.withPending_out (s : State) (q : List Instr) : (s.withPending q).out = s.out := rfl
@[simp] theorem State.withPending_freeN (s : State) (q : List Instr) : (s.withPending q).freeN = s.freeN := rfl
@[simp] theorem State.withPending_pending (s : State) (q : List Instr) : (s.withPending q).pending = q := rfl

/-! ### The parts that a change of another part leaves -/

@[simp] theorem State.count_lane (s : State) (ev inst n : Nat) (i0 : Nat) : (s.count ev inst n).lane i0 = s.lane i0 := rfl
@[simp] theorem State.count_link (s : State) (ev inst n : Nat) (i0 : Nat) : (s.count ev inst n).link i0 = s.link i0 := rfl
@[simp] theorem State.count_tport (s : State) (ev inst n : Nat) (i0 : Nat) : (s.count ev inst n).tport i0 = s.tport i0 := rfl
@[simp] theorem State.count_reg (s : State) (ev inst n : Nat) (ob : Obj) (rw : Nat) : (s.count ev inst n).reg ob rw = s.reg ob rw := rfl
@[simp] theorem State.count_module (s : State) (ev inst n : Nat) (i0 : Nat) : (s.count ev inst n).module i0 = s.module i0 := rfl
@[simp] theorem State.count_queue (s : State) (ev inst n : Nat) (i0 : Nat) : (s.count ev inst n).queue i0 = s.queue i0 := rfl
@[simp] theorem State.count_reqCtx (s : State) (ev inst n : Nat) (i0 : Nat) : (s.count ev inst n).reqCtx i0 = s.reqCtx i0 := rfl
@[simp] theorem State.count_respCtx (s : State) (ev inst n : Nat) (i0 : Nat) : (s.count ev inst n).respCtx i0 = s.respCtx i0 := rfl
@[simp] theorem State.count_seg (s : State) (ev inst n : Nat) (i0 : Nat) : (s.count ev inst n).seg i0 = s.seg i0 := rfl
@[simp] theorem State.count_mep (s : State) (ev inst n : Nat) (i0 : Nat) : (s.count ev inst n).mep i0 = s.mep i0 := rfl
@[simp] theorem State.count_collRow (s : State) (ev inst n : Nat) (i0 : Nat) : (s.count ev inst n).collRow i0 = s.collRow i0 := rfl
@[simp] theorem State.count_inPort (s : State) (ev inst n : Nat) (i0 : Nat) : (s.count ev inst n).inPort i0 = s.inPort i0 := rfl
@[simp] theorem State.count_outPort (s : State) (ev inst n : Nat) (i0 : Nat) : (s.count ev inst n).outPort i0 = s.outPort i0 := rfl
@[simp] theorem State.count_last (s : State) (ev inst n : Nat) (i0 : Nat) : (s.count ev inst n).last i0 = s.last i0 := rfl
@[simp] theorem State.count_ring (s : State) (ev inst n : Nat) (i0 : Nat) : (s.count ev inst n).ring i0 = s.ring i0 := rfl

@[simp] theorem State.fire_lane (s : State) (n : Nat) (i0 : Nat) : (s.fire n).lane i0 = s.lane i0 := rfl
@[simp] theorem State.fire_link (s : State) (n : Nat) (i0 : Nat) : (s.fire n).link i0 = s.link i0 := rfl
@[simp] theorem State.fire_tport (s : State) (n : Nat) (i0 : Nat) : (s.fire n).tport i0 = s.tport i0 := rfl
@[simp] theorem State.fire_reg (s : State) (n : Nat) (ob : Obj) (rw : Nat) : (s.fire n).reg ob rw = s.reg ob rw := rfl
@[simp] theorem State.fire_module (s : State) (n : Nat) (i0 : Nat) : (s.fire n).module i0 = s.module i0 := rfl
@[simp] theorem State.fire_queue (s : State) (n : Nat) (i0 : Nat) : (s.fire n).queue i0 = s.queue i0 := rfl
@[simp] theorem State.fire_reqCtx (s : State) (n : Nat) (i0 : Nat) : (s.fire n).reqCtx i0 = s.reqCtx i0 := rfl
@[simp] theorem State.fire_respCtx (s : State) (n : Nat) (i0 : Nat) : (s.fire n).respCtx i0 = s.respCtx i0 := rfl
@[simp] theorem State.fire_seg (s : State) (n : Nat) (i0 : Nat) : (s.fire n).seg i0 = s.seg i0 := rfl
@[simp] theorem State.fire_mep (s : State) (n : Nat) (i0 : Nat) : (s.fire n).mep i0 = s.mep i0 := rfl
@[simp] theorem State.fire_collRow (s : State) (n : Nat) (i0 : Nat) : (s.fire n).collRow i0 = s.collRow i0 := rfl
@[simp] theorem State.fire_inPort (s : State) (n : Nat) (i0 : Nat) : (s.fire n).inPort i0 = s.inPort i0 := rfl
@[simp] theorem State.fire_outPort (s : State) (n : Nat) (i0 : Nat) : (s.fire n).outPort i0 = s.outPort i0 := rfl
@[simp] theorem State.fire_last (s : State) (n : Nat) (i0 : Nat) : (s.fire n).last i0 = s.last i0 := rfl
@[simp] theorem State.fire_ring (s : State) (n : Nat) (i0 : Nat) : (s.fire n).ring i0 = s.ring i0 := rfl

@[simp] theorem State.event_lane (s : State) (ev : Obj) (row bit : Nat) (i0 : Nat) : (s.event ev row bit).lane i0 = s.lane i0 := rfl
@[simp] theorem State.event_link (s : State) (ev : Obj) (row bit : Nat) (i0 : Nat) : (s.event ev row bit).link i0 = s.link i0 := rfl
@[simp] theorem State.event_tport (s : State) (ev : Obj) (row bit : Nat) (i0 : Nat) : (s.event ev row bit).tport i0 = s.tport i0 := rfl
@[simp] theorem State.event_reg (s : State) (ev : Obj) (row bit : Nat) (ob : Obj) (rw : Nat) : (s.event ev row bit).reg ob rw = s.reg ob rw := rfl
@[simp] theorem State.event_module (s : State) (ev : Obj) (row bit : Nat) (i0 : Nat) : (s.event ev row bit).module i0 = s.module i0 := rfl
@[simp] theorem State.event_queue (s : State) (ev : Obj) (row bit : Nat) (i0 : Nat) : (s.event ev row bit).queue i0 = s.queue i0 := rfl
@[simp] theorem State.event_reqCtx (s : State) (ev : Obj) (row bit : Nat) (i0 : Nat) : (s.event ev row bit).reqCtx i0 = s.reqCtx i0 := rfl
@[simp] theorem State.event_respCtx (s : State) (ev : Obj) (row bit : Nat) (i0 : Nat) : (s.event ev row bit).respCtx i0 = s.respCtx i0 := rfl
@[simp] theorem State.event_seg (s : State) (ev : Obj) (row bit : Nat) (i0 : Nat) : (s.event ev row bit).seg i0 = s.seg i0 := rfl
@[simp] theorem State.event_mep (s : State) (ev : Obj) (row bit : Nat) (i0 : Nat) : (s.event ev row bit).mep i0 = s.mep i0 := rfl
@[simp] theorem State.event_collRow (s : State) (ev : Obj) (row bit : Nat) (i0 : Nat) : (s.event ev row bit).collRow i0 = s.collRow i0 := rfl
@[simp] theorem State.event_inPort (s : State) (ev : Obj) (row bit : Nat) (i0 : Nat) : (s.event ev row bit).inPort i0 = s.inPort i0 := rfl
@[simp] theorem State.event_outPort (s : State) (ev : Obj) (row bit : Nat) (i0 : Nat) : (s.event ev row bit).outPort i0 = s.outPort i0 := rfl
@[simp] theorem State.event_last (s : State) (ev : Obj) (row bit : Nat) (i0 : Nat) : (s.event ev row bit).last i0 = s.last i0 := rfl
@[simp] theorem State.event_ring (s : State) (ev : Obj) (row bit : Nat) (i0 : Nat) : (s.event ev row bit).ring i0 = s.ring i0 := rfl

@[simp] theorem State.raise_lane (s : State) (code scope inst detail : Nat) (i0 : Nat) : (s.raise code scope inst detail).lane i0 = s.lane i0 := rfl
@[simp] theorem State.raise_link (s : State) (code scope inst detail : Nat) (i0 : Nat) : (s.raise code scope inst detail).link i0 = s.link i0 := rfl
@[simp] theorem State.raise_tport (s : State) (code scope inst detail : Nat) (i0 : Nat) : (s.raise code scope inst detail).tport i0 = s.tport i0 := rfl
@[simp] theorem State.raise_reg (s : State) (code scope inst detail : Nat) (ob : Obj) (rw : Nat) : (s.raise code scope inst detail).reg ob rw = s.reg ob rw := rfl
@[simp] theorem State.raise_module (s : State) (code scope inst detail : Nat) (i0 : Nat) : (s.raise code scope inst detail).module i0 = s.module i0 := rfl
@[simp] theorem State.raise_queue (s : State) (code scope inst detail : Nat) (i0 : Nat) : (s.raise code scope inst detail).queue i0 = s.queue i0 := rfl
@[simp] theorem State.raise_reqCtx (s : State) (code scope inst detail : Nat) (i0 : Nat) : (s.raise code scope inst detail).reqCtx i0 = s.reqCtx i0 := rfl
@[simp] theorem State.raise_respCtx (s : State) (code scope inst detail : Nat) (i0 : Nat) : (s.raise code scope inst detail).respCtx i0 = s.respCtx i0 := rfl
@[simp] theorem State.raise_seg (s : State) (code scope inst detail : Nat) (i0 : Nat) : (s.raise code scope inst detail).seg i0 = s.seg i0 := rfl
@[simp] theorem State.raise_mep (s : State) (code scope inst detail : Nat) (i0 : Nat) : (s.raise code scope inst detail).mep i0 = s.mep i0 := rfl
@[simp] theorem State.raise_collRow (s : State) (code scope inst detail : Nat) (i0 : Nat) : (s.raise code scope inst detail).collRow i0 = s.collRow i0 := rfl
@[simp] theorem State.raise_inPort (s : State) (code scope inst detail : Nat) (i0 : Nat) : (s.raise code scope inst detail).inPort i0 = s.inPort i0 := rfl
@[simp] theorem State.raise_outPort (s : State) (code scope inst detail : Nat) (i0 : Nat) : (s.raise code scope inst detail).outPort i0 = s.outPort i0 := rfl
@[simp] theorem State.raise_last (s : State) (code scope inst detail : Nat) (i0 : Nat) : (s.raise code scope inst detail).last i0 = s.last i0 := rfl
@[simp] theorem State.raise_ring (s : State) (code scope inst detail : Nat) (i0 : Nat) : (s.raise code scope inst detail).ring i0 = s.ring i0 := rfl

@[simp] theorem State.wrote_lane (s : State) (st : Nat) (i0 : Nat) : (s.wrote st).lane i0 = s.lane i0 := rfl
@[simp] theorem State.wrote_link (s : State) (st : Nat) (i0 : Nat) : (s.wrote st).link i0 = s.link i0 := rfl
@[simp] theorem State.wrote_tport (s : State) (st : Nat) (i0 : Nat) : (s.wrote st).tport i0 = s.tport i0 := rfl
@[simp] theorem State.wrote_reg (s : State) (st : Nat) (ob : Obj) (rw : Nat) : (s.wrote st).reg ob rw = s.reg ob rw := rfl
@[simp] theorem State.wrote_module (s : State) (st : Nat) (i0 : Nat) : (s.wrote st).module i0 = s.module i0 := rfl
@[simp] theorem State.wrote_queue (s : State) (st : Nat) (i0 : Nat) : (s.wrote st).queue i0 = s.queue i0 := rfl
@[simp] theorem State.wrote_reqCtx (s : State) (st : Nat) (i0 : Nat) : (s.wrote st).reqCtx i0 = s.reqCtx i0 := rfl
@[simp] theorem State.wrote_respCtx (s : State) (st : Nat) (i0 : Nat) : (s.wrote st).respCtx i0 = s.respCtx i0 := rfl
@[simp] theorem State.wrote_seg (s : State) (st : Nat) (i0 : Nat) : (s.wrote st).seg i0 = s.seg i0 := rfl
@[simp] theorem State.wrote_mep (s : State) (st : Nat) (i0 : Nat) : (s.wrote st).mep i0 = s.mep i0 := rfl
@[simp] theorem State.wrote_collRow (s : State) (st : Nat) (i0 : Nat) : (s.wrote st).collRow i0 = s.collRow i0 := rfl
@[simp] theorem State.wrote_inPort (s : State) (st : Nat) (i0 : Nat) : (s.wrote st).inPort i0 = s.inPort i0 := rfl
@[simp] theorem State.wrote_outPort (s : State) (st : Nat) (i0 : Nat) : (s.wrote st).outPort i0 = s.outPort i0 := rfl
@[simp] theorem State.wrote_last (s : State) (st : Nat) (i0 : Nat) : (s.wrote st).last i0 = s.last i0 := rfl
@[simp] theorem State.wrote_ring (s : State) (st : Nat) (i0 : Nat) : (s.wrote st).ring i0 = s.ring i0 := rfl

@[simp] theorem State.latched_lane (s : State) (i0 : Nat) : (s.latched).lane i0 = s.lane i0 := rfl
@[simp] theorem State.latched_link (s : State) (i0 : Nat) : (s.latched).link i0 = s.link i0 := rfl
@[simp] theorem State.latched_tport (s : State) (i0 : Nat) : (s.latched).tport i0 = s.tport i0 := rfl
@[simp] theorem State.latched_reg (s : State) (ob : Obj) (rw : Nat) : (s.latched).reg ob rw = s.reg ob rw := rfl
@[simp] theorem State.latched_module (s : State) (i0 : Nat) : (s.latched).module i0 = s.module i0 := rfl
@[simp] theorem State.latched_queue (s : State) (i0 : Nat) : (s.latched).queue i0 = s.queue i0 := rfl
@[simp] theorem State.latched_reqCtx (s : State) (i0 : Nat) : (s.latched).reqCtx i0 = s.reqCtx i0 := rfl
@[simp] theorem State.latched_respCtx (s : State) (i0 : Nat) : (s.latched).respCtx i0 = s.respCtx i0 := rfl
@[simp] theorem State.latched_seg (s : State) (i0 : Nat) : (s.latched).seg i0 = s.seg i0 := rfl
@[simp] theorem State.latched_mep (s : State) (i0 : Nat) : (s.latched).mep i0 = s.mep i0 := rfl
@[simp] theorem State.latched_collRow (s : State) (i0 : Nat) : (s.latched).collRow i0 = s.collRow i0 := rfl
@[simp] theorem State.latched_inPort (s : State) (i0 : Nat) : (s.latched).inPort i0 = s.inPort i0 := rfl
@[simp] theorem State.latched_outPort (s : State) (i0 : Nat) : (s.latched).outPort i0 = s.outPort i0 := rfl
@[simp] theorem State.latched_last (s : State) (i0 : Nat) : (s.latched).last i0 = s.last i0 := rfl
@[simp] theorem State.latched_ring (s : State) (i0 : Nat) : (s.latched).ring i0 = s.ring i0 := rfl

@[simp] theorem State.emit_lane (s : State) (o : Out) (i0 : Nat) : (s.emit o).lane i0 = s.lane i0 := rfl
@[simp] theorem State.emit_link (s : State) (o : Out) (i0 : Nat) : (s.emit o).link i0 = s.link i0 := rfl
@[simp] theorem State.emit_tport (s : State) (o : Out) (i0 : Nat) : (s.emit o).tport i0 = s.tport i0 := rfl
@[simp] theorem State.emit_reg (s : State) (o : Out) (ob : Obj) (rw : Nat) : (s.emit o).reg ob rw = s.reg ob rw := rfl
@[simp] theorem State.emit_module (s : State) (o : Out) (i0 : Nat) : (s.emit o).module i0 = s.module i0 := rfl
@[simp] theorem State.emit_queue (s : State) (o : Out) (i0 : Nat) : (s.emit o).queue i0 = s.queue i0 := rfl
@[simp] theorem State.emit_reqCtx (s : State) (o : Out) (i0 : Nat) : (s.emit o).reqCtx i0 = s.reqCtx i0 := rfl
@[simp] theorem State.emit_respCtx (s : State) (o : Out) (i0 : Nat) : (s.emit o).respCtx i0 = s.respCtx i0 := rfl
@[simp] theorem State.emit_seg (s : State) (o : Out) (i0 : Nat) : (s.emit o).seg i0 = s.seg i0 := rfl
@[simp] theorem State.emit_mep (s : State) (o : Out) (i0 : Nat) : (s.emit o).mep i0 = s.mep i0 := rfl
@[simp] theorem State.emit_collRow (s : State) (o : Out) (i0 : Nat) : (s.emit o).collRow i0 = s.collRow i0 := rfl
@[simp] theorem State.emit_inPort (s : State) (o : Out) (i0 : Nat) : (s.emit o).inPort i0 = s.inPort i0 := rfl
@[simp] theorem State.emit_outPort (s : State) (o : Out) (i0 : Nat) : (s.emit o).outPort i0 = s.outPort i0 := rfl
@[simp] theorem State.emit_last (s : State) (o : Out) (i0 : Nat) : (s.emit o).last i0 = s.last i0 := rfl
@[simp] theorem State.emit_ring (s : State) (o : Out) (i0 : Nat) : (s.emit o).ring i0 = s.ring i0 := rfl

@[simp] theorem State.took_lane (s : State) (i0 : Nat) : (s.took).lane i0 = s.lane i0 := rfl
@[simp] theorem State.took_link (s : State) (i0 : Nat) : (s.took).link i0 = s.link i0 := rfl
@[simp] theorem State.took_tport (s : State) (i0 : Nat) : (s.took).tport i0 = s.tport i0 := rfl
@[simp] theorem State.took_reg (s : State) (ob : Obj) (rw : Nat) : (s.took).reg ob rw = s.reg ob rw := rfl
@[simp] theorem State.took_module (s : State) (i0 : Nat) : (s.took).module i0 = s.module i0 := rfl
@[simp] theorem State.took_queue (s : State) (i0 : Nat) : (s.took).queue i0 = s.queue i0 := rfl
@[simp] theorem State.took_reqCtx (s : State) (i0 : Nat) : (s.took).reqCtx i0 = s.reqCtx i0 := rfl
@[simp] theorem State.took_respCtx (s : State) (i0 : Nat) : (s.took).respCtx i0 = s.respCtx i0 := rfl
@[simp] theorem State.took_seg (s : State) (i0 : Nat) : (s.took).seg i0 = s.seg i0 := rfl
@[simp] theorem State.took_mep (s : State) (i0 : Nat) : (s.took).mep i0 = s.mep i0 := rfl
@[simp] theorem State.took_collRow (s : State) (i0 : Nat) : (s.took).collRow i0 = s.collRow i0 := rfl
@[simp] theorem State.took_inPort (s : State) (i0 : Nat) : (s.took).inPort i0 = s.inPort i0 := rfl
@[simp] theorem State.took_outPort (s : State) (i0 : Nat) : (s.took).outPort i0 = s.outPort i0 := rfl
@[simp] theorem State.took_last (s : State) (i0 : Nat) : (s.took).last i0 = s.last i0 := rfl
@[simp] theorem State.took_ring (s : State) (i0 : Nat) : (s.took).ring i0 = s.ring i0 := rfl

@[simp] theorem State.setReg_lane (s : State) (o : Obj) (row v : Nat) (i0 : Nat) : (s.setReg o row v).lane i0 = s.lane i0 := rfl
@[simp] theorem State.setReg_link (s : State) (o : Obj) (row v : Nat) (i0 : Nat) : (s.setReg o row v).link i0 = s.link i0 := rfl
@[simp] theorem State.setReg_tport (s : State) (o : Obj) (row v : Nat) (i0 : Nat) : (s.setReg o row v).tport i0 = s.tport i0 := rfl
@[simp] theorem State.setReg_module (s : State) (o : Obj) (row v : Nat) (i0 : Nat) : (s.setReg o row v).module i0 = s.module i0 := rfl
@[simp] theorem State.setReg_queue (s : State) (o : Obj) (row v : Nat) (i0 : Nat) : (s.setReg o row v).queue i0 = s.queue i0 := rfl
@[simp] theorem State.setReg_reqCtx (s : State) (o : Obj) (row v : Nat) (i0 : Nat) : (s.setReg o row v).reqCtx i0 = s.reqCtx i0 := rfl
@[simp] theorem State.setReg_respCtx (s : State) (o : Obj) (row v : Nat) (i0 : Nat) : (s.setReg o row v).respCtx i0 = s.respCtx i0 := rfl
@[simp] theorem State.setReg_seg (s : State) (o : Obj) (row v : Nat) (i0 : Nat) : (s.setReg o row v).seg i0 = s.seg i0 := rfl
@[simp] theorem State.setReg_mep (s : State) (o : Obj) (row v : Nat) (i0 : Nat) : (s.setReg o row v).mep i0 = s.mep i0 := rfl
@[simp] theorem State.setReg_collRow (s : State) (o : Obj) (row v : Nat) (i0 : Nat) : (s.setReg o row v).collRow i0 = s.collRow i0 := rfl
@[simp] theorem State.setReg_inPort (s : State) (o : Obj) (row v : Nat) (i0 : Nat) : (s.setReg o row v).inPort i0 = s.inPort i0 := rfl
@[simp] theorem State.setReg_outPort (s : State) (o : Obj) (row v : Nat) (i0 : Nat) : (s.setReg o row v).outPort i0 = s.outPort i0 := rfl
@[simp] theorem State.setReg_last (s : State) (o : Obj) (row v : Nat) (i0 : Nat) : (s.setReg o row v).last i0 = s.last i0 := rfl
@[simp] theorem State.setReg_ring (s : State) (o : Obj) (row v : Nat) (i0 : Nat) : (s.setReg o row v).ring i0 = s.ring i0 := rfl

@[simp] theorem State.updLane_link (s : State) (p : Nat) (f : LanePort → LanePort) (i0 : Nat) : (s.updLane p f).link i0 = s.link i0 := rfl
@[simp] theorem State.updLane_tport (s : State) (p : Nat) (f : LanePort → LanePort) (i0 : Nat) : (s.updLane p f).tport i0 = s.tport i0 := rfl
@[simp] theorem State.updLane_reg (s : State) (p : Nat) (f : LanePort → LanePort) (ob : Obj) (rw : Nat) : (s.updLane p f).reg ob rw = s.reg ob rw := rfl
@[simp] theorem State.updLane_module (s : State) (p : Nat) (f : LanePort → LanePort) (i0 : Nat) : (s.updLane p f).module i0 = s.module i0 := rfl
@[simp] theorem State.updLane_queue (s : State) (p : Nat) (f : LanePort → LanePort) (i0 : Nat) : (s.updLane p f).queue i0 = s.queue i0 := rfl
@[simp] theorem State.updLane_reqCtx (s : State) (p : Nat) (f : LanePort → LanePort) (i0 : Nat) : (s.updLane p f).reqCtx i0 = s.reqCtx i0 := rfl
@[simp] theorem State.updLane_respCtx (s : State) (p : Nat) (f : LanePort → LanePort) (i0 : Nat) : (s.updLane p f).respCtx i0 = s.respCtx i0 := rfl
@[simp] theorem State.updLane_seg (s : State) (p : Nat) (f : LanePort → LanePort) (i0 : Nat) : (s.updLane p f).seg i0 = s.seg i0 := rfl
@[simp] theorem State.updLane_mep (s : State) (p : Nat) (f : LanePort → LanePort) (i0 : Nat) : (s.updLane p f).mep i0 = s.mep i0 := rfl
@[simp] theorem State.updLane_collRow (s : State) (p : Nat) (f : LanePort → LanePort) (i0 : Nat) : (s.updLane p f).collRow i0 = s.collRow i0 := rfl
@[simp] theorem State.updLane_inPort (s : State) (p : Nat) (f : LanePort → LanePort) (i0 : Nat) : (s.updLane p f).inPort i0 = s.inPort i0 := rfl
@[simp] theorem State.updLane_outPort (s : State) (p : Nat) (f : LanePort → LanePort) (i0 : Nat) : (s.updLane p f).outPort i0 = s.outPort i0 := rfl
@[simp] theorem State.updLane_last (s : State) (p : Nat) (f : LanePort → LanePort) (i0 : Nat) : (s.updLane p f).last i0 = s.last i0 := rfl
@[simp] theorem State.updLane_ring (s : State) (p : Nat) (f : LanePort → LanePort) (i0 : Nat) : (s.updLane p f).ring i0 = s.ring i0 := rfl

@[simp] theorem State.updLink_lane (s : State) (p : Nat) (f : LinkPort → LinkPort) (i0 : Nat) : (s.updLink p f).lane i0 = s.lane i0 := rfl
@[simp] theorem State.updLink_tport (s : State) (p : Nat) (f : LinkPort → LinkPort) (i0 : Nat) : (s.updLink p f).tport i0 = s.tport i0 := rfl
@[simp] theorem State.updLink_reg (s : State) (p : Nat) (f : LinkPort → LinkPort) (ob : Obj) (rw : Nat) : (s.updLink p f).reg ob rw = s.reg ob rw := rfl
@[simp] theorem State.updLink_module (s : State) (p : Nat) (f : LinkPort → LinkPort) (i0 : Nat) : (s.updLink p f).module i0 = s.module i0 := rfl
@[simp] theorem State.updLink_queue (s : State) (p : Nat) (f : LinkPort → LinkPort) (i0 : Nat) : (s.updLink p f).queue i0 = s.queue i0 := rfl
@[simp] theorem State.updLink_reqCtx (s : State) (p : Nat) (f : LinkPort → LinkPort) (i0 : Nat) : (s.updLink p f).reqCtx i0 = s.reqCtx i0 := rfl
@[simp] theorem State.updLink_respCtx (s : State) (p : Nat) (f : LinkPort → LinkPort) (i0 : Nat) : (s.updLink p f).respCtx i0 = s.respCtx i0 := rfl
@[simp] theorem State.updLink_seg (s : State) (p : Nat) (f : LinkPort → LinkPort) (i0 : Nat) : (s.updLink p f).seg i0 = s.seg i0 := rfl
@[simp] theorem State.updLink_mep (s : State) (p : Nat) (f : LinkPort → LinkPort) (i0 : Nat) : (s.updLink p f).mep i0 = s.mep i0 := rfl
@[simp] theorem State.updLink_collRow (s : State) (p : Nat) (f : LinkPort → LinkPort) (i0 : Nat) : (s.updLink p f).collRow i0 = s.collRow i0 := rfl
@[simp] theorem State.updLink_inPort (s : State) (p : Nat) (f : LinkPort → LinkPort) (i0 : Nat) : (s.updLink p f).inPort i0 = s.inPort i0 := rfl
@[simp] theorem State.updLink_outPort (s : State) (p : Nat) (f : LinkPort → LinkPort) (i0 : Nat) : (s.updLink p f).outPort i0 = s.outPort i0 := rfl
@[simp] theorem State.updLink_last (s : State) (p : Nat) (f : LinkPort → LinkPort) (i0 : Nat) : (s.updLink p f).last i0 = s.last i0 := rfl
@[simp] theorem State.updLink_ring (s : State) (p : Nat) (f : LinkPort → LinkPort) (i0 : Nat) : (s.updLink p f).ring i0 = s.ring i0 := rfl

@[simp] theorem State.updTport_lane (s : State) (p : Nat) (f : TimePort → TimePort) (i0 : Nat) : (s.updTport p f).lane i0 = s.lane i0 := rfl
@[simp] theorem State.updTport_link (s : State) (p : Nat) (f : TimePort → TimePort) (i0 : Nat) : (s.updTport p f).link i0 = s.link i0 := rfl
@[simp] theorem State.updTport_reg (s : State) (p : Nat) (f : TimePort → TimePort) (ob : Obj) (rw : Nat) : (s.updTport p f).reg ob rw = s.reg ob rw := rfl
@[simp] theorem State.updTport_module (s : State) (p : Nat) (f : TimePort → TimePort) (i0 : Nat) : (s.updTport p f).module i0 = s.module i0 := rfl
@[simp] theorem State.updTport_queue (s : State) (p : Nat) (f : TimePort → TimePort) (i0 : Nat) : (s.updTport p f).queue i0 = s.queue i0 := rfl
@[simp] theorem State.updTport_reqCtx (s : State) (p : Nat) (f : TimePort → TimePort) (i0 : Nat) : (s.updTport p f).reqCtx i0 = s.reqCtx i0 := rfl
@[simp] theorem State.updTport_respCtx (s : State) (p : Nat) (f : TimePort → TimePort) (i0 : Nat) : (s.updTport p f).respCtx i0 = s.respCtx i0 := rfl
@[simp] theorem State.updTport_seg (s : State) (p : Nat) (f : TimePort → TimePort) (i0 : Nat) : (s.updTport p f).seg i0 = s.seg i0 := rfl
@[simp] theorem State.updTport_mep (s : State) (p : Nat) (f : TimePort → TimePort) (i0 : Nat) : (s.updTport p f).mep i0 = s.mep i0 := rfl
@[simp] theorem State.updTport_collRow (s : State) (p : Nat) (f : TimePort → TimePort) (i0 : Nat) : (s.updTport p f).collRow i0 = s.collRow i0 := rfl
@[simp] theorem State.updTport_inPort (s : State) (p : Nat) (f : TimePort → TimePort) (i0 : Nat) : (s.updTport p f).inPort i0 = s.inPort i0 := rfl
@[simp] theorem State.updTport_outPort (s : State) (p : Nat) (f : TimePort → TimePort) (i0 : Nat) : (s.updTport p f).outPort i0 = s.outPort i0 := rfl
@[simp] theorem State.updTport_last (s : State) (p : Nat) (f : TimePort → TimePort) (i0 : Nat) : (s.updTport p f).last i0 = s.last i0 := rfl
@[simp] theorem State.updTport_ring (s : State) (p : Nat) (f : TimePort → TimePort) (i0 : Nat) : (s.updTport p f).ring i0 = s.ring i0 := rfl

@[simp] theorem State.updSw_lane (s : State) (f : SwUnit → SwUnit) (i0 : Nat) : (s.updSw f).lane i0 = s.lane i0 := rfl
@[simp] theorem State.updSw_link (s : State) (f : SwUnit → SwUnit) (i0 : Nat) : (s.updSw f).link i0 = s.link i0 := rfl
@[simp] theorem State.updSw_tport (s : State) (f : SwUnit → SwUnit) (i0 : Nat) : (s.updSw f).tport i0 = s.tport i0 := rfl
@[simp] theorem State.updSw_reg (s : State) (f : SwUnit → SwUnit) (ob : Obj) (rw : Nat) : (s.updSw f).reg ob rw = s.reg ob rw := rfl
@[simp] theorem State.updSw_module (s : State) (f : SwUnit → SwUnit) (i0 : Nat) : (s.updSw f).module i0 = s.module i0 := rfl
@[simp] theorem State.updSw_queue (s : State) (f : SwUnit → SwUnit) (i0 : Nat) : (s.updSw f).queue i0 = s.queue i0 := rfl
@[simp] theorem State.updSw_reqCtx (s : State) (f : SwUnit → SwUnit) (i0 : Nat) : (s.updSw f).reqCtx i0 = s.reqCtx i0 := rfl
@[simp] theorem State.updSw_respCtx (s : State) (f : SwUnit → SwUnit) (i0 : Nat) : (s.updSw f).respCtx i0 = s.respCtx i0 := rfl
@[simp] theorem State.updSw_seg (s : State) (f : SwUnit → SwUnit) (i0 : Nat) : (s.updSw f).seg i0 = s.seg i0 := rfl
@[simp] theorem State.updSw_mep (s : State) (f : SwUnit → SwUnit) (i0 : Nat) : (s.updSw f).mep i0 = s.mep i0 := rfl
@[simp] theorem State.updSw_collRow (s : State) (f : SwUnit → SwUnit) (i0 : Nat) : (s.updSw f).collRow i0 = s.collRow i0 := rfl
@[simp] theorem State.updSw_last (s : State) (f : SwUnit → SwUnit) (i0 : Nat) : (s.updSw f).last i0 = s.last i0 := rfl
@[simp] theorem State.updSw_ring (s : State) (f : SwUnit → SwUnit) (i0 : Nat) : (s.updSw f).ring i0 = s.ring i0 := rfl

@[simp] theorem State.updPkt_lane (s : State) (k : Nat) (f : SwPkt → SwPkt) (i0 : Nat) : (s.updPkt k f).lane i0 = s.lane i0 := rfl
@[simp] theorem State.updPkt_link (s : State) (k : Nat) (f : SwPkt → SwPkt) (i0 : Nat) : (s.updPkt k f).link i0 = s.link i0 := rfl
@[simp] theorem State.updPkt_tport (s : State) (k : Nat) (f : SwPkt → SwPkt) (i0 : Nat) : (s.updPkt k f).tport i0 = s.tport i0 := rfl
@[simp] theorem State.updPkt_reg (s : State) (k : Nat) (f : SwPkt → SwPkt) (ob : Obj) (rw : Nat) : (s.updPkt k f).reg ob rw = s.reg ob rw := rfl
@[simp] theorem State.updPkt_module (s : State) (k : Nat) (f : SwPkt → SwPkt) (i0 : Nat) : (s.updPkt k f).module i0 = s.module i0 := rfl
@[simp] theorem State.updPkt_queue (s : State) (k : Nat) (f : SwPkt → SwPkt) (i0 : Nat) : (s.updPkt k f).queue i0 = s.queue i0 := rfl
@[simp] theorem State.updPkt_reqCtx (s : State) (k : Nat) (f : SwPkt → SwPkt) (i0 : Nat) : (s.updPkt k f).reqCtx i0 = s.reqCtx i0 := rfl
@[simp] theorem State.updPkt_respCtx (s : State) (k : Nat) (f : SwPkt → SwPkt) (i0 : Nat) : (s.updPkt k f).respCtx i0 = s.respCtx i0 := rfl
@[simp] theorem State.updPkt_seg (s : State) (k : Nat) (f : SwPkt → SwPkt) (i0 : Nat) : (s.updPkt k f).seg i0 = s.seg i0 := rfl
@[simp] theorem State.updPkt_mep (s : State) (k : Nat) (f : SwPkt → SwPkt) (i0 : Nat) : (s.updPkt k f).mep i0 = s.mep i0 := rfl
@[simp] theorem State.updPkt_collRow (s : State) (k : Nat) (f : SwPkt → SwPkt) (i0 : Nat) : (s.updPkt k f).collRow i0 = s.collRow i0 := rfl
@[simp] theorem State.updPkt_last (s : State) (k : Nat) (f : SwPkt → SwPkt) (i0 : Nat) : (s.updPkt k f).last i0 = s.last i0 := rfl
@[simp] theorem State.updPkt_ring (s : State) (k : Nat) (f : SwPkt → SwPkt) (i0 : Nat) : (s.updPkt k f).ring i0 = s.ring i0 := rfl

@[simp] theorem State.updIn_lane (s : State) (p : Nat) (f : SwPort → SwPort) (i0 : Nat) : (s.updIn p f).lane i0 = s.lane i0 := rfl
@[simp] theorem State.updIn_link (s : State) (p : Nat) (f : SwPort → SwPort) (i0 : Nat) : (s.updIn p f).link i0 = s.link i0 := rfl
@[simp] theorem State.updIn_tport (s : State) (p : Nat) (f : SwPort → SwPort) (i0 : Nat) : (s.updIn p f).tport i0 = s.tport i0 := rfl
@[simp] theorem State.updIn_reg (s : State) (p : Nat) (f : SwPort → SwPort) (ob : Obj) (rw : Nat) : (s.updIn p f).reg ob rw = s.reg ob rw := rfl
@[simp] theorem State.updIn_module (s : State) (p : Nat) (f : SwPort → SwPort) (i0 : Nat) : (s.updIn p f).module i0 = s.module i0 := rfl
@[simp] theorem State.updIn_queue (s : State) (p : Nat) (f : SwPort → SwPort) (i0 : Nat) : (s.updIn p f).queue i0 = s.queue i0 := rfl
@[simp] theorem State.updIn_reqCtx (s : State) (p : Nat) (f : SwPort → SwPort) (i0 : Nat) : (s.updIn p f).reqCtx i0 = s.reqCtx i0 := rfl
@[simp] theorem State.updIn_respCtx (s : State) (p : Nat) (f : SwPort → SwPort) (i0 : Nat) : (s.updIn p f).respCtx i0 = s.respCtx i0 := rfl
@[simp] theorem State.updIn_seg (s : State) (p : Nat) (f : SwPort → SwPort) (i0 : Nat) : (s.updIn p f).seg i0 = s.seg i0 := rfl
@[simp] theorem State.updIn_mep (s : State) (p : Nat) (f : SwPort → SwPort) (i0 : Nat) : (s.updIn p f).mep i0 = s.mep i0 := rfl
@[simp] theorem State.updIn_collRow (s : State) (p : Nat) (f : SwPort → SwPort) (i0 : Nat) : (s.updIn p f).collRow i0 = s.collRow i0 := rfl
@[simp] theorem State.updIn_last (s : State) (p : Nat) (f : SwPort → SwPort) (i0 : Nat) : (s.updIn p f).last i0 = s.last i0 := rfl
@[simp] theorem State.updIn_ring (s : State) (p : Nat) (f : SwPort → SwPort) (i0 : Nat) : (s.updIn p f).ring i0 = s.ring i0 := rfl

@[simp] theorem State.updOut_lane (s : State) (o : Nat) (f : OutPort → OutPort) (i0 : Nat) : (s.updOut o f).lane i0 = s.lane i0 := rfl
@[simp] theorem State.updOut_link (s : State) (o : Nat) (f : OutPort → OutPort) (i0 : Nat) : (s.updOut o f).link i0 = s.link i0 := rfl
@[simp] theorem State.updOut_tport (s : State) (o : Nat) (f : OutPort → OutPort) (i0 : Nat) : (s.updOut o f).tport i0 = s.tport i0 := rfl
@[simp] theorem State.updOut_reg (s : State) (o : Nat) (f : OutPort → OutPort) (ob : Obj) (rw : Nat) : (s.updOut o f).reg ob rw = s.reg ob rw := rfl
@[simp] theorem State.updOut_module (s : State) (o : Nat) (f : OutPort → OutPort) (i0 : Nat) : (s.updOut o f).module i0 = s.module i0 := rfl
@[simp] theorem State.updOut_queue (s : State) (o : Nat) (f : OutPort → OutPort) (i0 : Nat) : (s.updOut o f).queue i0 = s.queue i0 := rfl
@[simp] theorem State.updOut_reqCtx (s : State) (o : Nat) (f : OutPort → OutPort) (i0 : Nat) : (s.updOut o f).reqCtx i0 = s.reqCtx i0 := rfl
@[simp] theorem State.updOut_respCtx (s : State) (o : Nat) (f : OutPort → OutPort) (i0 : Nat) : (s.updOut o f).respCtx i0 = s.respCtx i0 := rfl
@[simp] theorem State.updOut_seg (s : State) (o : Nat) (f : OutPort → OutPort) (i0 : Nat) : (s.updOut o f).seg i0 = s.seg i0 := rfl
@[simp] theorem State.updOut_mep (s : State) (o : Nat) (f : OutPort → OutPort) (i0 : Nat) : (s.updOut o f).mep i0 = s.mep i0 := rfl
@[simp] theorem State.updOut_collRow (s : State) (o : Nat) (f : OutPort → OutPort) (i0 : Nat) : (s.updOut o f).collRow i0 = s.collRow i0 := rfl
@[simp] theorem State.updOut_last (s : State) (o : Nat) (f : OutPort → OutPort) (i0 : Nat) : (s.updOut o f).last i0 = s.last i0 := rfl
@[simp] theorem State.updOut_ring (s : State) (o : Nat) (f : OutPort → OutPort) (i0 : Nat) : (s.updOut o f).ring i0 = s.ring i0 := rfl

@[simp] theorem State.updTime_lane (s : State) (f : TimeUnit → TimeUnit) (i0 : Nat) : (s.updTime f).lane i0 = s.lane i0 := rfl
@[simp] theorem State.updTime_link (s : State) (f : TimeUnit → TimeUnit) (i0 : Nat) : (s.updTime f).link i0 = s.link i0 := rfl
@[simp] theorem State.updTime_reg (s : State) (f : TimeUnit → TimeUnit) (ob : Obj) (rw : Nat) : (s.updTime f).reg ob rw = s.reg ob rw := rfl
@[simp] theorem State.updTime_module (s : State) (f : TimeUnit → TimeUnit) (i0 : Nat) : (s.updTime f).module i0 = s.module i0 := rfl
@[simp] theorem State.updTime_queue (s : State) (f : TimeUnit → TimeUnit) (i0 : Nat) : (s.updTime f).queue i0 = s.queue i0 := rfl
@[simp] theorem State.updTime_reqCtx (s : State) (f : TimeUnit → TimeUnit) (i0 : Nat) : (s.updTime f).reqCtx i0 = s.reqCtx i0 := rfl
@[simp] theorem State.updTime_respCtx (s : State) (f : TimeUnit → TimeUnit) (i0 : Nat) : (s.updTime f).respCtx i0 = s.respCtx i0 := rfl
@[simp] theorem State.updTime_seg (s : State) (f : TimeUnit → TimeUnit) (i0 : Nat) : (s.updTime f).seg i0 = s.seg i0 := rfl
@[simp] theorem State.updTime_mep (s : State) (f : TimeUnit → TimeUnit) (i0 : Nat) : (s.updTime f).mep i0 = s.mep i0 := rfl
@[simp] theorem State.updTime_collRow (s : State) (f : TimeUnit → TimeUnit) (i0 : Nat) : (s.updTime f).collRow i0 = s.collRow i0 := rfl
@[simp] theorem State.updTime_inPort (s : State) (f : TimeUnit → TimeUnit) (i0 : Nat) : (s.updTime f).inPort i0 = s.inPort i0 := rfl
@[simp] theorem State.updTime_outPort (s : State) (f : TimeUnit → TimeUnit) (i0 : Nat) : (s.updTime f).outPort i0 = s.outPort i0 := rfl
@[simp] theorem State.updTime_last (s : State) (f : TimeUnit → TimeUnit) (i0 : Nat) : (s.updTime f).last i0 = s.last i0 := rfl
@[simp] theorem State.updTime_ring (s : State) (f : TimeUnit → TimeUnit) (i0 : Nat) : (s.updTime f).ring i0 = s.ring i0 := rfl

@[simp] theorem State.updFault_lane (s : State) (f : FaultUnit → FaultUnit) (i0 : Nat) : (s.updFault f).lane i0 = s.lane i0 := rfl
@[simp] theorem State.updFault_link (s : State) (f : FaultUnit → FaultUnit) (i0 : Nat) : (s.updFault f).link i0 = s.link i0 := rfl
@[simp] theorem State.updFault_tport (s : State) (f : FaultUnit → FaultUnit) (i0 : Nat) : (s.updFault f).tport i0 = s.tport i0 := rfl
@[simp] theorem State.updFault_reg (s : State) (f : FaultUnit → FaultUnit) (ob : Obj) (rw : Nat) : (s.updFault f).reg ob rw = s.reg ob rw := rfl
@[simp] theorem State.updFault_module (s : State) (f : FaultUnit → FaultUnit) (i0 : Nat) : (s.updFault f).module i0 = s.module i0 := rfl
@[simp] theorem State.updFault_queue (s : State) (f : FaultUnit → FaultUnit) (i0 : Nat) : (s.updFault f).queue i0 = s.queue i0 := rfl
@[simp] theorem State.updFault_reqCtx (s : State) (f : FaultUnit → FaultUnit) (i0 : Nat) : (s.updFault f).reqCtx i0 = s.reqCtx i0 := rfl
@[simp] theorem State.updFault_respCtx (s : State) (f : FaultUnit → FaultUnit) (i0 : Nat) : (s.updFault f).respCtx i0 = s.respCtx i0 := rfl
@[simp] theorem State.updFault_seg (s : State) (f : FaultUnit → FaultUnit) (i0 : Nat) : (s.updFault f).seg i0 = s.seg i0 := rfl
@[simp] theorem State.updFault_mep (s : State) (f : FaultUnit → FaultUnit) (i0 : Nat) : (s.updFault f).mep i0 = s.mep i0 := rfl
@[simp] theorem State.updFault_collRow (s : State) (f : FaultUnit → FaultUnit) (i0 : Nat) : (s.updFault f).collRow i0 = s.collRow i0 := rfl
@[simp] theorem State.updFault_inPort (s : State) (f : FaultUnit → FaultUnit) (i0 : Nat) : (s.updFault f).inPort i0 = s.inPort i0 := rfl
@[simp] theorem State.updFault_outPort (s : State) (f : FaultUnit → FaultUnit) (i0 : Nat) : (s.updFault f).outPort i0 = s.outPort i0 := rfl
@[simp] theorem State.updFault_last (s : State) (f : FaultUnit → FaultUnit) (i0 : Nat) : (s.updFault f).last i0 = s.last i0 := rfl
@[simp] theorem State.updFault_ring (s : State) (f : FaultUnit → FaultUnit) (i0 : Nat) : (s.updFault f).ring i0 = s.ring i0 := rfl

@[simp] theorem State.updClaim_lane (s : State) (f : ClaimUnit → ClaimUnit) (i0 : Nat) : (s.updClaim f).lane i0 = s.lane i0 := rfl
@[simp] theorem State.updClaim_link (s : State) (f : ClaimUnit → ClaimUnit) (i0 : Nat) : (s.updClaim f).link i0 = s.link i0 := rfl
@[simp] theorem State.updClaim_tport (s : State) (f : ClaimUnit → ClaimUnit) (i0 : Nat) : (s.updClaim f).tport i0 = s.tport i0 := rfl
@[simp] theorem State.updClaim_reg (s : State) (f : ClaimUnit → ClaimUnit) (ob : Obj) (rw : Nat) : (s.updClaim f).reg ob rw = s.reg ob rw := rfl
@[simp] theorem State.updClaim_module (s : State) (f : ClaimUnit → ClaimUnit) (i0 : Nat) : (s.updClaim f).module i0 = s.module i0 := rfl
@[simp] theorem State.updClaim_queue (s : State) (f : ClaimUnit → ClaimUnit) (i0 : Nat) : (s.updClaim f).queue i0 = s.queue i0 := rfl
@[simp] theorem State.updClaim_reqCtx (s : State) (f : ClaimUnit → ClaimUnit) (i0 : Nat) : (s.updClaim f).reqCtx i0 = s.reqCtx i0 := rfl
@[simp] theorem State.updClaim_respCtx (s : State) (f : ClaimUnit → ClaimUnit) (i0 : Nat) : (s.updClaim f).respCtx i0 = s.respCtx i0 := rfl
@[simp] theorem State.updClaim_seg (s : State) (f : ClaimUnit → ClaimUnit) (i0 : Nat) : (s.updClaim f).seg i0 = s.seg i0 := rfl
@[simp] theorem State.updClaim_mep (s : State) (f : ClaimUnit → ClaimUnit) (i0 : Nat) : (s.updClaim f).mep i0 = s.mep i0 := rfl
@[simp] theorem State.updClaim_collRow (s : State) (f : ClaimUnit → ClaimUnit) (i0 : Nat) : (s.updClaim f).collRow i0 = s.collRow i0 := rfl
@[simp] theorem State.updClaim_inPort (s : State) (f : ClaimUnit → ClaimUnit) (i0 : Nat) : (s.updClaim f).inPort i0 = s.inPort i0 := rfl
@[simp] theorem State.updClaim_outPort (s : State) (f : ClaimUnit → ClaimUnit) (i0 : Nat) : (s.updClaim f).outPort i0 = s.outPort i0 := rfl
@[simp] theorem State.updClaim_last (s : State) (f : ClaimUnit → ClaimUnit) (i0 : Nat) : (s.updClaim f).last i0 = s.last i0 := rfl
@[simp] theorem State.updClaim_ring (s : State) (f : ClaimUnit → ClaimUnit) (i0 : Nat) : (s.updClaim f).ring i0 = s.ring i0 := rfl

@[simp] theorem State.updCtl_lane (s : State) (f : Ctl → Ctl) (i0 : Nat) : (s.updCtl f).lane i0 = s.lane i0 := rfl
@[simp] theorem State.updCtl_link (s : State) (f : Ctl → Ctl) (i0 : Nat) : (s.updCtl f).link i0 = s.link i0 := rfl
@[simp] theorem State.updCtl_tport (s : State) (f : Ctl → Ctl) (i0 : Nat) : (s.updCtl f).tport i0 = s.tport i0 := rfl
@[simp] theorem State.updCtl_reg (s : State) (f : Ctl → Ctl) (ob : Obj) (rw : Nat) : (s.updCtl f).reg ob rw = s.reg ob rw := rfl
@[simp] theorem State.updCtl_module (s : State) (f : Ctl → Ctl) (i0 : Nat) : (s.updCtl f).module i0 = s.module i0 := rfl
@[simp] theorem State.updCtl_queue (s : State) (f : Ctl → Ctl) (i0 : Nat) : (s.updCtl f).queue i0 = s.queue i0 := rfl
@[simp] theorem State.updCtl_reqCtx (s : State) (f : Ctl → Ctl) (i0 : Nat) : (s.updCtl f).reqCtx i0 = s.reqCtx i0 := rfl
@[simp] theorem State.updCtl_respCtx (s : State) (f : Ctl → Ctl) (i0 : Nat) : (s.updCtl f).respCtx i0 = s.respCtx i0 := rfl
@[simp] theorem State.updCtl_seg (s : State) (f : Ctl → Ctl) (i0 : Nat) : (s.updCtl f).seg i0 = s.seg i0 := rfl
@[simp] theorem State.updCtl_mep (s : State) (f : Ctl → Ctl) (i0 : Nat) : (s.updCtl f).mep i0 = s.mep i0 := rfl
@[simp] theorem State.updCtl_collRow (s : State) (f : Ctl → Ctl) (i0 : Nat) : (s.updCtl f).collRow i0 = s.collRow i0 := rfl
@[simp] theorem State.updCtl_inPort (s : State) (f : Ctl → Ctl) (i0 : Nat) : (s.updCtl f).inPort i0 = s.inPort i0 := rfl
@[simp] theorem State.updCtl_outPort (s : State) (f : Ctl → Ctl) (i0 : Nat) : (s.updCtl f).outPort i0 = s.outPort i0 := rfl
@[simp] theorem State.updCtl_last (s : State) (f : Ctl → Ctl) (i0 : Nat) : (s.updCtl f).last i0 = s.last i0 := rfl
@[simp] theorem State.updCtl_ring (s : State) (f : Ctl → Ctl) (i0 : Nat) : (s.updCtl f).ring i0 = s.ring i0 := rfl

@[simp] theorem State.updSem_lane (s : State) (f : SemUnit → SemUnit) (i0 : Nat) : (s.updSem f).lane i0 = s.lane i0 := rfl
@[simp] theorem State.updSem_link (s : State) (f : SemUnit → SemUnit) (i0 : Nat) : (s.updSem f).link i0 = s.link i0 := rfl
@[simp] theorem State.updSem_tport (s : State) (f : SemUnit → SemUnit) (i0 : Nat) : (s.updSem f).tport i0 = s.tport i0 := rfl
@[simp] theorem State.updSem_reg (s : State) (f : SemUnit → SemUnit) (ob : Obj) (rw : Nat) : (s.updSem f).reg ob rw = s.reg ob rw := rfl
@[simp] theorem State.updSem_module (s : State) (f : SemUnit → SemUnit) (i0 : Nat) : (s.updSem f).module i0 = s.module i0 := rfl
@[simp] theorem State.updSem_queue (s : State) (f : SemUnit → SemUnit) (i0 : Nat) : (s.updSem f).queue i0 = s.queue i0 := rfl
@[simp] theorem State.updSem_reqCtx (s : State) (f : SemUnit → SemUnit) (i0 : Nat) : (s.updSem f).reqCtx i0 = s.reqCtx i0 := rfl
@[simp] theorem State.updSem_respCtx (s : State) (f : SemUnit → SemUnit) (i0 : Nat) : (s.updSem f).respCtx i0 = s.respCtx i0 := rfl
@[simp] theorem State.updSem_seg (s : State) (f : SemUnit → SemUnit) (i0 : Nat) : (s.updSem f).seg i0 = s.seg i0 := rfl
@[simp] theorem State.updSem_mep (s : State) (f : SemUnit → SemUnit) (i0 : Nat) : (s.updSem f).mep i0 = s.mep i0 := rfl
@[simp] theorem State.updSem_collRow (s : State) (f : SemUnit → SemUnit) (i0 : Nat) : (s.updSem f).collRow i0 = s.collRow i0 := rfl
@[simp] theorem State.updSem_inPort (s : State) (f : SemUnit → SemUnit) (i0 : Nat) : (s.updSem f).inPort i0 = s.inPort i0 := rfl
@[simp] theorem State.updSem_outPort (s : State) (f : SemUnit → SemUnit) (i0 : Nat) : (s.updSem f).outPort i0 = s.outPort i0 := rfl
@[simp] theorem State.updSem_last (s : State) (f : SemUnit → SemUnit) (i0 : Nat) : (s.updSem f).last i0 = s.last i0 := rfl
@[simp] theorem State.updSem_ring (s : State) (f : SemUnit → SemUnit) (i0 : Nat) : (s.updSem f).ring i0 = s.ring i0 := rfl

@[simp] theorem State.updHost_lane (s : State) (f : HostUnit → HostUnit) (i0 : Nat) : (s.updHost f).lane i0 = s.lane i0 := rfl
@[simp] theorem State.updHost_link (s : State) (f : HostUnit → HostUnit) (i0 : Nat) : (s.updHost f).link i0 = s.link i0 := rfl
@[simp] theorem State.updHost_tport (s : State) (f : HostUnit → HostUnit) (i0 : Nat) : (s.updHost f).tport i0 = s.tport i0 := rfl
@[simp] theorem State.updHost_reg (s : State) (f : HostUnit → HostUnit) (ob : Obj) (rw : Nat) : (s.updHost f).reg ob rw = s.reg ob rw := rfl
@[simp] theorem State.updHost_queue (s : State) (f : HostUnit → HostUnit) (i0 : Nat) : (s.updHost f).queue i0 = s.queue i0 := rfl
@[simp] theorem State.updHost_reqCtx (s : State) (f : HostUnit → HostUnit) (i0 : Nat) : (s.updHost f).reqCtx i0 = s.reqCtx i0 := rfl
@[simp] theorem State.updHost_respCtx (s : State) (f : HostUnit → HostUnit) (i0 : Nat) : (s.updHost f).respCtx i0 = s.respCtx i0 := rfl
@[simp] theorem State.updHost_seg (s : State) (f : HostUnit → HostUnit) (i0 : Nat) : (s.updHost f).seg i0 = s.seg i0 := rfl
@[simp] theorem State.updHost_mep (s : State) (f : HostUnit → HostUnit) (i0 : Nat) : (s.updHost f).mep i0 = s.mep i0 := rfl
@[simp] theorem State.updHost_collRow (s : State) (f : HostUnit → HostUnit) (i0 : Nat) : (s.updHost f).collRow i0 = s.collRow i0 := rfl
@[simp] theorem State.updHost_inPort (s : State) (f : HostUnit → HostUnit) (i0 : Nat) : (s.updHost f).inPort i0 = s.inPort i0 := rfl
@[simp] theorem State.updHost_outPort (s : State) (f : HostUnit → HostUnit) (i0 : Nat) : (s.updHost f).outPort i0 = s.outPort i0 := rfl
@[simp] theorem State.updHost_last (s : State) (f : HostUnit → HostUnit) (i0 : Nat) : (s.updHost f).last i0 = s.last i0 := rfl
@[simp] theorem State.updHost_ring (s : State) (f : HostUnit → HostUnit) (i0 : Nat) : (s.updHost f).ring i0 = s.ring i0 := rfl

@[simp] theorem State.updModule_lane (s : State) (m : Nat) (f : Module → Module) (i0 : Nat) : (s.updModule m f).lane i0 = s.lane i0 := rfl
@[simp] theorem State.updModule_link (s : State) (m : Nat) (f : Module → Module) (i0 : Nat) : (s.updModule m f).link i0 = s.link i0 := rfl
@[simp] theorem State.updModule_tport (s : State) (m : Nat) (f : Module → Module) (i0 : Nat) : (s.updModule m f).tport i0 = s.tport i0 := rfl
@[simp] theorem State.updModule_reg (s : State) (m : Nat) (f : Module → Module) (ob : Obj) (rw : Nat) : (s.updModule m f).reg ob rw = s.reg ob rw := rfl
@[simp] theorem State.updModule_queue (s : State) (m : Nat) (f : Module → Module) (i0 : Nat) : (s.updModule m f).queue i0 = s.queue i0 := rfl
@[simp] theorem State.updModule_reqCtx (s : State) (m : Nat) (f : Module → Module) (i0 : Nat) : (s.updModule m f).reqCtx i0 = s.reqCtx i0 := rfl
@[simp] theorem State.updModule_respCtx (s : State) (m : Nat) (f : Module → Module) (i0 : Nat) : (s.updModule m f).respCtx i0 = s.respCtx i0 := rfl
@[simp] theorem State.updModule_seg (s : State) (m : Nat) (f : Module → Module) (i0 : Nat) : (s.updModule m f).seg i0 = s.seg i0 := rfl
@[simp] theorem State.updModule_mep (s : State) (m : Nat) (f : Module → Module) (i0 : Nat) : (s.updModule m f).mep i0 = s.mep i0 := rfl
@[simp] theorem State.updModule_collRow (s : State) (m : Nat) (f : Module → Module) (i0 : Nat) : (s.updModule m f).collRow i0 = s.collRow i0 := rfl
@[simp] theorem State.updModule_inPort (s : State) (m : Nat) (f : Module → Module) (i0 : Nat) : (s.updModule m f).inPort i0 = s.inPort i0 := rfl
@[simp] theorem State.updModule_outPort (s : State) (m : Nat) (f : Module → Module) (i0 : Nat) : (s.updModule m f).outPort i0 = s.outPort i0 := rfl
@[simp] theorem State.updModule_last (s : State) (m : Nat) (f : Module → Module) (i0 : Nat) : (s.updModule m f).last i0 = s.last i0 := rfl
@[simp] theorem State.updModule_ring (s : State) (m : Nat) (f : Module → Module) (i0 : Nat) : (s.updModule m f).ring i0 = s.ring i0 := rfl

@[simp] theorem State.updQueues_lane (s : State) (f : QueueUnit → QueueUnit) (i0 : Nat) : (s.updQueues f).lane i0 = s.lane i0 := rfl
@[simp] theorem State.updQueues_link (s : State) (f : QueueUnit → QueueUnit) (i0 : Nat) : (s.updQueues f).link i0 = s.link i0 := rfl
@[simp] theorem State.updQueues_tport (s : State) (f : QueueUnit → QueueUnit) (i0 : Nat) : (s.updQueues f).tport i0 = s.tport i0 := rfl
@[simp] theorem State.updQueues_reg (s : State) (f : QueueUnit → QueueUnit) (ob : Obj) (rw : Nat) : (s.updQueues f).reg ob rw = s.reg ob rw := rfl
@[simp] theorem State.updQueues_module (s : State) (f : QueueUnit → QueueUnit) (i0 : Nat) : (s.updQueues f).module i0 = s.module i0 := rfl
@[simp] theorem State.updQueues_reqCtx (s : State) (f : QueueUnit → QueueUnit) (i0 : Nat) : (s.updQueues f).reqCtx i0 = s.reqCtx i0 := rfl
@[simp] theorem State.updQueues_respCtx (s : State) (f : QueueUnit → QueueUnit) (i0 : Nat) : (s.updQueues f).respCtx i0 = s.respCtx i0 := rfl
@[simp] theorem State.updQueues_seg (s : State) (f : QueueUnit → QueueUnit) (i0 : Nat) : (s.updQueues f).seg i0 = s.seg i0 := rfl
@[simp] theorem State.updQueues_mep (s : State) (f : QueueUnit → QueueUnit) (i0 : Nat) : (s.updQueues f).mep i0 = s.mep i0 := rfl
@[simp] theorem State.updQueues_collRow (s : State) (f : QueueUnit → QueueUnit) (i0 : Nat) : (s.updQueues f).collRow i0 = s.collRow i0 := rfl
@[simp] theorem State.updQueues_inPort (s : State) (f : QueueUnit → QueueUnit) (i0 : Nat) : (s.updQueues f).inPort i0 = s.inPort i0 := rfl
@[simp] theorem State.updQueues_outPort (s : State) (f : QueueUnit → QueueUnit) (i0 : Nat) : (s.updQueues f).outPort i0 = s.outPort i0 := rfl
@[simp] theorem State.updQueues_last (s : State) (f : QueueUnit → QueueUnit) (i0 : Nat) : (s.updQueues f).last i0 = s.last i0 := rfl
@[simp] theorem State.updQueues_ring (s : State) (f : QueueUnit → QueueUnit) (i0 : Nat) : (s.updQueues f).ring i0 = s.ring i0 := rfl

@[simp] theorem State.updQueue_lane (s : State) (g : Nat) (f : Queue → Queue) (i0 : Nat) : (s.updQueue g f).lane i0 = s.lane i0 := rfl
@[simp] theorem State.updQueue_link (s : State) (g : Nat) (f : Queue → Queue) (i0 : Nat) : (s.updQueue g f).link i0 = s.link i0 := rfl
@[simp] theorem State.updQueue_tport (s : State) (g : Nat) (f : Queue → Queue) (i0 : Nat) : (s.updQueue g f).tport i0 = s.tport i0 := rfl
@[simp] theorem State.updQueue_reg (s : State) (g : Nat) (f : Queue → Queue) (ob : Obj) (rw : Nat) : (s.updQueue g f).reg ob rw = s.reg ob rw := rfl
@[simp] theorem State.updQueue_module (s : State) (g : Nat) (f : Queue → Queue) (i0 : Nat) : (s.updQueue g f).module i0 = s.module i0 := rfl
@[simp] theorem State.updQueue_reqCtx (s : State) (g : Nat) (f : Queue → Queue) (i0 : Nat) : (s.updQueue g f).reqCtx i0 = s.reqCtx i0 := rfl
@[simp] theorem State.updQueue_respCtx (s : State) (g : Nat) (f : Queue → Queue) (i0 : Nat) : (s.updQueue g f).respCtx i0 = s.respCtx i0 := rfl
@[simp] theorem State.updQueue_seg (s : State) (g : Nat) (f : Queue → Queue) (i0 : Nat) : (s.updQueue g f).seg i0 = s.seg i0 := rfl
@[simp] theorem State.updQueue_mep (s : State) (g : Nat) (f : Queue → Queue) (i0 : Nat) : (s.updQueue g f).mep i0 = s.mep i0 := rfl
@[simp] theorem State.updQueue_collRow (s : State) (g : Nat) (f : Queue → Queue) (i0 : Nat) : (s.updQueue g f).collRow i0 = s.collRow i0 := rfl
@[simp] theorem State.updQueue_inPort (s : State) (g : Nat) (f : Queue → Queue) (i0 : Nat) : (s.updQueue g f).inPort i0 = s.inPort i0 := rfl
@[simp] theorem State.updQueue_outPort (s : State) (g : Nat) (f : Queue → Queue) (i0 : Nat) : (s.updQueue g f).outPort i0 = s.outPort i0 := rfl
@[simp] theorem State.updQueue_last (s : State) (g : Nat) (f : Queue → Queue) (i0 : Nat) : (s.updQueue g f).last i0 = s.last i0 := rfl
@[simp] theorem State.updQueue_ring (s : State) (g : Nat) (f : Queue → Queue) (i0 : Nat) : (s.updQueue g f).ring i0 = s.ring i0 := rfl

@[simp] theorem State.updRma_lane (s : State) (f : RmaUnit → RmaUnit) (i0 : Nat) : (s.updRma f).lane i0 = s.lane i0 := rfl
@[simp] theorem State.updRma_link (s : State) (f : RmaUnit → RmaUnit) (i0 : Nat) : (s.updRma f).link i0 = s.link i0 := rfl
@[simp] theorem State.updRma_tport (s : State) (f : RmaUnit → RmaUnit) (i0 : Nat) : (s.updRma f).tport i0 = s.tport i0 := rfl
@[simp] theorem State.updRma_reg (s : State) (f : RmaUnit → RmaUnit) (ob : Obj) (rw : Nat) : (s.updRma f).reg ob rw = s.reg ob rw := rfl
@[simp] theorem State.updRma_module (s : State) (f : RmaUnit → RmaUnit) (i0 : Nat) : (s.updRma f).module i0 = s.module i0 := rfl
@[simp] theorem State.updRma_queue (s : State) (f : RmaUnit → RmaUnit) (i0 : Nat) : (s.updRma f).queue i0 = s.queue i0 := rfl
@[simp] theorem State.updRma_seg (s : State) (f : RmaUnit → RmaUnit) (i0 : Nat) : (s.updRma f).seg i0 = s.seg i0 := rfl
@[simp] theorem State.updRma_mep (s : State) (f : RmaUnit → RmaUnit) (i0 : Nat) : (s.updRma f).mep i0 = s.mep i0 := rfl
@[simp] theorem State.updRma_collRow (s : State) (f : RmaUnit → RmaUnit) (i0 : Nat) : (s.updRma f).collRow i0 = s.collRow i0 := rfl
@[simp] theorem State.updRma_inPort (s : State) (f : RmaUnit → RmaUnit) (i0 : Nat) : (s.updRma f).inPort i0 = s.inPort i0 := rfl
@[simp] theorem State.updRma_outPort (s : State) (f : RmaUnit → RmaUnit) (i0 : Nat) : (s.updRma f).outPort i0 = s.outPort i0 := rfl
@[simp] theorem State.updRma_last (s : State) (f : RmaUnit → RmaUnit) (i0 : Nat) : (s.updRma f).last i0 = s.last i0 := rfl
@[simp] theorem State.updRma_ring (s : State) (f : RmaUnit → RmaUnit) (i0 : Nat) : (s.updRma f).ring i0 = s.ring i0 := rfl

@[simp] theorem State.updReq_lane (s : State) (k : Nat) (f : ReqCtx → ReqCtx) (i0 : Nat) : (s.updReq k f).lane i0 = s.lane i0 := rfl
@[simp] theorem State.updReq_link (s : State) (k : Nat) (f : ReqCtx → ReqCtx) (i0 : Nat) : (s.updReq k f).link i0 = s.link i0 := rfl
@[simp] theorem State.updReq_tport (s : State) (k : Nat) (f : ReqCtx → ReqCtx) (i0 : Nat) : (s.updReq k f).tport i0 = s.tport i0 := rfl
@[simp] theorem State.updReq_reg (s : State) (k : Nat) (f : ReqCtx → ReqCtx) (ob : Obj) (rw : Nat) : (s.updReq k f).reg ob rw = s.reg ob rw := rfl
@[simp] theorem State.updReq_module (s : State) (k : Nat) (f : ReqCtx → ReqCtx) (i0 : Nat) : (s.updReq k f).module i0 = s.module i0 := rfl
@[simp] theorem State.updReq_queue (s : State) (k : Nat) (f : ReqCtx → ReqCtx) (i0 : Nat) : (s.updReq k f).queue i0 = s.queue i0 := rfl
@[simp] theorem State.updReq_seg (s : State) (k : Nat) (f : ReqCtx → ReqCtx) (i0 : Nat) : (s.updReq k f).seg i0 = s.seg i0 := rfl
@[simp] theorem State.updReq_mep (s : State) (k : Nat) (f : ReqCtx → ReqCtx) (i0 : Nat) : (s.updReq k f).mep i0 = s.mep i0 := rfl
@[simp] theorem State.updReq_collRow (s : State) (k : Nat) (f : ReqCtx → ReqCtx) (i0 : Nat) : (s.updReq k f).collRow i0 = s.collRow i0 := rfl
@[simp] theorem State.updReq_inPort (s : State) (k : Nat) (f : ReqCtx → ReqCtx) (i0 : Nat) : (s.updReq k f).inPort i0 = s.inPort i0 := rfl
@[simp] theorem State.updReq_outPort (s : State) (k : Nat) (f : ReqCtx → ReqCtx) (i0 : Nat) : (s.updReq k f).outPort i0 = s.outPort i0 := rfl
@[simp] theorem State.updReq_last (s : State) (k : Nat) (f : ReqCtx → ReqCtx) (i0 : Nat) : (s.updReq k f).last i0 = s.last i0 := rfl
@[simp] theorem State.updReq_ring (s : State) (k : Nat) (f : ReqCtx → ReqCtx) (i0 : Nat) : (s.updReq k f).ring i0 = s.ring i0 := rfl

@[simp] theorem State.updResp_lane (s : State) (k : Nat) (f : RespCtx → RespCtx) (i0 : Nat) : (s.updResp k f).lane i0 = s.lane i0 := rfl
@[simp] theorem State.updResp_link (s : State) (k : Nat) (f : RespCtx → RespCtx) (i0 : Nat) : (s.updResp k f).link i0 = s.link i0 := rfl
@[simp] theorem State.updResp_tport (s : State) (k : Nat) (f : RespCtx → RespCtx) (i0 : Nat) : (s.updResp k f).tport i0 = s.tport i0 := rfl
@[simp] theorem State.updResp_reg (s : State) (k : Nat) (f : RespCtx → RespCtx) (ob : Obj) (rw : Nat) : (s.updResp k f).reg ob rw = s.reg ob rw := rfl
@[simp] theorem State.updResp_module (s : State) (k : Nat) (f : RespCtx → RespCtx) (i0 : Nat) : (s.updResp k f).module i0 = s.module i0 := rfl
@[simp] theorem State.updResp_queue (s : State) (k : Nat) (f : RespCtx → RespCtx) (i0 : Nat) : (s.updResp k f).queue i0 = s.queue i0 := rfl
@[simp] theorem State.updResp_seg (s : State) (k : Nat) (f : RespCtx → RespCtx) (i0 : Nat) : (s.updResp k f).seg i0 = s.seg i0 := rfl
@[simp] theorem State.updResp_mep (s : State) (k : Nat) (f : RespCtx → RespCtx) (i0 : Nat) : (s.updResp k f).mep i0 = s.mep i0 := rfl
@[simp] theorem State.updResp_collRow (s : State) (k : Nat) (f : RespCtx → RespCtx) (i0 : Nat) : (s.updResp k f).collRow i0 = s.collRow i0 := rfl
@[simp] theorem State.updResp_inPort (s : State) (k : Nat) (f : RespCtx → RespCtx) (i0 : Nat) : (s.updResp k f).inPort i0 = s.inPort i0 := rfl
@[simp] theorem State.updResp_outPort (s : State) (k : Nat) (f : RespCtx → RespCtx) (i0 : Nat) : (s.updResp k f).outPort i0 = s.outPort i0 := rfl
@[simp] theorem State.updResp_last (s : State) (k : Nat) (f : RespCtx → RespCtx) (i0 : Nat) : (s.updResp k f).last i0 = s.last i0 := rfl
@[simp] theorem State.updResp_ring (s : State) (k : Nat) (f : RespCtx → RespCtx) (i0 : Nat) : (s.updResp k f).ring i0 = s.ring i0 := rfl

@[simp] theorem State.updMtch_lane (s : State) (f : MatchUnit → MatchUnit) (i0 : Nat) : (s.updMtch f).lane i0 = s.lane i0 := rfl
@[simp] theorem State.updMtch_link (s : State) (f : MatchUnit → MatchUnit) (i0 : Nat) : (s.updMtch f).link i0 = s.link i0 := rfl
@[simp] theorem State.updMtch_tport (s : State) (f : MatchUnit → MatchUnit) (i0 : Nat) : (s.updMtch f).tport i0 = s.tport i0 := rfl
@[simp] theorem State.updMtch_reg (s : State) (f : MatchUnit → MatchUnit) (ob : Obj) (rw : Nat) : (s.updMtch f).reg ob rw = s.reg ob rw := rfl
@[simp] theorem State.updMtch_module (s : State) (f : MatchUnit → MatchUnit) (i0 : Nat) : (s.updMtch f).module i0 = s.module i0 := rfl
@[simp] theorem State.updMtch_queue (s : State) (f : MatchUnit → MatchUnit) (i0 : Nat) : (s.updMtch f).queue i0 = s.queue i0 := rfl
@[simp] theorem State.updMtch_reqCtx (s : State) (f : MatchUnit → MatchUnit) (i0 : Nat) : (s.updMtch f).reqCtx i0 = s.reqCtx i0 := rfl
@[simp] theorem State.updMtch_respCtx (s : State) (f : MatchUnit → MatchUnit) (i0 : Nat) : (s.updMtch f).respCtx i0 = s.respCtx i0 := rfl
@[simp] theorem State.updMtch_seg (s : State) (f : MatchUnit → MatchUnit) (i0 : Nat) : (s.updMtch f).seg i0 = s.seg i0 := rfl
@[simp] theorem State.updMtch_collRow (s : State) (f : MatchUnit → MatchUnit) (i0 : Nat) : (s.updMtch f).collRow i0 = s.collRow i0 := rfl
@[simp] theorem State.updMtch_inPort (s : State) (f : MatchUnit → MatchUnit) (i0 : Nat) : (s.updMtch f).inPort i0 = s.inPort i0 := rfl
@[simp] theorem State.updMtch_outPort (s : State) (f : MatchUnit → MatchUnit) (i0 : Nat) : (s.updMtch f).outPort i0 = s.outPort i0 := rfl
@[simp] theorem State.updMtch_last (s : State) (f : MatchUnit → MatchUnit) (i0 : Nat) : (s.updMtch f).last i0 = s.last i0 := rfl
@[simp] theorem State.updMtch_ring (s : State) (f : MatchUnit → MatchUnit) (i0 : Nat) : (s.updMtch f).ring i0 = s.ring i0 := rfl

@[simp] theorem State.updMep_lane (s : State) (k : Nat) (f : MatchEp → MatchEp) (i0 : Nat) : (s.updMep k f).lane i0 = s.lane i0 := rfl
@[simp] theorem State.updMep_link (s : State) (k : Nat) (f : MatchEp → MatchEp) (i0 : Nat) : (s.updMep k f).link i0 = s.link i0 := rfl
@[simp] theorem State.updMep_tport (s : State) (k : Nat) (f : MatchEp → MatchEp) (i0 : Nat) : (s.updMep k f).tport i0 = s.tport i0 := rfl
@[simp] theorem State.updMep_reg (s : State) (k : Nat) (f : MatchEp → MatchEp) (ob : Obj) (rw : Nat) : (s.updMep k f).reg ob rw = s.reg ob rw := rfl
@[simp] theorem State.updMep_module (s : State) (k : Nat) (f : MatchEp → MatchEp) (i0 : Nat) : (s.updMep k f).module i0 = s.module i0 := rfl
@[simp] theorem State.updMep_queue (s : State) (k : Nat) (f : MatchEp → MatchEp) (i0 : Nat) : (s.updMep k f).queue i0 = s.queue i0 := rfl
@[simp] theorem State.updMep_reqCtx (s : State) (k : Nat) (f : MatchEp → MatchEp) (i0 : Nat) : (s.updMep k f).reqCtx i0 = s.reqCtx i0 := rfl
@[simp] theorem State.updMep_respCtx (s : State) (k : Nat) (f : MatchEp → MatchEp) (i0 : Nat) : (s.updMep k f).respCtx i0 = s.respCtx i0 := rfl
@[simp] theorem State.updMep_seg (s : State) (k : Nat) (f : MatchEp → MatchEp) (i0 : Nat) : (s.updMep k f).seg i0 = s.seg i0 := rfl
@[simp] theorem State.updMep_collRow (s : State) (k : Nat) (f : MatchEp → MatchEp) (i0 : Nat) : (s.updMep k f).collRow i0 = s.collRow i0 := rfl
@[simp] theorem State.updMep_inPort (s : State) (k : Nat) (f : MatchEp → MatchEp) (i0 : Nat) : (s.updMep k f).inPort i0 = s.inPort i0 := rfl
@[simp] theorem State.updMep_outPort (s : State) (k : Nat) (f : MatchEp → MatchEp) (i0 : Nat) : (s.updMep k f).outPort i0 = s.outPort i0 := rfl
@[simp] theorem State.updMep_last (s : State) (k : Nat) (f : MatchEp → MatchEp) (i0 : Nat) : (s.updMep k f).last i0 = s.last i0 := rfl
@[simp] theorem State.updMep_ring (s : State) (k : Nat) (f : MatchEp → MatchEp) (i0 : Nat) : (s.updMep k f).ring i0 = s.ring i0 := rfl

@[simp] theorem State.updTrans_lane (s : State) (f : TransUnit → TransUnit) (i0 : Nat) : (s.updTrans f).lane i0 = s.lane i0 := rfl
@[simp] theorem State.updTrans_link (s : State) (f : TransUnit → TransUnit) (i0 : Nat) : (s.updTrans f).link i0 = s.link i0 := rfl
@[simp] theorem State.updTrans_tport (s : State) (f : TransUnit → TransUnit) (i0 : Nat) : (s.updTrans f).tport i0 = s.tport i0 := rfl
@[simp] theorem State.updTrans_reg (s : State) (f : TransUnit → TransUnit) (ob : Obj) (rw : Nat) : (s.updTrans f).reg ob rw = s.reg ob rw := rfl
@[simp] theorem State.updTrans_module (s : State) (f : TransUnit → TransUnit) (i0 : Nat) : (s.updTrans f).module i0 = s.module i0 := rfl
@[simp] theorem State.updTrans_queue (s : State) (f : TransUnit → TransUnit) (i0 : Nat) : (s.updTrans f).queue i0 = s.queue i0 := rfl
@[simp] theorem State.updTrans_reqCtx (s : State) (f : TransUnit → TransUnit) (i0 : Nat) : (s.updTrans f).reqCtx i0 = s.reqCtx i0 := rfl
@[simp] theorem State.updTrans_respCtx (s : State) (f : TransUnit → TransUnit) (i0 : Nat) : (s.updTrans f).respCtx i0 = s.respCtx i0 := rfl
@[simp] theorem State.updTrans_mep (s : State) (f : TransUnit → TransUnit) (i0 : Nat) : (s.updTrans f).mep i0 = s.mep i0 := rfl
@[simp] theorem State.updTrans_collRow (s : State) (f : TransUnit → TransUnit) (i0 : Nat) : (s.updTrans f).collRow i0 = s.collRow i0 := rfl
@[simp] theorem State.updTrans_inPort (s : State) (f : TransUnit → TransUnit) (i0 : Nat) : (s.updTrans f).inPort i0 = s.inPort i0 := rfl
@[simp] theorem State.updTrans_outPort (s : State) (f : TransUnit → TransUnit) (i0 : Nat) : (s.updTrans f).outPort i0 = s.outPort i0 := rfl
@[simp] theorem State.updTrans_last (s : State) (f : TransUnit → TransUnit) (i0 : Nat) : (s.updTrans f).last i0 = s.last i0 := rfl
@[simp] theorem State.updTrans_ring (s : State) (f : TransUnit → TransUnit) (i0 : Nat) : (s.updTrans f).ring i0 = s.ring i0 := rfl

@[simp] theorem State.updSeg_lane (s : State) (k : Nat) (f : Seg → Seg) (i0 : Nat) : (s.updSeg k f).lane i0 = s.lane i0 := rfl
@[simp] theorem State.updSeg_link (s : State) (k : Nat) (f : Seg → Seg) (i0 : Nat) : (s.updSeg k f).link i0 = s.link i0 := rfl
@[simp] theorem State.updSeg_tport (s : State) (k : Nat) (f : Seg → Seg) (i0 : Nat) : (s.updSeg k f).tport i0 = s.tport i0 := rfl
@[simp] theorem State.updSeg_reg (s : State) (k : Nat) (f : Seg → Seg) (ob : Obj) (rw : Nat) : (s.updSeg k f).reg ob rw = s.reg ob rw := rfl
@[simp] theorem State.updSeg_module (s : State) (k : Nat) (f : Seg → Seg) (i0 : Nat) : (s.updSeg k f).module i0 = s.module i0 := rfl
@[simp] theorem State.updSeg_queue (s : State) (k : Nat) (f : Seg → Seg) (i0 : Nat) : (s.updSeg k f).queue i0 = s.queue i0 := rfl
@[simp] theorem State.updSeg_reqCtx (s : State) (k : Nat) (f : Seg → Seg) (i0 : Nat) : (s.updSeg k f).reqCtx i0 = s.reqCtx i0 := rfl
@[simp] theorem State.updSeg_respCtx (s : State) (k : Nat) (f : Seg → Seg) (i0 : Nat) : (s.updSeg k f).respCtx i0 = s.respCtx i0 := rfl
@[simp] theorem State.updSeg_mep (s : State) (k : Nat) (f : Seg → Seg) (i0 : Nat) : (s.updSeg k f).mep i0 = s.mep i0 := rfl
@[simp] theorem State.updSeg_collRow (s : State) (k : Nat) (f : Seg → Seg) (i0 : Nat) : (s.updSeg k f).collRow i0 = s.collRow i0 := rfl
@[simp] theorem State.updSeg_inPort (s : State) (k : Nat) (f : Seg → Seg) (i0 : Nat) : (s.updSeg k f).inPort i0 = s.inPort i0 := rfl
@[simp] theorem State.updSeg_outPort (s : State) (k : Nat) (f : Seg → Seg) (i0 : Nat) : (s.updSeg k f).outPort i0 = s.outPort i0 := rfl
@[simp] theorem State.updSeg_last (s : State) (k : Nat) (f : Seg → Seg) (i0 : Nat) : (s.updSeg k f).last i0 = s.last i0 := rfl
@[simp] theorem State.updSeg_ring (s : State) (k : Nat) (f : Seg → Seg) (i0 : Nat) : (s.updSeg k f).ring i0 = s.ring i0 := rfl

@[simp] theorem State.updColl_lane (s : State) (f : CollUnit → CollUnit) (i0 : Nat) : (s.updColl f).lane i0 = s.lane i0 := rfl
@[simp] theorem State.updColl_link (s : State) (f : CollUnit → CollUnit) (i0 : Nat) : (s.updColl f).link i0 = s.link i0 := rfl
@[simp] theorem State.updColl_tport (s : State) (f : CollUnit → CollUnit) (i0 : Nat) : (s.updColl f).tport i0 = s.tport i0 := rfl
@[simp] theorem State.updColl_reg (s : State) (f : CollUnit → CollUnit) (ob : Obj) (rw : Nat) : (s.updColl f).reg ob rw = s.reg ob rw := rfl
@[simp] theorem State.updColl_module (s : State) (f : CollUnit → CollUnit) (i0 : Nat) : (s.updColl f).module i0 = s.module i0 := rfl
@[simp] theorem State.updColl_queue (s : State) (f : CollUnit → CollUnit) (i0 : Nat) : (s.updColl f).queue i0 = s.queue i0 := rfl
@[simp] theorem State.updColl_reqCtx (s : State) (f : CollUnit → CollUnit) (i0 : Nat) : (s.updColl f).reqCtx i0 = s.reqCtx i0 := rfl
@[simp] theorem State.updColl_respCtx (s : State) (f : CollUnit → CollUnit) (i0 : Nat) : (s.updColl f).respCtx i0 = s.respCtx i0 := rfl
@[simp] theorem State.updColl_seg (s : State) (f : CollUnit → CollUnit) (i0 : Nat) : (s.updColl f).seg i0 = s.seg i0 := rfl
@[simp] theorem State.updColl_mep (s : State) (f : CollUnit → CollUnit) (i0 : Nat) : (s.updColl f).mep i0 = s.mep i0 := rfl
@[simp] theorem State.updColl_inPort (s : State) (f : CollUnit → CollUnit) (i0 : Nat) : (s.updColl f).inPort i0 = s.inPort i0 := rfl
@[simp] theorem State.updColl_outPort (s : State) (f : CollUnit → CollUnit) (i0 : Nat) : (s.updColl f).outPort i0 = s.outPort i0 := rfl
@[simp] theorem State.updColl_last (s : State) (f : CollUnit → CollUnit) (i0 : Nat) : (s.updColl f).last i0 = s.last i0 := rfl
@[simp] theorem State.updColl_ring (s : State) (f : CollUnit → CollUnit) (i0 : Nat) : (s.updColl f).ring i0 = s.ring i0 := rfl

@[simp] theorem State.updLasts_lane (s : State) (f : LastUnit → LastUnit) (i0 : Nat) : (s.updLasts f).lane i0 = s.lane i0 := rfl
@[simp] theorem State.updLasts_link (s : State) (f : LastUnit → LastUnit) (i0 : Nat) : (s.updLasts f).link i0 = s.link i0 := rfl
@[simp] theorem State.updLasts_tport (s : State) (f : LastUnit → LastUnit) (i0 : Nat) : (s.updLasts f).tport i0 = s.tport i0 := rfl
@[simp] theorem State.updLasts_reg (s : State) (f : LastUnit → LastUnit) (ob : Obj) (rw : Nat) : (s.updLasts f).reg ob rw = s.reg ob rw := rfl
@[simp] theorem State.updLasts_module (s : State) (f : LastUnit → LastUnit) (i0 : Nat) : (s.updLasts f).module i0 = s.module i0 := rfl
@[simp] theorem State.updLasts_queue (s : State) (f : LastUnit → LastUnit) (i0 : Nat) : (s.updLasts f).queue i0 = s.queue i0 := rfl
@[simp] theorem State.updLasts_reqCtx (s : State) (f : LastUnit → LastUnit) (i0 : Nat) : (s.updLasts f).reqCtx i0 = s.reqCtx i0 := rfl
@[simp] theorem State.updLasts_respCtx (s : State) (f : LastUnit → LastUnit) (i0 : Nat) : (s.updLasts f).respCtx i0 = s.respCtx i0 := rfl
@[simp] theorem State.updLasts_seg (s : State) (f : LastUnit → LastUnit) (i0 : Nat) : (s.updLasts f).seg i0 = s.seg i0 := rfl
@[simp] theorem State.updLasts_mep (s : State) (f : LastUnit → LastUnit) (i0 : Nat) : (s.updLasts f).mep i0 = s.mep i0 := rfl
@[simp] theorem State.updLasts_collRow (s : State) (f : LastUnit → LastUnit) (i0 : Nat) : (s.updLasts f).collRow i0 = s.collRow i0 := rfl
@[simp] theorem State.updLasts_inPort (s : State) (f : LastUnit → LastUnit) (i0 : Nat) : (s.updLasts f).inPort i0 = s.inPort i0 := rfl
@[simp] theorem State.updLasts_outPort (s : State) (f : LastUnit → LastUnit) (i0 : Nat) : (s.updLasts f).outPort i0 = s.outPort i0 := rfl

@[simp] theorem State.updLast_lane (s : State) (k : Nat) (f : LastEntry → LastEntry) (i0 : Nat) : (s.updLast k f).lane i0 = s.lane i0 := rfl
@[simp] theorem State.updLast_link (s : State) (k : Nat) (f : LastEntry → LastEntry) (i0 : Nat) : (s.updLast k f).link i0 = s.link i0 := rfl
@[simp] theorem State.updLast_tport (s : State) (k : Nat) (f : LastEntry → LastEntry) (i0 : Nat) : (s.updLast k f).tport i0 = s.tport i0 := rfl
@[simp] theorem State.updLast_reg (s : State) (k : Nat) (f : LastEntry → LastEntry) (ob : Obj) (rw : Nat) : (s.updLast k f).reg ob rw = s.reg ob rw := rfl
@[simp] theorem State.updLast_module (s : State) (k : Nat) (f : LastEntry → LastEntry) (i0 : Nat) : (s.updLast k f).module i0 = s.module i0 := rfl
@[simp] theorem State.updLast_queue (s : State) (k : Nat) (f : LastEntry → LastEntry) (i0 : Nat) : (s.updLast k f).queue i0 = s.queue i0 := rfl
@[simp] theorem State.updLast_reqCtx (s : State) (k : Nat) (f : LastEntry → LastEntry) (i0 : Nat) : (s.updLast k f).reqCtx i0 = s.reqCtx i0 := rfl
@[simp] theorem State.updLast_respCtx (s : State) (k : Nat) (f : LastEntry → LastEntry) (i0 : Nat) : (s.updLast k f).respCtx i0 = s.respCtx i0 := rfl
@[simp] theorem State.updLast_seg (s : State) (k : Nat) (f : LastEntry → LastEntry) (i0 : Nat) : (s.updLast k f).seg i0 = s.seg i0 := rfl
@[simp] theorem State.updLast_mep (s : State) (k : Nat) (f : LastEntry → LastEntry) (i0 : Nat) : (s.updLast k f).mep i0 = s.mep i0 := rfl
@[simp] theorem State.updLast_collRow (s : State) (k : Nat) (f : LastEntry → LastEntry) (i0 : Nat) : (s.updLast k f).collRow i0 = s.collRow i0 := rfl
@[simp] theorem State.updLast_inPort (s : State) (k : Nat) (f : LastEntry → LastEntry) (i0 : Nat) : (s.updLast k f).inPort i0 = s.inPort i0 := rfl
@[simp] theorem State.updLast_outPort (s : State) (k : Nat) (f : LastEntry → LastEntry) (i0 : Nat) : (s.updLast k f).outPort i0 = s.outPort i0 := rfl

@[simp] theorem State.updRing_lane (s : State) (r : Nat) (f : LastRing → LastRing) (i0 : Nat) : (s.updRing r f).lane i0 = s.lane i0 := rfl
@[simp] theorem State.updRing_link (s : State) (r : Nat) (f : LastRing → LastRing) (i0 : Nat) : (s.updRing r f).link i0 = s.link i0 := rfl
@[simp] theorem State.updRing_tport (s : State) (r : Nat) (f : LastRing → LastRing) (i0 : Nat) : (s.updRing r f).tport i0 = s.tport i0 := rfl
@[simp] theorem State.updRing_reg (s : State) (r : Nat) (f : LastRing → LastRing) (ob : Obj) (rw : Nat) : (s.updRing r f).reg ob rw = s.reg ob rw := rfl
@[simp] theorem State.updRing_module (s : State) (r : Nat) (f : LastRing → LastRing) (i0 : Nat) : (s.updRing r f).module i0 = s.module i0 := rfl
@[simp] theorem State.updRing_queue (s : State) (r : Nat) (f : LastRing → LastRing) (i0 : Nat) : (s.updRing r f).queue i0 = s.queue i0 := rfl
@[simp] theorem State.updRing_reqCtx (s : State) (r : Nat) (f : LastRing → LastRing) (i0 : Nat) : (s.updRing r f).reqCtx i0 = s.reqCtx i0 := rfl
@[simp] theorem State.updRing_respCtx (s : State) (r : Nat) (f : LastRing → LastRing) (i0 : Nat) : (s.updRing r f).respCtx i0 = s.respCtx i0 := rfl
@[simp] theorem State.updRing_seg (s : State) (r : Nat) (f : LastRing → LastRing) (i0 : Nat) : (s.updRing r f).seg i0 = s.seg i0 := rfl
@[simp] theorem State.updRing_mep (s : State) (r : Nat) (f : LastRing → LastRing) (i0 : Nat) : (s.updRing r f).mep i0 = s.mep i0 := rfl
@[simp] theorem State.updRing_collRow (s : State) (r : Nat) (f : LastRing → LastRing) (i0 : Nat) : (s.updRing r f).collRow i0 = s.collRow i0 := rfl
@[simp] theorem State.updRing_inPort (s : State) (r : Nat) (f : LastRing → LastRing) (i0 : Nat) : (s.updRing r f).inPort i0 = s.inPort i0 := rfl
@[simp] theorem State.updRing_outPort (s : State) (r : Nat) (f : LastRing → LastRing) (i0 : Nat) : (s.updRing r f).outPort i0 = s.outPort i0 := rfl

@[simp] theorem State.updPwr_lane (s : State) (f : PwrUnit → PwrUnit) (i0 : Nat) : (s.updPwr f).lane i0 = s.lane i0 := rfl
@[simp] theorem State.updPwr_link (s : State) (f : PwrUnit → PwrUnit) (i0 : Nat) : (s.updPwr f).link i0 = s.link i0 := rfl
@[simp] theorem State.updPwr_tport (s : State) (f : PwrUnit → PwrUnit) (i0 : Nat) : (s.updPwr f).tport i0 = s.tport i0 := rfl
@[simp] theorem State.updPwr_reg (s : State) (f : PwrUnit → PwrUnit) (ob : Obj) (rw : Nat) : (s.updPwr f).reg ob rw = s.reg ob rw := rfl
@[simp] theorem State.updPwr_module (s : State) (f : PwrUnit → PwrUnit) (i0 : Nat) : (s.updPwr f).module i0 = s.module i0 := rfl
@[simp] theorem State.updPwr_queue (s : State) (f : PwrUnit → PwrUnit) (i0 : Nat) : (s.updPwr f).queue i0 = s.queue i0 := rfl
@[simp] theorem State.updPwr_reqCtx (s : State) (f : PwrUnit → PwrUnit) (i0 : Nat) : (s.updPwr f).reqCtx i0 = s.reqCtx i0 := rfl
@[simp] theorem State.updPwr_respCtx (s : State) (f : PwrUnit → PwrUnit) (i0 : Nat) : (s.updPwr f).respCtx i0 = s.respCtx i0 := rfl
@[simp] theorem State.updPwr_seg (s : State) (f : PwrUnit → PwrUnit) (i0 : Nat) : (s.updPwr f).seg i0 = s.seg i0 := rfl
@[simp] theorem State.updPwr_mep (s : State) (f : PwrUnit → PwrUnit) (i0 : Nat) : (s.updPwr f).mep i0 = s.mep i0 := rfl
@[simp] theorem State.updPwr_collRow (s : State) (f : PwrUnit → PwrUnit) (i0 : Nat) : (s.updPwr f).collRow i0 = s.collRow i0 := rfl
@[simp] theorem State.updPwr_inPort (s : State) (f : PwrUnit → PwrUnit) (i0 : Nat) : (s.updPwr f).inPort i0 = s.inPort i0 := rfl
@[simp] theorem State.updPwr_outPort (s : State) (f : PwrUnit → PwrUnit) (i0 : Nat) : (s.updPwr f).outPort i0 = s.outPort i0 := rfl
@[simp] theorem State.updPwr_last (s : State) (f : PwrUnit → PwrUnit) (i0 : Nat) : (s.updPwr f).last i0 = s.last i0 := rfl
@[simp] theorem State.updPwr_ring (s : State) (f : PwrUnit → PwrUnit) (i0 : Nat) : (s.updPwr f).ring i0 = s.ring i0 := rfl

@[simp] theorem State.updSec_lane (s : State) (f : SecUnit → SecUnit) (i0 : Nat) : (s.updSec f).lane i0 = s.lane i0 := rfl
@[simp] theorem State.updSec_link (s : State) (f : SecUnit → SecUnit) (i0 : Nat) : (s.updSec f).link i0 = s.link i0 := rfl
@[simp] theorem State.updSec_tport (s : State) (f : SecUnit → SecUnit) (i0 : Nat) : (s.updSec f).tport i0 = s.tport i0 := rfl
@[simp] theorem State.updSec_reg (s : State) (f : SecUnit → SecUnit) (ob : Obj) (rw : Nat) : (s.updSec f).reg ob rw = s.reg ob rw := rfl
@[simp] theorem State.updSec_module (s : State) (f : SecUnit → SecUnit) (i0 : Nat) : (s.updSec f).module i0 = s.module i0 := rfl
@[simp] theorem State.updSec_queue (s : State) (f : SecUnit → SecUnit) (i0 : Nat) : (s.updSec f).queue i0 = s.queue i0 := rfl
@[simp] theorem State.updSec_reqCtx (s : State) (f : SecUnit → SecUnit) (i0 : Nat) : (s.updSec f).reqCtx i0 = s.reqCtx i0 := rfl
@[simp] theorem State.updSec_respCtx (s : State) (f : SecUnit → SecUnit) (i0 : Nat) : (s.updSec f).respCtx i0 = s.respCtx i0 := rfl
@[simp] theorem State.updSec_seg (s : State) (f : SecUnit → SecUnit) (i0 : Nat) : (s.updSec f).seg i0 = s.seg i0 := rfl
@[simp] theorem State.updSec_mep (s : State) (f : SecUnit → SecUnit) (i0 : Nat) : (s.updSec f).mep i0 = s.mep i0 := rfl
@[simp] theorem State.updSec_collRow (s : State) (f : SecUnit → SecUnit) (i0 : Nat) : (s.updSec f).collRow i0 = s.collRow i0 := rfl
@[simp] theorem State.updSec_inPort (s : State) (f : SecUnit → SecUnit) (i0 : Nat) : (s.updSec f).inPort i0 = s.inPort i0 := rfl
@[simp] theorem State.updSec_outPort (s : State) (f : SecUnit → SecUnit) (i0 : Nat) : (s.updSec f).outPort i0 = s.outPort i0 := rfl
@[simp] theorem State.updSec_last (s : State) (f : SecUnit → SecUnit) (i0 : Nat) : (s.updSec f).last i0 = s.last i0 := rfl
@[simp] theorem State.updSec_ring (s : State) (f : SecUnit → SecUnit) (i0 : Nat) : (s.updSec f).ring i0 = s.ring i0 := rfl

@[simp] theorem State.withPending_lane (s : State) (q : List Instr) (i0 : Nat) : (s.withPending q).lane i0 = s.lane i0 := rfl
@[simp] theorem State.withPending_link (s : State) (q : List Instr) (i0 : Nat) : (s.withPending q).link i0 = s.link i0 := rfl
@[simp] theorem State.withPending_tport (s : State) (q : List Instr) (i0 : Nat) : (s.withPending q).tport i0 = s.tport i0 := rfl
@[simp] theorem State.withPending_reg (s : State) (q : List Instr) (ob : Obj) (rw : Nat) : (s.withPending q).reg ob rw = s.reg ob rw := rfl
@[simp] theorem State.withPending_module (s : State) (q : List Instr) (i0 : Nat) : (s.withPending q).module i0 = s.module i0 := rfl
@[simp] theorem State.withPending_queue (s : State) (q : List Instr) (i0 : Nat) : (s.withPending q).queue i0 = s.queue i0 := rfl
@[simp] theorem State.withPending_reqCtx (s : State) (q : List Instr) (i0 : Nat) : (s.withPending q).reqCtx i0 = s.reqCtx i0 := rfl
@[simp] theorem State.withPending_respCtx (s : State) (q : List Instr) (i0 : Nat) : (s.withPending q).respCtx i0 = s.respCtx i0 := rfl
@[simp] theorem State.withPending_seg (s : State) (q : List Instr) (i0 : Nat) : (s.withPending q).seg i0 = s.seg i0 := rfl
@[simp] theorem State.withPending_mep (s : State) (q : List Instr) (i0 : Nat) : (s.withPending q).mep i0 = s.mep i0 := rfl
@[simp] theorem State.withPending_collRow (s : State) (q : List Instr) (i0 : Nat) : (s.withPending q).collRow i0 = s.collRow i0 := rfl
@[simp] theorem State.withPending_inPort (s : State) (q : List Instr) (i0 : Nat) : (s.withPending q).inPort i0 = s.inPort i0 := rfl
@[simp] theorem State.withPending_outPort (s : State) (q : List Instr) (i0 : Nat) : (s.withPending q).outPort i0 = s.outPort i0 := rfl
@[simp] theorem State.withPending_last (s : State) (q : List Instr) (i0 : Nat) : (s.withPending q).last i0 = s.last i0 := rfl
@[simp] theorem State.withPending_ring (s : State) (q : List Instr) (i0 : Nat) : (s.withPending q).ring i0 = s.ring i0 := rfl

/-! ### Read after write, by part -/

@[simp] theorem lane_updLane_self (s : State) (p : Nat) (f : LanePort → LanePort) : (s.updLane p f).lane p = f (s.lane p) := by
  simp [State.lane]

theorem lane_updLane (s : State) (p q : Nat) (f : LanePort → LanePort) :
    (s.updLane p f).lane q = if q = p then f (s.lane p) else s.lane q := by
  simp [State.lane, tget_tupd]

@[simp] theorem link_updLink_self (s : State) (p : Nat) (f : LinkPort → LinkPort) : (s.updLink p f).link p = f (s.link p) := by
  simp [State.link]

theorem link_updLink (s : State) (p q : Nat) (f : LinkPort → LinkPort) :
    (s.updLink p f).link q = if q = p then f (s.link p) else s.link q := by
  simp [State.link, tget_tupd]

theorem queue_updQueue (s : State) (g q : Nat) (f : Queue → Queue) :
    (s.updQueue g f).queue q = if q = g then f (s.queue g) else s.queue q := by
  simp [State.queue, tget_tupd]

theorem last_updLast (s : State) (k q : Nat) (f : LastEntry → LastEntry) :
    (s.updLast k f).last q = if q = k then f (s.last k) else s.last q := by
  simp [State.last, tget_tupd]

theorem module_updModule (s : State) (m q : Nat) (f : Module → Module) :
    (s.updModule m f).module q = if q = m then f (s.module m) else s.module q := by
  simp [State.module, tget_tupd]

/-- A row of an object after a row of an object was written: the value at that key, and what was there at every other. -/
theorem reg_setReg (s : State) (o : Obj) (row v : Nat) : (s.setReg o row v).reg o row = v := by
  simp [State.reg, regIn, regSet]

theorem reg_setReg_ne (s : State) (o o' : Obj) (row row' v : Nat) (h : regKey o' row' ≠ regKey o row) :
    (s.setReg o row v).reg o' row' = s.reg o' row' := by
  simp [State.reg, regIn, regSet, tget_tset_other _ _ _ _ h]

end Sys2Proof.Machine
end

