-- ==== Sys2Proof/Laws/Ops.lean ====
section
/-!
SUPPORT. What the shared operations of the watching units can do: counting, firing a source, setting an event bit, raising a fault.
-/
namespace Sys2Proof.Machine

/-- What every element's change keeps, the whole list's keeps. -/
theorem forEach_keeps {α : Type} (P : State → Prop) (l : List α) (f : State → α → State) (s : State) (h0 : P s)
    (hs : ∀ t, P t → ∀ a ∈ l, P (f t a)) : P (forEach s l f) := by
  unfold forEach
  induction l generalizing s with
  | nil => exact h0
  | cons a l ih =>
    exact ih _ (hs _ h0 a (by simp)) (fun t ht b hb => hs t ht b (by simp [hb]))

/-! ### The fault unit -/

@[simp] theorem Mon.fireQuiet_fault (m : Mon) (n : Nat) : (m.fireQuiet n).fault = m.fault := by
  unfold Mon.fireQuiet; split <;> rfl

@[simp] theorem Mon.counterIrq_fault (m : Mon) (regs : Tbl Nat) : (m.counterIrq regs).fault = m.fault := by
  unfold Mon.counterIrq
  split
  · rfl
  · dsimp only; split <;> simp

@[simp] theorem Mon.count_fault (m : Mon) (regs : Tbl Nat) (ev inst n : Nat) : (m.count regs ev inst n).fault = m.fault := by
  unfold Mon.count; dsimp only; split <;> simp

@[simp] theorem Mon.fire_fault (m : Mon) (regs : Tbl Nat) (n : Nat) : (m.fire regs n).fault = m.fault := by
  unfold Mon.fire
  split
  · rfl
  · dsimp only; split <;> simp

@[simp] theorem Mon.event_fault (m : Mon) (regs : Tbl Nat) (ev : Obj) (row bit : Nat) :
    (m.event regs ev row bit).fault = m.fault := by
  unfold Mon.event
  split
  · rfl
  · dsimp only; split <;> simp

/-- A raise with room in the logging unit's queue enters it last, and changes nothing else of the fault unit. -/
theorem Mon.enqueue_fault (m : Mon) (regs : Tbl Nat) (r : Raise) (h : m.fault.queue.length < 256) :
    (m.enqueue regs r).fault = { m.fault with queue := m.fault.queue ++ [r] } := by
  unfold Mon.enqueue
  rw [if_pos (by omega)]

/-- A fault without a rate limit, raised with room in the queue. -/
theorem Mon.raise_fault (m : Mon) (regs : Tbl Nat) (count code scope inst detail : Nat)
    (hl : limitPeriod code count = 0) (h : m.fault.queue.length < 256) :
    (m.raise regs count code scope inst detail).fault =
      { m.fault with queue := m.fault.queue ++
          [{ code := code, cls := faultClass code, scope := scope, inst := inst, detail := detail, stitch := count }] } := by
  simp only [Mon.raise, Mon.raiseAs, hl, ne_eq, not_true_eq_false, false_and, if_false, if_true]
  split <;> simp [Mon.enqueue_fault m regs _ h]

/-- A fault with a rate limit, raised with room in the queue in a period in which it has not been raised. -/
theorem Mon.raise_limited_queue (m : Mon) (regs : Tbl Nat) (count code scope inst detail : Nat)
    (hl : tget 0 m.fault.stamps (limitKey code scope inst) ≠ limitPeriod code count) (h : m.fault.queue.length < 256) :
    (m.raise regs count code scope inst detail).fault.queue = m.fault.queue ++
      [{ code := code, cls := faultClass code, scope := scope, inst := inst, detail := detail, stitch := count }] := by
  have e : ∀ f : FaultUnit, f.queue = m.fault.queue → ∀ r, (({ m with fault := f } : Mon).enqueue regs r).fault.queue =
      m.fault.queue ++ [r] := by
    intro f hf r
    rw [Mon.enqueue_fault _ regs r (by simpa [hf] using h)]
    simp [hf]
  simp only [Mon.raise, Mon.raiseAs, hl, and_false, if_false]
  split
  · rw [Mon.fire_fault]; apply e; split <;> rfl
  · apply e; split <;> rfl

/-- A raise that is let through is the newest in the logging unit's queue. -/
theorem State.raise_logged {s : State} {code scope inst : Nat} (detail : Nat) (h : Loggable s code scope inst) :
    Logged s (s.raise code scope inst detail) code scope inst detail := by
  obtain ⟨h1, h2 | h2⟩ := h
  · simp [Logged, State.raise, Mon.raise_fault _ _ _ _ _ _ _ h2 h1, ownRaise]
  · simp [Logged, State.raise, Mon.raise_limited_queue _ _ _ _ _ _ _ h2 h1, ownRaise]

/-- A raise changes of the fault unit no more than the queue, the rate limits and the losses. -/
theorem Mon.raiseAs_fault_rest (m : Mon) (regs : Tbl Nat) (count : Nat) (r : Raise) :
    (m.raiseAs regs count r).fault =
      { m.fault with
        queue := (m.raiseAs regs count r).fault.queue, stamps := (m.raiseAs regs count r).fault.stamps
        suppressed := (m.raiseAs regs count r).fault.suppressed, lostRaises := (m.raiseAs regs count r).fault.lostRaises } := by
  have e : ∀ f : FaultUnit, (({ m with fault := f } : Mon).enqueue regs r).fault =
      { f with
        queue := (({ m with fault := f } : Mon).enqueue regs r).fault.queue
        lostRaises := (({ m with fault := f } : Mon).enqueue regs r).fault.lostRaises } := by
    intro f
    unfold Mon.enqueue
    split <;> simp
  unfold Mon.raiseAs
  dsimp only
  split
  · simp
  · split
    all_goals split
    all_goals (try simp only [Mon.fire_fault]); rw [e]

@[simp] theorem State.raise_isolated (s : State) (code scope inst detail : Nat) :
    (s.raise code scope inst detail).mon.fault.isolated = s.mon.fault.isolated := by
  unfold State.raise Mon.raise
  dsimp only
  rw [Mon.raiseAs_fault_rest]

/-- A fault raised after steps that raised none. -/
theorem State.raise_logged_after {s u : State} {code scope inst d : Nat} (hf : u.mon.fault = s.mon.fault) (hc : u.time.count = s.time.count)
    (hl : Loggable s code scope inst) : Logged s (u.raise code scope inst d) code scope inst d := by
  have := State.raise_logged (s := u) d (code := code) (scope := scope) (inst := inst) (by simpa [Loggable, hf, hc] using hl)
  simpa [Logged, ownRaise, hf, hc] using this

/-! ### Judged writes -/

theorem coreUp_off {s : State} (h : coreUp s = true) : s.pwr.off = false := by
  simp [coreUp] at h; exact h.2

/-- A write that the running core accepts has its effect, counted, and is seen by READs at once. -/
theorem judged_accepts {s e : State} (h : coreUp s = true) : judged s 0 e = .next ((e.applied.wrote 0).latched) := by
  simp [judged, h, judgedAlways, coreUp_off h]

/-- A write that the running core refuses leaves its status and a count. -/
theorem judged_refuses {s e : State} {st : Nat} (h : coreUp s = true) (hs : st ≠ 0) :
    judged s st e = .next ((s.count 0x082).wrote st) := by
  simp [judged, h, judgedAlways, coreUp_off h, hs]

/-! ### Claim sources -/

/-- A source's row under edge sense. -/
theorem claimFire_pending (c : ClaimUnit) (n : Nat) (hr : reservedSource n = false) (he : (tget {} c.rows n).sense = false) :
    (tget {} (claimFire c n).rows n).pending = true := by
  simp [claimFire, hr, tget_tupd_self, he]

/-- A firing source leaves every other source's row as it is. -/
theorem claimFire_other (c : ClaimUnit) {n n' : Nat} (h : n' ≠ n) : tget {} (claimFire c n).rows n' = tget {} c.rows n' := by
  unfold claimFire
  split
  · rfl
  · dsimp only; rw [tget_tupd_ne _ _ _ h]

end Sys2Proof.Machine
end

