-- ==== Sys2Proof/Laws/Kept.lean ====
section
/-!
SUPPORT. What every operation of the model keeps: a relation between states that is closed under the leaf operations of the time unit, and
that sees only time and the queue of waiting commands, holds between a state and what any command makes of it.
-/
namespace Sys2Proof.Machine

/-- An outcome that is a next state keeps the relation. -/
def Keeps (R : State → State → Prop) (s : State) (o : Host.Outcome State Fault Refusal) : Prop := ∀ t, o = .next t → R s t
/-- The same of a state that may be absent. -/
def OKeeps (R : State → State → Prop) (s : State) (o : Option State) : Prop := ∀ t, o = some t → R s t
/-- The same of a flit and a state that may be absent. -/
def PKeeps (R : State → State → Prop) (s : State) (o : Option (Flit × State)) : Prop := ∀ t : Flit × State, o = some t → R s t.2

/-- A relation between states that all operations keep, once the leaf operations of the time unit do. -/
structure Frame (R : State → State → Prop) : Prop where
  refl : ∀ s, R s s
  trans : ∀ {a b c}, R a b → R b c → R a c
  /-- The relation sees nothing but time and the queue. -/
  of : ∀ {s t : State}, t.time = s.time → t.pending = s.pending → R s t
  upd : ∀ (s : State) (f : TimeUnit → TimeUnit), (∀ t, (f t).role = t.role ∧ (f t).st = t.st ∧ (f t).due = t.due) → R s (s.updTime f)
  timeDue : ∀ s, R s (timeDue s)
  overrunDue : ∀ s n, R s (overrunDue s n)
  appointMaster : ∀ s, R s (appointMaster s)
  demote : ∀ s role, role = .follower ∨ role = .standby → R s (demote s role)
  standbyTakeover : ∀ s, Keeps R s (execStandbyTakeover s)
  noSyncLimit : ∀ s, Keeps R s (execTimeNoSyncLimit s)
  acceptExchange : ∀ s p d o b, R s (acceptExchange s p d o b)
  generationAccept : ∀ s b, R s (generationAccept s b)
  servoStopped : ∀ s n, R s (servoStopped s n)
  loseCore : ∀ s warm, R s (loseCore s warm)

section
variable {R : State → State → Prop} {s s' : State}

theorem Frame.after (F : Frame R) {a b c : State} (h2 : R b c) (h : R a b) : R a c := F.trans h h2
theorem Frame.onState (F : Frame R) {x : State} {l : Chip} {o : List Out} {n : Nat} (h : R s x) : R s ⟨x.toChip, l, o, n, x.pending⟩ := F.trans h (F.of rfl rfl)
theorem Frame.onChip (F : Frame R) {x : State} {l : Chip} {o : List Out} {n : Nat} {a2 a3 a4 a5 a6 a7 a8 a9 a10 a11 a12 a13 a14 a15 a16 a17 a18 a19 a20} (h : R s x) :
    R s ⟨⟨x.time, a2, a3, a4, a5, a6, a7, a8, a9, a10, a11, a12, a13, a14, a15, a16, a17, a18, a19, a20⟩, l, o, n, x.pending⟩ := F.trans h (F.of rfl rfl)
theorem Frame.kIte (_F : Frame R) {c : Prop} [Decidable c] {a b : Host.Outcome State Fault Refusal} (h1 : Keeps R s a) (h2 : Keeps R s b) : Keeps R s (if c then a else b) := by split <;> assumption
theorem Frame.kTrans (F : Frame R) {o : Host.Outcome State Fault Refusal} (h2 : R s s') (h : Keeps R s' o) : Keeps R s o := fun t e => F.trans h2 (h t e)
theorem Frame.oIte (_F : Frame R) {c : Prop} [Decidable c] {a b : Option State} (h1 : OKeeps R s a) (h2 : OKeeps R s b) : OKeeps R s (if c then a else b) := by split <;> assumption
theorem Frame.oTrans (F : Frame R) {o : Option State} (h2 : R s s') (h : OKeeps R s' o) : OKeeps R s o := fun t e => F.trans h2 (h t e)
theorem Frame.pIte (_F : Frame R) {c : Prop} [Decidable c] {a b : Option (Flit × State)} (h1 : PKeeps R s a) (h2 : PKeeps R s b) : PKeeps R s (if c then a else b) := by split <;> assumption
theorem Frame.pTrans (F : Frame R) {o : Option (Flit × State)} (h2 : R s s') (h : PKeeps R s' o) : PKeeps R s o := fun t e => F.trans h2 (h t e)
theorem Frame.kNext (_F : Frame R) {t : State} (h : R s t) : Keeps R s (.next t) := by rintro _ ⟨⟩; exact h
theorem Frame.kFault (_F : Frame R) (s : State) (f : Fault) : Keeps R s (.fault f) := by rintro _ ⟨⟩
theorem Frame.oSome (_F : Frame R) {t : State} (h : R s t) : OKeeps R s (some t) := by rintro _ ⟨⟩; exact h
theorem Frame.oNone (_F : Frame R) (s : State) : OKeeps R s none := by rintro _ ⟨⟩
theorem Frame.pSome (_F : Frame R) {t : Flit × State} (h : R s t.2) : PKeeps R s (some t) := by rintro _ ⟨⟩; exact h
theorem Frame.pNone (_F : Frame R) (s : State) : PKeeps R s none := by rintro _ ⟨⟩
theorem Frame.oMap (F : Frame R) {α : Type} {o : Option α} {f : α → State} (h : ∀ x, o = some x → R s (f x)) : OKeeps R s (o.map f) := by
  cases o
  · exact F.oNone s
  · exact F.oSome (h _ rfl)
theorem Frame.pMap (F : Frame R) {α : Type} {o : Option α} {f : α → Flit × State} (h : ∀ x, o = some x → R s (f x).2) : PKeeps R s (o.map f) := by
  cases o
  · exact F.pNone s
  · exact F.pSome (h _ rfl)
theorem Frame.pBind (F : Frame R) {α : Type} {o : Option α} {f : α → Option (Flit × State)} (h : ∀ x, o = some x → PKeeps R s (f x)) : PKeeps R s (o.bind f) := by
  cases o
  · exact F.pNone s
  · exact h _ rfl
theorem Frame.ite (_F : Frame R) {c : Prop} [Decidable c] {a b : State} (h1 : R s a) (h2 : R s b) : R s (if c then a else b) := by split <;> assumption
theorem Frame.forEach (F : Frame R) {α : Type} {l : List α} {f : State → α → State} (h : ∀ t a, R t (f t a)) (h0 : R s s') : R s (forEach s' l f) :=
  forEach_keeps (R s) l f s' h0 fun t ht a _ => F.trans ht (h t a)
theorem Frame.foldlp (F : Frame R) {α β : Type} {l : List α} {f : State × β → α → State × β} {x : State × β} (h : ∀ t a, R t.1 (f t a).1) (h0 : R s x.1) :
    R s (l.foldl f x).1 := by
  induction l generalizing x with
  | nil => exact h0
  | cons a l ih => exact ih (F.trans h0 (h x a))
theorem Frame.elim (_F : Frame R) {α : Type} {o : Option α} {d : State} {f : α → State} (h0 : R s d) (h : ∀ a, R s (f a)) : R s (o.elim d f) := by
  cases o
  · exact h0
  · exact h _
theorem Frame.getD (_F : Frame R) {o : Option State} {d : State} (h : OKeeps R s o) (h0 : R s d) : R s (o.getD d) := by
  cases o
  · exact h0
  · exact h _ rfl
theorem Frame.pair (_F : Frame R) {β : Type} {t : State} {b : β} (h : R s t) : R s (t, b).1 := h
theorem Frame.pair2 (_F : Frame R) {β : Type} {t : State} {b : β} (h : R s t) : R s (b, t).2 := h
theorem Frame.wr (_F : Frame R) {t : State} {b : List Nat} {c : Bool} (h : R s t) : R s (Written.mk t b c).st := h
theorem Frame.lk (_F : Frame R) {t : State} {a b} (h : R s t) : R s (Looked.mk t a b).st := h
theorem Frame.fst (_F : Frame R) {β : Type} {x : State × β} {t : State} {b : β} (e : x = (t, b)) (h : R s x.1) : R s t := by subst e; exact h
theorem Frame.snd (_F : Frame R) {β : Type} {x : β × State} {t : State} {b : β} (e : x = (b, t)) (h : R s x.2) : R s t := by subst e; exact h
end

section
variable {R : State → State → Prop} (F : Frame R)
include F

theorem State.updTrans_kept (s : State) (x1) : R s (State.updTrans s x1) := by
  unfold State.updTrans
  exact F.onChip (F.refl _)

theorem State.emit_kept (s : State) (x1) : R s (State.emit s x1) := by
  unfold State.emit
  exact F.onState (F.refl _)

theorem State.count_kept (s : State) (x1) (x2) (x3) : R s (State.count s x1 x2 x3) := by
  unfold State.count
  exact F.onChip (F.refl _)

theorem issueReadSeg_kept (s : State) (x1) (x2) (x3) (x4) (x5) (x6) : R s (issueReadSeg s x1 x2 x3 x4 x5 x6) := by
  unfold issueReadSeg
  refine F.ite ?_ ?_
  · exact F.refl _
  · extract_lets; rename_i y299_0 y299_1 y299_2 y299_3
    refine F.onChip ?_
    unfold y299_2
    refine F.trans ?_ (State.emit_kept F _ _)
    refine F.trans ?_ (State.count_kept F _ _ _ _)
    exact F.refl _

theorem issueRead_kept (s : State) (x1) (x2) (x3) (x4) : R s (issueRead s x1 x2 x3 x4) := by
  unfold issueRead
  refine F.trans ?_ (issueReadSeg_kept F _ _ _ _ _ _ _)
  exact F.refl _

theorem State.event_kept (s : State) (x1) (x2) (x3) : R s (State.event s x1 x2 x3) := by
  unfold State.event
  exact F.onChip (F.refl _)

theorem State.raise_kept (s : State) (x1) (x2) (x3) (x4) : R s (State.raise s x1 x2 x3 x4) := by
  unfold State.raise
  exact F.onChip (F.refl _)

theorem windowFault_kept (s : State) (x1) : R s (windowFault s x1) := by
  unfold windowFault
  refine F.trans ?_ (State.event_kept F _ _ _ _)
  refine F.trans ?_ (State.raise_kept F _ _ _ _ _)
  exact F.refl _

theorem hostRead_kept (s : State) (x1) (x2) (x3) (x4) : R s (hostRead s x1 x2 x3 x4).1 := by
  unfold hostRead
  split
  · refine F.pair ?_
    refine F.trans ?_ (issueRead_kept F _ _ _ _ _)
    exact F.refl _
  · refine F.pair ?_
    refine F.trans ?_ (windowFault_kept F _ _)
    exact F.refl _

theorem lookDesc_kept (s : State) (x1) : R s (lookDesc s x1).1 := by
  unfold lookDesc
  split
  · refine F.pair ?_
    refine F.trans ?_ (State.updTrans_kept F _ _)
    exact F.refl _
  · split
    · refine F.pair ?_
      exact F.refl _
    · extract_lets; rename_i y298_0
      refine F.pair ?_
      refine F.trans ?_ (State.updTrans_kept F _ _)
      unfold y298_0
      refine F.trans ?_ (hostRead_kept F _ _ _ _ _)
      exact F.refl _

theorem checkKey_kept (s : State) (x1) (x2) (x3) (x4) (x5) : R s (checkKey s x1 x2 x3 x4 x5).1 := by
  unfold checkKey
  split
  · refine F.pair ?_
    exact F.refl _
  · split
    · refine F.pair ?_
      exact F.refl _
    · extract_lets; rename_i y298_0
      split
      · refine F.pair ?_
        unfold y298_0
        refine F.trans ?_ (lookDesc_kept F _ _)
        exact F.refl _
      · split
        · refine F.pair ?_
          unfold y298_0
          refine F.trans ?_ (lookDesc_kept F _ _)
          exact F.refl _
        · refine F.pair ?_
          unfold y298_0
          refine F.trans ?_ (lookDesc_kept F _ _)
          exact F.refl _

theorem checkBufs_kept (s : State) (pd : Nat) (need : Need) (l : List Sge) : R s (checkBufs s pd need l).1 := by
  induction l generalizing s with
  | nil => exact F.refl _
  | cons b l ih =>
    unfold checkBufs
    split
    · exact ih s
    · dsimp only
      split
      · exact checkKey_kept F _ _ _ _ _ _
      · exact checkKey_kept F _ _ _ _ _ _
      · exact F.after (ih _) (checkKey_kept F _ _ _ _ _ _)

theorem State.updQueues_kept (s : State) (x1) : R s (State.updQueues s x1) := by
  unfold State.updQueues
  exact F.onChip (F.refl _)

theorem State.updQueue_kept (s : State) (x1) (x2) : R s (State.updQueue s x1 x2) := by
  unfold State.updQueue
  refine F.trans ?_ (State.updQueues_kept F _ _)
  exact F.refl _

theorem markEntry_kept (s : State) (x1) (x2) (x3) : R s (markEntry s x1 x2 x3) := by
  unfold markEntry
  refine F.trans ?_ (State.updQueue_kept F _ _ _)
  exact F.refl _

theorem State.updHost_kept (s : State) (x1) : R s (State.updHost s x1) := by
  unfold State.updHost
  exact F.onChip (F.refl _)

theorem State.updMtch_kept (s : State) (x1) : R s (State.updMtch s x1) := by
  unfold State.updMtch
  exact F.onChip (F.refl _)

theorem State.updRma_kept (s : State) (x1) : R s (State.updRma s x1) := by
  unfold State.updRma
  exact F.onChip (F.refl _)

theorem abandonHost_kept (s : State) : R s (abandonHost s) := by
  unfold abandonHost
  extract_lets; rename_i y300_0 y300_1
  refine F.trans ?_ (State.updMtch_kept F _ _)
  refine F.trans ?_ (State.updRma_kept F _ _)
  unfold y300_1
  refine F.trans ?_ (State.updTrans_kept F _ _)
  unfold y300_0
  refine F.trans ?_ (State.updHost_kept F _ _)
  exact F.refl _

theorem State.updResp_kept (s : State) (x1) (x2) : R s (State.updResp s x1 x2) := by
  unfold State.updResp
  refine F.trans ?_ (State.updRma_kept F _ _)
  exact F.refl _

theorem State.updSw_kept (s : State) (x1) : R s (State.updSw s x1) := by
  unfold State.updSw
  exact F.onChip (F.refl _)

theorem State.inject_kept (s : State) (x1) (x2) : R s (State.inject s x1 x2) := by
  unfold State.inject
  extract_lets; rename_i y300_0 y300_1
  refine F.trans ?_ (State.updSw_kept F _ _)
  exact F.refl _

theorem sendAck_kept (s : State) (x1) (x2) (x3) (x4) : R s (sendAck s x1 x2 x3 x4) := by
  unfold sendAck
  extract_lets; rename_i y300_0
  refine F.trans ?_ (State.inject_kept F _ _ _)
  refine F.trans ?_ (State.count_kept F _ _ _ _)
  exact F.refl _

theorem ackContext_kept (s : State) (x1) (x2) : R s (ackContext s x1 x2) := by
  unfold ackContext
  extract_lets; rename_i y300_0 y300_1
  refine F.trans ?_ (sendAck_kept F _ _ _ _ _)
  refine F.trans ?_ (State.updResp_kept F _ _ _)
  exact F.refl _



theorem ringJudge_kept (s : State) (x1) : R s (ringJudge s x1) := by
  unfold ringJudge
  extract_lets; rename_i y300_0
  refine F.ite ?_ ?_
  · exact F.refl _
  · refine F.ite ?_ ?_
    · refine F.ite ?_ ?_
      · refine F.trans ?_ (State.updQueue_kept F _ _ _)
        exact F.refl _
      · exact F.refl _
    · refine F.ite ?_ ?_
      · exact F.refl _
      · refine F.trans ?_ (State.event_kept F _ _ _ _)
        refine F.trans ?_ (State.raise_kept F _ _ _ _ _)
        refine F.trans ?_ (State.count_kept F _ _ _ _)
        refine F.trans ?_ (State.updQueue_kept F _ _ _)
        exact F.refl _

theorem issueWrite_kept (s : State) (x1) (x2) (x3) (x4) (x5) : R s (issueWrite s x1 x2 x3 x4 x5).1 := by
  unfold issueWrite
  split
  · refine F.pair ?_
    exact F.refl _
  · extract_lets; rename_i y299_0 y299_1 y299_2 y299_3 y299_4
    split
    · refine F.pair ?_
      exact F.onChip (F.refl _)
    · refine F.pair ?_
      refine F.onChip ?_
      unfold y299_3
      refine F.trans ?_ (State.emit_kept F _ _)
      refine F.trans ?_ (State.count_kept F _ _ _ _)
      exact F.refl _

theorem hostWrite_kept (s : State) (x1) (x2) (x3) : R s (hostWrite s x1 x2 x3).st := by
  unfold hostWrite
  split
  · refine F.wr ?_
    exact F.refl _
  · split
    · extract_lets; rename_i y298_0
      refine F.wr ?_
      unfold y298_0
      refine F.trans ?_ (issueWrite_kept F _ _ _ _ _ _)
      exact F.refl _
    · refine F.wr ?_
      refine F.trans ?_ (windowFault_kept F _ _)
      exact F.refl _

theorem waitFor_kept (s : State) (x1) (x2) : R s (waitFor s x1 x2) := by
  unfold waitFor
  exact F.onChip (F.refl _)

theorem writeUnit_kept (s : State) (x1) (x2) : R s (writeUnit s x1 x2) := by
  unfold writeUnit
  extract_lets; rename_i y300_0 y300_1 y300_2 y300_3
  refine F.ite ?_ ?_
  · unfold y300_3
    refine F.trans ?_ (State.count_kept F _ _ _ _)
    refine F.trans ?_ (State.updQueue_kept F _ _ _)
    unfold y300_2
    refine F.trans ?_ (hostWrite_kept F _ _ _ _)
    exact F.refl _
  · refine F.trans ?_ (waitFor_kept F _ _ _)
    unfold y300_3
    refine F.trans ?_ (State.count_kept F _ _ _ _)
    refine F.trans ?_ (State.updQueue_kept F _ _ _)
    unfold y300_2
    refine F.trans ?_ (hostWrite_kept F _ _ _ _)
    exact F.refl _

theorem writeOwed_kept (s : State) (x1) (x2) : R s (writeOwed s x1 x2) := by
  unfold writeOwed
  refine F.trans ?_ (ringJudge_kept F _ _)
  refine F.trans ?_ (State.updQueue_kept F _ _ _)
  refine F.trans ?_ (writeUnit_kept F _ _ _)
  exact F.refl _

theorem arrivalAfter_kept (s : State) (x1) (x2) (x3) : R s (arrivalAfter s x1 x2 x3) := by
  unfold arrivalAfter
  extract_lets; rename_i y300_0
  refine F.ite ?_ ?_
  · refine F.trans ?_ (writeOwed_kept F _ _ _)
    exact F.refl _
  · refine F.trans ?_ (waitFor_kept F _ _ _)
    exact F.refl _

theorem recvDone_kept (s : State) (x1) : R s (recvDone s x1) := by
  unfold recvDone
  extract_lets; rename_i y300_0 y300_1
  refine F.trans ?_ (arrivalAfter_kept F _ _ _ _)
  unfold y300_1
  refine F.trans ?_ (State.updMtch_kept F _ _)
  exact F.refl _

theorem sweepRecvs_kept (s : State) : R s (sweepRecvs s) := by
  unfold sweepRecvs
  refine F.forEach (fun t a => ?_) ?_
  · refine F.trans ?_ (recvDone_kept F _ _)
    exact F.refl _
  · exact F.refl _

theorem updRecv_kept (s : State) (x1) (x2) : R s (updRecv s x1 x2) := by
  unfold updRecv
  refine F.trans ?_ (State.updMtch_kept F _ _)
  exact F.refl _

theorem State.updMep_kept (s : State) (x1) (x2) : R s (State.updMep s x1 x2) := by
  unfold State.updMep
  refine F.trans ?_ (State.updMtch_kept F _ _)
  exact F.refl _

theorem markDone_kept (s : State) (x1) (x2) : R s (markDone s x1 x2) := by
  unfold markDone
  extract_lets; rename_i y300_0
  refine F.trans ?_ (State.updMtch_kept F _ _)
  refine F.trans ?_ (State.updMep_kept F _ _ _)
  exact F.refl _

theorem inflowsDone_kept (s : State) (x1) : R s (inflowsDone s x1) := by
  unfold inflowsDone
  extract_lets; rename_i y300_0 y300_1 y300_2
  refine F.trans ?_ (sweepRecvs_kept F _)
  refine F.forEach (fun t a => ?_) ?_
  · split
    · refine F.trans ?_ (updRecv_kept F _ _ _)
      exact F.refl _
    · refine F.ite ?_ ?_
      · exact F.refl _
      · refine F.trans ?_ (markDone_kept F _ _ _)
        exact F.refl _
  · unfold y300_2
    refine F.trans ?_ (State.updMtch_kept F _ _)
    exact F.refl _

theorem arrivalsDue_kept (s : State) (x1) : R s (arrivalsDue s x1) := by
  unfold arrivalsDue
  extract_lets; rename_i y300_0 y300_1
  refine F.forEach (fun t a => ?_) ?_
  · refine F.trans ?_ (writeOwed_kept F _ _ _)
    exact F.refl _
  · refine F.trans ?_ (State.updResp_kept F _ _ _)
    exact F.refl _

theorem accept_kept (s : State) (x1) (x2) (x3) (x4) : R s (accept s x1 x2 x3 x4) := by
  unfold accept
  extract_lets; rename_i y300_0 y300_1
  refine F.trans ?_ (inflowsDone_kept F _ _)
  refine F.trans ?_ (arrivalsDue_kept F _ _)
  unfold y300_1
  refine F.ite ?_ ?_
  · refine F.trans ?_ (ackContext_kept F _ _ _)
    unfold y300_0
    refine F.trans ?_ (State.updResp_kept F _ _ _)
    exact F.refl _
  · unfold y300_0
    refine F.trans ?_ (State.updResp_kept F _ _ _)
    exact F.refl _

theorem State.updTport_kept (s : State) (p : Nat) (f : TimePort → TimePort) : R s (s.updTport p f) :=
  F.upd s (fun t => { t with ports := tupd {} t.ports p f }) fun _ => ⟨rfl, rfl, rfl⟩

theorem acceptExchange_kept (s : State) (p : Nat) (d o : Int) (b : TimeProbe) : R s (acceptExchange s p d o b) := F.acceptExchange s p d o b

theorem State.fire_kept (s : State) (x1) : R s (State.fire s x1) := by
  unfold State.fire
  exact F.onChip (F.refl _)

theorem sendResp_kept (s : State) (x1) : R s (sendResp s x1) := by
  unfold sendResp
  split
  · extract_lets; rename_i y299_0 y299_1
    refine F.trans ?_ (State.emit_kept F _ _)
    refine F.ite ?_ ?_
    · refine F.trans ?_ (State.fire_kept F _ _)
      unfold y299_1
      exact F.onChip (F.refl _)
    · unfold y299_1
      exact F.onChip (F.refl _)
  · refine F.trans ?_ (State.emit_kept F _ _)
    refine F.trans ?_ (State.inject_kept F _ _ _)
    exact F.onChip (F.refl _)
  · extract_lets; rename_i y299_0
    refine F.trans ?_ (State.emit_kept F _ _)
    refine F.ite ?_ ?_
    · exact F.onChip (F.refl _)
    · exact F.onChip (F.refl _)

theorem respond_kept (s : State) (x1) (x2) (x3) (x4) : R s (respond s x1 x2 x3 x4) := by
  unfold respond
  refine F.ite ?_ ?_
  · exact F.refl _
  · refine F.trans ?_ (sendResp_kept F _ _)
    exact F.refl _

theorem refuse_kept (s : State) (x1) (x2) : R s (refuse s x1 x2) := by
  unfold refuse
  extract_lets; rename_i y300_0
  refine F.ite ?_ ?_
  · refine F.trans ?_ (State.raise_kept F _ _ _ _ _)
    unfold y300_0
    refine F.trans ?_ (respond_kept F _ _ _ _ _)
    refine F.trans ?_ (State.count_kept F _ _ _ _)
    exact F.refl _
  · unfold y300_0
    refine F.trans ?_ (respond_kept F _ _ _ _ _)
    refine F.trans ?_ (State.count_kept F _ _ _ _)
    exact F.refl _

theorem State.updSem_kept (s : State) (x1) : R s (State.updSem s x1) := by
  unfold State.updSem
  exact F.onChip (F.refl _)

theorem semSubmit_kept (s : State) (x1) : R s (semSubmit s x1) := by
  unfold semSubmit
  refine F.trans ?_ (State.updSem_kept F _ _)
  exact F.refl _

theorem State.updCtl_kept (s : State) (x1) : R s (State.updCtl s x1) := by
  unfold State.updCtl
  exact F.onChip (F.refl _)

theorem place_kept (s : State) (x1) : R s (place s x1) := by
  unfold place
  refine F.ite ?_ ?_
  · refine F.ite ?_ ?_
    · refine F.trans ?_ (semSubmit_kept F _ _)
      exact F.refl _
    · refine F.trans ?_ (respond_kept F _ _ _ _ _)
      refine F.trans ?_ (State.count_kept F _ _ _ _)
      refine F.trans ?_ (State.count_kept F _ _ _ _)
      exact F.refl _
  · refine F.ite ?_ ?_
    · refine F.trans ?_ (State.updCtl_kept F _ _)
      exact F.refl _
    · refine F.trans ?_ (State.updCtl_kept F _ _)
      exact F.refl _

theorem noteMaster_kept (s : State) (x1) : R s (noteMaster s x1) := by
  unfold noteMaster
  refine F.ite ?_ ?_
  · exact F.refl _
  · extract_lets; rename_i y299_0
    refine F.trans ?_ (State.updCtl_kept F _ _)
    exact F.refl _

theorem acceptReq_kept (s : State) (x1) : R s (acceptReq s x1) := by
  unfold acceptReq
  extract_lets; rename_i y300_0
  refine F.ite ?_ ?_
  · refine F.trans ?_ (refuse_kept F _ _ _)
    exact F.refl _
  · refine F.trans ?_ (place_kept F _ _)
    refine F.trans ?_ (noteMaster_kept F _ _)
    refine F.trans ?_ (State.count_kept F _ _ _ _)
    exact F.refl _

theorem takeHead_kept (s : State) (x1) : R s (takeHead s x1) := by
  unfold takeHead
  refine F.trans ?_ (State.updCtl_kept F _ _)
  exact F.refl _

theorem acceptFront_kept (s : State) (x1) : R s (acceptFront s x1) := by
  unfold acceptFront
  split
  · exact F.refl _
  · split
    · exact F.refl _
    · refine F.ite ?_ ?_
      · refine F.trans ?_ (acceptReq_kept F _ _)
        refine F.trans ?_ (takeHead_kept F _ _)
        exact F.refl _
      · exact F.refl _

theorem updRing_kept (s : State) (x1) (x2) : R s (updRing s x1 x2) := by
  unfold updRing
  refine F.trans ?_ (ringJudge_kept F _ _)
  refine F.trans ?_ (State.updQueue_kept F _ _ _)
  exact F.refl _

theorem oweUnit_kept (s : State) (x1) : R s (oweUnit s x1) := by
  unfold oweUnit
  refine F.trans ?_ (updRing_kept F _ _ _)
  exact F.refl _

theorem acceptPut_kept (s : State) (x1) (x2) (x3) : R s (acceptPut s x1 x2 x3) := by
  unfold acceptPut
  split
  · extract_lets; rename_i y299_0 y299_1
    refine F.trans ?_ (accept_kept F _ _ _ _ _)
    refine F.trans ?_ (State.updResp_kept F _ _ _)
    refine F.trans ?_ (oweUnit_kept F _ _)
    exact F.refl _
  · refine F.trans ?_ (accept_kept F _ _ _ _ _)
    exact F.refl _

theorem pageRefused_kept (s : State) (x1) (x2) (x3) : R s (pageRefused s x1 x2 x3) := by
  unfold pageRefused
  extract_lets; rename_i y300_0
  refine F.ite ?_ ?_
  · refine F.trans ?_ (State.raise_kept F _ _ _ _ _)
    refine F.trans ?_ (State.count_kept F _ _ _ _)
    exact F.refl _
  · refine F.ite ?_ ?_
    · refine F.trans ?_ (State.raise_kept F _ _ _ _ _)
      refine F.trans ?_ (State.count_kept F _ _ _ _)
      exact F.refl _
    · refine F.ite ?_ ?_
      · refine F.trans ?_ (State.count_kept F _ _ _ _)
        exact F.refl _
      · exact F.refl _

theorem walkEnds_kept (s : State) (x1) (x2) : R s (walkEnds s x1 x2) := by
  unfold walkEnds
  refine F.trans ?_ (State.updTrans_kept F _ _)
  exact F.refl _

theorem State.updSeg_kept (s : State) (x1) (x2) : R s (State.updSeg s x1 x2) := by
  unfold State.updSeg
  refine F.trans ?_ (State.updTrans_kept F _ _)
  exact F.refl _

theorem writeDesc_kept (s : State) (x1) : R s (writeDesc s x1).st := by
  unfold writeDesc
  refine F.trans ?_ (hostWrite_kept F _ _ _ _)
  exact F.refl _

theorem noteWalkFault_kept (s : State) (x1) (x2) (x3) : R s (noteWalkFault s x1 x2 x3) := by
  unfold noteWalkFault
  extract_lets; rename_i y300_0 y300_1 y300_2 y300_3
  refine F.ite ?_ ?_
  · unfold y300_0
    refine F.trans ?_ (State.count_kept F _ _ _ _)
    exact F.refl _
  · refine F.trans ?_ (State.event_kept F _ _ _ _)
    refine F.trans ?_ (State.raise_kept F _ _ _ _ _)
    unfold y300_3
    refine F.trans ?_ (State.updTrans_kept F _ _)
    refine F.trans ?_ (writeDesc_kept F _ _)
    unfold y300_1
    refine F.trans ?_ (State.updSeg_kept F _ _ _)
    unfold y300_0
    refine F.trans ?_ (State.count_kept F _ _ _ _)
    exact F.refl _

theorem walkFault_kept (s : State) (x1) (x2) (x3) : R s (walkFault s x1 x2 x3) := by
  unfold walkFault
  refine F.trans ?_ (walkEnds_kept F _ _ _)
  refine F.trans ?_ (noteWalkFault_kept F _ _ _ _)
  exact F.refl _

theorem walkRead_kept (s : State) (x1) (x2) : R s (walkRead s x1 x2) := by
  unfold walkRead
  refine F.ite ?_ ?_
  · refine F.trans ?_ (walkFault_kept F _ _ _ _)
    exact F.refl _
  · extract_lets; rename_i y299_0
    refine F.ite ?_ ?_
    · refine F.trans ?_ (State.updTrans_kept F _ _)
      unfold y299_0
      refine F.trans ?_ (hostRead_kept F _ _ _ _ _)
      exact F.refl _
    · refine F.trans ?_ (walkFault_kept F _ _ _ _)
      unfold y299_0
      refine F.trans ?_ (hostRead_kept F _ _ _ _ _)
      exact F.refl _

theorem walkStart_kept (s : State) (x1) : R s (walkStart s x1) := by
  unfold walkStart
  extract_lets; rename_i y300_0 y300_1 y300_2 y300_3
  clear_value y300_1; split
  · extract_lets; rename_i y298_0 y298_1
    refine F.trans ?_ (walkRead_kept F _ _ _)
    unfold y298_1
    refine F.trans ?_ (State.updTrans_kept F _ _)
    refine F.trans ?_ (State.count_kept F _ _ _ _)
    unfold y300_2
    refine F.trans ?_ (State.count_kept F _ _ _ _)
    exact F.refl _
  · refine F.trans ?_ (walkRead_kept F _ _ _)
    unfold y300_2
    refine F.trans ?_ (State.count_kept F _ _ _ _)
    exact F.refl _

theorem startWalks_kept (s : State) (n : Nat) : R s (startWalks s n) := by
  induction n generalizing s with
  | zero => exact F.refl _
  | succ n ih =>
    unfold startWalks
    split
    · exact F.refl _
    · split
      · exact F.after (ih _) (walkStart_kept F _ _)
      · exact F.refl _

theorem askWalk_kept (s : State) (x1) (x2) : R s (askWalk s x1 x2) := by
  unfold askWalk
  refine F.ite ?_ ?_
  · exact F.refl _
  · refine F.ite ?_ ?_
    · refine F.trans ?_ (State.event_kept F _ _ _ _)
      refine F.trans ?_ (State.updTrans_kept F _ _)
      exact F.refl _
    · extract_lets; rename_i y298_0
      refine F.trans ?_ (startWalks_kept F _ _)
      refine F.trans ?_ (State.updTrans_kept F _ _)
      refine F.trans ?_ (State.count_kept F _ _ _ _)
      exact F.refl _

theorem adStart_kept (s : State) (x1) (x2) : R s (adStart s x1 x2) := by
  unfold adStart
  refine F.ite ?_ ?_
  · exact F.refl _
  · extract_lets; rename_i y299_0 y299_1 y299_2
    refine F.ite ?_ ?_
    · refine F.trans ?_ (State.updTrans_kept F _ _)
      unfold y299_2
      refine F.trans ?_ (hostRead_kept F _ _ _ _ _)
      exact F.refl _
    · refine F.trans ?_ (State.updTrans_kept F _ _)
      refine F.trans ?_ (noteWalkFault_kept F _ _ _ _)
      unfold y299_2
      refine F.trans ?_ (hostRead_kept F _ _ _ _ _)
      exact F.refl _

theorem State.took_kept (s : State) : R s (State.took s) := by
  unfold State.took
  exact F.onState (F.refl _)

theorem accessPages_kept (s : State) (x1) (x2) (x3) (x4) (x5) : R s (accessPages s x1 x2 x3 x4 x5).1 := by
  unfold accessPages
  extract_lets; rename_i y300_0 y300_1 y300_2 y300_3 y300_4 y300_5 y300_6 y300_7 y300_8 y300_9 y300_10 y300_11 y300_12
  split
  · refine F.pair ?_
    refine F.trans ?_ (pageRefused_kept F _ _ _ _)
    unfold y300_2
    refine F.trans ?_ (State.count_kept F _ _ _ _)
    exact F.refl _
  · split
    · refine F.pair ?_
      refine F.forEach (fun t a => ?_) ?_
      · refine F.trans ?_ (askWalk_kept F _ _ _)
        exact F.refl _
      · unfold y300_2
        refine F.trans ?_ (State.count_kept F _ _ _ _)
        exact F.refl _
    · split
      · refine F.pair ?_
        refine F.trans ?_ (pageRefused_kept F _ _ _ _)
        unfold y300_5
        refine F.trans ?_ (State.updTrans_kept F _ _)
        unfold y300_2
        refine F.trans ?_ (State.count_kept F _ _ _ _)
        exact F.refl _
      · split
        · refine F.pair ?_
          refine F.forEach (fun t a => ?_) ?_
          · refine F.trans ?_ (adStart_kept F _ _ _)
            exact F.refl _
          · unfold y300_9
            refine F.ite ?_ ?_
            · unfold y300_5
              refine F.trans ?_ (State.updTrans_kept F _ _)
              unfold y300_2
              refine F.trans ?_ (State.count_kept F _ _ _ _)
              exact F.refl _
            · refine F.trans ?_ (State.updTrans_kept F _ _)
              unfold y300_5
              refine F.trans ?_ (State.updTrans_kept F _ _)
              unfold y300_2
              refine F.trans ?_ (State.count_kept F _ _ _ _)
              exact F.refl _
        · split
          · refine F.pair ?_
            unfold y300_10
            refine F.trans ?_ (State.updTrans_kept F _ _)
            unfold y300_5
            refine F.trans ?_ (State.updTrans_kept F _ _)
            unfold y300_2
            refine F.trans ?_ (State.count_kept F _ _ _ _)
            exact F.refl _
          · refine F.pair ?_
            refine F.trans ?_ (State.took_kept F _)
            refine F.trans ?_ (windowFault_kept F _ _)
            unfold y300_10
            refine F.trans ?_ (State.updTrans_kept F _ _)
            unfold y300_5
            refine F.trans ?_ (State.updTrans_kept F _ _)
            unfold y300_2
            refine F.trans ?_ (State.count_kept F _ _ _ _)
            exact F.refl _

theorem access_kept (s : State) (x1) (x2) (x3) (x4) (x5) (x6) : R s (access s x1 x2 x3 x4 x5 x6).1 := by
  unfold access
  split
  · refine F.trans ?_ (accessPages_kept F _ _ _ _ _ _)
    exact F.refl _
  · extract_lets; rename_i y299_0
    split
    · refine F.pair ?_
      unfold y299_0
      refine F.trans ?_ (checkKey_kept F _ _ _ _ _ _)
      exact F.refl _
    · refine F.pair ?_
      unfold y299_0
      refine F.trans ?_ (checkKey_kept F _ _ _ _ _ _)
      exact F.refl _
    · refine F.trans ?_ (accessPages_kept F _ _ _ _ _ _)
      unfold y299_0
      refine F.trans ?_ (checkKey_kept F _ _ _ _ _ _)
      exact F.refl _

theorem accessBufs_kept (s : State) (who : List Nat) (pd : Nat) (need : Need) (l : List Sge) : R s (accessBufs s who pd need l).1 := by
  induction l generalizing s with
  | nil => exact F.refl _
  | cons b l ih =>
    unfold accessBufs
    dsimp only
    split
    · exact access_kept F _ _ _ _ _ _ _
    · exact F.after (ih _) (access_kept F _ _ _ _ _ _ _)
    · exact F.after (ih _) (access_kept F _ _ _ _ _ _ _)

theorem accessParts_kept (s : State) (who : List Nat) (key pd : Nat) (l : List Piece) : R s (accessParts s who key pd l).1 := by
  induction l generalizing s with
  | nil => exact F.refl _
  | cons b l ih =>
    unfold accessParts
    exact F.after (ih _) (access_kept F _ _ _ _ _ _ _)

theorem ackAlone_kept (s : State) (x1) (x2) : R s (ackAlone s x1 x2) := by
  unfold ackAlone
  refine F.trans ?_ (sendAck_kept F _ _ _ _ _)
  exact F.refl _

theorem State.updReq_kept (s : State) (x1) (x2) : R s (State.updReq s x1 x2) := by
  unfold State.updReq
  refine F.trans ?_ (State.updRma_kept F _ _)
  exact F.refl _

theorem dropOwed_kept (s : State) (x1) : R s (dropOwed s x1) := by
  unfold dropOwed
  refine F.trans ?_ (updRing_kept F _ _ _)
  exact F.refl _

theorem writeCompletion_kept (s : State) (x1) (x2) : R s (writeCompletion s x1 x2) := by
  unfold writeCompletion
  extract_lets; rename_i y300_0
  refine F.ite ?_ ?_
  · refine F.trans ?_ (writeOwed_kept F _ _ _)
    exact F.refl _
  · refine F.trans ?_ (dropOwed_kept F _ _)
    exact F.refl _

theorem flushRun_kept (s : State) (g n : Nat) : R s (flushRun s g n) := by
  induction n generalizing s with
  | zero => exact F.refl _
  | succ n ih =>
    unfold flushRun
    split
    · exact F.refl _
    · split
      · refine F.ite ?_ (F.refl _)
        exact F.after (ih _) (F.after (writeCompletion_kept F _ _ _) (State.updQueue_kept F _ _ _))
      · exact F.refl _

theorem flushQueue_kept (s : State) (x1) : R s (flushQueue s x1) := by
  unfold flushQueue
  refine F.trans ?_ (flushRun_kept F _ _ _)
  exact F.refl _

theorem updEntry_kept (s : State) (x1) (x2) : R s (updEntry s x1 x2) := by
  unfold updEntry
  split
  · exact F.refl _
  · refine F.trans ?_ (flushQueue_kept F _ _)
    refine F.trans ?_ (State.updQueue_kept F _ _ _)
    exact F.refl _

theorem finishEntry_kept (s : State) (x1) (x2) (x3) (x4) (x5) : R s (finishEntry s x1 x2 x3 x4 x5) := by
  unfold finishEntry
  refine F.trans ?_ (updEntry_kept F _ _ _)
  exact F.refl _

theorem tellClosers_kept (s : State) (x1) : R s (tellClosers s x1) := by
  unfold tellClosers
  extract_lets; rename_i y300_0
  refine F.forEach (fun t a => ?_) ?_
  · refine F.trans ?_ (finishEntry_kept F _ _ _ _ _ _)
    exact F.refl _
  · refine F.trans ?_ (State.updReq_kept F _ _ _)
    exact F.refl _

theorem enterClosing_kept (s : State) (x1) : R s (enterClosing s x1) := by
  unfold enterClosing
  refine F.trans ?_ (tellClosers_kept F _ _)
  refine F.trans ?_ (State.updReq_kept F _ _ _)
  exact F.refl _

theorem failEntry_kept (s : State) (x1) (x2) (x3) (x4) (x5) : R s (failEntry s x1 x2 x3 x4 x5) := by
  unfold failEntry
  refine F.trans ?_ (finishEntry_kept F _ _ _ _ _ _)
  exact F.refl _

theorem rndvDrop_kept (s : State) (x1) : R s (rndvDrop s x1) := by
  unfold rndvDrop
  exact F.onChip (F.refl _)

theorem rndvUnknown_kept (s : State) (x1) (x2) : R s (rndvUnknown s x1 x2) := by
  unfold rndvUnknown
  refine F.trans ?_ (failEntry_kept F _ _ _ _ _ _)
  refine F.trans ?_ (State.event_kept F _ _ _ _)
  refine F.trans ?_ (State.raise_kept F _ _ _ _ _)
  refine F.trans ?_ (rndvDrop_kept F _ _)
  exact F.refl _

theorem flushRndv_kept (s : State) (x1) : R s (flushRndv s x1) := by
  unfold flushRndv
  extract_lets; rename_i y300_0
  refine F.forEach (fun t a => ?_) ?_
  · refine F.trans ?_ (rndvUnknown_kept F _ _ _)
    exact F.refl _
  · exact F.refl _

theorem rndvSettle_kept (s : State) (x1) : R s (rndvSettle s x1) := by
  unfold rndvSettle
  refine F.ite ?_ ?_
  · refine F.trans ?_ (finishEntry_kept F _ _ _ _ _ _)
    refine F.trans ?_ (rndvDrop_kept F _ _)
    exact F.refl _
  · exact F.refl _

theorem rndvAcked_kept (s : State) (x1) : R s (rndvAcked s x1) := by
  unfold rndvAcked
  exact F.onChip (F.refl _)

theorem tellOwner_kept (s : State) (x1) (x2) (x3) (x4) : R s (tellOwner s x1 x2 x3 x4) := by
  unfold tellOwner
  split
  · refine F.ite ?_ ?_
    · refine F.ite ?_ ?_
      · refine F.trans ?_ (rndvSettle_kept F _ _)
        refine F.trans ?_ (rndvAcked_kept F _ _)
        exact F.refl _
      · refine F.trans ?_ (failEntry_kept F _ _ _ _ _ _)
        refine F.trans ?_ (rndvDrop_kept F _ _)
        exact F.refl _
    · refine F.trans ?_ (finishEntry_kept F _ _ _ _ _ _)
      exact F.refl _
  · exact F.onChip (F.refl _)
  · exact F.refl _

theorem flushMsgs_kept (s : State) (x1) (x2) : R s (flushMsgs s x1 x2) := by
  unfold flushMsgs
  extract_lets; rename_i y300_0 y300_1 y300_2
  refine F.forEach (fun t a => ?_) ?_
  · refine F.ite ?_ ?_
    · refine F.trans ?_ (tellOwner_kept F _ _ _ _ _)
      exact F.refl _
    · split
      · refine F.ite ?_ ?_
        · refine F.trans ?_ (rndvUnknown_kept F _ _ _)
          exact F.refl _
        · refine F.trans ?_ (tellOwner_kept F _ _ _ _ _)
          exact F.refl _
      · refine F.trans ?_ (tellOwner_kept F _ _ _ _ _)
        exact F.refl _
  · unfold y300_2
    refine F.trans ?_ (State.updReq_kept F _ _ _)
    exact F.refl _

theorem ctxFails_kept (s : State) (x1) (x2) : R s (ctxFails s x1 x2) := by
  unfold ctxFails
  refine F.trans ?_ (enterClosing_kept F _ _)
  refine F.trans ?_ (flushRndv_kept F _ _)
  refine F.trans ?_ (flushMsgs_kept F _ _ _)
  exact F.refl _

theorem updMsg_kept (s : State) (x1) (x2) (x3) : R s (updMsg s x1 x2 x3) := by
  unfold updMsg
  refine F.trans ?_ (State.updReq_kept F _ _ _)
  exact F.refl _

theorem msgFails_kept (s : State) (x1) (x2) (x3) (x4) (x5) : R s (msgFails s x1 x2 x3 x4 x5) := by
  unfold msgFails
  refine F.trans ?_ (updMsg_kept F _ _ _ _)
  exact F.refl _

theorem advanceUna_kept (s : State) (x1) (x2) : R s (advanceUna s x1 x2) := by
  unfold advanceUna
  extract_lets; rename_i y300_0 y300_1
  refine F.ite ?_ ?_
  · exact F.refl _
  · refine F.trans ?_ (State.updReq_kept F _ _ _)
    exact F.refl _

theorem ackError_kept (s : State) (x1) (x2) : R s (ackError s x1 x2) := by
  unfold ackError
  extract_lets; rename_i y300_0
  refine F.ite ?_ ?_
  · refine F.trans ?_ (ctxFails_kept F _ _ _)
    exact F.refl _
  · split
    · exact F.refl _
    · extract_lets; rename_i y297_0 y297_1
      refine F.ite ?_ ?_
      · unfold y297_1
        refine F.trans ?_ (State.updReq_kept F _ _ _)
        unfold y297_0
        refine F.trans ?_ (msgFails_kept F _ _ _ _ _ _)
        exact F.refl _
      · refine F.trans ?_ (advanceUna_kept F _ _ _)
        unfold y297_1
        refine F.trans ?_ (State.updReq_kept F _ _ _)
        unfold y297_0
        refine F.trans ?_ (msgFails_kept F _ _ _ _ _ _)
        exact F.refl _

theorem countDone_kept (s : State) (x1) (x2) : R s (countDone s x1 x2) := by
  unfold countDone
  refine F.ite ?_ ?_
  · exact F.refl _
  · refine F.trans ?_ (updMsg_kept F _ _ _ _)
    exact F.refl _

theorem updPktOf_kept (s : State) (x1) (x2) (x3) : R s (updPktOf s x1 x2 x3) := by
  unfold updPktOf
  refine F.trans ?_ (State.updReq_kept F _ _ _)
  exact F.refl _

theorem ackPsn_kept (s : State) (x1) (x2) : R s (ackPsn s x1 x2) := by
  unfold ackPsn
  split
  · exact F.refl _
  · extract_lets; rename_i y299_0
    refine F.trans ?_ (State.updReq_kept F _ _ _)
    unfold y299_0
    refine F.trans ?_ (countDone_kept F _ _ _)
    refine F.trans ?_ (updPktOf_kept F _ _ _ _)
    exact F.refl _

theorem earlyHoles_kept (s : State) (x1) : R s (earlyHoles s x1) := by
  unfold earlyHoles
  extract_lets; rename_i y300_0 y300_1 y300_2
  refine F.forEach (fun t a => ?_) ?_
  · refine F.trans ?_ (State.count_kept F _ _ _ _)
    refine F.trans ?_ (State.updReq_kept F _ _ _)
    refine F.trans ?_ (updPktOf_kept F _ _ _ _)
    exact F.refl _
  · exact F.refl _

theorem ackFields_kept (s : State) (x1) (x2) : R s (ackFields s x1 x2) := by
  unfold ackFields
  extract_lets; rename_i y300_0 y300_1 y300_2 y300_3
  refine F.ite ?_ ?_
  · exact F.refl _
  · refine F.ite ?_ ?_
    · refine F.trans ?_ (State.count_kept F _ _ _ _)
      exact F.refl _
    · refine F.trans ?_ (earlyHoles_kept F _ _)
      refine F.ite ?_ ?_
      · refine F.trans ?_ (State.count_kept F _ _ _ _)
        unfold y300_3
        refine F.trans ?_ (State.updReq_kept F _ _ _)
        refine F.trans ?_ (advanceUna_kept F _ _ _)
        unfold y300_2
        refine F.forEach (fun t a => ?_) ?_
        · refine F.trans ?_ (ackPsn_kept F _ _ _)
          exact F.refl _
        · exact F.refl _
      · unfold y300_3
        refine F.trans ?_ (State.updReq_kept F _ _ _)
        refine F.trans ?_ (advanceUna_kept F _ _ _)
        unfold y300_2
        refine F.forEach (fun t a => ?_) ?_
        · refine F.trans ?_ (ackPsn_kept F _ _ _)
          exact F.refl _
        · exact F.refl _

theorem placeOnDie_kept (s : State) (x1) : R s (placeOnDie s x1).1 := by
  unfold placeOnDie
  extract_lets; rename_i y300_0
  split
  · refine F.pair ?_
    refine F.trans ?_ (State.updRma_kept F _ _)
    exact F.refl _
  · split
    · refine F.pair ?_
      refine F.trans ?_ (State.updRma_kept F _ _)
      exact F.refl _
    · refine F.pair ?_
      exact F.refl _

theorem noteIdle_kept (s : State) (x1) : R s (noteIdle s x1) := by
  unfold noteIdle
  extract_lets; rename_i y300_0 y300_1
  refine F.ite ?_ ?_
  · unfold y300_1
    refine F.ite ?_ ?_
    · refine F.trans ?_ (State.updSw_kept F _ _)
      exact F.refl _
    · exact F.refl _
  · refine F.trans ?_ (State.updReq_kept F _ _ _)
    unfold y300_1
    refine F.ite ?_ ?_
    · refine F.trans ?_ (State.updSw_kept F _ _)
      exact F.refl _
    · exact F.refl _

theorem sweepMsgs_kept (s : State) (x1) : R s (sweepMsgs s x1) := by
  unfold sweepMsgs
  extract_lets; rename_i y300_0 y300_1 y300_2
  refine F.forEach (fun t a => ?_) ?_
  · split
    · refine F.trans ?_ (tellOwner_kept F _ _ _ _ _)
      exact F.refl _
    · refine F.trans ?_ (tellOwner_kept F _ _ _ _ _)
      exact F.refl _
  · unfold y300_2
    refine F.trans ?_ (State.updReq_kept F _ _ _)
    exact F.refl _

theorem sendPkt_kept (s : State) (x1) (x2) (x3) (x4) (x5) : R s (sendPkt s x1 x2 x3 x4 x5) := by
  unfold sendPkt
  extract_lets; rename_i y300_0 y300_1 y300_2 y300_3
  refine F.trans ?_ (State.inject_kept F _ _ _)
  refine F.ite ?_ ?_
  · unfold y300_2
    refine F.trans ?_ (State.updReq_kept F _ _ _)
    exact F.refl _
  · refine F.trans ?_ (State.count_kept F _ _ _ _)
    unfold y300_2
    refine F.trans ?_ (State.updReq_kept F _ _ _)
    exact F.refl _

theorem sendOld_kept (s : State) (x1) (x2) (x3) (x4) : R s (sendOld s x1 x2 x3 x4) := by
  unfold sendOld
  split
  · refine F.trans ?_ (State.updReq_kept F _ _ _)
    exact F.refl _
  · extract_lets; rename_i y299_0
    refine F.trans ?_ (sendPkt_kept F _ _ _ _ _ _)
    refine F.trans ?_ (State.updReq_kept F _ _ _)
    refine F.trans ?_ (updPktOf_kept F _ _ _ _)
    exact F.refl _

theorem sendNew_kept (s : State) (x1) (x2) (x3) (x4) (x5) (x6) (x7) : R s (sendNew s x1 x2 x3 x4 x5 x6 x7) := by
  unfold sendNew
  extract_lets; rename_i y300_0 y300_1 y300_2 y300_3 y300_4 y300_5
  refine F.trans ?_ (sendPkt_kept F _ _ _ _ _ _)
  unfold y300_5
  refine F.trans ?_ (State.updReq_kept F _ _ _)
  refine F.trans ?_ (updMsg_kept F _ _ _ _)
  exact F.refl _

theorem sendPrep_kept (s : State) (x1) (x2) (x3) (x4) : R s (sendPrep s x1 x2 x3 x4) := by
  unfold sendPrep
  split
  · refine F.trans ?_ (sendOld_kept F _ _ _ _ _)
    exact F.refl _
  · refine F.trans ?_ (sendNew_kept F _ _ _ _ _ _ _ _)
    exact F.refl _

theorem prepLost_kept (s : State) (x1) (x2) (x3) (x4) (x5) (x6) : R s (prepLost s x1 x2 x3 x4 x5 x6) := by
  unfold prepLost
  split
  · refine F.trans ?_ (sendOld_kept F _ _ _ _ _)
    refine F.trans ?_ (updPktOf_kept F _ _ _ _)
    refine F.trans ?_ (msgFails_kept F _ _ _ _ _ _)
    exact F.refl _
  · refine F.ite ?_ ?_
    · extract_lets; rename_i y298_0 y298_1
      refine F.trans ?_ (msgFails_kept F _ _ _ _ _ _)
      unfold y298_1
      refine F.trans ?_ (sendNew_kept F _ _ _ _ _ _ _ _)
      exact F.refl _
    · refine F.trans ?_ (State.updReq_kept F _ _ _)
      refine F.trans ?_ (msgFails_kept F _ _ _ _ _ _)
      exact F.refl _

theorem readGrants_kept (s : State) (x1) (x2) : R s (readGrants s x1 x2) := by
  unfold readGrants
  extract_lets; rename_i y300_0 y300_1 y300_2
  split
  · exact F.refl _
  · refine F.ite ?_ ?_
    · exact F.refl _
    · refine F.forEach (fun t a => ?_) ?_
      · refine F.trans ?_ (issueReadSeg_kept F _ _ _ _ _ _ _)
        exact F.refl _
      · refine F.trans ?_ (State.updHost_kept F _ _)
        exact F.refl _

theorem workPrep_kept (s : State) (x1) : R s (workPrep s x1) := by
  unfold workPrep
  extract_lets; rename_i y300_0
  split
  · exact F.refl _
  · refine F.ite ?_ ?_
    · exact F.refl _
    · split
      · refine F.trans ?_ (State.updReq_kept F _ _ _)
        exact F.refl _
      · extract_lets; rename_i y296_0
        split
        · unfold y296_0
          refine F.trans ?_ (accessBufs_kept F _ _ _ _ _)
          exact F.refl _
        · refine F.trans ?_ (prepLost_kept F _ _ _ _ _ _ _)
          unfold y296_0
          refine F.trans ?_ (accessBufs_kept F _ _ _ _ _)
          exact F.refl _
        · refine F.trans ?_ (readGrants_kept F _ _ _)
          refine F.trans ?_ (State.updReq_kept F _ _ _)
          unfold y296_0
          refine F.trans ?_ (accessBufs_kept F _ _ _ _ _)
          exact F.refl _

theorem pumpOnce_kept (s : State) (x1) : R s (pumpOnce s x1).1 := by
  unfold pumpOnce
  extract_lets; rename_i y300_0
  split
  · refine F.pair ?_
    exact F.refl _
  · split
    · refine F.pair ?_
      exact F.refl _
    · extract_lets; rename_i y297_0 y297_1 y297_2
      split
      · split
        · refine F.pair ?_
          exact F.refl _
        · refine F.pair ?_
          refine F.trans ?_ (sendPrep_kept F _ _ _ _ _)
          unfold y297_1
          split
          · refine F.trans ?_ (State.updReq_kept F _ _ _)
            exact F.refl _
          · exact F.refl _
      · split
        · refine F.pair ?_
          exact F.refl _
        · split
          · refine F.pair ?_
            refine F.trans ?_ (sendPrep_kept F _ _ _ _ _)
            unfold y297_1
            split
            · refine F.trans ?_ (State.updReq_kept F _ _ _)
              exact F.refl _
            · exact F.refl _
          · refine F.pair ?_
            unfold y297_2
            refine F.trans ?_ (workPrep_kept F _ _)
            refine F.trans ?_ (State.updReq_kept F _ _ _)
            unfold y297_1
            split
            · refine F.trans ?_ (State.updReq_kept F _ _ _)
              exact F.refl _
            · exact F.refl _

theorem pumpRun_kept (s : State) (key n : Nat) : R s (pumpRun s key n) := by
  induction n generalizing s with
  | zero => exact F.refl _
  | succ n ih =>
    unfold pumpRun
    dsimp only
    split
    · exact F.after (ih _) (pumpOnce_kept F _ _)
    · exact pumpOnce_kept F _ _

theorem noPlace_kept (s : State) (x1) : R s (noPlace s x1) := by
  unfold noPlace
  extract_lets; rename_i y300_0 y300_1
  refine F.forEach (fun t a => ?_) ?_
  · refine F.trans ?_ (tellOwner_kept F _ _ _ _ _)
    exact F.refl _
  · refine F.trans ?_ (State.event_kept F _ _ _ _)
    refine F.trans ?_ (State.raise_kept F _ _ _ _ _)
    unfold y300_1
    refine F.trans ?_ (State.updReq_kept F _ _ _)
    exact F.refl _

theorem takePlace_kept (s : State) (x1) (x2) (x3) : R s (takePlace s x1 x2 x3) := by
  unfold takePlace
  refine F.trans ?_ (State.updRma_kept F _ _)
  exact F.refl _

theorem openCtx_kept (s : State) (x1) : R s (openCtx s x1) := by
  unfold openCtx
  split
  · refine F.trans ?_ (noPlace_kept F _ _)
    exact F.refl _
  · extract_lets; rename_i y299_0 y299_1 y299_2 y299_3
    refine F.ite ?_ ?_
    · exact F.refl _
    · refine F.trans ?_ (State.updReq_kept F _ _ _)
      unfold y299_1
      refine F.trans ?_ (takePlace_kept F _ _ _ _)
      unfold y299_0
      refine F.trans ?_ (placeOnDie_kept F _ _)
      exact F.refl _

theorem needCtx_kept (s : State) (x1) : R s (needCtx s x1) := by
  unfold needCtx
  extract_lets; rename_i y300_0
  split
  · refine F.ite ?_ ?_
    · exact F.refl _
    · refine F.trans ?_ (openCtx_kept F _ _)
      exact F.refl _
  · exact F.refl _
  · refine F.ite ?_ ?_
    · refine F.trans ?_ (placeOnDie_kept F _ _)
      exact F.refl _
    · refine F.ite ?_ ?_
      · exact F.refl _
      · refine F.trans ?_ (State.count_kept F _ _ _ _)
        refine F.trans ?_ (State.updReq_kept F _ _ _)
        exact F.refl _

theorem pump_kept (s : State) (x1) : R s (pump s x1) := by
  unfold pump
  refine F.trans ?_ (noteIdle_kept F _ _)
  refine F.trans ?_ (sweepMsgs_kept F _ _)
  refine F.trans ?_ (pumpRun_kept F _ _ _)
  refine F.trans ?_ (needCtx_kept F _ _)
  exact F.refl _

theorem dropDone_kept (s : State) (x1) : R s (dropDone s x1) := by
  unfold dropDone
  refine F.trans ?_ (State.updReq_kept F _ _ _)
  exact F.refl _

theorem afterAck_kept (s : State) (x1) : R s (afterAck s x1) := by
  unfold afterAck
  refine F.trans ?_ (pump_kept F _ _)
  refine F.trans ?_ (dropDone_kept F _ _)
  exact F.refl _

theorem ackIn_kept (s : State) (p : Packet) (f : State → Nat → Ack → State) (h : ∀ t k a, R t (f t k a)) : R s (ackIn s p f) := by
  unfold ackIn
  dsimp only
  split
  · exact State.count_kept F _ _ _ _
  · split
    · exact State.count_kept F _ _ _ _
    · have e : R s (f (placeOnDie s (reqCode (reqKey p.dep p.sfna))).1 (reqKey p.dep p.sfna) (ackOf p)) := F.after (h _ _ _) (placeOnDie_kept F _ _)
      split
      · exact e
      · exact F.after (afterAck_kept F _ _) e

theorem ackLater_kept (s : State) (x1) (x2) : R s (ackLater s x1 x2) := by
  unfold ackLater
  extract_lets; rename_i y300_0
  split
  · exact F.refl _
  · extract_lets; rename_i y298_0 y298_1
    refine F.trans ?_ (State.updReq_kept F _ _ _)
    unfold y298_1
    refine F.ite ?_ ?_
    · refine F.trans ?_ (updPktOf_kept F _ _ _ _)
      refine F.trans ?_ (msgFails_kept F _ _ _ _ _ _)
      unfold y298_0
      refine F.trans ?_ (State.count_kept F _ _ _ _)
      refine F.trans ?_ (updPktOf_kept F _ _ _ _)
      exact F.refl _
    · unfold y298_0
      refine F.trans ?_ (State.count_kept F _ _ _ _)
      refine F.trans ?_ (updPktOf_kept F _ _ _ _)
      exact F.refl _

theorem State.updFault_kept (s : State) (x1) : R s (State.updFault s x1) := by
  unfold State.updFault
  exact F.onChip (F.refl _)

theorem ackSlice_kept (s : State) : R s (ackSlice s) := by
  unfold ackSlice
  extract_lets; rename_i y300_0
  refine F.trans ?_ (State.updFault_kept F _ _)
  exact F.refl _

theorem State.updLink_kept (s : State) (x1) (x2) : R s (State.updLink s x1 x2) := by
  unfold State.updLink
  exact F.onChip (F.refl _)

theorem askLink_kept (s : State) (x1) (x2) : R s (askLink s x1 x2) := by
  unfold askLink
  refine F.trans ?_ (State.updLink_kept F _ _ _)
  exact F.refl _

theorem reinitPort_kept (s : State) (x1) : R s (reinitPort s x1) := by
  unfold reinitPort
  refine F.ite ?_ ?_
  · exact F.refl _
  · split
    · refine F.trans ?_ (askLink_kept F _ _ _)
      exact F.refl _
    · refine F.trans ?_ (askLink_kept F _ _ _)
      exact F.refl _
    · refine F.trans ?_ (askLink_kept F _ _ _)
      exact F.refl _
    · exact F.refl _

theorem creditFault_kept (s : State) (x1) : R s (creditFault s x1) := by
  unfold creditFault
  refine F.trans ?_ (reinitPort_kept F _ _)
  refine F.trans ?_ (State.raise_kept F _ _ _ _ _)
  exact F.refl _

theorem isolatePort_kept (s : State) (x1) : R s (isolatePort s x1) := by
  unfold isolatePort
  refine F.ite ?_ ?_
  · exact F.refl _
  · refine F.trans ?_ (askLink_kept F _ _ _)
    exact F.refl _

theorem startReplay_kept (s : State) (x1) (x2) (x3) : R s (startReplay s x1 x2 x3) := by
  unfold startReplay
  extract_lets; rename_i y300_0
  refine F.ite ?_ ?_
  · refine F.trans ?_ (isolatePort_kept F _ _)
    refine F.trans ?_ (State.event_kept F _ _ _ _)
    refine F.trans ?_ (State.raise_kept F _ _ _ _ _)
    exact F.refl _
  · refine F.trans ?_ (State.count_kept F _ _ _ _)
    refine F.trans ?_ (State.updLink_kept F _ _ _)
    exact F.refl _

theorem ackcrIn_kept (s : State) (x1) (x2) : R s (ackcrIn s x1 x2) := by
  unfold ackcrIn
  extract_lets; rename_i y300_0 y300_1 y300_2
  refine F.ite ?_ ?_
  · exact F.refl _
  · refine F.ite ?_ ?_
    · refine F.trans ?_ (State.raise_kept F _ _ _ _ _)
      refine F.trans ?_ (State.count_kept F _ _ _ _)
      exact F.refl _
    · refine F.ite ?_ ?_
      · refine F.trans ?_ (creditFault_kept F _ _)
        unfold y300_2
        refine F.trans ?_ (State.updLink_kept F _ _ _)
        exact F.refl _
      · refine F.ite ?_ ?_
        · refine F.trans ?_ (startReplay_kept F _ _ _ _)
          unfold y300_2
          refine F.trans ?_ (State.updLink_kept F _ _ _)
          exact F.refl _
        · unfold y300_2
          refine F.trans ?_ (State.updLink_kept F _ _ _)
          exact F.refl _

theorem State.updColl_kept (s : State) (x1) : R s (State.updColl s x1) := by
  unfold State.updColl
  exact F.onChip (F.refl _)

theorem logColl_kept (s : State) (x1) (x2) : R s (logColl s x1 x2) := by
  unfold logColl
  extract_lets; rename_i y300_0 y300_1
  refine F.trans ?_ (State.updColl_kept F _ _)
  exact F.refl _

theorem State.updRow_kept (s : State) (x1) (x2) : R s (State.updRow s x1 x2) := by
  unfold State.updRow
  refine F.trans ?_ (State.updColl_kept F _ _)
  exact F.refl _

theorem enterColl_kept (s : State) (x1) (x2) (x3) : R s (enterColl s x1 x2 x3) := by
  unfold enterColl
  refine F.trans ?_ (logColl_kept F _ _ _)
  refine F.trans ?_ (State.updRow_kept F _ _ _)
  exact F.refl _

theorem State.setReg_kept (s : State) (x1) (x2) (x3) : R s (State.setReg s x1 x2 x3) := by
  unfold State.setReg
  exact F.onChip (F.refl _)

theorem applyCollOpen_kept (s : State) (x1) (x2) : R s (applyCollOpen s x1 x2) := by
  unfold applyCollOpen
  refine F.trans ?_ (enterColl_kept F _ _ _ _)
  refine F.trans ?_ (State.updRow_kept F _ _ _)
  refine F.trans ?_ (State.setReg_kept F _ _ _ _)
  exact F.refl _

theorem endOp_kept (s : State) (x1) (x2) (x3) : R s (endOp s x1 x2 x3) := by
  unfold endOp
  extract_lets; rename_i y300_0 y300_1 y300_2 y300_3
  refine F.trans ?_ (finishEntry_kept F _ _ _ _ _ _)
  unfold y300_1
  refine F.ite ?_ ?_
  · refine F.trans ?_ (State.count_kept F _ _ _ _)
    unfold y300_0
    refine F.trans ?_ (State.updRow_kept F _ _ _)
    exact F.refl _
  · unfold y300_0
    refine F.trans ?_ (State.updRow_kept F _ _ _)
    exact F.refl _

theorem endOps_kept (s : State) (x1) (x2) : R s (endOps s x1 x2) := by
  unfold endOps
  refine F.forEach (fun t a => ?_) ?_
  · refine F.trans ?_ (endOp_kept F _ _ _ _)
    exact F.refl _
  · exact F.refl _

theorem applyCollClose_kept (s : State) (x1) (x2) : R s (applyCollClose s x1 x2) := by
  unfold applyCollClose
  extract_lets; rename_i y300_0 y300_1
  refine F.trans ?_ (State.setReg_kept F _ _ _ _)
  unfold y300_1
  refine F.trans ?_ (enterColl_kept F _ _ _ _)
  refine F.trans ?_ (State.updRow_kept F _ _ _)
  unfold y300_0
  refine F.trans ?_ (endOps_kept F _ _ _)
  exact F.refl _

theorem applyCollGroup_kept (s : State) (x1) (x2) : R s (applyCollGroup s x1 x2) := by
  unfold applyCollGroup
  refine F.ite ?_ ?_
  · refine F.trans ?_ (applyCollOpen_kept F _ _ _)
    exact F.refl _
  · refine F.trans ?_ (applyCollClose_kept F _ _ _)
    exact F.refl _

theorem applyEvring_kept (s : State) (x1) : R s (applyEvring s x1) := by
  unfold applyEvring
  refine F.trans ?_ (State.updSem_kept F _ _)
  exact F.refl _

theorem State.updClaim_kept (s : State) (x1) : R s (State.updClaim s x1) := by
  unfold State.updClaim
  exact F.onChip (F.refl _)

theorem updRow_kept (s : State) (x1) (x2) : R s (updRow s x1 x2) := by
  unfold updRow
  refine F.trans ?_ (State.updClaim_kept F _ _)
  exact F.refl _

theorem claimPend_kept (s : State) (x1) : R s (claimPend s x1) := by
  unfold claimPend
  refine F.ite ?_ ?_
  · exact F.refl _
  · extract_lets; rename_i y299_0 y299_1
    refine F.ite ?_ ?_
    · unfold y299_1
      refine F.trans ?_ (State.updClaim_kept F _ _)
      exact F.refl _
    · refine F.trans ?_ (State.count_kept F _ _ _ _)
      unfold y299_1
      refine F.trans ?_ (State.updClaim_kept F _ _)
      exact F.refl _

theorem applyClaimRow_kept (s : State) (x1) (x2) : R s (applyClaimRow s x1 x2) := by
  unfold applyClaimRow
  extract_lets; rename_i y300_0
  refine F.ite ?_ ?_
  · refine F.trans ?_ (claimPend_kept F _ _)
    unfold y300_0
    refine F.trans ?_ (updRow_kept F _ _ _)
    exact F.refl _
  · unfold y300_0
    refine F.trans ?_ (updRow_kept F _ _ _)
    exact F.refl _

theorem applyThreshold_kept (s : State) (x1) (x2) : R s (applyThreshold s x1 x2) := by
  unfold applyThreshold
  refine F.trans ?_ (State.updClaim_kept F _ _)
  exact F.refl _

theorem applyFaultNClear_kept (s : State) (x1) : R s (applyFaultNClear s x1) := by
  unfold applyFaultNClear
  refine F.ite ?_ ?_
  · refine F.trans ?_ (State.updFault_kept F _ _)
    exact F.refl _
  · exact F.refl _

theorem applyHistoryClear_kept (s : State) (x1) : R s (applyHistoryClear s x1) := by
  unfold applyHistoryClear
  refine F.ite ?_ ?_
  · refine F.trans ?_ (State.updFault_kept F _ _)
    exact F.refl _
  · exact F.refl _

theorem isolateDevice_kept (s : State) (x1) : R s (isolateDevice s x1) := by
  unfold isolateDevice
  refine F.ite ?_ ?_
  · exact F.refl _
  · refine F.trans ?_ (State.updFault_kept F _ _)
    exact F.refl _

theorem applyDeviceIsolate_kept (s : State) (x1) : R s (applyDeviceIsolate s x1) := by
  unfold applyDeviceIsolate
  refine F.ite ?_ ?_
  · refine F.trans ?_ (State.raise_kept F _ _ _ _ _)
    refine F.trans ?_ (isolateDevice_kept F _ _)
    exact F.refl _
  · exact F.refl _

theorem pushHistory_kept (s : State) (x1) : R s (pushHistory s x1) := by
  unfold pushHistory
  refine F.trans ?_ (State.event_kept F _ _ _ _)
  refine F.trans ?_ (State.updFault_kept F _ _)
  exact F.refl _

theorem noteState_kept (x0) (s : State) : R s (noteState x0 s) := by
  unfold noteState
  refine F.ite ?_ ?_
  · exact F.refl _
  · refine F.trans ?_ (pushHistory_kept F _ _)
    exact F.refl _

theorem releaseHeld_kept (s : State) : R s (releaseHeld s) := by
  unfold releaseHeld
  extract_lets; rename_i y300_0 y300_1
  refine F.forEach (fun t a => ?_) ?_
  · refine F.trans ?_ (State.emit_kept F _ _)
    refine F.trans ?_ (State.count_kept F _ _ _ _)
    exact F.refl _
  · exact F.onChip (F.refl _)

theorem State.updIn_kept (s : State) (x1) (x2) : R s (State.updIn s x1 x2) := by
  unfold State.updIn
  refine F.trans ?_ (State.updSw_kept F _ _)
  exact F.refl _

theorem resetInput_kept (s : State) (x1) : R s (resetInput s x1) := by
  unfold resetInput
  refine F.trans ?_ (State.updSw_kept F _ _)
  refine F.trans ?_ (State.updIn_kept F _ _ _)
  exact F.refl _

theorem State.updPkt_kept (s : State) (x1) (x2) : R s (State.updPkt s x1 x2) := by
  unfold State.updPkt
  refine F.trans ?_ (State.updSw_kept F _ _)
  exact F.refl _

theorem giveBack_kept (s : State) (x1) (x2) (x3) : R s (giveBack s x1 x2 x3) := by
  unfold giveBack
  refine F.ite ?_ ?_
  · extract_lets; rename_i y299_0
    refine F.trans ?_ (State.updLink_kept F _ _ _)
    refine F.trans ?_ (State.updIn_kept F _ _ _)
    exact F.refl _
  · exact F.refl _

theorem settle_kept (s : State) (x1) : R s (settle s x1) := by
  unfold settle
  split
  · exact F.refl _
  · extract_lets; rename_i y299_0 y299_1
    refine F.ite ?_ ?_
    · refine F.trans ?_ (State.updSw_kept F _ _)
      unfold y299_1
      refine F.trans ?_ (State.updPkt_kept F _ _ _)
      refine F.trans ?_ (giveBack_kept F _ _ _ _)
      exact F.refl _
    · unfold y299_1
      refine F.trans ?_ (State.updPkt_kept F _ _ _)
      refine F.trans ?_ (giveBack_kept F _ _ _ _)
      exact F.refl _

theorem benchEvent_kept (s : State) (x1) (x2) : R s (benchEvent s x1 x2) := by
  unfold benchEvent
  refine F.trans ?_ (State.event_kept F _ _ _ _)
  exact F.refl _

theorem traceDropped_kept (s : State) : R s (traceDropped s) := by
  unfold traceDropped
  extract_lets; rename_i y300_0 y300_1 y300_2
  refine F.trans ?_ (State.event_kept F _ _ _ _)
  refine F.trans ?_ (State.count_kept F _ _ _ _)
  exact F.onChip (F.refl _)

theorem traceWrite_kept (s : State) (x1) : R s (traceWrite s x1) := by
  unfold traceWrite
  extract_lets; rename_i y300_0 y300_1 y300_2 y300_3 y300_4
  refine F.ite ?_ ?_
  · refine F.trans ?_ (traceDropped_kept F _)
    refine F.trans ?_ (State.raise_kept F _ _ _ _ _)
    exact F.refl _
  · refine F.ite ?_ ?_
    · refine F.trans ?_ (traceDropped_kept F _)
      refine F.trans ?_ (State.raise_kept F _ _ _ _ _)
      exact F.refl _
    · refine F.ite ?_ ?_
      · refine F.trans ?_ (traceDropped_kept F _)
        exact F.refl _
      · refine F.trans ?_ (State.count_kept F _ _ _ _)
        exact F.onChip (F.refl _)

theorem tagDone_kept (s : State) (x1) (x2) : R s (tagDone s x1 x2) := by
  unfold tagDone
  refine F.ite ?_ ?_
  · refine F.trans ?_ (traceWrite_kept F _ _)
    exact F.refl _
  · exact F.refl _

theorem dropPkt_kept (s : State) (x1) : R s (dropPkt s x1) := by
  unfold dropPkt
  split
  · exact F.refl _
  · refine F.trans ?_ (settle_kept F _ _)
    refine F.trans ?_ (State.updPkt_kept F _ _ _)
    refine F.ite ?_ ?_
    · refine F.trans ?_ (tagDone_kept F _ _ _)
      exact F.refl _
    · exact F.refl _

theorem discardBad_kept (s : State) (x1) : R s (discardBad s x1) := by
  unfold discardBad
  refine F.trans ?_ (benchEvent_kept F _ _ _)
  refine F.trans ?_ (State.count_kept F _ _ _ _)
  refine F.trans ?_ (dropPkt_kept F _ _)
  exact F.refl _

theorem closeInput_kept (s : State) (x1) : R s (closeInput s x1) := by
  unfold closeInput
  split
  · exact F.refl _
  · extract_lets; rename_i y299_0 y299_1
    refine F.ite ?_ ?_
    · unfold y299_0
      refine F.trans ?_ (State.updLink_kept F _ _ _)
      exact F.refl _
    · split
      · unfold y299_1
        refine F.trans ?_ (State.updPkt_kept F _ _ _)
        unfold y299_0
        refine F.trans ?_ (State.updLink_kept F _ _ _)
        exact F.refl _
      · refine F.ite ?_ ?_
        · refine F.trans ?_ (settle_kept F _ _)
          refine F.trans ?_ (State.count_kept F _ _ _ _)
          unfold y299_1
          refine F.trans ?_ (State.updPkt_kept F _ _ _)
          unfold y299_0
          refine F.trans ?_ (State.updLink_kept F _ _ _)
          exact F.refl _
        · refine F.trans ?_ (discardBad_kept F _ _)
          unfold y299_1
          refine F.trans ?_ (State.updPkt_kept F _ _ _)
          unfold y299_0
          refine F.trans ?_ (State.updLink_kept F _ _ _)
          exact F.refl _

theorem advertise_kept (s : State) (x1) : R s (advertise s x1) := by
  unfold advertise
  refine F.trans ?_ (State.updIn_kept F _ _ _)
  exact F.refl _

theorem roleCheck_kept (s : State) (x1) (x2) : R s (roleCheck s x1 x2) := by
  unfold roleCheck
  refine F.ite ?_ ?_
  · refine F.trans ?_ (State.fire_kept F _ _)
    refine F.trans ?_ (State.raise_kept F _ _ _ _ _)
    refine F.trans ?_ (State.updIn_kept F _ _ _)
    exact F.refl _
  · exact F.refl _

theorem roleChecks_kept (s : State) (x1) : R s (roleChecks s x1) := by
  unfold roleChecks
  refine F.trans ?_ (roleCheck_kept F _ _ _)
  refine F.trans ?_ (roleCheck_kept F _ _ _)
  exact F.refl _

theorem switchEntered_kept (s : State) (x1) (x2) (x3) : R s (switchEntered s x1 x2 x3) := by
  unfold switchEntered
  split
  · refine F.trans ?_ (resetInput_kept F _ _)
    refine F.trans ?_ (closeInput_kept F _ _)
    exact F.refl _
  · refine F.trans ?_ (advertise_kept F _ _)
    refine F.trans ?_ (resetInput_kept F _ _)
    refine F.trans ?_ (closeInput_kept F _ _)
    exact F.refl _
  · refine F.trans ?_ (closeInput_kept F _ _)
    exact F.refl _
  · refine F.ite ?_ ?_
    · refine F.trans ?_ (roleChecks_kept F _ _)
      exact F.refl _
    · exact F.refl _
  · refine F.trans ?_ (State.updSw_kept F _ _)
    exact F.refl _
  · exact F.refl _

theorem linkEvents_kept (s : State) (x1) (x2) (x3) : R s (linkEvents s x1 x2 x3) := by
  unfold linkEvents
  extract_lets; rename_i y300_0
  split
  · refine F.trans ?_ (State.event_kept F _ _ _ _)
    unfold y300_0
    refine F.ite ?_ ?_
    · refine F.trans ?_ (State.event_kept F _ _ _ _)
      exact F.refl _
    · exact F.refl _
  · refine F.ite ?_ ?_
    · unfold y300_0
      refine F.ite ?_ ?_
      · refine F.trans ?_ (State.event_kept F _ _ _ _)
        exact F.refl _
      · exact F.refl _
    · refine F.trans ?_ (State.event_kept F _ _ _ _)
      unfold y300_0
      refine F.ite ?_ ?_
      · refine F.trans ?_ (State.event_kept F _ _ _ _)
        exact F.refl _
      · exact F.refl _
  · refine F.trans ?_ (State.event_kept F _ _ _ _)
    unfold y300_0
    refine F.ite ?_ ?_
    · refine F.trans ?_ (State.event_kept F _ _ _ _)
      exact F.refl _
    · exact F.refl _
  · refine F.trans ?_ (State.event_kept F _ _ _ _)
    unfold y300_0
    refine F.ite ?_ ?_
    · refine F.trans ?_ (State.event_kept F _ _ _ _)
      exact F.refl _
    · exact F.refl _
  · unfold y300_0
    refine F.ite ?_ ?_
    · refine F.trans ?_ (State.event_kept F _ _ _ _)
      exact F.refl _
    · exact F.refl _
  · refine F.trans ?_ (State.event_kept F _ _ _ _)
    unfold y300_0
    refine F.ite ?_ ?_
    · refine F.trans ?_ (State.event_kept F _ _ _ _)
      exact F.refl _
    · exact F.refl _

theorem exchangesStop_kept (s : State) (x1) (x2) : R s (exchangesStop s x1 x2) := by
  unfold exchangesStop
  refine F.ite ?_ ?_
  · refine F.trans ?_ (State.updTport_kept F _ _ _)
    exact F.refl _
  · exact F.refl _

theorem enterLink_kept (s : State) (x1) (x2) : R s (enterLink s x1 x2) := by
  unfold enterLink
  extract_lets; rename_i y300_0 y300_1
  refine F.ite ?_ ?_
  · refine F.trans ?_ (State.updLink_kept F _ _ _)
    exact F.refl _
  · refine F.trans ?_ (linkEvents_kept F _ _ _ _)
    refine F.trans ?_ (exchangesStop_kept F _ _ _)
    unfold y300_1
    refine F.trans ?_ (State.updLink_kept F _ _ _)
    refine F.trans ?_ (switchEntered_kept F _ _ _ _)
    exact F.refl _

theorem applyDeviceRelease_kept (s : State) (x1) : R s (applyDeviceRelease s x1) := by
  unfold applyDeviceRelease
  refine F.ite ?_ ?_
  · extract_lets; rename_i y299_0 y299_1 y299_2 y299_3
    refine F.trans ?_ (noteState_kept F _ _)
    refine F.trans ?_ (State.event_kept F _ _ _ _)
    refine F.forEach (fun t a => ?_) ?_
    · refine F.ite ?_ ?_
      · refine F.trans ?_ (enterLink_kept F _ _ _)
        exact F.refl _
      · exact F.refl _
    · refine F.trans ?_ (releaseHeld_kept F _)
      unfold y299_3
      refine F.onChip ?_
      unfold y299_1
      refine F.trans ?_ (State.updFault_kept F _ _)
      exact F.refl _
  · exact F.refl _

theorem notePortIsolated_kept (s : State) (x1) : R s (notePortIsolated s x1) := by
  unfold notePortIsolated
  refine F.trans ?_ (State.event_kept F _ _ _ _)
  refine F.trans ?_ (State.count_kept F _ _ _ _)
  exact F.refl _

theorem applyPortIsolate_kept (s : State) (x1) (x2) : R s (applyPortIsolate s x1 x2) := by
  unfold applyPortIsolate
  refine F.ite ?_ ?_
  · refine F.trans ?_ (State.raise_kept F _ _ _ _ _)
    refine F.trans ?_ (notePortIsolated_kept F _ _)
    refine F.ite ?_ ?_
    · exact F.refl _
    · refine F.trans ?_ (enterLink_kept F _ _ _)
      exact F.refl _
  · exact F.refl _

theorem applyInject_kept (s : State) (x1) : R s (applyInject s x1) := by
  unfold applyInject
  extract_lets; rename_i y300_0 y300_1
  exact F.onChip (F.refl _)

theorem State.updPwr_kept (s : State) (x1) : R s (State.updPwr s x1) := by
  unfold State.updPwr
  exact F.onChip (F.refl _)

theorem applyPwrReset_kept (s : State) (x1) : R s (applyPwrReset s x1) := by
  unfold applyPwrReset
  refine F.trans ?_ (State.updPwr_kept F _ _)
  exact F.refl _

theorem State.updLane_kept (s : State) (x1) (x2) : R s (State.updLane s x1 x2) := by
  unfold State.updLane
  exact F.onChip (F.refl _)

theorem State.setEye_kept (s : State) (x1) (x2) : R s (State.setEye s x1 x2) := by
  unfold State.setEye
  exact F.onChip (F.refl _)

theorem stopScan_kept (s : State) (x1) : R s (stopScan s x1) := by
  unfold stopScan
  extract_lets; rename_i y300_0
  refine F.ite ?_ ?_
  · refine F.trans ?_ (State.event_kept F _ _ _ _)
    refine F.trans ?_ (State.setEye_kept F _ _ _)
    exact F.refl _
  · exact F.refl _

theorem leftLine_kept (s : State) (x1) : R s (leftLine s x1) := by
  unfold leftLine
  extract_lets; rename_i y300_0
  refine F.ite ?_ ?_
  · unfold y300_0
    refine F.trans ?_ (stopScan_kept F _ _)
    refine F.trans ?_ (stopScan_kept F _ _)
    exact F.refl _
  · refine F.trans ?_ (askLink_kept F _ _ _)
    unfold y300_0
    refine F.trans ?_ (stopScan_kept F _ _)
    refine F.trans ?_ (stopScan_kept F _ _)
    exact F.refl _

theorem laneLeave_kept (s : State) (x1) (x2) (x3) : R s (laneLeave s x1 x2 x3) := by
  unfold laneLeave
  extract_lets; rename_i y300_0
  refine F.ite ?_ ?_
  · unfold y300_0
    refine F.ite ?_ ?_
    · refine F.trans ?_ (State.event_kept F _ _ _ _)
      exact F.refl _
    · exact F.refl _
  · refine F.trans ?_ (leftLine_kept F _ _)
    unfold y300_0
    refine F.ite ?_ ?_
    · refine F.trans ?_ (State.event_kept F _ _ _ _)
      exact F.refl _
    · exact F.refl _

theorem laneEnter_kept (s : State) (x1) (x2) : R s (laneEnter s x1 x2) := by
  unfold laneEnter
  extract_lets; rename_i y300_0 y300_1 y300_2
  refine F.ite ?_ ?_
  · exact F.refl _
  · split
    · refine F.ite ?_ ?_
      · refine F.trans ?_ (askLink_kept F _ _ _)
        unfold y300_2
        refine F.trans ?_ (State.event_kept F _ _ _ _)
        unfold y300_1
        refine F.trans ?_ (laneLeave_kept F _ _ _ _)
        refine F.trans ?_ (State.updLane_kept F _ _ _)
        exact F.refl _
      · unfold y300_2
        refine F.trans ?_ (State.event_kept F _ _ _ _)
        unfold y300_1
        refine F.trans ?_ (laneLeave_kept F _ _ _ _)
        refine F.trans ?_ (State.updLane_kept F _ _ _)
        exact F.refl _
    · refine F.trans ?_ (State.event_kept F _ _ _ _)
      unfold y300_1
      refine F.trans ?_ (laneLeave_kept F _ _ _ _)
      refine F.trans ?_ (State.updLane_kept F _ _ _)
      exact F.refl _
    · refine F.trans ?_ (State.count_kept F _ _ _ _)
      refine F.trans ?_ (State.event_kept F _ _ _ _)
      unfold y300_1
      refine F.trans ?_ (laneLeave_kept F _ _ _ _)
      refine F.trans ?_ (State.updLane_kept F _ _ _)
      exact F.refl _
    · unfold y300_1
      refine F.trans ?_ (laneLeave_kept F _ _ _ _)
      refine F.trans ?_ (State.updLane_kept F _ _ _)
      exact F.refl _

theorem wakePort_kept (s : State) (x1) (x2) : R s (wakePort s x1 x2) := by
  unfold wakePort
  refine F.ite ?_ ?_
  · refine F.trans ?_ (State.count_kept F _ _ _ _)
    refine F.trans ?_ (State.event_kept F _ _ _ _)
    refine F.trans ?_ (State.count_kept F _ _ _ _)
    refine F.trans ?_ (State.updLane_kept F _ _ _)
    refine F.trans ?_ (laneEnter_kept F _ _ _)
    exact F.refl _
  · exact F.refl _

theorem applyDepart_kept (s : State) (x1) : R s (applyDepart s x1) := by
  unfold applyDepart
  refine F.ite ?_ ?_
  · refine F.trans ?_ (State.updPwr_kept F _ _)
    exact F.refl _
  · exact F.refl _

theorem State.updSec_kept (s : State) (x1) : R s (State.updSec s x1) := by
  unfold State.updSec
  exact F.onChip (F.refl _)

theorem applyNonce_kept (s : State) (x1) : R s (applyNonce s x1) := by
  unfold applyNonce
  refine F.trans ?_ (State.updSec_kept F _ _)
  exact F.refl _

theorem stageBegin_kept (s : State) : R s (stageBegin s) := by
  unfold stageBegin
  refine F.trans ?_ (State.updSec_kept F _ _)
  exact F.refl _

theorem stageManifest_kept (s : State) : R s (stageManifest s) := by
  unfold stageManifest
  extract_lets; rename_i y300_0
  refine F.ite ?_ ?_
  · refine F.trans ?_ (State.count_kept F _ _ _ _)
    refine F.trans ?_ (State.updSec_kept F _ _)
    exact F.refl _
  · refine F.trans ?_ (State.event_kept F _ _ _ _)
    refine F.trans ?_ (State.raise_kept F _ _ _ _ _)
    refine F.trans ?_ (State.count_kept F _ _ _ _)
    refine F.trans ?_ (State.updSec_kept F _ _)
    exact F.refl _

theorem stageAbort_kept (s : State) : R s (stageAbort s) := by
  unfold stageAbort
  refine F.trans ?_ (State.updSec_kept F _ _)
  exact F.refl _

theorem applyStageCtl_kept (s : State) (x1) : R s (applyStageCtl s x1) := by
  unfold applyStageCtl
  split
  · refine F.trans ?_ (stageBegin_kept F _)
    exact F.refl _
  · refine F.trans ?_ (stageManifest_kept F _)
    exact F.refl _
  · refine F.trans ?_ (stageAbort_kept F _)
    exact F.refl _

theorem applyStageRow_kept (s : State) (x1) (x2) : R s (applyStageRow s x1 x2) := by
  unfold applyStageRow
  refine F.trans ?_ (State.count_kept F _ _ _ _)
  refine F.trans ?_ (State.updSec_kept F _ _)
  exact F.refl _

theorem applyChunkDone_kept (s : State) (x1) : R s (applyChunkDone s x1) := by
  unfold applyChunkDone
  refine F.trans ?_ (State.updSec_kept F _ _)
  exact F.refl _

theorem applyCntCtl_kept (s : State) (x1) (x2) : R s (applyCntCtl s x1 x2) := by
  unfold applyCntCtl
  extract_lets; rename_i y300_0 y300_1 y300_2
  exact F.onChip (F.refl _)

theorem applyCntValue_kept (s : State) (x1) (x2) : R s (applyCntValue s x1 x2) := by
  unfold applyCntValue
  extract_lets; rename_i y300_0 y300_1
  exact F.onChip (F.refl _)

theorem takeSnapshot_kept (s : State) : R s (takeSnapshot s) := by
  refine F.after (State.count_kept F _ _ _ _) (F.after (State.fire_kept F _ _) ?_)
  have h := F.upd s (fun t => { t with snapStitch := t.count, snapGrade := t.st.code, snapSeq := (t.snapSeq + 1) % 2 ^ 32 }) fun _ => ⟨rfl, rfl, rfl⟩
  exact F.trans h (F.of rfl rfl)

theorem applyTraceConsumer_kept (s : State) (x1) : R s (applyTraceConsumer s x1) := by
  unfold applyTraceConsumer
  extract_lets; rename_i y300_0 y300_1 y300_2
  refine F.ite ?_ ?_
  · exact F.onChip (F.refl _)
  · refine F.trans ?_ (State.count_kept F _ _ _ _)
    exact F.refl _

theorem actHigh_kept (s : State) (x1) (x2) (x3) (x4) : OKeeps R s (actHigh s x1 x2 x3 x4) := by
  unfold actHigh
  split
  · refine F.oSome ?_
    refine F.trans ?_ (applyCollGroup_kept F _ _ _)
    exact F.refl _
  · refine F.oSome ?_
    refine F.trans ?_ (applyEvring_kept F _ _)
    refine F.trans ?_ (State.setReg_kept F _ _ _ _)
    exact F.refl _
  · refine F.oSome ?_
    refine F.trans ?_ (applyClaimRow_kept F _ _ _)
    exact F.refl _
  · refine F.oSome ?_
    refine F.trans ?_ (applyThreshold_kept F _ _ _)
    exact F.refl _
  · refine F.oSome ?_
    refine F.trans ?_ (applyFaultNClear_kept F _ _)
    exact F.refl _
  · refine F.oSome ?_
    refine F.trans ?_ (applyHistoryClear_kept F _ _)
    exact F.refl _
  · refine F.oSome ?_
    refine F.trans ?_ (applyDeviceIsolate_kept F _ _)
    exact F.refl _
  · refine F.oSome ?_
    refine F.trans ?_ (applyDeviceRelease_kept F _ _)
    exact F.refl _
  · refine F.oSome ?_
    refine F.trans ?_ (applyPortIsolate_kept F _ _ _)
    exact F.refl _
  · refine F.oSome ?_
    refine F.trans ?_ (applyInject_kept F _ _)
    exact F.refl _
  · refine F.oSome ?_
    refine F.trans ?_ (applyPwrReset_kept F _ _)
    exact F.refl _
  · refine F.oSome ?_
    refine F.ite ?_ ?_
    · refine F.trans ?_ (wakePort_kept F _ _ _)
      exact F.refl _
    · exact F.refl _
  · refine F.oSome ?_
    refine F.trans ?_ (applyDepart_kept F _ _)
    exact F.refl _
  · refine F.oSome ?_
    refine F.trans ?_ (applyNonce_kept F _ _)
    exact F.refl _
  · refine F.oSome ?_
    refine F.trans ?_ (applyStageCtl_kept F _ _)
    exact F.refl _
  · refine F.oSome ?_
    refine F.trans ?_ (applyStageRow_kept F _ _ _)
    exact F.refl _
  · refine F.oSome ?_
    refine F.trans ?_ (applyChunkDone_kept F _ _)
    exact F.refl _
  · refine F.oSome ?_
    refine F.trans ?_ (applyCntCtl_kept F _ _ _)
    exact F.refl _
  · refine F.oSome ?_
    refine F.trans ?_ (applyCntValue_kept F _ _ _)
    exact F.refl _
  · refine F.oSome ?_
    refine F.ite ?_ ?_
    · refine F.trans ?_ (takeSnapshot_kept F _)
      exact F.refl _
    · exact F.refl _
  · refine F.oSome ?_
    refine F.trans ?_ (applyTraceConsumer_kept F _ _)
    exact F.refl _
  · exact F.oNone _

theorem applyMReset_kept (s : State) (x1) : R s (applyMReset s x1) := by
  unfold applyMReset
  refine F.ite ?_ ?_
  · refine F.trans ?_ (State.updCtl_kept F _ _)
    exact F.refl _
  · exact F.refl _

theorem missActions_kept (s : State) (x1) : R s (missActions s x1) := by
  unfold missActions
  refine F.forEach (fun t a => ?_) ?_
  · refine F.ite ?_ ?_
    · refine F.trans ?_ (State.fire_kept F _ _)
      refine F.trans ?_ (State.raise_kept F _ _ _ _ _)
      refine F.trans ?_ (F.upd _ _ fun _ => ⟨rfl, rfl, rfl⟩)
      exact F.refl _
    · exact F.refl _
  · exact F.refl _

theorem lostPort_kept (s : State) (x1) : R s (lostPort s x1) := by
  unfold lostPort
  split
  · refine F.trans ?_ (enterLink_kept F _ _ _)
    exact F.refl _
  · refine F.trans ?_ (State.updLink_kept F _ _ _)
    exact F.refl _
  · exact F.refl _

theorem appointMaster_kept (s : State) : R s (appointMaster s) := F.appointMaster s

theorem setParent_kept (s : State) (x1) : R s (setParent s x1) := by
  unfold setParent
  extract_lets; rename_i y300_0
  refine F.ite ?_ ?_
  · unfold y300_0
    refine F.trans ?_ (F.upd _ _ fun _ => ⟨rfl, rfl, rfl⟩)
    exact F.refl _
  · refine F.trans ?_ (State.fire_kept F _ _)
    refine F.trans ?_ (F.upd _ _ fun _ => ⟨rfl, rfl, rfl⟩)
    unfold y300_0
    refine F.trans ?_ (F.upd _ _ fun _ => ⟨rfl, rfl, rfl⟩)
    exact F.refl _

theorem parentChoice_kept (s : State) (x1) : R s (parentChoice s x1) := by
  unfold parentChoice
  refine F.ite ?_ ?_
  · exact F.refl _
  · split
    · split
      · exact F.refl _
      · refine F.trans ?_ (setParent_kept F _ _)
        exact F.refl _
    · refine F.ite ?_ ?_
      · refine F.trans ?_ (setParent_kept F _ _)
        refine F.trans ?_ (State.raise_kept F _ _ _ _ _)
        refine F.trans ?_ (F.upd _ _ fun _ => ⟨rfl, rfl, rfl⟩)
        exact F.refl _
      · refine F.trans ?_ (setParent_kept F _ _)
        exact F.refl _

theorem applyTimeRole_kept (s : State) (v : Nat) : R s (applyTimeRole s v) := by
  unfold applyTimeRole
  refine F.ite (appointMaster_kept F _) (F.demote _ _ ?_)
  split
  · exact .inr rfl
  · exact .inl rfl

theorem applyTimeIn_kept (s : State) (x1) : R s (applyTimeIn s x1) := by
  unfold applyTimeIn
  refine F.trans ?_ (F.upd _ _ fun _ => ⟨rfl, rfl, rfl⟩)
  refine F.trans ?_ (State.setReg_kept F _ _ _ _)
  exact F.refl _

theorem writeAction_kept (s : State) (x1) (x2) : R s (writeAction s x1 x2) := by
  unfold writeAction
  extract_lets; rename_i y300_0 y300_1 y300_2
  refine F.ite ?_ ?_
  · refine F.ite ?_ ?_
    · refine F.trans ?_ (F.upd _ _ fun _ => ⟨rfl, rfl, rfl⟩)
      exact F.refl _
    · exact F.refl _
  · refine F.ite ?_ ?_
    · refine F.trans ?_ (F.upd _ _ fun _ => ⟨rfl, rfl, rfl⟩)
      exact F.refl _
    · refine F.trans ?_ (State.fire_kept F _ _)
      refine F.trans ?_ (State.raise_kept F _ _ _ _ _)
      refine F.trans ?_ (F.upd _ _ fun _ => ⟨rfl, rfl, rfl⟩)
      exact F.refl _

theorem laneStart_kept (s : State) (x1) : R s (laneStart s x1) := by
  unfold laneStart
  refine F.ite ?_ ?_
  · refine F.trans ?_ (laneEnter_kept F _ _ _)
    exact F.refl _
  · exact F.refl _

theorem benchStart_kept (s : State) (x1) : R s (benchStart s x1) := by
  unfold benchStart
  refine F.ite ?_ ?_
  · exact F.onChip (F.refl _)
  · exact F.refl _

theorem applyLaneEnable_kept (s : State) (x1) (x2) : R s (applyLaneEnable s x1 x2) := by
  unfold applyLaneEnable
  extract_lets; rename_i y300_0
  refine F.ite ?_ ?_
  · refine F.trans ?_ (laneEnter_kept F _ _ _)
    unfold y300_0
    refine F.trans ?_ (State.setReg_kept F _ _ _ _)
    exact F.refl _
  · refine F.trans ?_ (laneStart_kept F _ _)
    refine F.trans ?_ (benchStart_kept F _ _)
    unfold y300_0
    refine F.trans ?_ (State.setReg_kept F _ _ _ _)
    exact F.refl _

theorem State.updLasts_kept (s : State) (x1) : R s (State.updLasts s x1) := by
  unfold State.updLasts
  exact F.onChip (F.refl _)

theorem State.updLast_kept (s : State) (x1) (x2) : R s (State.updLast s x1 x2) := by
  unfold State.updLast
  refine F.trans ?_ (State.updLasts_kept F _ _)
  exact F.refl _

theorem breakDue_kept (s : State) (x1) (x2) (x3) : R s (breakDue s x1 x2 x3) := by
  unfold breakDue
  refine F.trans ?_ (State.updLast_kept F _ _ _)
  exact F.refl _

theorem shiftChanged_kept (s : State) (x1) (x2) (x3) : R s (shiftChanged s x1 x2 x3) := by
  unfold shiftChanged
  extract_lets; rename_i y300_0 y300_1 y300_2 y300_3 y300_4
  refine F.ite ?_ ?_
  · refine F.trans ?_ (State.raise_kept F _ _ _ _ _)
    unfold y300_4
    refine F.forEach (fun t a => ?_) ?_
    · refine F.ite ?_ ?_
      · refine F.ite ?_ ?_
        · refine F.trans ?_ (breakDue_kept F _ _ _ _)
          exact F.refl _
        · exact F.refl _
      · extract_lets; rename_i y294_0 y294_1
        refine F.ite ?_ ?_
        · refine F.trans ?_ (breakDue_kept F _ _ _ _)
          unfold y294_1
          refine F.trans ?_ (State.updLast_kept F _ _ _)
          exact F.refl _
        · unfold y294_1
          refine F.trans ?_ (State.updLast_kept F _ _ _)
          exact F.refl _
    · unfold y300_1
      refine F.trans ?_ (State.updLasts_kept F _ _)
      exact F.refl _
  · unfold y300_4
    refine F.forEach (fun t a => ?_) ?_
    · refine F.ite ?_ ?_
      · refine F.ite ?_ ?_
        · refine F.trans ?_ (breakDue_kept F _ _ _ _)
          exact F.refl _
        · exact F.refl _
      · extract_lets; rename_i y295_0 y295_1
        refine F.ite ?_ ?_
        · refine F.trans ?_ (breakDue_kept F _ _ _ _)
          unfold y295_1
          refine F.trans ?_ (State.updLast_kept F _ _ _)
          exact F.refl _
        · unfold y295_1
          refine F.trans ?_ (State.updLast_kept F _ _ _)
          exact F.refl _
    · unfold y300_1
      refine F.trans ?_ (State.updLasts_kept F _ _)
      exact F.refl _

theorem applyFecMode_kept (s : State) (x1) (x2) : R s (applyFecMode s x1 x2) := by
  unfold applyFecMode
  refine F.ite ?_ ?_
  · exact F.refl _
  · extract_lets; rename_i y299_0
    split
    · refine F.trans ?_ (shiftChanged_kept F _ _ _ _)
      unfold y299_0
      refine F.trans ?_ (State.updLane_kept F _ _ _)
      refine F.trans ?_ (State.setReg_kept F _ _ _ _)
      exact F.refl _
    · unfold y299_0
      refine F.trans ?_ (State.updLane_kept F _ _ _)
      refine F.trans ?_ (State.setReg_kept F _ _ _ _)
      exact F.refl _

theorem applyLoopback_kept (s : State) (x1) (x2) : R s (applyLoopback s x1 x2) := by
  unfold applyLoopback
  extract_lets; rename_i y300_0
  refine F.ite ?_ ?_
  · refine F.trans ?_ (laneEnter_kept F _ _ _)
    unfold y300_0
    refine F.trans ?_ (State.setReg_kept F _ _ _ _)
    exact F.refl _
  · refine F.ite ?_ ?_
    · refine F.trans ?_ (laneEnter_kept F _ _ _)
      unfold y300_0
      refine F.trans ?_ (State.setReg_kept F _ _ _ _)
      exact F.refl _
    · unfold y300_0
      refine F.trans ?_ (State.setReg_kept F _ _ _ _)
      exact F.refl _

theorem applyEye_kept (s : State) (x1) (x2) : R s (applyEye s x1 x2) := by
  unfold applyEye
  extract_lets; rename_i y300_0 y300_1 y300_2
  refine F.trans ?_ (State.setEye_kept F _ _ _)
  exact F.refl _

theorem admitPort_kept (s : State) (x1) (x2) : R s (admitPort s x1 x2) := by
  unfold admitPort
  split
  · refine F.ite ?_ ?_
    · refine F.trans ?_ (enterLink_kept F _ _ _)
      exact F.refl _
    · exact F.refl _
  · refine F.ite ?_ ?_
    · exact F.refl _
    · refine F.trans ?_ (enterLink_kept F _ _ _)
      exact F.refl _
  · refine F.trans ?_ (State.updLink_kept F _ _ _)
    exact F.refl _
  · exact F.refl _

theorem applyReinit_kept (s : State) (x1) (x2) : R s (applyReinit s x1 x2) := by
  unfold applyReinit
  refine F.ite ?_ ?_
  · refine F.trans ?_ (enterLink_kept F _ _ _)
    exact F.refl _
  · exact F.refl _

theorem bankSwitch_kept (s : State) (x1) : R s (bankSwitch s x1) := by
  unfold bankSwitch
  refine F.ite ?_ ?_
  · exact F.refl _
  · extract_lets; rename_i y299_0
    refine F.trans ?_ (State.fire_kept F _ _)
    refine F.forEach (fun t a => ?_) ?_
    · split
      · refine F.trans ?_ (roleChecks_kept F _ _)
        exact F.refl _
      · refine F.trans ?_ (roleChecks_kept F _ _)
        exact F.refl _
      · refine F.trans ?_ (roleChecks_kept F _ _)
        exact F.refl _
      · exact F.refl _
    · unfold y299_0
      refine F.trans ?_ (State.updSw_kept F _ _)
      refine F.trans ?_ (State.setReg_kept F _ _ _ _)
      exact F.refl _

theorem applyRole_kept (s : State) (x1) (x2) (x3) : R s (applyRole s x1 x2 x3) := by
  unfold applyRole
  extract_lets; rename_i y300_0
  split
  · refine F.trans ?_ (roleCheck_kept F _ _ _)
    unfold y300_0
    refine F.trans ?_ (State.updIn_kept F _ _ _)
    refine F.trans ?_ (State.setReg_kept F _ _ _ _)
    exact F.refl _
  · refine F.trans ?_ (roleCheck_kept F _ _ _)
    unfold y300_0
    refine F.trans ?_ (State.updIn_kept F _ _ _)
    refine F.trans ?_ (State.setReg_kept F _ _ _ _)
    exact F.refl _
  · refine F.trans ?_ (roleCheck_kept F _ _ _)
    unfold y300_0
    refine F.trans ?_ (State.updIn_kept F _ _ _)
    refine F.trans ?_ (State.setReg_kept F _ _ _ _)
    exact F.refl _
  · unfold y300_0
    refine F.trans ?_ (State.updIn_kept F _ _ _)
    refine F.trans ?_ (State.setReg_kept F _ _ _ _)
    exact F.refl _

theorem State.updCup_kept (s : State) (x1) : R s (State.updCup s x1) := by
  unfold State.updCup
  refine F.trans ?_ (State.updSw_kept F _ _)
  exact F.refl _

theorem applyCupRing_kept (s : State) (x1) (x2) : R s (applyCupRing s x1 x2) := by
  unfold applyCupRing
  refine F.trans ?_ (State.updCup_kept F _ _)
  refine F.trans ?_ (State.setReg_kept F _ _ _ _)
  refine F.trans ?_ (State.setReg_kept F _ _ _ _)
  exact F.refl _

theorem logLast_kept (s : State) (x1) (x2) (x3) : R s (logLast s x1 x2 x3) := by
  unfold logLast
  extract_lets; rename_i y300_0
  refine F.trans ?_ (State.updLasts_kept F _ _)
  exact F.refl _

theorem applyLastOpen_kept (s : State) (x1) (x2) : R s (applyLastOpen s x1 x2) := by
  unfold applyLastOpen
  refine F.trans ?_ (logLast_kept F _ _ _ _)
  refine F.trans ?_ (State.updLast_kept F _ _ _)
  exact F.refl _

theorem chunkLost_kept (s : State) (x1) : R s (chunkLost s x1) := by
  unfold chunkLost
  refine F.trans ?_ (State.fire_kept F _ _)
  refine F.trans ?_ (State.count_kept F _ _ _ _)
  exact F.refl _

theorem State.updRing_kept (s : State) (x1) (x2) : R s (State.updRing s x1 x2) := by
  unfold State.updRing
  refine F.trans ?_ (State.updLasts_kept F _ _)
  exact F.refl _

theorem writeRecord_kept (s : State) (x1) (x2) (x3) : R s (writeRecord s x1 x2 x3).1 := by
  unfold writeRecord
  extract_lets; rename_i y300_0 y300_1 y300_2 y300_3 y300_4
  split
  · refine F.pair ?_
    exact F.refl _
  · refine F.pair ?_
    refine F.ite ?_ ?_
    · refine F.trans ?_ (State.updRing_kept F _ _ _)
      unfold y300_4
      refine F.trans ?_ (hostWrite_kept F _ _ _ _)
      exact F.refl _
    · unfold y300_4
      refine F.trans ?_ (hostWrite_kept F _ _ _ _)
      exact F.refl _

theorem writeSignal_kept (s : State) (x1) (x2) (x3) : R s (writeSignal s x1 x2 x3) := by
  unfold writeSignal
  refine F.trans ?_ (writeRecord_kept F _ _ _ _)
  exact F.refl _

theorem sendSignal_kept (s : State) (x1) (x2) (x3) : R s (sendSignal s x1 x2 x3) := by
  unfold sendSignal
  extract_lets; rename_i y300_0 y300_1
  refine F.ite ?_ ?_
  · refine F.trans ?_ (State.updLast_kept F _ _ _)
    exact F.refl _
  · refine F.ite ?_ ?_
    · refine F.trans ?_ (writeSignal_kept F _ _ _ _)
      exact F.refl _
    · refine F.trans ?_ (State.updLasts_kept F _ _)
      exact F.refl _

theorem wrapDrop_kept (s : State) (x1) : R s (wrapDrop s x1) := by
  unfold wrapDrop
  extract_lets; rename_i y300_0
  refine F.ite ?_ ?_
  · unfold y300_0
    refine F.trans ?_ (chunkLost_kept F _ _)
    exact F.refl _
  · refine F.trans ?_ (sendSignal_kept F _ _ _ _)
    unfold y300_0
    refine F.trans ?_ (chunkLost_kept F _ _)
    exact F.refl _

theorem noteWrapStore_kept (s : State) : R s (noteWrapStore s) := by
  unfold noteWrapStore
  extract_lets; rename_i y300_0 y300_1
  refine F.ite ?_ ?_
  · refine F.trans ?_ (State.fire_kept F _ _)
    unfold y300_1
    refine F.trans ?_ (State.updLasts_kept F _ _)
    exact F.refl _
  · unfold y300_1
    refine F.trans ?_ (State.updLasts_kept F _ _)
    exact F.refl _

theorem holdPkt_kept (s : State) (x1) : R s (holdPkt s x1) := by
  unfold holdPkt
  refine F.trans ?_ (State.updSw_kept F _ _)
  exact F.refl _

theorem holdOwn_kept (s : State) (x1) (x2) (x3) (x4) (x5) : R s (holdOwn s x1 x2 x3 x4 x5) := by
  unfold holdOwn
  extract_lets; rename_i y300_0
  refine F.trans ?_ (holdPkt_kept F _ _)
  exact F.refl _

theorem flushWrap_kept (s : State) (x1) : R s (flushWrap s x1) := by
  unfold flushWrap
  extract_lets; rename_i y300_0
  refine F.ite ?_ ?_
  · exact F.refl _
  · refine F.trans ?_ (noteWrapStore_kept F _)
    refine F.trans ?_ (State.count_kept F _ _ _ _)
    refine F.trans ?_ (State.updLast_kept F _ _ _)
    refine F.trans ?_ (holdOwn_kept F _ _ _ _ _ _)
    exact F.refl _

theorem wrapChunk_kept (s : State) (x1) (x2) (x3) : R s (wrapChunk s x1 x2 x3) := by
  unfold wrapChunk
  extract_lets; rename_i y300_0 y300_1 y300_2
  refine F.ite ?_ ?_
  · refine F.trans ?_ (wrapDrop_kept F _ _)
    exact F.refl _
  · refine F.ite ?_ ?_
    · refine F.trans ?_ (State.raise_kept F _ _ _ _ _)
      refine F.trans ?_ (chunkLost_kept F _ _)
      unfold y300_1
      refine F.ite ?_ ?_
      · exact F.refl _
      · refine F.trans ?_ (flushWrap_kept F _ _)
        exact F.refl _
    · refine F.ite ?_ ?_
      · refine F.trans ?_ (flushWrap_kept F _ _)
        unfold y300_2
        refine F.trans ?_ (State.count_kept F _ _ _ _)
        refine F.trans ?_ (State.updLast_kept F _ _ _)
        unfold y300_1
        refine F.ite ?_ ?_
        · exact F.refl _
        · refine F.trans ?_ (flushWrap_kept F _ _)
          exact F.refl _
      · refine F.trans ?_ (noteWrapStore_kept F _)
        unfold y300_2
        refine F.trans ?_ (State.count_kept F _ _ _ _)
        refine F.trans ?_ (State.updLast_kept F _ _ _)
        unfold y300_1
        refine F.ite ?_ ?_
        · exact F.refl _
        · refine F.trans ?_ (flushWrap_kept F _ _)
          exact F.refl _

theorem wrapQueue_kept (s : State) (x1) : R s (wrapQueue s x1) := by
  unfold wrapQueue
  extract_lets; rename_i y300_0
  split
  · refine F.forEach (fun t a => ?_) ?_
    · refine F.trans ?_ (wrapChunk_kept F _ _ _ _)
      exact F.refl _
    · refine F.trans ?_ (State.updLast_kept F _ _ _)
      exact F.refl _
  · exact F.refl _

theorem enterLast_kept (s : State) (x1) (x2) (x3) : R s (enterLast s x1 x2 x3) := by
  unfold enterLast
  refine F.trans ?_ (logLast_kept F _ _ _ _)
  refine F.trans ?_ (State.updLast_kept F _ _ _)
  exact F.refl _

theorem applyLastClose_kept (s : State) (x1) (x2) : R s (applyLastClose s x1 x2) := by
  unfold applyLastClose
  extract_lets; rename_i y300_0
  split
  · refine F.trans ?_ (logLast_kept F _ _ _ _)
    refine F.trans ?_ (State.updLast_kept F _ _ _)
    exact F.refl _
  · refine F.trans ?_ (logLast_kept F _ _ _ _)
    refine F.trans ?_ (State.updLast_kept F _ _ _)
    exact F.refl _
  · refine F.trans ?_ (wrapQueue_kept F _ _)
    refine F.trans ?_ (enterLast_kept F _ _ _ _)
    refine F.trans ?_ (State.updLast_kept F _ _ _)
    exact F.refl _
  · refine F.trans ?_ (wrapQueue_kept F _ _)
    refine F.trans ?_ (enterLast_kept F _ _ _ _)
    refine F.trans ?_ (State.updLast_kept F _ _ _)
    exact F.refl _
  · refine F.trans ?_ (wrapQueue_kept F _ _)
    refine F.trans ?_ (enterLast_kept F _ _ _ _)
    refine F.trans ?_ (State.updLast_kept F _ _ _)
    exact F.refl _
  · refine F.trans ?_ (wrapQueue_kept F _ _)
    refine F.trans ?_ (enterLast_kept F _ _ _ _)
    refine F.trans ?_ (State.updLast_kept F _ _ _)
    exact F.refl _
  · refine F.trans ?_ (State.updLast_kept F _ _ _)
    exact F.refl _
  · exact F.refl _

theorem applyLastEntry_kept (s : State) (x1) (x2) : R s (applyLastEntry s x1 x2) := by
  unfold applyLastEntry
  refine F.ite ?_ ?_
  · refine F.trans ?_ (applyLastOpen_kept F _ _ _)
    exact F.refl _
  · refine F.trans ?_ (applyLastClose_kept F _ _ _)
    exact F.refl _

theorem applyRing_kept (s : State) (x1) (x2) : R s (applyRing s x1 x2) := by
  unfold applyRing
  refine F.trans ?_ (State.updRing_kept F _ _ _)
  refine F.trans ?_ (State.setReg_kept F _ _ _ _)
  exact F.refl _

theorem State.updModule_kept (s : State) (x1) (x2) : R s (State.updModule s x1 x2) := by
  unfold State.updModule
  refine F.trans ?_ (State.updHost_kept F _ _)
  exact F.refl _

theorem moduleReset_kept (s : State) (x1) : R s (moduleReset s x1) := by
  unfold moduleReset
  refine F.ite ?_ ?_
  · exact F.refl _
  · refine F.trans ?_ (State.event_kept F _ _ _ _)
    refine F.trans ?_ (State.updModule_kept F _ _ _)
    exact F.refl _

theorem applyModuleEnable_kept (s : State) (x1) (x2) : R s (applyModuleEnable s x1 x2) := by
  unfold applyModuleEnable
  extract_lets; rename_i y300_0
  refine F.ite ?_ ?_
  · refine F.trans ?_ (moduleReset_kept F _ _)
    unfold y300_0
    refine F.trans ?_ (State.setReg_kept F _ _ _ _)
    exact F.refl _
  · unfold y300_0
    refine F.trans ?_ (State.setReg_kept F _ _ _ _)
    exact F.refl _

theorem storeEnters_kept (s : State) (x1) : R s (storeEnters s x1) := by
  unfold storeEnters
  refine F.trans ?_ (State.event_kept F _ _ _ _)
  refine F.trans ?_ (State.updHost_kept F _ _)
  exact F.refl _

theorem applyGive_kept (s : State) : R s (applyGive s) := by
  unfold applyGive
  extract_lets; rename_i y300_0
  refine F.trans ?_ (storeEnters_kept F _ _)
  refine F.trans ?_ (State.updQueues_kept F _ _)
  unfold y300_0
  refine F.trans ?_ (State.updHost_kept F _ _)
  exact F.refl _

theorem applyStoreCtl_kept (s : State) (x1) : R s (applyStoreCtl s x1) := by
  unfold applyStoreCtl
  refine F.ite ?_ ?_
  · refine F.trans ?_ (applyGive_kept F _)
    exact F.refl _
  · refine F.trans ?_ (storeEnters_kept F _ _)
    exact F.refl _

theorem applyDeviceRegion_kept (s : State) (x1) (x2) : R s (applyDeviceRegion s x1 x2) := by
  unfold applyDeviceRegion
  refine F.trans ?_ (State.updTrans_kept F _ _)
  refine F.trans ?_ (State.setReg_kept F _ _ _ _)
  exact F.refl _

theorem actLow_kept (s : State) (x1) (x2) (x3) : OKeeps R s (actLow s x1 x2 x3) := by
  unfold actLow
  split
  · refine F.oSome ?_
    refine F.trans ?_ (applyMReset_kept F _ _)
    exact F.refl _
  · refine F.oSome ?_
    refine F.trans ?_ (applyTimeRole_kept F _ _)
    exact F.refl _
  · refine F.oSome ?_
    refine F.trans ?_ (applyTimeIn_kept F _ _)
    exact F.refl _
  · refine F.oSome ?_
    refine F.trans ?_ (writeAction_kept F _ _ _)
    exact F.refl _
  · refine F.oSome ?_
    refine F.trans ?_ (applyLaneEnable_kept F _ _ _)
    exact F.refl _
  · refine F.oSome ?_
    refine F.trans ?_ (applyFecMode_kept F _ _ _)
    exact F.refl _
  · refine F.oSome ?_
    refine F.trans ?_ (applyLoopback_kept F _ _ _)
    exact F.refl _
  · refine F.oSome ?_
    refine F.trans ?_ (applyEye_kept F _ _ _)
    exact F.refl _
  · refine F.oSome ?_
    refine F.trans ?_ (admitPort_kept F _ _ _)
    refine F.trans ?_ (State.setReg_kept F _ _ _ _)
    exact F.refl _
  · refine F.oSome ?_
    refine F.trans ?_ (applyReinit_kept F _ _ _)
    exact F.refl _
  · refine F.oSome ?_
    refine F.trans ?_ (bankSwitch_kept F _ _)
    exact F.refl _
  · refine F.oSome ?_
    refine F.trans ?_ (applyRole_kept F _ _ _ _)
    exact F.refl _
  · refine F.oSome ?_
    refine F.trans ?_ (applyRole_kept F _ _ _ _)
    exact F.refl _
  · refine F.oSome ?_
    refine F.trans ?_ (applyCupRing_kept F _ _ _)
    exact F.refl _
  · refine F.oSome ?_
    refine F.trans ?_ (applyCupRing_kept F _ _ _)
    exact F.refl _
  · refine F.oSome ?_
    refine F.trans ?_ (applyLastEntry_kept F _ _ _)
    exact F.refl _
  · refine F.oSome ?_
    refine F.trans ?_ (applyRing_kept F _ _ _)
    exact F.refl _
  · refine F.oSome ?_
    refine F.trans ?_ (applyModuleEnable_kept F _ _ _)
    exact F.refl _
  · refine F.oSome ?_
    refine F.trans ?_ (applyStoreCtl_kept F _ _)
    exact F.refl _
  · refine F.oSome ?_
    refine F.trans ?_ (applyDeviceRegion_kept F _ _ _)
    exact F.refl _
  · exact F.oNone _

theorem containRecord_kept (s : State) (x1) (x2) (x3) : R s (containRecord s x1 x2 x3) := by
  unfold containRecord
  refine F.ite ?_ ?_
  · refine F.ite ?_ ?_
    · refine F.trans ?_ (notePortIsolated_kept F _ _)
      refine F.trans ?_ (isolatePort_kept F _ _)
      exact F.refl _
    · exact F.refl _
  · refine F.ite ?_ ?_
    · refine F.ite ?_ ?_
      · refine F.trans ?_ (isolateDevice_kept F _ _)
        exact F.refl _
      · refine F.forEach (fun t a => ?_) ?_
        · refine F.trans ?_ (notePortIsolated_kept F _ _)
          refine F.trans ?_ (isolatePort_kept F _ _)
          exact F.refl _
        · exact F.refl _
    · exact F.refl _

theorem actOnRecord_kept (s : State) (x1) (x2) : R s (actOnRecord s x1 x2) := by
  unfold actOnRecord
  refine F.ite ?_ ?_
  · exact F.refl _
  · split
    · refine F.ite ?_ ?_
      · exact F.refl _
      · refine F.trans ?_ (State.updFault_kept F _ _)
        exact F.refl _
    · refine F.ite ?_ ?_
      · refine F.trans ?_ (isolateDevice_kept F _ _)
        exact F.refl _
      · refine F.ite ?_ ?_
        · refine F.trans ?_ (containRecord_kept F _ _ _ _)
          exact F.refl _
        · exact F.refl _
    · exact F.refl _

theorem applyPmapImage_kept (s : State) (x1) : R s (applyPmapImage s x1) := by
  unfold applyPmapImage
  extract_lets; rename_i y300_0 y300_1 y300_2 y300_3
  refine F.trans ?_ (State.setReg_kept F _ _ _ _)
  refine F.trans ?_ (State.setReg_kept F _ _ _ _)
  refine F.trans ?_ (State.setReg_kept F _ _ _ _)
  unfold y300_3
  refine F.forEach (fun t a => ?_) ?_
  · refine F.trans ?_ (State.setReg_kept F _ _ _ _)
    exact F.refl _
  · unfold y300_2
    refine F.forEach (fun t a => ?_) ?_
    · refine F.trans ?_ (State.setReg_kept F _ _ _ _)
      exact F.refl _
    · unfold y300_1
      refine F.trans ?_ (State.setReg_kept F _ _ _ _)
      exact F.refl _

theorem activate_kept (s : State) : R s (activate s) := by
  unfold activate
  extract_lets; rename_i y300_0 y300_1 y300_2 y300_3
  refine F.trans ?_ (State.updSec_kept F _ _)
  unfold y300_3
  refine F.trans ?_ (State.setReg_kept F _ _ _ _)
  unfold y300_2
  split
  · refine F.ite ?_ ?_
    · unfold y300_1
      split
      · refine F.trans ?_ (applyPmapImage_kept F _ _)
        exact F.refl _
      · exact F.refl _
    · refine F.trans ?_ (State.updSec_kept F _ _)
      refine F.trans ?_ (State.setReg_kept F _ _ _ _)
      refine F.trans ?_ (State.setReg_kept F _ _ _ _)
      unfold y300_1
      split
      · refine F.trans ?_ (applyPmapImage_kept F _ _)
        exact F.refl _
      · exact F.refl _
  · unfold y300_1
    split
    · refine F.trans ?_ (applyPmapImage_kept F _ _)
      exact F.refl _
    · exact F.refl _

theorem adObserved_kept (s : State) (x1) : R s (adObserved s x1) := by
  unfold adObserved
  split
  · exact F.refl _
  · extract_lets; rename_i y299_0
    refine F.ite ?_ ?_
    · refine F.trans ?_ (State.updTrans_kept F _ _)
      exact F.refl _
    · refine F.trans ?_ (State.updTrans_kept F _ _)
      exact F.refl _

theorem cacheLine_kept (s : State) (x1) (x2) : R s (cacheLine s x1 x2) := by
  unfold cacheLine
  refine F.ite ?_ ?_
  · extract_lets; rename_i y299_0 y299_1
    refine F.trans ?_ (State.updHost_kept F _ _)
    unfold y299_1
    refine F.trans ?_ (State.updHost_kept F _ _)
    refine F.trans ?_ (State.count_kept F _ _ _ _)
    refine F.trans ?_ (State.took_kept F _)
    exact F.refl _
  · refine F.trans ?_ (State.updHost_kept F _ _)
    exact F.refl _

theorem adReturn_kept (s : State) (x1) (x2) (x3) (x4) : R s (adReturn s x1 x2 x3 x4) := by
  unfold adReturn
  split
  · exact F.refl _
  · extract_lets; rename_i y299_0 y299_1 y299_2 y299_3 y299_4
    refine F.ite ?_ ?_
    · refine F.trans ?_ (State.updTrans_kept F _ _)
      refine F.trans ?_ (noteWalkFault_kept F _ _ _ _)
      unfold y299_1
      refine F.trans ?_ (State.updTrans_kept F _ _)
      exact F.refl _
    · split
      · unfold y299_1
        refine F.trans ?_ (State.updTrans_kept F _ _)
        exact F.refl _
      · refine F.ite ?_ ?_
        · extract_lets; rename_i y295_0 y295_1
          refine F.ite ?_ ?_
          · refine F.trans ?_ (State.updTrans_kept F _ _)
            refine F.trans ?_ (noteWalkFault_kept F _ _ _ _)
            unfold y299_1
            refine F.trans ?_ (State.updTrans_kept F _ _)
            exact F.refl _
          · refine F.ite ?_ ?_
            · refine F.trans ?_ (State.updTrans_kept F _ _)
              unfold y295_1
              refine F.ite ?_ ?_
              · refine F.trans ?_ (State.count_kept F _ _ _ _)
                unfold y295_0
                refine F.ite ?_ ?_
                · unfold y299_4
                  refine F.trans ?_ (hostWrite_kept F _ _ _ _)
                  refine F.trans ?_ (cacheLine_kept F _ _ _)
                  exact F.refl _
                · refine F.trans ?_ (State.count_kept F _ _ _ _)
                  unfold y299_4
                  refine F.trans ?_ (hostWrite_kept F _ _ _ _)
                  refine F.trans ?_ (cacheLine_kept F _ _ _)
                  exact F.refl _
              · unfold y295_0
                refine F.ite ?_ ?_
                · unfold y299_4
                  refine F.trans ?_ (hostWrite_kept F _ _ _ _)
                  refine F.trans ?_ (cacheLine_kept F _ _ _)
                  exact F.refl _
                · refine F.trans ?_ (State.count_kept F _ _ _ _)
                  unfold y299_4
                  refine F.trans ?_ (hostWrite_kept F _ _ _ _)
                  refine F.trans ?_ (cacheLine_kept F _ _ _)
                  exact F.refl _
            · refine F.trans ?_ (State.updTrans_kept F _ _)
              unfold y295_1
              refine F.ite ?_ ?_
              · refine F.trans ?_ (State.count_kept F _ _ _ _)
                unfold y295_0
                refine F.ite ?_ ?_
                · unfold y299_4
                  refine F.trans ?_ (hostWrite_kept F _ _ _ _)
                  refine F.trans ?_ (cacheLine_kept F _ _ _)
                  exact F.refl _
                · refine F.trans ?_ (State.count_kept F _ _ _ _)
                  unfold y299_4
                  refine F.trans ?_ (hostWrite_kept F _ _ _ _)
                  refine F.trans ?_ (cacheLine_kept F _ _ _)
                  exact F.refl _
              · unfold y295_0
                refine F.ite ?_ ?_
                · unfold y299_4
                  refine F.trans ?_ (hostWrite_kept F _ _ _ _)
                  refine F.trans ?_ (cacheLine_kept F _ _ _)
                  exact F.refl _
                · refine F.trans ?_ (State.count_kept F _ _ _ _)
                  unfold y299_4
                  refine F.trans ?_ (hostWrite_kept F _ _ _ _)
                  refine F.trans ?_ (cacheLine_kept F _ _ _)
                  exact F.refl _
        · refine F.trans ?_ (State.updTrans_kept F _ _)
          unfold y299_1
          refine F.trans ?_ (State.updTrans_kept F _ _)
          exact F.refl _

theorem addDrain_kept (s : State) (x1) : R s (addDrain s x1) := by
  unfold addDrain
  refine F.trans ?_ (State.updTrans_kept F _ _)
  exact F.refl _

theorem addInflow_kept (s : State) (x1) : R s (addInflow s x1) := by
  unfold addInflow
  refine F.trans ?_ (State.updMtch_kept F _ _)
  exact F.refl _

theorem addRecv_kept (s : State) (x1) : R s (addRecv s x1) := by
  unfold addRecv
  refine F.trans ?_ (State.updMtch_kept F _ _)
  refine F.trans ?_ (oweUnit_kept F _ _)
  exact F.refl _

theorem advance_kept (s : State) : R s (advance s) := by
  unfold advance
  refine F.ite ?_ ?_
  · refine F.trans ?_ (State.updPwr_kept F _ _)
    exact F.refl _
  · exact F.refl _

theorem State.updOut_kept (s : State) (x1) (x2) : R s (State.updOut s x1 x2) := by
  unfold State.updOut
  refine F.trans ?_ (State.updSw_kept F _ _)
  exact F.refl _

theorem stamp_kept (s : State) (x1) (x2) : R s (stamp s x1 x2) := by
  unfold stamp
  refine F.ite ?_ ?_
  · extract_lets; rename_i y299_0 y299_1 y299_2
    refine F.onChip ?_
    unfold y299_1
    refine F.trans ?_ (State.took_kept F _)
    exact F.refl _
  · exact F.refl _

theorem crossPkt_kept (s : State) (x1) (x2) : R s (crossPkt s x1 x2) := by
  unfold crossPkt
  split
  · exact F.refl _
  · split
    · exact F.refl _
    · extract_lets; rename_i y298_0 y298_1
      refine F.ite ?_ ?_
      · exact F.refl _
      · refine F.trans ?_ (settle_kept F _ _)
        refine F.trans ?_ (stamp_kept F _ _ _)
        unfold y298_1
        refine F.trans ?_ (State.count_kept F _ _ _ _)
        refine F.trans ?_ (State.updPkt_kept F _ _ _)
        exact F.refl _

theorem crossOut_kept (s : State) (x1) : R s (crossOut s x1) := by
  unfold crossOut
  refine F.forEach (fun t a => ?_) ?_
  · refine F.trans ?_ (crossPkt_kept F _ _ _)
    exact F.refl _
  · exact F.refl _

theorem judgeThrottle_kept (s : State) (x1) : R s (judgeThrottle s x1) := by
  unfold judgeThrottle
  extract_lets; rename_i y300_0 y300_1
  refine F.ite ?_ ?_
  · refine F.trans ?_ (State.fire_kept F _ _)
    refine F.trans ?_ (State.updOut_kept F _ _ _)
    exact F.refl _
  · refine F.ite ?_ ?_
    · refine F.trans ?_ (State.updOut_kept F _ _ _)
      exact F.refl _
    · exact F.refl _

theorem endCopy_kept (s : State) (x1) (x2) (x3) : R s (endCopy s x1 x2 x3) := by
  unfold endCopy
  extract_lets; rename_i y300_0
  split
  · unfold y300_0
    refine F.trans ?_ (State.updOut_kept F _ _ _)
    refine F.trans ?_ (State.updPkt_kept F _ _ _)
    exact F.refl _
  · extract_lets; rename_i y298_0 y298_1
    refine F.trans ?_ (crossOut_kept F _ _)
    refine F.ite ?_ ?_
    · refine F.trans ?_ (judgeThrottle_kept F _ _)
      unfold y298_1
      refine F.trans ?_ (settle_kept F _ _)
      unfold y298_0
      refine F.ite ?_ ?_
      · refine F.trans ?_ (tagDone_kept F _ _ _)
        unfold y300_0
        refine F.trans ?_ (State.updOut_kept F _ _ _)
        refine F.trans ?_ (State.updPkt_kept F _ _ _)
        exact F.refl _
      · unfold y300_0
        refine F.trans ?_ (State.updOut_kept F _ _ _)
        refine F.trans ?_ (State.updPkt_kept F _ _ _)
        exact F.refl _
    · unfold y298_1
      refine F.trans ?_ (settle_kept F _ _)
      unfold y298_0
      refine F.ite ?_ ?_
      · refine F.trans ?_ (tagDone_kept F _ _ _)
        unfold y300_0
        refine F.trans ?_ (State.updOut_kept F _ _ _)
        refine F.trans ?_ (State.updPkt_kept F _ _ _)
        exact F.refl _
      · unfold y300_0
        refine F.trans ?_ (State.updOut_kept F _ _ _)
        refine F.trans ?_ (State.updPkt_kept F _ _ _)
        exact F.refl _

theorem ageOut_kept (s : State) (x1) (x2) : R s (ageOut s x1 x2) := by
  unfold ageOut
  refine F.trans ?_ (State.fire_kept F _ _)
  refine F.trans ?_ (State.raise_kept F _ _ _ _ _)
  refine F.trans ?_ (State.count_kept F _ _ _ _)
  refine F.trans ?_ (endCopy_kept F _ _ _ _)
  exact F.refl _

theorem anchorAdmit_kept (s : State) (x1) : R s (anchorAdmit s x1) := by
  unfold anchorAdmit
  extract_lets; rename_i y300_0 y300_1
  refine F.ite ?_ ?_
  · refine F.trans ?_ (State.count_kept F _ _ _ _)
    refine F.trans ?_ (dropPkt_kept F _ _)
    exact F.refl _
  · refine F.ite ?_ ?_
    · exact F.refl _
    · refine F.trans ?_ (settle_kept F _ _)
      refine F.trans ?_ (State.count_kept F _ _ _ _)
      unfold y300_1
      refine F.trans ?_ (State.updPkt_kept F _ _ _)
      exact F.refl _

theorem answerRefused_kept (s : State) (x1) (x2) : R s (answerRefused s x1 x2) := by
  unfold answerRefused
  extract_lets; rename_i y300_0
  refine F.trans ?_ (respond_kept F _ _ _ _ _)
  refine F.ite ?_ ?_
  · refine F.trans ?_ (State.count_kept F _ _ _ _)
    unfold y300_0
    refine F.trans ?_ (State.count_kept F _ _ _ _)
    exact F.refl _
  · unfold y300_0
    refine F.trans ?_ (State.count_kept F _ _ _ _)
    exact F.refl _

theorem applyClear_kept (s : State) (x1) (x2) (x3) : R s (applyClear s x1 x2 x3) := by
  unfold applyClear
  refine F.ite ?_ ?_
  · exact F.onChip (F.refl _)
  · refine F.trans ?_ (State.setReg_kept F _ _ _ _)
    exact F.refl _

theorem State.wrote_kept (s : State) (x1) : R s (State.wrote s x1) := by
  unfold State.wrote
  exact F.onChip (F.refl _)

theorem withRows_kept (s : State) (x1) (x2) : R s (withRows s x1 x2) := by
  unfold withRows
  exact F.onChip (F.refl _)

theorem applyRowOf_kept (s : State) (q : Req) (o : Obj) (row v : Nat) : R s (applyRowOf s q o row v) := by
  unfold applyRowOf
  refine F.ite (applyClear_kept F _ _ _ _) ?_
  have h : OKeeps R s (if o.id < 0x0C0000 then actLow s o.id row v else actHigh s q o.id row v) :=
    F.oIte (actLow_kept F _ _ _ _) (actHigh_kept F _ _ _ _ _)
  split
  · exact h _ (by assumption)
  · exact State.setReg_kept F _ _ _ _

theorem State.applied_kept (s : State) : R s (State.applied s) := by
  unfold State.applied
  extract_lets; rename_i y300_0 y300_1
  refine F.onChip ?_
  unfold y300_0
  refine F.trans ?_ (State.count_kept F _ _ _ _)
  exact F.refl _

theorem State.persists_kept (s : State) (x1) (x2) : R s (State.persists s x1 x2) := by
  unfold State.persists
  refine F.ite ?_ ?_
  · exact F.refl _
  · exact F.onChip (F.refl _)

theorem effectOf_kept (s : State) (x1) (x2) : R s (effectOf s x1 x2) := by
  unfold effectOf
  extract_lets; rename_i y300_0
  refine F.trans ?_ (State.applied_kept F _)
  refine F.ite ?_ ?_
  · refine F.forEach (fun t a => ?_) ?_
    · refine F.trans ?_ (State.persists_kept F _ _ _)
      exact F.refl _
    · unfold y300_0
      refine F.forEach (fun t a => ?_) ?_
      · refine F.trans ?_ (applyRowOf_kept F _ _ _ _ _)
        exact F.refl _
      · exact F.refl _
  · unfold y300_0
    refine F.forEach (fun t a => ?_) ?_
    · refine F.trans ?_ (applyRowOf_kept F _ _ _ _ _)
      exact F.refl _
    · exact F.refl _

theorem countStaging_kept (s : State) (x1) : R s (countStaging s x1) := by
  unfold countStaging
  refine F.ite ?_ ?_
  · refine F.trans ?_ (State.count_kept F _ _ _ _)
    exact F.refl _
  · exact F.refl _

theorem applyReq_kept (s : State) (x1) : R s (applyReq s x1) := by
  unfold applyReq
  split
  · refine F.trans ?_ (answerRefused_kept F _ _ _)
    refine F.trans ?_ (State.wrote_kept F _ _)
    exact F.refl _
  · extract_lets; rename_i y299_0
    refine F.ite ?_ ?_
    · refine F.trans ?_ (respond_kept F _ _ _ _ _)
      refine F.trans ?_ (State.wrote_kept F _ _)
      refine F.trans ?_ (effectOf_kept F _ _ _)
      exact F.refl _
    · refine F.trans ?_ (answerRefused_kept F _ _ _)
      refine F.trans ?_ (State.wrote_kept F _ _)
      refine F.ite ?_ ?_
      · exact F.refl _
      · refine F.trans ?_ (countStaging_kept F _ _)
        exact F.refl _

theorem State.latched_kept (s : State) : R s (State.latched s) := by
  unfold State.latched
  exact F.onState (F.refl _)

theorem applyFront_kept (s : State) (x1) (x2) : R s (applyFront s x1 x2) := by
  unfold applyFront
  extract_lets; rename_i y300_0 y300_1
  refine F.ite ?_ ?_
  · refine F.trans ?_ (State.latched_kept F _)
    unfold y300_1
    refine F.trans ?_ (applyReq_kept F _ _)
    refine F.trans ?_ (State.updCtl_kept F _ _)
    exact F.refl _
  · unfold y300_1
    refine F.trans ?_ (applyReq_kept F _ _)
    refine F.trans ?_ (State.updCtl_kept F _ _)
    exact F.refl _

theorem applyGate_kept (s : State) (x1) : R s (applyGate s x1) := by
  unfold applyGate
  extract_lets; rename_i y300_0
  split
  · refine F.trans ?_ (finishEntry_kept F _ _ _ _ _ _)
    unfold y300_0
    refine F.trans ?_ (State.count_kept F _ _ _ _)
    refine F.trans ?_ (State.updTrans_kept F _ _)
    exact F.refl _
  · unfold y300_0
    refine F.trans ?_ (State.count_kept F _ _ _ _)
    refine F.trans ?_ (State.updTrans_kept F _ _)
    exact F.refl _

theorem newGen_kept (s : State) (x1) : R s (newGen s x1) := by
  unfold newGen
  refine F.trans ?_ (State.updTrans_kept F _ _)
  refine F.trans ?_ (State.updSeg_kept F _ _ _)
  exact F.refl _

theorem restartWalks_kept (s : State) (x1) : R s (restartWalks s x1) := by
  unfold restartWalks
  extract_lets; rename_i y300_0 y300_1 y300_2
  refine F.trans ?_ (startWalks_kept F _ _)
  refine F.trans ?_ (State.updTrans_kept F _ _)
  exact F.refl _

theorem applyTransDue_kept (s : State) (x1) : R s (applyTransDue s x1) := by
  unfold applyTransDue
  split
  · extract_lets; rename_i y299_0 y299_1
    refine F.trans ?_ (finishEntry_kept F _ _ _ _ _ _)
    unfold y299_1
    refine F.trans ?_ (writeDesc_kept F _ _)
    unfold y299_0
    refine F.trans ?_ (newGen_kept F _ _)
    refine F.trans ?_ (State.updSeg_kept F _ _ _)
    exact F.refl _
  · extract_lets; rename_i y299_0
    refine F.ite ?_ ?_
    · refine F.trans ?_ (finishEntry_kept F _ _ _ _ _ _)
      exact F.refl _
    · refine F.trans ?_ (addDrain_kept F _ _)
      unfold y299_0
      refine F.ite ?_ ?_
      · refine F.trans ?_ (writeDesc_kept F _ _)
        refine F.trans ?_ (State.updSeg_kept F _ _ _)
        exact F.refl _
      · exact F.refl _
  · extract_lets; rename_i y299_0
    refine F.trans ?_ (addDrain_kept F _ _)
    refine F.trans ?_ (restartWalks_kept F _ _)
    unfold y299_0
    split
    · refine F.trans ?_ (newGen_kept F _ _)
      exact F.refl _
    · refine F.ite ?_ ?_
      · refine F.trans ?_ (newGen_kept F _ _)
        exact F.refl _
      · refine F.trans ?_ (State.updTrans_kept F _ _)
        exact F.refl _

theorem applyWrites_kept (s : State) (n : Nat) : R s (applyWrites s n) := by
  induction n generalizing s with
  | zero => exact F.refl _
  | succ n ih =>
    unfold applyWrites
    split
    · exact F.refl _
    · split
      · exact F.after (ih _) (applyFront_kept F _ _ _)
      · exact F.refl _

theorem armCheck_kept (s : State) (x1) : R s (armCheck s x1) := by
  unfold armCheck
  extract_lets; rename_i y300_0 y300_1
  split
  · refine F.trans ?_ (State.fire_kept F _ _)
    refine F.trans ?_ (State.raise_kept F _ _ _ _ _)
    refine F.trans ?_ (enterLast_kept F _ _ _ _)
    exact F.refl _
  · refine F.trans ?_ (enterLast_kept F _ _ _ _)
    refine F.trans ?_ (State.updLast_kept F _ _ _)
    unfold y300_1
    refine F.trans ?_ (wakePort_kept F _ _ _)
    refine F.trans ?_ (wakePort_kept F _ _ _)
    exact F.refl _

theorem consumerWrite_kept (s : State) (x1) (x2) : R s (consumerWrite s x1 x2) := by
  unfold consumerWrite
  extract_lets; rename_i y300_0
  refine F.ite ?_ ?_
  · refine F.trans ?_ (updRing_kept F _ _ _)
    exact F.refl _
  · refine F.trans ?_ (State.count_kept F _ _ _ _)
    exact F.refl _

theorem sendMsix_kept (s : State) (x1) (x2) : R s (sendMsix s x1 x2) := by
  unfold sendMsix
  refine F.ite ?_ ?_
  · exact F.refl _
  · extract_lets; rename_i y299_0 y299_1
    refine F.ite ?_ ?_
    · exact F.onChip (F.refl _)
    · refine F.trans ?_ (State.emit_kept F _ _)
      refine F.trans ?_ (State.count_kept F _ _ _ _)
      exact F.refl _

theorem ringVector_kept (s : State) (x1) : R s (ringVector s x1) := by
  unfold ringVector
  extract_lets; rename_i y300_0
  refine F.ite ?_ ?_
  · refine F.trans ?_ (State.count_kept F _ _ _ _)
    refine F.trans ?_ (sendMsix_kept F _ _ _)
    refine F.trans ?_ (State.updQueue_kept F _ _ _)
    exact F.refl _
  · exact F.refl _

theorem armRing_kept (s : State) (x1) (x2) : R s (armRing s x1 x2) := by
  unfold armRing
  extract_lets; rename_i y300_0
  refine F.ite ?_ ?_
  · refine F.trans ?_ (ringVector_kept F _ _)
    unfold y300_0
    refine F.trans ?_ (State.updQueue_kept F _ _ _)
    refine F.trans ?_ (consumerWrite_kept F _ _ _)
    exact F.refl _
  · unfold y300_0
    refine F.trans ?_ (State.updQueue_kept F _ _ _)
    refine F.trans ?_ (consumerWrite_kept F _ _ _)
    exact F.refl _

theorem askReplay_kept (s : State) (x1) : R s (askReplay s x1) := by
  unfold askReplay
  refine F.trans ?_ (State.updLink_kept F _ _ _)
  exact F.refl _

theorem atOnce_kept (f : State → Entry → State) (s : State) (e : Entry) (h : ∀ t a, R t (f t a)) : R s (atOnce f s e).1 := h s e

theorem notePoison_kept (s : State) : R s (notePoison s) := by
  unfold notePoison
  refine F.trans ?_ (State.raise_kept F _ _ _ _ _)
  exact F.refl _

theorem sendResponse_kept (s : State) (x1) (x2) (x3) (x4) (x5) (x6) (x7) : R s (sendResponse s x1 x2 x3 x4 x5 x6 x7) := by
  unfold sendResponse
  refine F.trans ?_ (State.inject_kept F _ _ _)
  exact F.refl _

theorem sendAtomicResp_kept (s : State) (x1) (x2) (x3) (x4) (x5) (x6) (x7) : R s (sendAtomicResp s x1 x2 x3 x4 x5 x6 x7) := by
  unfold sendAtomicResp
  refine F.trans ?_ (sendResponse_kept F _ _ _ _ _ _ _ _)
  exact F.refl _

theorem keepReplay_kept (s : State) (x1) : R s (keepReplay s x1) := by
  unfold keepReplay
  extract_lets; rename_i y300_0
  refine F.ite ?_ ?_
  · refine F.trans ?_ (State.updRma_kept F _ _)
    exact F.refl _
  · refine F.trans ?_ (State.event_kept F _ _ _ _)
    refine F.trans ?_ (State.raise_kept F _ _ _ _ _)
    refine F.trans ?_ (State.updRma_kept F _ _)
    exact F.refl _

theorem atomicReturn_kept (s : State) (x1) (x2) (x3) : R s (atomicReturn s x1 x2 x3) := by
  unfold atomicReturn
  split
  · exact F.refl _
  · extract_lets; rename_i y299_0 y299_1 y299_2 y299_3 y299_4 y299_5 y299_6
    refine F.ite ?_ ?_
    · refine F.ite ?_ ?_
      · refine F.trans ?_ (sendAtomicResp_kept F _ _ _ _ _ _ _ _)
        unfold y299_3
        refine F.trans ?_ (State.updResp_kept F _ _ _)
        refine F.trans ?_ (notePoison_kept F _)
        unfold y299_1
        refine F.trans ?_ (State.updRma_kept F _ _)
        exact F.refl _
      · refine F.trans ?_ (ackContext_kept F _ _ _)
        unfold y299_3
        refine F.trans ?_ (State.updResp_kept F _ _ _)
        refine F.trans ?_ (notePoison_kept F _)
        unfold y299_1
        refine F.trans ?_ (State.updRma_kept F _ _)
        exact F.refl _
    · refine F.ite ?_ ?_
      · refine F.trans ?_ (sendAtomicResp_kept F _ _ _ _ _ _ _ _)
        refine F.trans ?_ (keepReplay_kept F _ _)
        unfold y299_6
        refine F.trans ?_ (arrivalsDue_kept F _ _)
        refine F.trans ?_ (State.updResp_kept F _ _ _)
        unfold y299_5
        split
        · refine F.trans ?_ (issueWrite_kept F _ _ _ _ _ _)
          refine F.trans ?_ (cacheLine_kept F _ _ _)
          unfold y299_1
          refine F.trans ?_ (State.updRma_kept F _ _)
          exact F.refl _
        · refine F.pair ?_
          refine F.trans ?_ (cacheLine_kept F _ _ _)
          unfold y299_1
          refine F.trans ?_ (State.updRma_kept F _ _)
          exact F.refl _
      · unfold y299_6
        refine F.trans ?_ (arrivalsDue_kept F _ _)
        refine F.trans ?_ (State.updResp_kept F _ _ _)
        unfold y299_5
        split
        · refine F.trans ?_ (issueWrite_kept F _ _ _ _ _ _)
          refine F.trans ?_ (cacheLine_kept F _ _ _)
          unfold y299_1
          refine F.trans ?_ (State.updRma_kept F _ _)
          exact F.refl _
        · refine F.pair ?_
          refine F.trans ?_ (cacheLine_kept F _ _ _)
          unfold y299_1
          refine F.trans ?_ (State.updRma_kept F _ _)
          exact F.refl _

theorem backoffEnds_kept (s : State) (x1) : R s (backoffEnds s x1) := by
  unfold backoffEnds
  extract_lets; rename_i y300_0
  split
  · refine F.ite ?_ ?_
    · refine F.trans ?_ (pump_kept F _ _)
      refine F.trans ?_ (State.updReq_kept F _ _ _)
      exact F.refl _
    · exact F.refl _
  · exact F.refl _

theorem badFlit_kept (s : State) (x1) : R s (badFlit s x1) := by
  unfold badFlit
  extract_lets; rename_i y300_0
  refine F.ite ?_ ?_
  · refine F.trans ?_ (askReplay_kept F _ _)
    unfold y300_0
    refine F.trans ?_ (State.count_kept F _ _ _ _)
    exact F.refl _
  · unfold y300_0
    refine F.trans ?_ (State.count_kept F _ _ _ _)
    exact F.refl _

theorem claimComplete_kept (s : State) (x1) (x2) : R s (claimComplete s x1 x2) := by
  unfold claimComplete
  extract_lets; rename_i y300_0
  refine F.ite ?_ ?_
  · refine F.trans ?_ (updRow_kept F _ _ _)
    exact F.refl _
  · refine F.trans ?_ (State.event_kept F _ _ _ _)
    refine F.trans ?_ (State.raise_kept F _ _ _ _ _)
    refine F.trans ?_ (State.count_kept F _ _ _ _)
    exact F.refl _

theorem functionWord_kept (s : State) (x1) (x2) (x3) : OKeeps R s (functionWord s x1 x2 x3) := by
  unfold functionWord
  refine F.oIte ?_ ?_
  · refine F.oSome ?_
    exact F.refl _
  · refine F.oIte ?_ ?_
    · extract_lets; rename_i y298_0
      refine F.oSome ?_
      split
      · refine F.trans ?_ (claimComplete_kept F _ _ _)
        exact F.refl _
      · refine F.trans ?_ (State.updClaim_kept F _ _)
        exact F.refl _
      · refine F.trans ?_ (claimPend_kept F _ _)
        exact F.refl _
      · exact F.refl _
    · exact F.oNone _

theorem mailboxDoorbell_kept (s : State) (x1) : R s (mailboxDoorbell s x1) := by
  unfold mailboxDoorbell
  refine F.ite ?_ ?_
  · refine F.trans ?_ (State.count_kept F _ _ _ _)
    exact F.refl _
  · extract_lets; rename_i y299_0 y299_1
    refine F.ite ?_ ?_
    · refine F.trans ?_ (refuse_kept F _ _ _)
      unfold y299_0
      refine F.trans ?_ (State.updCtl_kept F _ _)
      exact F.refl _
    · refine F.trans ?_ (State.updCtl_kept F _ _)
      unfold y299_0
      refine F.trans ?_ (State.updCtl_kept F _ _)
      exact F.refl _

theorem mailboxDone_kept (s : State) (x1) : R s (mailboxDone s x1) := by
  unfold mailboxDone
  refine F.ite ?_ ?_
  · refine F.trans ?_ (State.updCtl_kept F _ _)
    exact F.refl _
  · exact F.refl _

theorem mailboxWord_kept (s : State) (x1) (x2) : R s (mailboxWord s x1 x2) := by
  unfold mailboxWord
  split
  · refine F.trans ?_ (mailboxDoorbell_kept F _ _)
    exact F.refl _
  · refine F.trans ?_ (mailboxDone_kept F _ _)
    exact F.refl _
  · refine F.trans ?_ (State.updCtl_kept F _ _)
    exact F.refl _
  · refine F.ite ?_ ?_
    · refine F.trans ?_ (State.updCtl_kept F _ _)
      exact F.refl _
    · exact F.refl _

theorem msixWrite_kept (s : State) (x1) (x2) (x3) : R s (msixWrite s x1 x2 x3) := by
  unfold msixWrite
  extract_lets; rename_i y300_0 y300_1 y300_2 y300_3 y300_4
  split
  · refine F.trans ?_ (State.updHost_kept F _ _)
    exact F.refl _
  · refine F.trans ?_ (State.updHost_kept F _ _)
    exact F.refl _
  · refine F.trans ?_ (State.updHost_kept F _ _)
    exact F.refl _
  · refine F.ite ?_ ?_
    · refine F.trans ?_ (sendMsix_kept F _ _ _)
      unfold y300_4
      refine F.trans ?_ (State.updHost_kept F _ _)
      exact F.refl _
    · unfold y300_4
      refine F.trans ?_ (State.updHost_kept F _ _)
      exact F.refl _

theorem stateAfter_kept (o : Host.Outcome State Fault Refusal) (s : State) (h : Keeps R s o) : R s (stateAfter o s) := by
  unfold stateAfter
  split
  · exact h _ rfl
  · exact F.refl _

theorem fetchRecords_kept (s : State) (x1) : R s (fetchRecords s x1) := by
  unfold fetchRecords
  extract_lets; rename_i y300_0 y300_1 y300_2 y300_3 y300_4
  refine F.ite ?_ ?_
  · exact F.refl _
  · refine F.forEach (fun t a => ?_) ?_
    · extract_lets; rename_i y297_0 y297_1
      refine F.ite ?_ ?_
      · refine F.trans ?_ (State.updRing_kept F _ _ _)
        unfold y297_1
        refine F.trans ?_ (hostRead_kept F _ _ _ _ _)
        exact F.refl _
      · unfold y297_1
        refine F.trans ?_ (hostRead_kept F _ _ _ _ _)
        exact F.refl _
    · exact F.refl _

theorem execLastRingProducerWrite_kept (x0) (x1) (s : State) : Keeps R s (execLastRingProducerWrite x0 x1 s) := by
  unfold execLastRingProducerWrite
  extract_lets; rename_i y300_0 y300_1
  refine F.kIte ?_ ?_
  · exact F.kFault _ _
  · refine F.kNext ?_
    split
    · refine F.trans ?_ (fetchRecords_kept F _ _)
      refine F.trans ?_ (State.updRing_kept F _ _ _)
      exact F.refl _
    · exact F.refl _

theorem execLastRingConsumerWrite_kept (x0) (x1) (s : State) : Keeps R s (execLastRingConsumerWrite x0 x1 s) := by
  unfold execLastRingConsumerWrite
  extract_lets; rename_i y300_0 y300_1 y300_2
  refine F.kIte ?_ ?_
  · exact F.kFault _ _
  · refine F.kIte ?_ ?_
    · refine F.kNext ?_
      exact F.refl _
    · refine F.kNext ?_
      split
      · refine F.ite ?_ ?_
        · unfold y300_2
          refine F.trans ?_ (State.updRing_kept F _ _ _)
          exact F.refl _
        · refine F.trans ?_ (writeSignal_kept F _ _ _ _)
          refine F.trans ?_ (State.updRing_kept F _ _ _)
          unfold y300_2
          refine F.trans ?_ (State.updRing_kept F _ _ _)
          exact F.refl _
      · unfold y300_2
        refine F.trans ?_ (State.updRing_kept F _ _ _)
        exact F.refl _

theorem lastRingWord_kept (s : State) (x1) (x2) (x3) : OKeeps R s (lastRingWord s x1 x2 x3) := by
  unfold lastRingWord
  extract_lets; rename_i y300_0 y300_1
  refine F.oIte ?_ ?_
  · exact F.oNone _
  · split
    · refine F.oSome ?_
      refine F.ite ?_ ?_
      · exact F.refl _
      · refine F.trans ?_ (stateAfter_kept F _ _ ?_)
        · exact F.refl _
        · refine F.kTrans ?_ (execLastRingProducerWrite_kept F _ _ _)
          exact F.refl _
    · refine F.oSome ?_
      refine F.ite ?_ ?_
      · refine F.trans ?_ (stateAfter_kept F _ _ ?_)
        · exact F.refl _
        · refine F.kTrans ?_ (execLastRingConsumerWrite_kept F _ _ _)
          exact F.refl _
      · exact F.refl _
    · refine F.oSome ?_
      exact F.refl _
    · exact F.oNone _

theorem gateWrite_kept (s : State) (x1) (x2) (x3) : R s (gateWrite s x1 x2 x3) := by
  unfold gateWrite
  refine F.trans ?_ (State.updTrans_kept F _ _)
  exact F.refl _

theorem rightsWord_kept (s : State) (x1) (x2) (x3) : OKeeps R s (rightsWord s x1 x2 x3) := by
  unfold rightsWord
  refine F.oIte ?_ ?_
  · refine F.oSome ?_
    refine F.trans ?_ (gateWrite_kept F _ _ _ _)
    exact F.refl _
  · exact F.oNone _

theorem reasonFault_kept (s : State) (x1) (x2) : R s (reasonFault s x1 x2) := by
  unfold reasonFault
  extract_lets; rename_i y300_0
  split
  · refine F.trans ?_ (State.raise_kept F _ _ _ _ _)
    exact F.refl _
  · refine F.trans ?_ (State.raise_kept F _ _ _ _ _)
    exact F.refl _
  · refine F.trans ?_ (State.raise_kept F _ _ _ _ _)
    exact F.refl _
  · refine F.trans ?_ (State.raise_kept F _ _ _ _ _)
    exact F.refl _
  · refine F.trans ?_ (State.raise_kept F _ _ _ _ _)
    exact F.refl _
  · refine F.trans ?_ (State.raise_kept F _ _ _ _ _)
    exact F.refl _
  · refine F.trans ?_ (State.raise_kept F _ _ _ _ _)
    exact F.refl _

theorem queueError_kept (s : State) (x1) (x2) : R s (queueError s x1 x2) := by
  unfold queueError
  extract_lets; rename_i y300_0 y300_1 y300_2 y300_3 y300_4 y300_5
  refine F.ite ?_ ?_
  · exact F.refl _
  · refine F.trans ?_ (State.event_kept F _ _ _ _)
    refine F.trans ?_ (reasonFault_kept F _ _ _)
    refine F.trans ?_ (State.updQueues_kept F _ _)
    unfold y300_4
    refine F.trans ?_ (ringJudge_kept F _ _)
    refine F.trans ?_ (State.updQueue_kept F _ _ _)
    refine F.trans ?_ (writeUnit_kept F _ _ _)
    unfold y300_2
    refine F.trans ?_ (State.updQueue_kept F _ _ _)
    exact F.refl _

theorem fetchOnce_kept (s : State) (x1) : R s (fetchOnce s x1) := by
  unfold fetchOnce
  extract_lets; rename_i y300_0 y300_1 y300_2 y300_3
  refine F.ite ?_ ?_
  · exact F.refl _
  · clear_value y300_1; split
    · exact F.refl _
    · extract_lets; rename_i y297_0 y297_1
      refine F.ite ?_ ?_
      · refine F.ite ?_ ?_
        · unfold y297_1
          refine F.trans ?_ (State.count_kept F _ _ _ _)
          refine F.trans ?_ (State.updQueue_kept F _ _ _)
          unfold y297_0
          refine F.trans ?_ (hostRead_kept F _ _ _ _ _)
          exact F.refl _
        · refine F.trans ?_ (State.count_kept F _ _ _ _)
          unfold y297_1
          refine F.trans ?_ (State.count_kept F _ _ _ _)
          refine F.trans ?_ (State.updQueue_kept F _ _ _)
          unfold y297_0
          refine F.trans ?_ (hostRead_kept F _ _ _ _ _)
          exact F.refl _
      · refine F.trans ?_ (queueError_kept F _ _ _)
        unfold y297_0
        refine F.trans ?_ (hostRead_kept F _ _ _ _ _)
        exact F.refl _

theorem fetchQueue_kept (s : State) (x1) : R s (fetchQueue s x1) := by
  unfold fetchQueue
  refine F.trans ?_ (fetchOnce_kept F _ _)
  refine F.trans ?_ (fetchOnce_kept F _ _)
  refine F.trans ?_ (fetchOnce_kept F _ _)
  exact F.refl _

theorem ringDoor_kept (s : State) (x1) (x2) : R s (ringDoor s x1 x2) := by
  unfold ringDoor
  extract_lets; rename_i y300_0
  refine F.ite ?_ ?_
  · refine F.trans ?_ (State.count_kept F _ _ _ _)
    exact F.refl _
  · split
    · refine F.trans ?_ (queueError_kept F _ _ _)
      exact F.refl _
    · refine F.trans ?_ (fetchQueue_kept F _ _)
      refine F.trans ?_ (State.count_kept F _ _ _ _)
      refine F.trans ?_ (State.updQueue_kept F _ _ _)
      exact F.refl _
    · refine F.trans ?_ (State.count_kept F _ _ _ _)
      exact F.refl _

theorem touchQueue_kept (s : State) (x1) : R s (touchQueue s x1) := by
  unfold touchQueue
  extract_lets; rename_i y300_0 y300_1 y300_2
  refine F.ite ?_ ?_
  · unfold y300_1
    refine F.trans ?_ (State.updQueue_kept F _ _ _)
    refine F.trans ?_ (State.updQueues_kept F _ _)
    exact F.refl _
  · refine F.trans ?_ (State.updQueue_kept F _ _ _)
    refine F.trans ?_ (State.updQueues_kept F _ _)
    unfold y300_1
    refine F.trans ?_ (State.updQueue_kept F _ _ _)
    refine F.trans ?_ (State.updQueues_kept F _ _)
    exact F.refl _

theorem doorbell_kept (s : State) (x1) (x2) : R s (doorbell s x1 x2) := by
  unfold doorbell
  extract_lets; rename_i y300_0 y300_1
  refine F.ite ?_ ?_
  · refine F.trans ?_ (State.count_kept F _ _ _ _)
    exact F.refl _
  · refine F.ite ?_ ?_
    · refine F.trans ?_ (ringDoor_kept F _ _ _)
      refine F.trans ?_ (touchQueue_kept F _ _)
      exact F.refl _
    · refine F.ite ?_ ?_
      · refine F.trans ?_ (issueRead_kept F _ _ _ _ _)
        refine F.trans ?_ (State.count_kept F _ _ _ _)
        unfold y300_1
        refine F.trans ?_ (State.updQueue_kept F _ _ _)
        exact F.refl _
      · unfold y300_1
        refine F.trans ?_ (State.updQueue_kept F _ _ _)
        exact F.refl _

theorem invalidateQueue_kept (s : State) (x1) : R s (invalidateQueue s x1) := by
  unfold invalidateQueue
  extract_lets; rename_i y300_0 y300_1 y300_2
  refine F.ite ?_ ?_
  · exact F.refl _
  · refine F.trans ?_ (fetchQueue_kept F _ _)
    refine F.ite ?_ ?_
    · unfold y300_2
      refine F.trans ?_ (State.updQueue_kept F _ _ _)
      exact F.refl _
    · refine F.trans ?_ (State.count_kept F _ _ _ _)
      unfold y300_2
      refine F.trans ?_ (State.updQueue_kept F _ _ _)
      exact F.refl _

theorem dormantAccess_kept (s : State) (x1) : R s (dormantAccess s x1) := by
  unfold dormantAccess
  extract_lets; rename_i y300_0 y300_1
  refine F.ite ?_ ?_
  · refine F.trans ?_ (State.event_kept F _ _ _ _)
    refine F.trans ?_ (State.raise_kept F _ _ _ _ _)
    refine F.trans ?_ (State.count_kept F _ _ _ _)
    unfold y300_1
    exact F.onChip (F.refl _)
  · unfold y300_1
    exact F.onChip (F.refl _)

theorem mmio_kept (s : State) (func : Nat) (t : State) (h : R s t) : Keeps R s (mmio s func t) := by
  unfold mmio
  refine F.kIte (F.kFault _ _) (F.kIte (F.kNext (F.refl _)) (F.kIte (F.kNext h) (F.kNext (dormantAccess_kept F _ _))))

theorem mmioRefused_kept (s : State) (x1) : R s (mmioRefused s x1) := by
  unfold mmioRefused
  refine F.trans ?_ (State.raise_kept F _ _ _ _ _)
  refine F.trans ?_ (State.count_kept F _ _ _ _)
  exact F.refl _

theorem onQueue_kept (s : State) (func lq : Nat) (f : Nat → State) (h : ∀ g, R s (f g)) : Keeps R s (onQueue s func lq f) := by
  refine mmio_kept F _ _ _ ?_
  split
  · exact h _
  · exact mmioRefused_kept F _ _

theorem execQEnable_kept (x0) (x1) (x2) (s : State) : Keeps R s (execQEnable x0 x1 x2 s) := by
  unfold execQEnable
  refine F.kTrans ?_ (onQueue_kept F _ _ _ _ ?_)
  · exact F.refl _
  · intros
    refine F.ite ?_ ?_
    · refine F.trans ?_ (State.updQueue_kept F _ _ _)
      exact F.refl _
    · exact F.refl _

theorem configWrite_kept (s : State) (x1) (x2) (x3) (x4) : R s (configWrite s x1 x2 x3 x4) := by
  unfold configWrite
  refine F.ite ?_ ?_
  · refine F.trans ?_ (State.updQueue_kept F _ _ _)
    exact F.refl _
  · refine F.trans ?_ (State.raise_kept F _ _ _ _ _)
    refine F.trans ?_ (State.count_kept F _ _ _ _)
    exact F.refl _

theorem queueWord_kept (s : State) (x1) (x2) (x3) : OKeeps R s (queueWord s x1 x2 x3) := by
  unfold queueWord
  extract_lets; rename_i y300_0
  refine F.oMap fun x hx => ?_
  split
  · refine F.trans ?_ (doorbell_kept F _ _ _)
    exact F.refl _
  · refine F.trans ?_ (invalidateQueue_kept F _ _)
    exact F.refl _
  · refine F.trans ?_ (consumerWrite_kept F _ _ _)
    exact F.refl _
  · refine F.trans ?_ (armRing_kept F _ _ _)
    exact F.refl _
  · refine F.trans ?_ (stateAfter_kept F _ _ ?_)
    · exact F.refl _
    · refine F.kTrans ?_ (execQEnable_kept F _ _ _ _)
      exact F.refl _
  · refine F.ite ?_ ?_
    · refine F.trans ?_ (configWrite_kept F _ _ _ _ _)
      exact F.refl _
    · exact F.refl _

theorem bar0Word_kept (s : State) (x1) (x2) (x3) : OKeeps R s (bar0Word s x1 x2 x3) := by
  unfold bar0Word
  refine F.oIte ?_ ?_
  · refine F.oTrans ?_ (functionWord_kept F _ _ _ _)
    exact F.refl _
  · refine F.oIte ?_ ?_
    · refine F.oIte ?_ ?_
      · refine F.oSome ?_
        refine F.trans ?_ (mailboxWord_kept F _ _ _)
        exact F.refl _
      · exact F.oNone _
    · refine F.oIte ?_ ?_
      · refine F.oSome ?_
        refine F.trans ?_ (msixWrite_kept F _ _ _ _)
        exact F.refl _
      · refine F.oIte ?_ ?_
        · refine F.oSome ?_
          exact F.refl _
        · refine F.oIte ?_ ?_
          · refine F.oTrans ?_ (lastRingWord_kept F _ _ _ _)
            exact F.refl _
          · refine F.oIte ?_ ?_
            · refine F.oTrans ?_ (rightsWord_kept F _ _ _ _)
              exact F.refl _
            · refine F.oIte ?_ ?_
              · refine F.oTrans ?_ (queueWord_kept F _ _ _ _)
                exact F.refl _
              · exact F.oNone _

theorem pageDrop_kept (s : State) (x1) : R s (pageDrop s x1) := by
  unfold pageDrop
  refine F.trans ?_ (State.event_kept F _ _ _ _)
  refine F.trans ?_ (State.raise_kept F _ _ _ _ _)
  refine F.trans ?_ (State.count_kept F _ _ _ _)
  exact F.refl _

theorem updPage_kept (s : State) (x1) (x2) (x3) : R s (updPage s x1 x2 x3) := by
  unfold updPage
  refine F.trans ?_ (State.updSem_kept F _ _)
  exact F.refl _

theorem pageWrite_kept (s : State) (x1) (x2) (x3) : R s (pageWrite s x1 x2 x3) := by
  unfold pageWrite
  split
  · exact F.refl _
  · extract_lets; rename_i y299_0
    refine F.ite ?_ ?_
    · refine F.trans ?_ (pageDrop_kept F _ _)
      exact F.refl _
    · refine F.trans ?_ (semSubmit_kept F _ _)
      refine F.trans ?_ (updPage_kept F _ _ _ _)
      exact F.refl _

theorem evSendVector_kept (s : State) (x1) : R s (evSendVector s x1) := by
  unfold evSendVector
  refine F.ite ?_ ?_
  · refine F.trans ?_ (sendMsix_kept F _ _ _)
    refine F.trans ?_ (State.updSem_kept F _ _)
    exact F.refl _
  · exact F.refl _

theorem evrConsumer_kept (s : State) (x1) (x2) : R s (evrConsumer s x1 x2) := by
  unfold evrConsumer
  extract_lets; rename_i y300_0 y300_1 y300_2 y300_3
  refine F.ite ?_ ?_
  · unfold y300_3
    refine F.trans ?_ (State.updSem_kept F _ _)
    exact F.refl _
  · refine F.trans ?_ (evSendVector_kept F _ _)
    unfold y300_3
    refine F.trans ?_ (State.updSem_kept F _ _)
    exact F.refl _

theorem bar4Word_kept (s : State) (x1) (x2) (x3) : OKeeps R s (bar4Word s x1 x2 x3) := by
  unfold bar4Word
  refine F.oIte ?_ ?_
  · refine F.oIte ?_ ?_
    · refine F.oSome ?_
      exact F.refl _
    · exact F.oNone _
  · refine F.oIte ?_ ?_
    · split
      · refine F.oSome ?_
        refine F.trans ?_ (pageWrite_kept F _ _ _ _)
        exact F.refl _
      · refine F.oSome ?_
        exact F.refl _
      · refine F.oSome ?_
        exact F.refl _
      · refine F.oSome ?_
        exact F.refl _
      · refine F.oSome ?_
        exact F.refl _
      · refine F.oSome ?_
        exact F.refl _
      · refine F.oSome ?_
        refine F.trans ?_ (evrConsumer_kept F _ _ _)
        exact F.refl _
      · exact F.oNone _
    · exact F.oNone _

theorem barWords_kept (f : State → Nat → Nat → Option State) (s : State) (off : Nat) (data : List Byte) (h : ∀ t a b, OKeeps R t (f t a b)) :
    OKeeps R s (barWords f s off data) := by
  unfold barWords
  split
  · exact F.oNone _
  · rename_i s1 e
    have e1 := h _ _ _ _ e
    refine F.oIte (F.oSome e1) (F.oTrans e1 (h _ _ _))

theorem push_kept (s : State) (x1) (x2) (x3) : R s (push s x1 x2 x3) := by
  unfold push
  extract_lets; rename_i y300_0 y300_1 y300_2 y300_3 y300_4 y300_5 y300_6 y300_7
  refine F.ite ?_ ?_
  · refine F.trans ?_ (State.count_kept F _ _ _ _)
    exact F.refl _
  · refine F.ite ?_ ?_
    · refine F.trans ?_ (queueError_kept F _ _ _)
      exact F.refl _
    · split
      · refine F.trans ?_ (queueError_kept F _ _ _)
        exact F.refl _
      · refine F.ite ?_ ?_
        · refine F.trans ?_ (fetchQueue_kept F _ _)
          refine F.trans ?_ (State.count_kept F _ _ _ _)
          refine F.trans ?_ (State.count_kept F _ _ _ _)
          refine F.trans ?_ (State.updQueue_kept F _ _ _)
          unfold y300_7
          refine F.trans ?_ (State.updQueue_kept F _ _ _)
          exact F.refl _
        · refine F.trans ?_ (State.count_kept F _ _ _ _)
          unfold y300_7
          refine F.trans ?_ (State.updQueue_kept F _ _ _)
          exact F.refl _

theorem execPush_kept (x0) (x1) (x2) (x3) (s : State) : Keeps R s (execPush x0 x1 x2 x3 s) := by
  unfold execPush
  refine F.kTrans ?_ (onQueue_kept F _ _ _ _ ?_)
  · exact F.refl _
  · intros
    refine F.ite ?_ ?_
    · refine F.trans ?_ (mmioRefused_kept F _ _)
      exact F.refl _
    · refine F.trans ?_ (push_kept F _ _ _ _)
      refine F.ite ?_ ?_
      · refine F.trans ?_ (touchQueue_kept F _ _)
        exact F.refl _
      · exact F.refl _

theorem barWrite_kept (s : State) (x1) (x2) (x3) (x4) : R s (barWrite s x1 x2 x3 x4) := by
  unfold barWrite
  extract_lets; rename_i y300_0
  split
  · refine F.trans ?_ (stateAfter_kept F _ _ ?_)
    · exact F.refl _
    · refine F.kTrans ?_ (execPush_kept F _ _ _ _ _)
      exact F.refl _
  · refine F.ite ?_ ?_
    · refine F.getD ?_ ?_
      · refine F.oTrans ?_ (barWords_kept F _ _ _ _ ?_)
        · exact F.refl _
        · intros
          refine F.oTrans ?_ (bar0Word_kept F _ _ _ _)
          exact F.refl _
      · unfold y300_0
        refine F.trans ?_ (mmioRefused_kept F _ _)
        exact F.refl _
    · unfold y300_0
      refine F.trans ?_ (mmioRefused_kept F _ _)
      exact F.refl _
  · refine F.ite ?_ ?_
    · refine F.getD ?_ ?_
      · refine F.oTrans ?_ (barWords_kept F _ _ _ _ ?_)
        · exact F.refl _
        · intros
          refine F.oTrans ?_ (bar4Word_kept F _ _ _ _)
          exact F.refl _
      · unfold y300_0
        refine F.trans ?_ (mmioRefused_kept F _ _)
        exact F.refl _
    · unfold y300_0
      refine F.trans ?_ (mmioRefused_kept F _ _)
      exact F.refl _
  · exact F.refl _

theorem becomeReady_kept (s : State) (x1) (x2) : R s (becomeReady s x1 x2) := by
  unfold becomeReady
  refine F.trans ?_ (sendSignal_kept F _ _ _ _)
  refine F.trans ?_ (State.updLast_kept F _ _ _)
  exact F.refl _

theorem blockIn_kept (s : State) (x1) (x2) (x3) : R s (blockIn s x1 x2 x3) := by
  unfold blockIn
  extract_lets; rename_i y300_0 y300_1 y300_2 y300_3 y300_4 y300_5 y300_6 y300_7
  split
  · refine F.ite ?_ ?_
    · refine F.trans ?_ (laneEnter_kept F _ _ _)
      unfold y300_6
      refine F.trans ?_ (State.updLane_kept F _ _ _)
      exact F.refl _
    · unfold y300_6
      refine F.trans ?_ (State.updLane_kept F _ _ _)
      exact F.refl _
  · refine F.ite ?_ ?_
    · refine F.trans ?_ (State.count_kept F _ _ _ _)
      refine F.trans ?_ (State.raise_kept F _ _ _ _ _)
      refine F.trans ?_ (laneEnter_kept F _ _ _)
      unfold y300_6
      refine F.trans ?_ (State.updLane_kept F _ _ _)
      exact F.refl _
    · unfold y300_6
      refine F.trans ?_ (State.updLane_kept F _ _ _)
      exact F.refl _
  · unfold y300_6
    refine F.trans ?_ (State.updLane_kept F _ _ _)
    exact F.refl _

theorem logBootFaults_kept (s : State) : R s (logBootFaults s) := by
  unfold logBootFaults
  extract_lets; rename_i y300_0
  refine F.ite ?_ ?_
  · refine F.trans ?_ (State.event_kept F _ _ _ _)
    unfold y300_0
    refine F.forEach (fun t a => ?_) ?_
    · exact F.onChip (F.refl _)
    · refine F.trans ?_ (State.updSec_kept F _ _)
      exact F.refl _
  · unfold y300_0
    refine F.forEach (fun t a => ?_) ?_
    · exact F.onChip (F.refl _)
    · refine F.trans ?_ (State.updSec_kept F _ _)
      exact F.refl _

theorem enterRecovery_kept (s : State) : R s (enterRecovery s) := by
  unfold enterRecovery
  refine F.trans ?_ (logBootFaults_kept F _)
  refine F.trans ?_ (State.updSec_kept F _ _)
  exact F.refl _

theorem bootFault_kept (s : State) (x1) : R s (bootFault s x1) := by
  unfold bootFault
  refine F.trans ?_ (State.updSec_kept F _ _)
  exact F.refl _

theorem bootActive_kept (s : State) (x1) (x2) : R s (bootActive s x1 x2) := by
  unfold bootActive
  extract_lets; rename_i y300_0 y300_1 y300_2 y300_3 y300_4 y300_5 y300_6 y300_7
  refine F.ite ?_ ?_
  · refine F.trans ?_ (enterRecovery_kept F _)
    refine F.trans ?_ (bootFault_kept F _ _)
    refine F.ite ?_ ?_
    · refine F.trans ?_ (bootFault_kept F _ _)
      exact F.refl _
    · exact F.refl _
  · refine F.ite ?_ ?_
    · refine F.trans ?_ (State.updSec_kept F _ _)
      unfold y300_7
      refine F.trans ?_ (State.setReg_kept F _ _ _ _)
      refine F.trans ?_ (State.setReg_kept F _ _ _ _)
      unfold y300_6
      refine F.ite ?_ ?_
      · unfold y300_2
        refine F.trans ?_ (State.updSec_kept F _ _)
        exact F.refl _
      · refine F.trans ?_ (bootFault_kept F _ _)
        refine F.trans ?_ (State.updCtl_kept F _ _)
        refine F.trans ?_ (State.updSec_kept F _ _)
        unfold y300_5
        refine F.onChip ?_
        unfold y300_2
        refine F.trans ?_ (State.updSec_kept F _ _)
        exact F.refl _
    · refine F.trans ?_ (State.updSec_kept F _ _)
      unfold y300_7
      refine F.trans ?_ (State.setReg_kept F _ _ _ _)
      refine F.trans ?_ (State.setReg_kept F _ _ _ _)
      unfold y300_6
      refine F.ite ?_ ?_
      · unfold y300_2
        refine F.trans ?_ (State.updSec_kept F _ _)
        exact F.refl _
      · refine F.trans ?_ (bootFault_kept F _ _)
        refine F.trans ?_ (State.updCtl_kept F _ _)
        refine F.trans ?_ (State.updSec_kept F _ _)
        unfold y300_5
        refine F.onChip ?_
        unfold y300_2
        refine F.trans ?_ (State.updSec_kept F _ _)
        exact F.refl _

theorem bootCopy_kept (s : State) (x1) (x2) (x3) (x4) : R s (bootCopy s x1 x2 x3 x4) := by
  unfold bootCopy
  split
  · refine F.ite ?_ ?_
    · refine F.trans ?_ (bootActive_kept F _ _ _)
      exact F.refl _
    · refine F.ite ?_ ?_
      · refine F.trans ?_ (enterRecovery_kept F _)
        refine F.trans ?_ (bootFault_kept F _ _)
        exact F.refl _
      · extract_lets; rename_i y297_0 y297_1 y297_2
        refine F.ite ?_ ?_
        · refine F.trans ?_ (bootActive_kept F _ _ _)
          refine F.trans ?_ (activate_kept F _)
          unfold y297_2
          exact F.onChip (F.refl _)
        · unfold y297_2
          exact F.onChip (F.refl _)
  · refine F.trans ?_ (bootActive_kept F _ _ _)
    exact F.refl _

theorem startCopy_kept (s : State) (x1) : R s (startCopy s x1) := by
  unfold startCopy
  refine F.ite ?_ ?_
  · exact F.refl _
  · refine F.ite ?_ ?_
    · extract_lets; rename_i y298_0
      refine F.trans ?_ (bootFault_kept F _ _)
      refine F.trans ?_ (State.updSec_kept F _ _)
      unfold y298_0
      refine F.ite ?_ ?_
      · refine F.trans ?_ (bootFault_kept F _ _)
        exact F.refl _
      · exact F.refl _
    · refine F.trans ?_ (State.updSec_kept F _ _)
      exact F.refl _

theorem bootRun_kept (s : State) (x1) (x2) (x3) (x4) : R s (bootRun s x1 x2 x3 x4) := by
  unfold bootRun
  extract_lets; rename_i y300_0 y300_1 y300_2 y300_3
  refine F.ite ?_ ?_
  · refine F.trans ?_ (enterRecovery_kept F _)
    unfold y300_2
    refine F.ite ?_ ?_
    · refine F.trans ?_ (bootFault_kept F _ _)
      unfold y300_1
      refine F.trans ?_ (State.updSec_kept F _ _)
      exact F.refl _
    · unfold y300_1
      refine F.trans ?_ (State.updSec_kept F _ _)
      exact F.refl _
  · refine F.ite ?_ ?_
    · refine F.trans ?_ (bootCopy_kept F _ _ _ _ _)
      refine F.trans ?_ (bootFault_kept F _ _)
      unfold y300_2
      refine F.ite ?_ ?_
      · refine F.trans ?_ (bootFault_kept F _ _)
        unfold y300_1
        refine F.trans ?_ (State.updSec_kept F _ _)
        exact F.refl _
      · unfold y300_1
        refine F.trans ?_ (State.updSec_kept F _ _)
        exact F.refl _
    · refine F.trans ?_ (bootCopy_kept F _ _ _ _ _)
      refine F.trans ?_ (startCopy_kept F _ _)
      unfold y300_2
      refine F.ite ?_ ?_
      · refine F.trans ?_ (bootFault_kept F _ _)
        unfold y300_1
        refine F.trans ?_ (State.updSec_kept F _ _)
        exact F.refl _
      · unfold y300_1
        refine F.trans ?_ (State.updSec_kept F _ _)
        exact F.refl _

theorem bpConsumed_kept (s : State) (x1) : R s (bpConsumed s x1) := by
  unfold bpConsumed
  refine F.trans ?_ (State.updLink_kept F _ _ _)
  exact F.refl _

theorem breakLast_kept (s : State) (x1) (x2) (x3) (x4) : R s (breakLast s x1 x2 x3 x4) := by
  unfold breakLast
  extract_lets; rename_i y300_0 y300_1 y300_2
  refine F.ite ?_ ?_
  · unfold y300_2
    refine F.ite ?_ ?_
    · unfold y300_1
      refine F.trans ?_ (wrapQueue_kept F _ _)
      refine F.trans ?_ (enterLast_kept F _ _ _ _)
      exact F.refl _
    · refine F.trans ?_ (sendSignal_kept F _ _ _ _)
      unfold y300_1
      refine F.trans ?_ (wrapQueue_kept F _ _)
      refine F.trans ?_ (enterLast_kept F _ _ _ _)
      exact F.refl _
  · refine F.trans ?_ (sendSignal_kept F _ _ _ _)
    unfold y300_2
    refine F.ite ?_ ?_
    · unfold y300_1
      refine F.trans ?_ (wrapQueue_kept F _ _)
      refine F.trans ?_ (enterLast_kept F _ _ _ _)
      exact F.refl _
    · refine F.trans ?_ (sendSignal_kept F _ _ _ _)
      unfold y300_1
      refine F.trans ?_ (wrapQueue_kept F _ _)
      refine F.trans ?_ (enterLast_kept F _ _ _ _)
      exact F.refl _

theorem buildReport_kept (s : State) : R s (buildReport s) := by
  unfold buildReport
  extract_lets; rename_i y300_0 y300_1 y300_2 y300_3
  refine F.trans ?_ (State.event_kept F _ _ _ _)
  refine F.trans ?_ (State.count_kept F _ _ _ _)
  refine F.trans ?_ (State.updSec_kept F _ _)
  exact F.refl _

theorem byTarget_kept (s : State) (t : Nat) (next : State) (h : R s next) : Keeps R s (byTarget s t next) := by
  unfold byTarget
  refine F.kIte (F.kNext ?_) (mmio_kept F _ _ _ h)
  split
  · exact F.refl _
  · exact h

theorem State.rmaNext_kept (s : State) : R s (State.rmaNext s) := by
  unfold State.rmaNext
  refine F.trans ?_ (State.updRma_kept F _ _)
  exact F.refl _

theorem cancelled_kept (s : State) (x1) (x2) (x3) : R s (cancelled s x1 x2 x3) := by
  unfold cancelled
  extract_lets; rename_i y300_0
  refine F.trans ?_ (recvDone_kept F _ _)
  refine F.trans ?_ (addRecv_kept F _ _)
  refine F.trans ?_ (State.rmaNext_kept F _)
  exact F.refl _

theorem evDrop_kept (s : State) (x1) : R s (evDrop s x1) := by
  unfold evDrop
  extract_lets; rename_i y300_0
  refine F.trans ?_ (State.event_kept F _ _ _ _)
  refine F.trans ?_ (State.raise_kept F _ _ _ _ _)
  refine F.trans ?_ (State.count_kept F _ _ _ _)
  unfold y300_0
  refine F.trans ?_ (State.updSem_kept F _ _)
  exact F.refl _

theorem evWrite_kept (s : State) (x1) : R s (evWrite s x1) := by
  unfold evWrite
  extract_lets; rename_i y300_0 y300_1 y300_2 y300_3 y300_4 y300_5 y300_6 y300_7
  refine F.ite ?_ ?_
  · refine F.trans ?_ (State.count_kept F _ _ _ _)
    exact F.refl _
  · refine F.ite ?_ ?_
    · refine F.trans ?_ (evDrop_kept F _ _)
      exact F.refl _
    · refine F.ite ?_ ?_
      · unfold y300_7
        refine F.ite ?_ ?_
        · unfold y300_6
          refine F.ite ?_ ?_
          · refine F.trans ?_ (State.count_kept F _ _ _ _)
            unfold y300_5
            refine F.trans ?_ (State.updSem_kept F _ _)
            unfold y300_4
            refine F.trans ?_ (hostWrite_kept F _ _ _ _)
            exact F.refl _
          · unfold y300_5
            refine F.trans ?_ (State.updSem_kept F _ _)
            unfold y300_4
            refine F.trans ?_ (hostWrite_kept F _ _ _ _)
            exact F.refl _
        · refine F.trans ?_ (waitFor_kept F _ _ _)
          unfold y300_6
          refine F.ite ?_ ?_
          · refine F.trans ?_ (State.count_kept F _ _ _ _)
            unfold y300_5
            refine F.trans ?_ (State.updSem_kept F _ _)
            unfold y300_4
            refine F.trans ?_ (hostWrite_kept F _ _ _ _)
            exact F.refl _
          · unfold y300_5
            refine F.trans ?_ (State.updSem_kept F _ _)
            unfold y300_4
            refine F.trans ?_ (hostWrite_kept F _ _ _ _)
            exact F.refl _
      · refine F.trans ?_ (State.fire_kept F _ _)
        unfold y300_7
        refine F.ite ?_ ?_
        · unfold y300_6
          refine F.ite ?_ ?_
          · refine F.trans ?_ (State.count_kept F _ _ _ _)
            unfold y300_5
            refine F.trans ?_ (State.updSem_kept F _ _)
            unfold y300_4
            refine F.trans ?_ (hostWrite_kept F _ _ _ _)
            exact F.refl _
          · unfold y300_5
            refine F.trans ?_ (State.updSem_kept F _ _)
            unfold y300_4
            refine F.trans ?_ (hostWrite_kept F _ _ _ _)
            exact F.refl _
        · refine F.trans ?_ (waitFor_kept F _ _ _)
          unfold y300_6
          refine F.ite ?_ ?_
          · refine F.trans ?_ (State.count_kept F _ _ _ _)
            unfold y300_5
            refine F.trans ?_ (State.updSem_kept F _ _)
            unfold y300_4
            refine F.trans ?_ (hostWrite_kept F _ _ _ _)
            exact F.refl _
          · unfold y300_5
            refine F.trans ?_ (State.updSem_kept F _ _)
            unfold y300_4
            refine F.trans ?_ (hostWrite_kept F _ _ _ _)
            exact F.refl _

theorem evRecord_kept (s : State) (x1) : R s (evRecord s x1) := by
  unfold evRecord
  refine F.ite ?_ ?_
  · refine F.trans ?_ (evWrite_kept F _ _)
    exact F.refl _
  · refine F.ite ?_ ?_
    · refine F.trans ?_ (State.updSem_kept F _ _)
      exact F.refl _
    · refine F.trans ?_ (evDrop_kept F _ _)
      exact F.refl _

theorem ceilingRecord_kept (s : State) (x1) (x2) (x3) (x4) (x5) : R s (ceilingRecord s x1 x2 x3 x4 x5) := by
  unfold ceilingRecord
  split
  · refine F.trans ?_ (evRecord_kept F _ _)
    exact F.refl _
  · refine F.trans ?_ (State.count_kept F _ _ _ _)
    exact F.refl _

theorem chargeRead_kept (s : State) (x1) : R s (chargeRead s x1) := by
  unfold chargeRead
  refine F.ite ?_ ?_
  · refine F.trans ?_ (State.updCtl_kept F _ _)
    exact F.refl _
  · exact F.refl _

theorem checkedHead_kept (s : State) (x1) : R s (checkedHead s x1).1 := by
  unfold checkedHead
  split
  · refine F.pair ?_
    exact F.refl _
  · refine F.pair ?_
    refine F.trans ?_ (queueError_kept F _ _ _)
    exact F.refl _
  · extract_lets; rename_i y299_0 y299_1
    split
    · refine F.pair ?_
      refine F.trans ?_ (queueError_kept F _ _ _)
      exact F.refl _
    · split
      · refine F.pair ?_
        refine F.trans ?_ (queueError_kept F _ _ _)
        exact F.refl _
      · refine F.pair ?_
        exact F.refl _

theorem noteHdr_kept (s : State) (x1) (x2) (x3) (x4) (x5) : R s (noteHdr s x1 x2 x3 x4 x5).1 := by
  unfold noteHdr
  refine F.pair ?_
  refine F.trans ?_ (State.took_kept F _)
  exact F.refl _

theorem State.sendFrom_kept (s : State) (x1) (x2) : R s (State.sendFrom s x1 x2) := by
  unfold State.sendFrom
  refine F.trans ?_ (State.inject_kept F _ _ _)
  exact F.refl _

theorem sendColl_kept (s : State) (x1) (x2) (x3) (x4) : R s (sendColl s x1 x2 x3 x4) := by
  unfold sendColl
  extract_lets; rename_i y300_0 y300_1
  refine F.trans ?_ (State.sendFrom_kept F _ _ _)
  refine F.trans ?_ (State.took_kept F _)
  exact F.refl _

theorem startRepeat_kept (s : State) (x1) (x2) (x3) (x4) : R s (startRepeat s x1 x2 x3 x4) := by
  unfold startRepeat
  extract_lets; rename_i y300_0
  refine F.trans ?_ (State.updRow_kept F _ _ _)
  unfold y300_0
  refine F.trans ?_ (State.count_kept F _ _ _ _)
  refine F.trans ?_ (sendColl_kept F _ _ _ _ _)
  exact F.refl _

theorem discardBlocks_kept (s : State) (x1) (x2) : R s (discardBlocks s x1 x2) := by
  unfold discardBlocks
  extract_lets; rename_i y300_0
  refine F.ite ?_ ?_
  · unfold y300_0
    refine F.trans ?_ (State.updRow_kept F _ _ _)
    exact F.refl _
  · refine F.trans ?_ (State.updLast_kept F _ _ _)
    unfold y300_0
    refine F.trans ?_ (State.updRow_kept F _ _ _)
    exact F.refl _

theorem collDue_kept (s : State) (x1) (x2) (x3) : R s (collDue s x1 x2 x3) := by
  unfold collDue
  refine F.trans ?_ (State.updRow_kept F _ _ _)
  exact F.refl _

theorem rootRestart_kept (s : State) (x1) : R s (rootRestart s x1) := by
  unfold rootRestart
  extract_lets; rename_i y300_0 y300_1 y300_2 y300_3 y300_4 y300_5
  refine F.forEach (fun t a => ?_) ?_
  · refine F.trans ?_ (State.count_kept F _ _ _ _)
    refine F.trans ?_ (State.count_kept F _ _ _ _)
    refine F.trans ?_ (sendColl_kept F _ _ _ _ _)
    exact F.refl _
  · unfold y300_5
    refine F.trans ?_ (startRepeat_kept F _ _ _ _ _)
    refine F.trans ?_ (State.updRow_kept F _ _ _)
    unfold y300_4
    refine F.trans ?_ (noteHdr_kept F _ _ _ _ _ _)
    exact F.refl _

theorem firstFlood_kept (s : State) (x1) (x2) : R s (firstFlood s x1 x2) := by
  unfold firstFlood
  extract_lets; rename_i y300_0 y300_1 y300_2 y300_3
  refine F.ite ?_ ?_
  · exact F.refl _
  · refine F.ite ?_ ?_
    · refine F.ite ?_ ?_
      · refine F.trans ?_ (rootRestart_kept F _ _)
        unfold y300_3
        refine F.trans ?_ (collDue_kept F _ _ _ _)
        unfold y300_2
        refine F.trans ?_ (State.updRow_kept F _ _ _)
        refine F.trans ?_ (discardBlocks_kept F _ _ _)
        exact F.refl _
      · unfold y300_3
        refine F.trans ?_ (collDue_kept F _ _ _ _)
        unfold y300_2
        refine F.trans ?_ (State.updRow_kept F _ _ _)
        refine F.trans ?_ (discardBlocks_kept F _ _ _)
        exact F.refl _
    · refine F.trans ?_ (collDue_kept F _ _ _ _)
      unfold y300_2
      refine F.trans ?_ (State.updRow_kept F _ _ _)
      refine F.trans ?_ (discardBlocks_kept F _ _ _)
      exact F.refl _

theorem treeBreaks_kept (s : State) (x1) (x2) : R s (treeBreaks s x1 x2) := by
  unfold treeBreaks
  extract_lets; rename_i y300_0 y300_1 y300_2 y300_3 y300_4 y300_5
  refine F.ite ?_ ?_
  · exact F.refl _
  · refine F.trans ?_ (firstFlood_kept F _ _ _)
    unfold y300_5
    refine F.ite ?_ ?_
    · refine F.trans ?_ (startRepeat_kept F _ _ _ _ _)
      unfold y300_4
      refine F.trans ?_ (startRepeat_kept F _ _ _ _ _)
      unfold y300_3
      refine F.trans ?_ (State.event_kept F _ _ _ _)
      refine F.trans ?_ (State.raise_kept F _ _ _ _ _)
      refine F.trans ?_ (State.updRow_kept F _ _ _)
      unfold y300_2
      refine F.trans ?_ (noteHdr_kept F _ _ _ _ _ _)
      exact F.refl _
    · unfold y300_4
      refine F.trans ?_ (startRepeat_kept F _ _ _ _ _)
      unfold y300_3
      refine F.trans ?_ (State.event_kept F _ _ _ _)
      refine F.trans ?_ (State.raise_kept F _ _ _ _ _)
      refine F.trans ?_ (State.updRow_kept F _ _ _)
      unfold y300_2
      refine F.trans ?_ (noteHdr_kept F _ _ _ _ _ _)
      exact F.refl _

theorem joinBlock_kept (s : State) (x1) (x2) : R s (joinBlock s x1 x2) := by
  unfold joinBlock
  refine F.trans ?_ (State.updRow_kept F _ _ _)
  exact F.refl _

theorem childBlock_kept (s : State) (x1) (x2) (x3) : R s (childBlock s x1 x2 x3) := by
  unfold childBlock
  extract_lets; rename_i y300_0 y300_1 y300_2 y300_3
  refine F.ite ?_ ?_
  · refine F.trans ?_ (State.count_kept F _ _ _ _)
    exact F.refl _
  · refine F.ite ?_ ?_
    · refine F.trans ?_ (State.count_kept F _ _ _ _)
      exact F.refl _
    · refine F.ite ?_ ?_
      · refine F.trans ?_ (treeBreaks_kept F _ _ _)
        refine F.trans ?_ (State.raise_kept F _ _ _ _ _)
        refine F.trans ?_ (State.count_kept F _ _ _ _)
        exact F.refl _
      · refine F.trans ?_ (joinBlock_kept F _ _ _)
        exact F.refl _

theorem chunkResult_kept (s : State) (x1) (x2) : R s (chunkResult s x1 x2) := by
  unfold chunkResult
  refine F.ite ?_ ?_
  · exact F.refl _
  · refine F.ite ?_ ?_
    · extract_lets; rename_i y298_0
      refine F.trans ?_ (State.event_kept F _ _ _ _)
      refine F.trans ?_ (State.raise_kept F _ _ _ _ _)
      refine F.trans ?_ (State.count_kept F _ _ _ _)
      unfold y298_0
      refine F.ite ?_ ?_
      · refine F.trans ?_ (State.raise_kept F _ _ _ _ _)
        exact F.refl _
      · exact F.refl _
    · extract_lets; rename_i y298_0
      refine F.ite ?_ ?_
      · refine F.trans ?_ (State.event_kept F _ _ _ _)
        refine F.trans ?_ (State.updSec_kept F _ _)
        unfold y298_0
        refine F.trans ?_ (State.count_kept F _ _ _ _)
        refine F.trans ?_ (State.updSec_kept F _ _)
        exact F.refl _
      · unfold y298_0
        refine F.trans ?_ (State.count_kept F _ _ _ _)
        refine F.trans ?_ (State.updSec_kept F _ _)
        exact F.refl _

theorem signalTarget_kept (s : State) (x1) : R s (signalTarget s x1) := by
  unfold signalTarget
  refine F.ite ?_ ?_
  · refine F.trans ?_ (sendMsix_kept F _ _ _)
    refine F.trans ?_ (State.updClaim_kept F _ _)
    exact F.refl _
  · exact F.refl _

theorem claimRead_kept (s : State) (x1) : R s (claimRead s x1).1 := by
  unfold claimRead
  split
  · refine F.pair ?_
    refine F.ite ?_ ?_
    · refine F.trans ?_ (signalTarget_kept F _ _)
      refine F.trans ?_ (State.updClaim_kept F _ _)
      exact F.refl _
    · exact F.refl _
  · extract_lets; rename_i y299_0 y299_1
    split
    · refine F.pair ?_
      refine F.trans ?_ (State.count_kept F _ _ _ _)
      unfold y299_1
      refine F.trans ?_ (State.updClaim_kept F _ _)
      exact F.refl _
    · split
      · refine F.pair ?_
        refine F.trans ?_ (State.count_kept F _ _ _ _)
        unfold y299_1
        refine F.trans ?_ (State.updClaim_kept F _ _)
        exact F.refl _
      · split
        · split
          · refine F.pair ?_
            refine F.trans ?_ (State.count_kept F _ _ _ _)
            unfold y299_1
            refine F.trans ?_ (State.updClaim_kept F _ _)
            exact F.refl _
          · refine F.pair ?_
            refine F.trans ?_ (State.count_kept F _ _ _ _)
            unfold y299_1
            refine F.trans ?_ (State.updClaim_kept F _ _)
            exact F.refl _
        · refine F.pair ?_
          refine F.trans ?_ (State.count_kept F _ _ _ _)
          refine F.trans ?_ (updRow_kept F _ _ _)
          unfold y299_1
          refine F.trans ?_ (State.updClaim_kept F _ _)
          exact F.refl _

theorem closeCtx_kept (s : State) (x1) : R s (closeCtx s x1) := by
  unfold closeCtx
  extract_lets; rename_i y300_0
  refine F.trans ?_ (enterClosing_kept F _ _)
  refine F.trans ?_ (sendAck_kept F _ _ _ _ _)
  exact F.refl _

theorem closeIdle_kept (s : State) (x1) : R s (closeIdle s x1) := by
  unfold closeIdle
  extract_lets; rename_i y300_0
  refine F.ite ?_ ?_
  · refine F.trans ?_ (closeCtx_kept F _ _)
    exact F.refl _
  · exact F.refl _

theorem leavePlace_kept (s : State) (x1) : R s (leavePlace s x1) := by
  unfold leavePlace
  refine F.trans ?_ (State.updRma_kept F _ _)
  exact F.refl _

theorem forgetDie_kept (s : State) (x1) : R s (forgetDie s x1) := by
  unfold forgetDie
  refine F.trans ?_ (State.updRma_kept F _ _)
  exact F.refl _

theorem closingEnds_kept (s : State) (x1) : R s (closingEnds s x1) := by
  unfold closingEnds
  extract_lets; rename_i y300_0
  refine F.trans ?_ (pump_kept F _ _)
  refine F.trans ?_ (State.updReq_kept F _ _ _)
  refine F.trans ?_ (leavePlace_kept F _ _)
  refine F.trans ?_ (forgetDie_kept F _ _)
  exact F.refl _

theorem codewordRuns_kept (s : State) (x1) (x2) (x3) : R s (codewordRuns s x1 x2 x3) := by
  unfold codewordRuns
  extract_lets; rename_i y300_0
  split
  · refine F.ite ?_ ?_
    · refine F.trans ?_ (laneEnter_kept F _ _ _)
      unfold y300_0
      refine F.trans ?_ (State.updLane_kept F _ _ _)
      exact F.refl _
    · unfold y300_0
      refine F.trans ?_ (State.updLane_kept F _ _ _)
      exact F.refl _
  · refine F.ite ?_ ?_
    · refine F.trans ?_ (laneEnter_kept F _ _ _)
      unfold y300_0
      refine F.trans ?_ (State.updLane_kept F _ _ _)
      exact F.refl _
    · unfold y300_0
      refine F.trans ?_ (State.updLane_kept F _ _ _)
      exact F.refl _
  · unfold y300_0
    refine F.trans ?_ (State.updLane_kept F _ _ _)
    exact F.refl _

theorem noteBypass_kept (s : State) (x1) : R s (noteBypass s x1) := by
  unfold noteBypass
  extract_lets; rename_i y300_0 y300_1 y300_2
  refine F.ite ?_ ?_
  · refine F.ite ?_ ?_
    · refine F.trans ?_ (State.event_kept F _ _ _ _)
      refine F.trans ?_ (State.raise_kept F _ _ _ _ _)
      unfold y300_2
      refine F.trans ?_ (State.count_kept F _ _ _ _)
      unfold y300_1
      refine F.trans ?_ (State.updLane_kept F _ _ _)
      exact F.refl _
    · unfold y300_2
      refine F.trans ?_ (State.count_kept F _ _ _ _)
      unfold y300_1
      refine F.trans ?_ (State.updLane_kept F _ _ _)
      exact F.refl _
  · unfold y300_1
    refine F.trans ?_ (State.updLane_kept F _ _ _)
    exact F.refl _

theorem codewordIn_kept (s : State) (x1) (x2) : R s (codewordIn s x1 x2) := by
  unfold codewordIn
  extract_lets; rename_i y300_0 y300_1
  split
  · refine F.trans ?_ (codewordRuns_kept F _ _ _ _)
    unfold y300_0
    refine F.trans ?_ (State.count_kept F _ _ _ _)
    exact F.refl _
  · refine F.ite ?_ ?_
    · refine F.trans ?_ (codewordRuns_kept F _ _ _ _)
      unfold y300_1
      refine F.trans ?_ (noteBypass_kept F _ _)
      unfold y300_0
      refine F.trans ?_ (State.count_kept F _ _ _ _)
      exact F.refl _
    · refine F.trans ?_ (codewordRuns_kept F _ _ _ _)
      refine F.trans ?_ (State.count_kept F _ _ _ _)
      refine F.trans ?_ (State.count_kept F _ _ _ _)
      unfold y300_1
      refine F.trans ?_ (noteBypass_kept F _ _)
      unfold y300_0
      refine F.trans ?_ (State.count_kept F _ _ _ _)
      exact F.refl _
  · refine F.ite ?_ ?_
    · refine F.trans ?_ (codewordRuns_kept F _ _ _ _)
      unfold y300_1
      refine F.trans ?_ (noteBypass_kept F _ _)
      unfold y300_0
      refine F.trans ?_ (State.count_kept F _ _ _ _)
      exact F.refl _
    · refine F.trans ?_ (codewordRuns_kept F _ _ _ _)
      refine F.trans ?_ (State.event_kept F _ _ _ _)
      refine F.trans ?_ (State.raise_kept F _ _ _ _ _)
      refine F.trans ?_ (State.count_kept F _ _ _ _)
      unfold y300_1
      refine F.trans ?_ (noteBypass_kept F _ _)
      unfold y300_0
      refine F.trans ?_ (State.count_kept F _ _ _ _)
      exact F.refl _

theorem collSignals_kept (s : State) : R s (collSignals s) := by
  unfold collSignals
  extract_lets; rename_i y300_0
  refine F.forEach (fun t a => ?_) ?_
  · refine F.ite ?_ ?_
    · refine F.forEach (fun t a => ?_) ?_
      · refine F.trans ?_ (treeBreaks_kept F _ _ _)
        exact F.refl _
      · exact F.refl _
    · exact F.refl _
  · refine F.trans ?_ (State.updLasts_kept F _ _)
    exact F.refl _

theorem entryGone_kept (s : State) (x1) : R s (entryGone s x1) := by
  unfold entryGone
  extract_lets; rename_i y300_0
  refine F.forEach (fun t a => ?_) ?_
  · refine F.ite ?_ ?_
    · refine F.ite ?_ ?_
      · refine F.trans ?_ (collDue_kept F _ _ _ _)
        exact F.refl _
      · exact F.refl _
    · refine F.trans ?_ (treeBreaks_kept F _ _ _)
      exact F.refl _
  · exact F.refl _

theorem collTurn_kept (s : State) (x1) : R s (collTurn s x1) := by
  unfold collTurn
  extract_lets; rename_i y300_0
  split
  · refine F.ite ?_ ?_
    · refine F.trans ?_ (State.event_kept F _ _ _ _)
      refine F.trans ?_ (State.updRow_kept F _ _ _)
      exact F.refl _
    · exact F.refl _
  · exact F.refl _

theorem collEnter_kept (s : State) (x1) : R s (collEnter s x1) := by
  unfold collEnter
  split
  · exact F.refl _
  · extract_lets; rename_i y299_0
    split
    · refine F.trans ?_ (State.updRow_kept F _ _ _)
      unfold y299_0
      refine F.trans ?_ (enterColl_kept F _ _ _ _)
      exact F.refl _
    · refine F.trans ?_ (State.event_kept F _ _ _ _)
      refine F.trans ?_ (endOps_kept F _ _ _)
      refine F.trans ?_ (discardBlocks_kept F _ _ _)
      unfold y299_0
      refine F.trans ?_ (enterColl_kept F _ _ _ _)
      exact F.refl _
    · refine F.trans ?_ (State.event_kept F _ _ _ _)
      refine F.trans ?_ (endOps_kept F _ _ _)
      refine F.trans ?_ (discardBlocks_kept F _ _ _)
      unfold y299_0
      refine F.trans ?_ (enterColl_kept F _ _ _ _)
      exact F.refl _
    · unfold y299_0
      refine F.trans ?_ (enterColl_kept F _ _ _ _)
      exact F.refl _

theorem cpReady_kept (s : State) (x1) : R s (cpReady s x1) := by
  unfold cpReady
  extract_lets; rename_i y300_0
  refine F.ite ?_ ?_
  · refine F.trans ?_ (becomeReady_kept F _ _ _)
    exact F.refl _
  · exact F.refl _

theorem memberBlock_kept (s : State) (x1) (x2) (x3) (x4) : R s (memberBlock s x1 x2 x3 x4) := by
  unfold memberBlock
  split
  · extract_lets; rename_i y299_0
    refine F.trans ?_ (joinBlock_kept F _ _ _)
    exact F.refl _
  · refine F.trans ?_ (joinBlock_kept F _ _ _)
    exact F.refl _

theorem contribute_kept (s : State) (x1) (x2) (x3) : R s (contribute s x1 x2 x3) := by
  unfold contribute
  extract_lets; rename_i y300_0 y300_1
  refine F.ite ?_ ?_
  · refine F.trans ?_ (joinBlock_kept F _ _ _)
    exact F.refl _
  · split
    · refine F.trans ?_ (memberBlock_kept F _ _ _ _ _)
      exact F.refl _
    · refine F.ite ?_ ?_
      · refine F.trans ?_ (memberBlock_kept F _ _ _ _ _)
        exact F.refl _
      · split
        · refine F.trans ?_ (State.updRow_kept F _ _ _)
          unfold y300_1
          refine F.trans ?_ (accessBufs_kept F _ _ _ _ _)
          exact F.refl _
        · refine F.trans ?_ (memberBlock_kept F _ _ _ _ _)
          unfold y300_1
          refine F.trans ?_ (accessBufs_kept F _ _ _ _ _)
          exact F.refl _
        · refine F.trans ?_ (readGrants_kept F _ _ _)
          refine F.trans ?_ (State.updRow_kept F _ _ _)
          unfold y300_1
          refine F.trans ?_ (accessBufs_kept F _ _ _ _ _)
          exact F.refl _

theorem contributeRun_kept (s : State) (r n : Nat) : R s (contributeRun s r n) := by
  induction n generalizing s with
  | zero => exact F.refl _
  | succ n ih =>
    unfold contributeRun
    dsimp only
    split
    · exact F.refl _
    · split
      · exact F.refl _
      · exact F.after (ih _) (F.after (contribute_kept F _ _ _ _) (State.updRow_kept F _ _ _))

theorem collPump_kept (s : State) (x1) : R s (collPump s x1) := by
  unfold collPump
  refine F.trans ?_ (contributeRun_kept F _ _ _)
  exact F.refl _

theorem collReady_kept (s : State) (x1) : R s (collReady s x1) := by
  unfold collReady
  extract_lets; rename_i y300_0 y300_1
  refine F.ite ?_ ?_
  · refine F.trans ?_ (collPump_kept F _ _)
    refine F.trans ?_ (enterColl_kept F _ _ _ _)
    exact F.refl _
  · exact F.refl _

theorem collBoundary_kept (s : State) (x1) : R s (collBoundary s x1) := by
  unfold collBoundary
  extract_lets; rename_i y300_0 y300_1 y300_2 y300_3 y300_4 y300_5 y300_6
  refine F.forEach (fun t a => ?_) ?_
  · refine F.ite ?_ ?_
    · refine F.trans ?_ (State.count_kept F _ _ _ _)
      exact F.refl _
    · exact F.refl _
  · unfold y300_6
    refine F.ite ?_ ?_
    · refine F.forEach (fun t a => ?_) ?_
      · refine F.trans ?_ (collReady_kept F _ _)
        exact F.refl _
      · unfold y300_5
        refine F.trans ?_ (State.updColl_kept F _ _)
        unfold y300_4
        refine F.forEach (fun t a => ?_) ?_
        · refine F.trans ?_ (cpReady_kept F _ _)
          exact F.refl _
        · unfold y300_3
          refine F.forEach (fun t a => ?_) ?_
          · refine F.trans ?_ (collTurn_kept F _ _)
            refine F.trans ?_ (collEnter_kept F _ _)
            exact F.refl _
          · unfold y300_1
            refine F.forEach (fun t a => ?_) ?_
            · refine F.trans ?_ (entryGone_kept F _ _)
              exact F.refl _
            · refine F.trans ?_ (collSignals_kept F _)
              exact F.refl _
    · unfold y300_5
      refine F.trans ?_ (State.updColl_kept F _ _)
      unfold y300_4
      refine F.forEach (fun t a => ?_) ?_
      · refine F.trans ?_ (cpReady_kept F _ _)
        exact F.refl _
      · unfold y300_3
        refine F.forEach (fun t a => ?_) ?_
        · refine F.trans ?_ (collTurn_kept F _ _)
          refine F.trans ?_ (collEnter_kept F _ _)
          exact F.refl _
        · unfold y300_1
          refine F.forEach (fun t a => ?_) ?_
          · refine F.trans ?_ (entryGone_kept F _ _)
            exact F.refl _
          · refine F.trans ?_ (collSignals_kept F _)
            exact F.refl _

theorem collBufferError_kept (s : State) (x1) (x2) : R s (collBufferError s x1 x2) := by
  unfold collBufferError
  refine F.ite ?_ ?_
  · refine F.trans ?_ (State.raise_kept F _ _ _ _ _)
    refine F.trans ?_ (State.updRow_kept F _ _ _)
    exact F.refl _
  · exact F.refl _

theorem collReset_kept (s : State) (x1) : R s (collReset s x1) := by
  unfold collReset
  refine F.forEach (fun t a => ?_) ?_
  · refine F.ite ?_ ?_
    · extract_lets; rename_i y298_0
      refine F.ite ?_ ?_
      · refine F.trans ?_ (collDue_kept F _ _ _ _)
        unfold y298_0
        refine F.trans ?_ (State.updRow_kept F _ _ _)
        exact F.refl _
      · unfold y298_0
        refine F.trans ?_ (State.updRow_kept F _ _ _)
        exact F.refl _
    · exact F.refl _
  · exact F.refl _

theorem settleOp_kept (s : State) (x1) (x2) : R s (settleOp s x1 x2) := by
  unfold settleOp
  extract_lets; rename_i y300_0
  split
  · exact F.refl _
  · refine F.ite ?_ ?_
    · exact F.refl _
    · refine F.ite ?_ ?_
      · refine F.trans ?_ (endOp_kept F _ _ _ _)
        exact F.refl _
      · split
        · refine F.trans ?_ (endOp_kept F _ _ _ _)
          exact F.refl _
        · refine F.ite ?_ ?_
          · exact F.refl _
          · refine F.trans ?_ (endOp_kept F _ _ _ _)
            exact F.refl _

theorem updOp_kept (s : State) (x1) (x2) (x3) : R s (updOp s x1 x2 x3) := by
  unfold updOp
  refine F.trans ?_ (State.updRow_kept F _ _ _)
  exact F.refl _

theorem writePieces_kept (s : State) (func : Nat) (seg : Option Nat) (chk : Nat) (l : List Piece) (d : List Byte) : R s (writePieces s func seg chk l d).1 := by
  induction l generalizing s d with
  | nil => exact F.refl _
  | cons b l ih =>
    unfold writePieces
    exact F.after (ih _ _) (issueWrite_kept F _ _ _ _ _ _)

theorem writeGrants_kept (s : State) (l : List Grant) (d : List Byte) : R s (writeGrants s l d).1 := by
  induction l generalizing s d with
  | nil => exact F.refl _
  | cons b l ih =>
    unfold writeGrants
    exact F.after (ih _ _) (writePieces_kept F _ _ _ _ _ _)

theorem writeResult_kept (s : State) (x1) (x2) (x3) : R s (writeResult s x1 x2 x3) := by
  unfold writeResult
  refine F.ite ?_ ?_
  · exact F.refl _
  · extract_lets; rename_i y299_0
    split
    · refine F.trans ?_ (updOp_kept F _ _ _ _)
      unfold y299_0
      refine F.trans ?_ (accessBufs_kept F _ _ _ _ _)
      exact F.refl _
    · refine F.trans ?_ (updOp_kept F _ _ _ _)
      unfold y299_0
      refine F.trans ?_ (accessBufs_kept F _ _ _ _ _)
      exact F.refl _
    · extract_lets; rename_i y297_0
      refine F.trans ?_ (updOp_kept F _ _ _ _)
      unfold y297_0
      refine F.trans ?_ (writeGrants_kept F _ _ _)
      unfold y299_0
      refine F.trans ?_ (accessBufs_kept F _ _ _ _ _)
      exact F.refl _

theorem takePiece_kept (s : State) (x1) (x2) (x3) (x4) : R s (takePiece s x1 x2 x3 x4) := by
  unfold takePiece
  extract_lets; rename_i y300_0
  refine F.trans ?_ (settleOp_kept F _ _ _)
  refine F.ite ?_ ?_
  · refine F.trans ?_ (writeResult_kept F _ _ _ _)
    unfold y300_0
    refine F.trans ?_ (updOp_kept F _ _ _ _)
    exact F.refl _
  · unfold y300_0
    refine F.trans ?_ (updOp_kept F _ _ _ _)
    exact F.refl _

theorem ownPiece_kept (s : State) (x1) (x2) (x3) : R s (ownPiece s x1 x2 x3) := by
  unfold ownPiece
  extract_lets; rename_i y300_0 y300_1 y300_2 y300_3
  refine F.trans ?_ (takePiece_kept F _ _ _ _ _)
  refine F.trans ?_ (updOp_kept F _ _ _ _)
  unfold y300_3
  refine F.trans ?_ (State.count_kept F _ _ _ _)
  refine F.trans ?_ (sendColl_kept F _ _ _ _ _)
  unfold y300_1
  refine F.trans ?_ (noteHdr_kept F _ _ _ _ _ _)
  exact F.refl _

theorem noPiece_kept (s : State) (x1) (x2) (x3) (x4) : R s (noPiece s x1 x2 x3 x4) := by
  unfold noPiece
  refine F.trans ?_ (settleOp_kept F _ _ _)
  refine F.trans ?_ (updOp_kept F _ _ _ _)
  exact F.refl _

theorem readPiece_kept (s : State) (x1) (x2) : R s (readPiece s x1 x2) := by
  unfold readPiece
  split
  · refine F.trans ?_ (ownPiece_kept F _ _ _ _)
    exact F.refl _
  · refine F.ite ?_ ?_
    · refine F.trans ?_ (ownPiece_kept F _ _ _ _)
      exact F.refl _
    · extract_lets; rename_i y298_0
      split
      · refine F.trans ?_ (State.updRow_kept F _ _ _)
        unfold y298_0
        refine F.trans ?_ (accessBufs_kept F _ _ _ _ _)
        exact F.refl _
      · refine F.trans ?_ (noPiece_kept F _ _ _ _ _)
        unfold y298_0
        refine F.trans ?_ (accessBufs_kept F _ _ _ _ _)
        exact F.refl _
      · refine F.trans ?_ (readGrants_kept F _ _ _)
        refine F.trans ?_ (State.updRow_kept F _ _ _)
        unfold y298_0
        refine F.trans ?_ (accessBufs_kept F _ _ _ _ _)
        exact F.refl _

theorem collRetry_kept (s : State) (x1) : R s (collRetry s x1) := by
  unfold collRetry
  extract_lets; rename_i y300_0 y300_1 y300_2
  refine F.forEach (fun t a => ?_) ?_
  · split
    · refine F.ite ?_ ?_
      · refine F.trans ?_ (readPiece_kept F _ _ _)
        exact F.refl _
      · refine F.trans ?_ (contribute_kept F _ _ _ _)
        exact F.refl _
    · exact F.refl _
  · unfold y300_2
    refine F.forEach (fun t a => ?_) ?_
    · refine F.trans ?_ (settleOp_kept F _ _ _)
      refine F.forEach (fun t a => ?_) ?_
      · refine F.trans ?_ (writeResult_kept F _ _ _ _)
        exact F.refl _
      · exact F.refl _
    · unfold y300_1
      refine F.trans ?_ (State.updRow_kept F _ _ _)
      exact F.refl _

theorem collReturn_kept (s : State) (x1) (x2) (x3) (x4) : R s (collReturn s x1 x2 x3 x4) := by
  unfold collReturn
  extract_lets; rename_i y300_0 y300_1
  refine F.ite ?_ ?_
  · exact F.refl _
  · split
    · unfold y300_1
      refine F.trans ?_ (State.updRow_kept F _ _ _)
      exact F.refl _
    · refine F.ite ?_ ?_
      · refine F.ite ?_ ?_
        · refine F.trans ?_ (noPiece_kept F _ _ _ _ _)
          unfold y300_1
          refine F.trans ?_ (State.updRow_kept F _ _ _)
          exact F.refl _
        · refine F.trans ?_ (ownPiece_kept F _ _ _ _)
          unfold y300_1
          refine F.trans ?_ (State.updRow_kept F _ _ _)
          exact F.refl _
      · refine F.trans ?_ (memberBlock_kept F _ _ _ _ _)
        unfold y300_1
        refine F.trans ?_ (State.updRow_kept F _ _ _)
        exact F.refl _

theorem collStart_kept (s : State) (x1) : R s (collStart s x1).1 := by
  unfold collStart
  extract_lets; rename_i y300_0 y300_1 y300_2 y300_3 y300_4 y300_5 y300_6 y300_7
  split
  · refine F.pair ?_
    refine F.trans ?_ (finishEntry_kept F _ _ _ _ _ _)
    exact F.refl _
  · split
    · refine F.pair ?_
      unfold y300_4
      refine F.trans ?_ (checkBufs_kept F _ _ _ _)
      exact F.refl _
    · refine F.pair ?_
      refine F.trans ?_ (failEntry_kept F _ _ _ _ _ _)
      unfold y300_4
      refine F.trans ?_ (checkBufs_kept F _ _ _ _)
      exact F.refl _
    · split
      · refine F.pair ?_
        unfold y300_6
        refine F.trans ?_ (checkBufs_kept F _ _ _ _)
        unfold y300_4
        refine F.trans ?_ (checkBufs_kept F _ _ _ _)
        exact F.refl _
      · refine F.pair ?_
        refine F.trans ?_ (failEntry_kept F _ _ _ _ _ _)
        unfold y300_6
        refine F.trans ?_ (checkBufs_kept F _ _ _ _)
        unfold y300_4
        refine F.trans ?_ (checkBufs_kept F _ _ _ _)
        exact F.refl _
      · refine F.pair ?_
        refine F.trans ?_ (collPump_kept F _ _)
        unfold y300_7
        refine F.trans ?_ (State.updRow_kept F _ _ _)
        refine F.trans ?_ (State.count_kept F _ _ _ _)
        unfold y300_6
        refine F.trans ?_ (checkBufs_kept F _ _ _ _)
        unfold y300_4
        refine F.trans ?_ (checkBufs_kept F _ _ _ _)
        exact F.refl _

theorem completeAll_kept (s : State) (x1) : R s (completeAll s x1) := by
  unfold completeAll
  refine F.trans ?_ (State.updClaim_kept F _ _)
  exact F.refl _

theorem consume_kept (s : State) (x1) (x2) (x3) : R s (consume s x1 x2 x3) := by
  unfold consume
  extract_lets; rename_i y300_0 y300_1 y300_2 y300_3 y300_4
  refine F.trans ?_ (fetchQueue_kept F _ _)
  refine F.trans ?_ (State.count_kept F _ _ _ _)
  refine F.trans ?_ (oweUnit_kept F _ _)
  unfold y300_4
  refine F.trans ?_ (State.updQueues_kept F _ _)
  unfold y300_3
  refine F.trans ?_ (State.updQueue_kept F _ _ _)
  exact F.refl _

theorem park_kept (s : State) (x1) (x2) : R s (park s x1 x2) := by
  unfold park
  refine F.ite ?_ ?_
  · refine F.trans ?_ (State.updRma_kept F _ _)
    exact F.refl _
  · refine F.trans ?_ (ackAlone_kept F _ _ _)
    refine F.trans ?_ (State.event_kept F _ _ _ _)
    refine F.trans ?_ (State.raise_kept F _ _ _ _ _)
    refine F.trans ?_ (State.count_kept F _ _ _ _)
    exact F.refl _

theorem refusePkt_kept (s : State) (x1) (x2) (x3) (x4) : R s (refusePkt s x1 x2 x3 x4) := by
  unfold refusePkt
  refine F.trans ?_ (ackContext_kept F _ _ _)
  refine F.trans ?_ (accept_kept F _ _ _ _ _)
  exact F.refl _

theorem refuseAccess_kept (s : State) (x1) (x2) (x3) (x4) : R s (refuseAccess s x1 x2 x3 x4) := by
  unfold refuseAccess
  refine F.trans ?_ (refusePkt_kept F _ _ _ _ _)
  refine F.trans ?_ (State.event_kept F _ _ _ _)
  refine F.trans ?_ (State.raise_kept F _ _ _ _ _)
  refine F.trans ?_ (State.count_kept F _ _ _ _)
  exact F.refl _

theorem startGet_kept (s : State) (x1) (x2) (x3) (x4) (x5) (x6) : R s (startGet s x1 x2 x3 x4 x5 x6) := by
  unfold startGet
  extract_lets; rename_i y300_0 y300_1 y300_2
  refine F.forEach (fun t a => ?_) ?_
  · refine F.trans ?_ (readGrants_kept F _ _ _)
    exact F.refl _
  · refine F.trans ?_ (State.updRma_kept F _ _)
    refine F.trans ?_ (State.rmaNext_kept F _)
    exact F.refl _

theorem execGetPkt_kept (s : State) (x1) (x2) (x3) (x4) : R s (execGetPkt s x1 x2 x3 x4) := by
  unfold execGetPkt
  extract_lets; rename_i y300_0 y300_1 y300_2
  refine F.ite ?_ ?_
  · refine F.ite ?_ ?_
    · refine F.trans ?_ (ackContext_kept F _ _ _)
      exact F.refl _
    · refine F.trans ?_ (refuseAccess_kept F _ _ _ _ _)
      exact F.refl _
  · refine F.ite ?_ ?_
    · refine F.ite ?_ ?_
      · refine F.trans ?_ (ackContext_kept F _ _ _)
        exact F.refl _
      · refine F.trans ?_ (refuseAccess_kept F _ _ _ _ _)
        exact F.refl _
    · split
      · refine F.trans ?_ (park_kept F _ _ _)
        unfold y300_2
        refine F.trans ?_ (access_kept F _ _ _ _ _ _ _)
        exact F.refl _
      · refine F.ite ?_ ?_
        · refine F.trans ?_ (ackContext_kept F _ _ _)
          unfold y300_2
          refine F.trans ?_ (access_kept F _ _ _ _ _ _ _)
          exact F.refl _
        · refine F.trans ?_ (refuseAccess_kept F _ _ _ _ _)
          unfold y300_2
          refine F.trans ?_ (access_kept F _ _ _ _ _ _ _)
          exact F.refl _
      · refine F.trans ?_ (startGet_kept F _ _ _ _ _ _ _)
        refine F.ite ?_ ?_
        · unfold y300_2
          refine F.trans ?_ (access_kept F _ _ _ _ _ _ _)
          exact F.refl _
        · refine F.trans ?_ (accept_kept F _ _ _ _ _)
          unfold y300_2
          refine F.trans ?_ (access_kept F _ _ _ _ _ _ _)
          exact F.refl _

theorem replayAtomic_kept (s : State) (x1) (x2) : R s (replayAtomic s x1 x2) := by
  unfold replayAtomic
  refine F.ite ?_ ?_
  · exact F.refl _
  · split
    · refine F.trans ?_ (sendAtomicResp_kept F _ _ _ _ _ _ _ _)
      refine F.trans ?_ (State.count_kept F _ _ _ _)
      exact F.refl _
    · refine F.trans ?_ (sendAtomicResp_kept F _ _ _ _ _ _ _ _)
      exact F.refl _

theorem execDuplicate_kept (s : State) (x1) (x2) (x3) : R s (execDuplicate s x1 x2 x3) := by
  unfold execDuplicate
  extract_lets; rename_i y300_0
  refine F.ite ?_ ?_
  · refine F.trans ?_ (execGetPkt_kept F _ _ _ _ _)
    unfold y300_0
    refine F.ite ?_ ?_
    · exact F.refl _
    · refine F.trans ?_ (State.count_kept F _ _ _ _)
      exact F.refl _
  · refine F.ite ?_ ?_
    · refine F.trans ?_ (replayAtomic_kept F _ _ _)
      unfold y300_0
      refine F.ite ?_ ?_
      · exact F.refl _
      · refine F.trans ?_ (State.count_kept F _ _ _ _)
        exact F.refl _
    · refine F.trans ?_ (ackContext_kept F _ _ _)
      refine F.trans ?_ (State.updResp_kept F _ _ _)
      unfold y300_0
      refine F.ite ?_ ?_
      · exact F.refl _
      · refine F.trans ?_ (State.count_kept F _ _ _ _)
        exact F.refl _

theorem retryLater_kept (s : State) (x1) (x2) : R s (retryLater s x1 x2) := by
  unfold retryLater
  extract_lets; rename_i y300_0
  refine F.trans ?_ (ackAlone_kept F _ _ _)
  unfold y300_0
  refine F.trans ?_ (State.updResp_kept F _ _ _)
  exact F.refl _

theorem lastSeen_kept (x0) (x1) (s : State) : R s (lastSeen x0 x1 s) := by
  unfold lastSeen
  refine F.ite ?_ ?_
  · refine F.trans ?_ (State.updMtch_kept F _ _)
    exact F.refl _
  · exact F.refl _

theorem writeParts_kept (s : State) (l : List KeyAccess) (x : List Piece) (d : List Byte) : R s (writeParts s l x d).1 := by
  induction l generalizing s x d with
  | nil => unfold writeParts; exact F.refl _
  | cons b l ih =>
    cases x with
    | nil => exact F.refl _
    | cons y x =>
      unfold writeParts
      refine F.after (ih _ _ _) ?_
      dsimp only
      split
      · exact writePieces_kept F _ _ _ _ _ _
      · exact F.refl _
      · exact F.refl _

theorem writeBuffer_kept (s : State) (x1) (x2) (x3) (x4) (x5) : R s (writeBuffer s x1 x2 x3 x4 x5).1 := by
  unfold writeBuffer
  extract_lets; rename_i y300_0 y300_1
  split
  · refine F.pair ?_
    unfold y300_1
    refine F.trans ?_ (accessParts_kept F _ _ _ _ _)
    exact F.refl _
  · refine F.trans ?_ (writeParts_kept F _ _ _ _)
    unfold y300_1
    refine F.trans ?_ (accessParts_kept F _ _ _ _ _)
    exact F.refl _

theorem recvPiece_kept (s : State) (x1) (x2) (x3) : R s (recvPiece s x1 x2 x3).1 := by
  unfold recvPiece
  extract_lets; rename_i y300_0 y300_1
  split
  · refine F.pair ?_
    exact F.refl _
  · split
    · refine F.pair ?_
      unfold y300_1
      refine F.trans ?_ (writeBuffer_kept F _ _ _ _ _ _)
      exact F.refl _
    · refine F.pair ?_
      refine F.trans ?_ (updRecv_kept F _ _ _)
      unfold y300_1
      refine F.trans ?_ (writeBuffer_kept F _ _ _ _ _ _)
      exact F.refl _

theorem pieceWritten_kept (key : Nat) (p : Packet) (f : Inflow) (was : Bool) (w : State × Option (List Nat)) : R w.1 (pieceWritten key p f was w) := by
  obtain ⟨s, o⟩ := w
  cases o with
  | none => exact park_kept F _ _ _
  | some t => exact F.after (accept_kept F _ _ _ _ _) (lastSeen_kept F _ _ _)

theorem sendPiece_kept (s : State) (key : Nat) (p : Packet) (f : Inflow) (was : Bool) : R s (sendPiece s key p f was) := by
  unfold sendPiece
  extract_lets y0
  split
  · exact F.after (refusePkt_kept F _ _ _ _ _) (lastSeen_kept F _ _ _)
  · split
    · split
      · exact F.after (accept_kept F _ _ _ _ _) (lastSeen_kept F _ _ _)
      · exact F.after (pieceWritten_kept F _ _ _ _ _) (recvPiece_kept F _ _ _ _)
    · split
      · exact F.after (accept_kept F _ _ _ _ _) (lastSeen_kept F _ _ _)
      · extract_lets y1
        exact F.after (accept_kept F _ _ _ _ _) (F.after (lastSeen_kept F _ _ _) (hostWrite_kept F _ _ _ _))

theorem refuseSend_kept (s : State) (x1) (x2) (x3) : R s (refuseSend s x1 x2 x3) := by
  unfold refuseSend
  extract_lets; rename_i y300_0
  refine F.trans ?_ (refusePkt_kept F _ _ _ _ _)
  refine F.ite ?_ ?_
  · exact F.refl _
  · refine F.trans ?_ (addInflow_kept F _ _)
    exact F.refl _

theorem noteNoRing_kept (s : State) (x1) : R s (noteNoRing s x1) := by
  unfold noteNoRing
  split
  · refine F.trans ?_ (State.count_kept F _ _ _ _)
    exact F.refl _
  · exact F.refl _

theorem submit_kept (s : State) (x1) (x2) : R s (submit s x1 x2) := by
  unfold submit
  extract_lets; rename_i y300_0
  refine F.trans ?_ (pump_kept F _ _)
  refine F.trans ?_ (State.updReq_kept F _ _ _)
  refine F.trans ?_ (State.rmaNext_kept F _)
  exact F.refl _

theorem startRndv_kept (s : State) (x1) (x2) : R s (startRndv s x1 x2) := by
  unfold startRndv
  extract_lets; rename_i y300_0 y300_1
  refine F.trans ?_ (submit_kept F _ _ _)
  refine F.trans ?_ (State.count_kept F _ _ _ _)
  exact F.refl _

theorem sendMatched_kept (s : State) (x1) (x2) (x3) (x4) (x5) : R s (sendMatched s x1 x2 x3 x4 x5) := by
  unfold sendMatched
  split
  · refine F.trans ?_ (retryLater_kept F _ _ _)
    refine F.trans ?_ (noteNoRing_kept F _ _)
    exact F.refl _
  · extract_lets; rename_i y299_0 y299_1 y299_2 y299_3 y299_4 y299_5
    refine F.ite ?_ ?_
    · refine F.trans ?_ (startRndv_kept F _ _ _)
      refine F.trans ?_ (accept_kept F _ _ _ _ _)
      unfold y299_4
      refine F.trans ?_ (addRecv_kept F _ _)
      refine F.trans ?_ (State.count_kept F _ _ _ _)
      unfold y299_3
      refine F.trans ?_ (State.updMep_kept F _ _ _)
      refine F.trans ?_ (State.rmaNext_kept F _)
      exact F.refl _
    · refine F.trans ?_ (sendPiece_kept F _ _ _ _ _)
      refine F.trans ?_ (addInflow_kept F _ _)
      unfold y299_4
      refine F.trans ?_ (addRecv_kept F _ _)
      refine F.trans ?_ (State.count_kept F _ _ _ _)
      unfold y299_3
      refine F.trans ?_ (State.updMep_kept F _ _ _)
      refine F.trans ?_ (State.rmaNext_kept F _)
      exact F.refl _

theorem noteOverflow_kept (s : State) : R s (noteOverflow s) := by
  unfold noteOverflow
  refine F.trans ?_ (State.event_kept F _ _ _ _)
  refine F.trans ?_ (State.raise_kept F _ _ _ _ _)
  exact F.refl _

theorem takeSlot_kept (s : State) (x1) : R s (takeSlot s x1).1 := by
  unfold takeSlot
  extract_lets; rename_i y300_0 y300_1
  split
  · refine F.pair ?_
    exact F.refl _
  · refine F.pair ?_
    refine F.trans ?_ (State.updMep_kept F _ _ _)
    refine F.trans ?_ (State.took_kept F _)
    exact F.refl _

theorem noteSpill_kept (s : State) (x1) (x2) : R s (noteSpill s x1 x2) := by
  unfold noteSpill
  extract_lets; rename_i y300_0 y300_1
  refine F.ite ?_ ?_
  · unfold y300_1
    refine F.trans ?_ (State.count_kept F _ _ _ _)
    exact F.refl _
  · refine F.trans ?_ (State.raise_kept F _ _ _ _ _)
    refine F.trans ?_ (State.updMep_kept F _ _ _)
    unfold y300_1
    refine F.trans ?_ (State.count_kept F _ _ _ _)
    exact F.refl _

theorem enterSpill_kept (s : State) (x1) (x2) : R s (enterSpill s x1 x2) := by
  unfold enterSpill
  refine F.ite ?_ ?_
  · exact F.refl _
  · refine F.trans ?_ (State.event_kept F _ _ _ _)
    refine F.trans ?_ (State.updMep_kept F _ _ _)
    exact F.refl _

theorem takeEntry_kept (s : State) (x1) : R s (takeEntry s x1).1 := by
  unfold takeEntry
  extract_lets; rename_i y300_0 y300_1 y300_2
  split
  · refine F.pair ?_
    exact F.refl _
  · refine F.pair ?_
    refine F.trans ?_ (State.took_kept F _)
    exact F.refl _

theorem insertUnexp_kept (s : State) (x1) (x2) : R s (insertUnexp s x1 x2) := by
  unfold insertUnexp
  extract_lets; rename_i y300_0 y300_1
  refine F.ite ?_ ?_
  · refine F.trans ?_ (noteSpill_kept F _ _ _)
    refine F.trans ?_ (State.updMep_kept F _ _ _)
    refine F.trans ?_ (enterSpill_kept F _ _ _)
    exact F.refl _
  · refine F.trans ?_ (State.updMep_kept F _ _ _)
    unfold y300_1
    refine F.trans ?_ (takeEntry_kept F _ _)
    exact F.refl _

theorem sendUnexp_kept (s : State) (x1) (x2) (x3) (x4) : R s (sendUnexp s x1 x2 x3 x4) := by
  unfold sendUnexp
  extract_lets; rename_i y300_0 y300_1 y300_2 y300_3 y300_4 y300_5 y300_6 y300_7
  refine F.ite ?_ ?_
  · refine F.trans ?_ (refuseSend_kept F _ _ _ _)
    refine F.trans ?_ (State.raise_kept F _ _ _ _ _)
    exact F.refl _
  · refine F.ite ?_ ?_
    · refine F.trans ?_ (retryLater_kept F _ _ _)
      refine F.trans ?_ (noteOverflow_kept F _)
      exact F.refl _
    · refine F.ite ?_ ?_
      · refine F.trans ?_ (retryLater_kept F _ _ _)
        refine F.trans ?_ (State.event_kept F _ _ _ _)
        refine F.trans ?_ (State.raise_kept F _ _ _ _ _)
        refine F.trans ?_ (State.count_kept F _ _ _ _)
        exact F.refl _
      · refine F.ite ?_ ?_
        · refine F.trans ?_ (accept_kept F _ _ _ _ _)
          unfold y300_6
          refine F.trans ?_ (State.count_kept F _ _ _ _)
          refine F.trans ?_ (insertUnexp_kept F _ _ _)
          unfold y300_5
          refine F.trans ?_ (State.updMep_kept F _ _ _)
          unfold y300_2
          split
          · refine F.trans ?_ (takeSlot_kept F _ _)
            exact F.refl _
          · refine F.pair ?_
            exact F.refl _
        · refine F.trans ?_ (sendPiece_kept F _ _ _ _ _)
          refine F.trans ?_ (addInflow_kept F _ _)
          unfold y300_6
          refine F.trans ?_ (State.count_kept F _ _ _ _)
          refine F.trans ?_ (insertUnexp_kept F _ _ _)
          unfold y300_5
          refine F.trans ?_ (State.updMep_kept F _ _ _)
          unfold y300_2
          split
          · refine F.trans ?_ (takeSlot_kept F _ _)
            exact F.refl _
          · refine F.pair ?_
            exact F.refl _

theorem countArrival_kept (s : State) (x1) (x2) : R s (countArrival s x1 x2) := by
  unfold countArrival
  extract_lets; rename_i y300_0 y300_1 y300_2 y300_3 y300_4 y300_5 y300_6
  refine F.ite ?_ ?_
  · unfold y300_5
    refine F.ite ?_ ?_
    · exact F.refl _
    · refine F.trans ?_ (State.count_kept F _ _ _ _)
      exact F.refl _
  · refine F.trans ?_ (State.count_kept F _ _ _ _)
    unfold y300_5
    refine F.ite ?_ ?_
    · exact F.refl _
    · refine F.trans ?_ (State.count_kept F _ _ _ _)
      exact F.refl _

theorem sendFirst_kept (s : State) (x1) (x2) (x3) : R s (sendFirst s x1 x2 x3) := by
  unfold sendFirst
  extract_lets; rename_i y300_0 y300_1 y300_2 y300_3
  refine F.ite ?_ ?_
  · refine F.trans ?_ (refuseSend_kept F _ _ _ _)
    exact F.refl _
  · refine F.ite ?_ ?_
    · refine F.trans ?_ (refuseSend_kept F _ _ _ _)
      exact F.refl _
    · refine F.ite ?_ ?_
      · refine F.trans ?_ (refuseSend_kept F _ _ _ _)
        exact F.refl _
      · refine F.ite ?_ ?_
        · refine F.trans ?_ (park_kept F _ _ _)
          exact F.refl _
        · refine F.ite ?_ ?_
          · split
            · exact F.refl _
            · split
              · refine F.trans ?_ (sendMatched_kept F _ _ _ _ _ _)
                unfold y300_3
                refine F.trans ?_ (State.updMep_kept F _ _ _)
                exact F.refl _
              · refine F.trans ?_ (sendUnexp_kept F _ _ _ _ _)
                unfold y300_3
                refine F.trans ?_ (State.updMep_kept F _ _ _)
                exact F.refl _
          · split
            · refine F.trans ?_ (sendMatched_kept F _ _ _ _ _ _)
              refine F.trans ?_ (countArrival_kept F _ _ _)
              exact F.refl _
            · refine F.ite ?_ ?_
              · refine F.trans ?_ (sendUnexp_kept F _ _ _ _ _)
                refine F.trans ?_ (countArrival_kept F _ _ _)
                exact F.refl _
              · refine F.trans ?_ (State.updMep_kept F _ _ _)
                refine F.trans ?_ (countArrival_kept F _ _ _)
                exact F.refl _

theorem execSendPkt_kept (s : State) (x1) (x2) (x3) : R s (execSendPkt s x1 x2 x3) := by
  unfold execSendPkt
  split
  · refine F.trans ?_ (sendPiece_kept F _ _ _ _ _)
    exact F.refl _
  · refine F.ite ?_ ?_
    · refine F.trans ?_ (sendFirst_kept F _ _ _ _)
      exact F.refl _
    · refine F.trans ?_ (park_kept F _ _ _)
      refine F.ite ?_ ?_
      · exact F.refl _
      · refine F.trans ?_ (State.count_kept F _ _ _ _)
        exact F.refl _

theorem execAtomicPkt_kept (s : State) (x1) (x2) (x3) : R s (execAtomicPkt s x1 x2 x3) := by
  unfold execAtomicPkt
  extract_lets; rename_i y300_0 y300_1 y300_2 y300_3
  refine F.ite ?_ ?_
  · refine F.trans ?_ (refuseAccess_kept F _ _ _ _ _)
    exact F.refl _
  · refine F.ite ?_ ?_
    · refine F.trans ?_ (refuseAccess_kept F _ _ _ _ _)
      exact F.refl _
    · split
      · refine F.trans ?_ (park_kept F _ _ _)
        unfold y300_1
        refine F.trans ?_ (access_kept F _ _ _ _ _ _ _)
        exact F.refl _
      · refine F.trans ?_ (refuseAccess_kept F _ _ _ _ _)
        unfold y300_1
        refine F.trans ?_ (access_kept F _ _ _ _ _ _ _)
        exact F.refl _
      · extract_lets; rename_i y296_0 y296_1 y296_2
        refine F.trans ?_ (issueReadSeg_kept F _ _ _ _ _ _ _)
        refine F.trans ?_ (accept_kept F _ _ _ _ _)
        unfold y296_2
        refine F.trans ?_ (State.updRma_kept F _ _)
        refine F.trans ?_ (State.rmaNext_kept F _)
        unfold y300_1
        refine F.trans ?_ (access_kept F _ _ _ _ _ _ _)
        exact F.refl _

theorem releaseIn_kept (s : State) (x1) (x2) (x3) (x4) : R s (releaseIn s x1 x2 x3 x4) := by
  unfold releaseIn
  split
  · exact F.refl _
  · refine F.trans ?_ (rndvSettle_kept F _ _)
    refine F.trans ?_ (State.updMtch_kept F _ _)
    refine F.trans ?_ (State.count_kept F _ _ _ _)
    exact F.refl _

theorem execPutPkt_kept (s : State) (x1) (x2) (x3) : R s (execPutPkt s x1 x2 x3) := by
  unfold execPutPkt
  refine F.ite ?_ ?_
  · refine F.trans ?_ (retryLater_kept F _ _ _)
    refine F.trans ?_ (noteNoRing_kept F _ _)
    exact F.refl _
  · refine F.ite ?_ ?_
    · extract_lets; rename_i y298_0
      refine F.trans ?_ (acceptPut_kept F _ _ _ _)
      unfold y298_0
      refine F.ite ?_ ?_
      · refine F.trans ?_ (releaseIn_kept F _ _ _ _ _)
        exact F.refl _
      · exact F.refl _
    · refine F.ite ?_ ?_
      · refine F.trans ?_ (refuseAccess_kept F _ _ _ _ _)
        exact F.refl _
      · extract_lets; rename_i y297_0 y297_1
        split
        · refine F.trans ?_ (park_kept F _ _ _)
          unfold y297_1
          refine F.trans ?_ (access_kept F _ _ _ _ _ _ _)
          exact F.refl _
        · refine F.trans ?_ (refuseAccess_kept F _ _ _ _ _)
          unfold y297_1
          refine F.trans ?_ (access_kept F _ _ _ _ _ _ _)
          exact F.refl _
        · extract_lets; rename_i y295_0
          refine F.trans ?_ (acceptPut_kept F _ _ _ _)
          unfold y295_0
          refine F.trans ?_ (writePieces_kept F _ _ _ _ _ _)
          unfold y297_1
          refine F.trans ?_ (access_kept F _ _ _ _ _ _ _)
          exact F.refl _

theorem execRequest_kept (s : State) (x1) (x2) (x3) : R s (execRequest s x1 x2 x3) := by
  unfold execRequest
  refine F.ite ?_ ?_
  · refine F.trans ?_ (execSendPkt_kept F _ _ _ _)
    exact F.refl _
  · refine F.ite ?_ ?_
    · refine F.trans ?_ (execGetPkt_kept F _ _ _ _ _)
      exact F.refl _
    · refine F.ite ?_ ?_
      · refine F.trans ?_ (execAtomicPkt_kept F _ _ _ _)
        exact F.refl _
      · refine F.trans ?_ (execPutPkt_kept F _ _ _ _)
        exact F.refl _

theorem onContext_kept (s : State) (x1) (x2) (x3) : R s (onContext s x1 x2 x3) := by
  unfold onContext
  extract_lets; rename_i y300_0 y300_1
  refine F.ite ?_ ?_
  · refine F.trans ?_ (execDuplicate_kept F _ _ _ _)
    exact F.refl _
  · refine F.ite ?_ ?_
    · refine F.trans ?_ (State.count_kept F _ _ _ _)
      exact F.refl _
    · refine F.ite ?_ ?_
      · refine F.trans ?_ (retryLater_kept F _ _ _)
        exact F.refl _
      · refine F.ite ?_ ?_
        · refine F.trans ?_ (park_kept F _ _ _)
          exact F.refl _
        · refine F.trans ?_ (execRequest_kept F _ _ _ _)
          exact F.refl _

theorem newResp_kept (s : State) (x1) (x2) (x3) : R s (newResp s x1 x2 x3) := by
  unfold newResp
  refine F.trans ?_ (State.updResp_kept F _ _ _)
  refine F.trans ?_ (State.updRma_kept F _ _)
  refine F.trans ?_ (State.took_kept F _)
  exact F.refl _

theorem dropArrivals_kept (s : State) (x1) : R s (dropArrivals s x1) := by
  unfold dropArrivals
  refine F.forEach (fun t a => ?_) ?_
  · refine F.trans ?_ (dropOwed_kept F _ _)
    exact F.refl _
  · exact F.refl _

theorem receive_kept (s : State) (x1) (x2) : R s (receive s x1 x2) := by
  unfold receive
  extract_lets; rename_i y300_0 y300_1 y300_2 y300_3 y300_4
  refine F.ite ?_ ?_
  · refine F.ite ?_ ?_
    · refine F.trans ?_ (ackAlone_kept F _ _ _)
      exact F.refl _
    · split
      · refine F.trans ?_ (ackAlone_kept F _ _ _)
        exact F.refl _
      · refine F.ite ?_ ?_
        · refine F.trans ?_ (park_kept F _ _ _)
          exact F.refl _
        · refine F.trans ?_ (onContext_kept F _ _ _ _)
          refine F.trans ?_ (newResp_kept F _ _ _ _)
          refine F.trans ?_ (takePlace_kept F _ _ _ _)
          unfold y300_2
          refine F.trans ?_ (placeOnDie_kept F _ _)
          exact F.refl _
  · refine F.ite ?_ ?_
    · refine F.trans ?_ (park_kept F _ _ _)
      unfold y300_3
      refine F.ite ?_ ?_
      · exact F.refl _
      · refine F.trans ?_ (State.count_kept F _ _ _ _)
        refine F.trans ?_ (State.updResp_kept F _ _ _)
        exact F.refl _
    · refine F.ite ?_ ?_
      · refine F.ite ?_ ?_
        · refine F.trans ?_ (onContext_kept F _ _ _ _)
          refine F.trans ?_ (newResp_kept F _ _ _ _)
          refine F.trans ?_ (dropArrivals_kept F _ _)
          unfold y300_4
          refine F.trans ?_ (placeOnDie_kept F _ _)
          exact F.refl _
        · refine F.trans ?_ (State.count_kept F _ _ _ _)
          unfold y300_4
          refine F.trans ?_ (placeOnDie_kept F _ _)
          exact F.refl _
      · refine F.trans ?_ (onContext_kept F _ _ _ _)
        unfold y300_4
        refine F.trans ?_ (placeOnDie_kept F _ _)
        exact F.refl _

theorem retryParked_kept (s : State) : R s (retryParked s) := by
  unfold retryParked
  extract_lets; rename_i y300_0
  refine F.forEach (fun t a => ?_) ?_
  · refine F.trans ?_ (receive_kept F _ _ _)
    exact F.refl _
  · refine F.trans ?_ (State.updRma_kept F _ _)
    exact F.refl _

theorem endResp_kept (s : State) (x1) : R s (endResp s x1) := by
  unfold endResp
  refine F.trans ?_ (State.updResp_kept F _ _ _)
  refine F.trans ?_ (leavePlace_kept F _ _)
  refine F.trans ?_ (forgetDie_kept F _ _)
  refine F.trans ?_ (dropArrivals_kept F _ _)
  exact F.refl _

theorem contextFetched_kept (s : State) (x1) (x2) (x3) (x4) : R s (contextFetched s x1 x2 x3 x4) := by
  unfold contextFetched
  refine F.ite ?_ ?_
  · extract_lets; rename_i y299_0 y299_1 y299_2
    refine F.ite ?_ ?_
    · exact F.refl _
    · refine F.ite ?_ ?_
      · refine F.trans ?_ (pump_kept F _ _)
        refine F.trans ?_ (State.updReq_kept F _ _ _)
        refine F.trans ?_ (leavePlace_kept F _ _)
        unfold y299_1
        refine F.trans ?_ (State.raise_kept F _ _ _ _ _)
        refine F.trans ?_ (State.raise_kept F _ _ _ _ _)
        exact F.refl _
      · refine F.ite ?_ ?_
        · refine F.trans ?_ (pump_kept F _ _)
          refine F.trans ?_ (State.updReq_kept F _ _ _)
          unfold y299_2
          refine F.trans ?_ (placeOnDie_kept F _ _)
          exact F.refl _
        · exact F.refl _
  · extract_lets; rename_i y299_0 y299_1
    refine F.ite ?_ ?_
    · exact F.refl _
    · refine F.ite ?_ ?_
      · refine F.trans ?_ (retryParked_kept F _)
        refine F.trans ?_ (endResp_kept F _ _)
        refine F.trans ?_ (State.raise_kept F _ _ _ _ _)
        refine F.trans ?_ (State.raise_kept F _ _ _ _ _)
        exact F.refl _
      · refine F.ite ?_ ?_
        · refine F.trans ?_ (retryParked_kept F _)
          refine F.trans ?_ (State.updResp_kept F _ _ _)
          unfold y299_1
          refine F.trans ?_ (placeOnDie_kept F _ _)
          exact F.refl _
        · exact F.refl _

theorem sendCtl_kept (s : State) (x1) (x2) : R s (sendCtl s x1 x2) := by
  unfold sendCtl
  refine F.trans ?_ (State.updLink_kept F _ _ _)
  exact F.refl _

theorem initIn_kept (s : State) (x1) (x2) : R s (initIn s x1 x2) := by
  unfold initIn
  extract_lets; rename_i y300_0 y300_1
  refine F.ite ?_ ?_
  · exact F.refl _
  · refine F.ite ?_ ?_
    · refine F.ite ?_ ?_
      · exact F.refl _
      · refine F.trans ?_ (State.raise_kept F _ _ _ _ _)
        refine F.trans ?_ (State.updLink_kept F _ _ _)
        exact F.refl _
    · refine F.ite ?_ ?_
      · exact F.refl _
      · refine F.ite ?_ ?_
        · unfold y300_1
          refine F.trans ?_ (State.updLink_kept F _ _ _)
          exact F.refl _
        · refine F.trans ?_ (sendCtl_kept F _ _ _)
          unfold y300_1
          refine F.trans ?_ (State.updLink_kept F _ _ _)
          exact F.refl _

theorem replayIn_kept (s : State) (x1) (x2) (x3) : R s (replayIn s x1 x2 x3) := by
  unfold replayIn
  extract_lets; rename_i y300_0 y300_1
  refine F.ite ?_ ?_
  · exact F.refl _
  · refine F.ite ?_ ?_
    · refine F.ite ?_ ?_
      · refine F.trans ?_ (State.updLink_kept F _ _ _)
        exact F.refl _
      · exact F.refl _
    · refine F.ite ?_ ?_
      · refine F.trans ?_ (State.updLink_kept F _ _ _)
        exact F.refl _
      · refine F.trans ?_ (reinitPort_kept F _ _)
        refine F.trans ?_ (State.raise_kept F _ _ _ _ _)
        exact F.refl _

theorem generationAccept_kept (s : State) (b : TimeProbe) : R s (generationAccept s b) := F.generationAccept s b

theorem rejectExchange_kept (s : State) (x1) : R s (rejectExchange s x1) := by
  unfold rejectExchange
  extract_lets; rename_i y300_0 y300_1
  refine F.ite ?_ ?_
  · refine F.trans ?_ (State.raise_kept F _ _ _ _ _)
    refine F.trans ?_ (F.upd _ _ fun _ => ⟨rfl, rfl, rfl⟩)
    unfold y300_1
    refine F.trans ?_ (State.count_kept F _ _ _ _)
    refine F.trans ?_ (State.updTport_kept F _ _ _)
    exact F.refl _
  · unfold y300_1
    refine F.trans ?_ (State.count_kept F _ _ _ _)
    refine F.trans ?_ (State.updTport_kept F _ _ _)
    exact F.refl _

theorem probeReceive_kept (s : State) (x1) (x2) (x3) (x4) (x5) : R s (probeReceive s x1 x2 x3 x4 x5) := by
  unfold probeReceive
  refine F.ite ?_ ?_
  · exact F.refl _
  · extract_lets; rename_i y299_0 y299_1 y299_2
    refine F.ite ?_ ?_
    · refine F.trans ?_ (rejectExchange_kept F _ _)
      unfold y299_0
      refine F.trans ?_ (generationAccept_kept F _ _)
      refine F.trans ?_ (State.updTport_kept F _ _ _)
      exact F.refl _
    · refine F.trans ?_ (acceptExchange_kept F _ _ _ _ _)
      unfold y299_0
      refine F.trans ?_ (generationAccept_kept F _ _)
      refine F.trans ?_ (State.updTport_kept F _ _ _)
      exact F.refl _

theorem probeIn_kept (s : State) (x1) (x2) (x3) (x4) (x5) : R s (probeIn s x1 x2 x3 x4 x5) := by
  unfold probeIn
  extract_lets; rename_i y300_0
  refine F.ite ?_ ?_
  · refine F.trans ?_ (shiftChanged_kept F _ _ _ _)
    unfold y300_0
    refine F.trans ?_ (probeReceive_kept F _ _ _ _ _ _)
    exact F.refl _
  · unfold y300_0
    refine F.trans ?_ (probeReceive_kept F _ _ _ _ _ _)
    exact F.refl _

theorem probeFlit_kept (s : State) (x1) (x2) : R s (probeFlit s x1 x2) := by
  unfold probeFlit
  refine F.trans ?_ (probeIn_kept F _ _ _ _ _ _)
  refine F.trans ?_ (State.took_kept F _)
  exact F.refl _

theorem hintIn_kept (s : State) (x1) (x2) : R s (hintIn s x1 x2) := by
  unfold hintIn
  extract_lets; rename_i y300_0
  refine F.trans ?_ (State.count_kept F _ _ _ _)
  refine F.trans ?_ (State.updSw_kept F _ _)
  exact F.refl _

theorem signalIn_kept (s : State) (x1) (x2) : R s (signalIn s x1 x2) := by
  unfold signalIn
  extract_lets; rename_i y300_0
  refine F.ite ?_ ?_
  · refine F.trans ?_ (State.count_kept F _ _ _ _)
    unfold y300_0
    refine F.trans ?_ (State.count_kept F _ _ _ _)
    exact F.refl _
  · split
    · refine F.trans ?_ (State.count_kept F _ _ _ _)
      unfold y300_0
      refine F.trans ?_ (State.count_kept F _ _ _ _)
      exact F.refl _
    · extract_lets; rename_i y297_0
      refine F.ite ?_ ?_
      · unfold y300_0
        refine F.trans ?_ (State.count_kept F _ _ _ _)
        exact F.refl _
      · refine F.ite ?_ ?_
        · split
          · refine F.trans ?_ (becomeReady_kept F _ _ _)
            unfold y300_0
            refine F.trans ?_ (State.count_kept F _ _ _ _)
            exact F.refl _
          · refine F.trans ?_ (State.updLast_kept F _ _ _)
            unfold y300_0
            refine F.trans ?_ (State.count_kept F _ _ _ _)
            exact F.refl _
          · refine F.trans ?_ (State.updLast_kept F _ _ _)
            unfold y300_0
            refine F.trans ?_ (State.count_kept F _ _ _ _)
            exact F.refl _
          · refine F.trans ?_ (sendSignal_kept F _ _ _ _)
            unfold y300_0
            refine F.trans ?_ (State.count_kept F _ _ _ _)
            exact F.refl _
        · refine F.ite ?_ ?_
          · refine F.ite ?_ ?_
            · refine F.trans ?_ (breakDue_kept F _ _ _ _)
              unfold y300_0
              refine F.trans ?_ (State.count_kept F _ _ _ _)
              exact F.refl _
            · refine F.trans ?_ (sendSignal_kept F _ _ _ _)
              unfold y300_0
              refine F.trans ?_ (State.count_kept F _ _ _ _)
              exact F.refl _
          · refine F.trans ?_ (sendSignal_kept F _ _ _ _)
            unfold y300_0
            refine F.trans ?_ (State.count_kept F _ _ _ _)
            exact F.refl _

theorem syncIn_kept (s : State) (x1) (x2) : R s (syncIn s x1 x2) := by
  unfold syncIn
  extract_lets; rename_i y300_0 y300_1 y300_2 y300_3
  refine F.ite ?_ ?_
  · exact F.refl _
  · refine F.ite ?_ ?_
    · refine F.trans ?_ (State.count_kept F _ _ _ _)
      exact F.refl _
    · refine F.ite ?_ ?_
      · unfold y300_2
        refine F.trans ?_ (State.count_kept F _ _ _ _)
        exact F.refl _
      · refine F.ite ?_ ?_
        · refine F.trans ?_ (State.event_kept F _ _ _ _)
          refine F.trans ?_ (State.raise_kept F _ _ _ _ _)
          unfold y300_3
          refine F.trans ?_ (State.count_kept F _ _ _ _)
          refine F.trans ?_ (State.updLink_kept F _ _ _)
          unfold y300_2
          refine F.trans ?_ (State.count_kept F _ _ _ _)
          exact F.refl _
        · refine F.trans ?_ (creditFault_kept F _ _)
          unfold y300_3
          refine F.trans ?_ (State.count_kept F _ _ _ _)
          refine F.trans ?_ (State.updLink_kept F _ _ _)
          unfold y300_2
          refine F.trans ?_ (State.count_kept F _ _ _ _)
          exact F.refl _

theorem controlIn_kept (s : State) (x1) (x2) : R s (controlIn s x1 x2) := by
  unfold controlIn
  extract_lets; rename_i y300_0 y300_1
  refine F.ite ?_ ?_
  · refine F.ite ?_ ?_
    · refine F.trans ?_ (initIn_kept F _ _ _)
      exact F.refl _
    · exact F.refl _
  · clear_value y300_1; split
    · refine F.trans ?_ (ackcrIn_kept F _ _ _)
      exact F.refl _
    · refine F.trans ?_ (replayIn_kept F _ _ _ _)
      exact F.refl _
    · refine F.trans ?_ (probeFlit_kept F _ _ _)
      exact F.refl _
    · refine F.forEach (fun t a => ?_) ?_
      · refine F.trans ?_ (hintIn_kept F _ _ _)
        exact F.refl _
      · refine F.trans ?_ (bpConsumed_kept F _ _)
        exact F.refl _
    · refine F.forEach (fun t a => ?_) ?_
      · refine F.trans ?_ (signalIn_kept F _ _ _)
        exact F.refl _
      · refine F.trans ?_ (bpConsumed_kept F _ _)
        exact F.refl _
    · refine F.trans ?_ (syncIn_kept F _ _ _)
      exact F.refl _
    · exact F.refl _
    · refine F.trans ?_ (State.raise_kept F _ _ _ _ _)
      refine F.trans ?_ (State.count_kept F _ _ _ _)
      exact F.refl _

theorem controlSlot_kept (s : State) (x1) : PKeeps R s (controlSlot s x1) := by
  unfold controlSlot
  extract_lets; rename_i y300_0 y300_1
  refine F.pIte ?_ ?_
  · exact F.pNone _
  · refine F.pIte ?_ ?_
    · refine F.pSome ?_
      refine F.pair2 ?_
      refine F.ite ?_ ?_
      · refine F.trans ?_ (State.count_kept F _ _ _ _)
        unfold y300_1
        refine F.trans ?_ (State.count_kept F _ _ _ _)
        refine F.trans ?_ (State.updLink_kept F _ _ _)
        exact F.refl _
      · unfold y300_1
        refine F.trans ?_ (State.count_kept F _ _ _ _)
        refine F.trans ?_ (State.updLink_kept F _ _ _)
        exact F.refl _
    · refine F.pIte ?_ ?_
      · refine F.pSome ?_
        refine F.pair2 ?_
        refine F.trans ?_ (State.count_kept F _ _ _ _)
        refine F.trans ?_ (State.updLink_kept F _ _ _)
        exact F.refl _
      · refine F.pMap fun x hx => ?_
        refine F.pair2 ?_
        refine F.trans ?_ (State.count_kept F _ _ _ _)
        refine F.trans ?_ (State.updLink_kept F _ _ _)
        exact F.refl _

theorem copyBad_kept (s : State) (x1) (x2) : R s (copyBad s x1 x2) := by
  unfold copyBad
  refine F.ite ?_ ?_
  · exact F.refl _
  · refine F.trans ?_ (State.count_kept F _ _ _ _)
    refine F.trans ?_ (State.updPkt_kept F _ _ _)
    exact F.refl _

theorem countReceive_kept (s : State) (x1) (x2) : R s (countReceive s x1 x2) := by
  unfold countReceive
  extract_lets; rename_i y300_0 y300_1 y300_2
  refine F.ite ?_ ?_
  · exact F.refl _
  · refine F.trans ?_ (State.count_kept F _ _ _ _)
    exact F.refl _

theorem cpChunk_kept (s : State) (x1) (x2) : R s (cpChunk s x1 x2) := by
  unfold cpChunk
  extract_lets; rename_i y300_0 y300_1 y300_2 y300_3
  refine F.ite ?_ ?_
  · refine F.trans ?_ (State.count_kept F _ _ _ _)
    exact F.refl _
  · refine F.ite ?_ ?_
    · refine F.trans ?_ (treeBreaks_kept F _ _ _)
      refine F.trans ?_ (chunkLost_kept F _ _)
      exact F.refl _
    · refine F.ite ?_ ?_
      · refine F.trans ?_ (childBlock_kept F _ _ _ _)
        refine F.trans ?_ (State.updRow_kept F _ _ _)
        exact F.refl _
      · refine F.trans ?_ (State.updRow_kept F _ _ _)
        exact F.refl _

theorem creditOverrun_kept (s : State) (x1) : R s (creditOverrun s x1) := by
  unfold creditOverrun
  refine F.trans ?_ (isolatePort_kept F _ _)
  refine F.trans ?_ (State.raise_kept F _ _ _ _ _)
  exact F.refl _

theorem crossMore_kept (s : State) (x1) : R s (crossMore s x1) := by
  unfold crossMore
  split
  · exact F.refl _
  · refine F.forEach (fun t a => ?_) ?_
    · refine F.trans ?_ (crossOut_kept F _ _)
      exact F.refl _
    · exact F.refl _

theorem cupDrop_kept (s : State) (x1) : R s (cupDrop s x1) := by
  unfold cupDrop
  refine F.trans ?_ (State.event_kept F _ _ _ _)
  refine F.trans ?_ (State.raise_kept F _ _ _ _ _)
  refine F.trans ?_ (State.count_kept F _ _ _ _)
  refine F.trans ?_ (State.updCup_kept F _ _)
  exact F.refl _

theorem cupRingWrite_kept (s : State) (x1) (x2) : R s (cupRingWrite s x1 x2) := by
  unfold cupRingWrite
  extract_lets; rename_i y300_0 y300_1 y300_2 y300_3
  refine F.ite ?_ ?_
  · refine F.trans ?_ (cupDrop_kept F _ _)
    exact F.refl _
  · refine F.ite ?_ ?_
    · refine F.trans ?_ (State.updCup_kept F _ _)
      unfold y300_3
      refine F.trans ?_ (hostWrite_kept F _ _ _ _)
      exact F.refl _
    · refine F.trans ?_ (cupDrop_kept F _ _)
      unfold y300_3
      refine F.trans ?_ (hostWrite_kept F _ _ _ _)
      exact F.refl _

theorem cupToRing_kept (s : State) (n : Nat) : R s (cupToRing s n) := by
  induction n generalizing s with
  | zero => exact F.refl _
  | succ n ih =>
    unfold cupToRing
    split
    · exact F.refl _
    · split
      · exact F.after (ih _) (F.after (cupRingWrite_kept F _ _ _) (State.updCup_kept F _ _))
      · exact F.refl _

theorem cupRecord_kept (s : State) (x1) (x2) : R s (cupRecord s x1 x2) := by
  unfold cupRecord
  extract_lets; rename_i y300_0 y300_1
  refine F.ite ?_ ?_
  · exact F.refl _
  · refine F.ite ?_ ?_
    · refine F.trans ?_ (cupDrop_kept F _ _)
      exact F.refl _
    · refine F.trans ?_ (cupToRing_kept F _ _)
      refine F.trans ?_ (State.count_kept F _ _ _ _)
      refine F.trans ?_ (State.updCup_kept F _ _)
      exact F.refl _

theorem cupSample_kept (s : State) (x1) (x2) (x3) (x4) (x5) : R s (cupSample s x1 x2 x3 x4 x5) := by
  unfold cupSample
  extract_lets; rename_i y300_0 y300_1 y300_2
  refine F.ite ?_ ?_
  · refine F.ite ?_ ?_
    · refine F.trans ?_ (cupRecord_kept F _ _ _)
      refine F.trans ?_ (State.took_kept F _)
      unfold y300_2
      refine F.trans ?_ (State.updCup_kept F _ _)
      exact F.refl _
    · unfold y300_2
      refine F.trans ?_ (State.updCup_kept F _ _)
      exact F.refl _
  · exact F.refl _

theorem framingError_kept (s : State) (x1) : R s (framingError s x1) := by
  unfold framingError
  refine F.ite ?_ ?_
  · refine F.trans ?_ (isolatePort_kept F _ _)
    refine F.trans ?_ (State.raise_kept F _ _ _ _ _)
    exact F.refl _
  · exact F.refl _

theorem tookData_kept (s : State) (x1) (x2) : R s (tookData s x1 x2) := by
  unfold tookData
  refine F.trans ?_ (State.updLink_kept F _ _ _)
  exact F.refl _

theorem dropData_kept (s : State) (x1) (x2) : R s (dropData s x1 x2) := by
  unfold dropData
  refine F.trans ?_ (State.updLink_kept F _ _ _)
  exact F.refl _

theorem tookFlit_kept (s : State) (x1) : R s (tookFlit s x1) := by
  unfold tookFlit
  split
  · exact F.refl _
  · refine F.ite ?_ ?_
    · refine F.trans ?_ (discardBad_kept F _ _)
      exact F.refl _
    · refine F.trans ?_ (crossMore_kept F _ _)
      refine F.trans ?_ (settle_kept F _ _)
      exact F.refl _

theorem lend_kept (s : State) (x1) (x2) : R s (lend s x1 x2) := by
  unfold lend
  extract_lets; rename_i y300_0
  refine F.ite ?_ ?_
  · refine F.trans ?_ (State.updLink_kept F _ _ _)
    refine F.trans ?_ (State.updIn_kept F _ _ _)
    exact F.refl _
  · exact F.refl _

theorem firstFlit_kept (s : State) (x1) (x2) (x3) (x4) (x5) : R s (firstFlit s x1 x2 x3 x4 x5) := by
  unfold firstFlit
  extract_lets; rename_i y300_0 y300_1 y300_2 y300_3 y300_4
  refine F.trans ?_ (tookFlit_kept F _ _)
  refine F.trans ?_ (lend_kept F _ _ _)
  refine F.ite ?_ ?_
  · refine F.trans ?_ (stamp_kept F _ _ _)
    unfold y300_4
    refine F.trans ?_ (stamp_kept F _ _ _)
    unfold y300_3
    refine F.trans ?_ (State.updLink_kept F _ _ _)
    unfold y300_2
    refine F.trans ?_ (holdPkt_kept F _ _)
    exact F.refl _
  · unfold y300_4
    refine F.trans ?_ (stamp_kept F _ _ _)
    unfold y300_3
    refine F.trans ?_ (State.updLink_kept F _ _ _)
    unfold y300_2
    refine F.trans ?_ (holdPkt_kept F _ _)
    exact F.refl _

theorem nextFlit_kept (s : State) (x1) (x2) (x3) (x4) (x5) (x6) : R s (nextFlit s x1 x2 x3 x4 x5 x6) := by
  unfold nextFlit
  extract_lets; rename_i y300_0 y300_1
  refine F.trans ?_ (tookFlit_kept F _ _)
  refine F.trans ?_ (lend_kept F _ _ _)
  unfold y300_1
  refine F.ite ?_ ?_
  · refine F.trans ?_ (stamp_kept F _ _ _)
    refine F.trans ?_ (State.updLink_kept F _ _ _)
    unfold y300_0
    refine F.trans ?_ (State.updPkt_kept F _ _ _)
    exact F.refl _
  · unfold y300_0
    refine F.trans ?_ (State.updPkt_kept F _ _ _)
    exact F.refl _

theorem dataIn_kept (s : State) (x1) (x2) (x3) : R s (dataIn s x1 x2 x3) := by
  unfold dataIn
  extract_lets; rename_i y300_0 y300_1 y300_2 y300_3 y300_4 y300_5 y300_6
  refine F.ite ?_ ?_
  · refine F.trans ?_ (framingError_kept F _ _)
    exact F.refl _
  · refine F.ite ?_ ?_
    · refine F.trans ?_ (creditOverrun_kept F _ _)
      exact F.refl _
    · split
      · refine F.ite ?_ ?_
        · refine F.trans ?_ (State.raise_kept F _ _ _ _ _)
          refine F.trans ?_ (State.updLink_kept F _ _ _)
          refine F.trans ?_ (dropData_kept F _ _ _)
          unfold y300_6
          refine F.trans ?_ (tookData_kept F _ _ _)
          exact F.refl _
        · refine F.trans ?_ (firstFlit_kept F _ _ _ _ _ _)
          unfold y300_6
          refine F.trans ?_ (tookData_kept F _ _ _)
          exact F.refl _
      · refine F.ite ?_ ?_
        · refine F.trans ?_ (State.updLink_kept F _ _ _)
          refine F.trans ?_ (dropData_kept F _ _ _)
          unfold y300_6
          refine F.trans ?_ (tookData_kept F _ _ _)
          exact F.refl _
        · refine F.trans ?_ (nextFlit_kept F _ _ _ _ _ _ _)
          unfold y300_6
          refine F.trans ?_ (tookData_kept F _ _ _)
          exact F.refl _

theorem sendSeq_kept (s : State) (x1) (x2) (x3) : R s (sendSeq s x1 x2 x3) := by
  unfold sendSeq
  refine F.trans ?_ (State.count_kept F _ _ _ _)
  refine F.trans ?_ (State.updLink_kept F _ _ _)
  exact F.refl _

theorem sendData_kept (s : State) (x1) (x2) (x3) : R s (sendData s x1 x2 x3).2 := by
  unfold sendData
  extract_lets; rename_i y300_0 y300_1 y300_2 y300_3 y300_4 y300_5 y300_6
  split
  · refine F.pair2 ?_
    refine F.trans ?_ (endCopy_kept F _ _ _ _)
    unfold y300_6
    refine F.ite ?_ ?_
    · refine F.trans ?_ (State.count_kept F _ _ _ _)
      unfold y300_5
      refine F.trans ?_ (stamp_kept F _ _ _)
      refine F.trans ?_ (State.count_kept F _ _ _ _)
      unfold y300_4
      refine F.ite ?_ ?_
      · refine F.ite ?_ ?_
        · refine F.trans ?_ (stamp_kept F _ _ _)
          unfold y300_3
          refine F.trans ?_ (State.updPkt_kept F _ _ _)
          unfold y300_2
          refine F.trans ?_ (State.updLink_kept F _ _ _)
          refine F.trans ?_ (sendSeq_kept F _ _ _ _)
          exact F.refl _
        · refine F.trans ?_ (stamp_kept F _ _ _)
          refine F.trans ?_ (State.count_kept F _ _ _ _)
          unfold y300_3
          refine F.trans ?_ (State.updPkt_kept F _ _ _)
          unfold y300_2
          refine F.trans ?_ (State.updLink_kept F _ _ _)
          refine F.trans ?_ (sendSeq_kept F _ _ _ _)
          exact F.refl _
      · unfold y300_3
        refine F.trans ?_ (State.updPkt_kept F _ _ _)
        unfold y300_2
        refine F.trans ?_ (State.updLink_kept F _ _ _)
        refine F.trans ?_ (sendSeq_kept F _ _ _ _)
        exact F.refl _
    · refine F.ite ?_ ?_
      · refine F.trans ?_ (State.count_kept F _ _ _ _)
        unfold y300_5
        refine F.trans ?_ (stamp_kept F _ _ _)
        refine F.trans ?_ (State.count_kept F _ _ _ _)
        unfold y300_4
        refine F.ite ?_ ?_
        · refine F.ite ?_ ?_
          · refine F.trans ?_ (stamp_kept F _ _ _)
            unfold y300_3
            refine F.trans ?_ (State.updPkt_kept F _ _ _)
            unfold y300_2
            refine F.trans ?_ (State.updLink_kept F _ _ _)
            refine F.trans ?_ (sendSeq_kept F _ _ _ _)
            exact F.refl _
          · refine F.trans ?_ (stamp_kept F _ _ _)
            refine F.trans ?_ (State.count_kept F _ _ _ _)
            unfold y300_3
            refine F.trans ?_ (State.updPkt_kept F _ _ _)
            unfold y300_2
            refine F.trans ?_ (State.updLink_kept F _ _ _)
            refine F.trans ?_ (sendSeq_kept F _ _ _ _)
            exact F.refl _
        · unfold y300_3
          refine F.trans ?_ (State.updPkt_kept F _ _ _)
          unfold y300_2
          refine F.trans ?_ (State.updLink_kept F _ _ _)
          refine F.trans ?_ (sendSeq_kept F _ _ _ _)
          exact F.refl _
      · unfold y300_5
        refine F.trans ?_ (stamp_kept F _ _ _)
        refine F.trans ?_ (State.count_kept F _ _ _ _)
        unfold y300_4
        refine F.ite ?_ ?_
        · refine F.ite ?_ ?_
          · refine F.trans ?_ (stamp_kept F _ _ _)
            unfold y300_3
            refine F.trans ?_ (State.updPkt_kept F _ _ _)
            unfold y300_2
            refine F.trans ?_ (State.updLink_kept F _ _ _)
            refine F.trans ?_ (sendSeq_kept F _ _ _ _)
            exact F.refl _
          · refine F.trans ?_ (stamp_kept F _ _ _)
            refine F.trans ?_ (State.count_kept F _ _ _ _)
            unfold y300_3
            refine F.trans ?_ (State.updPkt_kept F _ _ _)
            unfold y300_2
            refine F.trans ?_ (State.updLink_kept F _ _ _)
            refine F.trans ?_ (sendSeq_kept F _ _ _ _)
            exact F.refl _
        · unfold y300_3
          refine F.trans ?_ (State.updPkt_kept F _ _ _)
          unfold y300_2
          refine F.trans ?_ (State.updLink_kept F _ _ _)
          refine F.trans ?_ (sendSeq_kept F _ _ _ _)
          exact F.refl _
  · refine F.pair2 ?_
    refine F.trans ?_ (crossOut_kept F _ _)
    refine F.ite ?_ ?_
    · refine F.trans ?_ (judgeThrottle_kept F _ _)
      unfold y300_4
      refine F.ite ?_ ?_
      · refine F.ite ?_ ?_
        · refine F.trans ?_ (stamp_kept F _ _ _)
          unfold y300_3
          refine F.trans ?_ (State.updPkt_kept F _ _ _)
          unfold y300_2
          refine F.trans ?_ (State.updLink_kept F _ _ _)
          refine F.trans ?_ (sendSeq_kept F _ _ _ _)
          exact F.refl _
        · refine F.trans ?_ (stamp_kept F _ _ _)
          refine F.trans ?_ (State.count_kept F _ _ _ _)
          unfold y300_3
          refine F.trans ?_ (State.updPkt_kept F _ _ _)
          unfold y300_2
          refine F.trans ?_ (State.updLink_kept F _ _ _)
          refine F.trans ?_ (sendSeq_kept F _ _ _ _)
          exact F.refl _
      · unfold y300_3
        refine F.trans ?_ (State.updPkt_kept F _ _ _)
        unfold y300_2
        refine F.trans ?_ (State.updLink_kept F _ _ _)
        refine F.trans ?_ (sendSeq_kept F _ _ _ _)
        exact F.refl _
    · unfold y300_4
      refine F.ite ?_ ?_
      · refine F.ite ?_ ?_
        · refine F.trans ?_ (stamp_kept F _ _ _)
          unfold y300_3
          refine F.trans ?_ (State.updPkt_kept F _ _ _)
          unfold y300_2
          refine F.trans ?_ (State.updLink_kept F _ _ _)
          refine F.trans ?_ (sendSeq_kept F _ _ _ _)
          exact F.refl _
        · refine F.trans ?_ (stamp_kept F _ _ _)
          refine F.trans ?_ (State.count_kept F _ _ _ _)
          unfold y300_3
          refine F.trans ?_ (State.updPkt_kept F _ _ _)
          unfold y300_2
          refine F.trans ?_ (State.updLink_kept F _ _ _)
          refine F.trans ?_ (sendSeq_kept F _ _ _ _)
          exact F.refl _
      · unfold y300_3
        refine F.trans ?_ (State.updPkt_kept F _ _ _)
        unfold y300_2
        refine F.trans ?_ (State.updLink_kept F _ _ _)
        refine F.trans ?_ (sendSeq_kept F _ _ _ _)
        exact F.refl _

theorem dataSlot_kept (s : State) (x1) : PKeeps R s (dataSlot s x1) := by
  unfold dataSlot
  refine F.pBind fun x hx => ?_
  refine F.pBind fun x hx => ?_
  refine F.pIte ?_ ?_
  · exact F.pNone _
  · refine F.pIte ?_ ?_
    · refine F.pIte ?_ ?_
      · refine F.pSome ?_
        refine F.trans ?_ (sendData_kept F _ _ _ _)
        exact F.refl _
      · exact F.pNone _
    · refine F.pIte ?_ ?_
      · refine F.pSome ?_
        refine F.trans ?_ (sendData_kept F _ _ _ _)
        exact F.refl _
      · exact F.pNone _

theorem doAction_kept (s : State) (x1) : R s (doAction s x1) := by
  unfold doAction
  split
  · refine F.trans ?_ (takeSnapshot_kept F _)
    exact F.refl _
  · refine F.trans ?_ (bankSwitch_kept F _ _)
    exact F.refl _
  · refine F.trans ?_ (claimPend_kept F _ _)
    exact F.refl _
  · exact F.refl _

theorem performAction_kept (s : State) (x1) : R s (performAction s x1) := by
  unfold performAction
  extract_lets; rename_i y300_0 y300_1 y300_2
  refine F.ite ?_ ?_
  · refine F.trans ?_ (State.fire_kept F _ _)
    refine F.trans ?_ (State.raise_kept F _ _ _ _ _)
    unfold y300_2
    refine F.trans ?_ (State.count_kept F _ _ _ _)
    refine F.trans ?_ (F.upd _ _ fun _ => ⟨rfl, rfl, rfl⟩)
    refine F.trans ?_ (doAction_kept F _ _)
    exact F.refl _
  · refine F.trans ?_ (State.fire_kept F _ _)
    unfold y300_2
    refine F.trans ?_ (State.count_kept F _ _ _ _)
    refine F.trans ?_ (F.upd _ _ fun _ => ⟨rfl, rfl, rfl⟩)
    refine F.trans ?_ (doAction_kept F _ _)
    exact F.refl _

theorem runActions_kept (s : State) : R s (runActions s) := by
  unfold runActions
  refine F.ite ?_ ?_
  · exact F.refl _
  · refine F.forEach (fun t a => ?_) ?_
    · refine F.trans ?_ (performAction_kept F _ _)
      exact F.refl _
    · exact F.refl _

theorem timeDue_kept (s : State) : R s (timeDue s) := F.timeDue s

theorem probeRound_kept (s : State) : R s (probeRound s) := by
  unfold probeRound
  refine F.ite ?_ ?_
  · refine F.trans ?_ (F.upd _ _ fun _ => ⟨rfl, rfl, rfl⟩)
    exact F.refl _
  · exact F.refl _

theorem servo_kept (s : State) : R s (servo s) := by
  refine F.upd _ _ fun t => ?_
  split
  · split <;> exact ⟨rfl, rfl, rfl⟩
  · split <;> exact ⟨rfl, rfl, rfl⟩

theorem overrunDue_kept (s : State) (n : Nat) : R s (overrunDue s n) := F.overrunDue s n

theorem timeBoundary_kept (s : State) : R s (timeBoundary s) := by
  unfold timeBoundary
  extract_lets; rename_i y300_0
  refine F.forEach (fun t a => ?_) ?_
  · refine F.trans ?_ (overrunDue_kept F _ _)
    exact F.refl _
  · unfold y300_0
    refine F.trans ?_ (timeDue_kept F _)
    refine F.trans ?_ (probeRound_kept F _)
    refine F.trans ?_ (servo_kept F _)
    exact F.refl _

theorem requeueCopy_kept (s : State) (x1) (x2) : R s (requeueCopy s x1 x2) := by
  unfold requeueCopy
  refine F.ite ?_ ?_
  · exact F.refl _
  · refine F.ite ?_ ?_
    · refine F.ite ?_ ?_
      · refine F.trans ?_ (endCopy_kept F _ _ _ _)
        exact F.refl _
      · exact F.refl _
    · refine F.ite ?_ ?_
      · refine F.trans ?_ (endCopy_kept F _ _ _ _)
        exact F.refl _
      · extract_lets; rename_i y297_0
        refine F.trans ?_ (benchEvent_kept F _ _ _)
        refine F.trans ?_ (State.raise_kept F _ _ _ _ _)
        refine F.trans ?_ (State.count_kept F _ _ _ _)
        unfold y297_0
        refine F.trans ?_ (State.updOut_kept F _ _ _)
        refine F.trans ?_ (State.updPkt_kept F _ _ _)
        exact F.refl _

theorem requeueAll_kept (s : State) : R s (requeueAll s) := by
  unfold requeueAll
  refine F.forEach (fun t a => ?_) ?_
  · refine F.forEach (fun t a => ?_) ?_
    · refine F.trans ?_ (requeueCopy_kept F _ _ _)
      exact F.refl _
    · exact F.refl _
  · exact F.refl _

theorem suspendLast_kept (s : State) (x1) (x2) : R s (suspendLast s x1 x2) := by
  unfold suspendLast
  refine F.trans ?_ (sendSignal_kept F _ _ _ _)
  refine F.trans ?_ (wrapQueue_kept F _ _)
  refine F.trans ?_ (State.fire_kept F _ _)
  refine F.trans ?_ (State.raise_kept F _ _ _ _ _)
  refine F.trans ?_ (enterLast_kept F _ _ _ _)
  exact F.refl _

theorem stitchEntry_kept (s : State) (x1) : R s (stitchEntry s x1) := by
  unfold stitchEntry
  extract_lets; rename_i y300_0
  refine F.ite ?_ ?_
  · exact F.refl _
  · split
    · refine F.trans ?_ (breakLast_kept F _ _ _ _ _)
      exact F.refl _
    · split
      · refine F.trans ?_ (breakLast_kept F _ _ _ _ _)
        exact F.refl _
      · split
        · refine F.trans ?_ (suspendLast_kept F _ _ _)
          refine F.trans ?_ (State.updLast_kept F _ _ _)
          exact F.refl _
        · refine F.trans ?_ (State.updLast_kept F _ _ _)
          exact F.refl _
        · exact F.refl _

theorem enterActive_kept (s : State) (x1) : R s (enterActive s x1) := by
  unfold enterActive
  extract_lets; rename_i y300_0 y300_1
  refine F.ite ?_ ?_
  · refine F.trans ?_ (becomeReady_kept F _ _ _)
    unfold y300_0
    refine F.trans ?_ (State.updLast_kept F _ _ _)
    refine F.trans ?_ (enterLast_kept F _ _ _ _)
    exact F.refl _
  · unfold y300_0
    refine F.trans ?_ (State.updLast_kept F _ _ _)
    refine F.trans ?_ (enterLast_kept F _ _ _ _)
    exact F.refl _

theorem resumeLast_kept (s : State) (x1) : R s (resumeLast s x1) := by
  unfold resumeLast
  refine F.trans ?_ (sendSignal_kept F _ _ _ _)
  refine F.trans ?_ (State.fire_kept F _ _)
  refine F.trans ?_ (enterActive_kept F _ _)
  exact F.refl _

theorem frameEntry_kept (s : State) (x1) : R s (frameEntry s x1) := by
  unfold frameEntry
  extract_lets; rename_i y300_0
  split
  · refine F.trans ?_ (logLast_kept F _ _ _ _)
    refine F.trans ?_ (State.updLast_kept F _ _ _)
    refine F.trans ?_ (flushWrap_kept F _ _)
    exact F.refl _
  · split
    · refine F.trans ?_ (suspendLast_kept F _ _ _)
      refine F.trans ?_ (State.updLast_kept F _ _ _)
      exact F.refl _
    · refine F.trans ?_ (enterActive_kept F _ _)
      exact F.refl _
  · refine F.ite ?_ ?_
    · refine F.trans ?_ (resumeLast_kept F _ _)
      exact F.refl _
    · exact F.refl _
  · exact F.refl _

theorem openEntry_kept (s : State) (x1) : R s (openEntry s x1) := by
  unfold openEntry
  extract_lets; rename_i y300_0
  refine F.ite ?_ ?_
  · refine F.trans ?_ (State.updLast_kept F _ _ _)
    exact F.refl _
  · exact F.refl _

theorem lastsBoundary_kept (s : State) (x1) : R s (lastsBoundary s x1) := by
  unfold lastsBoundary
  extract_lets; rename_i y300_0 y300_1
  refine F.ite ?_ ?_
  · refine F.forEach (fun t a => ?_) ?_
    · refine F.trans ?_ (openEntry_kept F _ _)
      exact F.refl _
    · refine F.forEach (fun t a => ?_) ?_
      · refine F.trans ?_ (frameEntry_kept F _ _)
        exact F.refl _
      · unfold y300_1
        refine F.forEach (fun t a => ?_) ?_
        · refine F.trans ?_ (stitchEntry_kept F _ _)
          exact F.refl _
        · unfold y300_0
          refine F.forEach (fun t a => ?_) ?_
          · refine F.trans ?_ (State.fire_kept F _ _)
            refine F.trans ?_ (State.raise_kept F _ _ _ _ _)
            exact F.refl _
          · exact F.refl _
  · unfold y300_1
    refine F.forEach (fun t a => ?_) ?_
    · refine F.trans ?_ (stitchEntry_kept F _ _)
      exact F.refl _
    · unfold y300_0
      refine F.forEach (fun t a => ?_) ?_
      · refine F.trans ?_ (State.fire_kept F _ _)
        refine F.trans ?_ (State.raise_kept F _ _ _ _ _)
        exact F.refl _
      · exact F.refl _

theorem mPortReset_kept (s : State) : R s (mPortReset s) := by
  unfold mPortReset
  refine F.ite ?_ ?_
  · extract_lets; rename_i y299_0 y299_1
    refine F.trans ?_ (State.raise_kept F _ _ _ _ _)
    refine F.trans ?_ (State.updSem_kept F _ _)
    unfold y299_1
    refine F.trans ?_ (State.updCtl_kept F _ _)
    exact F.refl _
  · exact F.refl _

theorem mailboxReset_kept (s : State) : R s (mailboxReset s) := by
  unfold mailboxReset
  extract_lets; rename_i y300_0
  refine F.trans ?_ (State.updCtl_kept F _ _)
  exact F.refl _

theorem resetHostTargets_kept (s : State) : R s (resetHostTargets s) := by
  unfold resetHostTargets
  refine F.trans ?_ (State.updClaim_kept F _ _)
  refine F.trans ?_ (completeAll_kept F _ _)
  exact F.refl _

theorem endOther_kept (s : State) (x1) : R s (endOther s x1) := by
  unfold endOther
  extract_lets; rename_i y300_0 y300_1 y300_2 y300_3 y300_4 y300_5 y300_6 y300_7
  refine F.ite ?_ ?_
  · refine F.trans ?_ (mailboxReset_kept F _)
    refine F.trans ?_ (resetHostTargets_kept F _)
    unfold y300_7
    refine F.forEach (fun t a => ?_) ?_
    · refine F.trans ?_ (collReset_kept F _ _)
      exact F.refl _
    · unfold y300_4
      refine F.forEach (fun t a => ?_) ?_
      · refine F.trans ?_ (State.updRing_kept F _ _ _)
        exact F.refl _
      · unfold y300_2
        refine F.trans ?_ (State.updHost_kept F _ _)
        unfold y300_1
        exact F.onChip (F.refl _)
  · unfold y300_7
    refine F.forEach (fun t a => ?_) ?_
    · refine F.trans ?_ (collReset_kept F _ _)
      exact F.refl _
    · unfold y300_4
      refine F.forEach (fun t a => ?_) ?_
      · refine F.trans ?_ (State.updRing_kept F _ _ _)
        exact F.refl _
      · unfold y300_2
        refine F.trans ?_ (State.updHost_kept F _ _)
        unfold y300_1
        exact F.onChip (F.refl _)

theorem queueReset_kept (s : State) (x1) : R s (queueReset s x1) := by
  unfold queueReset
  extract_lets; rename_i y300_0
  refine F.trans ?_ (State.updHost_kept F _ _)
  refine F.trans ?_ (State.updQueues_kept F _ _)
  unfold y300_0
  refine F.trans ?_ (State.updQueue_kept F _ _ _)
  exact F.refl _

theorem endQueues_kept (s : State) (x1) : R s (endQueues s x1) := by
  unfold endQueues
  refine F.forEach (fun t a => ?_) ?_
  · refine F.trans ?_ (queueReset_kept F _ _)
    exact F.refl _
  · exact F.refl _

theorem endMatch_kept (s : State) (x1) : R s (endMatch s x1) := by
  unfold endMatch
  extract_lets; rename_i y300_0
  refine F.trans ?_ (State.updMtch_kept F _ _)
  exact F.refl _

theorem dropReq_kept (s : State) (x1) : R s (dropReq s x1) := by
  unfold dropReq
  refine F.trans ?_ (State.updReq_kept F _ _ _)
  refine F.trans ?_ (leavePlace_kept F _ _)
  refine F.trans ?_ (forgetDie_kept F _ _)
  exact F.refl _

theorem endRma_kept (s : State) (x1) : R s (endRma s x1) := by
  unfold endRma
  extract_lets; rename_i y300_0 y300_1
  refine F.trans ?_ (State.updMtch_kept F _ _)
  unfold y300_1
  refine F.forEach (fun t a => ?_) ?_
  · refine F.trans ?_ (dropReq_kept F _ _)
    exact F.refl _
  · exact F.refl _

theorem segFree_kept (s : State) (x1) : R s (segFree s x1) := by
  unfold segFree
  refine F.trans ?_ (writeDesc_kept F _ _)
  refine F.trans ?_ (newGen_kept F _ _)
  refine F.trans ?_ (State.updSeg_kept F _ _ _)
  exact F.refl _

theorem endSegs_kept (s : State) (x1) : R s (endSegs s x1) := by
  unfold endSegs
  extract_lets; rename_i y300_0 y300_1 y300_2
  refine F.trans ?_ (State.updTrans_kept F _ _)
  unfold y300_2
  refine F.forEach (fun t a => ?_) ?_
  · refine F.trans ?_ (segFree_kept F _ _)
    exact F.refl _
  · exact F.refl _

theorem endSems_kept (s : State) (x1) : R s (endSems s x1) := by
  unfold endSems
  extract_lets; rename_i y300_0
  refine F.trans ?_ (State.updSem_kept F _ _)
  exact F.refl _

theorem endFunctions_kept (s : State) (x1) : R s (endFunctions s x1) := by
  unfold endFunctions
  refine F.trans ?_ (endOther_kept F _ _)
  refine F.trans ?_ (endQueues_kept F _ _)
  refine F.trans ?_ (endMatch_kept F _ _)
  refine F.trans ?_ (endRma_kept F _ _)
  refine F.trans ?_ (endSegs_kept F _ _)
  refine F.trans ?_ (endSems_kept F _ _)
  exact F.refl _

theorem hostDie_kept (s : State) : R s (hostDie s) := by
  unfold hostDie
  extract_lets; rename_i y300_0 y300_1
  refine F.trans ?_ (State.fire_kept F _ _)
  refine F.trans ?_ (State.event_kept F _ _ _ _)
  refine F.trans ?_ (State.raise_kept F _ _ _ _ _)
  refine F.trans ?_ (State.updTrans_kept F _ _)
  unfold y300_1
  split
  · refine F.trans ?_ (storeEnters_kept F _ _)
    unfold y300_0
    refine F.trans ?_ (endFunctions_kept F _ _)
    refine F.trans ?_ (abandonHost_kept F _)
    exact F.refl _
  · refine F.trans ?_ (storeEnters_kept F _ _)
    unfold y300_0
    refine F.trans ?_ (endFunctions_kept F _ _)
    refine F.trans ?_ (abandonHost_kept F _)
    exact F.refl _
  · unfold y300_0
    refine F.trans ?_ (endFunctions_kept F _ _)
    refine F.trans ?_ (abandonHost_kept F _)
    exact F.refl _

theorem resetTurn_kept (s : State) : R s (resetTurn s) := by
  unfold resetTurn
  extract_lets; rename_i y300_0
  refine F.ite ?_ ?_
  · refine F.trans ?_ (hostDie_kept F _)
    unfold y300_0
    refine F.ite ?_ ?_
    · refine F.trans ?_ (mPortReset_kept F _)
      exact F.refl _
    · exact F.refl _
  · unfold y300_0
    refine F.ite ?_ ?_
    · refine F.trans ?_ (mPortReset_kept F _)
      exact F.refl _
    · exact F.refl _

theorem deviceIsolatePort_kept (s : State) (x1) : R s (deviceIsolatePort s x1) := by
  unfold deviceIsolatePort
  refine F.ite ?_ ?_
  · exact F.refl _
  · refine F.trans ?_ (enterLink_kept F _ _ _)
    exact F.refl _

theorem isolateNow_kept (s : State) (x1) : R s (isolateNow s x1) := by
  unfold isolateNow
  extract_lets; rename_i y300_0 y300_1
  refine F.trans ?_ (noteState_kept F _ _)
  refine F.trans ?_ (State.event_kept F _ _ _ _)
  refine F.forEach (fun t a => ?_) ?_
  · refine F.trans ?_ (deviceIsolatePort_kept F _ _)
    exact F.refl _
  · unfold y300_1
    refine F.trans ?_ (State.updFault_kept F _ _)
    exact F.refl _

theorem holdPort_kept (s : State) (x1) : R s (holdPort s x1) := by
  unfold holdPort
  split
  · refine F.trans ?_ (enterLink_kept F _ _ _)
    exact F.refl _
  · refine F.trans ?_ (enterLink_kept F _ _ _)
    exact F.refl _
  · exact F.refl _

theorem holdNow_kept (s : State) : R s (holdNow s) := by
  unfold holdNow
  extract_lets; rename_i y300_0 y300_1
  refine F.trans ?_ (noteState_kept F _ _)
  refine F.trans ?_ (State.event_kept F _ _ _ _)
  refine F.forEach (fun t a => ?_) ?_
  · refine F.trans ?_ (holdPort_kept F _ _)
    exact F.refl _
  · unfold y300_1
    refine F.trans ?_ (State.updFault_kept F _ _)
    exact F.refl _

theorem fatalNow_kept (s : State) (x1) : R s (fatalNow s x1) := by
  unfold fatalNow
  extract_lets; rename_i y300_0 y300_1
  refine F.trans ?_ (noteState_kept F _ _)
  refine F.forEach (fun t a => ?_) ?_
  · refine F.trans ?_ (deviceIsolatePort_kept F _ _)
    exact F.refl _
  · unfold y300_1
    refine F.trans ?_ (State.updFault_kept F _ _)
    exact F.refl _

theorem faultTurn_kept (s : State) : R s (faultTurn s) := by
  unfold faultTurn
  extract_lets; rename_i y300_0 y300_1
  split
  · refine F.trans ?_ (fatalNow_kept F _ _)
    unfold y300_1
    refine F.ite ?_ ?_
    · refine F.trans ?_ (holdNow_kept F _)
      unfold y300_0
      split
      · refine F.trans ?_ (isolateNow_kept F _ _)
        exact F.refl _
      · exact F.refl _
    · unfold y300_0
      split
      · refine F.trans ?_ (isolateNow_kept F _ _)
        exact F.refl _
      · exact F.refl _
  · unfold y300_1
    refine F.ite ?_ ?_
    · refine F.trans ?_ (holdNow_kept F _)
      unfold y300_0
      split
      · refine F.trans ?_ (isolateNow_kept F _ _)
        exact F.refl _
      · exact F.refl _
    · unfold y300_0
      split
      · refine F.trans ?_ (isolateNow_kept F _ _)
        exact F.refl _
      · exact F.refl _

theorem haltPort_kept (s : State) (x1) : R s (haltPort s x1) := by
  unfold haltPort
  refine F.trans ?_ (State.updLink_kept F _ _ _)
  refine F.trans ?_ (closeInput_kept F _ _)
  exact F.refl _

theorem dueTurn_kept (s : State) (x1) : R s (dueTurn s x1) := by
  unfold dueTurn
  split
  · exact F.refl _
  · refine F.ite ?_ ?_
    · refine F.trans ?_ (State.updLink_kept F _ _ _)
      exact F.refl _
    · refine F.trans ?_ (enterLink_kept F _ _ _)
      exact F.refl _
  · refine F.trans ?_ (enterLink_kept F _ _ _)
    exact F.refl _

theorem leaveTurn_kept (s : State) (x1) (x2) : R s (leaveTurn s x1 x2) := by
  unfold leaveTurn
  split
  · exact F.refl _
  · refine F.ite ?_ ?_
    · refine F.trans ?_ (laneEnter_kept F _ _ _)
      refine F.trans ?_ (enterLink_kept F _ _ _)
      exact F.refl _
    · refine F.trans ?_ (State.updLink_kept F _ _ _)
      exact F.refl _

theorem linkTurn_kept (x0) (s : State) (x2) : R s (linkTurn x0 s x2) := by
  unfold linkTurn
  extract_lets; rename_i y300_0 y300_1 y300_2
  refine F.ite ?_ ?_
  · refine F.trans ?_ (enterLink_kept F _ _ _)
    unfold y300_1
    refine F.trans ?_ (dueTurn_kept F _ _)
    refine F.trans ?_ (leaveTurn_kept F _ _ _)
    unfold y300_0
    refine F.ite ?_ ?_
    · refine F.trans ?_ (haltPort_kept F _ _)
      exact F.refl _
    · exact F.refl _
  · unfold y300_1
    refine F.trans ?_ (dueTurn_kept F _ _)
    refine F.trans ?_ (leaveTurn_kept F _ _ _)
    unfold y300_0
    refine F.ite ?_ ?_
    · refine F.trans ?_ (haltPort_kept F _ _)
      exact F.refl _
    · exact F.refl _

theorem decidedTurn_kept (s : State) (x1) : R s (decidedTurn s x1) := by
  unfold decidedTurn
  extract_lets; rename_i y300_0 y300_1 y300_2 y300_3
  refine F.trans ?_ (resetTurn_kept F _)
  refine F.trans ?_ (faultTurn_kept F _)
  refine F.forEach (fun t a => ?_) ?_
  · refine F.trans ?_ (linkTurn_kept F _ _ _)
    exact F.refl _
  · unfold y300_3
    refine F.forEach (fun t a => ?_) ?_
    · refine F.trans ?_ (judgeThrottle_kept F _ _)
      exact F.refl _
    · unfold y300_2
      refine F.trans ?_ (requeueAll_kept F _)
      refine F.trans ?_ (lastsBoundary_kept F _ _)
      unfold y300_1
      refine F.ite ?_ ?_
      · refine F.trans ?_ (State.count_kept F _ _ _ _)
        refine F.trans ?_ (State.count_kept F _ _ _ _)
        unfold y300_0
        refine F.trans ?_ (runActions_kept F _)
        refine F.trans ?_ (timeBoundary_kept F _)
        exact F.refl _
      · refine F.trans ?_ (State.count_kept F _ _ _ _)
        unfold y300_0
        refine F.trans ?_ (runActions_kept F _)
        refine F.trans ?_ (timeBoundary_kept F _)
        exact F.refl _

theorem ringOverflow_kept (s : State) (x1) (x2) : R s (ringOverflow s x1 x2) := by
  unfold ringOverflow
  refine F.trans ?_ (chunkLost_kept F _ _)
  refine F.trans ?_ (State.raise_kept F _ _ _ _ _)
  refine F.trans ?_ (State.updRing_kept F _ _ _)
  exact F.refl _

theorem deliverChunk_kept (s : State) (x1) (x2) (x3) (x4) (x5) (x6) : R s (deliverChunk s x1 x2 x3 x4 x5 x6) := by
  unfold deliverChunk
  refine F.ite ?_ ?_
  · refine F.trans ?_ (writeSignal_kept F _ _ _ _)
    refine F.trans ?_ (chunkLost_kept F _ _)
    exact F.refl _
  · extract_lets; rename_i y299_0
    refine F.ite ?_ ?_
    · refine F.trans ?_ (State.count_kept F _ _ _ _)
      unfold y299_0
      refine F.trans ?_ (writeRecord_kept F _ _ _ _)
      exact F.refl _
    · refine F.trans ?_ (ringOverflow_kept F _ _ _)
      unfold y299_0
      refine F.trans ?_ (writeRecord_kept F _ _ _ _)
      exact F.refl _

theorem takeUnit_kept (s : State) (x1) (x2) (x3) : R s (takeUnit s x1 x2 x3) := by
  unfold takeUnit
  extract_lets; rename_i y300_0 y300_1 y300_2 y300_3
  refine F.ite ?_ ?_
  · exact F.refl _
  · refine F.ite ?_ ?_
    · refine F.trans ?_ (State.updQueue_kept F _ _ _)
      exact F.refl _
    · refine F.ite ?_ ?_
      · unfold y300_2
        refine F.trans ?_ (State.count_kept F _ _ _ _)
        exact F.refl _
      · refine F.ite ?_ ?_
        · unfold y300_2
          refine F.trans ?_ (State.count_kept F _ _ _ _)
          exact F.refl _
        · refine F.ite ?_ ?_
          · refine F.trans ?_ (queueError_kept F _ _ _)
            unfold y300_2
            refine F.trans ?_ (State.count_kept F _ _ _ _)
            exact F.refl _
          · refine F.trans ?_ (State.updQueue_kept F _ _ _)
            unfold y300_2
            refine F.trans ?_ (State.count_kept F _ _ _ _)
            exact F.refl _

theorem unitsReturn_kept (s : State) (x1) (x2) (x3) (x4) (x5) : R s (unitsReturn s x1 x2 x3 x4 x5) := by
  unfold unitsReturn
  extract_lets; rename_i y300_0 y300_1 y300_2
  refine F.ite ?_ ?_
  · unfold y300_2
    refine F.trans ?_ (State.updQueue_kept F _ _ _)
    exact F.refl _
  · refine F.ite ?_ ?_
    · refine F.trans ?_ (queueError_kept F _ _ _)
      unfold y300_2
      refine F.trans ?_ (State.updQueue_kept F _ _ _)
      exact F.refl _
    · refine F.forEach (fun t a => ?_) ?_
      · refine F.ite ?_ ?_
        · refine F.trans ?_ (takeUnit_kept F _ _ _ _)
          exact F.refl _
        · exact F.refl _
      · unfold y300_2
        refine F.trans ?_ (State.updQueue_kept F _ _ _)
        exact F.refl _

theorem queueCtxReturn_kept (s : State) (x1) (x2) : R s (queueCtxReturn s x1 x2) := by
  unfold queueCtxReturn
  extract_lets; rename_i y300_0 y300_1
  refine F.ite ?_ ?_
  · unfold y300_1
    refine F.trans ?_ (State.updQueue_kept F _ _ _)
    exact F.refl _
  · refine F.ite ?_ ?_
    · refine F.trans ?_ (queueError_kept F _ _ _)
      refine F.trans ?_ (State.raise_kept F _ _ _ _ _)
      unfold y300_1
      refine F.trans ?_ (State.updQueue_kept F _ _ _)
      exact F.refl _
    · refine F.forEach (fun t a => ?_) ?_
      · refine F.trans ?_ (ringDoor_kept F _ _ _)
        exact F.refl _
      · refine F.trans ?_ (touchQueue_kept F _ _)
        unfold y300_1
        refine F.trans ?_ (State.updQueue_kept F _ _ _)
        exact F.refl _

theorem payloadReturn_kept (s : State) (x1) (x2) (x3) : R s (payloadReturn s x1 x2 x3) := by
  unfold payloadReturn
  extract_lets; rename_i y300_0
  split
  · exact F.refl _
  · split
    · refine F.trans ?_ (pump_kept F _ _)
      refine F.trans ?_ (State.updReq_kept F _ _ _)
      exact F.refl _
    · refine F.trans ?_ (pump_kept F _ _)
      refine F.ite ?_ ?_
      · refine F.trans ?_ (prepLost_kept F _ _ _ _ _ _ _)
        exact F.refl _
      · refine F.trans ?_ (sendPrep_kept F _ _ _ _ _)
        exact F.refl _

theorem getReturn_kept (s : State) (x1) (x2) (x3) (x4) : R s (getReturn s x1 x2 x3 x4) := by
  unfold getReturn
  split
  · exact F.refl _
  · extract_lets; rename_i y299_0 y299_1
    refine F.trans ?_ (State.updRma_kept F _ _)
    unfold y299_1
    refine F.trans ?_ (sendResponse_kept F _ _ _ _ _ _ _ _)
    refine F.ite ?_ ?_
    · refine F.trans ?_ (notePoison_kept F _)
      exact F.refl _
    · exact F.refl _

theorem mgmtEnds_kept (s : State) (x1) (x2) (x3) (x4) (x5) : R s (mgmtEnds s x1 x2 x3 x4 x5) := by
  unfold mgmtEnds
  extract_lets; rename_i y300_0
  refine F.trans ?_ (failEntry_kept F _ _ _ _ _ _)
  refine F.trans ?_ (consume_kept F _ _ _ _)
  exact F.refl _

theorem mgmtReturn_kept (s : State) (x1) (x2) (x3) : R s (mgmtReturn s x1 x2 x3) := by
  unfold mgmtReturn
  refine F.ite ?_ ?_
  · exact F.refl _
  · refine F.ite ?_ ?_
    · refine F.trans ?_ (State.updQueue_kept F _ _ _)
      exact F.refl _
    · split
      · refine F.trans ?_ (mgmtEnds_kept F _ _ _ _ _ _)
        refine F.trans ?_ (F.fst (by assumption) (checkedHead_kept F _ _))
        exact F.refl _
      · refine F.trans ?_ (F.fst (by assumption) (checkedHead_kept F _ _))
        exact F.refl _

theorem recordArrived_kept (s : State) (x1) (x2) (x3) (x4) : R s (recordArrived s x1 x2 x3 x4) := by
  unfold recordArrived
  extract_lets; rename_i y300_0 y300_1
  refine F.ite ?_ ?_
  · refine F.trans ?_ (State.updRing_kept F _ _ _)
    exact F.refl _
  · refine F.trans ?_ (State.updRing_kept F _ _ _)
    exact F.refl _

theorem freeSlot_kept (s : State) (x1) (x2) : R s (freeSlot s x1 x2) := by
  unfold freeSlot
  refine F.trans ?_ (State.updMep_kept F _ _ _)
  exact F.refl _

theorem poolOver_kept (s : State) (x1) : R s (poolOver s x1) := by
  unfold poolOver
  extract_lets; rename_i y300_0 y300_1 y300_2
  refine F.trans ?_ (sweepRecvs_kept F _)
  refine F.trans ?_ (updRecv_kept F _ _ _)
  unfold y300_2
  split
  · refine F.ite ?_ ?_
    · refine F.trans ?_ (freeSlot_kept F _ _ _)
      exact F.refl _
    · refine F.trans ?_ (waitFor_kept F _ _ _)
      exact F.refl _
  · exact F.refl _

theorem poolWrite_kept (s : State) (x1) (x2) : R s (poolWrite s x1 x2) := by
  unfold poolWrite
  extract_lets; rename_i y300_0
  split
  · refine F.trans ?_ (updRecv_kept F _ _ _)
    unfold y300_0
    refine F.trans ?_ (recvPiece_kept F _ _ _ _)
    exact F.refl _
  · refine F.trans ?_ (poolOver_kept F _ _)
    refine F.trans ?_ (updRecv_kept F _ _ _)
    unfold y300_0
    refine F.trans ?_ (recvPiece_kept F _ _ _ _)
    exact F.refl _

theorem poolReturn_kept (s : State) (x1) (x2) (x3) : R s (poolReturn s x1 x2 x3) := by
  unfold poolReturn
  split
  · exact F.refl _
  · refine F.ite ?_ ?_
    · refine F.trans ?_ (poolOver_kept F _ _)
      refine F.trans ?_ (updRecv_kept F _ _ _)
      exact F.refl _
    · refine F.trans ?_ (poolWrite_kept F _ _ _)
      exact F.refl _

theorem startWith_kept (s : State) (g kind : Nat) (opcs : List Nat) (f : State → Entry → State × Bool) (h : ∀ t e, R t (f t e).1) :
    R s (startWith s g kind opcs f) := by
  unfold startWith
  split
  · split
    · dsimp only
      split
      · exact F.after (h _ _) (State.updQueue_kept F _ _ _)
      · exact F.after (State.updQueue_kept F _ _ _) (F.after (h _ _) (State.updQueue_kept F _ _ _))
    · exact F.refl _
  · exact F.refl _

theorem withBufs_kept (s : State) (e : Entry) (need : Need) (f : State → State) (h : ∀ t, R t (f t)) : R s (withBufs s e need f).1 := by
  unfold withBufs
  split
  · exact h s
  · dsimp only
    split
    · exact checkBufs_kept F _ _ _ _
    · exact F.after (failEntry_kept F _ _ _ _ _ _) (checkBufs_kept F _ _ _ _)
    · exact F.after (h _) (checkBufs_kept F _ _ _ _)

theorem startPut_kept (s : State) (x1) : R s (startPut s x1).1 := by
  unfold startPut
  refine F.trans ?_ (withBufs_kept F _ _ _ _ ?_)
  · exact F.refl _
  · intros
    extract_lets; rename_i y299_0 y299_1
    refine F.trans ?_ (submit_kept F _ _ _)
    refine F.trans ?_ (State.took_kept F _)
    exact F.refl _

theorem startGetEntry_kept (s : State) (x1) : R s (startGetEntry s x1).1 := by
  unfold startGetEntry
  refine F.trans ?_ (withBufs_kept F _ _ _ _ ?_)
  · exact F.refl _
  · intros
    refine F.trans ?_ (submit_kept F _ _ _)
    exact F.refl _

theorem startRndvSend_kept (s : State) (x1) : R s (startRndvSend s x1).1 := by
  unfold startRndvSend
  extract_lets; rename_i y300_0 y300_1 y300_2 y300_3
  split
  · refine F.pair ?_
    refine F.trans ?_ (finishEntry_kept F _ _ _ _ _ _)
    exact F.refl _
  · split
    · refine F.pair ?_
      exact F.refl _
    · split
      · refine F.pair ?_
        unfold y300_1
        refine F.trans ?_ (checkBufs_kept F _ _ _ _)
        exact F.refl _
      · refine F.pair ?_
        refine F.trans ?_ (failEntry_kept F _ _ _ _ _ _)
        unfold y300_1
        refine F.trans ?_ (checkBufs_kept F _ _ _ _)
        exact F.refl _
      · split
        · refine F.pair ?_
          refine F.trans ?_ (failEntry_kept F _ _ _ _ _ _)
          unfold y300_1
          refine F.trans ?_ (checkBufs_kept F _ _ _ _)
          exact F.refl _
        · refine F.pair ?_
          refine F.trans ?_ (submit_kept F _ _ _)
          unfold y300_2
          refine F.trans ?_ (State.updMtch_kept F _ _)
          unfold y300_1
          refine F.trans ?_ (checkBufs_kept F _ _ _ _)
          exact F.refl _

theorem startSend_kept (s : State) (x1) : R s (startSend s x1).1 := by
  unfold startSend
  split
  · refine F.trans ?_ (startRndvSend_kept F _ _)
    exact F.refl _
  · refine F.trans ?_ (withBufs_kept F _ _ _ _ ?_)
    · exact F.refl _
    · intros
      refine F.trans ?_ (submit_kept F _ _ _)
      exact F.refl _

theorem leavePipe_kept (s : State) (x1) : R s (leavePipe s x1) := by
  unfold leavePipe
  refine F.trans ?_ (State.updMep_kept F _ _ _)
  exact F.refl _

theorem findUnexp_kept (s : State) (x1) (x2) (x3) : R s (findUnexp s x1 x2 x3).1 := by
  unfold findUnexp
  extract_lets; rename_i y300_0
  split
  · refine F.pair ?_
    exact F.refl _
  · refine F.pair ?_
    exact F.refl _
  · split
    · refine F.pair ?_
      refine F.trans ?_ (countReceive_kept F _ _ _)
      exact F.refl _
    · split
      · refine F.pair ?_
        refine F.trans ?_ (countReceive_kept F _ _ _)
        exact F.refl _
      · split
        · refine F.pair ?_
          exact F.refl _
        · refine F.pair ?_
          refine F.trans ?_ (State.updMep_kept F _ _ _)
          refine F.trans ?_ (countReceive_kept F _ _ _)
          exact F.refl _

theorem insertPost_kept (s : State) (x1) (x2) : R s (insertPost s x1 x2).1 := by
  unfold insertPost
  extract_lets; rename_i y300_0 y300_1 y300_2
  split
  · split
    · refine F.pair ?_
      refine F.trans ?_ (noteOverflow_kept F _)
      exact F.refl _
    · refine F.pair ?_
      refine F.trans ?_ (noteSpill_kept F _ _ _)
      refine F.trans ?_ (State.updMep_kept F _ _ _)
      refine F.trans ?_ (enterSpill_kept F _ _ _)
      exact F.refl _
  · refine F.pair ?_
    refine F.trans ?_ (State.count_kept F _ _ _ _)
    refine F.trans ?_ (State.updMep_kept F _ _ _)
    unfold y300_2
    refine F.trans ?_ (takeEntry_kept F _ _)
    exact F.refl _

theorem holdPipe_kept (s : State) (x1) (x2) : R s (holdPipe s x1 x2) := by
  unfold holdPipe
  refine F.trans ?_ (State.updMep_kept F _ _ _)
  exact F.refl _

theorem unlinkUnexp_kept (s : State) (x1) (x2) : R s (unlinkUnexp s x1 x2) := by
  unfold unlinkUnexp
  split
  · refine F.trans ?_ (State.updMep_kept F _ _ _)
    exact F.refl _
  · refine F.trans ?_ (State.updMep_kept F _ _ _)
    exact F.refl _
  · exact F.refl _

theorem recvTakes_kept (s : State) (x1) (x2) (x3) (x4) (x5) : R s (recvTakes s x1 x2 x3 x4 x5) := by
  unfold recvTakes
  extract_lets; rename_i y300_0 y300_1 y300_2 y300_3
  refine F.ite ?_ ?_
  · refine F.trans ?_ (startRndv_kept F _ _ _)
    unfold y300_3
    refine F.trans ?_ (addRecv_kept F _ _)
    refine F.trans ?_ (State.rmaNext_kept F _)
    exact F.refl _
  · unfold y300_3
    refine F.trans ?_ (addRecv_kept F _ _)
    refine F.trans ?_ (State.rmaNext_kept F _)
    exact F.refl _

theorem postNow_kept (s : State) (x1) (x2) (x3) (x4) : R s (postNow s x1 x2 x3 x4).1 := by
  unfold postNow
  split
  · refine F.pair ?_
    exact F.refl _
  · extract_lets; rename_i y299_0 y299_1
    split
    · refine F.pair ?_
      refine F.trans ?_ (finishEntry_kept F _ _ _ _ _ _)
      refine F.trans ?_ (leavePipe_kept F _ _)
      unfold y299_1
      refine F.trans ?_ (insertPost_kept F _ _ _)
      unfold y299_0
      refine F.trans ?_ (State.updMep_kept F _ _ _)
      exact F.refl _
    · refine F.pair ?_
      refine F.trans ?_ (finishEntry_kept F _ _ _ _ _ _)
      refine F.trans ?_ (leavePipe_kept F _ _)
      unfold y299_1
      refine F.trans ?_ (insertPost_kept F _ _ _)
      unfold y299_0
      refine F.trans ?_ (State.updMep_kept F _ _ _)
      exact F.refl _
  · split
    · refine F.pair ?_
      refine F.trans ?_ (holdPipe_kept F _ _ _)
      refine F.trans ?_ (noteNoRing_kept F _ _)
      exact F.refl _
    · extract_lets; rename_i y298_0 y298_1
      refine F.pair ?_
      refine F.trans ?_ (finishEntry_kept F _ _ _ _ _ _)
      refine F.trans ?_ (leavePipe_kept F _ _)
      unfold y298_1
      refine F.trans ?_ (recvTakes_kept F _ _ _ _ _ _)
      refine F.trans ?_ (State.count_kept F _ _ _ _)
      unfold y298_0
      refine F.trans ?_ (State.updMep_kept F _ _ _)
      refine F.trans ?_ (unlinkUnexp_kept F _ _ _)
      exact F.refl _
  · split
    · refine F.pair ?_
      refine F.trans ?_ (holdPipe_kept F _ _ _)
      refine F.trans ?_ (noteNoRing_kept F _ _)
      exact F.refl _
    · extract_lets; rename_i y298_0 y298_1
      refine F.pair ?_
      refine F.trans ?_ (finishEntry_kept F _ _ _ _ _ _)
      refine F.trans ?_ (leavePipe_kept F _ _)
      unfold y298_1
      refine F.trans ?_ (recvTakes_kept F _ _ _ _ _ _)
      refine F.trans ?_ (State.count_kept F _ _ _ _)
      unfold y298_0
      refine F.trans ?_ (State.updMep_kept F _ _ _)
      refine F.trans ?_ (unlinkUnexp_kept F _ _ _)
      exact F.refl _

theorem recvPost_kept (s : State) (x1) : R s (recvPost s x1).1 := by
  unfold recvPost
  extract_lets; rename_i y300_0 y300_1 y300_2 y300_3 y300_4 y300_5
  split
  · refine F.pair ?_
    refine F.trans ?_ (finishEntry_kept F _ _ _ _ _ _)
    refine F.trans ?_ (leavePipe_kept F _ _)
    exact F.refl _
  · split
    · refine F.pair ?_
      refine F.trans ?_ (finishEntry_kept F _ _ _ _ _ _)
      exact F.refl _
    · split
      · refine F.pair ?_
        unfold y300_2
        refine F.trans ?_ (checkBufs_kept F _ _ _ _)
        exact F.refl _
      · refine F.pair ?_
        refine F.trans ?_ (failEntry_kept F _ _ _ _ _ _)
        unfold y300_2
        refine F.trans ?_ (checkBufs_kept F _ _ _ _)
        exact F.refl _
      · split
        · refine F.pair ?_
          unfold y300_2
          refine F.trans ?_ (checkBufs_kept F _ _ _ _)
          exact F.refl _
        · split
          · refine F.pair ?_
            refine F.trans ?_ (finishEntry_kept F _ _ _ _ _ _)
            unfold y300_2
            refine F.trans ?_ (checkBufs_kept F _ _ _ _)
            exact F.refl _
          · refine F.trans ?_ (postNow_kept F _ _ _ _ _)
            unfold y300_5
            refine F.trans ?_ (findUnexp_kept F _ _ _ _)
            unfold y300_2
            refine F.trans ?_ (checkBufs_kept F _ _ _ _)
            exact F.refl _

theorem recvCancel_kept (s : State) (x1) : R s (recvCancel s x1).1 := by
  unfold recvCancel
  extract_lets; rename_i y300_0 y300_1 y300_2 y300_3 y300_4 y300_5
  split
  · refine F.pair ?_
    refine F.trans ?_ (finishEntry_kept F _ _ _ _ _ _)
    exact F.refl _
  · split
    · refine F.pair ?_
      exact F.refl _
    · split
      · refine F.pair ?_
        refine F.trans ?_ (finishEntry_kept F _ _ _ _ _ _)
        refine F.trans ?_ (leavePipe_kept F _ _)
        exact F.refl _
      · split
        · refine F.pair ?_
          refine F.trans ?_ (holdPipe_kept F _ _ _)
          refine F.trans ?_ (noteNoRing_kept F _ _)
          exact F.refl _
        · refine F.pair ?_
          refine F.trans ?_ (finishEntry_kept F _ _ _ _ _ _)
          refine F.trans ?_ (leavePipe_kept F _ _)
          refine F.trans ?_ (cancelled_kept F _ _ _ _)
          unfold y300_5
          refine F.trans ?_ (State.count_kept F _ _ _ _)
          refine F.trans ?_ (State.updMep_kept F _ _ _)
          exact F.refl _
      · split
        · refine F.pair ?_
          refine F.trans ?_ (holdPipe_kept F _ _ _)
          refine F.trans ?_ (noteNoRing_kept F _ _)
          exact F.refl _
        · refine F.pair ?_
          refine F.trans ?_ (finishEntry_kept F _ _ _ _ _ _)
          refine F.trans ?_ (leavePipe_kept F _ _)
          refine F.trans ?_ (cancelled_kept F _ _ _ _)
          unfold y300_5
          refine F.trans ?_ (State.count_kept F _ _ _ _)
          refine F.trans ?_ (State.updMep_kept F _ _ _)
          exact F.refl _

theorem probe_kept (x0) (s : State) (x2) : R s (probe x0 s x2).1 := by
  unfold probe
  extract_lets; rename_i y300_0 y300_1 y300_2 y300_3
  split
  · refine F.pair ?_
    refine F.trans ?_ (finishEntry_kept F _ _ _ _ _ _)
    refine F.trans ?_ (leavePipe_kept F _ _)
    exact F.refl _
  · split
    · refine F.pair ?_
      exact F.refl _
    · split
      · refine F.pair ?_
        unfold y300_2
        refine F.trans ?_ (findUnexp_kept F _ _ _ _)
        exact F.refl _
      · refine F.pair ?_
        refine F.trans ?_ (finishEntry_kept F _ _ _ _ _ _)
        refine F.trans ?_ (leavePipe_kept F _ _)
        unfold y300_2
        refine F.trans ?_ (findUnexp_kept F _ _ _ _)
        exact F.refl _
      · split
        · extract_lets; rename_i y295_0
          refine F.pair ?_
          refine F.trans ?_ (finishEntry_kept F _ _ _ _ _ _)
          refine F.trans ?_ (leavePipe_kept F _ _)
          unfold y295_0
          refine F.trans ?_ (State.updMep_kept F _ _ _)
          refine F.trans ?_ (unlinkUnexp_kept F _ _ _)
          unfold y300_2
          refine F.trans ?_ (findUnexp_kept F _ _ _ _)
          exact F.refl _
        · refine F.pair ?_
          refine F.trans ?_ (finishEntry_kept F _ _ _ _ _ _)
          refine F.trans ?_ (leavePipe_kept F _ _)
          unfold y300_2
          refine F.trans ?_ (findUnexp_kept F _ _ _ _)
          exact F.refl _
      · split
        · split
          · refine F.pair ?_
            refine F.trans ?_ (finishEntry_kept F _ _ _ _ _ _)
            refine F.trans ?_ (leavePipe_kept F _ _)
            unfold y300_2
            refine F.trans ?_ (findUnexp_kept F _ _ _ _)
            exact F.refl _
          · extract_lets; rename_i y294_0
            refine F.pair ?_
            refine F.trans ?_ (finishEntry_kept F _ _ _ _ _ _)
            refine F.trans ?_ (leavePipe_kept F _ _)
            refine F.trans ?_ (State.count_kept F _ _ _ _)
            unfold y294_0
            refine F.trans ?_ (State.updMep_kept F _ _ _)
            refine F.trans ?_ (unlinkUnexp_kept F _ _ _)
            unfold y300_3
            refine F.trans ?_ (takeEntry_kept F _ _)
            unfold y300_2
            refine F.trans ?_ (findUnexp_kept F _ _ _ _)
            exact F.refl _
        · refine F.pair ?_
          refine F.trans ?_ (finishEntry_kept F _ _ _ _ _ _)
          refine F.trans ?_ (leavePipe_kept F _ _)
          unfold y300_2
          refine F.trans ?_ (findUnexp_kept F _ _ _ _)
          exact F.refl _

theorem mrecv_kept (s : State) (x1) : R s (mrecv s x1).1 := by
  unfold mrecv
  extract_lets; rename_i y300_0 y300_1 y300_2 y300_3
  split
  · refine F.pair ?_
    refine F.trans ?_ (finishEntry_kept F _ _ _ _ _ _)
    refine F.trans ?_ (leavePipe_kept F _ _)
    exact F.refl _
  · split
    · refine F.pair ?_
      refine F.trans ?_ (finishEntry_kept F _ _ _ _ _ _)
      exact F.refl _
    · split
      · refine F.pair ?_
        unfold y300_2
        refine F.trans ?_ (checkBufs_kept F _ _ _ _)
        exact F.refl _
      · refine F.pair ?_
        refine F.trans ?_ (failEntry_kept F _ _ _ _ _ _)
        unfold y300_2
        refine F.trans ?_ (checkBufs_kept F _ _ _ _)
        exact F.refl _
      · split
        · refine F.pair ?_
          unfold y300_2
          refine F.trans ?_ (checkBufs_kept F _ _ _ _)
          exact F.refl _
        · split
          · refine F.pair ?_
            refine F.trans ?_ (finishEntry_kept F _ _ _ _ _ _)
            refine F.trans ?_ (leavePipe_kept F _ _)
            unfold y300_2
            refine F.trans ?_ (checkBufs_kept F _ _ _ _)
            exact F.refl _
          · split
            · refine F.pair ?_
              refine F.trans ?_ (holdPipe_kept F _ _ _)
              refine F.trans ?_ (noteNoRing_kept F _ _)
              unfold y300_2
              refine F.trans ?_ (checkBufs_kept F _ _ _ _)
              exact F.refl _
            · extract_lets; rename_i y293_0
              refine F.pair ?_
              refine F.trans ?_ (finishEntry_kept F _ _ _ _ _ _)
              refine F.trans ?_ (leavePipe_kept F _ _)
              refine F.trans ?_ (recvTakes_kept F _ _ _ _ _ _)
              unfold y293_0
              refine F.trans ?_ (State.updMep_kept F _ _ _)
              unfold y300_2
              refine F.trans ?_ (checkBufs_kept F _ _ _ _)
              exact F.refl _

theorem withDesc_kept (f : State → Entry → State) (s : State) (e : Entry) (h : ∀ t a, R t (f t a)) : R s (withDesc f s e).1 := by
  unfold withDesc
  dsimp only
  split
  · split
    · exact F.after (h _ _) (lookDesc_kept F _ _)
    · exact lookDesc_kept F _ _
  · exact h s e

theorem transDue_kept (s : State) (x1) : R s (transDue s x1) := by
  unfold transDue
  refine F.trans ?_ (State.updTrans_kept F _ _)
  exact F.refl _

theorem segRegister_kept (s : State) (x1) : R s (segRegister s x1) := by
  unfold segRegister
  extract_lets; rename_i y300_0
  split
  · refine F.trans ?_ (transDue_kept F _ _)
    exact F.refl _
  · refine F.trans ?_ (finishEntry_kept F _ _ _ _ _ _)
    exact F.refl _

theorem segRevoke_kept (s : State) (x1) : R s (segRevoke s x1) := by
  unfold segRevoke
  refine F.ite ?_ ?_
  · refine F.trans ?_ (transDue_kept F _ _)
    exact F.refl _
  · refine F.trans ?_ (finishEntry_kept F _ _ _ _ _ _)
    exact F.refl _

theorem invalStart_kept (s : State) (x1) (x2) : R s (invalStart s x1 x2) := by
  unfold invalStart
  refine F.ite ?_ ?_
  · refine F.trans ?_ (transDue_kept F _ _)
    exact F.refl _
  · refine F.trans ?_ (finishEntry_kept F _ _ _ _ _ _)
    exact F.refl _

theorem startSeg_kept (x0) (s : State) (x2) : R s (startSeg x0 s x2).1 := by
  unfold startSeg
  refine F.trans ?_ (withDesc_kept F _ _ _ ?_)
  · exact F.refl _
  · intros
    split
    · refine F.trans ?_ (segRegister_kept F _ _)
      exact F.refl _
    · refine F.trans ?_ (segRevoke_kept F _ _)
      exact F.refl _
    · refine F.trans ?_ (invalStart_kept F _ _ _)
      exact F.refl _
    · refine F.trans ?_ (invalStart_kept F _ _ _)
      exact F.refl _

theorem retryStart_kept (s : State) (x1) : R s (retryStart s x1) := by
  unfold retryStart
  split
  · exact F.refl _
  · refine F.ite ?_ ?_
    · exact F.refl _
    · refine F.ite ?_ ?_
      · split
        · refine F.trans ?_ (startWith_kept F _ _ _ _ _ ?_)
          · exact F.refl _
          · intros
            refine F.trans ?_ (startPut_kept F _ _)
            exact F.refl _
        · refine F.trans ?_ (startWith_kept F _ _ _ _ _ ?_)
          · exact F.refl _
          · intros
            refine F.trans ?_ (startGetEntry_kept F _ _)
            exact F.refl _
        · refine F.trans ?_ (startWith_kept F _ _ _ _ _ ?_)
          · exact F.refl _
          · intros
            refine F.trans ?_ (startSend_kept F _ _)
            exact F.refl _
        · exact F.refl _
      · split
        · refine F.trans ?_ (startWith_kept F _ _ _ _ _ ?_)
          · exact F.refl _
          · intros
            refine F.trans ?_ (recvPost_kept F _ _)
            exact F.refl _
        · refine F.trans ?_ (startWith_kept F _ _ _ _ _ ?_)
          · exact F.refl _
          · intros
            refine F.trans ?_ (recvCancel_kept F _ _)
            exact F.refl _
        · refine F.trans ?_ (startWith_kept F _ _ _ _ _ ?_)
          · exact F.refl _
          · intros
            refine F.trans ?_ (probe_kept F _ _ _)
            exact F.refl _
        · refine F.trans ?_ (startWith_kept F _ _ _ _ _ ?_)
          · exact F.refl _
          · intros
            refine F.trans ?_ (probe_kept F _ _ _)
            exact F.refl _
        · refine F.trans ?_ (startWith_kept F _ _ _ _ _ ?_)
          · exact F.refl _
          · intros
            refine F.trans ?_ (mrecv_kept F _ _)
            exact F.refl _
        · refine F.trans ?_ (startWith_kept F _ _ _ _ _ ?_)
          · exact F.refl _
          · intros
            refine F.trans ?_ (collStart_kept F _ _)
            exact F.refl _
        · refine F.trans ?_ (startWith_kept F _ _ _ _ _ ?_)
          · exact F.refl _
          · intros
            refine F.trans ?_ (startSeg_kept F _ _ _)
            exact F.refl _

theorem sendRespAck_kept (s : State) (x1) : R s (sendRespAck s x1) := by
  unfold sendRespAck
  extract_lets; rename_i y300_0 y300_1 y300_2 y300_3 y300_4
  refine F.trans ?_ (sendAck_kept F _ _ _ _ _)
  refine F.trans ?_ (State.updReq_kept F _ _ _)
  exact F.refl _

theorem responseTaken_kept (s : State) (x1) (x2) (x3) : R s (responseTaken s x1 x2 x3) := by
  unfold responseTaken
  extract_lets; rename_i y300_0 y300_1 y300_2 y300_3
  refine F.trans ?_ (afterAck_kept F _ _)
  unfold y300_3
  refine F.ite ?_ ?_
  · refine F.trans ?_ (sendRespAck_kept F _ _)
    unfold y300_2
    refine F.trans ?_ (State.updReq_kept F _ _ _)
    unfold y300_1
    refine F.trans ?_ (advanceUna_kept F _ _ _)
    unfold y300_0
    refine F.trans ?_ (ackPsn_kept F _ _ _)
    exact F.refl _
  · unfold y300_2
    refine F.trans ?_ (State.updReq_kept F _ _ _)
    unfold y300_1
    refine F.trans ?_ (advanceUna_kept F _ _ _)
    unfold y300_0
    refine F.trans ?_ (ackPsn_kept F _ _ _)
    exact F.refl _

theorem takeGetResp_kept (s : State) (x1) (x2) (x3) (x4) : R s (takeGetResp s x1 x2 x3 x4) := by
  unfold takeGetResp
  extract_lets; rename_i y300_0 y300_1 y300_2 y300_3
  refine F.ite ?_ ?_
  · refine F.trans ?_ (responseTaken_kept F _ _ _ _)
    refine F.trans ?_ (updPktOf_kept F _ _ _ _)
    refine F.trans ?_ (msgFails_kept F _ _ _ _ _ _)
    exact F.refl _
  · split
    · refine F.trans ?_ (State.updRma_kept F _ _)
      unfold y300_3
      refine F.trans ?_ (accessBufs_kept F _ _ _ _ _)
      exact F.refl _
    · refine F.trans ?_ (responseTaken_kept F _ _ _ _)
      refine F.trans ?_ (updPktOf_kept F _ _ _ _)
      refine F.trans ?_ (msgFails_kept F _ _ _ _ _ _)
      unfold y300_3
      refine F.trans ?_ (accessBufs_kept F _ _ _ _ _)
      exact F.refl _
    · extract_lets; rename_i y297_0
      refine F.trans ?_ (responseTaken_kept F _ _ _ _)
      refine F.trans ?_ (updPktOf_kept F _ _ _ _)
      refine F.trans ?_ (updMsg_kept F _ _ _ _)
      unfold y297_0
      refine F.trans ?_ (writeGrants_kept F _ _ _)
      unfold y300_3
      refine F.trans ?_ (accessBufs_kept F _ _ _ _ _)
      exact F.refl _

theorem takeAtomicResp_kept (s : State) (x1) (x2) (x3) (x4) : R s (takeAtomicResp s x1 x2 x3 x4) := by
  unfold takeAtomicResp
  extract_lets; rename_i y300_0
  refine F.trans ?_ (responseTaken_kept F _ _ _ _)
  refine F.trans ?_ (updPktOf_kept F _ _ _ _)
  unfold y300_0
  refine F.ite ?_ ?_
  · refine F.trans ?_ (msgFails_kept F _ _ _ _ _ _)
    exact F.refl _
  · refine F.trans ?_ (updMsg_kept F _ _ _ _)
    exact F.refl _

theorem responseIn_kept (s : State) (x1) : R s (responseIn s x1) := by
  unfold responseIn
  extract_lets; rename_i y300_0 y300_1
  refine F.ite ?_ ?_
  · refine F.trans ?_ (State.count_kept F _ _ _ _)
    exact F.refl _
  · split
    · exact F.refl _
    · split
      · exact F.refl _
      · refine F.ite ?_ ?_
        · refine F.ite ?_ ?_
          · refine F.trans ?_ (takeGetResp_kept F _ _ _ _ _)
            exact F.refl _
          · exact F.refl _
        · refine F.ite ?_ ?_
          · refine F.trans ?_ (takeAtomicResp_kept F _ _ _ _ _)
            exact F.refl _
          · exact F.refl _

theorem retryResponses_kept (s : State) : R s (retryResponses s) := by
  unfold retryResponses
  extract_lets; rename_i y300_0
  refine F.forEach (fun t a => ?_) ?_
  · refine F.trans ?_ (responseIn_kept F _ _)
    exact F.refl _
  · refine F.trans ?_ (State.updRma_kept F _ _)
    exact F.refl _

theorem retryRecvs_kept (s : State) : R s (retryRecvs s) := by
  unfold retryRecvs
  refine F.forEach (fun t a => ?_) ?_
  · refine F.trans ?_ (poolWrite_kept F _ _ _)
    exact F.refl _
  · exact F.refl _

theorem retryCtx_kept (s : State) (x1) : R s (retryCtx s x1) := by
  unfold retryCtx
  refine F.trans ?_ (closeIdle_kept F _ _)
  refine F.trans ?_ (pump_kept F _ _)
  refine F.trans ?_ (workPrep_kept F _ _)
  exact F.refl _

theorem resumeAll_kept (s : State) : R s (resumeAll s) := by
  unfold resumeAll
  extract_lets; rename_i y300_0 y300_1 y300_2 y300_3
  refine F.trans ?_ (State.updTrans_kept F _ _)
  unfold y300_3
  refine F.forEach (fun t a => ?_) ?_
  · refine F.trans ?_ (collRetry_kept F _ _)
    exact F.refl _
  · unfold y300_2
    refine F.trans ?_ (retryRecvs_kept F _)
    refine F.forEach (fun t a => ?_) ?_
    · refine F.trans ?_ (retryCtx_kept F _ _)
      exact F.refl _
    · unfold y300_1
      refine F.trans ?_ (retryResponses_kept F _)
      refine F.trans ?_ (retryParked_kept F _)
      unfold y300_0
      refine F.forEach (fun t a => ?_) ?_
      · refine F.trans ?_ (retryStart_kept F _ _)
        exact F.refl _
      · exact F.refl _

theorem descReturn_kept (s : State) (x1) (x2) : R s (descReturn s x1 x2) := by
  unfold descReturn
  extract_lets; rename_i y300_0
  refine F.ite ?_ ?_
  · refine F.trans ?_ (State.updTrans_kept F _ _)
    refine F.trans ?_ (State.updSeg_kept F _ _ _)
    refine F.trans ?_ (State.event_kept F _ _ _ _)
    refine F.trans ?_ (State.raise_kept F _ _ _ _ _)
    refine F.trans ?_ (State.raise_kept F _ _ _ _ _)
    unfold y300_0
    refine F.trans ?_ (State.updTrans_kept F _ _)
    exact F.refl _
  · unfold y300_0
    refine F.trans ?_ (State.updTrans_kept F _ _)
    exact F.refl _

theorem deliverRead_kept (s : State) (x1) (x2) (x3) : R s (deliverRead s x1 x2 x3) := by
  unfold deliverRead
  split
  · refine F.trans ?_ (unitsReturn_kept F _ _ _ _ _ _)
    exact F.refl _
  · refine F.trans ?_ (queueCtxReturn_kept F _ _ _)
    exact F.refl _
  · refine F.trans ?_ (payloadReturn_kept F _ _ _ _)
    exact F.refl _
  · refine F.trans ?_ (getReturn_kept F _ _ _ _ _)
    exact F.refl _
  · refine F.trans ?_ (atomicReturn_kept F _ _ _ _)
    exact F.refl _
  · refine F.trans ?_ (mgmtReturn_kept F _ _ _ _)
    exact F.refl _
  · refine F.trans ?_ (recordArrived_kept F _ _ _ _ _)
    exact F.refl _
  · refine F.trans ?_ (collReturn_kept F _ _ _ _ _)
    exact F.refl _
  · refine F.trans ?_ (poolReturn_kept F _ _ _ _)
    exact F.refl _
  · refine F.trans ?_ (resumeAll_kept F _)
    refine F.trans ?_ (descReturn_kept F _ _ _)
    exact F.refl _
  · refine F.trans ?_ (resumeAll_kept F _)
    refine F.trans ?_ (adReturn_kept F _ _ _ _ _)
    exact F.refl _
  · exact F.refl _
  · exact F.refl _
  · exact F.refl _
  · exact F.refl _

theorem hpUse_kept (s : State) (x1) (x2) (x3) : R s (hpUse s x1 x2 x3) := by
  unfold hpUse
  refine F.ite ?_ ?_
  · exact F.refl _
  · exact F.onChip (F.refl _)

theorem deliverTo_kept (s : State) (x1) (x2) : R s (deliverTo s x1 x2) := by
  unfold deliverTo
  extract_lets; rename_i y300_0 y300_1 y300_2
  refine F.ite ?_ ?_
  · refine F.trans ?_ (benchEvent_kept F _ _ _)
    refine F.trans ?_ (State.raise_kept F _ _ _ _ _)
    refine F.trans ?_ (State.count_kept F _ _ _ _)
    refine F.trans ?_ (endCopy_kept F _ _ _ _)
    unfold y300_1
    refine F.trans ?_ (hpUse_kept F _ _ _ _)
    refine F.trans ?_ (stamp_kept F _ _ _)
    refine F.trans ?_ (stamp_kept F _ _ _)
    exact F.refl _
  · refine F.ite ?_ ?_
    · refine F.trans ?_ (State.raise_kept F _ _ _ _ _)
      refine F.trans ?_ (State.count_kept F _ _ _ _)
      refine F.trans ?_ (endCopy_kept F _ _ _ _)
      unfold y300_1
      refine F.trans ?_ (hpUse_kept F _ _ _ _)
      refine F.trans ?_ (stamp_kept F _ _ _)
      refine F.trans ?_ (stamp_kept F _ _ _)
      exact F.refl _
    · refine F.ite ?_ ?_
      · refine F.trans ?_ (State.count_kept F _ _ _ _)
        refine F.trans ?_ (endCopy_kept F _ _ _ _)
        unfold y300_1
        refine F.trans ?_ (hpUse_kept F _ _ _ _)
        refine F.trans ?_ (stamp_kept F _ _ _)
        refine F.trans ?_ (stamp_kept F _ _ _)
        exact F.refl _
      · refine F.ite ?_ ?_
        · refine F.trans ?_ (State.raise_kept F _ _ _ _ _)
          refine F.trans ?_ (State.count_kept F _ _ _ _)
          refine F.trans ?_ (endCopy_kept F _ _ _ _)
          unfold y300_1
          refine F.trans ?_ (hpUse_kept F _ _ _ _)
          refine F.trans ?_ (stamp_kept F _ _ _)
          refine F.trans ?_ (stamp_kept F _ _ _)
          exact F.refl _
        · refine F.ite ?_ ?_
          · refine F.trans ?_ (State.count_kept F _ _ _ _)
            refine F.trans ?_ (endCopy_kept F _ _ _ _)
            unfold y300_1
            refine F.trans ?_ (hpUse_kept F _ _ _ _)
            refine F.trans ?_ (stamp_kept F _ _ _)
            refine F.trans ?_ (stamp_kept F _ _ _)
            exact F.refl _
          · refine F.ite ?_ ?_
            · refine F.trans ?_ (endCopy_kept F _ _ _ _)
              unfold y300_1
              refine F.trans ?_ (hpUse_kept F _ _ _ _)
              refine F.trans ?_ (stamp_kept F _ _ _)
              refine F.trans ?_ (stamp_kept F _ _ _)
              exact F.refl _
            · refine F.trans ?_ (State.updSw_kept F _ _)
              refine F.trans ?_ (State.count_kept F _ _ _ _)
              refine F.trans ?_ (endCopy_kept F _ _ _ _)
              unfold y300_1
              refine F.trans ?_ (hpUse_kept F _ _ _ _)
              refine F.trans ?_ (stamp_kept F _ _ _)
              refine F.trans ?_ (stamp_kept F _ _ _)
              exact F.refl _

theorem departNow_kept (s : State) : R s (departNow s) := by
  unfold departNow
  extract_lets; rename_i y300_0 y300_1
  refine F.trans ?_ (State.event_kept F _ _ _ _)
  refine F.trans ?_ (State.raise_kept F _ _ _ _ _)
  refine F.trans ?_ (isolateDevice_kept F _ _)
  unfold y300_1
  refine F.trans ?_ (State.updPwr_kept F _ _)
  unfold y300_0
  refine F.forEach (fun t a => ?_) ?_
  · refine F.trans ?_ (enterLink_kept F _ _ _)
    refine F.trans ?_ (laneEnter_kept F _ _ _)
    exact F.refl _
  · exact F.refl _

theorem loseCore_kept (s : State) (warm : Bool) : R s (loseCore s warm) := F.loseCore s warm

theorem deviceReset_kept (s : State) (x1) : R s (deviceReset s x1) := by
  unfold deviceReset
  extract_lets; rename_i y300_0 y300_1 y300_2 y300_3 y300_4
  refine F.trans ?_ (State.latched_kept F _)
  refine F.trans ?_ (advance_kept F _)
  unfold y300_4
  refine F.trans ?_ (State.updPwr_kept F _ _)
  unfold y300_3
  refine F.trans ?_ (State.updFault_kept F _ _)
  unfold y300_2
  refine F.trans ?_ (loseCore_kept F _ _)
  exact F.refl _

theorem dictFails_kept (s : State) : R s (dictFails s) := by
  unfold dictFails
  extract_lets; rename_i y300_0 y300_1
  refine F.trans ?_ (State.raise_kept F _ _ _ _ _)
  exact F.onChip (F.refl _)

theorem dropAged_kept (s : State) (p n : Nat) : R s (dropAged s p n) := by
  induction n generalizing s with
  | zero => exact F.refl _
  | succ n ih =>
    unfold dropAged
    split
    · exact F.refl _
    · split
      · exact F.after (ih _) (ageOut_kept F _ _ _)
      · exact F.refl _

theorem dropInband_kept (s : State) (x1) (x2) : R s (dropInband s x1 x2) := by
  unfold dropInband
  extract_lets; rename_i y300_0
  refine F.ite ?_ ?_
  · refine F.trans ?_ (State.raise_kept F _ _ _ _ _)
    unfold y300_0
    refine F.trans ?_ (State.updCtl_kept F _ _)
    refine F.trans ?_ (State.count_kept F _ _ _ _)
    exact F.refl _
  · unfold y300_0
    refine F.trans ?_ (State.updCtl_kept F _ _)
    refine F.trans ?_ (State.count_kept F _ _ _ _)
    exact F.refl _

theorem dropPass_kept (s : State) (x1) : R s (dropPass s x1) := by
  unfold dropPass
  refine F.trans ?_ (State.updTrans_kept F _ _)
  exact F.refl _

theorem dropSlot_kept (s : State) (x1) : R s (dropSlot s x1) := by
  unfold dropSlot
  exact F.onChip (F.refl _)

theorem eccCorrected_kept (s : State) (x1) : R s (eccCorrected s x1) := by
  unfold eccCorrected
  split
  · refine F.ite ?_ ?_
    · refine F.trans ?_ (benchEvent_kept F _ _ _)
      refine F.trans ?_ (State.raise_kept F _ _ _ _ _)
      refine F.trans ?_ (State.count_kept F _ _ _ _)
      exact F.refl _
    · exact F.refl _
  · refine F.trans ?_ (State.raise_kept F _ _ _ _ _)
    refine F.trans ?_ (State.count_kept F _ _ _ _)
    exact F.refl _

theorem eccFound_kept (s : State) (x1) : R s (eccFound s x1) := by
  unfold eccFound
  split
  · refine F.trans ?_ (benchEvent_kept F _ _ _)
    refine F.trans ?_ (State.raise_kept F _ _ _ _ _)
    exact F.refl _
  · refine F.trans ?_ (State.raise_kept F _ _ _ _ _)
    exact F.refl _

theorem readWatch_kept (s : State) (x1) : R s (readWatch s x1) := by
  unfold readWatch
  extract_lets; rename_i y300_0 y300_1
  refine F.ite ?_ ?_
  · unfold y300_1
    refine F.trans ?_ (hostRead_kept F _ _ _ _ _)
    exact F.refl _
  · refine F.trans ?_ (queueError_kept F _ _ _)
    unfold y300_1
    refine F.trans ?_ (hostRead_kept F _ _ _ _ _)
    exact F.refl _

theorem startWatch_kept (s : State) (x1) : R s (startWatch s x1) := by
  unfold startWatch
  extract_lets; rename_i y300_0
  refine F.trans ?_ (readWatch_kept F _ _)
  refine F.ite ?_ ?_
  · refine F.trans ?_ (State.event_kept F _ _ _ _)
    unfold y300_0
    refine F.trans ?_ (State.updHost_kept F _ _)
    exact F.refl _
  · unfold y300_0
    refine F.trans ?_ (State.updHost_kept F _ _)
    exact F.refl _

theorem enableNow_kept (s : State) (x1) : R s (enableNow s x1) := by
  unfold enableNow
  extract_lets; rename_i y300_0 y300_1 y300_2 y300_3
  refine F.ite ?_ ?_
  · refine F.trans ?_ (State.event_kept F _ _ _ _)
    refine F.trans ?_ (State.raise_kept F _ _ _ _ _)
    refine F.trans ?_ (State.updQueue_kept F _ _ _)
    exact F.refl _
  · refine F.ite ?_ ?_
    · refine F.trans ?_ (startWatch_kept F _ _)
      unfold y300_3
      refine F.trans ?_ (touchQueue_kept F _ _)
      refine F.trans ?_ (updRing_kept F _ _ _)
      unfold y300_2
      refine F.trans ?_ (State.updQueue_kept F _ _ _)
      exact F.refl _
    · unfold y300_3
      refine F.trans ?_ (touchQueue_kept F _ _)
      refine F.trans ?_ (updRing_kept F _ _ _)
      unfold y300_2
      refine F.trans ?_ (State.updQueue_kept F _ _ _)
      exact F.refl _

theorem endDrain_kept (s : State) (x1) : R s (endDrain s x1) := by
  unfold endDrain
  refine F.trans ?_ (finishEntry_kept F _ _ _ _ _ _)
  refine F.trans ?_ (State.updTrans_kept F _ _)
  exact F.refl _

theorem endOpen_kept (s : State) (x1) (x2) : R s (endOpen s x1 x2) := by
  unfold endOpen
  extract_lets; rename_i y300_0 y300_1
  refine F.trans ?_ (crossMore_kept F _ _)
  refine F.trans ?_ (State.fire_kept F _ _)
  refine F.trans ?_ (State.raise_kept F _ _ _ _ _)
  refine F.trans ?_ (State.count_kept F _ _ _ _)
  refine F.trans ?_ (State.count_kept F _ _ _ _)
  unfold y300_1
  refine F.trans ?_ (State.updLink_kept F _ _ _)
  unfold y300_0
  refine F.trans ?_ (State.updPkt_kept F _ _ _)
  exact F.refl _

theorem endRead_kept (s : State) (x1) : R s (endRead s x1) := by
  unfold endRead
  refine F.trans ?_ (State.updHost_kept F _ _)
  exact F.refl _

theorem enterRecord_kept (s : State) (x1) : R s (enterRecord s x1) := by
  unfold enterRecord
  refine F.trans ?_ (State.updFault_kept F _ _)
  exact F.refl _

theorem enterStandby_kept (s : State) : R s (enterStandby s) := by
  unfold enterStandby
  extract_lets; rename_i y300_0 y300_1
  refine F.forEach (fun t a => ?_) ?_
  · refine F.trans ?_ (moduleReset_kept F _ _)
    exact F.refl _
  · unfold y300_1
    refine F.forEach (fun t a => ?_) ?_
    · refine F.trans ?_ (enterLink_kept F _ _ _)
      refine F.trans ?_ (laneEnter_kept F _ _ _)
      exact F.refl _
    · unfold y300_0
      refine F.trans ?_ (State.updPwr_kept F _ _)
      exact F.refl _

theorem errorIn_kept (s : State) (x1) (x2) : R s (errorIn s x1 x2) := by
  unfold errorIn
  extract_lets; rename_i y300_0
  refine F.ite ?_ ?_
  · unfold y300_0
    refine F.trans ?_ (ackError_kept F _ _ _)
    exact F.refl _
  · refine F.trans ?_ (ackFields_kept F _ _ _)
    unfold y300_0
    refine F.trans ?_ (ackError_kept F _ _ _)
    exact F.refl _

theorem storeCopyError_kept (s : State) (x1) (x2) : R s (storeCopyError s x1 x2) := by
  unfold storeCopyError
  refine F.ite ?_ ?_
  · refine F.trans ?_ (copyBad_kept F _ _ _)
    exact F.refl _
  · refine F.trans ?_ (State.count_kept F _ _ _ _)
    refine F.trans ?_ (endCopy_kept F _ _ _ _)
    exact F.refl _

theorem loseWhole_kept (s : State) (x1) : R s (loseWhole s x1) := by
  unfold loseWhole
  extract_lets; rename_i y300_0
  refine F.trans ?_ (benchEvent_kept F _ _ _)
  refine F.trans ?_ (State.count_kept F _ _ _ _)
  unfold y300_0
  refine F.ite ?_ ?_
  · refine F.trans ?_ (dropPkt_kept F _ _)
    exact F.refl _
  · refine F.forEach (fun t a => ?_) ?_
    · refine F.trans ?_ (endCopy_kept F _ _ _ _)
      exact F.refl _
    · exact F.refl _

theorem storedFlitError_kept (s : State) (x1) : R s (storedFlitError s x1) := by
  unfold storedFlitError
  refine F.ite ?_ ?_
  · refine F.ite ?_ ?_
    · refine F.forEach (fun t a => ?_) ?_
      · refine F.trans ?_ (storeCopyError_kept F _ _ _)
        exact F.refl _
      · refine F.trans ?_ (eccFound_kept F _ _)
        exact F.refl _
    · exact F.refl _
  · refine F.ite ?_ ?_
    · exact F.refl _
    · extract_lets; rename_i y298_0
      refine F.ite ?_ ?_
      · refine F.trans ?_ (loseWhole_kept F _ _)
        unfold y298_0
        refine F.trans ?_ (eccFound_kept F _ _)
        exact F.refl _
      · refine F.ite ?_ ?_
        · unfold y298_0
          refine F.trans ?_ (eccFound_kept F _ _)
          exact F.refl _
        · refine F.trans ?_ (State.count_kept F _ _ _ _)
          refine F.trans ?_ (State.updPkt_kept F _ _ _)
          unfold y298_0
          refine F.trans ?_ (eccFound_kept F _ _)
          exact F.refl _

theorem stagedFlitError_kept (s : State) (x1) (x2) : R s (stagedFlitError s x1 x2) := by
  unfold stagedFlitError
  refine F.ite ?_ ?_
  · exact F.refl _
  · extract_lets; rename_i y299_0
    refine F.ite ?_ ?_
    · refine F.trans ?_ (copyBad_kept F _ _ _)
      unfold y299_0
      refine F.trans ?_ (eccFound_kept F _ _)
      exact F.refl _
    · refine F.ite ?_ ?_
      · refine F.trans ?_ (loseWhole_kept F _ _)
        unfold y299_0
        refine F.trans ?_ (eccFound_kept F _ _)
        exact F.refl _
      · refine F.trans ?_ (State.count_kept F _ _ _ _)
        refine F.trans ?_ (endCopy_kept F _ _ _ _)
        unfold y299_0
        refine F.trans ?_ (eccFound_kept F _ _)
        exact F.refl _

theorem lastBufferError_kept (s : State) (x1) (x2) : R s (lastBufferError s x1 x2) := by
  unfold lastBufferError
  refine F.ite ?_ ?_
  · refine F.trans ?_ (State.raise_kept F _ _ _ _ _)
    refine F.trans ?_ (chunkLost_kept F _ _)
    refine F.trans ?_ (State.updLast_kept F _ _ _)
    exact F.refl _
  · exact F.refl _

theorem transCacheError_kept (s : State) (x1) (x2) : R s (transCacheError s x1 x2) := by
  unfold transCacheError
  split
  · refine F.trans ?_ (State.raise_kept F _ _ _ _ _)
    refine F.trans ?_ (State.updTrans_kept F _ _)
    exact F.refl _
  · exact F.refl _

theorem matchLost_kept (s : State) (x1) : R s (matchLost s x1) := by
  unfold matchLost
  refine F.trans ?_ (State.updMep_kept F _ _ _)
  exact F.refl _

theorem searchLost_kept (s : State) (x1) (x2) : R s (searchLost s x1 x2) := by
  unfold searchLost
  extract_lets; rename_i y300_0
  split
  · refine F.trans ?_ (State.updRma_kept F _ _)
    unfold y300_0
    refine F.trans ?_ (matchLost_kept F _ _)
    exact F.refl _
  · unfold y300_0
    refine F.trans ?_ (matchLost_kept F _ _)
    exact F.refl _

theorem matchEntryError_kept (s : State) (x1) : R s (matchEntryError s x1) := by
  unfold matchEntryError
  extract_lets; rename_i y300_0 y300_1
  refine F.ite ?_ ?_
  · exact F.refl _
  · split
    · refine F.trans ?_ (searchLost_kept F _ _ _)
      unfold y300_1
      refine F.trans ?_ (State.raise_kept F _ _ _ _ _)
      exact F.refl _
    · refine F.trans ?_ (matchLost_kept F _ _)
      unfold y300_1
      refine F.trans ?_ (State.raise_kept F _ _ _ _ _)
      exact F.refl _

theorem memError_kept (s : State) (x1) : R s (memError s x1) := by
  unfold memError
  split
  · refine F.trans ?_ (eccCorrected_kept F _ _)
    exact F.refl _
  · split
    · refine F.trans ?_ (storedFlitError_kept F _ _)
      exact F.refl _
    · exact F.refl _
  · split
    · split
      · refine F.trans ?_ (stagedFlitError_kept F _ _ _)
        exact F.refl _
      · exact F.refl _
    · exact F.refl _
  · refine F.trans ?_ (lastBufferError_kept F _ _ _)
    exact F.refl _
  · refine F.trans ?_ (transCacheError_kept F _ _ _)
    exact F.refl _
  · refine F.trans ?_ (matchEntryError_kept F _ _)
    exact F.refl _
  · refine F.trans ?_ (collBufferError_kept F _ _ _)
    exact F.refl _

theorem memErrors_kept (s : State) (x1) : R s (memErrors s x1) := by
  unfold memErrors
  refine F.forEach (fun t a => ?_) ?_
  · refine F.trans ?_ (memError_kept F _ _)
    exact F.refl _
  · exact F.refl _

theorem patternErrors_kept (s : State) (x1) (x2) : R s (patternErrors s x1 x2) := by
  unfold patternErrors
  refine F.ite ?_ ?_
  · refine F.trans ?_ (State.setReg_kept F _ _ _ _)
    exact F.refl _
  · exact F.refl _

theorem errorsSeen_kept (x0) (s : State) : R s (errorsSeen x0 s) := by
  unfold errorsSeen
  refine F.forEach (fun t a => ?_) ?_
  · refine F.trans ?_ (patternErrors_kept F _ _ _)
    exact F.refl _
  · refine F.trans ?_ (memErrors_kept F _ _)
    exact F.refl _

theorem evFlush_kept (s : State) : R s (evFlush s) := by
  unfold evFlush
  extract_lets; rename_i y300_0
  refine F.forEach (fun t a => ?_) ?_
  · refine F.trans ?_ (evWrite_kept F _ _)
    exact F.refl _
  · refine F.trans ?_ (State.updSem_kept F _ _)
    exact F.refl _

theorem newCount_kept (s : State) : R s (newCount s) := by
  unfold newCount
  split
  · refine F.trans ?_ (missActions_kept F _ _)
    refine F.trans ?_ (F.upd _ _ fun _ => ⟨rfl, rfl, rfl⟩)
    exact F.refl _
  · refine F.trans ?_ (F.upd _ _ fun _ => ⟨rfl, rfl, rfl⟩)
    exact F.refl _

theorem freshBudgets_kept (s : State) : R s (freshBudgets s) := by
  unfold freshBudgets
  exact F.onChip (F.refl _)

theorem stateEvent_kept (s : State) : R s (stateEvent s) := by
  unfold stateEvent
  split
  · refine F.trans ?_ (State.count_kept F _ _ _ _)
    exact F.refl _
  · refine F.trans ?_ (State.count_kept F _ _ _ _)
    exact F.refl _
  · refine F.trans ?_ (State.count_kept F _ _ _ _)
    exact F.refl _
  · exact F.refl _

theorem portStitchEvents_kept (s : State) (x1) : R s (portStitchEvents s x1) := by
  unfold portStitchEvents
  extract_lets; rename_i y300_0 y300_1 y300_2 y300_3
  refine F.ite ?_ ?_
  · refine F.trans ?_ (State.count_kept F _ _ _ _)
    unfold y300_3
    refine F.ite ?_ ?_
    · refine F.trans ?_ (State.count_kept F _ _ _ _)
      unfold y300_2
      refine F.ite ?_ ?_
      · refine F.trans ?_ (State.count_kept F _ _ _ _)
        unfold y300_1
        refine F.ite ?_ ?_
        · refine F.trans ?_ (State.count_kept F _ _ _ _)
          exact F.refl _
        · exact F.refl _
      · unfold y300_1
        refine F.ite ?_ ?_
        · refine F.trans ?_ (State.count_kept F _ _ _ _)
          exact F.refl _
        · exact F.refl _
    · unfold y300_2
      refine F.ite ?_ ?_
      · refine F.trans ?_ (State.count_kept F _ _ _ _)
        unfold y300_1
        refine F.ite ?_ ?_
        · refine F.trans ?_ (State.count_kept F _ _ _ _)
          exact F.refl _
        · exact F.refl _
      · unfold y300_1
        refine F.ite ?_ ?_
        · refine F.trans ?_ (State.count_kept F _ _ _ _)
          exact F.refl _
        · exact F.refl _
  · unfold y300_3
    refine F.ite ?_ ?_
    · refine F.trans ?_ (State.count_kept F _ _ _ _)
      unfold y300_2
      refine F.ite ?_ ?_
      · refine F.trans ?_ (State.count_kept F _ _ _ _)
        unfold y300_1
        refine F.ite ?_ ?_
        · refine F.trans ?_ (State.count_kept F _ _ _ _)
          exact F.refl _
        · exact F.refl _
      · unfold y300_1
        refine F.ite ?_ ?_
        · refine F.trans ?_ (State.count_kept F _ _ _ _)
          exact F.refl _
        · exact F.refl _
    · unfold y300_2
      refine F.ite ?_ ?_
      · refine F.trans ?_ (State.count_kept F _ _ _ _)
        unfold y300_1
        refine F.ite ?_ ?_
        · refine F.trans ?_ (State.count_kept F _ _ _ _)
          exact F.refl _
        · exact F.refl _
      · unfold y300_1
        refine F.ite ?_ ?_
        · refine F.trans ?_ (State.count_kept F _ _ _ _)
          exact F.refl _
        · exact F.refl _

theorem stitchEvents_kept (s : State) : R s (stitchEvents s) := by
  unfold stitchEvents
  extract_lets; rename_i y300_0 y300_1 y300_2 y300_3 y300_4
  refine F.forEach (fun t a => ?_) ?_
  · refine F.trans ?_ (portStitchEvents_kept F _ _)
    exact F.refl _
  · unfold y300_4
    refine F.forEach (fun t a => ?_) ?_
    · refine F.trans ?_ (State.count_kept F _ _ _ _)
      exact F.refl _
    · unfold y300_3
      refine F.forEach (fun t a => ?_) ?_
      · refine F.trans ?_ (State.count_kept F _ _ _ _)
        exact F.refl _
      · unfold y300_2
        refine F.forEach (fun t a => ?_) ?_
        · refine F.trans ?_ (State.count_kept F _ _ _ _)
          exact F.refl _
        · unfold y300_1
          refine F.forEach (fun t a => ?_) ?_
          · refine F.ite ?_ ?_
            · refine F.trans ?_ (State.count_kept F _ _ _ _)
              exact F.refl _
            · exact F.refl _
          · unfold y300_0
            refine F.trans ?_ (stateEvent_kept F _)
            refine F.trans ?_ (State.count_kept F _ _ _ _)
            exact F.refl _

theorem writeTurn_kept (s : State) : R s (writeTurn s) := by
  unfold writeTurn
  extract_lets; rename_i y300_0 y300_1
  refine F.ite ?_ ?_
  · refine F.trans ?_ (State.count_kept F _ _ _ _)
    unfold y300_1
    refine F.trans ?_ (applyWrites_kept F _ _)
    unfold y300_0
    refine F.ite ?_ ?_
    · refine F.trans ?_ (State.updCtl_kept F _ _)
      exact F.refl _
    · exact F.refl _
  · unfold y300_1
    refine F.trans ?_ (applyWrites_kept F _ _)
    unfold y300_0
    refine F.ite ?_ ?_
    · refine F.trans ?_ (State.updCtl_kept F _ _)
      exact F.refl _
    · exact F.refl _

theorem parentTurn_kept (s : State) (x1) : R s (parentTurn s x1) := by
  unfold parentTurn
  extract_lets; rename_i y300_0
  split
  · refine F.ite ?_ ?_
    · unfold y300_0
      refine F.trans ?_ (parentChoice_kept F _ _)
      exact F.refl _
    · refine F.trans ?_ (wakePort_kept F _ _ _)
      unfold y300_0
      refine F.trans ?_ (parentChoice_kept F _ _)
      exact F.refl _
  · unfold y300_0
    refine F.trans ?_ (parentChoice_kept F _ _)
    exact F.refl _

theorem setSem_kept (s : State) (x1) (x2) : R s (setSem s x1 x2) := by
  unfold setSem
  refine F.trans ?_ (State.updSem_kept F _ _)
  exact F.refl _

theorem grantResult_kept (s : State) (x1) (x2) (x3) : R s (grantResult s x1 x2 x3) := by
  unfold grantResult
  split
  · extract_lets; rename_i y299_0
    refine F.ite ?_ ?_
    · refine F.trans ?_ (evRecord_kept F _ _)
      unfold y299_0
      refine F.trans ?_ (updPage_kept F _ _ _ _)
      exact F.refl _
    · unfold y299_0
      refine F.trans ?_ (updPage_kept F _ _ _ _)
      exact F.refl _
  · split
    · refine F.ite ?_ ?_
      · exact F.refl _
      · refine F.trans ?_ (respond_kept F _ _ _ _ _)
        exact F.refl _
    · exact F.refl _
  · refine F.trans ?_ (State.emit_kept F _ _)
    exact F.refl _

theorem semGrant_kept (s : State) (x1) (x2) (x3) (x4) (x5) : R s (semGrant s x1 x2 x3 x4 x5) := by
  unfold semGrant
  extract_lets; rename_i y300_0 y300_1
  refine F.ite ?_ ?_
  · refine F.trans ?_ (State.count_kept F _ _ _ _)
    unfold y300_1
    refine F.trans ?_ (State.count_kept F _ _ _ _)
    refine F.trans ?_ (setSem_kept F _ _ _)
    exact F.refl _
  · unfold y300_1
    refine F.trans ?_ (State.count_kept F _ _ _ _)
    refine F.trans ?_ (setSem_kept F _ _ _)
    exact F.refl _

theorem semPassOn_kept (s : State) (x1) (x2) : R s (semPassOn s x1 x2) := by
  unfold semPassOn
  extract_lets; rename_i y300_0 y300_1
  split
  · refine F.trans ?_ (setSem_kept F _ _ _)
    unfold y300_1
    split
    · refine F.ite ?_ ?_
      · split
        · refine F.ite ?_ ?_
          · exact F.refl _
          · refine F.trans ?_ (ceilingRecord_kept F _ _ _ _ _ _)
            exact F.refl _
        · refine F.trans ?_ (ceilingRecord_kept F _ _ _ _ _ _)
          exact F.refl _
      · exact F.refl _
    · exact F.refl _
  · extract_lets; rename_i y298_0 y298_1
    refine F.ite ?_ ?_
    · refine F.trans ?_ (ceilingRecord_kept F _ _ _ _ _ _)
      unfold y298_1
      refine F.trans ?_ (grantResult_kept F _ _ _ _)
      refine F.trans ?_ (semGrant_kept F _ _ _ _ _ _)
      unfold y300_1
      split
      · refine F.ite ?_ ?_
        · split
          · refine F.ite ?_ ?_
            · exact F.refl _
            · refine F.trans ?_ (ceilingRecord_kept F _ _ _ _ _ _)
              exact F.refl _
          · refine F.trans ?_ (ceilingRecord_kept F _ _ _ _ _ _)
            exact F.refl _
        · exact F.refl _
      · exact F.refl _
    · unfold y298_1
      refine F.trans ?_ (grantResult_kept F _ _ _ _)
      refine F.trans ?_ (semGrant_kept F _ _ _ _ _ _)
      unfold y300_1
      split
      · refine F.ite ?_ ?_
        · split
          · refine F.ite ?_ ?_
            · exact F.refl _
            · refine F.trans ?_ (ceilingRecord_kept F _ _ _ _ _ _)
              exact F.refl _
          · refine F.trans ?_ (ceilingRecord_kept F _ _ _ _ _ _)
            exact F.refl _
        · exact F.refl _
      · exact F.refl _

theorem semSweep_kept (s : State) (x1) : R s (semSweep s x1) := by
  unfold semSweep
  extract_lets; rename_i y300_0 y300_1 y300_2
  refine F.ite ?_ ?_
  · unfold y300_2
    refine F.forEach (fun t a => ?_) ?_
    · refine F.trans ?_ (semPassOn_kept F _ _ _)
      exact F.refl _
    · unfold y300_0
      refine F.trans ?_ (State.updSem_kept F _ _)
      exact F.refl _
  · refine F.trans ?_ (State.event_kept F _ _ _ _)
    refine F.trans ?_ (State.raise_kept F _ _ _ _ _)
    unfold y300_2
    refine F.forEach (fun t a => ?_) ?_
    · refine F.trans ?_ (semPassOn_kept F _ _ _)
      exact F.refl _
    · unfold y300_0
      refine F.trans ?_ (State.updSem_kept F _ _)
      exact F.refl _

theorem semResult_kept (s : State) (x1) (x2) : R s (semResult s x1 x2) := by
  unfold semResult
  split
  · refine F.trans ?_ (updPage_kept F _ _ _ _)
    exact F.refl _
  · split
    · refine F.trans ?_ (respond_kept F _ _ _ _ _)
      exact F.refl _
    · exact F.refl _
  · refine F.trans ?_ (State.emit_kept F _ _)
    exact F.refl _

theorem semQueue_kept (s : State) (x1) (x2) : R s (semQueue s x1 x2) := by
  unfold semQueue
  extract_lets; rename_i y300_0 y300_1 y300_2
  split
  · refine F.ite ?_ ?_
    · refine F.trans ?_ (ceilingRecord_kept F _ _ _ _ _ _)
      unfold y300_2
      refine F.trans ?_ (semResult_kept F _ _ _)
      refine F.trans ?_ (State.count_kept F _ _ _ _)
      refine F.trans ?_ (setSem_kept F _ _ _)
      exact F.refl _
    · unfold y300_2
      refine F.trans ?_ (semResult_kept F _ _ _)
      refine F.trans ?_ (State.count_kept F _ _ _ _)
      refine F.trans ?_ (setSem_kept F _ _ _)
      exact F.refl _
  · unfold y300_2
    refine F.trans ?_ (semResult_kept F _ _ _)
    refine F.trans ?_ (State.count_kept F _ _ _ _)
    refine F.trans ?_ (setSem_kept F _ _ _)
    exact F.refl _

theorem semPerform_kept (s : State) (x1) : R s (semPerform s x1) := by
  unfold semPerform
  extract_lets; rename_i y300_0 y300_1
  refine F.ite ?_ ?_
  · refine F.trans ?_ (semResult_kept F _ _ _)
    unfold y300_1
    refine F.trans ?_ (State.count_kept F _ _ _ _)
    exact F.refl _
  · split
    · split
      · refine F.trans ?_ (semResult_kept F _ _ _)
        refine F.trans ?_ (semGrant_kept F _ _ _ _ _ _)
        unfold y300_1
        refine F.trans ?_ (State.count_kept F _ _ _ _)
        exact F.refl _
      · refine F.trans ?_ (semResult_kept F _ _ _)
        refine F.trans ?_ (semGrant_kept F _ _ _ _ _ _)
        unfold y300_1
        refine F.trans ?_ (State.count_kept F _ _ _ _)
        exact F.refl _
      · refine F.ite ?_ ?_
        · refine F.trans ?_ (semResult_kept F _ _ _)
          unfold y300_1
          refine F.trans ?_ (State.count_kept F _ _ _ _)
          exact F.refl _
        · refine F.ite ?_ ?_
          · refine F.trans ?_ (semResult_kept F _ _ _)
            refine F.trans ?_ (State.event_kept F _ _ _ _)
            refine F.trans ?_ (State.raise_kept F _ _ _ _ _)
            unfold y300_1
            refine F.trans ?_ (State.count_kept F _ _ _ _)
            exact F.refl _
          · refine F.trans ?_ (semQueue_kept F _ _ _)
            unfold y300_1
            refine F.trans ?_ (State.count_kept F _ _ _ _)
            exact F.refl _
    · split
      · refine F.trans ?_ (semResult_kept F _ _ _)
        refine F.trans ?_ (semGrant_kept F _ _ _ _ _ _)
        unfold y300_1
        refine F.trans ?_ (State.count_kept F _ _ _ _)
        exact F.refl _
      · refine F.trans ?_ (semResult_kept F _ _ _)
        refine F.trans ?_ (semGrant_kept F _ _ _ _ _ _)
        unfold y300_1
        refine F.trans ?_ (State.count_kept F _ _ _ _)
        exact F.refl _
      · refine F.trans ?_ (semResult_kept F _ _ _)
        unfold y300_1
        refine F.trans ?_ (State.count_kept F _ _ _ _)
        exact F.refl _
    · refine F.ite ?_ ?_
      · refine F.trans ?_ (semResult_kept F _ _ _)
        refine F.trans ?_ (semPassOn_kept F _ _ _)
        unfold y300_1
        refine F.trans ?_ (State.count_kept F _ _ _ _)
        exact F.refl _
      · split
        · extract_lets; rename_i y295_0
          refine F.trans ?_ (semResult_kept F _ _ _)
          refine F.trans ?_ (grantResult_kept F _ _ _ _)
          refine F.trans ?_ (setSem_kept F _ _ _)
          unfold y300_1
          refine F.trans ?_ (State.count_kept F _ _ _ _)
          exact F.refl _
        · refine F.trans ?_ (semResult_kept F _ _ _)
          unfold y300_1
          refine F.trans ?_ (State.count_kept F _ _ _ _)
          exact F.refl _

theorem semBank_kept (s : State) : R s (semBank s) := by
  unfold semBank
  extract_lets; rename_i y300_0 y300_1 y300_2
  refine F.forEach (fun t a => ?_) ?_
  · refine F.trans ?_ (semPerform_kept F _ _)
    exact F.refl _
  · refine F.trans ?_ (State.updSem_kept F _ _)
    unfold y300_0
    refine F.forEach (fun t a => ?_) ?_
    · refine F.trans ?_ (semSweep_kept F _ _)
      exact F.refl _
    · refine F.trans ?_ (State.updSem_kept F _ _)
      exact F.refl _

theorem queuesBoundary_kept (s : State) : R s (queuesBoundary s) := by
  unfold queuesBoundary
  refine F.forEach (fun t a => ?_) ?_
  · extract_lets; rename_i y299_0 y299_1
    refine F.ite ?_ ?_
    · refine F.trans ?_ (State.updQueue_kept F _ _ _)
      exact F.refl _
    · refine F.ite ?_ ?_
      · refine F.trans ?_ (fetchQueue_kept F _ _)
        refine F.trans ?_ (State.updQueue_kept F _ _ _)
        exact F.refl _
      · exact F.refl _
  · exact F.refl _

theorem transBoundary_kept (s : State) : R s (transBoundary s) := by
  unfold transBoundary
  extract_lets; rename_i y300_0 y300_1 y300_2
  refine F.forEach (fun t a => ?_) ?_
  · refine F.trans ?_ (applyTransDue_kept F _ _)
    exact F.refl _
  · refine F.forEach (fun t a => ?_) ?_
    · refine F.trans ?_ (applyGate_kept F _ _)
      exact F.refl _
    · unfold y300_2
      refine F.trans ?_ (State.updTrans_kept F _ _)
      exact F.refl _

theorem unitsBoundary_kept (s : State) : R s (unitsBoundary s) := by
  unfold unitsBoundary
  extract_lets; rename_i y300_0 y300_1 y300_2
  refine F.ite ?_ ?_
  · exact F.refl _
  · refine F.ite ?_ ?_
    · refine F.trans ?_ (State.event_kept F _ _ _ _)
      unfold y300_2
      refine F.trans ?_ (State.event_kept F _ _ _ _)
      refine F.trans ?_ (State.updHost_kept F _ _)
      exact F.refl _
    · unfold y300_2
      refine F.trans ?_ (State.event_kept F _ _ _ _)
      refine F.trans ?_ (State.updHost_kept F _ _)
      exact F.refl _

theorem rateBoundary_kept (s : State) (x1) : R s (rateBoundary s x1) := by
  unfold rateBoundary
  refine F.trans ?_ (State.updReq_kept F _ _ _)
  exact F.refl _

theorem failPosts_kept (s : State) (ep n : Nat) : R s (failPosts s ep n) := by
  induction n generalizing s with
  | zero => exact F.refl _
  | succ n ih =>
    unfold failPosts
    split
    · exact F.after (ih _) (F.after (recvDone_kept F _ _) (F.after (addRecv_kept F _ _) (F.after (State.rmaNext_kept F _) (State.updMep_kept F _ _ _))))
    · exact F.refl _

theorem refillOne_kept (s : State) (x1) (x2) : R s (refillOne s x1 x2) := by
  unfold refillOne
  extract_lets; rename_i y300_0 y300_1
  split
  · refine F.trans ?_ (State.count_kept F _ _ _ _)
    refine F.trans ?_ (State.updMep_kept F _ _ _)
    unfold y300_1
    refine F.trans ?_ (takeEntry_kept F _ _)
    exact F.refl _
  · exact F.refl _

theorem refillRun_kept (s : State) (ep n : Nat) : R s (refillRun s ep n) := by
  induction n generalizing s with
  | zero => exact F.refl _
  | succ n ih =>
    unfold refillRun
    dsimp only
    split
    · split
      · exact F.after (ih _) (refillOne_kept F _ _ _)
      · exact F.refl _
    · exact F.refl _

theorem refillEp_kept (s : State) (x1) : R s (refillEp s x1) := by
  unfold refillEp
  extract_lets; rename_i y300_0
  refine F.ite ?_ ?_
  · exact F.refl _
  · refine F.trans ?_ (State.updMep_kept F _ _ _)
    refine F.trans ?_ (refillRun_kept F _ _ _)
    exact F.refl _

theorem matchBoundaryEp_kept (s : State) (x1) : R s (matchBoundaryEp s x1) := by
  unfold matchBoundaryEp
  extract_lets; rename_i y300_0
  refine F.ite ?_ ?_
  · refine F.trans ?_ (failPosts_kept F _ _ _)
    unfold y300_0
    refine F.ite ?_ ?_
    · refine F.trans ?_ (State.event_kept F _ _ _ _)
      refine F.trans ?_ (State.updMep_kept F _ _ _)
      exact F.refl _
    · exact F.refl _
  · refine F.trans ?_ (refillEp_kept F _ _)
    unfold y300_0
    refine F.ite ?_ ?_
    · refine F.trans ?_ (State.event_kept F _ _ _ _)
      refine F.trans ?_ (State.updMep_kept F _ _ _)
      exact F.refl _
    · exact F.refl _

theorem matchBoundary_kept (s : State) : R s (matchBoundary s) := by
  unfold matchBoundary
  refine F.forEach (fun t a => ?_) ?_
  · refine F.trans ?_ (matchBoundaryEp_kept F _ _)
    exact F.refl _
  · exact F.refl _

theorem unitTurn_kept (s : State) (x1) : R s (unitTurn s x1) := by
  unfold unitTurn
  extract_lets; rename_i y300_0 y300_1 y300_2 y300_3
  refine F.trans ?_ (collBoundary_kept F _ _)
  refine F.trans ?_ (matchBoundary_kept F _)
  unfold y300_3
  refine F.trans ?_ (resumeAll_kept F _)
  refine F.forEach (fun t a => ?_) ?_
  · refine F.trans ?_ (rateBoundary_kept F _ _)
    exact F.refl _
  · unfold y300_2
    refine F.trans ?_ (queuesBoundary_kept F _)
    refine F.trans ?_ (transBoundary_kept F _)
    refine F.trans ?_ (unitsBoundary_kept F _)
    unfold y300_1
    refine F.ite ?_ ?_
    · unfold y300_0
      refine F.trans ?_ (evFlush_kept F _)
      refine F.trans ?_ (semBank_kept F _)
      exact F.refl _
    · refine F.trans ?_ (State.count_kept F _ _ _ _)
      unfold y300_0
      refine F.trans ?_ (evFlush_kept F _)
      refine F.trans ?_ (semBank_kept F _)
      exact F.refl _

theorem executiveDone_kept (s : State) : R s (executiveDone s) := by
  unfold executiveDone
  exact F.onChip (F.refl _)

theorem laneTurn_kept (x0) (s : State) (x2) : R s (laneTurn x0 s x2) := by
  unfold laneTurn
  extract_lets; rename_i y300_0
  refine F.trans ?_ (State.updLane_kept F _ _ _)
  exact F.refl _

theorem shaperTurn_kept (s : State) : R s (shaperTurn s) := by
  unfold shaperTurn
  extract_lets; rename_i y300_0
  refine F.forEach (fun t a => ?_) ?_
  · extract_lets; rename_i y298_0
    refine F.ite ?_ ?_
    · exact F.refl _
    · refine F.trans ?_ (State.updSw_kept F _ _)
      exact F.refl _
  · exact F.refl _

theorem sendMarker_kept (x0) (s : State) (x2) : R s (sendMarker x0 s x2) := by
  unfold sendMarker
  extract_lets; rename_i y300_0 y300_1 y300_2 y300_3 y300_4 y300_5 y300_6
  refine F.ite ?_ ?_
  · exact F.refl _
  · refine F.ite ?_ ?_
    · refine F.trans ?_ (State.count_kept F _ _ _ _)
      unfold y300_6
      refine F.trans ?_ (State.emit_kept F _ _)
      refine F.trans ?_ (State.updLane_kept F _ _ _)
      exact F.refl _
    · refine F.ite ?_ ?_
      · refine F.trans ?_ (State.count_kept F _ _ _ _)
        unfold y300_6
        refine F.trans ?_ (State.emit_kept F _ _)
        refine F.trans ?_ (State.updLane_kept F _ _ _)
        exact F.refl _
      · unfold y300_6
        refine F.trans ?_ (State.emit_kept F _ _)
        refine F.trans ?_ (State.updLane_kept F _ _ _)
        exact F.refl _

theorem timeOutPulse_kept (s : State) : R s (timeOutPulse s) := by
  unfold timeOutPulse
  extract_lets; rename_i y300_0
  refine F.ite ?_ ?_
  · refine F.trans ?_ (State.emit_kept F _ _)
    exact F.refl _
  · exact F.refl _

theorem publishHints_kept (s : State) : R s (publishHints s) := by
  unfold publishHints
  extract_lets; rename_i y300_0 y300_1 y300_2
  refine F.ite ?_ ?_
  · exact F.refl _
  · refine F.trans ?_ (State.updSw_kept F _ _)
    unfold y300_2
    refine F.forEach (fun t a => ?_) ?_
    · refine F.trans ?_ (State.count_kept F _ _ _ _)
      refine F.trans ?_ (State.updLink_kept F _ _ _)
      exact F.refl _
    · exact F.refl _

theorem sendSignals_kept (s : State) (x1) : R s (sendSignals s x1) := by
  unfold sendSignals
  refine F.ite ?_ ?_
  · exact F.refl _
  · extract_lets; rename_i y299_0
    refine F.ite ?_ ?_
    · exact F.refl _
    · refine F.trans ?_ (State.count_kept F _ _ _ _)
      refine F.trans ?_ (State.updLink_kept F _ _ _)
      refine F.trans ?_ (State.updLasts_kept F _ _)
      exact F.refl _

theorem sendInit_kept (s : State) (x1) : R s (sendInit s x1) := by
  unfold sendInit
  extract_lets; rename_i y300_0
  refine F.ite ?_ ?_
  · refine F.trans ?_ (sendCtl_kept F _ _ _)
    exact F.refl _
  · exact F.refl _

theorem syncTurn_kept (s : State) (x1) : R s (syncTurn s x1) := by
  unfold syncTurn
  refine F.ite ?_ ?_
  · refine F.trans ?_ (State.count_kept F _ _ _ _)
    refine F.trans ?_ (State.updLink_kept F _ _ _)
    exact F.refl _
  · refine F.ite ?_ ?_
    · refine F.trans ?_ (State.updLink_kept F _ _ _)
      exact F.refl _
    · exact F.refl _

theorem sendProbe_kept (s : State) (x1) : R s (sendProbe s x1) := by
  unfold sendProbe
  refine F.ite ?_ ?_
  · refine F.trans ?_ (State.count_kept F _ _ _ _)
    refine F.trans ?_ (State.took_kept F _)
    refine F.trans ?_ (sendCtl_kept F _ _ _)
    refine F.trans ?_ (State.updLink_kept F _ _ _)
    exact F.refl _
  · exact F.refl _

theorem portSends_kept (s : State) (x1) : R s (portSends s x1) := by
  unfold portSends
  refine F.trans ?_ (sendSignals_kept F _ _)
  refine F.trans ?_ (sendInit_kept F _ _)
  refine F.trans ?_ (syncTurn_kept F _ _)
  refine F.trans ?_ (sendProbe_kept F _ _)
  exact F.refl _

theorem sendTurn_kept (x0) (s : State) : R s (sendTurn x0 s) := by
  unfold sendTurn
  extract_lets; rename_i y300_0 y300_1
  refine F.trans ?_ (timeOutPulse_kept F _)
  refine F.trans ?_ (publishHints_kept F _)
  refine F.forEach (fun t a => ?_) ?_
  · refine F.trans ?_ (portSends_kept F _ _)
    exact F.refl _
  · unfold y300_1
    refine F.forEach (fun t a => ?_) ?_
    · refine F.trans ?_ (sendMarker_kept F _ _ _)
      exact F.refl _
    · unfold y300_0
      refine F.trans ?_ (cupToRing_kept F _ _)
      refine F.trans ?_ (shaperTurn_kept F _)
      exact F.refl _

theorem standbyCount_kept (s : State) : R s (standbyCount s) := by
  unfold standbyCount
  refine F.ite ?_ ?_
  · refine F.trans ?_ (State.count_kept F _ _ _ _)
    refine F.trans ?_ (State.updPwr_kept F _ _)
    exact F.refl _
  · refine F.trans ?_ (State.updPwr_kept F _ _)
    exact F.refl _

theorem gateBench_kept (s : State) (x1) : R s (gateBench s x1) := by
  unfold gateBench
  refine F.ite ?_ ?_
  · exact F.refl _
  · refine F.trans ?_ (State.updPwr_kept F _ _)
    exact F.refl _

theorem frameTurn_kept (s : State) : R s (frameTurn s) := by
  unfold frameTurn
  refine F.trans ?_ (standbyCount_kept F _)
  refine F.forEach (fun t a => ?_) ?_
  · refine F.trans ?_ (gateBench_kept F _ _)
    exact F.refl _
  · exact F.refl _

theorem runningTurn_kept (x0) (s : State) (x2) : R s (runningTurn x0 s x2) := by
  unfold runningTurn
  extract_lets; rename_i y300_0 y300_1
  refine F.trans ?_ (sendTurn_kept F _ _)
  refine F.ite ?_ ?_
  · refine F.trans ?_ (frameTurn_kept F _)
    unfold y300_1
    refine F.forEach (fun t a => ?_) ?_
    · refine F.trans ?_ (laneTurn_kept F _ _ _)
      exact F.refl _
    · refine F.trans ?_ (executiveDone_kept F _)
      unfold y300_0
      refine F.trans ?_ (writeTurn_kept F _)
      refine F.trans ?_ (parentTurn_kept F _ _)
      refine F.trans ?_ (unitTurn_kept F _ _)
      exact F.refl _
  · unfold y300_1
    refine F.forEach (fun t a => ?_) ?_
    · refine F.trans ?_ (laneTurn_kept F _ _ _)
      exact F.refl _
    · refine F.trans ?_ (executiveDone_kept F _)
      unfold y300_0
      refine F.trans ?_ (writeTurn_kept F _)
      refine F.trans ?_ (parentTurn_kept F _ _)
      refine F.trans ?_ (unitTurn_kept F _ _)
      exact F.refl _

theorem runBoundary_kept (x0) (s : State) : R s (runBoundary x0 s) := by
  unfold runBoundary
  extract_lets; rename_i y300_0 y300_1 y300_2
  refine F.trans ?_ (State.latched_kept F _)
  refine F.ite ?_ ?_
  · refine F.trans ?_ (runningTurn_kept F _ _ _)
    unfold y300_2
    refine F.trans ?_ (decidedTurn_kept F _ _)
    unfold y300_0
    refine F.trans ?_ (newCount_kept F _)
    refine F.trans ?_ (freshBudgets_kept F _)
    refine F.trans ?_ (stitchEvents_kept F _)
    refine F.trans ?_ (errorsSeen_kept F _ _)
    exact F.refl _
  · refine F.forEach (fun t a => ?_) ?_
    · refine F.trans ?_ (sendMarker_kept F _ _ _)
      exact F.refl _
    · unfold y300_2
      refine F.trans ?_ (decidedTurn_kept F _ _)
      unfold y300_0
      refine F.trans ?_ (newCount_kept F _)
      refine F.trans ?_ (freshBudgets_kept F _)
      refine F.trans ?_ (stitchEvents_kept F _)
      refine F.trans ?_ (errorsSeen_kept F _ _)
      exact F.refl _

theorem quietBoundary_kept (x0) (s : State) : R s (quietBoundary x0 s) := by
  unfold quietBoundary
  extract_lets; rename_i y300_0
  refine F.trans ?_ (State.latched_kept F _)
  refine F.ite ?_ ?_
  · refine F.forEach (fun t a => ?_) ?_
    · refine F.trans ?_ (sendMarker_kept F _ _ _)
      exact F.refl _
    · unfold y300_0
      refine F.trans ?_ (F.upd _ _ fun _ => ⟨rfl, rfl, rfl⟩)
      exact F.refl _
  · unfold y300_0
    refine F.trans ?_ (F.upd _ _ fun _ => ⟨rfl, rfl, rfl⟩)
    exact F.refl _

theorem execStitchBoundary_kept (x0) (s : State) : Keeps R s (execStitchBoundary x0 s) := by
  unfold execStitchBoundary
  extract_lets; rename_i y300_0
  refine F.kNext ?_
  refine F.ite ?_ ?_
  · exact F.refl _
  · refine F.ite ?_ ?_
    · refine F.trans ?_ (advance_kept F _)
      unfold y300_0
      refine F.trans ?_ (State.updFault_kept F _ _)
      exact F.refl _
    · refine F.ite ?_ ?_
      · refine F.trans ?_ (runBoundary_kept F _ _)
        unfold y300_0
        refine F.trans ?_ (State.updFault_kept F _ _)
        exact F.refl _
      · refine F.trans ?_ (quietBoundary_kept F _ _)
        unfold y300_0
        refine F.trans ?_ (State.updFault_kept F _ _)
        exact F.refl _

theorem servoStopped_kept (s : State) (n : Nat) : R s (servoStopped s n) := F.servoStopped s n

theorem execCobblerSliceEnd_kept (x0) (x1) (x2) (s : State) : Keeps R s (execCobblerSliceEnd x0 x1 x2 s) := by
  unfold execCobblerSliceEnd
  refine F.kIte ?_ ?_
  · exact F.kFault _ _
  · extract_lets; rename_i y299_0 y299_1 y299_2 y299_3
    refine F.kIte ?_ ?_
    · refine F.kNext ?_
      exact F.onChip (F.refl _)
    · refine F.kNext ?_
      refine F.trans ?_ (State.count_kept F _ _ _ _)
      refine F.trans ?_ (servoStopped_kept F _ _)
      exact F.onChip (F.refl _)

theorem onPort_kept (x0) (s : State) : Keeps R s (onPort x0 s) := by
  unfold onPort
  refine F.kIte ?_ ?_
  · refine F.kNext ?_
    exact F.refl _
  · exact F.kFault _ _

theorem execTimeProbeReceive_kept (x0) (x1) (x2) (x3) (x4) (s : State) : Keeps R s (execTimeProbeReceive x0 x1 x2 x3 x4 s) := by
  unfold execTimeProbeReceive
  refine F.kTrans ?_ (onPort_kept F _ _)
  refine F.trans ?_ (probeIn_kept F _ _ _ _ _ _)
  exact F.refl _

theorem execStandbyTakeover_kept (s : State) : Keeps R s (execStandbyTakeover s) := F.standbyTakeover s

theorem execTimeNoSyncLimit_kept (s : State) : Keeps R s (execTimeNoSyncLimit s) := F.noSyncLimit s

theorem execTimeAcquireSlow_kept (s : State) : Keeps R s (execTimeAcquireSlow s) := by
  unfold execTimeAcquireSlow
  extract_lets; rename_i y300_0
  refine F.kIte ?_ ?_
  · refine F.kNext ?_
    refine F.trans ?_ (State.raise_kept F _ _ _ _ _)
    refine F.trans ?_ (F.upd _ _ fun _ => ⟨rfl, rfl, rfl⟩)
    exact F.refl _
  · refine F.kNext ?_
    exact F.refl _

theorem judgedAlways_kept (s : State) (status : Nat) (effect : State) (h : R s effect) : Keeps R s (judgedAlways s status effect) := by
  unfold judgedAlways
  refine F.kNext ?_
  split
  · exact F.refl _
  · split
    · exact F.after (State.latched_kept F _) (F.after (State.wrote_kept F _ _) (F.after (State.applied_kept F _) h))
    · exact F.after (State.wrote_kept F _ _) (State.count_kept F _ _ _ _)

theorem judged_kept (s : State) (status : Nat) (effect : State) (h : R s effect) : Keeps R s (judged s status effect) := by
  unfold judged
  exact F.kIte (judgedAlways_kept F _ _ _ h) (F.kTrans (State.count_kept F _ _ _ _) (judgedAlways_kept F _ _ _ (F.of rfl rfl)))

theorem execTimeRoleMaster_kept (s : State) : Keeps R s (execTimeRoleMaster s) := by
  unfold execTimeRoleMaster
  refine F.kTrans ?_ (judged_kept F _ _ _ ?_)
  · exact F.refl _
  · refine F.trans ?_ (appointMaster_kept F _)
    exact F.refl _

theorem execTimeRoleFollower_kept (s : State) : Keeps R s (execTimeRoleFollower s) := judged_kept F _ _ _ (F.demote s .follower (.inl rfl))

theorem execTimeRoleStandby_kept (s : State) : Keeps R s (execTimeRoleStandby s) := judged_kept F _ _ _ (F.demote s .standby (.inr rfl))

theorem execTimeInEdge_kept (x0) (x1) (s : State) : Keeps R s (execTimeInEdge x0 x1 s) := by
  unfold execTimeInEdge
  extract_lets; rename_i y300_0
  refine F.kIte ?_ ?_
  · refine F.kNext ?_
    exact F.refl _
  · refine F.kIte ?_ ?_
    · refine F.kNext ?_
      refine F.trans ?_ (State.fire_kept F _ _)
      refine F.trans ?_ (F.upd _ _ fun _ => ⟨rfl, rfl, rfl⟩)
      exact F.refl _
    · refine F.kIte ?_ ?_
      · refine F.kNext ?_
        refine F.trans ?_ (F.upd _ _ fun _ => ⟨rfl, rfl, rfl⟩)
        exact F.refl _
      · refine F.kNext ?_
        refine F.trans ?_ (F.upd _ _ fun _ => ⟨rfl, rfl, rfl⟩)
        exact F.refl _

theorem execTimeInLost_kept (s : State) : Keeps R s (execTimeInLost s) := by
  unfold execTimeInLost
  extract_lets; rename_i y300_0
  refine F.kIte ?_ ?_
  · refine F.kNext ?_
    refine F.trans ?_ (State.fire_kept F _ _)
    refine F.trans ?_ (State.raise_kept F _ _ _ _ _)
    refine F.trans ?_ (F.upd _ _ fun _ => ⟨rfl, rfl, rfl⟩)
    exact F.refl _
  · refine F.kNext ?_
    exact F.refl _

theorem execTimeActionsWrite_kept (x0) (x1) (s : State) : Keeps R s (execTimeActionsWrite x0 x1 s) := by
  unfold execTimeActionsWrite
  refine F.kIte ?_ ?_
  · exact F.kFault _ _
  · refine F.kTrans ?_ (judged_kept F _ _ _ ?_)
    · exact F.refl _
    · refine F.trans ?_ (writeAction_kept F _ _ _)
      exact F.refl _

theorem execDictRead_kept (s : State) : Keeps R s (execDictRead s) := by
  unfold execDictRead
  refine F.kNext ?_
  refine F.trans ?_ (acceptFront_kept F _ _)
  exact F.refl _

theorem execDictWrite_kept (s : State) : Keeps R s (execDictWrite s) := by
  unfold execDictWrite
  refine F.kNext ?_
  refine F.trans ?_ (acceptFront_kept F _ _)
  exact F.refl _

theorem execDictDescribe_kept (s : State) : Keeps R s (execDictDescribe s) := by
  unfold execDictDescribe
  refine F.kNext ?_
  refine F.trans ?_ (acceptFront_kept F _ _)
  exact F.refl _

theorem execDictEcho_kept (s : State) : Keeps R s (execDictEcho s) := by
  unfold execDictEcho
  refine F.kNext ?_
  refine F.trans ?_ (acceptFront_kept F _ _)
  exact F.refl _

theorem serveObj_kept (s : State) (x1) (x2) : R s (serveObj s x1 x2) := by
  unfold serveObj
  extract_lets; rename_i y300_0 y300_1 y300_2
  refine F.ite ?_ ?_
  · refine F.trans ?_ (answerRefused_kept F _ _ _)
    unfold y300_0
    refine F.trans ?_ (chargeRead_kept F _ _)
    exact F.refl _
  · refine F.trans ?_ (respond_kept F _ _ _ _ _)
    unfold y300_2
    refine F.ite ?_ ?_
    · refine F.trans ?_ (State.took_kept F _)
      unfold y300_0
      refine F.trans ?_ (chargeRead_kept F _ _)
      exact F.refl _
    · unfold y300_0
      refine F.trans ?_ (chargeRead_kept F _ _)
      exact F.refl _

theorem serveReq_kept (s : State) (x1) : R s (serveReq s x1) := by
  unfold serveReq
  refine F.ite ?_ ?_
  · refine F.trans ?_ (respond_kept F _ _ _ _ _)
    exact F.refl _
  · split
    · refine F.trans ?_ (answerRefused_kept F _ _ _)
      exact F.refl _
    · refine F.trans ?_ (serveObj_kept F _ _ _)
      exact F.refl _

theorem execReadServe_kept (s : State) : Keeps R s (execReadServe s) := by
  unfold execReadServe
  refine F.kNext ?_
  split
  · exact F.refl _
  · refine F.ite ?_ ?_
    · exact F.refl _
    · refine F.trans ?_ (serveReq_kept F _ _)
      refine F.trans ?_ (State.updCtl_kept F _ _)
      exact F.refl _

theorem execWriteApply_kept (s : State) : Keeps R s (execWriteApply s) := by
  unfold execWriteApply
  refine F.kNext ?_
  split
  · exact F.refl _
  · refine F.ite ?_ ?_
    · refine F.trans ?_ (applyFront_kept F _ _ _)
      exact F.refl _
    · exact F.refl _

theorem execPersistCopy_kept (x0) (s : State) : Keeps R s (execPersistCopy x0 s) := by
  unfold execPersistCopy
  split
  · refine F.kNext ?_
    exact F.refl _
  · extract_lets; rename_i y299_0
    refine F.kIte ?_ ?_
    · refine F.kNext ?_
      refine F.onChip ?_
      unfold y299_0
      refine F.trans ?_ (State.updCtl_kept F _ _)
      exact F.refl _
    · refine F.kNext ?_
      refine F.trans ?_ (State.raise_kept F _ _ _ _ _)
      unfold y299_0
      refine F.trans ?_ (State.updCtl_kept F _ _)
      exact F.refl _

theorem execMbxDoorbell_kept (x0) (s : State) : Keeps R s (execMbxDoorbell x0 s) := by
  unfold execMbxDoorbell
  refine F.kTrans ?_ (mmio_kept F _ _ _ ?_)
  · exact F.refl _
  · refine F.trans ?_ (mailboxDoorbell_kept F _ _)
    exact F.refl _

theorem execMbxRespDone_kept (x0) (s : State) : Keeps R s (execMbxRespDone x0 s) := by
  unfold execMbxRespDone
  refine F.kTrans ?_ (mmio_kept F _ _ _ ?_)
  · exact F.refl _
  · refine F.trans ?_ (mailboxDone_kept F _ _)
    exact F.refl _

theorem inbandEnter_kept (s : State) (x1) : R s (inbandEnter s x1) := by
  unfold inbandEnter
  split
  · split
    · refine F.trans ?_ (State.inject_kept F _ _ _)
      refine F.trans ?_ (State.count_kept F _ _ _ _)
      exact F.refl _
    · refine F.trans ?_ (State.count_kept F _ _ _ _)
      exact F.refl _
  · split
    · refine F.trans ?_ (refuse_kept F _ _ _)
      exact F.refl _
    · refine F.ite ?_ ?_
      · refine F.trans ?_ (refuse_kept F _ _ _)
        exact F.refl _
      · refine F.trans ?_ (State.updCtl_kept F _ _)
        exact F.refl _

theorem inbandPacket_kept (s : State) (x1) : R s (inbandPacket s x1) := by
  unfold inbandPacket
  refine F.ite ?_ ?_
  · refine F.trans ?_ (dropInband_kept F _ _ _)
    exact F.refl _
  · refine F.ite ?_ ?_
    · refine F.trans ?_ (dropInband_kept F _ _ _)
      exact F.refl _
    · refine F.ite ?_ ?_
      · refine F.trans ?_ (dropInband_kept F _ _ _)
        exact F.refl _
      · refine F.trans ?_ (inbandEnter_kept F _ _)
        exact F.refl _

theorem takeDelivered_kept (s : State) (x1) : R s (takeDelivered s x1) := by
  unfold takeDelivered
  exact F.onChip (F.refl _)

theorem execMgmtRequestPacket_kept (s : State) : Keeps R s (execMgmtRequestPacket s) := by
  unfold execMgmtRequestPacket
  refine F.kNext ?_
  split
  · refine F.trans ?_ (inbandPacket_kept F _ _)
    refine F.trans ?_ (takeDelivered_kept F _ _)
    exact F.refl _
  · exact F.refl _

theorem execDupFilterExpiry_kept (s : State) : Keeps R s (execDupFilterExpiry s) := by
  unfold execDupFilterExpiry
  refine F.kNext ?_
  refine F.trans ?_ (State.updCtl_kept F _ _)
  exact F.refl _

theorem noteStage_kept (s : State) (x1) : R s (noteStage s x1) := by
  unfold noteStage
  extract_lets; rename_i y300_0
  refine F.trans ?_ (State.updQueues_kept F _ _)
  exact F.refl _

theorem served_kept (s : State) (x1) : R s (served s x1) := by
  unfold served
  refine F.trans ?_ (State.updQueues_kept F _ _)
  exact F.refl _

theorem mgmtPacket_kept (s : State) (x1) (x2) (x3) : R s (mgmtPacket s x1 x2 x3) := by
  unfold mgmtPacket
  extract_lets; rename_i y300_0 y300_1
  refine F.trans ?_ (State.inject_kept F _ _ _)
  exact F.refl _

theorem mgmtGo_kept (s : State) (x1) (x2) (x3) (x4) : R s (mgmtGo s x1 x2 x3 x4) := by
  unfold mgmtGo
  extract_lets; rename_i y300_0 y300_1 y300_2 y300_3 y300_4 y300_5
  refine F.ite ?_ ?_
  · refine F.trans ?_ (mgmtEnds_kept F _ _ _ _ _ _)
    exact F.refl _
  · split
    · unfold y300_1
      refine F.trans ?_ (checkBufs_kept F _ _ _ _)
      exact F.refl _
    · refine F.trans ?_ (mgmtEnds_kept F _ _ _ _ _ _)
      unfold y300_1
      refine F.trans ?_ (checkBufs_kept F _ _ _ _)
      exact F.refl _
    · split
      · unfold y300_1
        refine F.trans ?_ (checkBufs_kept F _ _ _ _)
        exact F.refl _
      · refine F.ite ?_ ?_
        · unfold y300_1
          refine F.trans ?_ (checkBufs_kept F _ _ _ _)
          exact F.refl _
        · refine F.onChip ?_
          unfold y300_3
          refine F.trans ?_ (consume_kept F _ _ _ _)
          refine F.trans ?_ (mgmtPacket_kept F _ _ _ _)
          unfold y300_1
          refine F.trans ?_ (checkBufs_kept F _ _ _ _)
          exact F.refl _

theorem mgmtRead_kept (s : State) (x1) (x2) (x3) : R s (mgmtRead s x1 x2 x3) := by
  unfold mgmtRead
  extract_lets; rename_i y300_0
  split
  · unfold y300_0
    refine F.trans ?_ (accessBufs_kept F _ _ _ _ _)
    exact F.refl _
  · refine F.trans ?_ (mgmtEnds_kept F _ _ _ _ _ _)
    unfold y300_0
    refine F.trans ?_ (accessBufs_kept F _ _ _ _ _)
    exact F.refl _
  · refine F.trans ?_ (readGrants_kept F _ _ _)
    refine F.trans ?_ (State.updQueue_kept F _ _ _)
    unfold y300_0
    refine F.trans ?_ (accessBufs_kept F _ _ _ _ _)
    exact F.refl _

theorem execMgmtEntry_kept (x0) (s : State) : Keeps R s (execMgmtEntry x0 s) := by
  unfold execMgmtEntry
  refine F.kIte ?_ ?_
  · exact F.kFault _ _
  · extract_lets; rename_i y299_0 y299_1 y299_2
    refine F.kIte ?_ ?_
    · refine F.kNext ?_
      unfold y299_1
      refine F.trans ?_ (noteStage_kept F _ _)
      exact F.refl _
    · refine F.kNext ?_
      split
      · unfold y299_2
        refine F.trans ?_ (checkedHead_kept F _ _)
        refine F.trans ?_ (served_kept F _ _)
        unfold y299_1
        refine F.trans ?_ (noteStage_kept F _ _)
        exact F.refl _
      · refine F.ite ?_ ?_
        · refine F.trans ?_ (mgmtEnds_kept F _ _ _ _ _ _)
          unfold y299_2
          refine F.trans ?_ (checkedHead_kept F _ _)
          refine F.trans ?_ (served_kept F _ _)
          unfold y299_1
          refine F.trans ?_ (noteStage_kept F _ _)
          exact F.refl _
        · refine F.ite ?_ ?_
          · refine F.trans ?_ (mgmtGo_kept F _ _ _ _ _)
            unfold y299_2
            refine F.trans ?_ (checkedHead_kept F _ _)
            refine F.trans ?_ (served_kept F _ _)
            unfold y299_1
            refine F.trans ?_ (noteStage_kept F _ _)
            exact F.refl _
          · split
            · refine F.trans ?_ (mgmtGo_kept F _ _ _ _ _)
              unfold y299_2
              refine F.trans ?_ (checkedHead_kept F _ _)
              refine F.trans ?_ (served_kept F _ _)
              unfold y299_1
              refine F.trans ?_ (noteStage_kept F _ _)
              exact F.refl _
            · refine F.ite ?_ ?_
              · unfold y299_2
                refine F.trans ?_ (checkedHead_kept F _ _)
                refine F.trans ?_ (served_kept F _ _)
                unfold y299_1
                refine F.trans ?_ (noteStage_kept F _ _)
                exact F.refl _
              · refine F.trans ?_ (mgmtRead_kept F _ _ _ _)
                unfold y299_2
                refine F.trans ?_ (checkedHead_kept F _ _)
                refine F.trans ?_ (served_kept F _ _)
                unfold y299_1
                refine F.trans ?_ (noteStage_kept F _ _)
                exact F.refl _

theorem mgmtAnswer_kept (s : State) (x1) (x2) (x3) (x4) : R s (mgmtAnswer s x1 x2 x3 x4) := by
  unfold mgmtAnswer
  extract_lets; rename_i y300_0 y300_1 y300_2
  split
  · unfold y300_2
    refine F.trans ?_ (accessBufs_kept F _ _ _ _ _)
    exact F.refl _
  · refine F.trans ?_ (dropSlot_kept F _ _)
    refine F.trans ?_ (failEntry_kept F _ _ _ _ _ _)
    refine F.trans ?_ (takeDelivered_kept F _ _)
    unfold y300_2
    refine F.trans ?_ (accessBufs_kept F _ _ _ _ _)
    exact F.refl _
  · extract_lets; rename_i y298_0 y298_1
    refine F.ite ?_ ?_
    · unfold y298_1
      refine F.trans ?_ (takeDelivered_kept F _ _)
      unfold y298_0
      refine F.trans ?_ (writeGrants_kept F _ _ _)
      unfold y300_2
      refine F.trans ?_ (accessBufs_kept F _ _ _ _ _)
      exact F.refl _
    · refine F.trans ?_ (dropSlot_kept F _ _)
      refine F.trans ?_ (finishEntry_kept F _ _ _ _ _ _)
      unfold y298_1
      refine F.trans ?_ (takeDelivered_kept F _ _)
      unfold y298_0
      refine F.trans ?_ (writeGrants_kept F _ _ _)
      unfold y300_2
      refine F.trans ?_ (accessBufs_kept F _ _ _ _ _)
      exact F.refl _

theorem execMgmtResponsePacket_kept (x0) (s : State) : Keeps R s (execMgmtResponsePacket x0 s) := by
  unfold execMgmtResponsePacket
  refine F.kIte ?_ ?_
  · exact F.kFault _ _
  · split
    · refine F.kNext ?_
      exact F.refl _
    · refine F.kNext ?_
      split
      · refine F.trans ?_ (mgmtAnswer_kept F _ _ _ _ _)
        exact F.refl _
      · refine F.trans ?_ (State.count_kept F _ _ _ _)
        refine F.trans ?_ (takeDelivered_kept F _ _)
        exact F.refl _

theorem execMgmtSlotTimeout_kept (x0) (s : State) : Keeps R s (execMgmtSlotTimeout x0 s) := by
  unfold execMgmtSlotTimeout
  refine F.kIte ?_ ?_
  · exact F.kFault _ _
  · refine F.kNext ?_
    split
    · refine F.ite ?_ ?_
      · refine F.trans ?_ (dropSlot_kept F _ _)
        refine F.trans ?_ (finishEntry_kept F _ _ _ _ _ _)
        exact F.refl _
      · exact F.refl _
    · exact F.refl _

theorem execSbRequestWrite_kept (x0) (x1) (x2) (s : State) : Keeps R s (execSbRequestWrite x0 x1 x2 s) := by
  unfold execSbRequestWrite
  refine F.kIte ?_ ?_
  · refine F.kNext ?_
    exact F.refl _
  · refine F.kIte ?_ ?_
    · refine F.kNext ?_
      refine F.trans ?_ (State.raise_kept F _ _ _ _ _)
      refine F.trans ?_ (State.count_kept F _ _ _ _)
      refine F.trans ?_ (State.updCtl_kept F _ _)
      exact F.refl _
    · refine F.kNext ?_
      refine F.trans ?_ (State.updCtl_kept F _ _)
      exact F.refl _

theorem execSbResponseRead_kept (s : State) : Keeps R s (execSbResponseRead s) := by
  unfold execSbResponseRead
  refine F.kIte ?_ ?_
  · refine F.kNext ?_
    exact F.refl _
  · split
    · refine F.kNext ?_
      refine F.trans ?_ (State.emit_kept F _ _)
      exact F.refl _
    · refine F.kNext ?_
      refine F.trans ?_ (State.emit_kept F _ _)
      refine F.trans ?_ (State.updCtl_kept F _ _)
      exact F.refl _

theorem execSbStatusRead_kept (s : State) : Keeps R s (execSbStatusRead s) := by
  unfold execSbStatusRead
  refine F.kIte ?_ ?_
  · refine F.kNext ?_
    exact F.refl _
  · refine F.kNext ?_
    refine F.trans ?_ (State.emit_kept F _ _)
    refine F.trans ?_ (State.updCtl_kept F _ _)
    exact F.refl _

theorem execSbResetByte_kept (x0) (s : State) : Keeps R s (execSbResetByte x0 s) := by
  unfold execSbResetByte
  refine F.kNext ?_
  refine F.ite ?_ ?_
  · refine F.trans ?_ (applyMReset_kept F _ _)
    exact F.refl _
  · exact F.refl _

theorem execSbDynamicAddress_kept (x0) (s : State) : Keeps R s (execSbDynamicAddress x0 s) := by
  unfold execSbDynamicAddress
  refine F.kNext ?_
  refine F.ite ?_ ?_
  · exact F.refl _
  · refine F.trans ?_ (State.updCtl_kept F _ _)
    exact F.refl _

theorem execCtlMInbandEnableWrite_kept (x0) (s : State) : Keeps R s (execCtlMInbandEnableWrite x0 s) := by
  unfold execCtlMInbandEnableWrite
  refine F.kTrans ?_ (judged_kept F _ _ _ ?_)
  · exact F.refl _
  · refine F.trans ?_ (State.persists_kept F _ _ _)
    refine F.trans ?_ (State.setReg_kept F _ _ _ _)
    exact F.refl _

theorem execCtlMResetWrite_kept (x0) (s : State) : Keeps R s (execCtlMResetWrite x0 s) := by
  unfold execCtlMResetWrite
  refine F.kTrans ?_ (judged_kept F _ _ _ ?_)
  · exact F.refl _
  · refine F.trans ?_ (applyMReset_kept F _ _)
    exact F.refl _

theorem execMIdleResetExpiry_kept (s : State) : Keeps R s (execMIdleResetExpiry s) := by
  unfold execMIdleResetExpiry
  refine F.kNext ?_
  refine F.ite ?_ ?_
  · refine F.trans ?_ (applyMReset_kept F _ _)
    exact F.refl _
  · exact F.refl _

theorem execMPortReset_kept (s : State) : Keeps R s (execMPortReset s) := by
  unfold execMPortReset
  refine F.kNext ?_
  refine F.trans ?_ (mPortReset_kept F _)
  exact F.refl _

theorem execSignalDetect_kept (x0) (s : State) : Keeps R s (execSignalDetect x0 s) := by
  unfold execSignalDetect
  extract_lets; rename_i y300_0
  refine F.kTrans ?_ (onPort_kept F _ _)
  split
  · refine F.trans ?_ (laneEnter_kept F _ _ _)
    unfold y300_0
    refine F.trans ?_ (State.updLane_kept F _ _ _)
    exact F.refl _
  · refine F.trans ?_ (State.event_kept F _ _ _ _)
    refine F.trans ?_ (State.count_kept F _ _ _ _)
    refine F.trans ?_ (State.updLane_kept F _ _ _)
    refine F.trans ?_ (laneEnter_kept F _ _ _)
    unfold y300_0
    refine F.trans ?_ (State.updLane_kept F _ _ _)
    exact F.refl _
  · unfold y300_0
    refine F.trans ?_ (State.updLane_kept F _ _ _)
    exact F.refl _

theorem execSignalLost_kept (x0) (s : State) : Keeps R s (execSignalLost x0 s) := by
  unfold execSignalLost
  extract_lets; rename_i y300_0 y300_1
  refine F.kTrans ?_ (onPort_kept F _ _)
  split
  · refine F.ite ?_ ?_
    · refine F.trans ?_ (laneEnter_kept F _ _ _)
      unfold y300_1
      refine F.trans ?_ (State.updLane_kept F _ _ _)
      exact F.refl _
    · refine F.trans ?_ (State.event_kept F _ _ _ _)
      refine F.trans ?_ (State.raise_kept F _ _ _ _ _)
      refine F.trans ?_ (laneEnter_kept F _ _ _)
      unfold y300_1
      refine F.trans ?_ (State.updLane_kept F _ _ _)
      exact F.refl _
  · refine F.trans ?_ (laneEnter_kept F _ _ _)
    unfold y300_1
    refine F.trans ?_ (State.updLane_kept F _ _ _)
    exact F.refl _
  · refine F.trans ?_ (laneEnter_kept F _ _ _)
    unfold y300_1
    refine F.trans ?_ (State.updLane_kept F _ _ _)
    exact F.refl _
  · refine F.trans ?_ (laneEnter_kept F _ _ _)
    unfold y300_1
    refine F.trans ?_ (State.updLane_kept F _ _ _)
    exact F.refl _
  · refine F.trans ?_ (laneEnter_kept F _ _ _)
    unfold y300_1
    refine F.trans ?_ (State.updLane_kept F _ _ _)
    exact F.refl _
  · refine F.ite ?_ ?_
    · unfold y300_1
      refine F.trans ?_ (State.updLane_kept F _ _ _)
      exact F.refl _
    · refine F.trans ?_ (laneEnter_kept F _ _ _)
      unfold y300_1
      refine F.trans ?_ (State.updLane_kept F _ _ _)
      exact F.refl _
  · unfold y300_1
    refine F.trans ?_ (State.updLane_kept F _ _ _)
    exact F.refl _

theorem execLaneAdaptDone_kept (x0) (x1) (s : State) : Keeps R s (execLaneAdaptDone x0 x1 s) := by
  unfold execLaneAdaptDone
  extract_lets; rename_i y300_0 y300_1
  refine F.kTrans ?_ (onPort_kept F _ _)
  refine F.ite ?_ ?_
  · refine F.trans ?_ (State.raise_kept F _ _ _ _ _)
    unfold y300_1
    refine F.ite ?_ ?_
    · refine F.trans ?_ (laneEnter_kept F _ _ _)
      exact F.refl _
    · exact F.refl _
  · unfold y300_1
    refine F.ite ?_ ?_
    · refine F.trans ?_ (laneEnter_kept F _ _ _)
      exact F.refl _
    · exact F.refl _

theorem execBlockReceive_kept (x0) (x1) (x2) (s : State) : Keeps R s (execBlockReceive x0 x1 x2 s) := by
  unfold execBlockReceive
  refine F.kIte ?_ ?_
  · exact F.kFault _ _
  · refine F.kNext ?_
    refine F.trans ?_ (blockIn_kept F _ _ _ _)
    exact F.refl _

theorem miswire_kept (s : State) (x1) : R s (miswire s x1) := by
  unfold miswire
  refine F.trans ?_ (State.event_kept F _ _ _ _)
  refine F.trans ?_ (State.raise_kept F _ _ _ _ _)
  refine F.trans ?_ (laneEnter_kept F _ _ _)
  exact F.refl _

theorem trainingIn_kept (s : State) (x1) (x2) (x3) : R s (trainingIn s x1 x2 x3) := by
  unfold trainingIn
  extract_lets; rename_i y300_0 y300_1 y300_2
  refine F.ite ?_ ?_
  · exact F.refl _
  · refine F.ite ?_ ?_
    · refine F.trans ?_ (State.updLane_kept F _ _ _)
      exact F.refl _
    · refine F.ite ?_ ?_
      · refine F.trans ?_ (miswire_kept F _ _)
        unfold y300_2
        refine F.trans ?_ (State.updLane_kept F _ _ _)
        exact F.refl _
      · refine F.ite ?_ ?_
        · refine F.trans ?_ (laneEnter_kept F _ _ _)
          refine F.trans ?_ (State.updLane_kept F _ _ _)
          unfold y300_2
          refine F.trans ?_ (State.updLane_kept F _ _ _)
          exact F.refl _
        · unfold y300_2
          refine F.trans ?_ (State.updLane_kept F _ _ _)
          exact F.refl _

theorem execTrainingBlockReceive_kept (x0) (x1) (x2) (s : State) : Keeps R s (execTrainingBlockReceive x0 x1 x2 s) := by
  unfold execTrainingBlockReceive
  refine F.kIte ?_ ?_
  · exact F.kFault _ _
  · refine F.kNext ?_
    refine F.trans ?_ (trainingIn_kept F _ _ _ _)
    exact F.refl _

theorem execCodewordReceive_kept (x0) (x1) (s : State) : Keeps R s (execCodewordReceive x0 x1 s) := by
  unfold execCodewordReceive
  refine F.kTrans ?_ (onPort_kept F _ _)
  split
  · refine F.trans ?_ (codewordIn_kept F _ _ _)
    exact F.refl _
  · refine F.trans ?_ (codewordIn_kept F _ _ _)
    exact F.refl _
  · refine F.trans ?_ (codewordIn_kept F _ _ _)
    exact F.refl _
  · exact F.refl _

theorem markerError_kept (s : State) (x1) : R s (markerError s x1) := by
  unfold markerError
  extract_lets; rename_i y300_0 y300_1
  refine F.ite ?_ ?_
  · refine F.ite ?_ ?_
    · refine F.trans ?_ (State.event_kept F _ _ _ _)
      refine F.trans ?_ (laneEnter_kept F _ _ _)
      refine F.trans ?_ (State.raise_kept F _ _ _ _ _)
      refine F.trans ?_ (State.count_kept F _ _ _ _)
      unfold y300_1
      refine F.trans ?_ (State.count_kept F _ _ _ _)
      unfold y300_0
      refine F.trans ?_ (State.updLane_kept F _ _ _)
      exact F.refl _
    · unfold y300_1
      refine F.trans ?_ (State.count_kept F _ _ _ _)
      unfold y300_0
      refine F.trans ?_ (State.updLane_kept F _ _ _)
      exact F.refl _
  · unfold y300_0
    refine F.trans ?_ (State.updLane_kept F _ _ _)
    exact F.refl _

theorem pscIn_kept (s : State) (x1) (x2) : R s (pscIn s x1 x2) := by
  unfold pscIn
  extract_lets; rename_i y300_0 y300_1 y300_2 y300_3 y300_4 y300_5
  refine F.trans ?_ (State.updLane_kept F _ _ _)
  unfold y300_5
  refine F.ite ?_ ?_
  · refine F.trans ?_ (State.updLink_kept F _ _ _)
    refine F.trans ?_ (State.count_kept F _ _ _ _)
    unfold y300_4
    refine F.ite ?_ ?_
    · refine F.trans ?_ (reinitPort_kept F _ _)
      unfold y300_3
      refine F.ite ?_ ?_
      · refine F.trans ?_ (State.updLink_kept F _ _ _)
        refine F.ite ?_ ?_
        · unfold y300_2
          refine F.ite ?_ ?_
          · refine F.trans ?_ (State.event_kept F _ _ _ _)
            refine F.trans ?_ (State.raise_kept F _ _ _ _ _)
            unfold y300_1
            refine F.trans ?_ (State.updLink_kept F _ _ _)
            exact F.refl _
          · unfold y300_1
            refine F.trans ?_ (State.updLink_kept F _ _ _)
            exact F.refl _
        · refine F.trans ?_ (State.event_kept F _ _ _ _)
          unfold y300_2
          refine F.ite ?_ ?_
          · refine F.trans ?_ (State.event_kept F _ _ _ _)
            refine F.trans ?_ (State.raise_kept F _ _ _ _ _)
            unfold y300_1
            refine F.trans ?_ (State.updLink_kept F _ _ _)
            exact F.refl _
          · unfold y300_1
            refine F.trans ?_ (State.updLink_kept F _ _ _)
            exact F.refl _
      · unfold y300_2
        refine F.ite ?_ ?_
        · refine F.trans ?_ (State.event_kept F _ _ _ _)
          refine F.trans ?_ (State.raise_kept F _ _ _ _ _)
          unfold y300_1
          refine F.trans ?_ (State.updLink_kept F _ _ _)
          exact F.refl _
        · unfold y300_1
          refine F.trans ?_ (State.updLink_kept F _ _ _)
          exact F.refl _
    · unfold y300_3
      refine F.ite ?_ ?_
      · refine F.trans ?_ (State.updLink_kept F _ _ _)
        refine F.ite ?_ ?_
        · unfold y300_2
          refine F.ite ?_ ?_
          · refine F.trans ?_ (State.event_kept F _ _ _ _)
            refine F.trans ?_ (State.raise_kept F _ _ _ _ _)
            unfold y300_1
            refine F.trans ?_ (State.updLink_kept F _ _ _)
            exact F.refl _
          · unfold y300_1
            refine F.trans ?_ (State.updLink_kept F _ _ _)
            exact F.refl _
        · refine F.trans ?_ (State.event_kept F _ _ _ _)
          unfold y300_2
          refine F.ite ?_ ?_
          · refine F.trans ?_ (State.event_kept F _ _ _ _)
            refine F.trans ?_ (State.raise_kept F _ _ _ _ _)
            unfold y300_1
            refine F.trans ?_ (State.updLink_kept F _ _ _)
            exact F.refl _
          · unfold y300_1
            refine F.trans ?_ (State.updLink_kept F _ _ _)
            exact F.refl _
      · unfold y300_2
        refine F.ite ?_ ?_
        · refine F.trans ?_ (State.event_kept F _ _ _ _)
          refine F.trans ?_ (State.raise_kept F _ _ _ _ _)
          unfold y300_1
          refine F.trans ?_ (State.updLink_kept F _ _ _)
          exact F.refl _
        · unfold y300_1
          refine F.trans ?_ (State.updLink_kept F _ _ _)
          exact F.refl _
  · unfold y300_4
    refine F.ite ?_ ?_
    · refine F.trans ?_ (reinitPort_kept F _ _)
      unfold y300_3
      refine F.ite ?_ ?_
      · refine F.trans ?_ (State.updLink_kept F _ _ _)
        refine F.ite ?_ ?_
        · unfold y300_2
          refine F.ite ?_ ?_
          · refine F.trans ?_ (State.event_kept F _ _ _ _)
            refine F.trans ?_ (State.raise_kept F _ _ _ _ _)
            unfold y300_1
            refine F.trans ?_ (State.updLink_kept F _ _ _)
            exact F.refl _
          · unfold y300_1
            refine F.trans ?_ (State.updLink_kept F _ _ _)
            exact F.refl _
        · refine F.trans ?_ (State.event_kept F _ _ _ _)
          unfold y300_2
          refine F.ite ?_ ?_
          · refine F.trans ?_ (State.event_kept F _ _ _ _)
            refine F.trans ?_ (State.raise_kept F _ _ _ _ _)
            unfold y300_1
            refine F.trans ?_ (State.updLink_kept F _ _ _)
            exact F.refl _
          · unfold y300_1
            refine F.trans ?_ (State.updLink_kept F _ _ _)
            exact F.refl _
      · unfold y300_2
        refine F.ite ?_ ?_
        · refine F.trans ?_ (State.event_kept F _ _ _ _)
          refine F.trans ?_ (State.raise_kept F _ _ _ _ _)
          unfold y300_1
          refine F.trans ?_ (State.updLink_kept F _ _ _)
          exact F.refl _
        · unfold y300_1
          refine F.trans ?_ (State.updLink_kept F _ _ _)
          exact F.refl _
    · unfold y300_3
      refine F.ite ?_ ?_
      · refine F.trans ?_ (State.updLink_kept F _ _ _)
        refine F.ite ?_ ?_
        · unfold y300_2
          refine F.ite ?_ ?_
          · refine F.trans ?_ (State.event_kept F _ _ _ _)
            refine F.trans ?_ (State.raise_kept F _ _ _ _ _)
            unfold y300_1
            refine F.trans ?_ (State.updLink_kept F _ _ _)
            exact F.refl _
          · unfold y300_1
            refine F.trans ?_ (State.updLink_kept F _ _ _)
            exact F.refl _
        · refine F.trans ?_ (State.event_kept F _ _ _ _)
          unfold y300_2
          refine F.ite ?_ ?_
          · refine F.trans ?_ (State.event_kept F _ _ _ _)
            refine F.trans ?_ (State.raise_kept F _ _ _ _ _)
            unfold y300_1
            refine F.trans ?_ (State.updLink_kept F _ _ _)
            exact F.refl _
          · unfold y300_1
            refine F.trans ?_ (State.updLink_kept F _ _ _)
            exact F.refl _
      · unfold y300_2
        refine F.ite ?_ ?_
        · refine F.trans ?_ (State.event_kept F _ _ _ _)
          refine F.trans ?_ (State.raise_kept F _ _ _ _ _)
          unfold y300_1
          refine F.trans ?_ (State.updLink_kept F _ _ _)
          exact F.refl _
        · unfold y300_1
          refine F.trans ?_ (State.updLink_kept F _ _ _)
          exact F.refl _

theorem markerAccepted_kept (s : State) (x1) (x2) : R s (markerAccepted s x1 x2) := by
  unfold markerAccepted
  extract_lets; rename_i y300_0 y300_1
  refine F.trans ?_ (State.took_kept F _)
  unfold y300_1
  refine F.trans ?_ (State.updTport_kept F _ _ _)
  refine F.trans ?_ (State.updLane_kept F _ _ _)
  exact F.refl _

theorem markerIn_kept (s : State) (x1) (x2) (x3) (x4) : R s (markerIn s x1 x2 x3 x4) := by
  unfold markerIn
  extract_lets; rename_i y300_0 y300_1 y300_2 y300_3
  refine F.ite ?_ ?_
  · exact F.refl _
  · refine F.ite ?_ ?_
    · refine F.trans ?_ (markerError_kept F _ _)
      exact F.refl _
    · refine F.ite ?_ ?_
      · refine F.trans ?_ (State.updLane_kept F _ _ _)
        exact F.refl _
      · refine F.ite ?_ ?_
        · refine F.trans ?_ (markerError_kept F _ _)
          exact F.refl _
        · refine F.ite ?_ ?_
          · refine F.ite ?_ ?_
            · refine F.trans ?_ (laneEnter_kept F _ _ _)
              unfold y300_3
              refine F.trans ?_ (State.updLane_kept F _ _ _)
              unfold y300_2
              refine F.trans ?_ (pscIn_kept F _ _ _)
              refine F.trans ?_ (markerAccepted_kept F _ _ _)
              exact F.refl _
            · unfold y300_3
              refine F.trans ?_ (State.updLane_kept F _ _ _)
              unfold y300_2
              refine F.trans ?_ (pscIn_kept F _ _ _)
              refine F.trans ?_ (markerAccepted_kept F _ _ _)
              exact F.refl _
          · unfold y300_2
            refine F.trans ?_ (pscIn_kept F _ _ _)
            refine F.trans ?_ (markerAccepted_kept F _ _ _)
            exact F.refl _

theorem execMarkerReceive_kept (x0) (x1) (x2) (x3) (s : State) : Keeps R s (execMarkerReceive x0 x1 x2 x3 s) := by
  unfold execMarkerReceive
  refine F.kTrans ?_ (onPort_kept F _ _)
  refine F.trans ?_ (markerIn_kept F _ _ _ _ _)
  exact F.refl _

theorem execLaneBringupTimeout_kept (x0) (s : State) : Keeps R s (execLaneBringupTimeout x0 s) := by
  unfold execLaneBringupTimeout
  extract_lets; rename_i y300_0 y300_1
  refine F.kTrans ?_ (onPort_kept F _ _)
  split
  · refine F.ite ?_ ?_
    · refine F.trans ?_ (State.raise_kept F _ _ _ _ _)
      refine F.trans ?_ (laneEnter_kept F _ _ _)
      exact F.refl _
    · exact F.refl _
  · refine F.ite ?_ ?_
    · refine F.trans ?_ (State.raise_kept F _ _ _ _ _)
      refine F.trans ?_ (laneEnter_kept F _ _ _)
      exact F.refl _
    · exact F.refl _
  · refine F.ite ?_ ?_
    · refine F.trans ?_ (State.raise_kept F _ _ _ _ _)
      refine F.trans ?_ (laneEnter_kept F _ _ _)
      exact F.refl _
    · exact F.refl _
  · refine F.ite ?_ ?_
    · refine F.trans ?_ (State.raise_kept F _ _ _ _ _)
      refine F.trans ?_ (laneEnter_kept F _ _ _)
      exact F.refl _
    · exact F.refl _
  · refine F.ite ?_ ?_
    · refine F.trans ?_ (State.raise_kept F _ _ _ _ _)
      refine F.trans ?_ (laneEnter_kept F _ _ _)
      exact F.refl _
    · exact F.refl _
  · exact F.refl _

theorem execLaneFailedRetry_kept (x0) (s : State) : Keeps R s (execLaneFailedRetry x0 s) := by
  unfold execLaneFailedRetry
  extract_lets; rename_i y300_0
  refine F.kTrans ?_ (onPort_kept F _ _)
  refine F.ite ?_ ?_
  · refine F.trans ?_ (laneEnter_kept F _ _ _)
    exact F.refl _
  · exact F.refl _

theorem execLaneEnableWrite_kept (x0) (x1) (s : State) : Keeps R s (execLaneEnableWrite x0 x1 s) := by
  unfold execLaneEnableWrite
  refine F.kIte ?_ ?_
  · exact F.kFault _ _
  · refine F.kTrans ?_ (judged_kept F _ _ _ ?_)
    · exact F.refl _
    · refine F.trans ?_ (State.persists_kept F _ _ _)
      refine F.trans ?_ (applyLaneEnable_kept F _ _ _)
      exact F.refl _

theorem execLaneFecRxModeWrite_kept (x0) (x1) (s : State) : Keeps R s (execLaneFecRxModeWrite x0 x1 s) := by
  unfold execLaneFecRxModeWrite
  refine F.kIte ?_ ?_
  · exact F.kFault _ _
  · refine F.kTrans ?_ (judged_kept F _ _ _ ?_)
    · exact F.refl _
    · refine F.trans ?_ (State.persists_kept F _ _ _)
      refine F.trans ?_ (applyFecMode_kept F _ _ _)
      exact F.refl _

theorem execLaneLoopbackWrite_kept (x0) (x1) (s : State) : Keeps R s (execLaneLoopbackWrite x0 x1 s) := by
  unfold execLaneLoopbackWrite
  refine F.kIte ?_ ?_
  · exact F.kFault _ _
  · refine F.kTrans ?_ (judged_kept F _ _ _ ?_)
    · exact F.refl _
    · refine F.trans ?_ (applyLoopback_kept F _ _ _)
      exact F.refl _

theorem execLanePatternWrite_kept (x0) (x1) (s : State) : Keeps R s (execLanePatternWrite x0 x1 s) := by
  unfold execLanePatternWrite
  refine F.kIte ?_ ?_
  · exact F.kFault _ _
  · refine F.kTrans ?_ (judged_kept F _ _ _ ?_)
    · exact F.refl _
    · refine F.trans ?_ (State.setReg_kept F _ _ _ _)
      exact F.refl _

theorem execEyeScanGo_kept (x0) (x1) (s : State) : Keeps R s (execEyeScanGo x0 x1 s) := by
  unfold execEyeScanGo
  refine F.kIte ?_ ?_
  · exact F.kFault _ _
  · refine F.kTrans ?_ (judged_kept F _ _ _ ?_)
    · exact F.refl _
    · refine F.trans ?_ (applyEye_kept F _ _ _)
      exact F.refl _

theorem execEyeScanDone_kept (x0) (x1) (s : State) : Keeps R s (execEyeScanDone x0 x1 s) := by
  unfold execEyeScanDone
  extract_lets; rename_i y300_0
  refine F.kIte ?_ ?_
  · exact F.kFault _ _
  · refine F.kIte ?_ ?_
    · refine F.kNext ?_
      refine F.trans ?_ (State.event_kept F _ _ _ _)
      refine F.trans ?_ (State.setEye_kept F _ _ _)
      exact F.refl _
    · refine F.kNext ?_
      exact F.refl _

theorem execRestIdleTimerExpiry_kept (x0) (s : State) : Keeps R s (execRestIdleTimerExpiry x0 s) := by
  unfold execRestIdleTimerExpiry
  refine F.kTrans ?_ (onPort_kept F _ _)
  refine F.ite ?_ ?_
  · refine F.trans ?_ (State.updLane_kept F _ _ _)
    exact F.refl _
  · exact F.refl _

theorem execRestEnter_kept (x0) (s : State) : Keeps R s (execRestEnter x0 s) := by
  unfold execRestEnter
  extract_lets; rename_i y300_0
  refine F.kTrans ?_ (onPort_kept F _ _)
  refine F.ite ?_ ?_
  · refine F.trans ?_ (laneEnter_kept F _ _ _)
    exact F.refl _
  · exact F.refl _

theorem execRestWake_kept (x0) (s : State) : Keeps R s (execRestWake x0 s) := by
  unfold execRestWake
  refine F.kTrans ?_ (onPort_kept F _ _)
  refine F.trans ?_ (wakePort_kept F _ _ _)
  exact F.refl _

theorem execPwrWakePortWrite_kept (x0) (x1) (s : State) : Keeps R s (execPwrWakePortWrite x0 x1 s) := by
  unfold execPwrWakePortWrite
  refine F.kIte ?_ ?_
  · exact F.kFault _ _
  · refine F.kTrans ?_ (judged_kept F _ _ _ ?_)
    · exact F.refl _
    · refine F.ite ?_ ?_
      · refine F.trans ?_ (wakePort_kept F _ _ _)
        exact F.refl _
      · exact F.refl _

theorem execWakeTimeout_kept (x0) (s : State) : Keeps R s (execWakeTimeout x0 s) := by
  unfold execWakeTimeout
  extract_lets; rename_i y300_0
  refine F.kTrans ?_ (onPort_kept F _ _)
  refine F.ite ?_ ?_
  · refine F.trans ?_ (State.raise_kept F _ _ _ _ _)
    refine F.trans ?_ (laneEnter_kept F _ _ _)
    exact F.refl _
  · exact F.refl _

theorem queueChunk_kept (s : State) (x1) (x2) (x3) : R s (queueChunk s x1 x2 x3) := by
  unfold queueChunk
  extract_lets; rename_i y300_0 y300_1 y300_2 y300_3
  refine F.ite ?_ ?_
  · refine F.trans ?_ (wrapChunk_kept F _ _ _ _)
    exact F.refl _
  · refine F.trans ?_ (State.updLast_kept F _ _ _)
    unfold y300_3
    refine F.ite ?_ ?_
    · exact F.refl _
    · refine F.trans ?_ (State.count_kept F _ _ _ _)
      exact F.refl _

theorem takeChunk_kept (s : State) (x1) (x2) (x3) : R s (takeChunk s x1 x2 x3) := by
  unfold takeChunk
  extract_lets; rename_i y300_0
  split
  · refine F.trans ?_ (wrapChunk_kept F _ _ _ _)
    exact F.refl _
  · refine F.ite ?_ ?_
    · refine F.trans ?_ (queueChunk_kept F _ _ _ _)
      exact F.refl _
    · refine F.ite ?_ ?_
      · refine F.trans ?_ (deliverChunk_kept F _ _ _ _ _ _ _)
        exact F.refl _
      · refine F.trans ?_ (State.updLasts_kept F _ _)
        exact F.refl _

theorem lastedIn_kept (s : State) (x1) (x2) (x3) (x4) : R s (lastedIn s x1 x2 x3 x4) := by
  unfold lastedIn
  extract_lets; rename_i y300_0 y300_1 y300_2
  split
  · refine F.trans ?_ (State.raise_kept F _ _ _ _ _)
    refine F.trans ?_ (State.count_kept F _ _ _ _)
    exact F.refl _
  · refine F.trans ?_ (State.raise_kept F _ _ _ _ _)
    refine F.trans ?_ (State.count_kept F _ _ _ _)
    exact F.refl _
  · refine F.trans ?_ (State.raise_kept F _ _ _ _ _)
    refine F.trans ?_ (State.count_kept F _ _ _ _)
    exact F.refl _
  · refine F.trans ?_ (State.raise_kept F _ _ _ _ _)
    refine F.trans ?_ (State.count_kept F _ _ _ _)
    exact F.refl _
  · refine F.ite ?_ ?_
    · refine F.trans ?_ (State.raise_kept F _ _ _ _ _)
      refine F.trans ?_ (State.count_kept F _ _ _ _)
      exact F.refl _
    · refine F.trans ?_ (takeChunk_kept F _ _ _ _)
      exact F.refl _

theorem lastedSeq_kept (s : State) (x1) (x2) (x3) (x4) : R s (lastedSeq s x1 x2 x3 x4) := by
  unfold lastedSeq
  extract_lets; rename_i y300_0 y300_1
  refine F.ite ?_ ?_
  · unfold y300_1
    refine F.trans ?_ (State.updLink_kept F _ _ _)
    exact F.refl _
  · refine F.trans ?_ (lastedIn_kept F _ _ _ _ _)
    unfold y300_1
    refine F.trans ?_ (State.updLink_kept F _ _ _)
    exact F.refl _

theorem seqIn_kept (s : State) (x1) (x2) (x3) (x4) : R s (seqIn s x1 x2 x3 x4) := by
  unfold seqIn
  extract_lets; rename_i y300_0
  refine F.ite ?_ ?_
  · exact F.refl _
  · refine F.ite ?_ ?_
    · refine F.trans ?_ (State.updLink_kept F _ _ _)
      exact F.refl _
    · refine F.ite ?_ ?_
      · refine F.trans ?_ (dataIn_kept F _ _ _ _)
        exact F.refl _
      · refine F.trans ?_ (lastedSeq_kept F _ _ _ _ _)
        exact F.refl _

theorem flitIn_kept (s : State) (x1) (x2) (x3) (x4) : R s (flitIn s x1 x2 x3 x4) := by
  unfold flitIn
  extract_lets; rename_i y300_0 y300_1
  refine F.ite ?_ ?_
  · exact F.refl _
  · refine F.ite ?_ ?_
    · refine F.ite ?_ ?_
      · refine F.trans ?_ (badFlit_kept F _ _)
        exact F.refl _
      · exact F.refl _
    · refine F.ite ?_ ?_
      · refine F.trans ?_ (badFlit_kept F _ _)
        exact F.refl _
      · refine F.ite ?_ ?_
        · refine F.trans ?_ (framingError_kept F _ _)
          exact F.refl _
        · split
          · exact F.refl _
          · refine F.trans ?_ (controlIn_kept F _ _ _)
            exact F.refl _
          · refine F.trans ?_ (seqIn_kept F _ _ _ _ _)
            exact F.refl _

theorem execFlitReceive_kept (x0) (x1) (x2) (x3) (s : State) : Keeps R s (execFlitReceive x0 x1 x2 x3 s) := by
  unfold execFlitReceive
  refine F.kTrans ?_ (onPort_kept F _ _)
  refine F.trans ?_ (flitIn_kept F _ _ _ _ _)
  exact F.refl _

theorem execAckcrTimer_kept (x0) (s : State) : Keeps R s (execAckcrTimer x0 s) := by
  unfold execAckcrTimer
  extract_lets; rename_i y300_0
  refine F.kTrans ?_ (onPort_kept F _ _)
  refine F.ite ?_ ?_
  · refine F.trans ?_ (State.updLink_kept F _ _ _)
    exact F.refl _
  · exact F.refl _

theorem execAckcrReceive_kept (x0) (x1) (s : State) : Keeps R s (execAckcrReceive x0 x1 s) := by
  unfold execAckcrReceive
  refine F.kTrans ?_ (onPort_kept F _ _)
  refine F.trans ?_ (ackcrIn_kept F _ _ _)
  exact F.refl _

theorem execReplayReceive_kept (x0) (x1) (x2) (s : State) : Keeps R s (execReplayReceive x0 x1 x2 s) := by
  unfold execReplayReceive
  refine F.kTrans ?_ (onPort_kept F _ _)
  refine F.trans ?_ (replayIn_kept F _ _ _ _)
  exact F.refl _

theorem execNakWaitTimeout_kept (x0) (s : State) : Keeps R s (execNakWaitTimeout x0 s) := by
  unfold execNakWaitTimeout
  extract_lets; rename_i y300_0
  refine F.kTrans ?_ (onPort_kept F _ _)
  refine F.ite ?_ ?_
  · refine F.trans ?_ (askReplay_kept F _ _)
    exact F.refl _
  · exact F.refl _

theorem execReplayTimeout_kept (x0) (s : State) : Keeps R s (execReplayTimeout x0 s) := by
  unfold execReplayTimeout
  extract_lets; rename_i y300_0
  refine F.kTrans ?_ (onPort_kept F _ _)
  refine F.ite ?_ ?_
  · refine F.trans ?_ (startReplay_kept F _ _ _ _)
    exact F.refl _
  · exact F.refl _

theorem execCreditSyncReceive_kept (x0) (x1) (s : State) : Keeps R s (execCreditSyncReceive x0 x1 s) := by
  unfold execCreditSyncReceive
  refine F.kTrans ?_ (onPort_kept F _ _)
  refine F.trans ?_ (syncIn_kept F _ _ _)
  exact F.refl _

theorem execInitReceive_kept (x0) (x1) (s : State) : Keeps R s (execInitReceive x0 x1 s) := by
  unfold execInitReceive
  refine F.kTrans ?_ (onPort_kept F _ _)
  refine F.trans ?_ (initIn_kept F _ _ _)
  exact F.refl _

theorem execLinkInitSlow_kept (x0) (s : State) : Keeps R s (execLinkInitSlow x0 s) := by
  unfold execLinkInitSlow
  extract_lets; rename_i y300_0
  refine F.kTrans ?_ (onPort_kept F _ _)
  refine F.ite ?_ ?_
  · refine F.trans ?_ (State.event_kept F _ _ _ _)
    refine F.trans ?_ (State.raise_kept F _ _ _ _ _)
    refine F.trans ?_ (State.updLink_kept F _ _ _)
    exact F.refl _
  · exact F.refl _

theorem execLinkAdmitWrite_kept (x0) (x1) (s : State) : Keeps R s (execLinkAdmitWrite x0 x1 s) := by
  unfold execLinkAdmitWrite
  refine F.kIte ?_ ?_
  · exact F.kFault _ _
  · refine F.kTrans ?_ (judged_kept F _ _ _ ?_)
    · exact F.refl _
    · refine F.trans ?_ (admitPort_kept F _ _ _)
      refine F.trans ?_ (State.setReg_kept F _ _ _ _)
      exact F.refl _

theorem execLinkReinitWrite_kept (x0) (x1) (s : State) : Keeps R s (execLinkReinitWrite x0 x1 s) := by
  unfold execLinkReinitWrite
  refine F.kIte ?_ ?_
  · exact F.kFault _ _
  · refine F.kTrans ?_ (judged_kept F _ _ _ ?_)
    · exact F.refl _
    · refine F.trans ?_ (applyReinit_kept F _ _ _)
      exact F.refl _

theorem execCongHintReceive_kept (x0) (x1) (s : State) : Keeps R s (execCongHintReceive x0 x1 s) := by
  unfold execCongHintReceive
  refine F.kTrans ?_ (onPort_kept F _ _)
  refine F.forEach (fun t a => ?_) ?_
  · refine F.trans ?_ (hintIn_kept F _ _ _)
    exact F.refl _
  · exact F.refl _

theorem onSwitch_kept (x0) (s : State) : Keeps R s (onSwitch x0 s) := by
  unfold onSwitch
  refine F.kIte ?_ ?_
  · refine F.kNext ?_
    exact F.refl _
  · exact F.kFault _ _

theorem startInject_kept (s : State) (x1) (x2) : R s (startInject s x1 x2) := by
  unfold startInject
  extract_lets; rename_i y300_0 y300_1 y300_2 y300_3
  refine F.ite ?_ ?_
  · refine F.trans ?_ (State.event_kept F _ _ _ _)
    refine F.trans ?_ (State.raise_kept F _ _ _ _ _)
    unfold y300_2
    refine F.trans ?_ (State.updSw_kept F _ _)
    exact F.refl _
  · refine F.trans ?_ (hpUse_kept F _ _ _ _)
    refine F.trans ?_ (holdOwn_kept F _ _ _ _ _ _)
    unfold y300_3
    split
    · refine F.trans ?_ (State.updSw_kept F _ _)
      unfold y300_2
      refine F.trans ?_ (State.updSw_kept F _ _)
      exact F.refl _
    · unfold y300_2
      refine F.trans ?_ (State.updSw_kept F _ _)
      exact F.refl _

theorem injectNext_kept (s : State) (x1) : R s (injectNext s x1) := by
  unfold injectNext
  extract_lets; rename_i y300_0 y300_1 y300_2 y300_3 y300_4
  refine F.ite ?_ ?_
  · exact F.refl _
  · split
    · refine F.trans ?_ (startInject_kept F _ _ _)
      exact F.refl _
    · refine F.ite ?_ ?_
      · unfold y300_1
        refine F.forEach (fun t a => ?_) ?_
        · refine F.trans ?_ (State.updSw_kept F _ _)
          exact F.refl _
        · exact F.refl _
      · split
        · refine F.trans ?_ (startInject_kept F _ _ _)
          unfold y300_4
          refine F.trans ?_ (State.updSw_kept F _ _)
          unfold y300_1
          refine F.forEach (fun t a => ?_) ?_
          · refine F.trans ?_ (State.updSw_kept F _ _)
            exact F.refl _
          · exact F.refl _
        · unfold y300_4
          refine F.trans ?_ (State.updSw_kept F _ _)
          unfold y300_1
          refine F.forEach (fun t a => ?_) ?_
          · refine F.trans ?_ (State.updSw_kept F _ _)
            exact F.refl _
          · exact F.refl _

theorem execPacketInject_kept (x0) (s : State) : Keeps R s (execPacketInject x0 s) := by
  unfold execPacketInject
  refine F.kIte ?_ ?_
  · exact F.kFault _ _
  · refine F.kTrans ?_ (onSwitch_kept F _ _)
    refine F.trans ?_ (injectNext_kept F _ _)
    exact F.refl _

theorem stampOwn_kept (s : State) (x1) : R s (stampOwn s x1) := by
  unfold stampOwn
  extract_lets; rename_i y300_0 y300_1 y300_2 y300_3 y300_4 y300_5 y300_6 y300_7 y300_8 y300_9 y300_10
  refine F.trans ?_ (State.updPkt_kept F _ _ _)
  unfold y300_7
  refine F.ite ?_ ?_
  · refine F.trans ?_ (State.count_kept F _ _ _ _)
    unfold y300_6
    refine F.ite ?_ ?_
    · exact F.onChip (F.refl _)
    · exact F.refl _
  · unfold y300_6
    refine F.ite ?_ ?_
    · exact F.onChip (F.refl _)
    · exact F.refl _

theorem lookupDrop_kept (s : State) (x1) (x2) (x3) (x4) : R s (lookupDrop s x1 x2 x3 x4).st := by
  unfold lookupDrop
  extract_lets; rename_i y300_0
  refine F.lk ?_
  refine F.ite ?_ ?_
  · unfold y300_0
    refine F.trans ?_ (State.raise_kept F _ _ _ _ _)
    refine F.trans ?_ (State.count_kept F _ _ _ _)
    refine F.trans ?_ (dropPkt_kept F _ _)
    exact F.refl _
  · refine F.trans ?_ (State.fire_kept F _ _)
    unfold y300_0
    refine F.trans ?_ (State.raise_kept F _ _ _ _ _)
    refine F.trans ?_ (State.count_kept F _ _ _ _)
    refine F.trans ?_ (dropPkt_kept F _ _)
    exact F.refl _

theorem unreachable_kept (s : State) (x1) : R s (unreachable s x1).st := by
  unfold unreachable
  refine F.trans ?_ (lookupDrop_kept F _ _ _ _ _)
  exact F.refl _

theorem lookupMc_kept (s : State) (x1) : R s (lookupMc s x1).st := by
  unfold lookupMc
  extract_lets; rename_i y300_0
  split
  · refine F.lk ?_
    refine F.trans ?_ (benchEvent_kept F _ _ _)
    refine F.trans ?_ (State.raise_kept F _ _ _ _ _)
    refine F.trans ?_ (State.count_kept F _ _ _ _)
    refine F.trans ?_ (dropPkt_kept F _ _)
    exact F.refl _
  · split
    · refine F.lk ?_
      refine F.trans ?_ (State.updPkt_kept F _ _ _)
      exact F.refl _
    · split
      · refine F.lk ?_
        refine F.trans ?_ (State.count_kept F _ _ _ _)
        refine F.trans ?_ (dropPkt_kept F _ _)
        exact F.refl _
      · refine F.lk ?_
        exact F.refl _

theorem lookupRoute_kept (s : State) (x1) : R s (lookupRoute s x1).st := by
  unfold lookupRoute
  extract_lets; rename_i y300_0 y300_1 y300_2 y300_3
  split
  · split
    · split
      · refine F.lk ?_
        unfold y300_1
        split
        · refine F.trans ?_ (State.updSw_kept F _ _)
          exact F.refl _
        · exact F.refl _
      · refine F.trans ?_ (unreachable_kept F _ _)
        unfold y300_1
        split
        · refine F.trans ?_ (State.updSw_kept F _ _)
          exact F.refl _
        · exact F.refl _
    · refine F.trans ?_ (unreachable_kept F _ _)
      unfold y300_1
      split
      · refine F.trans ?_ (State.updSw_kept F _ _)
        exact F.refl _
      · exact F.refl _
  · extract_lets; rename_i y298_0
    split
    · refine F.trans ?_ (lookupDrop_kept F _ _ _ _ _)
      unfold y298_0
      refine F.ite ?_ ?_
      · refine F.trans ?_ (State.updPkt_kept F _ _ _)
        unfold y300_3
        refine F.ite ?_ ?_
        · refine F.trans ?_ (State.count_kept F _ _ _ _)
          unfold y300_1
          split
          · refine F.trans ?_ (State.updSw_kept F _ _)
            exact F.refl _
          · exact F.refl _
        · refine F.ite ?_ ?_
          · refine F.trans ?_ (State.count_kept F _ _ _ _)
            unfold y300_1
            split
            · refine F.trans ?_ (State.updSw_kept F _ _)
              exact F.refl _
            · exact F.refl _
          · unfold y300_1
            split
            · refine F.trans ?_ (State.updSw_kept F _ _)
              exact F.refl _
            · exact F.refl _
      · unfold y300_3
        refine F.ite ?_ ?_
        · refine F.trans ?_ (State.count_kept F _ _ _ _)
          unfold y300_1
          split
          · refine F.trans ?_ (State.updSw_kept F _ _)
            exact F.refl _
          · exact F.refl _
        · refine F.ite ?_ ?_
          · refine F.trans ?_ (State.count_kept F _ _ _ _)
            unfold y300_1
            split
            · refine F.trans ?_ (State.updSw_kept F _ _)
              exact F.refl _
            · exact F.refl _
          · unfold y300_1
            split
            · refine F.trans ?_ (State.updSw_kept F _ _)
              exact F.refl _
            · exact F.refl _
    · refine F.lk ?_
      unfold y298_0
      refine F.ite ?_ ?_
      · refine F.trans ?_ (State.updPkt_kept F _ _ _)
        unfold y300_3
        refine F.ite ?_ ?_
        · refine F.trans ?_ (State.count_kept F _ _ _ _)
          unfold y300_1
          split
          · refine F.trans ?_ (State.updSw_kept F _ _)
            exact F.refl _
          · exact F.refl _
        · refine F.ite ?_ ?_
          · refine F.trans ?_ (State.count_kept F _ _ _ _)
            unfold y300_1
            split
            · refine F.trans ?_ (State.updSw_kept F _ _)
              exact F.refl _
            · exact F.refl _
          · unfold y300_1
            split
            · refine F.trans ?_ (State.updSw_kept F _ _)
              exact F.refl _
            · exact F.refl _
      · unfold y300_3
        refine F.ite ?_ ?_
        · refine F.trans ?_ (State.count_kept F _ _ _ _)
          unfold y300_1
          split
          · refine F.trans ?_ (State.updSw_kept F _ _)
            exact F.refl _
          · exact F.refl _
        · refine F.ite ?_ ?_
          · refine F.trans ?_ (State.count_kept F _ _ _ _)
            unfold y300_1
            split
            · refine F.trans ?_ (State.updSw_kept F _ _)
              exact F.refl _
            · exact F.refl _
          · unfold y300_1
            split
            · refine F.trans ?_ (State.updSw_kept F _ _)
              exact F.refl _
            · exact F.refl _

theorem lookupKind_kept (s : State) (x1) : R s (lookupKind s x1).st := by
  unfold lookupKind
  extract_lets; rename_i y300_0
  split
  · refine F.trans ?_ (lookupDrop_kept F _ _ _ _ _)
    exact F.refl _
  · split
    · refine F.trans ?_ (lookupDrop_kept F _ _ _ _ _)
      exact F.refl _
    · split
      · refine F.trans ?_ (lookupDrop_kept F _ _ _ _ _)
        exact F.refl _
      · split
        · refine F.lk ?_
          exact F.refl _
        · split
          · refine F.trans ?_ (unreachable_kept F _ _)
            exact F.refl _
          · split
            · refine F.trans ?_ (lookupMc_kept F _ _)
              exact F.refl _
            · split
              · refine F.lk ?_
                exact F.refl _
              · refine F.trans ?_ (lookupRoute_kept F _ _)
                exact F.refl _

theorem placeCopies_kept (s : State) (x1) (x2) : R s (placeCopies s x1 x2) := by
  unfold placeCopies
  extract_lets; rename_i y300_0 y300_1 y300_2 y300_3
  refine F.trans ?_ (stamp_kept F _ _ _)
  refine F.trans ?_ (cupSample_kept F _ _ _ _ _ _)
  unfold y300_3
  refine F.trans ?_ (State.updPkt_kept F _ _ _)
  unfold y300_2
  refine F.ite ?_ ?_
  · refine F.trans ?_ (State.count_kept F _ _ _ _)
    exact F.refl _
  · exact F.refl _

theorem lookup_kept (s : State) (x1) : R s (lookup s x1) := by
  unfold lookup
  split
  · exact F.refl _
  · extract_lets; rename_i y299_0 y299_1
    split
    · unfold y299_1
      refine F.ite ?_ ?_
      · unfold y299_0
        refine F.trans ?_ (State.count_kept F _ _ _ _)
        exact F.refl _
      · refine F.ite ?_ ?_
        · refine F.trans ?_ (stampOwn_kept F _ _)
          unfold y299_0
          refine F.trans ?_ (State.count_kept F _ _ _ _)
          exact F.refl _
        · refine F.trans ?_ (State.updPkt_kept F _ _ _)
          unfold y299_0
          refine F.trans ?_ (State.count_kept F _ _ _ _)
          exact F.refl _
    · extract_lets; rename_i y297_0 y297_1
      split
      · refine F.ite ?_ ?_
        · refine F.trans ?_ (cupSample_kept F _ _ _ _ _ _)
          unfold y297_1
          refine F.trans ?_ (lookupKind_kept F _ _)
          unfold y297_0
          refine F.ite ?_ ?_
          · refine F.trans ?_ (State.count_kept F _ _ _ _)
            unfold y299_1
            refine F.ite ?_ ?_
            · unfold y299_0
              refine F.trans ?_ (State.count_kept F _ _ _ _)
              exact F.refl _
            · refine F.ite ?_ ?_
              · refine F.trans ?_ (stampOwn_kept F _ _)
                unfold y299_0
                refine F.trans ?_ (State.count_kept F _ _ _ _)
                exact F.refl _
              · refine F.trans ?_ (State.updPkt_kept F _ _ _)
                unfold y299_0
                refine F.trans ?_ (State.count_kept F _ _ _ _)
                exact F.refl _
          · unfold y299_1
            refine F.ite ?_ ?_
            · unfold y299_0
              refine F.trans ?_ (State.count_kept F _ _ _ _)
              exact F.refl _
            · refine F.ite ?_ ?_
              · refine F.trans ?_ (stampOwn_kept F _ _)
                unfold y299_0
                refine F.trans ?_ (State.count_kept F _ _ _ _)
                exact F.refl _
              · refine F.trans ?_ (State.updPkt_kept F _ _ _)
                unfold y299_0
                refine F.trans ?_ (State.count_kept F _ _ _ _)
                exact F.refl _
        · extract_lets; rename_i y294_0
          refine F.ite ?_ ?_
          · refine F.forEach (fun t a => ?_) ?_
            · refine F.trans ?_ (judgeThrottle_kept F _ _)
              exact F.refl _
            · unfold y294_0
              refine F.trans ?_ (placeCopies_kept F _ _ _)
              unfold y297_1
              refine F.trans ?_ (lookupKind_kept F _ _)
              unfold y297_0
              refine F.ite ?_ ?_
              · refine F.trans ?_ (State.count_kept F _ _ _ _)
                unfold y299_1
                refine F.ite ?_ ?_
                · unfold y299_0
                  refine F.trans ?_ (State.count_kept F _ _ _ _)
                  exact F.refl _
                · refine F.ite ?_ ?_
                  · refine F.trans ?_ (stampOwn_kept F _ _)
                    unfold y299_0
                    refine F.trans ?_ (State.count_kept F _ _ _ _)
                    exact F.refl _
                  · refine F.trans ?_ (State.updPkt_kept F _ _ _)
                    unfold y299_0
                    refine F.trans ?_ (State.count_kept F _ _ _ _)
                    exact F.refl _
              · unfold y299_1
                refine F.ite ?_ ?_
                · unfold y299_0
                  refine F.trans ?_ (State.count_kept F _ _ _ _)
                  exact F.refl _
                · refine F.ite ?_ ?_
                  · refine F.trans ?_ (stampOwn_kept F _ _)
                    unfold y299_0
                    refine F.trans ?_ (State.count_kept F _ _ _ _)
                    exact F.refl _
                  · refine F.trans ?_ (State.updPkt_kept F _ _ _)
                    unfold y299_0
                    refine F.trans ?_ (State.count_kept F _ _ _ _)
                    exact F.refl _
          · unfold y294_0
            refine F.trans ?_ (placeCopies_kept F _ _ _)
            unfold y297_1
            refine F.trans ?_ (lookupKind_kept F _ _)
            unfold y297_0
            refine F.ite ?_ ?_
            · refine F.trans ?_ (State.count_kept F _ _ _ _)
              unfold y299_1
              refine F.ite ?_ ?_
              · unfold y299_0
                refine F.trans ?_ (State.count_kept F _ _ _ _)
                exact F.refl _
              · refine F.ite ?_ ?_
                · refine F.trans ?_ (stampOwn_kept F _ _)
                  unfold y299_0
                  refine F.trans ?_ (State.count_kept F _ _ _ _)
                  exact F.refl _
                · refine F.trans ?_ (State.updPkt_kept F _ _ _)
                  unfold y299_0
                  refine F.trans ?_ (State.count_kept F _ _ _ _)
                  exact F.refl _
            · unfold y299_1
              refine F.ite ?_ ?_
              · unfold y299_0
                refine F.trans ?_ (State.count_kept F _ _ _ _)
                exact F.refl _
              · refine F.ite ?_ ?_
                · refine F.trans ?_ (stampOwn_kept F _ _)
                  unfold y299_0
                  refine F.trans ?_ (State.count_kept F _ _ _ _)
                  exact F.refl _
                · refine F.trans ?_ (State.updPkt_kept F _ _ _)
                  unfold y299_0
                  refine F.trans ?_ (State.count_kept F _ _ _ _)
                  exact F.refl _
      · refine F.trans ?_ (cupSample_kept F _ _ _ _ _ _)
        unfold y297_1
        refine F.trans ?_ (lookupKind_kept F _ _)
        unfold y297_0
        refine F.ite ?_ ?_
        · refine F.trans ?_ (State.count_kept F _ _ _ _)
          unfold y299_1
          refine F.ite ?_ ?_
          · unfold y299_0
            refine F.trans ?_ (State.count_kept F _ _ _ _)
            exact F.refl _
          · refine F.ite ?_ ?_
            · refine F.trans ?_ (stampOwn_kept F _ _)
              unfold y299_0
              refine F.trans ?_ (State.count_kept F _ _ _ _)
              exact F.refl _
            · refine F.trans ?_ (State.updPkt_kept F _ _ _)
              unfold y299_0
              refine F.trans ?_ (State.count_kept F _ _ _ _)
              exact F.refl _
        · unfold y299_1
          refine F.ite ?_ ?_
          · unfold y299_0
            refine F.trans ?_ (State.count_kept F _ _ _ _)
            exact F.refl _
          · refine F.ite ?_ ?_
            · refine F.trans ?_ (stampOwn_kept F _ _)
              unfold y299_0
              refine F.trans ?_ (State.count_kept F _ _ _ _)
              exact F.refl _
            · refine F.trans ?_ (State.updPkt_kept F _ _ _)
              unfold y299_0
              refine F.trans ?_ (State.count_kept F _ _ _ _)
              exact F.refl _

theorem execPacketLookup_kept (x0) (s : State) : Keeps R s (execPacketLookup x0 s) := by
  unfold execPacketLookup
  refine F.kTrans ?_ (onSwitch_kept F _ _)
  split
  · refine F.trans ?_ (lookup_kept F _ _)
    exact F.refl _
  · exact F.refl _

theorem execRouteBankWrite_kept (x0) (s : State) : Keeps R s (execRouteBankWrite x0 s) := by
  unfold execRouteBankWrite
  refine F.kTrans ?_ (judged_kept F _ _ _ ?_)
  · exact F.refl _
  · refine F.trans ?_ (bankSwitch_kept F _ _)
    exact F.refl _

theorem execBankDrainHorizon_kept (s : State) : Keeps R s (execBankDrainHorizon s) := by
  unfold execBankDrainHorizon
  refine F.kNext ?_
  refine F.ite ?_ ?_
  · refine F.trans ?_ (State.fire_kept F _ _)
    refine F.trans ?_ (State.updSw_kept F _ _)
    exact F.refl _
  · exact F.refl _

theorem execOpenPacketAgeOut_kept (x0) (s : State) : Keeps R s (execOpenPacketAgeOut x0 s) := by
  unfold execOpenPacketAgeOut
  refine F.kTrans ?_ (onSwitch_kept F _ _)
  split
  · refine F.trans ?_ (endOpen_kept F _ _ _)
    exact F.refl _
  · exact F.refl _

theorem settleDrr_kept (s : State) (x1) (x2) : R s (settleDrr s x1 x2) := by
  unfold settleDrr
  refine F.ite ?_ ?_
  · exact F.refl _
  · refine F.trans ?_ (State.updOut_kept F _ _ _)
    exact F.refl _

theorem grant_kept (s : State) (x1) (x2) (x3) : R s (grant s x1 x2 x3) := by
  unfold grant
  extract_lets; rename_i y300_0
  refine F.trans ?_ (crossOut_kept F _ _)
  refine F.trans ?_ (stamp_kept F _ _ _)
  unfold y300_0
  refine F.trans ?_ (State.updOut_kept F _ _ _)
  refine F.trans ?_ (State.updPkt_kept F _ _ _)
  exact F.refl _

theorem grantNext_kept (s : State) (x1) : R s (grantNext s x1) := by
  unfold grantNext
  extract_lets; rename_i y300_0 y300_1 y300_2
  refine F.ite ?_ ?_
  · exact F.refl _
  · refine F.ite ?_ ?_
    · refine F.trans ?_ (State.updOut_kept F _ _ _)
      exact F.refl _
    · split
      · unfold y300_2
        refine F.trans ?_ (State.count_kept F _ _ _ _)
        refine F.trans ?_ (State.updOut_kept F _ _ _)
        exact F.refl _
      · split
        · refine F.trans ?_ (settleDrr_kept F _ _ _)
          refine F.trans ?_ (grant_kept F _ _ _ _)
          unfold y300_2
          refine F.trans ?_ (State.count_kept F _ _ _ _)
          refine F.trans ?_ (State.updOut_kept F _ _ _)
          exact F.refl _
        · unfold y300_2
          refine F.trans ?_ (State.count_kept F _ _ _ _)
          refine F.trans ?_ (State.updOut_kept F _ _ _)
          exact F.refl _

theorem execArbiterGrant_kept (x0) (s : State) : Keeps R s (execArbiterGrant x0 s) := by
  unfold execArbiterGrant
  refine F.kTrans ?_ (onSwitch_kept F _ _)
  refine F.trans ?_ (grantNext_kept F _ _)
  exact F.refl _

theorem idleSlot_kept (s : State) (x1) : R s (idleSlot s x1).2 := by
  unfold idleSlot
  refine F.pair2 ?_
  refine F.trans ?_ (State.count_kept F _ _ _ _)
  exact F.refl _

theorem reservedFlit_kept (s : State) (x1) (x2) : PKeeps R s (reservedFlit s x1 x2) := by
  unfold reservedFlit
  extract_lets; rename_i y300_0 y300_1 y300_2 y300_3
  split
  · extract_lets; rename_i y298_0
    refine F.pSome ?_
    refine F.pair2 ?_
    refine F.trans ?_ (State.count_kept F _ _ _ _)
    refine F.trans ?_ (State.updLast_kept F _ _ _)
    exact F.refl _
  · split
    · extract_lets; rename_i y297_0
      refine F.pSome ?_
      refine F.pair2 ?_
      refine F.trans ?_ (fetchRecords_kept F _ _)
      unfold y297_0
      refine F.ite ?_ ?_
      · refine F.trans ?_ (State.raise_kept F _ _ _ _ _)
        refine F.trans ?_ (chunkLost_kept F _ _)
        unfold y300_3
        refine F.trans ?_ (State.count_kept F _ _ _ _)
        refine F.trans ?_ (State.updRing_kept F _ _ _)
        exact F.refl _
      · unfold y300_3
        refine F.trans ?_ (State.count_kept F _ _ _ _)
        refine F.trans ?_ (State.updRing_kept F _ _ _)
        exact F.refl _
    · exact F.pNone _

theorem reservedSlot_kept (s : State) (x1) (x2) : PKeeps R s (reservedSlot s x1 x2) := by
  unfold reservedSlot
  refine F.pIte ?_ ?_
  · refine F.pBind fun x hx => ?_
    refine F.pMap fun x hx => ?_
    refine F.pair2 ?_
    refine F.trans ?_ (sendSeq_kept F _ _ _ _)
    refine F.trans ?_ (reservedFlit_kept F _ _ _ _ (by assumption))
    exact F.refl _
  · exact F.pNone _

theorem noteUnused_kept (s : State) (x1) (x2) : R s (noteUnused s x1 x2) := by
  unfold noteUnused
  refine F.ite ?_ ?_
  · refine F.trans ?_ (State.count_kept F _ _ _ _)
    exact F.refl _
  · exact F.refl _

theorem replaySlot_kept (s : State) (x1) : PKeeps R s (replaySlot s x1) := by
  unfold replaySlot
  extract_lets; rename_i y300_0
  refine F.pIte ?_ ?_
  · exact F.pNone _
  · split
    · exact F.pNone _
    · refine F.pIte ?_ ?_
      · exact F.pNone _
      · refine F.pMap fun x hx => ?_
        refine F.pair2 ?_
        refine F.trans ?_ (State.count_kept F _ _ _ _)
        refine F.trans ?_ (State.updLink_kept F _ _ _)
        exact F.refl _

theorem lateFlit_kept (s : State) (x1) (x2) : PKeeps R s (lateFlit s x1 x2) := by
  unfold lateFlit
  extract_lets; rename_i y300_0
  refine F.pMap fun x hx => ?_
  refine F.pair2 ?_
  refine F.trans ?_ (State.count_kept F _ _ _ _)
  refine F.trans ?_ (State.updLast_kept F _ _ _)
  exact F.refl _

theorem lateSlot_kept (s : State) (x1) (x2) : PKeeps R s (lateSlot s x1 x2) := by
  unfold lateSlot
  refine F.pIte ?_ ?_
  · extract_lets; rename_i y299_0
    refine F.pBind fun x hx => ?_
    refine F.pMap fun x hx => ?_
    refine F.pair2 ?_
    refine F.trans ?_ (sendSeq_kept F _ _ _ _)
    refine F.trans ?_ (lateFlit_kept F _ _ _ _ (by assumption))
    exact F.refl _
  · exact F.pNone _

theorem pickSlot_kept (s : State) (x1) (x2) : R s (pickSlot s x1 x2).2 := by
  unfold pickSlot
  split
  · refine F.trans ?_ (idleSlot_kept F _ _)
    exact F.refl _
  · extract_lets; rename_i y299_0 y299_1
    split
    · refine F.trans ?_ (reservedSlot_kept F _ _ _ _ (by assumption))
      unfold y299_0
      refine F.trans ?_ (dropAged_kept F _ _ _)
      exact F.refl _
    · split
      · refine F.trans ?_ (controlSlot_kept F _ _ _ (by assumption))
        unfold y299_1
        refine F.trans ?_ (noteUnused_kept F _ _ _)
        unfold y299_0
        refine F.trans ?_ (dropAged_kept F _ _ _)
        exact F.refl _
      · split
        · refine F.trans ?_ (replaySlot_kept F _ _ _ (by assumption))
          unfold y299_1
          refine F.trans ?_ (noteUnused_kept F _ _ _)
          unfold y299_0
          refine F.trans ?_ (dropAged_kept F _ _ _)
          exact F.refl _
        · split
          · refine F.trans ?_ (lateSlot_kept F _ _ _ _ (by assumption))
            unfold y299_1
            refine F.trans ?_ (noteUnused_kept F _ _ _)
            unfold y299_0
            refine F.trans ?_ (dropAged_kept F _ _ _)
            exact F.refl _
          · split
            · refine F.trans ?_ (dataSlot_kept F _ _ _ (by assumption))
              unfold y299_1
              refine F.trans ?_ (noteUnused_kept F _ _ _)
              unfold y299_0
              refine F.trans ?_ (dropAged_kept F _ _ _)
              exact F.refl _
            · refine F.trans ?_ (idleSlot_kept F _ _)
              unfold y299_1
              refine F.trans ?_ (noteUnused_kept F _ _ _)
              unfold y299_0
              refine F.trans ?_ (dropAged_kept F _ _ _)
              exact F.refl _

theorem execEgressSlot_kept (x0) (x1) (s : State) : Keeps R s (execEgressSlot x0 x1 s) := by
  unfold execEgressSlot
  refine F.kTrans ?_ (onPort_kept F _ _)
  refine F.ite ?_ ?_
  · extract_lets; rename_i y298_0
    refine F.trans ?_ (State.emit_kept F _ _)
    unfold y298_0
    refine F.trans ?_ (pickSlot_kept F _ _ _)
    refine F.trans ?_ (State.updLink_kept F _ _ _)
    exact F.refl _
  · exact F.refl _

theorem execAnchorAdmit_kept (x0) (s : State) : Keeps R s (execAnchorAdmit x0 s) := by
  unfold execAnchorAdmit
  refine F.kTrans ?_ (onSwitch_kept F _ _)
  split
  · refine F.trans ?_ (anchorAdmit_kept F _ _)
    exact F.refl _
  · exact F.refl _

theorem execAnchorStall_kept (x0) (s : State) : Keeps R s (execAnchorStall x0 s) := by
  unfold execAnchorStall
  refine F.kTrans ?_ (onSwitch_kept F _ _)
  split
  · refine F.ite ?_ ?_
    · refine F.trans ?_ (benchEvent_kept F _ _ _)
      refine F.trans ?_ (State.raise_kept F _ _ _ _ _)
      refine F.trans ?_ (State.updPkt_kept F _ _ _)
      exact F.refl _
    · exact F.refl _
  · exact F.refl _

theorem execHostDeliver_kept (x0) (s : State) : Keeps R s (execHostDeliver x0 s) := by
  unfold execHostDeliver
  refine F.kIte ?_ ?_
  · exact F.kFault _ _
  · refine F.kTrans ?_ (onSwitch_kept F _ _)
    split
    · refine F.ite ?_ ?_
      · refine F.trans ?_ (ageOut_kept F _ _ _)
        exact F.refl _
      · refine F.ite ?_ ?_
        · refine F.trans ?_ (deliverTo_kept F _ _ _)
          exact F.refl _
        · exact F.refl _
    · exact F.refl _

theorem execCupInbandSend_kept (s : State) : Keeps R s (execCupInbandSend s) := by
  unfold execCupInbandSend
  extract_lets; rename_i y300_0 y300_1 y300_2 y300_3
  refine F.kIte ?_ ?_
  · refine F.kNext ?_
    refine F.trans ?_ (State.sendFrom_kept F _ _ _)
    refine F.trans ?_ (State.updCup_kept F _ _)
    refine F.trans ?_ (State.took_kept F _)
    exact F.refl _
  · refine F.kNext ?_
    exact F.refl _

theorem execCupPacketDeliver_kept (x0) (s : State) : Keeps R s (execCupPacketDeliver x0 s) := by
  unfold execCupPacketDeliver
  extract_lets; rename_i y300_0
  split
  · refine F.kNext ?_
    exact F.refl _
  · refine F.kIte ?_ ?_
    · refine F.kNext ?_
      exact F.refl _
    · extract_lets; rename_i y297_0 y297_1
      refine F.kIte ?_ ?_
      · refine F.kNext ?_
        refine F.forEach (fun t a => ?_) ?_
        · refine F.trans ?_ (cupRingWrite_kept F _ _ _)
          exact F.refl _
        · unfold y297_0
          refine F.trans ?_ (State.updSw_kept F _ _)
          exact F.refl _
      · refine F.kNext ?_
        refine F.trans ?_ (State.count_kept F _ _ _ _)
        unfold y297_0
        refine F.trans ?_ (State.updSw_kept F _ _)
        exact F.refl _

theorem execCupRingBaseWrite_kept (x0) (x1) (s : State) : Keeps R s (execCupRingBaseWrite x0 x1 s) := by
  unfold execCupRingBaseWrite
  refine F.kTrans ?_ (judged_kept F _ _ _ ?_)
  · exact F.refl _
  · refine F.trans ?_ (applyCupRing_kept F _ _ _)
    exact F.refl _

theorem execLastEntryOpen_kept (x0) (x1) (x2) (s : State) : Keeps R s (execLastEntryOpen x0 x1 x2 s) := by
  unfold execLastEntryOpen
  refine F.kIte ?_ ?_
  · exact F.kFault _ _
  · extract_lets; rename_i y299_0
    refine F.kTrans ?_ (judged_kept F _ _ _ ?_)
    · exact F.refl _
    · refine F.trans ?_ (applyLastOpen_kept F _ _ _)
      exact F.refl _

theorem execLastEntryClose_kept (x0) (x1) (x2) (s : State) : Keeps R s (execLastEntryClose x0 x1 x2 s) := by
  unfold execLastEntryClose
  refine F.kIte ?_ ?_
  · exact F.kFault _ _
  · refine F.kTrans ?_ (judged_kept F _ _ _ ?_)
    · exact F.refl _
    · refine F.trans ?_ (applyLastClose_kept F _ _ _)
      exact F.refl _

theorem execLastArmCheck_kept (x0) (x1) (s : State) : Keeps R s (execLastArmCheck x0 x1 s) := by
  unfold execLastArmCheck
  extract_lets; rename_i y300_0
  refine F.kIte ?_ ?_
  · exact F.kFault _ _
  · refine F.kNext ?_
    refine F.ite ?_ ?_
    · refine F.trans ?_ (armCheck_kept F _ _)
      exact F.refl _
    · exact F.refl _

theorem execLastedFlitReceive_kept (x0) (x1) (x2) (x3) (x4) (s : State) : Keeps R s (execLastedFlitReceive x0 x1 x2 x3 x4 s) := by
  unfold execLastedFlitReceive
  refine F.kTrans ?_ (onPort_kept F _ _)
  refine F.trans ?_ (lastedIn_kept F _ _ _ _ _)
  exact F.refl _

theorem execLastSignalReceive_kept (x0) (x1) (s : State) : Keeps R s (execLastSignalReceive x0 x1 s) := by
  unfold execLastSignalReceive
  refine F.kTrans ?_ (onPort_kept F _ _)
  refine F.trans ?_ (collSignals_kept F _)
  refine F.forEach (fun t a => ?_) ?_
  · refine F.trans ?_ (signalIn_kept F _ _ _)
    exact F.refl _
  · exact F.refl _

theorem execWrapTimer_kept (x0) (x1) (s : State) : Keeps R s (execWrapTimer x0 x1 s) := by
  unfold execWrapTimer
  extract_lets; rename_i y300_0
  refine F.kIte ?_ ?_
  · exact F.kFault _ _
  · refine F.kNext ?_
    refine F.ite ?_ ?_
    · refine F.trans ?_ (flushWrap_kept F _ _)
      exact F.refl _
    · exact F.refl _

theorem execWrapDeliver_kept (x0) (s : State) : Keeps R s (execWrapDeliver x0 s) := by
  unfold execWrapDeliver
  extract_lets; rename_i y300_0
  split
  · refine F.kNext ?_
    exact F.refl _
  · refine F.kIte ?_ ?_
    · refine F.kNext ?_
      exact F.refl _
    · extract_lets; rename_i y297_0
      split
      · refine F.kNext ?_
        refine F.trans ?_ (State.raise_kept F _ _ _ _ _)
        refine F.trans ?_ (chunkLost_kept F _ _)
        unfold y297_0
        refine F.trans ?_ (State.updSw_kept F _ _)
        exact F.refl _
      · refine F.kNext ?_
        refine F.forEach (fun t a => ?_) ?_
        · refine F.trans ?_ (deliverChunk_kept F _ _ _ _ _ _ _)
          exact F.refl _
        · unfold y297_0
          refine F.trans ?_ (State.updSw_kept F _ _)
          exact F.refl _

theorem onModule_kept (x0) (s : State) : Keeps R s (onModule x0 s) := by
  unfold onModule
  refine F.kIte ?_ ?_
  · refine F.kNext ?_
    exact F.refl _
  · exact F.kFault _ _

theorem moduleEnter_kept (s : State) (x1) (x2) : R s (moduleEnter s x1 x2) := by
  unfold moduleEnter
  extract_lets; rename_i y300_0
  split
  · refine F.trans ?_ (State.raise_kept F _ _ _ _ _)
    unfold y300_0
    refine F.trans ?_ (State.event_kept F _ _ _ _)
    refine F.trans ?_ (State.updModule_kept F _ _ _)
    exact F.refl _
  · refine F.trans ?_ (State.raise_kept F _ _ _ _ _)
    unfold y300_0
    refine F.trans ?_ (State.event_kept F _ _ _ _)
    refine F.trans ?_ (State.updModule_kept F _ _ _)
    exact F.refl _
  · unfold y300_0
    refine F.trans ?_ (State.event_kept F _ _ _ _)
    refine F.trans ?_ (State.updModule_kept F _ _ _)
    exact F.refl _

theorem execModuleTrainStart_kept (x0) (s : State) : Keeps R s (execModuleTrainStart x0 s) := by
  unfold execModuleTrainStart
  refine F.kTrans ?_ (onModule_kept F _ _)
  refine F.ite ?_ ?_
  · refine F.trans ?_ (moduleEnter_kept F _ _ _)
    exact F.refl _
  · exact F.refl _

theorem moduleRepaired_kept (s : State) (x1) (x2) : R s (moduleRepaired s x1 x2) := by
  unfold moduleRepaired
  extract_lets; rename_i y300_0
  refine F.ite ?_ ?_
  · unfold y300_0
    refine F.trans ?_ (State.updModule_kept F _ _ _)
    exact F.refl _
  · refine F.trans ?_ (State.raise_kept F _ _ _ _ _)
    unfold y300_0
    refine F.trans ?_ (State.updModule_kept F _ _ _)
    exact F.refl _

theorem trainingFailed_kept (s : State) (x1) : R s (trainingFailed s x1) := by
  unfold trainingFailed
  extract_lets; rename_i y300_0 y300_1
  refine F.ite ?_ ?_
  · refine F.trans ?_ (moduleEnter_kept F _ _ _)
    refine F.trans ?_ (State.updModule_kept F _ _ _)
    unfold y300_1
    refine F.trans ?_ (State.updModule_kept F _ _ _)
    exact F.refl _
  · unfold y300_1
    refine F.trans ?_ (State.updModule_kept F _ _ _)
    exact F.refl _

theorem trainingEnds_kept (s : State) (x1) (x2) (x3) : R s (trainingEnds s x1 x2 x3) := by
  unfold trainingEnds
  split
  · refine F.trans ?_ (moduleEnter_kept F _ _ _)
    refine F.trans ?_ (moduleRepaired_kept F _ _ _)
    exact F.refl _
  · refine F.trans ?_ (State.raise_kept F _ _ _ _ _)
    refine F.trans ?_ (moduleEnter_kept F _ _ _)
    refine F.trans ?_ (moduleRepaired_kept F _ _ _)
    exact F.refl _
  · refine F.trans ?_ (trainingFailed_kept F _ _)
    exact F.refl _
  · refine F.trans ?_ (moduleEnter_kept F _ _ _)
    exact F.refl _

theorem execModuleTrainDone_kept (x0) (x1) (x2) (s : State) : Keeps R s (execModuleTrainDone x0 x1 x2 s) := by
  unfold execModuleTrainDone
  refine F.kTrans ?_ (onModule_kept F _ _)
  refine F.ite ?_ ?_
  · refine F.trans ?_ (trainingEnds_kept F _ _ _ _)
    exact F.refl _
  · exact F.refl _

theorem execModuleRetrain_kept (x0) (s : State) : Keeps R s (execModuleRetrain x0 s) := by
  unfold execModuleRetrain
  refine F.kTrans ?_ (onModule_kept F _ _)
  split
  · refine F.trans ?_ (moduleEnter_kept F _ _ _)
    exact F.refl _
  · refine F.trans ?_ (moduleEnter_kept F _ _ _)
    exact F.refl _
  · exact F.refl _

theorem execModuleRetrainDone_kept (x0) (x1) (x2) (s : State) : Keeps R s (execModuleRetrainDone x0 x1 x2 s) := by
  unfold execModuleRetrainDone
  refine F.kTrans ?_ (onModule_kept F _ _)
  refine F.ite ?_ ?_
  · refine F.trans ?_ (trainingEnds_kept F _ _ _ _)
    exact F.refl _
  · exact F.refl _

theorem execModuleRetrainTimeout_kept (x0) (s : State) : Keeps R s (execModuleRetrainTimeout x0 s) := by
  unfold execModuleRetrainTimeout
  refine F.kTrans ?_ (onModule_kept F _ _)
  refine F.ite ?_ ?_
  · refine F.trans ?_ (moduleEnter_kept F _ _ _)
    exact F.refl _
  · exact F.refl _

theorem execModuleFailedRetry_kept (x0) (s : State) : Keeps R s (execModuleFailedRetry x0 s) := by
  unfold execModuleFailedRetry
  refine F.kTrans ?_ (onModule_kept F _ _)
  refine F.ite ?_ ?_
  · refine F.trans ?_ (moduleEnter_kept F _ _ _)
    exact F.refl _
  · exact F.refl _

theorem execAttachModuleEnableWrite_kept (x0) (x1) (s : State) : Keeps R s (execAttachModuleEnableWrite x0 x1 s) := by
  unfold execAttachModuleEnableWrite
  refine F.kIte ?_ ?_
  · exact F.kFault _ _
  · refine F.kTrans ?_ (judged_kept F _ _ _ ?_)
    · exact F.refl _
    · refine F.trans ?_ (State.persists_kept F _ _ _)
      refine F.trans ?_ (applyModuleEnable_kept F _ _ _)
      exact F.refl _

theorem execSnoopReceive_kept (x0) (x1) (s : State) : Keeps R s (execSnoopReceive x0 x1 s) := by
  unfold execSnoopReceive
  refine F.kIte ?_ ?_
  · refine F.kNext ?_
    exact F.refl _
  · extract_lets; rename_i y299_0 y299_1 y299_2
    refine F.kNext ?_
    split
    · unfold y299_2
      refine F.ite ?_ ?_
      · refine F.trans ?_ (State.count_kept F _ _ _ _)
        unfold y299_1
        refine F.trans ?_ (State.count_kept F _ _ _ _)
        exact F.refl _
      · unfold y299_1
        refine F.trans ?_ (State.count_kept F _ _ _ _)
        exact F.refl _
    · refine F.trans ?_ (State.updHost_kept F _ _)
      unfold y299_2
      refine F.ite ?_ ?_
      · refine F.trans ?_ (State.count_kept F _ _ _ _)
        unfold y299_1
        refine F.trans ?_ (State.count_kept F _ _ _ _)
        exact F.refl _
      · unfold y299_1
        refine F.trans ?_ (State.count_kept F _ _ _ _)
        exact F.refl _
    · refine F.forEach (fun t a => ?_) ?_
      · refine F.trans ?_ (readWatch_kept F _ _)
        refine F.trans ?_ (State.count_kept F _ _ _ _)
        exact F.refl _
      · refine F.trans ?_ (State.updHost_kept F _ _)
        unfold y299_2
        refine F.ite ?_ ?_
        · refine F.trans ?_ (State.count_kept F _ _ _ _)
          unfold y299_1
          refine F.trans ?_ (State.count_kept F _ _ _ _)
          exact F.refl _
        · unfold y299_1
          refine F.trans ?_ (State.count_kept F _ _ _ _)
          exact F.refl _

theorem execWatchRefetchDone_kept (x0) (x1) (x2) (s : State) : Keeps R s (execWatchRefetchDone x0 x1 x2 s) := by
  unfold execWatchRefetchDone
  split
  · extract_lets; rename_i y299_0
    refine F.kNext ?_
    refine F.ite ?_ ?_
    · unfold y299_0
      refine F.trans ?_ (State.updHost_kept F _ _)
      exact F.refl _
    · refine F.ite ?_ ?_
      · refine F.trans ?_ (queueError_kept F _ _ _)
        unfold y299_0
        refine F.trans ?_ (State.updHost_kept F _ _)
        exact F.refl _
      · refine F.trans ?_ (doorbell_kept F _ _ _)
        unfold y299_0
        refine F.trans ?_ (State.updHost_kept F _ _)
        exact F.refl _
  · refine F.kNext ?_
    exact F.refl _

theorem gatherPiece_kept (s : State) (x1) (x2) (x3) (x4) : R s (gatherPiece s x1 x2 x3 x4) := by
  unfold gatherPiece
  split
  · exact F.refl _
  · extract_lets; rename_i y299_0
    refine F.ite ?_ ?_
    · refine F.trans ?_ (deliverRead_kept F _ _ _ _)
      refine F.trans ?_ (State.updHost_kept F _ _)
      exact F.refl _
    · refine F.trans ?_ (State.updHost_kept F _ _)
      exact F.refl _

theorem execHostReadComplete_kept (x0) (x1) (x2) (s : State) : Keeps R s (execHostReadComplete x0 x1 x2 s) := by
  unfold execHostReadComplete
  split
  · refine F.kNext ?_
    exact F.refl _
  · extract_lets; rename_i y299_0
    split
    · refine F.kNext ?_
      exact F.refl _
    · refine F.kNext ?_
      exact F.refl _
    · refine F.kNext ?_
      refine F.trans ?_ (gatherPiece_kept F _ _ _ _ _)
      refine F.trans ?_ (endRead_kept F _ _)
      exact F.refl _
    · refine F.kNext ?_
      refine F.trans ?_ (deliverRead_kept F _ _ _ _)
      refine F.trans ?_ (endRead_kept F _ _)
      exact F.refl _

theorem respObserved_kept (s : State) (x1) : R s (respObserved s x1) := by
  unfold respObserved
  extract_lets; rename_i y300_0
  refine F.forEach (fun t a => ?_) ?_
  · refine F.trans ?_ (arrivalsDue_kept F _ _)
    refine F.trans ?_ (State.updResp_kept F _ _ _)
    exact F.refl _
  · exact F.refl _

theorem runDeferred_kept (s : State) (x1) : R s (runDeferred s x1) := by
  unfold runDeferred
  split
  · refine F.trans ?_ (ringVector_kept F _ _)
    exact F.refl _
  · refine F.trans ?_ (evSendVector_kept F _ _)
    exact F.refl _
  · refine F.trans ?_ (writeOwed_kept F _ _ _)
    exact F.refl _
  · refine F.trans ?_ (freeSlot_kept F _ _ _)
    exact F.refl _
  · exact F.refl _

theorem writeObserved_kept (s : State) (x1) : R s (writeObserved s x1) := by
  unfold writeObserved
  extract_lets; rename_i y300_0 y300_1 y300_2 y300_3 y300_4 y300_5 y300_6
  refine F.ite ?_ ?_
  · refine F.trans ?_ (resumeAll_kept F _)
    refine F.trans ?_ (adObserved_kept F _ _)
    unfold y300_6
    refine F.trans ?_ (respObserved_kept F _ _)
    refine F.forEach (fun t a => ?_) ?_
    · refine F.trans ?_ (runDeferred_kept F _ _)
      exact F.refl _
    · unfold y300_5
      refine F.trans ?_ (State.updHost_kept F _ _)
      unfold y300_2
      refine F.forEach (fun t a => ?_) ?_
      · refine F.trans ?_ (flushQueue_kept F _ _)
        refine F.trans ?_ (State.updQueue_kept F _ _ _)
        exact F.refl _
      · unfold y300_0
        refine F.trans ?_ (State.updHost_kept F _ _)
        exact F.refl _
  · unfold y300_6
    refine F.trans ?_ (respObserved_kept F _ _)
    refine F.forEach (fun t a => ?_) ?_
    · refine F.trans ?_ (runDeferred_kept F _ _)
      exact F.refl _
    · unfold y300_5
      refine F.trans ?_ (State.updHost_kept F _ _)
      unfold y300_2
      refine F.forEach (fun t a => ?_) ?_
      · refine F.trans ?_ (flushQueue_kept F _ _)
        refine F.trans ?_ (State.updQueue_kept F _ _ _)
        exact F.refl _
      · unfold y300_0
        refine F.trans ?_ (State.updHost_kept F _ _)
        exact F.refl _

theorem execHostWriteObserved_kept (x0) (s : State) : Keeps R s (execHostWriteObserved x0 s) := by
  unfold execHostWriteObserved
  refine F.kIte ?_ ?_
  · refine F.kNext ?_
    refine F.trans ?_ (writeObserved_kept F _ _)
    exact F.refl _
  · refine F.kNext ?_
    exact F.refl _

theorem requestReset_kept (s : State) (x1) : R s (requestReset s x1) := by
  unfold requestReset
  refine F.ite ?_ ?_
  · exact F.refl _
  · refine F.trans ?_ (State.updHost_kept F _ _)
    exact F.refl _

theorem execFunctionResetRequest_kept (x0) (s : State) : Keeps R s (execFunctionResetRequest x0 s) := by
  unfold execFunctionResetRequest
  refine F.kIte ?_ ?_
  · exact F.kFault _ _
  · refine F.kIte ?_ ?_
    · refine F.kNext ?_
      exact F.refl _
    · refine F.kNext ?_
      refine F.trans ?_ (requestReset_kept F _ _)
      exact F.refl _

theorem execFunctionResetComplete_kept (x0) (s : State) : Keeps R s (execFunctionResetComplete x0 s) := by
  unfold execFunctionResetComplete
  refine F.kIte ?_ ?_
  · exact F.kFault _ _
  · refine F.kNext ?_
    split
    · refine F.ite ?_ ?_
      · refine F.trans ?_ (State.event_kept F _ _ _ _)
        refine F.trans ?_ (State.updHost_kept F _ _)
        refine F.trans ?_ (endFunctions_kept F _ _)
        exact F.refl _
      · exact F.refl _
    · exact F.refl _

theorem execFunctionResetSlow_kept (x0) (s : State) : Keeps R s (execFunctionResetSlow x0 s) := by
  unfold execFunctionResetSlow
  refine F.kIte ?_ ?_
  · exact F.kFault _ _
  · refine F.kNext ?_
    split
    · refine F.ite ?_ ?_
      · refine F.trans ?_ (State.updHost_kept F _ _)
        refine F.trans ?_ (State.raise_kept F _ _ _ _ _)
        exact F.refl _
      · exact F.refl _
    · exact F.refl _

theorem execVfEnableWrite_kept (x0) (x1) (s : State) : Keeps R s (execVfEnableWrite x0 x1 s) := by
  unfold execVfEnableWrite
  refine F.kIte ?_ ?_
  · refine F.kNext ?_
    exact F.refl _
  · refine F.kIte ?_ ?_
    · refine F.kNext ?_
      refine F.ite ?_ ?_
      · exact F.refl _
      · refine F.trans ?_ (State.updHost_kept F _ _)
        exact F.refl _
    · refine F.kIte ?_ ?_
      · refine F.kNext ?_
        refine F.trans ?_ (State.updHost_kept F _ _)
        refine F.forEach (fun t a => ?_) ?_
        · refine F.trans ?_ (requestReset_kept F _ _)
          exact F.refl _
        · exact F.refl _
      · refine F.kNext ?_
        exact F.refl _

theorem execMmioWrite_kept (x0) (x1) (x2) (x3) (s : State) : Keeps R s (execMmioWrite x0 x1 x2 x3 s) := by
  unfold execMmioWrite
  refine F.kTrans ?_ (mmio_kept F _ _ _ ?_)
  · exact F.refl _
  · refine F.trans ?_ (barWrite_kept F _ _ _ _ _)
    exact F.refl _

theorem execStoreGive_kept (s : State) : Keeps R s (execStoreGive s) := by
  unfold execStoreGive
  refine F.kTrans ?_ (judged_kept F _ _ _ ?_)
  · exact F.refl _
  · refine F.trans ?_ (applyGive_kept F _)
    exact F.refl _

theorem execStoreReturn_kept (s : State) : Keeps R s (execStoreReturn s) := by
  unfold execStoreReturn
  refine F.kTrans ?_ (judged_kept F _ _ _ ?_)
  · exact F.refl _
  · refine F.trans ?_ (storeEnters_kept F _ _)
    exact F.refl _

theorem execStoreReturnDone_kept (s : State) : Keeps R s (execStoreReturnDone s) := by
  unfold execStoreReturnDone
  refine F.kNext ?_
  refine F.ite ?_ ?_
  · refine F.trans ?_ (storeEnters_kept F _ _)
    exact F.refl _
  · exact F.refl _

theorem execHostDieReset_kept (s : State) : Keeps R s (execHostDieReset s) := by
  unfold execHostDieReset
  refine F.kNext ?_
  refine F.ite ?_ ?_
  · exact F.refl _
  · refine F.trans ?_ (State.updHost_kept F _ _)
    exact F.refl _

theorem execClaimRead_kept (x0) (s : State) : Keeps R s (execClaimRead x0 s) := by
  unfold execClaimRead
  refine F.kIte ?_ ?_
  · exact F.kFault _ _
  · extract_lets; rename_i y299_0 y299_1
    refine F.kIte ?_ ?_
    · refine F.kNext ?_
      refine F.ite ?_ ?_
      · exact F.refl _
      · unfold y299_1
        refine F.trans ?_ (State.emit_kept F _ _)
        unfold y299_0
        refine F.trans ?_ (claimRead_kept F _ _)
        exact F.refl _
    · refine F.kIte ?_ ?_
      · refine F.kNext ?_
        refine F.trans ?_ (State.emit_kept F _ _)
        refine F.trans ?_ (dormantAccess_kept F _ _)
        exact F.refl _
      · refine F.kTrans ?_ (mmio_kept F _ _ _ ?_)
        · exact F.refl _
        · unfold y299_1
          refine F.trans ?_ (State.emit_kept F _ _)
          unfold y299_0
          refine F.trans ?_ (claimRead_kept F _ _)
          exact F.refl _

theorem execClaimComplete_kept (x0) (x1) (s : State) : Keeps R s (execClaimComplete x0 x1 s) := by
  unfold execClaimComplete
  refine F.kIte ?_ ?_
  · exact F.kFault _ _
  · refine F.kTrans ?_ (byTarget_kept F _ _ _ ?_)
    · exact F.refl _
    · refine F.trans ?_ (claimComplete_kept F _ _ _)
      exact F.refl _

theorem execClaimPendset_kept (x0) (x1) (s : State) : Keeps R s (execClaimPendset x0 x1 s) := by
  unfold execClaimPendset
  refine F.kIte ?_ ?_
  · exact F.kFault _ _
  · refine F.kTrans ?_ (byTarget_kept F _ _ _ ?_)
    · exact F.refl _
    · refine F.trans ?_ (claimPend_kept F _ _)
      exact F.refl _

theorem presentAll_kept (s : State) : R s (presentAll s) := by
  unfold presentAll
  refine F.forEach (fun t a => ?_) ?_
  · refine F.trans ?_ (signalTarget_kept F _ _)
    exact F.refl _
  · refine F.forEach (fun t a => ?_) ?_
    · refine F.trans ?_ (State.updClaim_kept F _ _)
      exact F.refl _
    · exact F.refl _

theorem execClaimPresent_kept (s : State) : Keeps R s (execClaimPresent s) := by
  unfold execClaimPresent
  refine F.kNext ?_
  refine F.trans ?_ (presentAll_kept F _)
  exact F.refl _

theorem execWqProducerDoorbell_kept (x0) (x1) (x2) (s : State) : Keeps R s (execWqProducerDoorbell x0 x1 x2 s) := by
  unfold execWqProducerDoorbell
  refine F.kTrans ?_ (onQueue_kept F _ _ _ _ ?_)
  · exact F.refl _
  · intros
    refine F.trans ?_ (doorbell_kept F _ _ _)
    exact F.refl _

theorem execWqInvalidate_kept (x0) (x1) (s : State) : Keeps R s (execWqInvalidate x0 x1 s) := by
  unfold execWqInvalidate
  refine F.kTrans ?_ (onQueue_kept F _ _ _ _ ?_)
  · exact F.refl _
  · intros
    refine F.trans ?_ (invalidateQueue_kept F _ _)
    exact F.refl _

theorem execCrConsumerWrite_kept (x0) (x1) (x2) (s : State) : Keeps R s (execCrConsumerWrite x0 x1 x2 s) := by
  unfold execCrConsumerWrite
  refine F.kTrans ?_ (onQueue_kept F _ _ _ _ ?_)
  · exact F.refl _
  · intros
    refine F.trans ?_ (consumerWrite_kept F _ _ _)
    exact F.refl _

theorem execCrArm_kept (x0) (x1) (x2) (s : State) : Keeps R s (execCrArm x0 x1 x2 s) := by
  unfold execCrArm
  refine F.kTrans ?_ (onQueue_kept F _ _ _ _ ?_)
  · exact F.refl _
  · intros
    refine F.trans ?_ (armRing_kept F _ _ _)
    exact F.refl _

theorem execQEnableCheck_kept (x0) (s : State) : Keeps R s (execQEnableCheck x0 s) := by
  unfold execQEnableCheck
  refine F.kIte ?_ ?_
  · exact F.kFault _ _
  · refine F.kIte ?_ ?_
    · extract_lets; rename_i y298_0
      refine F.kNext ?_
      refine F.ite ?_ ?_
      · refine F.trans ?_ (enableNow_kept F _ _)
        unfold y298_0
        refine F.trans ?_ (State.updQueue_kept F _ _ _)
        exact F.refl _
      · unfold y298_0
        refine F.trans ?_ (State.updQueue_kept F _ _ _)
        exact F.refl _
    · refine F.kNext ?_
      exact F.refl _

theorem execQConfigWrite_kept (x0) (x1) (x2) (x3) (s : State) : Keeps R s (execQConfigWrite x0 x1 x2 x3 s) := by
  unfold execQConfigWrite
  refine F.kTrans ?_ (onQueue_kept F _ _ _ _ ?_)
  · exact F.refl _
  · intros
    refine F.ite ?_ ?_
    · refine F.trans ?_ (configWrite_kept F _ _ _ _ _)
      exact F.refl _
    · refine F.trans ?_ (mmioRefused_kept F _ _)
      exact F.refl _

theorem execEntryConsume_kept (x0) (s : State) : Keeps R s (execEntryConsume x0 s) := by
  unfold execEntryConsume
  refine F.kIte ?_ ?_
  · exact F.kFault _ _
  · extract_lets; rename_i y299_0 y299_1 y299_2
    refine F.kIte ?_ ?_
    · refine F.kNext ?_
      unfold y299_1
      refine F.trans ?_ (noteStage_kept F _ _)
      exact F.refl _
    · refine F.kIte ?_ ?_
      · refine F.kNext ?_
        split
        · refine F.ite ?_ ?_
          · unfold y299_2
            refine F.trans ?_ (checkedHead_kept F _ _)
            refine F.trans ?_ (served_kept F _ _)
            unfold y299_1
            refine F.trans ?_ (noteStage_kept F _ _)
            exact F.refl _
          · refine F.trans ?_ (consume_kept F _ _ _ _)
            unfold y299_2
            refine F.trans ?_ (checkedHead_kept F _ _)
            refine F.trans ?_ (served_kept F _ _)
            unfold y299_1
            refine F.trans ?_ (noteStage_kept F _ _)
            exact F.refl _
        · unfold y299_2
          refine F.trans ?_ (checkedHead_kept F _ _)
          refine F.trans ?_ (served_kept F _ _)
          unfold y299_1
          refine F.trans ?_ (noteStage_kept F _ _)
          exact F.refl _
      · refine F.kNext ?_
        unfold y299_1
        refine F.trans ?_ (noteStage_kept F _ _)
        exact F.refl _

theorem execPhaseRetry_kept (x0) (s : State) : Keeps R s (execPhaseRetry x0 s) := by
  unfold execPhaseRetry
  extract_lets; rename_i y300_0
  refine F.kIte ?_ ?_
  · exact F.kFault _ _
  · refine F.kIte ?_ ?_
    · refine F.kNext ?_
      refine F.trans ?_ (fetchQueue_kept F _ _)
      refine F.trans ?_ (State.updQueue_kept F _ _ _)
      exact F.refl _
    · refine F.kNext ?_
      exact F.refl _

theorem execCrFullLimit_kept (x0) (s : State) : Keeps R s (execCrFullLimit x0 s) := by
  unfold execCrFullLimit
  refine F.kIte ?_ ?_
  · exact F.kFault _ _
  · split
    · refine F.kNext ?_
      refine F.ite ?_ ?_
      · refine F.trans ?_ (State.event_kept F _ _ _ _)
        refine F.forEach (fun t a => ?_) ?_
        · refine F.trans ?_ (queueError_kept F _ _ _)
          exact F.refl _
        · exact F.refl _
      · exact F.refl _
    · refine F.kNext ?_
      exact F.refl _

theorem startEntry_kept (s : State) (g kind : Nat) (opcs : List Nat) (f : State → Entry → State × Bool) (h : ∀ t e, R t (f t e).1) :
    Keeps R s (startEntry s g kind opcs f) := F.kIte (F.kFault _ _) (F.kNext (startWith_kept F _ _ _ _ _ h))

theorem execNop_kept (x0) (s : State) : Keeps R s (execNop x0 s) := by
  unfold execNop
  refine F.kTrans ?_ (startEntry_kept F _ _ _ _ _ ?_)
  · exact F.refl _
  · intros
    refine F.trans ?_ (atOnce_kept F _ _ _ ?_)
    · exact F.refl _
    · intros
      refine F.trans ?_ (finishEntry_kept F _ _ _ _ _ _)
      exact F.refl _

theorem execPut_kept (x0) (s : State) : Keeps R s (execPut x0 s) := by
  unfold execPut
  refine F.kTrans ?_ (startEntry_kept F _ _ _ _ _ ?_)
  · exact F.refl _
  · intros
    refine F.trans ?_ (startPut_kept F _ _)
    exact F.refl _

theorem execGet_kept (x0) (s : State) : Keeps R s (execGet x0 s) := by
  unfold execGet
  refine F.kTrans ?_ (startEntry_kept F _ _ _ _ _ ?_)
  · exact F.refl _
  · intros
    refine F.trans ?_ (startGetEntry_kept F _ _)
    exact F.refl _

theorem execSend_kept (x0) (s : State) : Keeps R s (execSend x0 s) := by
  unfold execSend
  refine F.kTrans ?_ (startEntry_kept F _ _ _ _ _ ?_)
  · exact F.refl _
  · intros
    refine F.trans ?_ (startSend_kept F _ _)
    exact F.refl _

theorem startAtomic_kept (s : State) (x1) : R s (startAtomic s x1).1 := by
  unfold startAtomic
  refine F.pair ?_
  refine F.trans ?_ (submit_kept F _ _ _)
  exact F.refl _

theorem execAtomic_kept (x0) (s : State) : Keeps R s (execAtomic x0 s) := by
  unfold execAtomic
  refine F.kTrans ?_ (startEntry_kept F _ _ _ _ _ ?_)
  · exact F.refl _
  · intros
    refine F.trans ?_ (startAtomic_kept F _ _)
    exact F.refl _

theorem execFetchAtomic_kept (x0) (s : State) : Keeps R s (execFetchAtomic x0 s) := by
  unfold execFetchAtomic
  refine F.kTrans ?_ (startEntry_kept F _ _ _ _ _ ?_)
  · exact F.refl _
  · intros
    refine F.trans ?_ (startAtomic_kept F _ _)
    exact F.refl _

theorem execAtomic128_kept (x0) (s : State) : Keeps R s (execAtomic128 x0 s) := by
  unfold execAtomic128
  refine F.kTrans ?_ (startEntry_kept F _ _ _ _ _ ?_)
  · exact F.refl _
  · intros
    refine F.trans ?_ (startAtomic_kept F _ _)
    exact F.refl _

theorem execFetchAtomic128_kept (x0) (s : State) : Keeps R s (execFetchAtomic128 x0 s) := by
  unfold execFetchAtomic128
  refine F.kTrans ?_ (startEntry_kept F _ _ _ _ _ ?_)
  · exact F.refl _
  · intros
    refine F.trans ?_ (startAtomic_kept F _ _)
    exact F.refl _

theorem execFence_kept (x0) (s : State) : Keeps R s (execFence x0 s) := by
  unfold execFence
  refine F.kTrans ?_ (startEntry_kept F _ _ _ _ _ ?_)
  · exact F.refl _
  · intros
    refine F.trans ?_ (atOnce_kept F _ _ _ ?_)
    · exact F.refl _
    · intros
      refine F.trans ?_ (flushQueue_kept F _ _)
      exact F.refl _

theorem execSegRevoke_kept (x0) (s : State) : Keeps R s (execSegRevoke x0 s) := by
  unfold execSegRevoke
  refine F.kTrans ?_ (startEntry_kept F _ _ _ _ _ ?_)
  · exact F.refl _
  · intros
    refine F.trans ?_ (startSeg_kept F _ _ _)
    exact F.refl _

theorem revokeDone_kept (s : State) (x1) : R s (revokeDone s x1) := by
  unfold revokeDone
  extract_lets; rename_i y300_0 y300_1
  refine F.trans ?_ (State.event_kept F _ _ _ _)
  refine F.forEach (fun t a => ?_) ?_
  · refine F.trans ?_ (finishEntry_kept F _ _ _ _ _ _)
    exact F.refl _
  · unfold y300_1
    refine F.trans ?_ (State.updTrans_kept F _ _)
    refine F.trans ?_ (segFree_kept F _ _)
    exact F.refl _

theorem execRevokeDrainDone_kept (x0) (s : State) : Keeps R s (execRevokeDrainDone x0 s) := by
  unfold execRevokeDrainDone
  refine F.kNext ?_
  refine F.ite ?_ ?_
  · refine F.trans ?_ (revokeDone_kept F _ _)
    exact F.refl _
  · exact F.refl _

theorem execRevokeSlow_kept (x0) (s : State) : Keeps R s (execRevokeSlow x0 s) := by
  unfold execRevokeSlow
  refine F.kIte ?_ ?_
  · refine F.kNext ?_
    refine F.trans ?_ (State.event_kept F _ _ _ _)
    refine F.trans ?_ (State.raise_kept F _ _ _ _ _)
    refine F.trans ?_ (State.updTrans_kept F _ _)
    exact F.refl _
  · refine F.kNext ?_
    exact F.refl _

theorem startPeerClose_kept (s : State) (x1) : R s (startPeerClose s x1) := by
  unfold startPeerClose
  extract_lets; rename_i y300_0 y300_1 y300_2
  split
  · refine F.trans ?_ (finishEntry_kept F _ _ _ _ _ _)
    exact F.refl _
  · refine F.trans ?_ (finishEntry_kept F _ _ _ _ _ _)
    exact F.refl _
  · refine F.ite ?_ ?_
    · unfold y300_2
      refine F.trans ?_ (State.updReq_kept F _ _ _)
      exact F.refl _
    · refine F.trans ?_ (closeCtx_kept F _ _)
      unfold y300_2
      refine F.trans ?_ (State.updReq_kept F _ _ _)
      exact F.refl _

theorem execPeerClose_kept (x0) (s : State) : Keeps R s (execPeerClose x0 s) := by
  unfold execPeerClose
  refine F.kTrans ?_ (startEntry_kept F _ _ _ _ _ ?_)
  · exact F.refl _
  · intros
    refine F.trans ?_ (atOnce_kept F _ _ _ ?_)
    · exact F.refl _
    · intros
      refine F.trans ?_ (startPeerClose_kept F _ _)
      exact F.refl _

theorem takeRma_kept (s : State) (hp : Nat) (mine : Packet → Bool) (f : State → Packet → State) (h : ∀ t p, R t (f t p)) : Keeps R s (takeRma s hp mine f) := by
  unfold takeRma
  refine F.kIte (F.kFault _ _) ?_
  split
  · refine F.kNext ?_
    split
    · exact F.after (h _ _) (takeDelivered_kept F _ _)
    · exact F.refl _
  · exact F.kNext (F.refl _)

theorem receiveNew_kept (s : State) (x1) : R s (receiveNew s x1) := by
  unfold receiveNew
  refine F.trans ?_ (receive_kept F _ _ _)
  exact F.refl _

theorem execPutReceive_kept (x0) (s : State) : Keeps R s (execPutReceive x0 s) := by
  unfold execPutReceive
  refine F.kTrans ?_ (takeRma_kept F _ _ _ _ ?_)
  · exact F.refl _
  · intros
    refine F.trans ?_ (receiveNew_kept F _ _)
    exact F.refl _

theorem execGetReceive_kept (x0) (s : State) : Keeps R s (execGetReceive x0 s) := by
  unfold execGetReceive
  refine F.kTrans ?_ (takeRma_kept F _ _ _ _ ?_)
  · exact F.refl _
  · intros
    refine F.trans ?_ (receiveNew_kept F _ _)
    exact F.refl _

theorem execAtomicReceive_kept (x0) (s : State) : Keeps R s (execAtomicReceive x0 s) := by
  unfold execAtomicReceive
  refine F.kTrans ?_ (takeRma_kept F _ _ _ _ ?_)
  · exact F.refl _
  · intros
    refine F.trans ?_ (receiveNew_kept F _ _)
    exact F.refl _

theorem execFetchAtomicReceive_kept (x0) (s : State) : Keeps R s (execFetchAtomicReceive x0 s) := by
  unfold execFetchAtomicReceive
  refine F.kTrans ?_ (takeRma_kept F _ _ _ _ ?_)
  · exact F.refl _
  · intros
    refine F.trans ?_ (receiveNew_kept F _ _)
    exact F.refl _

theorem execReleaseReceive_kept (x0) (s : State) : Keeps R s (execReleaseReceive x0 s) := by
  unfold execReleaseReceive
  refine F.kTrans ?_ (takeRma_kept F _ _ _ _ ?_)
  · exact F.refl _
  · intros
    refine F.trans ?_ (receiveNew_kept F _ _)
    exact F.refl _

theorem execAckReceive_kept (x0) (s : State) : Keeps R s (execAckReceive x0 s) := by
  unfold execAckReceive
  refine F.kTrans ?_ (takeRma_kept F _ _ _ _ ?_)
  · exact F.refl _
  · intros
    refine F.ite ?_ ?_
    · refine F.trans ?_ (ackIn_kept F _ _ _ ?_)
      · exact F.refl _
      · intros
        refine F.trans ?_ (ackFields_kept F _ _ _)
        exact F.refl _
    · refine F.trans ?_ (State.count_kept F _ _ _ _)
      exact F.refl _

theorem execAckErrorReceive_kept (x0) (s : State) : Keeps R s (execAckErrorReceive x0 s) := by
  unfold execAckErrorReceive
  refine F.kTrans ?_ (takeRma_kept F _ _ _ _ ?_)
  · exact F.refl _
  · intros
    refine F.trans ?_ (ackIn_kept F _ _ _ ?_)
    · exact F.refl _
    · intros
      refine F.trans ?_ (errorIn_kept F _ _ _)
      exact F.refl _

theorem execAckRetryLaterReceive_kept (x0) (s : State) : Keeps R s (execAckRetryLaterReceive x0 s) := by
  unfold execAckRetryLaterReceive
  refine F.kTrans ?_ (takeRma_kept F _ _ _ _ ?_)
  · exact F.refl _
  · intros
    refine F.trans ?_ (ackIn_kept F _ _ _ ?_)
    · exact F.refl _
    · intros
      refine F.trans ?_ (ackLater_kept F _ _ _)
      refine F.trans ?_ (ackFields_kept F _ _ _)
      exact F.refl _

theorem peerLost_kept (s : State) (x1) : R s (peerLost s x1) := by
  unfold peerLost
  refine F.trans ?_ (ctxFails_kept F _ _ _)
  refine F.trans ?_ (State.event_kept F _ _ _ _)
  refine F.trans ?_ (State.raise_kept F _ _ _ _ _)
  exact F.refl _

theorem execAckNoContextReceive_kept (x0) (s : State) : Keeps R s (execAckNoContextReceive x0 s) := by
  unfold execAckNoContextReceive
  refine F.kTrans ?_ (takeRma_kept F _ _ _ _ ?_)
  · exact F.refl _
  · intros
    refine F.trans ?_ (ackIn_kept F _ _ _ ?_)
    · exact F.refl _
    · intros
      refine F.trans ?_ (peerLost_kept F _ _)
      refine F.trans ?_ (ackFields_kept F _ _ _)
      exact F.refl _

theorem execAckCloseReceive_kept (x0) (s : State) : Keeps R s (execAckCloseReceive x0 s) := by
  unfold execAckCloseReceive
  refine F.kTrans ?_ (takeRma_kept F _ _ _ _ ?_)
  · exact F.refl _
  · intros
    extract_lets; rename_i y299_0
    refine F.ite ?_ ?_
    · refine F.trans ?_ (endResp_kept F _ _)
      exact F.refl _
    · refine F.trans ?_ (State.count_kept F _ _ _ _)
      exact F.refl _

theorem execAckResponsesReceive_kept (x0) (s : State) : Keeps R s (execAckResponsesReceive x0 s) := by
  unfold execAckResponsesReceive
  refine F.kTrans ?_ (takeRma_kept F _ _ _ _ ?_)
  · exact F.refl _
  · intros
    extract_lets; rename_i y299_0 y299_1 y299_2 y299_3
    refine F.ite ?_ ?_
    · refine F.ite ?_ ?_
      · refine F.trans ?_ (State.updRma_kept F _ _)
        unfold y299_3
        refine F.trans ?_ (State.updResp_kept F _ _ _)
        exact F.refl _
      · unfold y299_3
        refine F.trans ?_ (State.updResp_kept F _ _ _)
        exact F.refl _
    · refine F.trans ?_ (State.count_kept F _ _ _ _)
      exact F.refl _

theorem execGetRespReceive_kept (x0) (s : State) : Keeps R s (execGetRespReceive x0 s) := by
  unfold execGetRespReceive
  refine F.kTrans ?_ (takeRma_kept F _ _ _ _ ?_)
  · exact F.refl _
  · intros
    refine F.trans ?_ (responseIn_kept F _ _)
    exact F.refl _

theorem execAtomicRespReceive_kept (x0) (s : State) : Keeps R s (execAtomicRespReceive x0 s) := by
  unfold execAtomicRespReceive
  refine F.kTrans ?_ (takeRma_kept F _ _ _ _ ?_)
  · exact F.refl _
  · intros
    refine F.trans ?_ (responseIn_kept F _ _)
    exact F.refl _

theorem reaskGet_kept (s : State) (x1) (x2) : R s (reaskGet s x1 x2) := by
  unfold reaskGet
  extract_lets; rename_i y300_0
  refine F.trans ?_ (updPktOf_kept F _ _ _ _)
  unfold y300_0
  refine F.trans ?_ (updMsg_kept F _ _ _ _)
  exact F.refl _

theorem rtoExpires_kept (s : State) (x1) : R s (rtoExpires s x1) := by
  unfold rtoExpires
  extract_lets; rename_i y300_0 y300_1 y300_2 y300_3 y300_4 y300_5 y300_6 y300_7
  refine F.ite ?_ ?_
  · refine F.trans ?_ (ctxFails_kept F _ _ _)
    refine F.trans ?_ (State.event_kept F _ _ _ _)
    refine F.trans ?_ (State.raise_kept F _ _ _ _ _)
    exact F.refl _
  · refine F.trans ?_ (pump_kept F _ _)
    refine F.trans ?_ (dropDone_kept F _ _)
    refine F.ite ?_ ?_
    · unfold y300_7
      refine F.forEach (fun t a => ?_) ?_
      · refine F.trans ?_ (reaskGet_kept F _ _ _)
        exact F.refl _
      · unfold y300_6
        refine F.trans ?_ (State.updReq_kept F _ _ _)
        exact F.refl _
    · refine F.trans ?_ (State.count_kept F _ _ _ _)
      unfold y300_7
      refine F.forEach (fun t a => ?_) ?_
      · refine F.trans ?_ (reaskGet_kept F _ _ _)
        exact F.refl _
      · unfold y300_6
        refine F.trans ?_ (State.updReq_kept F _ _ _)
        exact F.refl _

theorem execRtoExpiry_kept (x0) (x1) (s : State) : Keeps R s (execRtoExpiry x0 x1 s) := by
  unfold execRtoExpiry
  extract_lets; rename_i y300_0 y300_1
  refine F.kNext ?_
  refine F.ite ?_ ?_
  · refine F.trans ?_ (rtoExpires_kept F _ _)
    exact F.refl _
  · exact F.refl _

theorem execBackoffExpiry_kept (x0) (x1) (s : State) : Keeps R s (execBackoffExpiry x0 x1 s) := by
  unfold execBackoffExpiry
  refine F.kNext ?_
  refine F.trans ?_ (backoffEnds_kept F _ _)
  exact F.refl _

theorem execAckDelayTimer_kept (x0) (x1) (x2) (s : State) : Keeps R s (execAckDelayTimer x0 x1 x2 s) := by
  unfold execAckDelayTimer
  extract_lets; rename_i y300_0
  refine F.kNext ?_
  refine F.ite ?_ ?_
  · refine F.ite ?_ ?_
    · refine F.trans ?_ (sendRespAck_kept F _ _)
      exact F.refl _
    · exact F.refl _
  · refine F.ite ?_ ?_
    · refine F.trans ?_ (ackContext_kept F _ _ _)
      exact F.refl _
    · exact F.refl _

theorem execPeerIdleExpiry_kept (x0) (x1) (s : State) : Keeps R s (execPeerIdleExpiry x0 x1 s) := by
  unfold execPeerIdleExpiry
  extract_lets; rename_i y300_0 y300_1 y300_2
  refine F.kNext ?_
  refine F.ite ?_ ?_
  · refine F.trans ?_ (closeCtx_kept F _ _)
    exact F.refl _
  · exact F.refl _

theorem execPeerClosingEnd_kept (x0) (x1) (s : State) : Keeps R s (execPeerClosingEnd x0 x1 s) := by
  unfold execPeerClosingEnd
  extract_lets; rename_i y300_0 y300_1
  refine F.kNext ?_
  refine F.ite ?_ ?_
  · refine F.trans ?_ (closingEnds_kept F _ _)
    exact F.refl _
  · exact F.refl _

theorem execRespCacheAgeOut_kept (s : State) : Keeps R s (execRespCacheAgeOut s) := by
  unfold execRespCacheAgeOut
  refine F.kNext ?_
  refine F.trans ?_ (State.updRma_kept F _ _)
  exact F.refl _

theorem ratePeriod_kept (s : State) (x1) : R s (ratePeriod s x1) := by
  unfold ratePeriod
  extract_lets; rename_i y300_0 y300_1 y300_2 y300_3 y300_4 y300_5
  refine F.ite ?_ ?_
  · refine F.trans ?_ (State.count_kept F _ _ _ _)
    unfold y300_5
    refine F.trans ?_ (State.updReq_kept F _ _ _)
    exact F.refl _
  · unfold y300_5
    refine F.trans ?_ (State.updReq_kept F _ _ _)
    exact F.refl _

theorem execRatePeriod_kept (x0) (x1) (s : State) : Keeps R s (execRatePeriod x0 x1 s) := by
  unfold execRatePeriod
  extract_lets; rename_i y300_0 y300_1
  refine F.kNext ?_
  refine F.ite ?_ ?_
  · refine F.trans ?_ (ratePeriod_kept F _ _)
    exact F.refl _
  · exact F.refl _

theorem execContextFetchDone_kept (x0) (x1) (x2) (x3) (s : State) : Keeps R s (execContextFetchDone x0 x1 x2 x3 s) := by
  unfold execContextFetchDone
  refine F.kNext ?_
  refine F.trans ?_ (contextFetched_kept F _ _ _ _ _)
  exact F.refl _

theorem execSegRegister_kept (x0) (s : State) : Keeps R s (execSegRegister x0 s) := by
  unfold execSegRegister
  refine F.kTrans ?_ (startEntry_kept F _ _ _ _ _ ?_)
  · exact F.refl _
  · intros
    refine F.trans ?_ (startSeg_kept F _ _ _)
    exact F.refl _

theorem execInvalRange_kept (x0) (s : State) : Keeps R s (execInvalRange x0 s) := by
  unfold execInvalRange
  refine F.kTrans ?_ (startEntry_kept F _ _ _ _ _ ?_)
  · exact F.refl _
  · intros
    refine F.trans ?_ (startSeg_kept F _ _ _)
    exact F.refl _

theorem execInvalSeg_kept (x0) (s : State) : Keeps R s (execInvalSeg x0 s) := by
  unfold execInvalSeg
  refine F.kTrans ?_ (startEntry_kept F _ _ _ _ _ ?_)
  · exact F.refl _
  · intros
    refine F.trans ?_ (startSeg_kept F _ _ _)
    exact F.refl _

theorem execInvalComplete_kept (x0) (s : State) : Keeps R s (execInvalComplete x0 s) := by
  unfold execInvalComplete
  refine F.kIte ?_ ?_
  · exact F.kFault _ _
  · split
    · refine F.kNext ?_
      refine F.ite ?_ ?_
      · refine F.trans ?_ (endDrain_kept F _ _)
        refine F.trans ?_ (State.count_kept F _ _ _ _)
        exact F.refl _
      · exact F.refl _
    · refine F.kNext ?_
      exact F.refl _

theorem execInvalSlow_kept (x0) (s : State) : Keeps R s (execInvalSlow x0 s) := by
  unfold execInvalSlow
  refine F.kIte ?_ ?_
  · exact F.kFault _ _
  · split
    · refine F.kNext ?_
      refine F.trans ?_ (State.event_kept F _ _ _ _)
      refine F.trans ?_ (State.raise_kept F _ _ _ _ _)
      refine F.trans ?_ (State.updTrans_kept F _ _)
      exact F.refl _
    · refine F.kNext ?_
      exact F.refl _

theorem execKgateSet_kept (x0) (s : State) : Keeps R s (execKgateSet x0 s) := by
  unfold execKgateSet
  refine F.kTrans ?_ (startEntry_kept F _ _ _ _ _ ?_)
  · exact F.refl _
  · intros
    refine F.trans ?_ (atOnce_kept F _ _ _ ?_)
    · exact F.refl _
    · intros
      refine F.trans ?_ (gateWrite_kept F _ _ _ _)
      exact F.refl _

theorem execKgateSync_kept (x0) (s : State) : Keeps R s (execKgateSync x0 s) := by
  unfold execKgateSync
  refine F.kTrans ?_ (startEntry_kept F _ _ _ _ _ ?_)
  · exact F.refl _
  · intros
    refine F.trans ?_ (atOnce_kept F _ _ _ ?_)
    · exact F.refl _
    · intros
      refine F.trans ?_ (addDrain_kept F _ _)
      exact F.refl _

theorem execKgateSyncComplete_kept (x0) (s : State) : Keeps R s (execKgateSyncComplete x0 s) := by
  unfold execKgateSyncComplete
  refine F.kIte ?_ ?_
  · exact F.kFault _ _
  · split
    · refine F.kNext ?_
      refine F.ite ?_ ?_
      · refine F.trans ?_ (endDrain_kept F _ _)
        exact F.refl _
      · exact F.refl _
    · refine F.kNext ?_
      exact F.refl _

theorem execRightsWordWrite_kept (x0) (x1) (x2) (s : State) : Keeps R s (execRightsWordWrite x0 x1 x2 s) := by
  unfold execRightsWordWrite
  extract_lets; rename_i y300_0 y300_1
  refine F.kTrans ?_ (mmio_kept F _ _ _ ?_)
  · exact F.refl _
  · refine F.ite ?_ ?_
    · refine F.forEach (fun t a => ?_) ?_
      · refine F.trans ?_ (gateWrite_kept F _ _ _ _)
        exact F.refl _
      · exact F.refl _
    · refine F.trans ?_ (mmioRefused_kept F _ _)
      exact F.refl _

theorem walkLeaf_kept (s : State) (x1) (x2) (x3) (x4) : R s (walkLeaf s x1 x2 x3 x4) := by
  unfold walkLeaf
  extract_lets; rename_i y300_0 y300_1
  refine F.ite ?_ ?_
  · refine F.trans ?_ (walkFault_kept F _ _ _ _)
    exact F.refl _
  · refine F.trans ?_ (walkEnds_kept F _ _ _)
    refine F.trans ?_ (State.updTrans_kept F _ _)
    exact F.refl _

theorem walkDescend_kept (s : State) (x1) (x2) : R s (walkDescend s x1 x2) := by
  unfold walkDescend
  extract_lets; rename_i y300_0 y300_1 y300_2
  refine F.trans ?_ (walkRead_kept F _ _ _)
  unfold y300_1
  refine F.trans ?_ (State.updTrans_kept F _ _)
  exact F.refl _

theorem walkReturn_kept (s : State) (x1) (x2) (x3) (x4) : R s (walkReturn s x1 x2 x3 x4) := by
  unfold walkReturn
  split
  · exact F.refl _
  · extract_lets; rename_i y299_0 y299_1 y299_2 y299_3
    refine F.trans ?_ (startWalks_kept F _ _)
    unfold y299_3
    refine F.ite ?_ ?_
    · refine F.trans ?_ (walkFault_kept F _ _ _ _)
      exact F.refl _
    · split
      · extract_lets; rename_i y294_0
        refine F.ite ?_ ?_
        · refine F.trans ?_ (walkLeaf_kept F _ _ _ _ _)
          exact F.refl _
        · refine F.trans ?_ (walkEnds_kept F _ _ _)
          exact F.refl _
      · refine F.ite ?_ ?_
        · refine F.trans ?_ (walkEnds_kept F _ _ _)
          exact F.refl _
        · refine F.ite ?_ ?_
          · refine F.trans ?_ (walkEnds_kept F _ _ _)
            exact F.refl _
          · refine F.ite ?_ ?_
            · refine F.trans ?_ (walkDescend_kept F _ _ _)
              exact F.refl _
            · refine F.ite ?_ ?_
              · refine F.trans ?_ (walkRead_kept F _ _ _)
                exact F.refl _
              · refine F.trans ?_ (walkLeaf_kept F _ _ _ _ _)
                exact F.refl _

theorem execWalkReadDone_kept (x0) (x1) (x2) (s : State) : Keeps R s (execWalkReadDone x0 x1 x2 s) := by
  unfold execWalkReadDone
  split
  · refine F.kNext ?_
    refine F.trans ?_ (resumeAll_kept F _)
    refine F.trans ?_ (walkReturn_kept F _ _ _ _ _)
    refine F.trans ?_ (endRead_kept F _ _)
    exact F.refl _
  · refine F.kNext ?_
    exact F.refl _

theorem walkTimeout_kept (s : State) (x1) (x2) (x3) : R s (walkTimeout s x1 x2 x3) := by
  unfold walkTimeout
  split
  · exact F.refl _
  · refine F.ite ?_ ?_
    · refine F.trans ?_ (startWalks_kept F _ _)
      refine F.trans ?_ (walkFault_kept F _ _ _ _)
      exact F.refl _
    · exact F.refl _

theorem execWalkTimeout_kept (x0) (s : State) : Keeps R s (execWalkTimeout x0 s) := by
  unfold execWalkTimeout
  split
  · refine F.kNext ?_
    refine F.trans ?_ (resumeAll_kept F _)
    refine F.trans ?_ (walkTimeout_kept F _ _ _ _)
    exact F.refl _
  · refine F.kNext ?_
    exact F.refl _

theorem execTransDeviceRegionWrite_kept (x0) (x1) (s : State) : Keeps R s (execTransDeviceRegionWrite x0 x1 s) := by
  unfold execTransDeviceRegionWrite
  refine F.kIte ?_ ?_
  · exact F.kFault _ _
  · refine F.kTrans ?_ (judged_kept F _ _ _ ?_)
    · exact F.refl _
    · refine F.trans ?_ (applyDeviceRegion_kept F _ _ _)
      exact F.refl _

theorem execRecvPost_kept (x0) (s : State) : Keeps R s (execRecvPost x0 s) := by
  unfold execRecvPost
  refine F.kTrans ?_ (startEntry_kept F _ _ _ _ _ ?_)
  · exact F.refl _
  · intros
    refine F.trans ?_ (recvPost_kept F _ _)
    exact F.refl _

theorem execRecvCancel_kept (x0) (s : State) : Keeps R s (execRecvCancel x0 s) := by
  unfold execRecvCancel
  refine F.kTrans ?_ (startEntry_kept F _ _ _ _ _ ?_)
  · exact F.refl _
  · intros
    refine F.trans ?_ (recvCancel_kept F _ _)
    exact F.refl _

theorem execProbe_kept (x0) (s : State) : Keeps R s (execProbe x0 s) := by
  unfold execProbe
  refine F.kTrans ?_ (startEntry_kept F _ _ _ _ _ ?_)
  · exact F.refl _
  · intros
    refine F.trans ?_ (probe_kept F _ _ _)
    exact F.refl _

theorem execMprobe_kept (x0) (s : State) : Keeps R s (execMprobe x0 s) := by
  unfold execMprobe
  refine F.kTrans ?_ (startEntry_kept F _ _ _ _ _ ?_)
  · exact F.refl _
  · intros
    refine F.trans ?_ (probe_kept F _ _ _)
    exact F.refl _

theorem execMrecv_kept (x0) (s : State) : Keeps R s (execMrecv x0 s) := by
  unfold execMrecv
  refine F.kTrans ?_ (startEntry_kept F _ _ _ _ _ ?_)
  · exact F.refl _
  · intros
    refine F.trans ?_ (mrecv_kept F _ _)
    exact F.refl _

theorem execSendEagerReceive_kept (x0) (s : State) : Keeps R s (execSendEagerReceive x0 s) := by
  unfold execSendEagerReceive
  refine F.kTrans ?_ (takeRma_kept F _ _ _ _ ?_)
  · exact F.refl _
  · intros
    refine F.trans ?_ (receiveNew_kept F _ _)
    exact F.refl _

theorem execSendRndvReceive_kept (x0) (s : State) : Keeps R s (execSendRndvReceive x0 s) := by
  unfold execSendRndvReceive
  refine F.kTrans ?_ (takeRma_kept F _ _ _ _ ?_)
  · exact F.refl _
  · intros
    refine F.trans ?_ (receiveNew_kept F _ _)
    exact F.refl _

theorem searchEnds_kept (s : State) (x1) (x2) (x3) : R s (searchEnds s x1 x2 x3) := by
  unfold searchEnds
  extract_lets; rename_i y300_0
  split
  · refine F.trans ?_ (receive_kept F _ _ _)
    unfold y300_0
    refine F.trans ?_ (State.updMep_kept F _ _ _)
    exact F.refl _
  · split
    · refine F.trans ?_ (retryStart_kept F _ _)
      unfold y300_0
      refine F.trans ?_ (State.updMep_kept F _ _ _)
      exact F.refl _
    · refine F.trans ?_ (leavePipe_kept F _ _)
      unfold y300_0
      refine F.trans ?_ (State.updMep_kept F _ _ _)
      exact F.refl _

theorem execSpillBatchRead_kept (x0) (x1) (s : State) : Keeps R s (execSpillBatchRead x0 x1 s) := by
  unfold execSpillBatchRead
  split
  · extract_lets; rename_i y299_0 y299_1
    refine F.kIte ?_ ?_
    · refine F.kNext ?_
      refine F.trans ?_ (searchLost_kept F _ _ _)
      refine F.trans ?_ (State.raise_kept F _ _ _ _ _)
      refine F.trans ?_ (State.raise_kept F _ _ _ _ _)
      unfold y299_0
      refine F.trans ?_ (State.count_kept F _ _ _ _)
      exact F.refl _
    · split
      · refine F.kNext ?_
        refine F.trans ?_ (searchEnds_kept F _ _ _ _)
        unfold y299_0
        refine F.trans ?_ (State.count_kept F _ _ _ _)
        exact F.refl _
      · refine F.kIte ?_ ?_
        · refine F.kNext ?_
          refine F.trans ?_ (searchEnds_kept F _ _ _ _)
          unfold y299_0
          refine F.trans ?_ (State.count_kept F _ _ _ _)
          exact F.refl _
        · refine F.kNext ?_
          refine F.trans ?_ (State.updMep_kept F _ _ _)
          unfold y299_0
          refine F.trans ?_ (State.count_kept F _ _ _ _)
          exact F.refl _
  · refine F.kNext ?_
    exact F.refl _

theorem execPoolCopy_kept (x0) (s : State) : Keeps R s (execPoolCopy x0 s) := by
  unfold execPoolCopy
  split
  · refine F.kNext ?_
    exact F.refl _
  · extract_lets; rename_i y299_0
    refine F.kIte ?_ ?_
    · refine F.kNext ?_
      refine F.trans ?_ (poolOver_kept F _ _)
      unfold y299_0
      refine F.trans ?_ (State.count_kept F _ _ _ _)
      refine F.trans ?_ (updRecv_kept F _ _ _)
      exact F.refl _
    · split
      · refine F.kNext ?_
        refine F.trans ?_ (poolOver_kept F _ _)
        unfold y299_0
        refine F.trans ?_ (State.count_kept F _ _ _ _)
        refine F.trans ?_ (updRecv_kept F _ _ _)
        exact F.refl _
      · extract_lets; rename_i y296_0
        refine F.kNext ?_
        refine F.ite ?_ ?_
        · unfold y296_0
          refine F.trans ?_ (hostRead_kept F _ _ _ _ _)
          unfold y299_0
          refine F.trans ?_ (State.count_kept F _ _ _ _)
          refine F.trans ?_ (updRecv_kept F _ _ _)
          exact F.refl _
        · refine F.trans ?_ (poolOver_kept F _ _)
          refine F.trans ?_ (updRecv_kept F _ _ _)
          unfold y296_0
          refine F.trans ?_ (hostRead_kept F _ _ _ _ _)
          unfold y299_0
          refine F.trans ?_ (State.count_kept F _ _ _ _)
          refine F.trans ?_ (updRecv_kept F _ _ _)
          exact F.refl _

theorem sendRelease_kept (s : State) (x1) (x2) : R s (sendRelease s x1 x2) := by
  unfold sendRelease
  extract_lets; rename_i y300_0
  refine F.trans ?_ (submit_kept F _ _ _)
  refine F.trans ?_ (State.count_kept F _ _ _ _)
  exact F.refl _

theorem execRndvGetsDone_kept (x0) (s : State) : Keeps R s (execRndvGetsDone x0 s) := by
  unfold execRndvGetsDone
  split
  · refine F.kNext ?_
    refine F.trans ?_ (sendRelease_kept F _ _ _)
    refine F.trans ?_ (recvDone_kept F _ _)
    exact F.refl _
  · refine F.kNext ?_
    exact F.refl _

theorem execRndvTimeout_kept (x0) (s : State) : Keeps R s (execRndvTimeout x0 s) := by
  unfold execRndvTimeout
  split
  · refine F.kNext ?_
    refine F.trans ?_ (rndvUnknown_kept F _ _ _)
    exact F.refl _
  · refine F.kNext ?_
    exact F.refl _

theorem execCollStart_kept (x0) (s : State) : Keeps R s (execCollStart x0 s) := by
  unfold execCollStart
  refine F.kTrans ?_ (startEntry_kept F _ _ _ _ _ ?_)
  · exact F.refl _
  · intros
    refine F.trans ?_ (collStart_kept F _ _)
    exact F.refl _

theorem execCollGroupOpen_kept (x0) (x1) (s : State) : Keeps R s (execCollGroupOpen x0 x1 s) := by
  unfold execCollGroupOpen
  refine F.kIte ?_ ?_
  · exact F.kFault _ _
  · refine F.kTrans ?_ (judged_kept F _ _ _ ?_)
    · exact F.refl _
    · refine F.trans ?_ (applyCollOpen_kept F _ _ _)
      exact F.refl _

theorem execCollGroupClose_kept (x0) (x1) (s : State) : Keeps R s (execCollGroupClose x0 x1 s) := by
  unfold execCollGroupClose
  refine F.kIte ?_ ?_
  · exact F.kFault _ _
  · refine F.kTrans ?_ (judged_kept F _ _ _ ?_)
    · exact F.refl _
    · refine F.trans ?_ (applyCollClose_kept F _ _ _)
      exact F.refl _

theorem execCpChunkArrive_kept (s : State) : Keeps R s (execCpChunkArrive s) := by
  unfold execCpChunkArrive
  split
  · refine F.kNext ?_
    exact F.refl _
  · refine F.kNext ?_
    refine F.trans ?_ (cpChunk_kept F _ _ _)
    refine F.trans ?_ (State.updLasts_kept F _ _)
    exact F.refl _

theorem noteVoid_kept (s : State) : R s (noteVoid s) := by
  unfold noteVoid
  refine F.trans ?_ (State.event_kept F _ _ _ _)
  refine F.trans ?_ (State.raise_kept F _ _ _ _ _)
  exact F.refl _

theorem memberResult_kept (s : State) (x1) (x2) (x3) : R s (memberResult s x1 x2 x3) := by
  unfold memberResult
  extract_lets; rename_i y300_0
  split
  · exact F.refl _
  · refine F.ite ?_ ?_
    · exact F.refl _
    · extract_lets; rename_i y297_0 y297_1 y297_2 y297_3 y297_4
      refine F.ite ?_ ?_
      · refine F.trans ?_ (readPiece_kept F _ _ _)
        unfold y297_4
        refine F.ite ?_ ?_
        · refine F.trans ?_ (writeResult_kept F _ _ _ _)
          unfold y297_2
          refine F.ite ?_ ?_
          · refine F.trans ?_ (noteVoid_kept F _)
            unfold y297_1
            refine F.trans ?_ (updOp_kept F _ _ _ _)
            refine F.trans ?_ (State.count_kept F _ _ _ _)
            exact F.refl _
          · unfold y297_1
            refine F.trans ?_ (updOp_kept F _ _ _ _)
            refine F.trans ?_ (State.count_kept F _ _ _ _)
            exact F.refl _
        · unfold y297_2
          refine F.ite ?_ ?_
          · refine F.trans ?_ (noteVoid_kept F _)
            unfold y297_1
            refine F.trans ?_ (updOp_kept F _ _ _ _)
            refine F.trans ?_ (State.count_kept F _ _ _ _)
            exact F.refl _
          · unfold y297_1
            refine F.trans ?_ (updOp_kept F _ _ _ _)
            refine F.trans ?_ (State.count_kept F _ _ _ _)
            exact F.refl _
      · refine F.trans ?_ (settleOp_kept F _ _ _)
        unfold y297_4
        refine F.ite ?_ ?_
        · refine F.trans ?_ (writeResult_kept F _ _ _ _)
          unfold y297_2
          refine F.ite ?_ ?_
          · refine F.trans ?_ (noteVoid_kept F _)
            unfold y297_1
            refine F.trans ?_ (updOp_kept F _ _ _ _)
            refine F.trans ?_ (State.count_kept F _ _ _ _)
            exact F.refl _
          · unfold y297_1
            refine F.trans ?_ (updOp_kept F _ _ _ _)
            refine F.trans ?_ (State.count_kept F _ _ _ _)
            exact F.refl _
        · unfold y297_2
          refine F.ite ?_ ?_
          · refine F.trans ?_ (noteVoid_kept F _)
            unfold y297_1
            refine F.trans ?_ (updOp_kept F _ _ _ _)
            refine F.trans ?_ (State.count_kept F _ _ _ _)
            exact F.refl _
          · unfold y297_1
            refine F.trans ?_ (updOp_kept F _ _ _ _)
            refine F.trans ?_ (State.count_kept F _ _ _ _)
            exact F.refl _

theorem sendDown_kept (s : State) (x1) (x2) : R s (sendDown s x1 x2) := by
  unfold sendDown
  extract_lets; rename_i y300_0 y300_1 y300_2 y300_3 y300_4 y300_5
  refine F.ite ?_ ?_
  · refine F.trans ?_ (collPump_kept F _ _)
    refine F.trans ?_ (memberResult_kept F _ _ _ _)
    unfold y300_5
    refine F.ite ?_ ?_
    · refine F.trans ?_ (State.raise_kept F _ _ _ _ _)
      unfold y300_4
      refine F.trans ?_ (State.updRow_kept F _ _ _)
      unfold y300_3
      refine F.trans ?_ (State.count_kept F _ _ _ _)
      refine F.trans ?_ (sendColl_kept F _ _ _ _ _)
      exact F.refl _
    · unfold y300_4
      refine F.trans ?_ (State.updRow_kept F _ _ _)
      unfold y300_3
      refine F.trans ?_ (State.count_kept F _ _ _ _)
      refine F.trans ?_ (sendColl_kept F _ _ _ _ _)
      exact F.refl _
  · unfold y300_5
    refine F.ite ?_ ?_
    · refine F.trans ?_ (State.raise_kept F _ _ _ _ _)
      unfold y300_4
      refine F.trans ?_ (State.updRow_kept F _ _ _)
      unfold y300_3
      refine F.trans ?_ (State.count_kept F _ _ _ _)
      refine F.trans ?_ (sendColl_kept F _ _ _ _ _)
      exact F.refl _
    · unfold y300_4
      refine F.trans ?_ (State.updRow_kept F _ _ _)
      unfold y300_3
      refine F.trans ?_ (State.count_kept F _ _ _ _)
      refine F.trans ?_ (sendColl_kept F _ _ _ _ _)
      exact F.refl _

theorem sendUp_kept (s : State) (x1) (x2) : R s (sendUp s x1 x2) := by
  unfold sendUp
  extract_lets; rename_i y300_0 y300_1 y300_2
  refine F.trans ?_ (State.updLast_kept F _ _ _)
  exact F.refl _

theorem execBlockCombineDone_kept (x0) (s : State) : Keeps R s (execBlockCombineDone x0 s) := by
  unfold execBlockCombineDone
  extract_lets; rename_i y300_0 y300_1
  refine F.kIte ?_ ?_
  · exact F.kFault _ _
  · split
    · refine F.kNext ?_
      exact F.refl _
    · refine F.kIte ?_ ?_
      · refine F.kNext ?_
        exact F.refl _
      · extract_lets; rename_i y296_0 y296_1 y296_2 y296_3
        refine F.kNext ?_
        refine F.ite ?_ ?_
        · refine F.trans ?_ (sendDown_kept F _ _ _)
          unfold y296_3
          refine F.ite ?_ ?_
          · unfold y296_2
            refine F.trans ?_ (State.count_kept F _ _ _ _)
            refine F.trans ?_ (State.updRow_kept F _ _ _)
            exact F.refl _
          · refine F.trans ?_ (State.count_kept F _ _ _ _)
            unfold y296_2
            refine F.trans ?_ (State.count_kept F _ _ _ _)
            refine F.trans ?_ (State.updRow_kept F _ _ _)
            exact F.refl _
        · refine F.trans ?_ (sendUp_kept F _ _ _)
          unfold y296_3
          refine F.ite ?_ ?_
          · unfold y296_2
            refine F.trans ?_ (State.count_kept F _ _ _ _)
            refine F.trans ?_ (State.updRow_kept F _ _ _)
            exact F.refl _
          · refine F.trans ?_ (State.count_kept F _ _ _ _)
            unfold y296_2
            refine F.trans ?_ (State.count_kept F _ _ _ _)
            refine F.trans ?_ (State.updRow_kept F _ _ _)
            exact F.refl _

theorem takeColl_kept (s : State) (opc : Nat) (f : State → Nat → CollHdr → List Byte → State) (h : ∀ t r x d, R t (f t r x d)) :
    Keeps R s (takeColl s opc f) := by
  unfold takeColl
  split
  · exact F.kNext (F.refl _)
  · refine F.kNext ?_
    split
    · exact F.after (h _ _ _ _) (takeDelivered_kept F _ _)
    · exact F.after (State.raise_kept F _ _ _ _ _) (F.after (State.count_kept F _ _ _ _) (takeDelivered_kept F _ _))

theorem execResultReceive_kept (s : State) : Keeps R s (execResultReceive s) := by
  unfold execResultReceive
  refine F.kTrans ?_ (takeColl_kept F _ _ _ ?_)
  · exact F.refl _
  · intros
    refine F.ite ?_ ?_
    · refine F.trans ?_ (collPump_kept F _ _)
      refine F.trans ?_ (memberResult_kept F _ _ _ _)
      exact F.refl _
    · exact F.refl _

theorem execPieceReceive_kept (s : State) : Keeps R s (execPieceReceive s) := by
  unfold execPieceReceive
  refine F.kTrans ?_ (takeColl_kept F _ _ _ ?_)
  · exact F.refl _
  · intros
    extract_lets; rename_i y299_0
    split
    · refine F.ite ?_ ?_
      · unfold y299_0
        refine F.trans ?_ (State.count_kept F _ _ _ _)
        exact F.refl _
      · refine F.trans ?_ (takePiece_kept F _ _ _ _ _)
        unfold y299_0
        refine F.trans ?_ (State.count_kept F _ _ _ _)
        exact F.refl _
    · unfold y299_0
      refine F.trans ?_ (State.count_kept F _ _ _ _)
      exact F.refl _

theorem execFloodReceive_kept (s : State) : Keeps R s (execFloodReceive s) := by
  unfold execFloodReceive
  refine F.kTrans ?_ (takeColl_kept F _ _ _ ?_)
  · exact F.refl _
  · intros
    refine F.trans ?_ (firstFlood_kept F _ _ _)
    exact F.refl _

theorem execRestartReceive_kept (s : State) : Keeps R s (execRestartReceive s) := by
  unfold execRestartReceive
  refine F.kTrans ?_ (takeColl_kept F _ _ _ ?_)
  · exact F.refl _
  · intros
    extract_lets; rename_i y299_0 y299_1
    refine F.ite ?_ ?_
    · exact F.refl _
    · refine F.trans ?_ (State.updRow_kept F _ _ _)
      exact F.refl _

theorem execFloodRepeat_kept (x0) (s : State) : Keeps R s (execFloodRepeat x0 s) := by
  unfold execFloodRepeat
  refine F.kIte ?_ ?_
  · exact F.kFault _ _
  · extract_lets; rename_i y299_0 y299_1 y299_2
    refine F.kNext ?_
    refine F.forEach (fun t a => ?_) ?_
    · refine F.trans ?_ (State.count_kept F _ _ _ _)
      refine F.trans ?_ (sendColl_kept F _ _ _ _ _)
      exact F.refl _
    · unfold y299_2
      refine F.trans ?_ (State.updRow_kept F _ _ _)
      exact F.refl _

theorem execRestartWaitTimeout_kept (x0) (s : State) : Keeps R s (execRestartWaitTimeout x0 s) := by
  unfold execRestartWaitTimeout
  extract_lets; rename_i y300_0
  refine F.kIte ?_ ?_
  · exact F.kFault _ _
  · refine F.kNext ?_
    refine F.ite ?_ ?_
    · refine F.trans ?_ (collDue_kept F _ _ _ _)
      refine F.trans ?_ (State.raise_kept F _ _ _ _ _)
      exact F.refl _
    · exact F.refl _

theorem execCollOpTimeout_kept (x0) (s : State) : Keeps R s (execCollOpTimeout x0 s) := by
  unfold execCollOpTimeout
  extract_lets; rename_i y300_0
  refine F.kIte ?_ ?_
  · exact F.kFault _ _
  · split
    · refine F.kNext ?_
      exact F.refl _
    · refine F.kIte ?_ ?_
      · refine F.kNext ?_
        refine F.trans ?_ (endOp_kept F _ _ _ _)
        refine F.trans ?_ (State.raise_kept F _ _ _ _ _)
        exact F.refl _
      · refine F.kNext ?_
        refine F.trans ?_ (collDue_kept F _ _ _ _)
        refine F.trans ?_ (State.event_kept F _ _ _ _)
        refine F.trans ?_ (endOp_kept F _ _ _ _)
        refine F.trans ?_ (State.raise_kept F _ _ _ _ _)
        exact F.refl _

theorem semRoute_kept (s : State) (x1) (x2) : R s (semRoute s x1 x2) := by
  unfold semRoute
  split
  · refine F.ite ?_ ?_
    · refine F.trans ?_ (stateAfter_kept F _ _ ?_)
      · exact F.refl _
      · refine F.kTrans ?_ (mmio_kept F _ _ _ ?_)
        · exact F.refl _
        · refine F.trans ?_ (pageWrite_kept F _ _ _ _)
          exact F.refl _
    · exact F.refl _
  · refine F.trans ?_ (acceptFront_kept F _ _)
    exact F.refl _
  · refine F.ite ?_ ?_
    · exact F.refl _
    · refine F.trans ?_ (semSubmit_kept F _ _)
      exact F.refl _

theorem semCommand_kept (s : State) (x1) (x2) : Keeps R s (semCommand s x1 x2) := by
  unfold semCommand
  split
  · refine F.kIte ?_ ?_
    · exact F.kFault _ _
    · refine F.kNext ?_
      refine F.trans ?_ (semRoute_kept F _ _ _)
      exact F.refl _
  · refine F.kNext ?_
    refine F.trans ?_ (semRoute_kept F _ _ _)
    exact F.refl _
  · refine F.kIte ?_ ?_
    · exact F.kFault _ _
    · refine F.kIte ?_ ?_
      · exact F.kFault _ _
      · refine F.kNext ?_
        refine F.trans ?_ (semRoute_kept F _ _ _)
        exact F.refl _

theorem execSemAcquire_kept (x0) (s : State) : Keeps R s (execSemAcquire x0 s) := by
  unfold execSemAcquire
  refine F.kTrans ?_ (semCommand_kept F _ _ _)
  exact F.refl _

theorem execSemTry_kept (x0) (s : State) : Keeps R s (execSemTry x0 s) := by
  unfold execSemTry
  refine F.kTrans ?_ (semCommand_kept F _ _ _)
  exact F.refl _

theorem execSemRelease_kept (x0) (s : State) : Keeps R s (execSemRelease x0 s) := by
  unfold execSemRelease
  refine F.kTrans ?_ (semCommand_kept F _ _ _)
  exact F.refl _

theorem execSemBankPerform_kept (s : State) : Keeps R s (execSemBankPerform s) := by
  unfold execSemBankPerform
  refine F.kNext ?_
  refine F.trans ?_ (semBank_kept F _)
  exact F.refl _

theorem execEvrConsumerWrite_kept (x0) (x1) (s : State) : Keeps R s (execEvrConsumerWrite x0 x1 s) := by
  unfold execEvrConsumerWrite
  refine F.kTrans ?_ (mmio_kept F _ _ _ ?_)
  · exact F.refl _
  · refine F.trans ?_ (evrConsumer_kept F _ _ _)
    exact F.refl _

theorem historyRecord_kept (s : State) (x1) : R s (historyRecord s x1) := by
  unfold historyRecord
  refine F.ite ?_ ?_
  · refine F.trans ?_ (pushHistory_kept F _ _)
    exact F.refl _
  · exact F.refl _

theorem noteRecord_kept (s : State) (x1) : R s (noteRecord s x1) := by
  unfold noteRecord
  extract_lets; rename_i y300_0 y300_1
  refine F.ite ?_ ?_
  · refine F.trans ?_ (State.fire_kept F _ _)
    unfold y300_1
    exact F.onChip (F.refl _)
  · unfold y300_1
    exact F.onChip (F.refl _)

theorem signalRecord_kept (s : State) (x1) : R s (signalRecord s x1) := by
  unfold signalRecord
  extract_lets; rename_i y300_0
  refine F.ite ?_ ?_
  · refine F.trans ?_ (noteRecord_kept F _ _)
    refine F.trans ?_ (State.count_kept F _ _ _ _)
    unfold y300_0
    split
    · refine F.trans ?_ (noteRecord_kept F _ _)
      refine F.trans ?_ (State.count_kept F _ _ _ _)
      exact F.refl _
    · refine F.trans ?_ (noteRecord_kept F _ _)
      refine F.trans ?_ (State.count_kept F _ _ _ _)
      exact F.refl _
    · exact F.refl _
  · unfold y300_0
    split
    · refine F.trans ?_ (noteRecord_kept F _ _)
      refine F.trans ?_ (State.count_kept F _ _ _ _)
      exact F.refl _
    · refine F.trans ?_ (noteRecord_kept F _ _)
      refine F.trans ?_ (State.count_kept F _ _ _ _)
      exact F.refl _
    · exact F.refl _

theorem logRaise_kept (s : State) (x1) : R s (logRaise s x1) := by
  unfold logRaise
  extract_lets; rename_i y300_0 y300_1 y300_2
  refine F.ite ?_ ?_
  · refine F.trans ?_ (State.raise_kept F _ _ _ _ _)
    unfold y300_2
    refine F.trans ?_ (actOnRecord_kept F _ _ _)
    refine F.trans ?_ (historyRecord_kept F _ _)
    refine F.trans ?_ (signalRecord_kept F _ _)
    refine F.trans ?_ (enterRecord_kept F _ _)
    exact F.refl _
  · unfold y300_2
    refine F.trans ?_ (actOnRecord_kept F _ _ _)
    refine F.trans ?_ (historyRecord_kept F _ _)
    refine F.trans ?_ (signalRecord_kept F _ _)
    refine F.trans ?_ (enterRecord_kept F _ _)
    exact F.refl _

theorem logNext_kept (s : State) : R s (logNext s) := by
  unfold logNext
  split
  · exact F.refl _
  · refine F.ite ?_ ?_
    · exact F.refl _
    · refine F.trans ?_ (logRaise_kept F _ _)
      refine F.trans ?_ (State.updFault_kept F _ _)
      exact F.refl _

theorem execFaultLogRaise_kept (s : State) : Keeps R s (execFaultLogRaise s) := by
  unfold execFaultLogRaise
  refine F.kNext ?_
  refine F.trans ?_ (logNext_kept F _)
  exact F.refl _

theorem execFaultAckSlice_kept (s : State) : Keeps R s (execFaultAckSlice s) := by
  unfold execFaultAckSlice
  refine F.kNext ?_
  refine F.ite ?_ ?_
  · exact F.refl _
  · refine F.trans ?_ (ackSlice_kept F _)
    exact F.refl _

theorem execFaultRecordCopy_kept (x0) (s : State) : Keeps R s (execFaultRecordCopy x0 s) := by
  unfold execFaultRecordCopy
  split
  · refine F.kNext ?_
    exact F.refl _
  · extract_lets; rename_i y299_0 y299_1 y299_2
    refine F.kNext ?_
    refine F.ite ?_ ?_
    · refine F.onChip ?_
      unfold y299_1
      refine F.ite ?_ ?_
      · refine F.trans ?_ (State.count_kept F _ _ _ _)
        refine F.trans ?_ (State.updFault_kept F _ _)
        unfold y299_0
        refine F.trans ?_ (State.updFault_kept F _ _)
        exact F.refl _
      · refine F.trans ?_ (State.event_kept F _ _ _ _)
        refine F.trans ?_ (State.raise_kept F _ _ _ _ _)
        unfold y299_0
        refine F.trans ?_ (State.updFault_kept F _ _)
        exact F.refl _
    · unfold y299_1
      refine F.ite ?_ ?_
      · refine F.trans ?_ (State.count_kept F _ _ _ _)
        refine F.trans ?_ (State.updFault_kept F _ _)
        unfold y299_0
        refine F.trans ?_ (State.updFault_kept F _ _)
        exact F.refl _
      · refine F.trans ?_ (State.event_kept F _ _ _ _)
        refine F.trans ?_ (State.raise_kept F _ _ _ _ _)
        unfold y299_0
        refine F.trans ?_ (State.updFault_kept F _ _)
        exact F.refl _

theorem execFaultNClear_kept (x0) (s : State) : Keeps R s (execFaultNClear x0 s) := by
  unfold execFaultNClear
  refine F.kTrans ?_ (judgedAlways_kept F _ _ _ ?_)
  · exact F.refl _
  · refine F.trans ?_ (applyFaultNClear_kept F _ _)
    exact F.refl _

theorem execFaultHistoryClear_kept (x0) (s : State) : Keeps R s (execFaultHistoryClear x0 s) := by
  unfold execFaultHistoryClear
  refine F.kTrans ?_ (judgedAlways_kept F _ _ _ ?_)
  · exact F.refl _
  · refine F.trans ?_ (applyHistoryClear_kept F _ _)
    exact F.refl _

theorem execFaultDeviceIsolate_kept (x0) (s : State) : Keeps R s (execFaultDeviceIsolate x0 s) := by
  unfold execFaultDeviceIsolate
  refine F.kTrans ?_ (judgedAlways_kept F _ _ _ ?_)
  · exact F.refl _
  · refine F.trans ?_ (applyDeviceIsolate_kept F _ _)
    exact F.refl _

theorem execFaultDeviceRelease_kept (x0) (s : State) : Keeps R s (execFaultDeviceRelease x0 s) := by
  unfold execFaultDeviceRelease
  refine F.kTrans ?_ (judgedAlways_kept F _ _ _ ?_)
  · exact F.refl _
  · refine F.trans ?_ (applyDeviceRelease_kept F _ _)
    exact F.refl _

theorem execFaultPortIsolate_kept (x0) (x1) (s : State) : Keeps R s (execFaultPortIsolate x0 x1 s) := by
  unfold execFaultPortIsolate
  refine F.kIte ?_ ?_
  · exact F.kFault _ _
  · refine F.kTrans ?_ (judgedAlways_kept F _ _ _ ?_)
    · exact F.refl _
    · refine F.trans ?_ (applyPortIsolate_kept F _ _ _)
      exact F.refl _

theorem execFaultInject_kept (x0) (s : State) : Keeps R s (execFaultInject x0 s) := by
  unfold execFaultInject
  refine F.kTrans ?_ (judgedAlways_kept F _ _ _ ?_)
  · exact F.refl _
  · refine F.trans ?_ (applyInject_kept F _ _)
    exact F.refl _

theorem execSupplyWarningCross_kept (x0) (s : State) : Keeps R s (execSupplyWarningCross x0 s) := by
  unfold execSupplyWarningCross
  extract_lets; rename_i y300_0
  refine F.kNext ?_
  refine F.ite ?_ ?_
  · refine F.trans ?_ (State.updFault_kept F _ _)
    unfold y300_0
    refine F.trans ?_ (State.count_kept F _ _ _ _)
    refine F.trans ?_ (State.updFault_kept F _ _)
    exact F.refl _
  · refine F.trans ?_ (State.updFault_kept F _ _)
    unfold y300_0
    refine F.trans ?_ (State.count_kept F _ _ _ _)
    refine F.trans ?_ (State.updFault_kept F _ _)
    exact F.refl _

theorem unholdPort_kept (s : State) (x1) : R s (unholdPort s x1) := by
  unfold unholdPort
  extract_lets; rename_i y300_0
  refine F.ite ?_ ?_
  · refine F.trans ?_ (enterLink_kept F _ _ _)
    exact F.refl _
  · exact F.refl _

theorem execHoldResume_kept (s : State) : Keeps R s (execHoldResume s) := by
  unfold execHoldResume
  extract_lets; rename_i y300_0 y300_1 y300_2 y300_3
  refine F.kIte ?_ ?_
  · refine F.kNext ?_
    refine F.trans ?_ (State.updFault_kept F _ _)
    refine F.ite ?_ ?_
    · refine F.trans ?_ (pushHistory_kept F _ _)
      exact F.refl _
    · exact F.refl _
  · refine F.kIte ?_ ?_
    · refine F.kNext ?_
      refine F.trans ?_ (noteState_kept F _ _)
      refine F.trans ?_ (State.event_kept F _ _ _ _)
      unfold y300_3
      refine F.trans ?_ (State.raise_kept F _ _ _ _ _)
      refine F.forEach (fun t a => ?_) ?_
      · refine F.trans ?_ (unholdPort_kept F _ _)
        exact F.refl _
      · unfold y300_2
        refine F.trans ?_ (State.updFault_kept F _ _)
        exact F.refl _
    · refine F.kNext ?_
      exact F.refl _

theorem execSupplyHoldLong_kept (s : State) : Keeps R s (execSupplyHoldLong s) := by
  unfold execSupplyHoldLong
  extract_lets; rename_i y300_0
  refine F.kIte ?_ ?_
  · refine F.kNext ?_
    refine F.trans ?_ (isolateDevice_kept F _ _)
    refine F.trans ?_ (State.raise_kept F _ _ _ _ _)
    refine F.trans ?_ (State.updFault_kept F _ _)
    exact F.refl _
  · refine F.kNext ?_
    exact F.refl _

theorem execSupplyResetCross_kept (x0) (s : State) : Keeps R s (execSupplyResetCross x0 s) := by
  unfold execSupplyResetCross
  extract_lets; rename_i y300_0
  refine F.kNext ?_
  refine F.ite ?_ ?_
  · unfold y300_0
    refine F.trans ?_ (State.updFault_kept F _ _)
    exact F.refl _
  · refine F.ite ?_ ?_
    · refine F.ite ?_ ?_
      · unfold y300_0
        refine F.trans ?_ (State.updFault_kept F _ _)
        exact F.refl _
      · refine F.trans ?_ (State.updFault_kept F _ _)
        refine F.trans ?_ (pushHistory_kept F _ _)
        unfold y300_0
        refine F.trans ?_ (State.updFault_kept F _ _)
        exact F.refl _
    · refine F.trans ?_ (deviceReset_kept F _ _)
      unfold y300_0
      refine F.trans ?_ (State.updFault_kept F _ _)
      exact F.refl _

theorem execPowerOn_kept (x0) (s : State) : Keeps R s (execPowerOn x0 s) := by
  unfold execPowerOn
  extract_lets; rename_i y300_0
  refine F.kNext ?_
  refine F.trans ?_ (deviceReset_kept F _ _)
  unfold y300_0
  refine F.trans ?_ (State.updPwr_kept F _ _)
  exact F.refl _

theorem holdCore_kept (s : State) : R s (holdCore s) := by
  unfold holdCore
  refine F.trans ?_ (State.latched_kept F _)
  refine F.trans ?_ (State.updPwr_kept F _ _)
  refine F.trans ?_ (loseCore_kept F _ _)
  exact F.refl _

theorem execPgCoreFall_kept (s : State) : Keeps R s (execPgCoreFall s) := by
  unfold execPgCoreFall
  extract_lets; rename_i y300_0 y300_1
  refine F.kNext ?_
  refine F.ite ?_ ?_
  · unfold y300_0
    refine F.trans ?_ (State.updPwr_kept F _ _)
    exact F.refl _
  · refine F.trans ?_ (State.latched_kept F _)
    refine F.trans ?_ (State.updFault_kept F _ _)
    refine F.trans ?_ (State.updPwr_kept F _ _)
    refine F.trans ?_ (holdCore_kept F _)
    unfold y300_0
    refine F.trans ?_ (State.updPwr_kept F _ _)
    exact F.refl _

theorem execPgCoreRise_kept (s : State) : Keeps R s (execPgCoreRise s) := by
  unfold execPgCoreRise
  extract_lets; rename_i y300_0
  refine F.kNext ?_
  refine F.ite ?_ ?_
  · unfold y300_0
    refine F.trans ?_ (State.updPwr_kept F _ _)
    exact F.refl _
  · refine F.ite ?_ ?_
    · refine F.trans ?_ (deviceReset_kept F _ _)
      unfold y300_0
      refine F.trans ?_ (State.updPwr_kept F _ _)
      exact F.refl _
    · refine F.trans ?_ (advance_kept F _)
      unfold y300_0
      refine F.trans ?_ (State.updPwr_kept F _ _)
      exact F.refl _

theorem execPgSerdesFall_kept (s : State) : Keeps R s (execPgSerdesFall s) := by
  unfold execPgSerdesFall
  extract_lets; rename_i y300_0 y300_1
  refine F.kNext ?_
  refine F.ite ?_ ?_
  · unfold y300_0
    refine F.trans ?_ (State.updPwr_kept F _ _)
    exact F.refl _
  · refine F.trans ?_ (State.event_kept F _ _ _ _)
    refine F.trans ?_ (State.raise_kept F _ _ _ _ _)
    refine F.trans ?_ (State.updPwr_kept F _ _)
    unfold y300_1
    refine F.forEach (fun t a => ?_) ?_
    · refine F.trans ?_ (laneEnter_kept F _ _ _)
      exact F.refl _
    · unfold y300_0
      refine F.trans ?_ (State.updPwr_kept F _ _)
      exact F.refl _

theorem execPgSerdesRise_kept (s : State) : Keeps R s (execPgSerdesRise s) := by
  unfold execPgSerdesRise
  extract_lets; rename_i y300_0
  refine F.kNext ?_
  refine F.ite ?_ ?_
  · unfold y300_0
    refine F.trans ?_ (State.updPwr_kept F _ _)
    exact F.refl _
  · refine F.ite ?_ ?_
    · refine F.forEach (fun t a => ?_) ?_
      · refine F.trans ?_ (benchStart_kept F _ _)
        exact F.refl _
      · unfold y300_0
        refine F.trans ?_ (State.updPwr_kept F _ _)
        exact F.refl _
    · refine F.trans ?_ (advance_kept F _)
      unfold y300_0
      refine F.trans ?_ (State.updPwr_kept F _ _)
      exact F.refl _

theorem execPgUcieFall_kept (s : State) : Keeps R s (execPgUcieFall s) := by
  unfold execPgUcieFall
  extract_lets; rename_i y300_0 y300_1
  refine F.kNext ?_
  refine F.ite ?_ ?_
  · unfold y300_0
    refine F.trans ?_ (State.updPwr_kept F _ _)
    exact F.refl _
  · refine F.trans ?_ (State.event_kept F _ _ _ _)
    refine F.trans ?_ (State.raise_kept F _ _ _ _ _)
    unfold y300_1
    refine F.trans ?_ (State.updHost_kept F _ _)
    refine F.forEach (fun t a => ?_) ?_
    · refine F.trans ?_ (moduleReset_kept F _ _)
      exact F.refl _
    · unfold y300_0
      refine F.trans ?_ (State.updPwr_kept F _ _)
      exact F.refl _

theorem execResetNLow_kept (s : State) : Keeps R s (execResetNLow s) := by
  unfold execResetNLow
  extract_lets; rename_i y300_0
  refine F.kNext ?_
  refine F.ite ?_ ?_
  · unfold y300_0
    refine F.trans ?_ (State.updPwr_kept F _ _)
    exact F.refl _
  · refine F.trans ?_ (deviceReset_kept F _ _)
    unfold y300_0
    refine F.trans ?_ (State.updPwr_kept F _ _)
    exact F.refl _

theorem execCorerefLost_kept (s : State) : Keeps R s (execCorerefLost s) := by
  unfold execCorerefLost
  refine F.kNext ?_
  refine F.ite ?_ ?_
  · exact F.refl _
  · extract_lets; rename_i y298_0
    refine F.trans ?_ (State.latched_kept F _)
    refine F.trans ?_ (State.updFault_kept F _ _)
    refine F.trans ?_ (State.updPwr_kept F _ _)
    refine F.trans ?_ (holdCore_kept F _)
    exact F.refl _

theorem execThermalTrip_kept (s : State) : Keeps R s (execThermalTrip s) := by
  unfold execThermalTrip
  refine F.kNext ?_
  refine F.ite ?_ ?_
  · exact F.refl _
  · extract_lets; rename_i y298_0
    refine F.trans ?_ (State.latched_kept F _)
    refine F.trans ?_ (State.updFault_kept F _ _)
    refine F.trans ?_ (State.updPwr_kept F _ _)
    refine F.trans ?_ (holdCore_kept F _)
    exact F.refl _

theorem execPwrReset_kept (x0) (x1) (x2) (x3) (s : State) : Keeps R s (execPwrReset x0 x1 x2 x3 s) := by
  unfold execPwrReset
  refine F.kTrans ?_ (judgedAlways_kept F _ _ _ ?_)
  · exact F.refl _
  · refine F.trans ?_ (applyPwrReset_kept F _ _)
    exact F.refl _

theorem execCommandedResetStart_kept (s : State) : Keeps R s (execCommandedResetStart s) := by
  unfold execCommandedResetStart
  refine F.kNext ?_
  split
  · refine F.ite ?_ ?_
    · refine F.trans ?_ (deviceReset_kept F _ _)
      exact F.refl _
    · exact F.refl _
  · exact F.refl _

theorem execDeviceReset_kept (x0) (s : State) : Keeps R s (execDeviceReset x0 s) := by
  unfold execDeviceReset
  refine F.kNext ?_
  refine F.ite ?_ ?_
  · exact F.refl _
  · refine F.ite ?_ ?_
    · exact F.refl _
    · refine F.trans ?_ (deviceReset_kept F _ _)
      refine F.ite ?_ ?_
      · refine F.trans ?_ (State.updPwr_kept F _ _)
        exact F.refl _
      · exact F.refl _

theorem execBootRomRun_kept (x0) (x1) (x2) (x3) (s : State) : Keeps R s (execBootRomRun x0 x1 x2 x3 s) := by
  unfold execBootRomRun
  refine F.kNext ?_
  refine F.ite ?_ ?_
  · refine F.trans ?_ (bootRun_kept F _ _ _ _ _)
    exact F.onChip (F.refl _)
  · exact F.refl _

theorem firmwareTargets_kept (s : State) : R s (firmwareTargets s) := by
  unfold firmwareTargets
  refine F.forEach (fun t a => ?_) ?_
  · refine F.trans ?_ (updRow_kept F _ _ _)
    exact F.refl _
  · exact F.refl _

theorem restoreDict_kept (s : State) : R s (restoreDict s) := by
  unfold restoreDict
  extract_lets; rename_i y300_0
  exact F.onChip (F.refl _)

theorem wakeEnds_kept (s : State) : R s (wakeEnds s) := by
  unfold wakeEnds
  refine F.ite ?_ ?_
  · extract_lets; rename_i y299_0
    refine F.ite ?_ ?_
    · refine F.trans ?_ (State.event_kept F _ _ _ _)
      refine F.trans ?_ (State.raise_kept F _ _ _ _ _)
      unfold y299_0
      refine F.trans ?_ (State.updPwr_kept F _ _)
      exact F.refl _
    · unfold y299_0
      refine F.trans ?_ (State.updPwr_kept F _ _)
      exact F.refl _
  · exact F.refl _

theorem kindEnds_kept (s : State) : R s (kindEnds s) := by
  unfold kindEnds
  extract_lets; rename_i y300_0 y300_1 y300_2 y300_3
  refine F.ite ?_ ?_
  · refine F.trans ?_ (noteState_kept F _ _)
    refine F.trans ?_ (State.event_kept F _ _ _ _)
    unfold y300_3
    refine F.onChip ?_
    unfold y300_2
    refine F.trans ?_ (State.updFault_kept F _ _)
    unfold y300_0
    refine F.ite ?_ ?_
    · refine F.trans ?_ (State.raise_kept F _ _ _ _ _)
      exact F.refl _
    · exact F.refl _
  · refine F.trans ?_ (State.updFault_kept F _ _)
    unfold y300_0
    refine F.ite ?_ ?_
    · refine F.trans ?_ (State.raise_kept F _ _ _ _ _)
      exact F.refl _
    · exact F.refl _

theorem firmwareStart_kept (x0) (s : State) : R s (firmwareStart x0 s) := by
  unfold firmwareStart
  extract_lets; rename_i y300_0 y300_1 y300_2 y300_3
  refine F.forEach (fun t a => ?_) ?_
  · refine F.trans ?_ (benchStart_kept F _ _)
    exact F.refl _
  · unfold y300_3
    refine F.trans ?_ (State.event_kept F _ _ _ _)
    unfold y300_2
    refine F.ite ?_ ?_
    · refine F.trans ?_ (State.event_kept F _ _ _ _)
      refine F.trans ?_ (State.count_kept F _ _ _ _)
      unfold y300_1
      refine F.trans ?_ (wakeEnds_kept F _)
      refine F.trans ?_ (kindEnds_kept F _)
      refine F.ite ?_ ?_
      · refine F.trans ?_ (dictFails_kept F _)
        unfold y300_0
        refine F.trans ?_ (logBootFaults_kept F _)
        refine F.trans ?_ (firmwareTargets_kept F _)
        refine F.trans ?_ (restoreDict_kept F _)
        refine F.trans ?_ (State.updPwr_kept F _ _)
        exact F.refl _
      · unfold y300_0
        refine F.trans ?_ (logBootFaults_kept F _)
        refine F.trans ?_ (firmwareTargets_kept F _)
        refine F.trans ?_ (restoreDict_kept F _)
        refine F.trans ?_ (State.updPwr_kept F _ _)
        exact F.refl _
    · unfold y300_1
      refine F.trans ?_ (wakeEnds_kept F _)
      refine F.trans ?_ (kindEnds_kept F _)
      refine F.ite ?_ ?_
      · refine F.trans ?_ (dictFails_kept F _)
        unfold y300_0
        refine F.trans ?_ (logBootFaults_kept F _)
        refine F.trans ?_ (firmwareTargets_kept F _)
        refine F.trans ?_ (restoreDict_kept F _)
        refine F.trans ?_ (State.updPwr_kept F _ _)
        exact F.refl _
      · unfold y300_0
        refine F.trans ?_ (logBootFaults_kept F _)
        refine F.trans ?_ (firmwareTargets_kept F _)
        refine F.trans ?_ (restoreDict_kept F _)
        refine F.trans ?_ (State.updPwr_kept F _ _)
        exact F.refl _

theorem execFirmwareStart_kept (x0) (s : State) : Keeps R s (execFirmwareStart x0 s) := by
  unfold execFirmwareStart
  refine F.kNext ?_
  refine F.ite ?_ ?_
  · refine F.trans ?_ (firmwareStart_kept F _ _)
    exact F.refl _
  · exact F.refl _

theorem execCobblerCoreReset_kept (x0) (s : State) : Keeps R s (execCobblerCoreReset x0 s) := by
  unfold execCobblerCoreReset
  refine F.kIte ?_ ?_
  · exact F.kFault _ _
  · refine F.kIte ?_ ?_
    · refine F.kNext ?_
      exact F.refl _
    · refine F.kNext ?_
      refine F.trans ?_ (State.updSem_kept F _ _)
      refine F.trans ?_ (completeAll_kept F _ _)
      exact F.refl _

theorem execPwrDepart_kept (x0) (s : State) : Keeps R s (execPwrDepart x0 s) := by
  unfold execPwrDepart
  refine F.kTrans ?_ (judgedAlways_kept F _ _ _ ?_)
  · exact F.refl _
  · refine F.trans ?_ (applyDepart_kept F _ _)
    exact F.refl _

theorem execDepartBoundary_kept (s : State) : Keeps R s (execDepartBoundary s) := by
  unfold execDepartBoundary
  refine F.kNext ?_
  refine F.ite ?_ ?_
  · refine F.trans ?_ (departNow_kept F _)
    exact F.refl _
  · exact F.refl _

theorem wakeStarts_kept (s : State) (x1) : R s (wakeStarts s x1) := by
  unfold wakeStarts
  refine F.trans ?_ (State.updPwr_kept F _ _)
  exact F.refl _

theorem gateAll_kept (s : State) : R s (gateAll s) := by
  unfold gateAll
  extract_lets; rename_i y300_0 y300_1
  refine F.trans ?_ (State.latched_kept F _)
  clear_value y300_0; split
  · refine F.trans ?_ (wakeStarts_kept F _ _)
    unfold y300_1
    refine F.trans ?_ (State.updPwr_kept F _ _)
    refine F.trans ?_ (deviceReset_kept F _ _)
    exact F.refl _
  · unfold y300_1
    refine F.trans ?_ (State.updPwr_kept F _ _)
    refine F.trans ?_ (deviceReset_kept F _ _)
    exact F.refl _

theorem execStandbyEnter_kept (s : State) : Keeps R s (execStandbyEnter s) := by
  unfold execStandbyEnter
  refine F.kIte ?_ ?_
  · refine F.kNext ?_
    refine F.ite ?_ ?_
    · refine F.trans ?_ (gateAll_kept F _)
      exact F.refl _
    · exact F.refl _
  · refine F.kIte ?_ ?_
    · extract_lets; rename_i y298_0
      refine F.kNext ?_
      refine F.ite ?_ ?_
      · refine F.trans ?_ (gateAll_kept F _)
        unfold y298_0
        refine F.trans ?_ (enterStandby_kept F _)
        exact F.refl _
      · unfold y298_0
        refine F.trans ?_ (enterStandby_kept F _)
        exact F.refl _
    · refine F.kNext ?_
      exact F.refl _

theorem wakeBy_kept (s : State) (x1) (x2) : R s (wakeBy s x1 x2) := by
  unfold wakeBy
  refine F.ite ?_ ?_
  · exact F.refl _
  · split
    · refine F.trans ?_ (wakeStarts_kept F _ _)
      exact F.refl _
    · refine F.ite ?_ ?_
      · exact F.refl _
      · refine F.trans ?_ (State.updPwr_kept F _ _)
        exact F.refl _
    · exact F.refl _

theorem execWakeAddressMatch_kept (s : State) : Keeps R s (execWakeAddressMatch s) := by
  unfold execWakeAddressMatch
  refine F.kNext ?_
  refine F.ite ?_ ?_
  · refine F.trans ?_ (State.count_kept F _ _ _ _)
    exact F.refl _
  · refine F.trans ?_ (wakeBy_kept F _ _ _)
    exact F.refl _

theorem execUcieWakeRequest_kept (s : State) : Keeps R s (execUcieWakeRequest s) := by
  unfold execUcieWakeRequest
  refine F.kNext ?_
  refine F.trans ?_ (wakeBy_kept F _ _ _)
  exact F.refl _

theorem execWakeSignalDetect_kept (x0) (s : State) : Keeps R s (execWakeSignalDetect x0 s) := by
  unfold execWakeSignalDetect
  refine F.kTrans ?_ (onPort_kept F _ _)
  refine F.ite ?_ ?_
  · refine F.trans ?_ (wakeBy_kept F _ _ _)
    exact F.refl _
  · exact F.refl _

theorem execWakeTimer_kept (s : State) : Keeps R s (execWakeTimer s) := by
  unfold execWakeTimer
  refine F.kNext ?_
  refine F.ite ?_ ?_
  · exact F.refl _
  · refine F.trans ?_ (wakeBy_kept F _ _ _)
    exact F.refl _

theorem execWake_kept (x0) (s : State) : Keeps R s (execWake x0 s) := by
  unfold execWake
  extract_lets; rename_i y300_0
  refine F.kNext ?_
  refine F.ite ?_ ?_
  · refine F.trans ?_ (State.updPwr_kept F _ _)
    exact F.refl _
  · exact F.refl _

theorem execWakeSlow_kept (s : State) : Keeps R s (execWakeSlow s) := by
  unfold execWakeSlow
  refine F.kNext ?_
  refine F.ite ?_ ?_
  · refine F.trans ?_ (State.updPwr_kept F _ _)
    exact F.refl _
  · exact F.refl _

theorem execBenchPowerUp_kept (x0) (s : State) : Keeps R s (execBenchPowerUp x0 s) := by
  unfold execBenchPowerUp
  refine F.kIte ?_ ?_
  · exact F.kFault _ _
  · refine F.kIte ?_ ?_
    · extract_lets; rename_i y298_0
      refine F.kNext ?_
      refine F.forEach (fun t a => ?_) ?_
      · refine F.trans ?_ (laneStart_kept F _ _)
        exact F.refl _
      · unfold y298_0
        refine F.trans ?_ (State.updPwr_kept F _ _)
        exact F.refl _
    · refine F.kNext ?_
      exact F.refl _

theorem execBenchPowerSlow_kept (x0) (s : State) : Keeps R s (execBenchPowerSlow x0 s) := by
  unfold execBenchPowerSlow
  refine F.kIte ?_ ?_
  · exact F.kFault _ _
  · refine F.kIte ?_ ?_
    · refine F.kNext ?_
      refine F.trans ?_ (State.event_kept F _ _ _ _)
      refine F.trans ?_ (State.raise_kept F _ _ _ _ _)
      refine F.trans ?_ (State.updPwr_kept F _ _)
      exact F.refl _
    · refine F.kNext ?_
      exact F.refl _

theorem execFwStageBegin_kept (s : State) : Keeps R s (execFwStageBegin s) := by
  unfold execFwStageBegin
  refine F.kTrans ?_ (judgedAlways_kept F _ _ _ ?_)
  · exact F.refl _
  · refine F.trans ?_ (stageBegin_kept F _)
    exact F.refl _

theorem execFwStageManifestDone_kept (s : State) : Keeps R s (execFwStageManifestDone s) := by
  unfold execFwStageManifestDone
  refine F.kTrans ?_ (judgedAlways_kept F _ _ _ ?_)
  · exact F.refl _
  · refine F.trans ?_ (stageManifest_kept F _)
    exact F.refl _

theorem execFwStageAbort_kept (s : State) : Keeps R s (execFwStageAbort s) := by
  unfold execFwStageAbort
  refine F.kTrans ?_ (judgedAlways_kept F _ _ _ ?_)
  · exact F.refl _
  · refine F.trans ?_ (stageAbort_kept F _)
    exact F.refl _

theorem execFwStageDataWrite_kept (x0) (x1) (s : State) : Keeps R s (execFwStageDataWrite x0 x1 s) := by
  unfold execFwStageDataWrite
  refine F.kIte ?_ ?_
  · exact F.kFault _ _
  · refine F.kIte ?_ ?_
    · refine F.kTrans ?_ (judgedAlways_kept F _ _ _ ?_)
      · refine F.trans ?_ (State.count_kept F _ _ _ _)
        exact F.refl _
      · exact F.of rfl rfl
    · refine F.kTrans ?_ (judgedAlways_kept F _ _ _ ?_)
      · exact F.refl _
      · refine F.trans ?_ (applyStageRow_kept F _ _ _)
        exact F.refl _

theorem execFwChunkDone_kept (x0) (s : State) : Keeps R s (execFwChunkDone x0 s) := by
  unfold execFwChunkDone
  refine F.kIte ?_ ?_
  · refine F.kTrans ?_ (judgedAlways_kept F _ _ _ ?_)
    · refine F.trans ?_ (State.count_kept F _ _ _ _)
      exact F.refl _
    · exact F.of rfl rfl
  · refine F.kTrans ?_ (judgedAlways_kept F _ _ _ ?_)
    · exact F.refl _
    · refine F.trans ?_ (applyChunkDone_kept F _ _)
      exact F.refl _

theorem execChunkCheckDone_kept (x0) (s : State) : Keeps R s (execChunkCheckDone x0 s) := by
  unfold execChunkCheckDone
  split
  · refine F.kNext ?_
    exact F.refl _
  · refine F.kNext ?_
    refine F.trans ?_ (chunkResult_kept F _ _ _)
    refine F.trans ?_ (State.updSec_kept F _ _)
    exact F.refl _

theorem execSecAttestNonce_kept (x0) (s : State) : Keeps R s (execSecAttestNonce x0 s) := by
  unfold execSecAttestNonce
  refine F.kTrans ?_ (judgedAlways_kept F _ _ _ ?_)
  · exact F.refl _
  · refine F.trans ?_ (applyNonce_kept F _ _)
    exact F.refl _

theorem execAttestReportDone_kept (s : State) : Keeps R s (execAttestReportDone s) := by
  unfold execAttestReportDone
  refine F.kNext ?_
  refine F.ite ?_ ?_
  · refine F.trans ?_ (buildReport_kept F _)
    exact F.refl _
  · exact F.refl _

theorem execCntSnapNow_kept (x0) (s : State) : Keeps R s (execCntSnapNow x0 s) := by
  unfold execCntSnapNow
  refine F.kTrans ?_ (judged_kept F _ _ _ ?_)
  · exact F.refl _
  · refine F.ite ?_ ?_
    · refine F.trans ?_ (takeSnapshot_kept F _)
      exact F.refl _
    · exact F.refl _

theorem execCounterPageRead_kept (x0) (x1) (x2) (s : State) : Keeps R s (execCounterPageRead x0 x1 x2 s) := by
  unfold execCounterPageRead
  refine F.kIte ?_ ?_
  · exact F.kFault _ _
  · refine F.kIte ?_ ?_
    · refine F.kNext ?_
      exact F.refl _
    · refine F.kIte ?_ ?_
      · refine F.kNext ?_
        refine F.trans ?_ (State.emit_kept F _ _)
        refine F.trans ?_ (dormantAccess_kept F _ _)
        exact F.refl _
      · split
        · refine F.kNext ?_
          refine F.trans ?_ (State.emit_kept F _ _)
          refine F.trans ?_ (mmioRefused_kept F _ _)
          exact F.refl _
        · refine F.kIte ?_ ?_
          · extract_lets; rename_i y295_0 y295_1 y295_2 y295_3
            refine F.kNext ?_
            refine F.trans ?_ (State.emit_kept F _ _)
            refine F.trans ?_ (State.count_kept F _ _ _ _)
            exact F.onChip (F.refl _)
          · refine F.kNext ?_
            refine F.trans ?_ (State.emit_kept F _ _)
            exact F.refl _

theorem execTraceConsumerWrite_kept (x0) (s : State) : Keeps R s (execTraceConsumerWrite x0 s) := by
  unfold execTraceConsumerWrite
  refine F.kTrans ?_ (judged_kept F _ _ _ ?_)
  · exact F.refl _
  · refine F.trans ?_ (applyTraceConsumer_kept F _ _)
    exact F.refl _

theorem execJtagUpdateIr_kept (x0) (s : State) : Keeps R s (execJtagUpdateIr x0 s) := by
  unfold execJtagUpdateIr
  refine F.kIte ?_ ?_
  · refine F.kNext ?_
    exact F.refl _
  · extract_lets; rename_i y299_0 y299_1
    refine F.kNext ?_
    refine F.trans ?_ (State.updPwr_kept F _ _)
    exact F.refl _

theorem execResetNRelease_kept (s : State) : Keeps R s (execResetNRelease s) := by
  unfold execResetNRelease
  refine F.kNext ?_
  refine F.trans ?_ (advance_kept F _)
  refine F.trans ?_ (State.updPwr_kept F _ _)
  exact F.refl _

theorem execAlwaysOnRailLost_kept (s : State) : Keeps R s (execAlwaysOnRailLost s) := by
  unfold execAlwaysOnRailLost
  extract_lets; rename_i y300_0
  refine F.kNext ?_
  refine F.trans ?_ (State.latched_kept F _)
  refine F.trans ?_ (State.updPwr_kept F _ _)
  unfold y300_0
  refine F.trans ?_ (loseCore_kept F _ _)
  exact F.refl _

theorem execPgUcieRise_kept (s : State) : Keeps R s (execPgUcieRise s) := by
  unfold execPgUcieRise
  extract_lets; rename_i y300_0
  refine F.kNext ?_
  refine F.ite ?_ ?_
  · unfold y300_0
    refine F.trans ?_ (State.updPwr_kept F _ _)
    exact F.refl _
  · refine F.trans ?_ (advance_kept F _)
    unfold y300_0
    refine F.trans ?_ (State.updPwr_kept F _ _)
    exact F.refl _

theorem execCounterParityError_kept (x0) (x1) (s : State) : Keeps R s (execCounterParityError x0 x1 s) := by
  unfold execCounterParityError
  refine F.kIte ?_ ?_
  · exact F.kFault _ _
  · extract_lets; rename_i y299_0 y299_1 y299_2
    refine F.kNext ?_
    refine F.trans ?_ (State.event_kept F _ _ _ _)
    refine F.trans ?_ (State.raise_kept F _ _ _ _ _)
    exact F.onChip (F.refl _)

theorem execArbitrationParityError_kept (x0) (s : State) : Keeps R s (execArbitrationParityError x0 s) := by
  unfold execArbitrationParityError
  refine F.kIte ?_ ?_
  · exact F.kFault _ _
  · extract_lets; rename_i y299_0
    refine F.kNext ?_
    refine F.ite ?_ ?_
    · refine F.trans ?_ (isolateDevice_kept F _ _)
      unfold y299_0
      refine F.trans ?_ (State.event_kept F _ _ _ _)
      refine F.trans ?_ (State.raise_kept F _ _ _ _ _)
      exact F.refl _
    · refine F.forEach (fun t a => ?_) ?_
      · refine F.trans ?_ (isolatePort_kept F _ _)
        exact F.refl _
      · unfold y299_0
        refine F.trans ?_ (State.event_kept F _ _ _ _)
        refine F.trans ?_ (State.raise_kept F _ _ _ _ _)
        exact F.refl _

theorem execClaimRowParityError_kept (x0) (s : State) : Keeps R s (execClaimRowParityError x0 s) := by
  unfold execClaimRowParityError
  refine F.kIte ?_ ?_
  · exact F.kFault _ _
  · refine F.kNext ?_
    refine F.trans ?_ (State.event_kept F _ _ _ _)
    refine F.trans ?_ (State.raise_kept F _ _ _ _ _)
    refine F.trans ?_ (updRow_kept F _ _ _)
    exact F.refl _

theorem execSemStateParityError_kept (x0) (s : State) : Keeps R s (execSemStateParityError x0 s) := by
  unfold execSemStateParityError
  refine F.kIte ?_ ?_
  · exact F.kFault _ _
  · refine F.kNext ?_
    refine F.trans ?_ (State.raise_kept F _ _ _ _ _)
    refine F.ite ?_ ?_
    · refine F.trans ?_ (semPassOn_kept F _ _ _)
      exact F.refl _
    · exact F.refl _

theorem execFaultStateParityError_kept (s : State) : Keeps R s (execFaultStateParityError s) := by
  unfold execFaultStateParityError
  refine F.kNext ?_
  refine F.trans ?_ (State.raise_kept F _ _ _ _ _)
  exact F.refl _

theorem execSmbusTimeout_kept (s : State) : Keeps R s (execSmbusTimeout s) := by
  unfold execSmbusTimeout
  refine F.kNext ?_
  exact F.refl _

end
end Sys2Proof.Machine
end

