-- ==== Sys2Proof/Laws/Lanes.lean ====
section
/-!
SUPPORT. What entering a bring-up state does: the port's own lanes take the state, no other port's lanes change, and outside the lanes,
the scans, the port's link and the watching units nothing does.
-/
namespace Sys2Proof.Machine

theorem LineOnly.refl (s : State) : LineOnly s s := ⟨rfl, rfl⟩

theorem LineOnly.trans {a b c : State} (h : LineOnly a b) (g : LineOnly b c) : LineOnly a c := by
  refine ⟨?_, g.2.trans h.2⟩
  rw [g.1, h.1]

theorem LineOnly.event (s : State) (ev : Obj) (row bit : Nat) : LineOnly s (s.event ev row bit) := by
  refine ⟨?_, by simp⟩
  simp [State.event]

theorem LineOnly.count (s : State) (ev inst n : Nat) : LineOnly s (s.count ev inst n) := by
  refine ⟨?_, by simp⟩
  simp [State.count]

theorem LineOnly.updLane (s : State) (p : Nat) (f : LanePort → LanePort) : LineOnly s (s.updLane p f) := ⟨rfl, rfl⟩

theorem LineOnly.askLink (s : State) (p : Nat) (new : LState) : LineOnly s (askLink s p new) := ⟨rfl, rfl⟩

theorem LineOnly.eyes (s : State) (e : Tbl EyeScan) : LineOnly s { s with eyes := e } := ⟨rfl, rfl⟩

@[simp] theorem setEye_lanes (s : State) (k : Nat) (e : EyeScan) : (s.setEye k e).lanes = s.lanes := by rw [State.setEye]

theorem LineOnly.stopScan (s : State) (k : Nat) : LineOnly s (stopScan s k) := by
  unfold Machine.stopScan
  dsimp only
  split
  · exact (LineOnly.eyes s _).trans (.event _ _ _ _)
  · exact .refl s

@[simp] theorem stopScan_lanes (s : State) (k : Nat) : (stopScan s k).lanes = s.lanes := by
  unfold stopScan; dsimp only; split
  · rw [State.event_lanes, setEye_lanes]
  · rfl

theorem LineOnly.leftLine (s : State) (p : Nat) : LineOnly s (leftLine s p) := by
  unfold Machine.leftLine
  dsimp only
  have h : LineOnly s (Machine.stopScan (Machine.stopScan s (2 * p)) (2 * p + 1)) := (LineOnly.stopScan _ _).trans (.stopScan _ _)
  split
  · exact h
  · exact h.trans (.askLink _ _ _)

@[simp] theorem leftLine_lanes (s : State) (p : Nat) : (leftLine s p).lanes = s.lanes := by
  unfold leftLine
  dsimp only
  split <;> simp [askLink]

/-- The port's way out of its old state: bit 1 of its events, and the line left. -/
theorem laneLeave_lineOnly (s : State) (p : Nat) (old new : LaneSt) : LineOnly s (laneLeave s p old new) := by
  have h : LineOnly s (if old = .up ∧ new ≠ .rest then s.event Dict.LANE_PORT_EVENTS p 1 else s) := by
    split
    · exact .event _ _ _ _
    · exact .refl s
  unfold laneLeave
  dsimp only
  split
  · exact h
  · exact h.trans (.leftLine _ _)

@[simp] theorem laneLeave_lanes (s : State) (p : Nat) (old new : LaneSt) : (laneLeave s p old new).lanes = s.lanes := by
  unfold laneLeave
  dsimp only
  split <;> split <;> simp

/-- Entering a bring-up state touches lanes, scans, links and the watching units alone, and raises no fault. -/
theorem laneEnter_lineOnly (s : State) (p : Nat) (new : LaneSt) : LineOnly s (laneEnter s p new) := by
  unfold laneEnter
  dsimp only
  split
  · exact .refl s
  · have h := (LineOnly.updLane s p fun l => l.entered new s.time.count).trans (laneLeave_lineOnly _ p (s.lane p).st new)
    generalize laneLeave _ _ _ _ = u at h ⊢
    cases new <;> dsimp only
    case up =>
      split
      · exact h.trans ((LineOnly.event _ _ _ _).trans (.askLink _ _ _))
      · exact h.trans (.event _ _ _ _)
    case failed => exact h.trans (.event _ _ _ _)
    case rest => exact h.trans ((LineOnly.event _ _ _ _).trans (.count _ _ _ _))
    all_goals exact h

/-- The lanes of the port are those of the entered state, with what it starts afresh. -/
theorem laneEnter_lanes (s : State) (p : Nat) (new : LaneSt) (h : (s.lane p).st ≠ new) :
    (laneEnter s p new).lanes = tupd {} s.lanes p fun l => l.entered new s.time.count := by
  unfold laneEnter
  dsimp only
  rw [if_neg h]
  have h3 := laneLeave_lanes (s.updLane p fun l => l.entered new s.time.count) p (s.lane p).st new
  generalize laneLeave _ _ _ _ = u at h3 ⊢
  simp only [State.updLane_lanes] at h3
  cases new <;> dsimp only
  case up => split <;> simp [h3, askLink]
  all_goals simp [h3]

theorem laneEnter_lane (s : State) (p : Nat) (new : LaneSt) (h : (s.lane p).st ≠ new) :
    (laneEnter s p new).lane p = (s.lane p).entered new s.time.count := by
  simp [State.lane, laneEnter_lanes s p new h]

/-- No other port's lanes change. -/
theorem laneEnter_lane_other (s : State) {p q : Nat} (new : LaneSt) (hq : q ≠ p) : (laneEnter s p new).lane q = s.lane q := by
  by_cases h : (s.lane p).st = new
  · simp [laneEnter, h]
  · simp only [State.lane]
    rw [laneEnter_lanes s p new h, tget_tupd_ne _ _ _ hq]

@[simp] theorem entered_st (l : LanePort) (new : LaneSt) (c : Nat) : (l.entered new c).st = new := by cases new <;> rfl

/-- The port is in the state that it enters. -/
@[simp] theorem laneEnter_st (s : State) (p : Nat) (new : LaneSt) : ((laneEnter s p new).lane p).st = new := by
  by_cases h : (s.lane p).st = new
  · simp [laneEnter, h]
  · simp [laneEnter_lane s p new h]

end Sys2Proof.Machine
end

