-- ==== Sys2Proof/Laws/Link.lean ====
section
/-!
SUPPORT. What the operations on one port's link layer can do: they change that link and the watching units, and nothing else.
-/
namespace Sys2Proof.Machine

theorem OnLink.refl (s : State) (p : Nat) : OnLink s s p := ⟨rfl, fun _ _ => rfl⟩

theorem OnLink.trans {s t u : State} {p : Nat} (h : OnLink s t p) (h' : OnLink t u p) : OnLink s u p :=
  ⟨by rw [h'.1, h.1], fun q hq => (h'.2 q hq).trans (h.2 q hq)⟩

theorem OnLink.updLink (s : State) (p : Nat) (f : LinkPort → LinkPort) : OnLink s (s.updLink p f) p :=
  ⟨rfl, fun q hq => by simp [hq, link_updLink]⟩

/-- The watching units may change. -/
theorem OnLink.mon (s : State) (m : Mon) (p : Nat) : OnLink s { s with mon := m } p := ⟨rfl, fun _ _ => rfl⟩

theorem OnLink.askLink (s : State) (p : Nat) (l : LState) : OnLink s (askLink s p l) p := OnLink.updLink s p _

theorem OnLink.isolate (s : State) (p : Nat) : OnLink s (isolatePort s p) p := by
  unfold isolatePort
  split
  · exact OnLink.refl s p
  · exact OnLink.askLink s p _

theorem OnLink.reinit (s : State) (p : Nat) : OnLink s (reinitPort s p) p := by
  unfold reinitPort
  split
  · exact OnLink.refl s p
  · split
    all_goals first
      | exact OnLink.refl s p
      | exact OnLink.askLink s p _

/-- Isolation changes nothing of the link but the state that is due. -/
theorem isolatePort_link (s : State) (p : Nat) : ∃ d, (isolatePort s p).link p = { s.link p with due := d } := by
  unfold isolatePort
  split
  · exact ⟨_, rfl⟩
  · unfold Machine.askLink
    simp
    split
    · split
      all_goals exact ⟨_, rfl⟩
    · exact ⟨_, rfl⟩

/-- Re-initialisation changes nothing of the link but the state that is due, until the boundary. -/
theorem reinitPort_link (s : State) (p : Nat) : ∃ d, (reinitPort s p).link p = { s.link p with due := d } := by
  unfold reinitPort
  split
  · exact ⟨_, rfl⟩
  · split
    all_goals first
      | exact ⟨_, rfl⟩
      | (unfold Machine.askLink; simp; split; split; all_goals exact ⟨_, rfl⟩)

@[simp] theorem isolatePort_mon (s : State) (p : Nat) : (isolatePort s p).mon = s.mon := by
  unfold isolatePort; split <;> rfl

@[simp] theorem reinitPort_mon (s : State) (p : Nat) : (reinitPort s p).mon = s.mon := by
  unfold reinitPort; split
  · rfl
  · split <;> rfl

/-- A replay below its limit starts from OLDEST (R110, R111). -/
theorem startReplay_below (s : State) (p n : Nat) (b : Bool) (h : (s.link p).replays < s.reg Dict.LINK_REPLAY_LIMIT) :
    OnLink s (startReplay s p n b) p ∧ (startReplay s p n b).mon.fault = s.mon.fault ∧
      (startReplay s p n b).link p =
        { s.link p with
          replays := (s.link p).replays + 1, served := n, oldestAt := s.time.count
          replayPos := if (s.link p).replay.isEmpty then none else some 0
          ctlQ := ((s.link p).ctlQ.filter fun f => subtypeOf f.body ≠ 2) ++ [ctlFlit (packReplay (s.link p).oldest n)] } := by
  unfold startReplay
  dsimp only
  rw [if_neg (by omega)]
  exact ⟨(OnLink.updLink _ _ _).trans (OnLink.mon _ _ _), by simp, by simp⟩

/-- A replay past its limit isolates the port with fault 0x0403 (R112). -/
theorem startReplay_past (s : State) (p n : Nat) (b : Bool) (h : s.reg Dict.LINK_REPLAY_LIMIT ≤ (s.link p).replays)
    (hl : Loggable s 0x0403 1 p) (hd : (s.link p).st ≠ .down) :
    OnLink s (startReplay s p n b) p ∧ Logged s (startReplay s p n b) 0x0403 1 p 0 ∧
      ((s.link p).due = none → ((startReplay s p n b).link p).due = some .isolated) := by
  unfold startReplay
  dsimp only
  rw [if_pos (by omega)]
  refine ⟨(OnLink.mon _ _ _).trans ((OnLink.mon _ _ _).trans (OnLink.isolate _ _)), ?_, fun h => ?_⟩
  · simpa [Logged] using State.raise_logged 0 hl
  · unfold isolatePort
    rw [if_neg (by simpa using hd)]
    simp [Machine.askLink, h]

theorem inService_up {l : LinkPort} (h : inService l = true) : l.st ≠ .down := by
  intro h'
  simp [inService, h'] at h

end Sys2Proof.Machine
end

