-- ==== Sys2Proof/Tests/Slice0.lean ====
section
/-!
SUPPORT. The model's own tests: the ill-formed commands, the words, a few worked values of the spec, and a witness for the hypotheses of each
clause of each statement.
-/
namespace Sys2Proof.Tests

set_option Elab.async false
open Sys2Proof Sys2Proof.Machine

/-- A part that runs: start-up has reached step 6 (R475). -/
def up : State := { State.reset with pwr := { State.reset.pwr with step := 6, resetLow := false } }

/-- The running part with a time unit. -/
def upT (t : TimeUnit) : State := { up with time := t }

/-- The running part with one row of an object written. -/
def upR (o : Obj) (row v : Nat) : State := up.setReg o row v

/-- The running part with one port's link layer. -/
def upL (p : Nat) (l : LinkPort) : State := { up with links := [(p, l)] }

/-- The running part with one port's lanes. -/
def upA (p : Nat) (l : LanePort) : State := { up with lanes := [(p, l)] }


/-- A packet at the head of a host port's deliveries, by what a computation can tell. -/
theorem atHead_of {s : State} {hp : Nat} {p : Packet} (h : 96 ≤ hp ∧ hp < 100 ∧ (tget [] s.sw.delivered hp).head?.map (·.pkt) = some p) :
    AtHead s hp p := by
  obtain ⟨a, b, c⟩ := h
  cases l : tget [] s.sw.delivered hp with
  | nil => simp [l] at c
  | cons d r => exact ⟨a, b, d, r, l, by simpa [l] using c⟩

/-- A collective packet at the head of CP's deliveries, likewise. -/
theorem collHere_of {s : State} {opc r : Nat} {h : CollHdr} {data : List Byte}
    (x : (deliveredHead s 100 opc).map (fun d => (unpackColl (natBE (d.pkt.payload.take 16)), d.pkt.payload.drop 16)) = some (h, data) ∧
      collRowOf s h.gid = some r) : CollHere s opc r h data := by
  obtain ⟨a, b⟩ := x
  cases l : deliveredHead s 100 opc with
  | none => simp [l] at a
  | some d => simp [l] at a; exact ⟨d, l, a.1.symm, a.2.symm, b⟩

/-- A peer context finds a place where none is taken, whichever bucket its hash gives. -/
theorem freePlace_of {s : State} (code : Nat) (h : s.rma.places = [] ∧ peerBuckets s ≠ 0) :
    freePlace s code = some (16 * (Config.peerHash code % peerBuckets s)) := by
  simp only [freePlace, h.1, h.2, ↓reduceIte]
  rw [show List.range 16 = 0 :: (List.range 15).map (· + 1) from rfl, List.findSome?_cons]
  simp [tget]
/-! ### Witnesses beyond the hypotheses' own list -/

theorem test_probe_accepted : ∃ (s : State) (p n t1 t4 : Nat) (b : TimeProbe), p < 96 ∧ probesRun (s.link p) = true ∧ (s.lane p).st ≠ .loopback ∧
    0 ≤ exchangeDelay t1 b.t2 b.t3 t4 ∧ exchangeDelay t1 b.t2 b.t3 t4 ≤ 2000000 ∧ (b.mstitch = n % 2 ^ 24 ∨ s.time.st = .free) :=
  ⟨upL 95 { st := .admitted }, 95, 0, 0, 2560000, {}, by decide⟩
theorem test_probe_late : ∃ (s : State) (p n t1 t4 : Nat) (b : TimeProbe), p < 96 ∧ probesRun (s.link p) = true ∧ (s.lane p).st ≠ .loopback ∧
    2000000 < exchangeDelay t1 b.t2 b.t3 t4 ∧ s.time.parent = some p ∧ isMaster s.time = false ∧ (s.tport p).badRun = 15 ∧ n = 0 :=
  ⟨{ upL 95 { st := .admitted } with time := { parent := some 95, ports := [(95, { badRun := 15 })] } }, 95, 0, 0, 2560002, {}, by decide⟩
theorem test_action_missed : ∃ (s : State) (row v : Nat), row < 16 ∧ coreUp s = true ∧ fld v 63 56 ≤ 3 ∧ fld v 63 56 ≠ 0 ∧ fld v 127 64 ≤ s.time.count ∧
    Loggable s 0x0207 0 0 := ⟨up, 15, 3 * 2 ^ 56, by unfold Loggable; decide⟩


/-! ### A firmware set that verifies, given fuses that hold its key's hash -/

/-- The state that SHAKE256 has after no bytes at all (FIPS 202). -/
theorem shake_block : absorbAll 1 (List.replicate 25 0) (shakePad []) =
    [1408967024370891078, 2660288676776327971, 9375289784279420223, 3420155637137870005, 68328982030081495, 17767462936550376907,
     9706552727850222332, 13746313944957331776, 6285249846908952084, 16382605403949050985, 8904622027833477084, 5992187373461210351,
     13227060313046097460, 1175488182848616386, 16506064000904152792, 9714007992783491733, 15933519556721693171, 4217439691474232371,
     13330507119975600100, 99872467501470269, 16297867810027944918, 15246305147534304439, 15630597895122669842, 8204945563355246737,
     17039162632324942729] := by decide +kernel

/-- The digest of no bytes begins as FIPS 202's test vector says: 46 B9 DD 2B 0B A8 8D 13. -/
theorem test_shake_empty : shake256 [] 8 = [0x46#8, 0xB9#8, 0xDD#8, 0x2B#8, 0x0B#8, 0xA8#8, 0x8D#8, 0x13#8] := by
  simp only [shake256, show (shakePad []).length / 136 = 1 from by decide +kernel, shake_block]; decide +kernel

theorem shake_empty16 : shakeNat [] 16 = 94011020446714550199505813478687304484 := by
  simp only [shakeNat, shake256, show (shakePad []).length / 136 = 1 from by decide +kernel, shake_block]; decide +kernel

theorem shake_empty64 : shakeNat [] 64 =
    0x46b9dd2b0ba88d13233b3feb743eeb243fcd52ea62b81b82b50c27646ed5762fd75dc4ddd8c0f200cb05019d67b592f6fc821c49479ab48640292eacb3b7c4be := by
  simp only [shakeNat, shake256, show (shakePad []).length / 136 = 1 from by decide +kernel, shake_block]; decide +kernel

/-- The neutral point's 57 bytes: as a public key, and as the first half of a signature whose second half is 0, it verifies every message. -/
def neutral : List Byte := bytesBE (2 ^ 448) 57

theorem edMul_zero (k w : Nat) : edMul edZero k w = edZero := by
  cases w with
  | zero => rfl
  | succ w =>
    have h : edAdd edZero edZero = edZero := by decide +kernel
    simp only [edMul]
    have : ∀ l : List Nat, l.foldl (fun r i => if bitAt k (w - i) = true then edAdd (edAdd r r) edZero else edAdd r r) edZero = edZero := by
      intro l
      induction l with
      | nil => rfl
      | cons a l ih => simp only [List.foldl_cons, h, ite_self]; exact ih
    exact this _

theorem edMul_base_zero : edMul (edMul edBase 0 448) 4 3 = edZero := by decide +kernel

theorem neutral_verifies (msg : List Byte) : ed448Verify neutral msg (neutral ++ List.replicate 57 0) = true := by
  have h1 : edDecode neutral = some edZero := by decide +kernel
  have h2 : edDecode ((neutral ++ List.replicate 57 0).take 57) = some edZero := by decide +kernel
  have h3 : edAdd edZero edZero = edZero := by decide +kernel
  have h4 : natLE ((neutral ++ List.replicate 57 0).drop 57) = 0 := by decide +kernel
  have h5 : (neutral ++ List.replicate 57 0).length = 114 := by decide +kernel
  have h6 : (0 : Nat) < ed448L := by decide +kernel
  have h7 : edSame edZero edZero = true := by decide +kernel
  simp only [ed448Verify, h1, h2, h3, h4, h5, h6, h7, edMul_zero, edMul_base_zero, decide_true, Bool.and_self]

/-- A set's area: a manifest of six parts of no bytes, one of each kind 1 to 6, its vendor key and signature the neutral point's. -/
def goodSet : Tbl Nat :=
  [(0, 0x455a4d460001060043592d455a39360000000000000000000000ffff000000000000000700000000000000000000080400010000000000000000000000000000),
   (1, 0x1000000000000000000000000000000000000000000000000000000000000000000000000000000000000000000000000000000000000000000000000000000),
   (4, 0x10000000000000000200000000000000000000000000000000000000000000046b9dd2b0ba88d13233b3feb743eeb243fcd52ea62b81b82b50c27646ed5762f),
   (5, 0xd75dc4ddd8c0f200cb05019d67b592f6fc821c49479ab48640292eacb3b7c4be0200000000000000002000000000000000000000000000000000000000000000),
   (6, 0x46b9dd2b0ba88d13233b3feb743eeb243fcd52ea62b81b82b50c27646ed5762fd75dc4ddd8c0f200cb05019d67b592f6fc821c49479ab48640292eacb3b7c4be),
   (7, 0x30000000000000000200000000000000000000000000000000000000000000046b9dd2b0ba88d13233b3feb743eeb243fcd52ea62b81b82b50c27646ed5762f),
   (8, 0xd75dc4ddd8c0f200cb05019d67b592f6fc821c49479ab48640292eacb3b7c4be0400000000000000002000000000000000000000000000000000000000000000),
   (9, 0x46b9dd2b0ba88d13233b3feb743eeb243fcd52ea62b81b82b50c27646ed5762fd75dc4ddd8c0f200cb05019d67b592f6fc821c49479ab48640292eacb3b7c4be),
   (10, 0x50000000000000000200000000000000000000000000000000000000000000046b9dd2b0ba88d13233b3feb743eeb243fcd52ea62b81b82b50c27646ed5762f),
   (11, 0xd75dc4ddd8c0f200cb05019d67b592f6fc821c49479ab48640292eacb3b7c4be0600000000000000002000000000000000000000000000000000000000000000),
   (12, 0x46b9dd2b0ba88d13233b3feb743eeb243fcd52ea62b81b82b50c27646ed5762fd75dc4ddd8c0f200cb05019d67b592f6fc821c49479ab48640292eacb3b7c4be),
   (28, 0x100000000000000000000000000000000000000000000000000000000000000)]

/-- The fuses that go with it: the key's hash, and a die revision of 16 bits (R504, R508). -/
def FusesFit : Prop := Config.fused 0x110101 = shakeNat neutral 64 ∧ Config.fused 3 < 2 ^ 16

/-- The part's own number is in the manifest, its owner is not enrolled, and its floor is 0, as at reset. -/
theorem goodSet_manifest (f : FusesFit) {s : State} (h : s.regs = []) : manifestReason s goodSet = 0 := by
  obtain ⟨f1, f2⟩ := f
  have r : ∀ o row, s.reg o row = State.reset.reg o row := fun o row => by simp only [State.reg, h]; rfl
  unfold manifestReason
  rw [if_neg (by decide +kernel), if_neg, if_neg, if_neg, if_neg, if_neg, if_neg]
  · simp only [tableOk, ownerPartOk, enrolled, ownerKey, r]; decide +kernel
  · simp only [r]; decide +kernel
  · simp only [enrolled, ownerKey, r]; decide +kernel
  · rw [show bytesBE (mfField goodSet 1535 1080) 57 = neutral from by decide +kernel,
      show areaBytes goodSet (mfLength goodSet - 228) 114 = neutral ++ List.replicate 57 0 from by decide +kernel, neutral_verifies]
    decide
  · rw [f1, show bytesBE (mfField goodSet 1535 1080) 57 = neutral from by decide +kernel]; simp
  · rw [r, show mfField goodSet 1983 1856 = State.reset.reg Dict.ID_PART from by decide +kernel,
      show mfField goodSet 1855 1840 = 0 from by decide +kernel, show mfField goodSet 1839 1824 = 65535 from by decide +kernel]
    omega

theorem goodSet_verifies (f : FusesFit) {s : State} (h : s.regs = []) : setVerifies s goodSet = true := by
  have e : partChunks goodSet = [] := by decide +kernel
  have l : partsOf goodSet = (List.range 6).map fun i => { kind := i + 1, len := 0, first := 32, chunks := 0, hash := shakeNat [] 64 } := by
    rw [shake_empty64]; decide +kernel
  simp [setVerifies, goodSet_manifest f h, e, l, areaBytes, List.range_succ]

theorem crcBits_lt (v n : Nat) : ∀ reg, reg < 2 ^ 16 → crcBits 16 0x1021 reg v n < 2 ^ 16 := by
  induction n with
  | zero => intro reg h; exact h
  | succ n ih => intro reg h; exact ih _ (Nat.xor_lt_two_pow (Nat.mod_lt _ (by decide)) (by split <;> decide))

/-- A commit record of a digest reads back. -/
theorem commit_back {d : Nat} (h : d < 2 ^ 128) : readCommit (packCommit { digest := d }) = some { digest := d } := by
  have c : ∀ x, crc16 x < 65536 := fun x => by unfold crc16; exact crcBits_lt _ _ _ (by decide)
  have v : packCommit { digest := d } = d * 65536 + crc16 d := by
    simp only [packCommit, put, b2n, Nat.zero_mod, Nat.shiftLeft_eq, Nat.mod_eq_of_lt h]
    simp
  have q : packCommit { digest := d } / 65536 = d := by have := c d; omega
  have m : packCommit { digest := d } % 65536 = crc16 d := by have := c d; omega
  have f : ∀ hi lo, 16 ≤ lo → fld (packCommit { digest := d }) hi lo = d >>> (lo - 16) % 2 ^ (hi + 1 - lo) := by
    intro hi lo hl
    rw [fld, show lo = 16 + (lo - 16) by omega, Nat.shiftRight_add, Nat.shiftRight_eq_div_pow _ 16, show (2 : Nat) ^ 16 = 65536 from rfl, q]
    simp
  have z : ∀ n, 128 ≤ n → d >>> n = 0 := fun n hn => by
    rw [Nat.shiftRight_eq_div_pow]; exact Nat.div_eq_of_lt (Nat.lt_of_lt_of_le h (Nat.pow_le_pow_right (by decide) hn))
  simp only [readCommit, q, m, ↓reduceIte]
  rw [f _ _ (by decide), f _ _ (by decide), f _ _ (by decide), f _ _ (by decide), f _ _ (by decide), f _ _ (by decide),
    z _ (by decide), z _ (by decide), z _ (by decide), z _ (by decide), z _ (by decide)]
  first | (simp [Nat.mod_eq_of_lt h]; done) | (simp; exact Nat.lt_of_lt_of_le h (by decide))

theorem areaBytes_eq {a b : Tbl Nat} {off : Nat} (n : Nat) (h : ∀ i, tget 0 a (off / 64 + i) = tget 0 b (off / 64 + i)) :
    areaBytes a off n = areaBytes b off n := by
  unfold areaBytes; simp only [h]

/-- A chunk's bytes do not depend on the chunk map. -/
theorem chunk_zero (x : Nat) : chunkBytes [(28, x)] 32 = chunkBytes [] 32 :=
  areaBytes_eq _ fun i => by
    simp only [tget]; rw [if_neg (by omega)]

/-- The map's entry of chunk 32 is the first 32 bytes of its row. -/
theorem map_entry {x : Nat} (h : x < 256 ^ 32) : mapHash [(28, x * 256 ^ 32)] 32 = x := by
  have e : areaBytes [(28, x * 256 ^ 32)] 1792 32 = (bytesBE (x * 256 ^ 32) (32 + 32)).take 32 := by
    simp [areaBytes, tget, List.range_succ]
  rw [mapHash, areaNat, show 1792 + 32 * (32 - 32) = 1792 from rfl, e, take_bytesBE, natBE_bytesBE, Nat.mul_div_cancel _ (by decide),
    Nat.mod_eq_of_lt h]

theorem shake_lt (m : List Byte) (n : Nat) : shakeNat m n < 256 ^ n :=
  Nat.lt_of_lt_of_le (natBE_lt _) (Nat.pow_le_pow_right (by decide) (by first | (simp [shake256]; done) | (simp [shake256]; omega)))

theorem digest_lt (t : Tbl Nat) : setDigest t < 2 ^ 128 := by
  unfold setDigest; exact Nat.lt_of_lt_of_le (shake_lt _ _) (by decide)

/-- A chunk of zeros whose map entry is its digest is good; one whose entry is another is not. -/
theorem chunk_good : chunkGood [(28, shakeNat (chunkBytes [] 32) 32 * 256 ^ 32)] 32 = true := by
  rw [chunkGood, chunk_zero, map_entry (shake_lt _ _)]; exact decide_eq_true rfl

theorem chunk_bad : ∃ x, x ≤ 1 ∧ chunkGood [(28, x * 256 ^ 32)] 32 = false := by
  by_cases h : shakeNat (chunkBytes [] 32) 32 = 0
  · exact ⟨1, by decide, by rw [chunkGood, chunk_zero, map_entry (by decide), h]; decide⟩
  · exact ⟨0, by decide, by rw [chunkGood, chunk_zero, map_entry (by decide)]; simpa using h⟩

/-! ### Commands that name what the part has not, one for each check -/

/-- A command is not well formed, and stops with the fault that names what is missing. -/
def stopsWith (i : Instr) (f : Fault) : Bool := !i.wellFormed && (match exec i up with | .fault g => decide (g = f) | _ => false)

theorem test_illFormed_fabricPort : stopsWith (.signalDetect 96) .noSuchPort = true := by decide +kernel
theorem test_illFormed_switchPort : stopsWith (.packetLookup 102) .noSuchPort = true := by decide +kernel
theorem test_illFormed_internalPort : stopsWith (.packetInject 95) .noSuchPort = true := by decide +kernel
theorem test_illFormed_hostPort : stopsWith (.putReceive 100) .noSuchPort = true := by decide +kernel
theorem test_illFormed_lane : stopsWith (.blockReceive 192 1 0) .noSuchLane = true := by decide +kernel
theorem test_illFormed_module : stopsWith (.moduleTrainStart 4) .noSuchModule = true := by decide +kernel
theorem test_illFormed_function : stopsWith (.functionResetRequest 1024) .noSuchFunction = true := by decide +kernel
theorem test_illFormed_queue : stopsWith (.put 1048576) .noSuchQueue = true := by decide +kernel
theorem test_illFormed_row : stopsWith (.timeActionsWrite 16 0) .noSuchRow = true := by decide +kernel
theorem test_illFormed_lastRow : stopsWith (.lastArmCheck 101 0) .noSuchRow = true := by decide +kernel
theorem test_illFormed_lastIndex : stopsWith (.lastArmCheck 0 4096) .noSuchRow = true := by decide +kernel
theorem test_illFormed_target : stopsWith (.claimRead 12) .noSuchTarget = true := by decide +kernel
theorem test_illFormed_core : stopsWith (.cobblerCoreReset 8) .noSuchCore = true := by decide +kernel
theorem test_illFormed_slice : stopsWith (.cobblerSliceEnd 9 0 true) .noSuchCore = true := by decide +kernel
theorem test_illFormed_bench : stopsWith (.benchPowerUp 12) .noSuchBench = true := by decide +kernel
theorem test_illFormed_arbiter : stopsWith (.arbitrationParityError 13) .noSuchBench = true := by decide +kernel
theorem test_illFormed_counter : stopsWith (.counterParityError 544 true) .noSuchCounter = true := by decide +kernel
theorem test_illFormed_semaphore : stopsWith (.semStateParityError 4096) .noSuchSemaphore = true := by decide +kernel
theorem test_illFormed_source : stopsWith (.semTry (.page 0 4096 0)) .noSuchFunction = true := by decide +kernel

/-! ### Words, reset and the queue -/

theorem test_no_word_spells_a_command : decodeTableWord 32 0xFFFFFFFF = none ∧ State.reset.withFetchWord 32 5 = State.reset := ⟨rfl, rfl⟩
theorem test_reset_runs_nothing : State.reset.pending = [] ∧ coreUp State.reset = false ∧ step State.reset = .next State.reset := ⟨rfl, by decide +kernel, rfl⟩

/-! ### Worked values of the spec -/

/-- Something is true of the next state that an outcome answers. -/
def gives (o : Host.Outcome State Fault Refusal) (f : State → Bool) : Bool :=
  match o with
  | .next t => f t
  | _ => false

/-- R116's example: SENT_4 is 0x3A10 where RCVD_4 is 0x3A0E and FREED_4 0x39F0; both rise by the drift of 2, and 0x0405 is logged. -/
theorem test_credit_drift :
    gives (exec (.creditSyncReceive 5 { num := 7, sent := [0, 0, 0, 0, 0x3A10, 0, 0, 0] })
      (upL 5 { st := .admitted, ne := 7, rcvd := [0, 0, 0, 0, 0x3A0E, 0, 0, 0], freed := [0, 0, 0, 0, 0x39F0, 0, 0, 0] })) (fun t =>
      (t.link 5).rcvd.getD 4 0 == 0x3A10 && (t.link 5).freed.getD 4 0 == 0x39F2 && t.mon.fault.queue.map (·.code) == [0x0405]) = true := by
  decide +kernel

/-- The replay across the wrap (04_link_layer.md): the ACKCR of NE 0xFFD with NAK_ID 6 takes the first two flits off, and the replay
starts at 0xFFD. -/
theorem test_replay_across_the_wrap :
    gives (exec (.ackcrReceive 5 { ne := 0xFFD, nak := true, nakId := 6 })
      (upL 5 { st := .admitted, oldest := 0xFFB, next := 0x01F, served := 5, replay := List.replicate 36 {} })) (fun t =>
      (t.link 5).oldest == 0xFFD && (t.link 5).replay.length == 34 && (t.link 5).replayPos == some 0) = true := by decide +kernel

/-- The ring of 64 units (09_queues.md): 2 is fresh, 125 stale, 56 fresh, and 57 laps. -/
theorem test_ring_of_64 :
    [judgeProducer 64 120 120 2, judgeProducer 64 120 2 125, judgeProducer 64 120 2 56, judgeProducer 64 120 56 57] = [.fresh, .stale, .fresh, .lap] ∧
    [ringPhase 64 120, ringPhase 64 127, ringPhase 64 0, ringPhase 64 1] = [0, 0, 1, 1] := by decide +kernel

/-- The running part with endpoint 5's context with router 65. -/
def upReqAt (c : ReqCtx) : State := { up with rma := { req := [(reqKey 5 65, c)] } }

/-- R330's example: at 20,480 a period of 16 ACKED and 8 CE brings 15,360, and a quiet one 15,616. -/
theorem test_rate_example :
    let s := upReqAt { st := .open, rate := 20480, ackSum := 16, ceSum := 8 }
    let t := ratePeriod s (reqKey 5 65)
    (t.reqCtx (reqKey 5 65)).rate = 15360 ∧ ((ratePeriod t (reqKey 5 65)).reqCtx (reqKey 5 65)).rate = 15616 := by decide +kernel

/-- Counter 40 on event 0x204 of port 12, at 0xFFFF_FFFF_FFFE: two flits wrap it, set OVF and bit 0 of CNT_EVENTS; a third makes 1. -/
theorem test_counter_wraps :
    let s : State := { up with mon := { up.mon with cnt := { ctl := [(40, 2 ^ 63 + 2 ^ 60 + put 0x204 55 44 + put 12 42 23)], value := [(40, 0xFFFFFFFFFFFE)] } } }
    let t := s.count 0x204 12 2
    tget 0 t.mon.cnt.value 40 = 0 ∧ tget false t.mon.cnt.ovf 40 = true ∧ bitAt (evregGet t.mon.evreg Dict.CNT_EVENTS 0) 0 = true ∧
    tget 0 (t.count 0x204 12).mon.cnt.value 40 = 1 := by decide +kernel

/-- The store's example of 08_host_attach.md: the areas' sizes in MiB. -/
theorem test_store_areas :
    (storeHeadAreas ((((up.setReg Dict.QUEUE_MODE 0 1).setReg Dict.ATTACH_STORE_PEERS 0 4194304).setReg Dict.ATTACH_STORE_RESP_MIB 0 512).setReg
      Dict.ATTACH_STORE_TRACE_MIB 0 256)).map (· / 1048576) = [2, 64, 1024, 512, 256] := by decide +kernel

/-- A shift of 32 slots (07_lasts.md): slot 10 leaves in slot 42, and slot 70 in slot 22 of the next stitch. -/
theorem test_output_slots : [10, 70].map (fun sl => (outSlot { cfg := put 32 222 211 } sl).1) = [42, 22] := by decide +kernel

/-- R187: a packet begun on output 3 leaves BAD, and 0x0602 is logged for its bench. -/
theorem test_stored_flit_error :
    let s : State := { up with sw := { up.sw with pkts := [{ id := 1, inPort := 9, flits := [0, 0], total := 2, eop := true, looked := true, begun := true
                                                             copies := [{ out := 3, granted := true, crossed := 1, sent := 1 }] }] } }
    let t := memError s (.storedFlit 1)
    ((t.pkt? 1).map (·.bad), t.mon.fault.queue.map fun r => (r.code, r.scope, r.inst)) = (some true, [(0x0602, 2, 1)]) := by decide +kernel

/-- R187: no SOP flit of the packet has left, so it is discarded whole. -/
theorem test_stored_flit_discards :
    let s : State := { up with sw := { up.sw with pkts := [{ id := 1, inPort := 9, flits := [0, 0], total := 2, eop := true, looked := true
                                                             copies := [{ out := 3 }] }] } }
    (memError s (.storedFlit 1)).sw.pkts = [] := by decide +kernel

/-- R354: the parity error drops the entry alone. -/
theorem test_trans_cache_error :
    let s : State := { up with trans := { up.trans with tlb := [{ seg := 1, base := 0, size := 4096 }, { seg := 2, base := 0, size := 4096 }] } }
    let t := memError s (.transCache 2 16)
    (t.trans.tlb.map (·.seg), t.mon.fault.queue.map (·.code)) = ([1], [0x0B05]) := by decide +kernel

/-- R401: the block becomes VOID. -/
theorem test_coll_buffer_error :
    let s : State := up.updRow 7 fun x => { x with blocks := [{ bnum := 4, ins := [{ port := 2, hdr := {}, data := [1] }] }] }
    let t := memError s (.collBuffer 7 4)
    ((t.collRow 7).blocks.map fun b => (combine b.ins 0).hdr.void, t.mon.fault.queue.map (·.code)) = ([true], [0x0D05]) := by decide +kernel

/-! TimeRoleTakesEffect -/
theorem test_TimeRoleTakesEffect_1 : ∃ (s : State), coreUp s = true ∧ s.time.role ≠ TRole.master :=
  ⟨up, by decide +kernel⟩
theorem test_TimeRoleTakesEffect_2 : ∃ (s : State), coreUp s = true ∧ isMaster s.time = false :=
  ⟨up, by decide +kernel⟩
theorem test_TimeRoleTakesEffect_3 : ∃ (s : State), coreUp s = true ∧ isMaster s.time = true :=
  ⟨upT { role := .acting, st := .locked }, by decide +kernel⟩

/-! TimeEventsAct -/
theorem test_TimeEventsAct_1 : ∃ (s : State), s.time.role = TRole.standby ∧ s.time.st ≠ TState.free ∧ s.time.hasStamp = true ∧ s.reg Dict.TIME_TAKEOVER_ST ≤ s.time.count - s.time.stamp ∧ Loggable s 516 0 0 :=
  ⟨upT { role := .standby, st := .locked, hasStamp := true, count := 1000000, stamp := 1000000 - up.reg Dict.TIME_TAKEOVER_ST }, by unfold Loggable; decide +kernel⟩
theorem test_TimeEventsAct_2 : ∃ (s : State), (s.time.st = TState.locked ∨ s.time.st = TState.doubt) ∧ isMaster s.time = false ∧ 1024 < s.time.count - s.time.stamp ∧ Loggable s 514 0 0 :=
  ⟨upT { st := .doubt, count := 1025 }, by unfold Loggable; decide +kernel⟩
theorem test_TimeEventsAct_3 : ∃ (s : State), s.time.st = TState.acquiring ∧ 8192 ≤ s.time.count - s.time.acquireAt ∧ s.time.slowLogged = false ∧ Loggable s 522 0 0 :=
  ⟨upT { st := .acquiring, count := 8192 }, by unfold Loggable; decide +kernel⟩

/-! ProbeExchangeJudged -/
theorem test_ProbeExchangeJudged_1 : ∃ (s : State) (p : Nat), p < 96 ∧ probesRun (s.link p) = true ∧ (s.lane p).st ≠ LaneSt.loopback :=
  ⟨upL 95 { st := .hold }, 95, by decide +kernel⟩

/-! TimeInAtMaster -/
theorem test_TimeInAtMaster_1 : ∃ (s : State), isMaster s.time = true ∧ s.reg Dict.TIME_IN_MODE = 1 ∧ s.time.inStatus ≠ 2 :=
  ⟨{ upR Dict.TIME_IN_MODE 0 1 with time := { role := .master, st := .locked } }, by decide +kernel⟩
theorem test_TimeInAtMaster_2 : ∃ (s : State), isMaster s.time = true ∧ s.reg Dict.TIME_IN_MODE = 1 ∧ s.time.inStatus = 2 :=
  ⟨{ upR Dict.TIME_IN_MODE 0 1 with time := { role := .master, st := .locked, inStatus := 2 } }, by decide +kernel⟩
theorem test_TimeInAtMaster_3 : ∃ (s : State), (isMaster s.time = false ∨ s.reg Dict.TIME_IN_MODE ≠ 1) :=
  ⟨up, by decide +kernel⟩
theorem test_TimeInAtMaster_4 : ∃ (s : State), isMaster s.time = true ∧ s.reg Dict.TIME_IN_MODE = 1 ∧ s.time.inStatus = 2 ∧ Loggable s 517 0 0 :=
  ⟨{ upR Dict.TIME_IN_MODE 0 1 with time := { role := .master, st := .locked, inStatus := 2 } }, by unfold Loggable; decide +kernel⟩

/-! StitchActionWritten -/
theorem test_StitchActionWritten_1 : ∃ (s : State) (row : Nat) (v : Nat), row < 16 ∧ coreUp s = true ∧ fld v 63 56 ≤ 3 ∧ (fld v 63 56 ≠ 0 → fld v 127 64 ≤ s.time.count → Loggable s 519 0 0) :=
  ⟨up, 15, 3 * 2 ^ 56, by unfold Loggable; decide +kernel⟩
theorem test_StitchActionWritten_2 : ∃ (s : State) (row : Nat) (v : Nat), row < 16 ∧ coreUp s = true ∧ 3 < fld v 63 56 :=
  ⟨up, 15, 4 * 2 ^ 56, by decide +kernel⟩

/-! SliceOverrunCounted -/
theorem test_SliceOverrunCounted_1 : ∃ (slice : Nat), slice < 9 :=
  ⟨8, by decide +kernel⟩
theorem test_SliceOverrunCounted_2 : ∃ (s : State) (slice : Nat), slice < 9 ∧ (slice ≠ 0 ∨ s.time.st ≠ TState.doubt) :=
  ⟨up, 8, by decide +kernel⟩

/-- The running part with its control front end. -/
def upC (c : Ctl) : State := { up with ctl := c }

/-- The running part with units of the host attach. -/
def upH (h : HostUnit) : State := { up with host := h }


/-! FrontRequestAccepted -/
theorem test_FrontRequestAccepted_1 : ∃ (s : State) (f : Feed) (q : Req), frontFeed s = some f ∧ headOf s f = some q ∧ q.mute = false ∧ acceptStatus (takeHead s f) q = 0 ∧ q.op = 1 :=
  ⟨upC { sbReqQ := [{ feed := .sideband, op := 1, index := 0x0200, sub := 2, count := 1, seq := 7 }] }, .sideband, { feed := .sideband, op := 1, index := 0x0200, sub := 2, count := 1, seq := 7 }, by decide +kernel⟩
theorem test_FrontRequestAccepted_2 : ∃ (s : State) (f : Feed) (q : Req), frontFeed s = some f ∧ headOf s f = some q ∧ q.mute = false ∧ acceptStatus (takeHead s f) q = 0 ∧ q.op = 3 :=
  ⟨upC { sbReqQ := [{ feed := .sideband, op := 3, index := 0x0200, sub := 2, count := 1 }] }, .sideband, { feed := .sideband, op := 3, index := 0x0200, sub := 2, count := 1 }, by decide +kernel⟩
theorem test_FrontRequestAccepted_3 : ∃ (s : State) (f : Feed) (q : Req), frontFeed s = some f ∧ headOf s f = some q ∧ q.mute = false ∧ acceptStatus (takeHead s f) q = 0 ∧ q.op = 7 :=
  ⟨upC { sbReqQ := [{ feed := .sideband, op := 7, len := 1, data := [5] }] }, .sideband, { feed := .sideband, op := 7, len := 1, data := [5] }, by decide +kernel⟩
theorem test_FrontRequestAccepted_4 : ∃ (s : State) (f : Feed) (q : Req), frontFeed s = some f ∧ headOf s f = some q ∧ q.mute = false ∧ acceptStatus (takeHead s f) q = 0 ∧ q.op = 2 :=
  ⟨upC { sbReqQ := [{ feed := .sideband, op := 2, index := 0x0200, sub := 2, count := 1, len := 8, data := List.replicate 8 0 }] }, .sideband, { feed := .sideband, op := 2, index := 0x0200, sub := 2, count := 1, len := 8, data := List.replicate 8 0 }, by decide +kernel⟩
theorem test_FrontRequestAccepted_5 : ∃ (s : State) (f : Feed) (q : Req), frontFeed s = some f ∧ headOf s f = some q ∧ q.mute = false ∧ acceptStatus (takeHead s f) q ≠ 0 ∧ acceptStatus (takeHead s f) q ≠ 10 ∧ q.op = 2 ∧ q.feed = f ∧ (f = Feed.mbx ∨ f = Feed.sideband ∧ s.ctl.sbRespQ.length < 4) :=
  ⟨upC { sbReqQ := [{ feed := .sideband, op := 2, index := 0x0200, sub := 3 }] }, .sideband, { feed := .sideband, op := 2, index := 0x0200, sub := 3 }, by decide +kernel⟩

/-! ReadServedWriteApplied -/
theorem test_ReadServedWriteApplied_1 : ∃ (s : State) (q : Req) (rest : List Req) (o : Obj), coreUp s = true ∧ s.ctl.readCharge < 64 ∧ s.ctl.readQ = q :: rest ∧ q.mute = false ∧ q.feed = Feed.sideband ∧ s.ctl.sbRespQ.length < 4 ∧ q.op = 1 ∧ Dict.find? q.index q.sub = some o ∧ windowDormant s q o = false ∧ o.id ≠ Dict.TIME_PHASE_NOW.id :=
  ⟨upC { readQ := [{ feed := .sideband, op := 1, index := 0x0200, sub := 2, count := 1 }] }, { feed := .sideband, op := 1, index := 0x0200, sub := 2, count := 1 }, [], Dict.TIME_EPOCH_TAI_S, by decide +kernel⟩
theorem test_ReadServedWriteApplied_2 : ∃ (s : State) (q : Req) (rest : List Req), coreUp s = true ∧ s.ctl.readCharge < 64 ∧ s.ctl.readQ = q :: rest ∧ q.mute = false ∧ q.feed = Feed.sideband ∧ s.ctl.sbRespQ.length < 4 ∧ q.op = 7 :=
  ⟨upC { readCharge := 63, readQ := [{ feed := .sideband, op := 7 }] }, { feed := .sideband, op := 7 }, [], by decide +kernel⟩
theorem test_ReadServedWriteApplied_3 : ∃ (s : State) (q : Req) (rest : List Req), coreUp s = true ∧ s.ctl.applyQ = q :: rest ∧ q.accAt < s.time.count ∧ s.ctl.usedWrites < 32 ∧ q.mute = false ∧ q.feed = Feed.sideband ∧ s.ctl.sbRespQ.length < 4 ∧ q.op = 2 ∧ q.index = 512 ∧ q.sub = 2 ∧ q.row = 0 ∧ q.count = 1 ∧ q.data.length = 8 :=
  ⟨{ upC { usedWrites := 31, applyQ := [{ feed := .sideband, op := 2, index := 0x0200, sub := 2, count := 1, len := 8, data := List.replicate 8 1 }] } with time := { count := 1 } }, { feed := .sideband, op := 2, index := 0x0200, sub := 2, count := 1, len := 8, data := List.replicate 8 1 }, [], by decide +kernel⟩

/-! MailboxAndInbandTaken -/
theorem test_MailboxAndInbandTaken_1 : ∃ (s : State) (k : Nat) (rest : List Nat), s.ctl.persistQ = k :: rest :=
  ⟨upC { persistQ := [3] }, 3, [], by decide +kernel⟩
theorem test_MailboxAndInbandTaken_2 : ∃ (s : State) (k : Nat) (rest : List Nat), s.ctl.persistQ = k :: rest ∧ Loggable s 260 0 0 :=
  ⟨upC { persistQ := [3] }, 3, [], by unfold Loggable; decide +kernel⟩
theorem test_MailboxAndInbandTaken_3 : ∃ (s : State) (bytes : Nat), coreUp s = true ∧ s.host.units ≠ 0 ∧ bytes < 2048 ∧ s.ctl.mbxBusy = false ∧ s.ctl.mbxResp = false ∧ 16 ≤ bytes ∧ bytes ≤ 1024 ∧ bytes = 16 + (mailboxReq s bytes).len :=
  ⟨upH { units := 1 }, 16, by decide +kernel⟩
theorem test_MailboxAndInbandTaken_4 : ∃ (s : State) (bytes : Nat), coreUp s = true ∧ s.host.units ≠ 0 ∧ bytes < 2048 ∧ (s.ctl.mbxBusy = true ∨ s.ctl.mbxResp = true) :=
  ⟨{ upH { units := 1 } with ctl := { mbxResp := true } }, 2047, by decide +kernel⟩
theorem test_MailboxAndInbandTaken_5 : ∃ (s : State) (v : Nat), coreUp s = true ∧ s.host.units ≠ 0 ∧ bitAt v 0 = true :=
  ⟨upH { units := 1 }, 1, by decide +kernel⟩

/-- An in-band management request of an ECHO from router 5. -/
def echoPkt : Packet := { opc := 0xF0, sfna := 5, priv := true, payload := bytesBE (7 * 2 ^ 124) 16 }

/-- The running part with that request delivered at SP. -/
def upSp (sources : Nat) : State :=
  { (upR Dict.CTL_M_INBAND_ENABLE 0 1).setReg Dict.PMAP_MGMT_SOURCES 0 sources with sw := { delivered := [(101, [{ pkt := echoPkt }])] } }

theorem test_MailboxAndInbandTaken_6 : ∃ (s : State) (d : Delivered), deliveredHead s portSP 240 = some d ∧ d.pkt.priv = true ∧ sourceAllowed s d.pkt.sfna = true ∧ inbandOpen s = true ∧ 16 ≤ d.pkt.payload.length ∧ List.find? (dupMatches (inbandReq d)) s.ctl.dups = none ∧ s.ctl.dups.length < 256 ∧ s.ctl.inbandQ.length < 16 :=
  ⟨upSp (2 ^ 63 + 5 * 2 ^ 32 + 0x3FFFF), { pkt := echoPkt }, by decide +kernel⟩
theorem test_MailboxAndInbandTaken_7 : ∃ (s : State) (d : Delivered), deliveredHead s portSP 240 = some d ∧ d.pkt.priv = true ∧ sourceAllowed s d.pkt.sfna = false :=
  ⟨upSp 0, { pkt := echoPkt }, by decide +kernel⟩

/-! SidebandAndMPortReset -/
theorem test_SidebandAndMPortReset_1 : ∃ (s : State) (n : Nat) (pec : PecCheck), s.pwr.off = false ∧ s.ctl.sbReqQ.length < 4 ∧ 16 ≤ n ∧ n ≤ 252 ∧ pecFails s pec = false :=
  ⟨up, 16, .good, by decide +kernel⟩
theorem test_SidebandAndMPortReset_2 : ∃ (s : State) (n : Nat) (pec : PecCheck), s.pwr.off = false ∧ s.ctl.sbReqQ.length < 4 ∧ 16 ≤ n ∧ n ≤ 252 ∧ pecFails s pec = true :=
  ⟨up, 252, .bad, by decide +kernel⟩
theorem test_SidebandAndMPortReset_3 : ∃ (s : State) (r : Resp) (rest : List Resp), s.pwr.off = false ∧ s.ctl.sbRespQ = r :: rest :=
  ⟨upC { sbRespQ := [{}] }, {}, [], by decide +kernel⟩
theorem test_SidebandAndMPortReset_4 : ∃ (s : State), s.pwr.off = false :=
  ⟨up, by decide +kernel⟩
theorem test_SidebandAndMPortReset_5 : ∃ (s : State) (v : Nat), coreUp s = true ∧ v ≤ 1 :=
  ⟨up, 1, by decide +kernel⟩
theorem test_SidebandAndMPortReset_6 : ∃ (s : State), idleResetDue s = true :=
  ⟨{ upR Dict.CTL_M_IDLE_RESET_FR 0 65535 with ctl := { mMasters := [{ agent := 4 }] }, sem := { sems := [(4095, { st := .held, owner := some (.m false 4) })] }, time := { count := 65535 * 1024 } }, by decide +kernel⟩
theorem test_SidebandAndMPortReset_7 : ∃ (s : State), s.ctl.mResetDue = true ∧ Loggable s 261 0 0 :=
  ⟨upC { mResetDue := true }, by unfold Loggable; decide +kernel⟩

/-! BringUpTransitions -/
theorem test_BringUpTransitions_1 : ∃ (s : State) (p : Nat), p < 96 ∧ (s.lane p).st = LaneSt.detect :=
  ⟨upA 95 { st := .detect }, 95, by decide +kernel⟩
theorem test_BringUpTransitions_2 : ∃ (s : State) (p : Nat), p < 96 ∧ (s.lane p).st = LaneSt.rest :=
  ⟨upA 95 { st := .rest }, 95, by decide +kernel⟩
theorem test_BringUpTransitions_3 : ∃ (s : State) (p : Nat), p < 96 ∧ ((s.lane p).st = LaneSt.lock ∨ (s.lane p).st = LaneSt.block ∨ (s.lane p).st = LaneSt.train ∨ (s.lane p).st = LaneSt.stripe ∨ (s.lane p).st = LaneSt.seam ∧ (s.lane p).fromRest = false) :=
  ⟨upA 95 { st := .seam }, 95, by decide +kernel⟩
theorem test_BringUpTransitions_4 : ∃ (s : State) (p : Nat), p < 96 ∧ (s.lane p).st = LaneSt.up ∧ ((s.lane p).sentRest = false ∨ (s.link p).psc ≠ some 4) ∧ Loggable s 777 1 p :=
  ⟨upA 95 { st := .up }, 95, by unfold Loggable; decide +kernel⟩
theorem test_BringUpTransitions_5 : ∃ (s : State) (p : Nat), p < 96 ∧ (s.lane p).st = LaneSt.lock ∧ (s.lane p).lockAt + 9766 ≤ s.time.count :=
  ⟨{ upA 95 { st := .lock } with time := { count := 9766 } }, 95, by decide +kernel⟩
theorem test_BringUpTransitions_6 : ∃ (s : State) (p : Nat), p < 96 ∧ ((s.lane p).st = LaneSt.lock ∨ (s.lane p).st = LaneSt.block ∨ (s.lane p).st = LaneSt.train ∨ (s.lane p).st = LaneSt.stripe) ∧ (s.lane p).lockAt + 1024 * s.reg Dict.LANE_BRINGUP_TIMEOUT_FR ≤ s.time.count ∧ Loggable s 769 1 p :=
  ⟨{ upA 95 { st := .stripe } with time := { count := 1024 * up.reg Dict.LANE_BRINGUP_TIMEOUT_FR } }, 95, by unfold Loggable; decide +kernel⟩
theorem test_BringUpTransitions_7 : ∃ (s : State) (p : Nat), p < 96 ∧ (s.lane p).st = LaneSt.failed ∧ (s.lane p).failedAt + 65536 ≤ s.time.count :=
  ⟨{ upA 95 { st := .failed } with time := { count := 65536 } }, 95, by decide +kernel⟩
theorem test_BringUpTransitions_8 : ∃ (s : State) (p : Nat), p < 96 ∧ (s.lane p).st = LaneSt.seam ∧ (s.lane p).fromRest = true ∧ (s.lane p).wakeAt + 79 ≤ s.time.count ∧ Loggable s 778 1 p :=
  ⟨{ upA 95 { st := .seam, fromRest := true } with time := { count := 79 } }, 95, by unfold Loggable; decide +kernel⟩

/-! LineReceived -/
theorem test_LineReceived_1 : ∃ (s : State) (lane : Nat) (h : Nat) (payload : Nat), lane < 192 ∧ (s.lane (lane / 2)).st = LaneSt.block ∧ (h = 1 ∨ h = 2) ∧ payload < 2 ^ 64 ∧ 63 ≤ (if lane % 2 = 1 then (s.lane (lane / 2)).b else (s.lane (lane / 2)).a).histLen ∧ (if lane % 2 = 1 then (s.lane (lane / 2)).b else (s.lane (lane / 2)).a).hist = 0 ∧ headersGood (if lane % 2 = 1 then (s.lane (lane / 2)).a else (s.lane (lane / 2)).b) = true ∧ (if lane % 2 = 1 then (s.lane (lane / 2)).b else (s.lane (lane / 2)).a).histLen ≤ 64 :=
  ⟨upA 95 { st := .block, a := { histLen := 64 }, b := { histLen := 63 } }, 191, 2, 2 ^ 64 - 1, by decide +kernel⟩
theorem test_LineReceived_2 : ∃ (s : State) (lane : Nat) (payload : Nat), lane < 192 ∧ (s.lane (lane / 2)).st = LaneSt.train ∧ payload < 2 ^ 64 ∧ blockGood 156 payload = false :=
  ⟨upA 95 { st := .train }, 191, 0, by decide +kernel⟩
theorem test_LineReceived_3 : ∃ (s : State) (lane : Nat) (payload : Nat), lane < 192 ∧ (s.lane (lane / 2)).st = LaneSt.train ∧ payload < 2 ^ 64 ∧ blockGood 156 payload = true ∧ (s.lane (lane / 2)).a.goodTrain = 0 ∧ (s.lane (lane / 2)).b.goodTrain = 0 ∧ (s.lane (lane / 2)).a.ackSeen = false ∧ (s.lane (lane / 2)).b.ackSeen = false :=
  ⟨upA 95 { st := .train }, 191, packTraining 1 true 95 5, by decide +kernel⟩
theorem test_LineReceived_4 : ∃ (s : State) (p : Nat) (symbols : List Nat), p < 96 ∧ (s.lane p).st = LaneSt.stripe ∧ (s.lane p).cleanRun = 3 ∧ correctable symbols = some 0 :=
  ⟨upA 95 { st := .stripe, cleanRun := 3 }, 95, [], by decide +kernel⟩
theorem test_LineReceived_5 : ∃ (s : State) (p : Nat) (payload : Nat) (pace : Nat), p < 96 ∧ (s.lane p).st = LaneSt.up ∧ payload < 2 ^ 64 ∧ blockGood 225 payload = true ∧ pace ≤ 14 ∧ (s.lane p).expect = some (fld payload 55 32) ∧ fld payload 31 28 = 0 :=
  ⟨upA 95 { st := .up, expect := some 7 }, 95, packMarker 7 0 true 3, 14, by decide +kernel⟩
theorem test_LineReceived_6 : ∃ (s : State) (p : Nat) (e : Nat), p < 96 ∧ (s.lane p).st = LaneSt.up ∧ (s.lane p).errRun < 2 ∧ (s.lane p).expect = some e :=
  ⟨upA 95 { st := .up, errRun := 1, expect := some (2 ^ 24 - 1) }, 95, 2 ^ 24 - 1, by decide +kernel⟩

/-! LaneWritesApplied -/
theorem test_LaneWritesApplied_1 : ∃ (s : State) (p : Nat), p < 96 ∧ coreUp s = true ∧ (s.lane p).st ≠ LaneSt.off :=
  ⟨upA 95 { st := .up }, 95, by decide +kernel⟩
theorem test_LaneWritesApplied_2 : ∃ (s : State) (p : Nat) (v : Nat), p < 96 ∧ coreUp s = true ∧ ((s.lane p).st = LaneSt.off ∨ (s.lane p).st = LaneSt.detect ∨ (s.lane p).st = LaneSt.failed) ∧ 1 ≤ v ∧ v ≤ 3 :=
  ⟨upA 95 { st := .failed }, 95, 3, by decide +kernel⟩
theorem test_LaneWritesApplied_3 : ∃ (s : State) (p : Nat) (v : Nat), p < 96 ∧ coreUp s = true ∧ ((s.lane p).st = LaneSt.off ∨ (s.lane p).st = LaneSt.detect ∨ (s.lane p).st = LaneSt.failed) ∧ v ≤ 2 :=
  ⟨upA 95 { st := .detect }, 95, 2, by decide +kernel⟩
theorem test_LaneWritesApplied_4 : ∃ (s : State) (p : Nat), p < 96 ∧ coreUp s = true ∧ ((s.lane p).st = LaneSt.lock ∨ (s.lane p).st = LaneSt.block ∨ (s.lane p).st = LaneSt.train ∨ (s.lane p).st = LaneSt.stripe ∨ (s.lane p).st = LaneSt.seam) :=
  ⟨upA 95 { st := .seam }, 95, by decide +kernel⟩
theorem test_LaneWritesApplied_5 : ∃ (s : State) (p : Nat), p < 96 ∧ coreUp s = true ∧ s.reg Dict.LANE_FEC_RX_MODE p = 1 ∧ tget none s.lasts.base p = none :=
  ⟨upR Dict.LANE_FEC_RX_MODE 95 1, 95, by decide +kernel⟩
theorem test_LaneWritesApplied_6 : ∃ (s : State) (lane : Nat) (v : Nat), lane < 192 ∧ coreUp s = true ∧ (s.lane (lane / 2)).st = LaneSt.up ∧ bitAt (tget { } s.eyes lane).ctl 31 = false ∧ bitAt v 31 = true ∧ eyeCheck s lane v = 0 :=
  ⟨upA 95 { st := .up }, 191, 2 ^ 31 + 36 * 2 ^ 22, by decide +kernel⟩
theorem test_LaneWritesApplied_7 : ∃ (s : State) (lane : Nat), lane < 192 ∧ bitAt (tget { } s.eyes lane).ctl 31 = true ∧ 2 ^ fld (tget { } s.eyes lane).ctl 27 22 ≤ (s.time.count - (tget { } s.eyes lane).startAt) * 10880 :=
  ⟨{ up with eyes := [(191, { ctl := 2 ^ 31 + 20 * 2 ^ 22 })], time := { count := 97 } }, 191, by decide +kernel⟩

/-! RestOnTheLanes -/
theorem test_RestOnTheLanes_1 : ∃ (s : State) (p : Nat), p < 96 ∧ couldRest s p = true ∧ s.reg Dict.PWR_REST_IDLE_FR ≤ (s.lane p).idleFrames :=
  ⟨{ (upR Dict.PWR_REST_ENABLE 95 1) with lanes := [(95, { st := .up, idleFrames := up.reg Dict.PWR_REST_IDLE_FR })], links := [(95, { st := .admitted })] }, 95, by decide +kernel⟩
theorem test_RestOnTheLanes_2 : ∃ (s : State) (p : Nat), p < 96 ∧ (s.lane p).st = LaneSt.up ∧ (s.lane p).restRun = 16 ∧ s.time.count % 1024 = 0 :=
  ⟨upA 95 { st := .up, restRun := 16 }, 95, by decide +kernel⟩
theorem test_RestOnTheLanes_3 : ∃ (s : State) (p : Nat), p < 96 ∧ (s.lane p).st = LaneSt.up ∧ (s.lane p).restRun = 16 ∧ s.time.count % 1024 ≠ 0 :=
  ⟨{ upA 95 { st := .up, restRun := 16 } with time := { count := 1023 } }, 95, by decide +kernel⟩
theorem test_RestOnTheLanes_4 : ∃ (s : State) (p : Nat), p < 96 ∧ (s.lane p).st = LaneSt.rest :=
  ⟨upA 95 { st := .rest }, 95, by decide +kernel⟩
theorem test_RestOnTheLanes_5 : ∃ (s : State) (p : Nat), p < 96 ∧ coreUp s = true ∧ (s.lane p).st = LaneSt.rest :=
  ⟨upA 95 { st := .rest }, 95, by decide +kernel⟩

/-! AckcrWindow -/
theorem test_AckcrWindow_1 : ∃ (s : State) (p : Nat) (a : Ackcr), p < 96 ∧ takesControl (s.link p) = true ∧ modSub 4096 a.ne (s.link p).oldest ≤ outstanding (s.link p) :=
  ⟨upL 95 { st := .admitted, oldest := 4000, next := 16 }, 95, { ne := 16 }, by decide +kernel⟩
theorem test_AckcrWindow_2 : ∃ (s : State) (p : Nat) (a : Ackcr), p < 96 ∧ takesControl (s.link p) = true ∧ outstanding (s.link p) < modSub 4096 a.ne (s.link p).oldest :=
  ⟨upL 95 { st := .isolated, oldest := 4000, next := 16 }, 95, { ne := 17 }, by decide +kernel⟩

/-! ReplayStartedAndJudged -/
theorem test_ReplayStartedAndJudged_1 : ∃ (s : State) (p : Nat), p < 96 ∧ takesControl (s.link p) = true ∧ (s.lane p).st ≠ LaneSt.rest ∧ (0 < (s.link p).ackOwed ∨ (s.link p).discarding = true ∨ (s.link p).ackAt + 8 ≤ s.time.count) :=
  ⟨upL 95 { st := .admitted, ackOwed := 1 }, 95, by decide +kernel⟩
theorem test_ReplayStartedAndJudged_2 : ∃ (s : State) (p : Nat) (a : Ackcr), p < 96 ∧ inService (s.link p) = true ∧ (s.link p).halted = false ∧ a.nak = true ∧ a.nakId ≠ (s.link p).served ∧ a.ne = (s.link p).oldest ∧ creditsBad ((s.link p).acked a 0 s.time.count) = false ∧ (s.link p).replays < s.reg Dict.LINK_REPLAY_LIMIT :=
  ⟨upL 95 { st := .hold, oldest := 4095, next := 3, served := 15 }, 95, { ne := 4095, nak := true, nakId := 0 }, by decide +kernel⟩
theorem test_ReplayStartedAndJudged_3 : ∃ (s : State) (p : Nat) (a : Ackcr), p < 96 ∧ inService (s.link p) = true ∧ (s.link p).halted = false ∧ a.nak = true ∧ a.nakId ≠ (s.link p).served ∧ a.ne = (s.link p).oldest ∧ creditsBad ((s.link p).acked a 0 s.time.count) = false ∧ s.reg Dict.LINK_REPLAY_LIMIT ≤ (s.link p).replays ∧ Loggable s 1027 1 p :=
  ⟨upL 95 { st := .admitted, oldest := 4095, next := 3, replays := 255 }, 95, { ne := 4095, nak := true, nakId := 15 }, by unfold Loggable; decide +kernel⟩
theorem test_ReplayStartedAndJudged_4 : ∃ (s : State) (p : Nat), p < 96 ∧ inService (s.link p) = true ∧ (s.link p).halted = false ∧ 0 < outstanding (s.link p) ∧ (s.link p).oldestAt + s.reg Dict.LINK_REPLAY_TIMEOUT_ST ≤ s.time.count ∧ (s.link p).replays < s.reg Dict.LINK_REPLAY_LIMIT :=
  ⟨{ upL 95 { st := .quarantine, oldest := 4095, next := 0 } with time := { count := up.reg Dict.LINK_REPLAY_TIMEOUT_ST } }, 95, by decide +kernel⟩
theorem test_ReplayStartedAndJudged_5 : ∃ (s : State) (p : Nat), p < 96 ∧ inService (s.link p) = true ∧ (s.link p).halted = false ∧ 0 < outstanding (s.link p) ∧ (s.link p).oldestAt + s.reg Dict.LINK_REPLAY_TIMEOUT_ST ≤ s.time.count ∧ s.reg Dict.LINK_REPLAY_LIMIT ≤ (s.link p).replays ∧ Loggable s 1027 1 p :=
  ⟨{ upL 95 { st := .quarantine, oldest := 4095, next := 0, replays := 255 } with time := { count := up.reg Dict.LINK_REPLAY_TIMEOUT_ST } }, 95, by unfold Loggable; decide +kernel⟩
theorem test_ReplayStartedAndJudged_6 : ∃ (s : State) (p : Nat), p < 96 ∧ takesControl (s.link p) = true ∧ (s.link p).discarding = true :=
  ⟨upL 95 { st := .isolated, discarding := true }, 95, by decide +kernel⟩
theorem test_ReplayStartedAndJudged_7 : ∃ (s : State) (p : Nat) (num : Nat), p < 96 ∧ takesControl (s.link p) = true ∧ (s.link p).discarding = false ∧ modSub 4096 (s.link p).ne num ≤ 2047 :=
  ⟨upL 95 { st := .admitted, ne := 2047 }, 95, 0, by decide +kernel⟩
theorem test_ReplayStartedAndJudged_8 : ∃ (s : State) (p : Nat) (num : Nat), p < 96 ∧ takesControl (s.link p) = true ∧ (s.link p).discarding = false ∧ 2047 < modSub 4096 (s.link p).ne num ∧ inService (s.link p) = true ∧ s.mon.fault.isolated = false ∧ (s.link p).due = none ∧ Loggable s 1034 1 p :=
  ⟨upL 95 { st := .admitted, ne := 2048 }, 95, 0, by unfold Loggable; decide +kernel⟩
theorem test_ReplayStartedAndJudged_9 : ∃ (s : State) (p : Nat), p < 96 ∧ inService (s.link p) = true ∧ (s.link p).discarding = true ∧ (s.link p).nakAt + s.reg Dict.LINK_NAK_WAIT_ST ≤ s.time.count :=
  ⟨{ upL 95 { st := .admitted, discarding := true, nakAt := 5 } with time := { count := 5 + up.reg Dict.LINK_NAK_WAIT_ST } }, 95, by decide +kernel⟩

/-! CreditsInitAndAdmission -/
theorem test_CreditsInitAndAdmission_1 : ∃ (s : State) (p : Nat) (c : CreditSync), p < 96 ∧ takesControl (s.link p) = true ∧ ((s.link p).discarding = true ∨ c.num ≠ (s.link p).ne) :=
  ⟨upL 95 { st := .admitted, ne := 4095 }, 95, { num := 0 }, by decide +kernel⟩
theorem test_CreditsInitAndAdmission_2 : ∃ (s : State) (p : Nat) (c : CreditSync), p < 96 ∧ takesControl (s.link p) = true ∧ (s.link p).discarding = false ∧ c.num = (s.link p).ne ∧ (∀ d ∈ drifts (s.link p) c, d = 0) :=
  ⟨upL 95 { st := .admitted, ne := 4095 }, 95, { num := 4095, sent := List.replicate 8 0 }, by decide +kernel⟩
theorem test_CreditsInitAndAdmission_3 : ∃ (s : State) (p : Nat) (c : CreditSync), p < 96 ∧ takesControl (s.link p) = true ∧ (s.link p).discarding = false ∧ c.num = (s.link p).ne ∧ (∃ d ∈ drifts (s.link p) c, d ≠ 0) ∧ (∀ d ∈ drifts (s.link p) c, d.natAbs ≤ s.reg Dict.LINK_DRIFT_LIMIT) ∧ Loggable s 1029 1 p :=
  ⟨upL 95 { st := .admitted, ne := 4095, rcvd := List.replicate 8 65535 }, 95, { num := 4095, sent := List.replicate 8 0 }, by unfold Loggable; decide +kernel⟩
theorem test_CreditsInitAndAdmission_4 : ∃ (s : State) (p : Nat) (i : InitBody), p < 96 ∧ (s.link p).st = LState.listening ∧ i.step ≤ 1 ∧ i.version = 1 ∧ put i.fna 24 7 + put i.port 6 0 = (s.lane p).partner :=
  ⟨{ upL 95 { st := .listening } with lanes := [(95, { st := .up, partner := put 5 24 7 + put 96 6 0 })] }, 95, { step := 1, fna := 5, port := 96 }, by decide +kernel⟩
theorem test_CreditsInitAndAdmission_5 : ∃ (s : State) (p : Nat) (i : InitBody), p < 96 ∧ (s.link p).st = LState.listening ∧ i.step ≤ 1 ∧ i.version ≠ 1 ∧ (s.link p).versionLogged = false ∧ Loggable s 1026 1 p :=
  ⟨upL 95 { st := .listening }, 95, { version := 2 }, by unfold Loggable; decide +kernel⟩
theorem test_CreditsInitAndAdmission_6 : ∃ (s : State) (p : Nat) (i : InitBody), p < 96 ∧ (s.link p).st = LState.listening ∧ i.step ≤ 1 ∧ i.version ≠ 1 ∧ (s.link p).versionLogged = true :=
  ⟨upL 95 { st := .listening, versionLogged := true }, 95, { version := 0 }, by decide +kernel⟩
theorem test_CreditsInitAndAdmission_7 : ∃ (s : State) (p : Nat), p < 96 ∧ (s.link p).st = LState.listening ∧ (s.link p).slowLogged = false ∧ (s.link p).listenAt + 1024 ≤ s.time.count ∧ Loggable s 1025 1 p :=
  ⟨{ upL 95 { st := .listening, listenAt := 1 } with time := { count := 1025 } }, 95, by unfold Loggable; decide +kernel⟩
theorem test_CreditsInitAndAdmission_8 : ∃ (s : State) (p : Nat), p < 96 ∧ coreUp s = true ∧ s.time.st = TState.locked ∧ (s.link p).st = LState.quarantine :=
  ⟨{ upL 95 { st := .quarantine } with time := { st := .locked } }, 95, by decide +kernel⟩
theorem test_CreditsInitAndAdmission_9 : ∃ (s : State) (p : Nat), p < 96 ∧ coreUp s = true ∧ s.time.st = TState.locked ∧ (s.link p).st = LState.admitted :=
  ⟨{ upL 95 { st := .admitted } with time := { st := .locked } }, 95, by decide +kernel⟩
theorem test_CreditsInitAndAdmission_10 : ∃ (s : State) (p : Nat), p < 96 ∧ coreUp s = true ∧ s.time.st = TState.locked ∧ inService (s.link p) = false :=
  ⟨{ upL 95 { st := .isolated } with time := { st := .locked } }, 95, by decide +kernel⟩
theorem test_CreditsInitAndAdmission_11 : ∃ (s : State) (p : Nat), p < 96 ∧ coreUp s = true ∧ ((s.link p).st = LState.quarantine ∨ (s.link p).st = LState.admitted ∨ (s.link p).st = LState.hold ∨ (s.link p).st = LState.isolated) ∧ s.mon.fault.isolated = false :=
  ⟨upL 95 { st := .isolated }, 95, by decide +kernel⟩
theorem test_CreditsInitAndAdmission_12 : ∃ (s : State) (p : Nat), p < 96 ∧ coreUp s = true ∧ ((s.link p).st = LState.down ∨ s.mon.fault.isolated = true) :=
  ⟨up, 95, by decide +kernel⟩

/-- A running part whose port 95 is Up and has this link layer. -/
def upF (l : LinkPort) : State := { upL 95 l with lanes := [(95, { st := .up })] }


/-! FlitReceived -/
theorem test_FlitReceived_1 : ∃ (s : State) (p : Nat) (f : BitVec 512), p < 96 ∧ (s.lane p).st = LaneSt.up ∧ (s.lane p).blind = false ∧ s.mon.fault.fatal = false ∧ (s.link p).st ≠ LState.down ∧ flitGood f.toNat = false ∧ inService (s.link p) = true ∧ (s.link p).discarding = false :=
  ⟨upF { st := .admitted }, 95, 1#512, by decide +kernel⟩
theorem test_FlitReceived_2 : ∃ (s : State) (p : Nat) (f : BitVec 512), p < 96 ∧ (s.lane p).st = LaneSt.up ∧ (s.lane p).blind = false ∧ s.mon.fault.fatal = false ∧ (s.link p).st ≠ LState.down ∧ flitGood f.toNat = false ∧ (inService (s.link p) = false ∨ (s.link p).discarding = true) :=
  ⟨upF { st := .isolated }, 95, 1#512, by decide +kernel⟩
theorem test_FlitReceived_3 : ∃ (s : State) (p : Nat) (f : BitVec 512), p < 96 ∧ (s.lane p).st = LaneSt.up ∧ (s.lane p).blind = false ∧ s.mon.fault.fatal = false ∧ (s.link p).st ≠ LState.down ∧ flitGood f.toNat = true ∧ flitCtl f.toNat = 0 :=
  ⟨upF { st := .admitted }, 95, BitVec.ofNat 512 (packFlit 0 0), by decide +kernel⟩
theorem test_FlitReceived_4 : ∃ (s : State) (p : Nat) (f : BitVec 512), p < 96 ∧ (s.lane p).st = LaneSt.up ∧ (s.lane p).blind = false ∧ s.mon.fault.fatal = false ∧ (s.link p).st ≠ LState.down ∧ flitGood f.toNat = true ∧ flitCtl f.toNat = 134 ∧ (s.link p).st = LState.listening ∧ subtypeOf (flitBody f.toNat) = 7 :=
  ⟨upF { st := .listening }, 95, BitVec.ofNat 512 (packFlit 134 (7 * 2 ^ 472)), by decide +kernel⟩
theorem test_FlitReceived_5 : ∃ (s : State) (p : Nat) (f : BitVec 512), p < 96 ∧ (s.lane p).st = LaneSt.up ∧ (s.lane p).blind = false ∧ s.mon.fault.fatal = false ∧ (s.link p).st ≠ LState.down ∧ flitGood f.toNat = true ∧ flitCtl f.toNat = 134 ∧ (s.link p).st ≠ LState.listening ∧ subtypeOf (flitBody f.toNat) = 1 :=
  ⟨upF { st := .admitted }, 95, BitVec.ofNat 512 (packFlit 134 (1 * 2 ^ 472)), by decide +kernel⟩
theorem test_FlitReceived_6 : ∃ (s : State) (p : Nat) (f : BitVec 512), p < 96 ∧ (s.lane p).st = LaneSt.up ∧ (s.lane p).blind = false ∧ s.mon.fault.fatal = false ∧ (s.link p).st ≠ LState.down ∧ flitGood f.toNat = true ∧ flitCtl f.toNat = 134 ∧ (s.link p).st ≠ LState.listening ∧ subtypeOf (flitBody f.toNat) = 2 :=
  ⟨upF { st := .admitted }, 95, BitVec.ofNat 512 (packFlit 134 (2 * 2 ^ 472)), by decide +kernel⟩
theorem test_FlitReceived_7 : ∃ (s : State) (p : Nat) (f : BitVec 512), p < 96 ∧ (s.lane p).st = LaneSt.up ∧ (s.lane p).blind = false ∧ s.mon.fault.fatal = false ∧ (s.link p).st ≠ LState.down ∧ flitGood f.toNat = true ∧ flitCtl f.toNat = 134 ∧ (s.link p).st ≠ LState.listening ∧ subtypeOf (flitBody f.toNat) = 6 :=
  ⟨upF { st := .admitted }, 95, BitVec.ofNat 512 (packFlit 134 (6 * 2 ^ 472)), by decide +kernel⟩
theorem test_FlitReceived_8 : ∃ (s : State) (p : Nat) (f : BitVec 512), p < 96 ∧ (s.lane p).st = LaneSt.up ∧ (s.lane p).blind = false ∧ s.mon.fault.fatal = false ∧ (s.link p).st ≠ LState.down ∧ flitGood f.toNat = true ∧ flitCtl f.toNat = 134 ∧ (s.link p).st ≠ LState.listening ∧ 7 < subtypeOf (flitBody f.toNat) ∧ Loggable s 1035 1 p :=
  ⟨upF { st := .admitted }, 95, BitVec.ofNat 512 (packFlit 134 (8 * 2 ^ 472)), by unfold Loggable; decide +kernel⟩
theorem test_FlitReceived_9 : ∃ (s : State) (p : Nat) (f : BitVec 512), p < 96 ∧ (s.lane p).st = LaneSt.up ∧ (s.lane p).blind = false ∧ s.mon.fault.fatal = false ∧ (s.link p).st ≠ LState.down ∧ flitGood f.toNat = true ∧ fld (flitCtl f.toNat) 7 6 = 1 ∧ inService (s.link p) = true ∧ (s.link p).discarding = false ∧ (s.link p).behind = 0 ∧ (s.link p).rxOpen = none ∧ bitAt (flitCtl f.toNat) 2 = false ∧ (s.link p).due = none ∧ Loggable s 1032 1 p :=
  ⟨upF { st := .admitted }, 95, BitVec.ofNat 512 (packFlit 64 0), by unfold Loggable; decide +kernel⟩
theorem test_FlitReceived_10 : ∃ (s : State) (p : Nat) (f : BitVec 512), p < 96 ∧ (s.lane p).st = LaneSt.up ∧ (s.lane p).blind = false ∧ s.mon.fault.fatal = false ∧ (s.link p).st ≠ LState.down ∧ flitGood f.toNat = true ∧ fld (flitCtl f.toNat) 7 6 = 1 ∧ inService (s.link p) = true ∧ (s.link p).discarding = false ∧ (s.link p).behind = 0 ∧ (s.link p).rxOpen = none ∧ bitAt (flitCtl f.toNat) 2 = true ∧ bitAt (flitCtl f.toNat) 1 = true ∧ (s.link p).st = LState.quarantine ∧ fld (flitCtl f.toNat) 5 3 ≠ 3 ∧ inDepth s p (fld (flitCtl f.toNat) 5 3) < committed (s.inPort p) (fld (flitCtl f.toNat) 5 3) ∧ (s.link p).freed.length = 8 ∧ (s.link p).rcvd.length = 8 ∧ Loggable s 1033 1 p :=
  ⟨{ upF { st := .quarantine } with sw := { pkts := [] } }, 95, BitVec.ofNat 512 (packFlit (64 + 7 * 8 + 6) 0), by unfold Loggable; decide +kernel⟩

/-! HintsAndBankSwitch -/
theorem test_HintsAndBankSwitch_1 : ∃ (p : Nat), p < 96 :=
  ⟨95, by decide +kernel⟩
theorem test_HintsAndBankSwitch_2 : ∃ (s : State) (v : Nat), coreUp s = true ∧ v ≤ 1 ∧ v ≠ s.reg Dict.ROUTE_BANK :=
  ⟨up, 1, by decide +kernel⟩
theorem test_HintsAndBankSwitch_3 : ∃ (s : State) (v : Nat), coreUp s = true ∧ v ≤ 1 ∧ v = s.reg Dict.ROUTE_BANK :=
  ⟨up, 0, by decide +kernel⟩
theorem test_HintsAndBankSwitch_4 : ∃ (s : State), s.sw.switched = true ∧ s.sw.drained = false ∧ s.sw.writableAt ≤ s.time.count :=
  ⟨{ up with sw := { switched := true, drained := false, writableAt := 9 }, time := { count := 9 } }, by decide +kernel⟩
theorem test_HintsAndBankSwitch_5 : ∃ (s : State), s.sw.switched = true ∧ s.sw.drained = false ∧ s.time.count < s.sw.writableAt :=
  ⟨{ up with sw := { switched := true, drained := false, writableAt := 9 }, time := { count := 8 } }, by decide +kernel⟩

/-- The running part with one packet held in its switch. -/
def upK (k : SwPkt) : State := { up with sw := { pkts := [k] } }

/-- The running part that holds a packet for an output. -/
def upO (out : Nat) (k : SwPkt) : State := { up with sw := { pkts := [k], outs := [(out, { order := [k.id] })] }, host := { units := 8 } }


/-! PacketsEnterAndArrive -/
theorem test_PacketsEnterAndArrive_1 : ∃ (s : State) (port : Nat) (i : InjPkt), 96 ≤ port ∧ port < 102 ∧ hpOpen s port 0 = true ∧ i.poisoned = false ∧ List.find? (fun i ↦ i.group.isNone && mayStart s port i) (tget [] s.sw.inject port) = some i :=
  ⟨{ up with sw := { inject := [(101, [{ pkt := { opc := 0x80, vc := 4 } }])] } }, 101, { pkt := { opc := 0x80, vc := 4 } }, by decide +kernel⟩
theorem test_PacketsEnterAndArrive_2 : ∃ (s : State) (port : Nat) (k : SwPkt), port < 96 ∧ nextLookup s port = some k ∧ s.pkt? k.id = some k ∧ k.own = false ∧ k.requeued = false ∧ k.stallAt = none ∧ s.reg Dict.CUP_K port = 0 ∧ k.hdr.tag = false ∧ headerBad s k = false ∧ misrouted s k = false ∧ modSub 1024 s.time.count k.hdr.age ≤ 640 ∧ k.hdr.mc = false ∧ k.hdr.dfna = s.reg Dict.ID_FNA ∧ s.reg Dict.ID_FNA ≠ 262143 :=
  ⟨{ (upR Dict.ID_FNA 0 65) with sw := { pkts := [{ id := 7, inPort := 95, inVc := 0, hdr := { opc := 1, dfna := 65, sfna := 3 } }] } }, 95, { id := 7, inPort := 95, inVc := 0, hdr := { opc := 1, dfna := 65, sfna := 3 } }, by decide +kernel⟩
theorem test_PacketsEnterAndArrive_3 : ∃ (s : State) (port : Nat) (k : SwPkt), port < 96 ∧ nextLookup s port = some k ∧ s.pkt? k.id = some k ∧ k.own = false ∧ k.requeued = false ∧ k.stallAt = none ∧ s.reg Dict.CUP_K port = 0 ∧ k.hdr.tag = false ∧ headerBad s k = true ∧ k.eop = true ∧ Loggable s 1281 1 port :=
  ⟨upK { id := 7, inPort := 95, inVc := 1, eop := true, hdr := { opc := 1, dfna := 65, sfna := 3 } }, 95, { id := 7, inPort := 95, inVc := 1, eop := true, hdr := { opc := 1, dfna := 65, sfna := 3 } }, by unfold Loggable; decide +kernel⟩
/-- An acknowledgement, a whole packet of one flit, that crossed to the host port at 99. -/
def ackPkt : SwPkt := { id := 7, eop := true, hdr := { pcls := 0, opc := 0x80, vc := 4 }, flits := packetBodies { pcls := 0, opc := 0x80, vc := 4 }, copies := [{ out := 99, vc := 4, granted := true, crossed := 1 }] }
theorem test_PacketsEnterAndArrive_4 : ∃ (s : State) (out : Nat) (k : SwPkt), 96 ≤ out ∧ out < 100 ∧ deliverable s out = some k ∧ s.pkt? k.id = some k ∧ ageOf k s.time.count ≤ 640 ∧ hpOpen s out 1 = true ∧ s.host.hostLost = false ∧ k.hdr.tag = false ∧ k.bad = false ∧ icrcPasses (deliveredPkt k) = true ∧ hostServes (deliveredPkt k).opc = true :=
  ⟨{ upO 99 ackPkt with time := { count := 640 } }, 99, ackPkt, by decide +kernel⟩
theorem test_PacketsEnterAndArrive_5 : ∃ (s : State) (out : Nat) (k : SwPkt), 96 ≤ out ∧ out < 100 ∧ deliverable s out = some k ∧ s.pkt? k.id = some k ∧ ageOf k s.time.count ≤ 640 ∧ hpOpen s out 1 = true ∧ s.host.hostLost = false ∧ k.hdr.tag = false ∧ k.bad = true ∧ Loggable s 1539 0 0 :=
  ⟨upO 99 { ackPkt with bad := true }, 99, { ackPkt with bad := true }, by unfold Loggable; decide +kernel⟩
/-- A whole request whose ICRC is wrong, that crossed to the host port at 96. -/
def badIcrc : SwPkt := { id := 7, eop := true, hdr := { opc := 1 }, flits := packetBodies { opc := 1, icrc := 1 }, copies := [{ out := 96, vc := 0, granted := true, crossed := 1 }] }
theorem test_PacketsEnterAndArrive_6 : ∃ (s : State) (out : Nat) (k : SwPkt), 96 ≤ out ∧ out < 100 ∧ deliverable s out = some k ∧ s.pkt? k.id = some k ∧ ageOf k s.time.count ≤ 640 ∧ hpOpen s out 1 = true ∧ s.host.hostLost = false ∧ k.hdr.tag = false ∧ k.bad = false ∧ icrcPasses (deliveredPkt k) = false ∧ Loggable s 1287 0 0 :=
  ⟨upO 96 badIcrc, 96, badIcrc, by unfold Loggable; decide +kernel⟩

/-! OutputsGrantAndSend -/
theorem test_OutputsGrantAndSend_1 : ∃ (s : State) (out : Nat) (v : Nat) (k : SwPkt), out < 102 ∧ v < 8 ∧ crossing s out < lanesOf out ∧ (s.outPort out).drr.now = v ∧ (s.outPort out).drr.fresh = true ∧ (vcView s (waitersOf s out) out v).waiting = true ∧ vcHead s (waitersOf s out) out v = some k ∧ vcEligible s out v k.total = true ∧ drrCharge s k.hdr ≤ tget 0 (s.outPort out).drr.deficit v + s.reg Dict.SW_DRR_QUANTUM v :=
  ⟨{ up with sw := { pkts := [{ id := 7, inPort := 3, looked := true, hdr := { opc := 0x80, vc := 7 }, copies := [{ out := 101, vc := 7 }] }], outs := [(101, { drr := { now := 7 } })] } }, 101, 7, { id := 7, inPort := 3, looked := true, hdr := { opc := 0x80, vc := 7 }, copies := [{ out := 101, vc := 7 }] }, by decide +kernel⟩
theorem test_OutputsGrantAndSend_2 : ∃ (s : State) (out : Nat), out < 102 ∧ waitersOf s out = [] :=
  ⟨up, 101, by decide +kernel⟩
theorem test_OutputsGrantAndSend_3 : ∃ (s : State) (p : Nat) (slot : Nat), p < 96 ∧ hasSlots (s.lane p) = true ∧ (s.link p).slotAt < slot ∧ slot < 80 ∧ s.mon.fault.fatal = false ∧ (s.outPort p).order = [] ∧ s.lasts.entries = [] ∧ inService (s.link p) = true ∧ (s.link p).ctlSent < 16 ∧ (s.link p).syncDue = false ∧ (s.link p).ackDue = true ∧ (s.link p).acksSent < 4 :=
  ⟨upF { st := .admitted, ackDue := true }, 95, 79, by decide +kernel⟩
theorem test_OutputsGrantAndSend_4 : ∃ (s : State) (p : Nat) (slot : Nat) (n : Nat) (f : Flit), p < 96 ∧ hasSlots (s.lane p) = true ∧ (s.link p).slotAt < slot ∧ slot < 80 ∧ s.mon.fault.fatal = false ∧ (s.outPort p).order = [] ∧ s.lasts.entries = [] ∧ inService (s.link p) = true ∧ (s.link p).ctlSent < 16 ∧ (s.link p).syncDue = false ∧ (s.link p).ackDue = false ∧ (s.link p).ctlQ = [] ∧ (s.link p).replayPos = some n ∧ (s.link p).replay[n]? = some f ∧ (s.link p).halted = false :=
  ⟨upF { st := .admitted, replay := [{ ctl := 64, body := 5 }], replayPos := some 0 }, 95, 1, 0, { ctl := 64, body := 5 }, by decide +kernel⟩
theorem test_OutputsGrantAndSend_5 : ∃ (s : State) (p : Nat) (slot : Nat), p < 96 ∧ hasSlots (s.lane p) = true ∧ (s.link p).slotAt < slot ∧ slot < 80 ∧ s.mon.fault.fatal = false ∧ (s.outPort p).order = [] ∧ s.lasts.entries = [] ∧ inService (s.link p) = true ∧ (s.link p).ctlSent < 16 ∧ (s.link p).syncDue = false ∧ (s.link p).ackDue = false ∧ (s.link p).ctlQ = [] ∧ (s.link p).replayPos = none :=
  ⟨upF { st := .admitted }, 95, 79, by decide +kernel⟩
theorem test_OutputsGrantAndSend_6 : ∃ (s : State) (out : Nat) (k : SwPkt), out < 102 ∧ overdue s out = some k ∧ s.pkt? k.id = some k ∧ Loggable s 1284 1 out :=
  ⟨{ up with sw := { pkts := [{ id := 7, flits := [5], copies := [{ out := 101, granted := true, crossed := 1 }] }] }, time := { count := 641 } }, 101, { id := 7, flits := [5], copies := [{ out := 101, granted := true, crossed := 1 }] }, by unfold Loggable; decide +kernel⟩

/-! AnchorsAndCupping -/
theorem test_AnchorsAndCupping_1 : ∃ (s : State) (port : Nat) (k : SwPkt), port < 102 ∧ stalledOf s port = some k ∧ s.pkt? k.id = some k ∧ copySet s k ≠ [] ∧ anchorRoom s k (copySet s k) = true :=
  ⟨{ (upR Dict.SW_MC_TABLE 16383 (2 ^ 97)) with sw := { pkts := [{ id := 7, inPort := 101, stallAt := some 5, hdr := { mc := true, dfna := 16383, vc := 7 } }] } }, 101, { id := 7, inPort := 101, stallAt := some 5, hdr := { mc := true, dfna := 16383, vc := 7 } }, by decide +kernel⟩
theorem test_AnchorsAndCupping_2 : ∃ (s : State) (port : Nat) (k : SwPkt), port < 102 ∧ stalledOf s port = some k ∧ s.pkt? k.id = some k ∧ copySet s k ≠ [] ∧ anchorRoom s k (copySet s k) = false :=
  ⟨{ (upR Dict.SW_MC_TABLE 16383 (2 ^ 97)) with sw := { pkts := [{ id := 7, inPort := 101, stallAt := some 5, total := 2 ^ 40, hdr := { mc := true, dfna := 16383, vc := 7 } }] } }, 101, { id := 7, inPort := 101, stallAt := some 5, total := 2 ^ 40, hdr := { mc := true, dfna := 16383, vc := 7 } }, by decide +kernel⟩
theorem test_AnchorsAndCupping_3 : ∃ (s : State) (port : Nat) (a : Nat) (k : SwPkt), port < 102 ∧ stalledOf s port = some k ∧ s.pkt? k.id = some k ∧ k.stallAt = some a ∧ k.stallLogged = false ∧ a + 1024 < s.time.count ∧ Loggable s 1541 0 0 :=
  ⟨{ upK { id := 7, inPort := 101, stallAt := some 5 } with time := { count := 1030 } }, 101, 5, { id := 7, inPort := 101, stallAt := some 5 }, by unfold Loggable; decide +kernel⟩
theorem test_AnchorsAndCupping_4 : ∃ (s : State) (port : Nat) (a : Nat) (k : SwPkt), port < 102 ∧ stalledOf s port = some k ∧ s.pkt? k.id = some k ∧ k.stallAt = some a ∧ (k.stallLogged = true ∨ s.time.count ≤ a + 1024) :=
  ⟨{ upK { id := 7, inPort := 101, stallAt := some 5 } with time := { count := 1029 } }, 101, 5, { id := 7, inPort := 101, stallAt := some 5 }, by decide +kernel⟩
theorem test_AnchorsAndCupping_5 : ∃ (s : State), s.reg Dict.CUP_COLLECTOR = 2 ∧ s.sw.cup.given + 16 ≤ s.reg Dict.CUP_INBAND_MAX ∧ 16 ≤ s.sw.cup.queue.length :=
  ⟨{ (upR Dict.CUP_COLLECTOR 0 2).setReg Dict.CUP_INBAND_MAX 0 64 with sw := { cup := { given := 48, queue := List.replicate 16 {} } } }, by decide +kernel⟩
theorem test_AnchorsAndCupping_6 : ∃ (s : State) (hp : Nat) (d : Delivered) (rest : List Delivered), hp < 4 ∧ tget [] s.sw.delivered (96 + hp) = d :: rest ∧ d.pkt.opc = 95 ∧ (d.pkt.dep ≠ s.reg Dict.CUP_RING_EP ∨ s.reg Dict.CUP_COLLECTOR ≠ 1) :=
  ⟨{ up with sw := { delivered := [(99, [{ pkt := { opc := 95, dep := 5 } }])] } }, 3, { pkt := { opc := 95, dep := 5 } }, [], by decide +kernel⟩
theorem test_AnchorsAndCupping_7 : ∃ (s : State) (v : Nat), coreUp s = true ∧ s.reg Dict.CUP_COLLECTOR ≠ 1 ∧ v % 4096 = 0 :=
  ⟨up, 4096, by decide +kernel⟩
theorem test_AnchorsAndCupping_8 : ∃ (s : State) (v : Nat), coreUp s = true ∧ s.reg Dict.CUP_COLLECTOR ≠ 1 ∧ 8 ≤ v ∧ v ≤ 20 :=
  ⟨up, 20, by decide +kernel⟩
theorem test_AnchorsAndCupping_9 : ∃ (s : State), coreUp s = true ∧ s.reg Dict.CUP_COLLECTOR = 1 :=
  ⟨upR Dict.CUP_COLLECTOR 0 1, by decide +kernel⟩

/-- The running part with one last entry, that of the highest port and index, or of a port's. -/
def upE (key : Nat) (e : LastEntry) : State := { up with lasts := { entries := [(key, e)] } }

/-- A last entry's configuration: its generation 3, its output, its base offset, its output label and its slots. -/
def lastCfg (out delta label slots : Nat) : Nat := put 3 247 244 + put 1 243 240 + put 1 239 230 + put out 229 223 + put delta 222 211 + put label 210 195 + put slots 136 58


/-! LastEntriesWrittenCheckedClosed -/
theorem test_LastEntriesWrittenCheckedClosed_1 : ∃ (s : State) (port : Nat) (index : Nat) (v : Nat), coreUp s = true ∧ port < 101 ∧ index < 4096 ∧ (s.last (4096 * port + index)).st.used = false ∧ fld v 229 223 ≠ 100 :=
  ⟨up, 100, 4095, lastCfg 99 0 5 1, by decide +kernel⟩
theorem test_LastEntriesWrittenCheckedClosed_2 : ∃ (s : State) (port : Nat) (index : Nat), coreUp s = true ∧ port < 101 ∧ index < 4096 ∧ (s.last (4096 * port + index)).st.used = true :=
  ⟨upE 413695 { st := .active }, 100, 4095, by decide +kernel⟩
theorem test_LastEntriesWrittenCheckedClosed_3 : ∃ (s : State) (port : Nat) (index : Nat), coreUp s = true ∧ port < 101 ∧ index < 4096 ∧ ((s.last (4096 * port + index)).st = LastSt.written ∨ (s.last (4096 * port + index)).st = LastSt.refused) :=
  ⟨upE 413695 { st := .refused }, 100, 4095, by decide +kernel⟩
theorem test_LastEntriesWrittenCheckedClosed_4 : ∃ (s : State) (port : Nat) (index : Nat), coreUp s = true ∧ port < 101 ∧ index < 4096 ∧ ((s.last (4096 * port + index)).st = LastSt.armed ∨ (s.last (4096 * port + index)).st = LastSt.active ∨ (s.last (4096 * port + index)).st = LastSt.suspended ∨ (s.last (4096 * port + index)).st = LastSt.broken) ∧ (s.last (4096 * port + index)).queue = [] :=
  ⟨upE 413695 { st := .suspended }, 100, 4095, by decide +kernel⟩
theorem test_LastEntriesWrittenCheckedClosed_5 : ∃ (s : State) (port : Nat) (index : Nat), port < 101 ∧ index < 4096 ∧ (s.last (4096 * port + index)).st = LastSt.written ∧ (s.last (4096 * port + index)).writtenAt < s.time.count ∧ s.time.count % 1024 = 0 ∧ armReason s (4096 * port + index) (s.last (4096 * port + index)) = none :=
  ⟨{ (upE 413695 { st := .written, cfg := lastCfg 95 0 5 2 }).setReg Dict.LAST_CAP 95 80 with links := [(95, { st := .admitted })], time := { count := 1024 } }, 100, 4095, by decide +kernel⟩
theorem test_LastEntriesWrittenCheckedClosed_6 : ∃ (s : State) (port : Nat) (index : Nat) (r : Nat), port < 101 ∧ index < 4096 ∧ (s.last (4096 * port + index)).st = LastSt.written ∧ (s.last (4096 * port + index)).writtenAt < s.time.count ∧ s.time.count % 1024 = 0 ∧ armReason s (4096 * port + index) (s.last (4096 * port + index)) = some r ∧ Loggable s 1793 0 0 :=
  ⟨{ upE 413695 { st := .written, cfg := 0 } with time := { count := 1024 } }, 100, 4095, 1, by unfold Loggable; decide +kernel⟩
theorem test_LastEntriesWrittenCheckedClosed_7 : ∃ (s : State) (port : Nat) (index : Nat), port < 101 ∧ index < 4096 ∧ (s.last (4096 * port + index)).st = LastSt.written ∧ (s.last (4096 * port + index)).writtenAt < s.time.count ∧ s.time.count % 1024 ≠ 0 :=
  ⟨{ upE 413695 { st := .written, cfg := 0 } with time := { count := 1025 } }, 100, 4095, by decide +kernel⟩

/-! ChunksAndSignalsOnLasts -/
theorem test_ChunksAndSignalsOnLasts_1 : ∃ (s : State) (p : Nat) (tag : Nat) (data : Nat), p < 96 ∧ tag < 2 ^ 32 ∧ data < 2 ^ 448 ∧ ((s.last (4096 * p + fld tag 27 16)).st = LastSt.empty ∨ (s.last (4096 * p + fld tag 27 16)).st = LastSt.written ∨ (s.last (4096 * p + fld tag 27 16)).st = LastSt.armed ∨ (s.last (4096 * p + fld tag 27 16)).st = LastSt.refused ∨ fld tag 31 28 ≠ (s.last (4096 * p + fld tag 27 16)).gen) ∧ Loggable s 1796 1 p :=
  ⟨up, 95, 2 ^ 32 - 1, 0, by unfold Loggable; decide +kernel⟩
theorem test_ChunksAndSignalsOnLasts_2 : ∃ (s : State) (p : Nat) (pos : Nat) (tag : Nat) (data : Nat) (v : Nat), p < 96 ∧ tag < 2 ^ 32 ∧ data < 2 ^ 448 ∧ (s.last (4096 * p + fld tag 27 16)).st = LastSt.active ∧ fld tag 31 28 = (s.last (4096 * p + fld tag 27 16)).gen ∧ (s.last (4096 * p + fld tag 27 16)).outPort < 96 ∧ lastDepth s p < 64 ∧ arrivalSlot (s.last (4096 * p + fld tag 27 16)) pos = true ∧ bitAt tag 4 = false ∧ (s.last (4096 * p + fld tag 27 16)).queue = [] ∧ shiftFor s (4096 * p + fld tag 27 16) (s.last (4096 * p + fld tag 27 16)) = some v ∧ v ≤ (s.last (4096 * p + fld tag 27 16)).delta :=
  ⟨{ upE (4096 * 95 + 4095) { st := .active, guard := 4, cfg := lastCfg 94 20 5 (2 ^ 78) } with lasts := { entries := [(4096 * 95 + 4095, { st := .active, guard := 4, cfg := lastCfg 94 20 5 (2 ^ 78) })], base := [(95, some 16)] } }, 95, 80 + 79, 3 * 2 ^ 28 + 4095 * 2 ^ 16, 7, 20, by decide +kernel⟩
theorem test_ChunksAndSignalsOnLasts_3 : ∃ (s : State) (p : Nat) (tag : Nat) (data : Nat) (bad : Bool), p < 96 ∧ tag < 2 ^ 32 ∧ data < 2 ^ 448 ∧ (s.last (4096 * p + fld tag 27 16)).st = LastSt.suspended ∧ fld tag 31 28 = (s.last (4096 * p + fld tag 27 16)).gen ∧ bad = false ∧ (s.last (4096 * p + fld tag 27 16)).fbFna ≠ 262143 ∧ (s.last (4096 * p + fld tag 27 16)).wrap = [] ∧ wrapFree s ≠ 0 :=
  ⟨upE (4096 * 95 + 4095) { st := .suspended, cfg := lastCfg 94 20 5 (2 ^ 78) + put 9 170 153 }, 95, 3 * 2 ^ 28 + 4095 * 2 ^ 16, 7, false, by decide +kernel⟩
theorem test_ChunksAndSignalsOnLasts_4 : ∃ (s : State) (p : Nat) (r : SigRec), p < 96 ∧ signalEntry s p r.label (upstream r.event) = none :=
  ⟨up, 95, { label := 65535, event := 1 }, by decide +kernel⟩
theorem test_ChunksAndSignalsOnLasts_5 : ∃ (s : State) (p : Nat) (r : SigRec) (key : Nat), p < 96 ∧ signalEntry s p r.label (upstream r.event) = some key ∧ (r.event = 2 ∨ r.event = 17) ∧ (s.last key).st.holds = true ∧ (s.last key).due = none :=
  ⟨upE (4096 * 95 + 4095) { st := .suspended, cfg := lastCfg 94 20 5 (2 ^ 78) }, 94, { label := 5, event := 17 }, 4096 * 95 + 4095, by decide +kernel⟩
theorem test_ChunksAndSignalsOnLasts_6 : ∃ (s : State) (port : Nat) (index : Nat) (c : Chunk) (rest : List Chunk), port < 101 ∧ index < 4096 ∧ (s.last (4096 * port + index)).wrap = c :: rest ∧ c.at' + s.reg Dict.LAST_WRAP_WAIT_ST ≤ s.time.count :=
  ⟨{ upE 413695 { st := .suspended, wrap := [{ at' := 5 }] } with time := { count := 5 + up.reg Dict.LAST_WRAP_WAIT_ST } }, 100, 4095, { at' := 5 }, [], by decide +kernel⟩
theorem test_ChunksAndSignalsOnLasts_7 : ∃ (s : State) (port : Nat) (index : Nat) (c : Chunk) (rest : List Chunk), port < 101 ∧ index < 4096 ∧ (s.last (4096 * port + index)).wrap = c :: rest ∧ s.time.count < c.at' + s.reg Dict.LAST_WRAP_WAIT_ST :=
  ⟨{ upE 413695 { st := .suspended, wrap := [{ at' := 5 }] } with time := { count := 4 + up.reg Dict.LAST_WRAP_WAIT_ST } }, 100, 4095, { at' := 5 }, [], by decide +kernel⟩
theorem test_ChunksAndSignalsOnLasts_8 : ∃ (s : State) (hp : Nat) (d : Delivered) (rest : List Delivered), hp < 4 ∧ tget [] s.sw.delivered (96 + hp) = d :: rest ∧ d.pkt.opc = 94 ∧ fallbackRing s d.pkt = none ∧ Loggable s 1801 0 0 :=
  ⟨{ up with sw := { delivered := [(99, [{ pkt := { opc := 94, dep := 5 } }])] } }, 3, { pkt := { opc := 94, dep := 5 } }, [], by unfold Loggable; decide +kernel⟩

/-- The running part with its link Up, one function that owns a group of 64 queues, 16 endpoints and 16 protection domains, an injection
group, an endpoint and a window that lets its accesses through. -/
def upHost : State :=
  { ((((up.setReg Dict.ATTACH_FUNC 0 (2 ^ 127 + put 1 97 83 + put 16 66 50 + put 16 29 9)).setReg Dict.ATTACH_DMA_WINDOW 0
      (2 ^ 127 + 2 ^ 126 + 2 ^ 125 + put (2 ^ 35) 47 12)).setReg Dict.SW_INJ_GROUP 0 (2 ^ 127)).setReg Dict.RMA_EP 5 (2 ^ 63 + put 3 62 43)) with
    host := { units := 8, store := .given } }

/-- That part with the last ring 9, of endpoint 5 and last 6, of 64 records. -/
def upRing : State := upHost.setReg Dict.LAST_RING 9 (2 ^ 127 + 2 ^ 126 + put 5 113 98 + put 6 97 74 + put 6 73 70 + put 16 51 0)

/-- A wrapped chunk's packet for that ring. -/
def wrapPkt : Packet := { opc := 94, dep := 5, oph := [6 * 2 ^ 40], payload := List.replicate 60 1 }

theorem test_ChunksAndSignalsOnLasts_9 : ∃ (s : State) (hp : Nat) (d : Delivered) (rest : List Delivered) (r : Nat), hp < 4 ∧ tget [] s.sw.delivered (96 + hp) = d :: rest ∧ d.pkt.opc = 94 ∧ fallbackRing s d.pkt = some r ∧ d.pkt.payload.length = 60 ∧ (s.ring r).stopped = false ∧ ringFull (ringSize (ringRow s r)) (s.ring r).prod (s.ring r).cons = false ∧ windowOk s (fld (ringRow s r) 123 114) (recordAddr (ringRow s r) (s.ring r).prod) 64 true = true :=
  ⟨{ upRing with sw := { delivered := [(99, [{ pkt := wrapPkt }])] }, lasts := { rings := [(9, { prod := 63, cons := 0 })] } }, 3, { pkt := wrapPkt }, [], 9, by decide +kernel⟩
theorem test_ChunksAndSignalsOnLasts_10 : ∃ (s : State) (r : Nat) (v : Nat), r < 4096 ∧ judgeProducer (ringSize (ringRow s r)) (s.ring r).cons (s.ring r).prod v = Doorbell.fresh :=
  ⟨{ upRing with lasts := { rings := [(9, { prod := 100, cons := 64 })] } }, 9, 0, by decide +kernel⟩
theorem test_ChunksAndSignalsOnLasts_11 : ∃ (s : State) (r : Nat) (v : Nat), r < 4096 ∧ consumerOk (ringSize (ringRow s r)) (s.ring r).cons (s.ring r).prod v = true ∧ (s.ring r).lossAt = none :=
  ⟨{ upRing with lasts := { rings := [(9, { prod := 127, cons := 64 })] } }, 9, 127, by decide +kernel⟩

/-- The running part with its link Up and one attach module. -/
def upMod (m : Module) : State := { up with pwr := { up.pwr with pgUcie := true }, host := { modules := [(3, m)] } }


/-! AttachModulesChangeState -/
theorem test_AttachModulesChangeState_1 : ∃ (s : State) (m : Nat), m < 4 ∧ (s.module m).st = ModSt.reset ∧ moduleMayTrain s m = true :=
  ⟨upMod {}, 3, by decide +kernel⟩
theorem test_AttachModulesChangeState_2 : ∃ (s : State) (m : Nat), m < 4 ∧ (s.module m).st = ModSt.training :=
  ⟨upMod { st := .training }, 3, by decide +kernel⟩
theorem test_AttachModulesChangeState_3 : ∃ (s : State) (m : Nat), m < 4 ∧ (s.module m).st = ModSt.training ∧ Loggable s 2050 9 m :=
  ⟨upMod { st := .training }, 3, by unfold Loggable; decide +kernel⟩
theorem test_AttachModulesChangeState_4 : ∃ (s : State) (m : Nat), m < 4 ∧ (s.module m).st = ModSt.training ∧ Loggable s 2052 9 m :=
  ⟨upMod { st := .training }, 3, by unfold Loggable; decide +kernel⟩
theorem test_AttachModulesChangeState_5 : ∃ (s : State) (m : Nat), m < 4 ∧ (s.module m).st = ModSt.training ∧ (List.filter (fun a ↦ decide (s.time.count < a + 1024)) (s.module m).fails).length = 2 ∧ Loggable s 2052 9 m :=
  ⟨{ upMod { st := .training, fails := [1, 2, 0] } with time := { count := 1024 } }, 3, by unfold Loggable; decide +kernel⟩
theorem test_AttachModulesChangeState_6 : ∃ (s : State) (m : Nat), m < 4 ∧ (s.module m).st = ModSt.training ∧ List.filter (fun a ↦ decide (s.time.count < a + 1024)) (s.module m).fails = [] :=
  ⟨{ upMod { st := .training, fails := [1] } with time := { count := 1025 } }, 3, by decide +kernel⟩
theorem test_AttachModulesChangeState_7 : ∃ (s : State) (m : Nat), m < 4 ∧ ((s.module m).st = ModSt.x64 ∨ (s.module m).st = ModSt.x32) ∧ Loggable s 2055 9 m :=
  ⟨upMod { st := .x32 }, 3, by unfold Loggable; decide +kernel⟩
theorem test_AttachModulesChangeState_8 : ∃ (s : State) (m : Nat), m < 4 ∧ (s.module m).st = ModSt.retrain :=
  ⟨upMod { st := .retrain }, 3, by decide +kernel⟩
theorem test_AttachModulesChangeState_9 : ∃ (s : State) (m : Nat), m < 4 ∧ (s.module m).st = ModSt.retrain ∧ (s.module m).since + 9766 ≤ s.time.count ∧ Loggable s 2052 9 m :=
  ⟨{ upMod { st := .retrain, since := 1 } with time := { count := 9767 } }, 3, by unfold Loggable; decide +kernel⟩
theorem test_AttachModulesChangeState_10 : ∃ (s : State) (m : Nat), m < 4 ∧ (s.module m).st = ModSt.retrain ∧ s.time.count < (s.module m).since + 9766 :=
  ⟨{ upMod { st := .retrain, since := 1 } with time := { count := 9766 } }, 3, by decide +kernel⟩
theorem test_AttachModulesChangeState_11 : ∃ (s : State) (m : Nat), m < 4 ∧ (s.module m).st = ModSt.failed ∧ (s.module m).since + 65536 ≤ s.time.count ∧ moduleMayTrain s m = true :=
  ⟨{ upMod { st := .failed, since := 1 } with time := { count := 65537 } }, 3, by decide +kernel⟩
theorem test_AttachModulesChangeState_12 : ∃ (s : State) (m : Nat), m < 4 ∧ (s.module m).st = ModSt.failed ∧ moduleMayTrain s m = false :=
  ⟨{ upMod { st := .failed } with pwr := up.pwr }, 3, by decide +kernel⟩
theorem test_AttachModulesChangeState_13 : ∃ (s : State) (m : Nat), m < 4 ∧ coreUp s = true :=
  ⟨upMod {}, 3, by decide +kernel⟩

/-! HostMemoryAnswers -/
theorem test_HostMemoryAnswers_1 : ∃ (s : State) (line : Nat), s.host.units ≠ 0 ∧ watchers s line = [] :=
  ⟨upHost, 5, by decide +kernel⟩
/-- That part with host accesses outstanding. -/
def upAcc (h : HostUnit) : State := { upHost with host := h }
theorem test_HostMemoryAnswers_2 : ∃ (s : State) (tag : Nat) (g : Nat) (r : HRead), List.find? (fun r ↦ decide (r.tag = tag)) s.host.reads = some r ∧ r.why = ReadFor.watch g ∧ (s.queue g).live = true :=
  ⟨{ upAcc { units := 8, reads := [{ tag := 4, why := .watch 63 }] } with queues := { qs := [(63, { st := .stalled })] } }, 4, 63, { tag := 4, why := .watch 63 }, by decide +kernel⟩
theorem test_HostMemoryAnswers_3 : ∃ (s : State) (tag : Nat) (g : Nat) (r : HRead), List.find? (fun r ↦ decide (r.tag = tag)) s.host.reads = some r ∧ r.why = ReadFor.watch g ∧ (s.queue g).live = false :=
  ⟨upAcc { units := 8, reads := [{ tag := 4, why := .watch 63 }] }, 4, 63, { tag := 4, why := .watch 63 }, by decide +kernel⟩
theorem test_HostMemoryAnswers_4 : ∃ (s : State) (tag : Nat), List.find? (fun r ↦ decide (r.tag = tag)) s.host.reads = none :=
  ⟨upHost, 4, by decide +kernel⟩
theorem test_HostMemoryAnswers_5 : ∃ (s : State) (tag : Nat) (data : List Byte) (x : HRead) (r : Nat) (i : Nat), List.find? (fun r ↦ decide (r.tag = tag)) s.host.reads = some x ∧ x.why = ReadFor.lastRing r i ∧ x.len = 64 ∧ data.length = 64 ∧ fld (natLE (bytesBE (fld (natBE data) 63 0) 8)) 63 63 = ringPhase (ringSize (ringRow s r)) i :=
  ⟨{ upRing with host := { units := 8, reads := [{ tag := 4, len := 64, why := .lastRing 9 64 }] } }, 4, List.replicate 64 0, { tag := 4, len := 64, why := .lastRing 9 64 }, 9, 64, by decide +kernel⟩
theorem test_HostMemoryAnswers_6 : ∃ (s : State) (tag : Nat) (g : Nat), (s.host.writes.any fun w ↦ decide (w.tag = tag)) = true ∧ (s.host.held.any fun w ↦ decide (w.tag = tag)) = false ∧ s.host.waits = [{ tags := [tag], act := Deferred.ringVector g }] ∧ (∀ c ∈ s.queues.qs, ∀ e ∈ c.2.order, tag ∉ e.tags) ∧ s.rma.resp = [] ∧ s.trans.ads = [] :=
  ⟨upAcc { units := 8, writes := [{ tag := 4 }], waits := [{ tags := [4], act := .ringVector 63 }] }, 4, 63, by decide +kernel⟩

/-! FunctionResetsAndVfEnable -/
theorem test_FunctionResetsAndVfEnable_1 : ∃ (s : State) (f : Nat), f < 1024 ∧ s.host.units ≠ 0 ∧ fnPresent s f = true ∧ tget none s.host.resets f = none :=
  ⟨upAcc { units := 8, vfEnable := true, numVfs := 1023 }, 1023, by decide +kernel⟩
theorem test_FunctionResetsAndVfEnable_2 : ∃ (s : State) (f : Nat) (r : FnReset), f < 1024 ∧ tget none s.host.resets f = some r ∧ r.since ≤ s.time.count ∧ funcBusy s f = false :=
  ⟨{ upAcc { units := 8, resets := [(1023, some { since := 7 })] } with time := { count := 7 } }, 1023, { since := 7 }, by decide +kernel⟩
theorem test_FunctionResetsAndVfEnable_3 : ∃ (s : State) (f : Nat) (r : FnReset), f < 1024 ∧ tget none s.host.resets f = some r ∧ (funcBusy s f = true ∨ s.time.count < r.since) :=
  ⟨{ upAcc { units := 8, resets := [(1023, some { since := 7 })], reads := [{ func := 1023, why := .nobody }] } with time := { count := 7 } }, 1023, { since := 7 }, by decide +kernel⟩
theorem test_FunctionResetsAndVfEnable_4 : ∃ (s : State) (f : Nat) (r : FnReset), f < 1024 ∧ tget none s.host.resets f = some r ∧ r.since + 1024 ≤ s.time.count ∧ r.slowLogged = false ∧ Loggable s 2058 3 f :=
  ⟨{ upAcc { units := 8, resets := [(1023, some { since := 7 })] } with time := { count := 1031 } }, 1023, { since := 7 }, by unfold Loggable; decide +kernel⟩
theorem test_FunctionResetsAndVfEnable_5 : ∃ (s : State) (f : Nat) (r : FnReset), f < 1024 ∧ tget none s.host.resets f = some r ∧ (r.slowLogged = true ∨ s.time.count < r.since + 1024) :=
  ⟨{ upAcc { units := 8, resets := [(1023, some { since := 7 })] } with time := { count := 1030 } }, 1023, { since := 7 }, by decide +kernel⟩
theorem test_FunctionResetsAndVfEnable_6 : ∃ (s : State), s.host.units ≠ 0 ∧ s.host.vfEnable = false :=
  ⟨upHost, by decide +kernel⟩
theorem test_FunctionResetsAndVfEnable_7 : ∃ (s : State), s.host.units ≠ 0 ∧ s.host.vfEnable = true :=
  ⟨upAcc { units := 8, vfEnable := true }, by decide +kernel⟩

/-! StoreHostLossAndBarWrites -/
theorem test_StoreHostLossAndBarWrites_1 : ∃ (s : State), coreUp s = true ∧ giveCheck s = 0 :=
  ⟨{ upR Dict.ATTACH_STORE_SIZE 0 137438953472 with host := { units := 8 } }, by decide +kernel⟩
theorem test_StoreHostLossAndBarWrites_2 : ∃ (s : State), coreUp s = true ∧ s.host.units = 0 :=
  ⟨up, by decide +kernel⟩
theorem test_StoreHostLossAndBarWrites_3 : ∃ (s : State), coreUp s = true ∧ s.host.store = StoreSt.given ∧ (∀ c ∈ s.queues.qs, c.2.st = QSt.reset) ∧ (∀ p < 96, (s.link p).st ≠ LState.admitted) :=
  ⟨upHost, by decide +kernel⟩
theorem test_StoreHostLossAndBarWrites_4 : ∃ (s : State), coreUp s = true ∧ s.host.store ≠ StoreSt.given :=
  ⟨upAcc { units := 8, store := .returning }, by decide +kernel⟩
theorem test_StoreHostLossAndBarWrites_5 : ∃ (s : State), s.host.store = StoreSt.returning :=
  ⟨upAcc { units := 8, store := .returning }, by decide +kernel⟩
theorem test_StoreHostLossAndBarWrites_6 : ∃ (s : State), s.host.units ≠ 0 :=
  ⟨upHost, by decide +kernel⟩

/-- A queue's configuration: 64 completion and 64 work units, protection domain 3, endpoint 5, an injection group, and its own ring. -/
def queueCfg (grp : Nat) : Nat := put 1 203 200 + put 16 199 148 + put 1 147 144 + put 3 143 124 + put 5 123 108 + put grp 107 98 + put 63 97 78

/-- Queue 63, the last of its function's, with its host link Up. -/
def upQ (q : Queue) : State := { upHost with queues := { qs := [(63, { q with local' := 63, config := queueCfg 0 + q.config })] } }

theorem test_StoreHostLossAndBarWrites_7 : ∃ (s : State) (func : Nat) (lq : Nat) (g : Nat) (data : List Byte), HeldQueue s func lq g ∧ data.length = 4 :=
  ⟨upQ {}, 0, 63, 63, [1, 0, 0, 0], by unfold HeldQueue; decide +kernel⟩
theorem test_StoreHostLossAndBarWrites_8 : ∃ (s : State) (func : Nat) (bar : Nat) (off : Nat) (data : List Byte), func < 1024 ∧ coreUp s = true ∧ s.host.units ≠ 0 ∧ fnPresent s func = true ∧ (bar = 0 ∨ bar = 4) ∧ formOk off data = false ∧ Loggable s 2051 3 func :=
  ⟨upHost, 0, 4, 2, [1, 0, 0, 0], by unfold Loggable; decide +kernel⟩

/-! QueueRegistersWritten -/
theorem test_QueueRegistersWritten_1 : ∃ (s : State) (func : Nat) (lq : Nat) (g : Nat) (v : Nat), HeldQueue s func lq g ∧ v < 2 ^ 32 ∧ (s.queue g).live = false :=
  ⟨upQ {}, 0, 63, 63, 2 ^ 32 - 1, by unfold HeldQueue; decide +kernel⟩
theorem test_QueueRegistersWritten_2 : ∃ (s : State) (func : Nat) (lq : Nat) (g : Nat) (v : Nat), HeldQueue s func lq g ∧ v < 2 ^ 32 ∧ (s.queue g).live = true ∧ (s.queue g).cached = true ∧ (s.queue g).wrUnits ≠ 0 :=
  ⟨upQ { st := .stalled, cached := true }, 0, 63, 63, 128, by unfold HeldQueue; decide +kernel⟩
theorem test_QueueRegistersWritten_3 : ∃ (s : State) (func : Nat) (lq : Nat) (g : Nat), HeldQueue s func lq g ∧ (s.queue g).dbBound = true :=
  ⟨upQ { config := 2 ^ 65 }, 0, 63, 63, by unfold HeldQueue; decide +kernel⟩
theorem test_QueueRegistersWritten_4 : ∃ (s : State) (func : Nat) (lq : Nat) (g : Nat), HeldQueue s func lq g ∧ (s.queue g).dbBound = false ∧ s.reg Dict.QUEUE_PREFETCH ≠ 0 :=
  ⟨(upQ {}).setReg Dict.QUEUE_PREFETCH 0 1, 0, 63, 63, by unfold HeldQueue; decide +kernel⟩
theorem test_QueueRegistersWritten_5 : ∃ (s : State) (func : Nat) (lq : Nat) (g : Nat) (v : Nat), HeldQueue s func lq g ∧ v < 2 ^ 32 ∧ (s.queue g).crUnits ≠ 0 ∧ v < 2 * (s.queue g).crUnits ∧ ringDist (s.queue g).crUnits (s.queue g).crCons v ≤ ringDist (s.queue g).crUnits (s.queue g).crCons (s.queue g).crProd :=
  ⟨upQ { crCons := 64, crProd := 0 }, 0, 63, 63, 127, by unfold HeldQueue; decide +kernel⟩
theorem test_QueueRegistersWritten_6 : ∃ (s : State) (func : Nat) (lq : Nat) (g : Nat) (v : Nat), HeldQueue s func lq g ∧ v < 2 ^ 32 ∧ ((s.queue g).crUnits = 0 ∨ 2 * (s.queue g).crUnits ≤ v ∨ ringDist (s.queue g).crUnits (s.queue g).crCons (s.queue g).crProd < ringDist (s.queue g).crUnits (s.queue g).crCons v) :=
  ⟨upQ { crCons := 64, crProd := 0 }, 0, 63, 63, 1, by unfold HeldQueue; decide +kernel⟩
theorem test_QueueRegistersWritten_7 : ∃ (s : State) (func : Nat) (lq : Nat) (g : Nat), HeldQueue s func lq g ∧ (s.queue g).st = QSt.reset :=
  ⟨upQ {}, 0, 63, 63, by unfold HeldQueue; decide +kernel⟩
theorem test_QueueRegistersWritten_8 : ∃ (s : State) (func : Nat) (lq : Nat) (g : Nat) (v : Nat), HeldQueue s func lq g ∧ v < 2 ^ 32 ∧ (v ≠ 1 ∨ (s.queue g).st ≠ QSt.reset) :=
  ⟨upQ {}, 0, 63, 63, 2, by unfold HeldQueue; decide +kernel⟩
theorem test_QueueRegistersWritten_9 : ∃ (s : State) (func : Nat) (lq : Nat) (g : Nat) (off : Nat) (data : List Byte), HeldQueue s func lq g ∧ formOk off data = true ∧ off + data.length ≤ 32 ∧ (s.queue g).st = QSt.reset ∧ (s.queue g).config < 2 ^ 256 :=
  ⟨upQ {}, 0, 63, 63, 24, List.replicate 8 7, by unfold HeldQueue; decide +kernel⟩
theorem test_QueueRegistersWritten_10 : ∃ (s : State) (func : Nat) (lq : Nat) (g : Nat) (off : Nat) (data : List Byte), HeldQueue s func lq g ∧ formOk off data = true ∧ off + data.length ≤ 32 ∧ (s.queue g).st ≠ QSt.reset ∧ Loggable s 2311 3 func :=
  ⟨upQ { st := .error }, 0, 63, 63, 28, List.replicate 4 7, by unfold Loggable HeldQueue; decide +kernel⟩

/-! PushesEnablesAndRingLimit -/
theorem test_PushesEnablesAndRingLimit_1 : ∃ (s : State) (func : Nat) (lq : Nat) (g : Nat) (data : List Byte), HeldQueue s func lq g ∧ (s.queue g).live = true ∧ (s.queue g).wrUnits ≠ 0 ∧ 8 ≤ data.length ∧ data.length ≤ 256 ∧ data.length % 64 = 0 ∧ phasesOk (s.queue g).wrUnits (s.queue g).wqProd (unitsOf data) = true ∧ (s.queue g).wqProd < 2 * (s.queue g).wrUnits ∧ (s.queue g).wqCons < 2 * (s.queue g).wrUnits ∧ ringDist (s.queue g).wrUnits (s.queue g).wqCons (s.queue g).wqProd + data.length / 64 ≤ (s.queue g).wrUnits :=
  ⟨upQ { st := .running, wqProd := 63 }, 0, 63, 63, bytesLE (2 ^ 63) 64, by unfold HeldQueue; decide +kernel⟩
theorem test_PushesEnablesAndRingLimit_2 : ∃ (s : State) (func : Nat) (lq : Nat) (g : Nat) (data : List Byte), HeldQueue s func lq g ∧ (s.queue g).live = true ∧ (s.queue g).wrUnits ≠ 0 ∧ 8 ≤ data.length ∧ data.length ≤ 256 ∧ (data.length % 64 ≠ 0 ∨ phasesOk (s.queue g).wrUnits (s.queue g).wqProd (unitsOf data) = false) :=
  ⟨upQ { st := .running, wqProd := 64 }, 0, 63, 63, bytesLE (2 ^ 63) 64, by unfold HeldQueue; decide +kernel⟩
theorem test_PushesEnablesAndRingLimit_3 : ∃ (s : State) (g : Nat), g < 1048576 ∧ (s.queue g).enableDue = true ∧ (s.queue g).st = QSt.reset ∧ fnResetting s (s.queue g).func = false ∧ enableCheck s g = 0 ∧ (s.queue g).dbFree = false :=
  ⟨upQ { enableDue := true }, 63, by decide +kernel⟩
theorem test_PushesEnablesAndRingLimit_4 : ∃ (s : State) (g : Nat), g < 1048576 ∧ (s.queue g).enableDue = true ∧ (s.queue g).st = QSt.reset ∧ fnResetting s (s.queue g).func = false ∧ enableCheck s g ≠ 0 ∧ Loggable s 2312 3 (s.queue g).func :=
  ⟨(upQ { enableDue := true }).setReg Dict.SW_INJ_GROUP 0 0, 63, by unfold Loggable; decide +kernel⟩
theorem test_PushesEnablesAndRingLimit_5 : ∃ (s : State) (g : Nat), g < 1048576 ∧ (s.queue g).retryDue = true ∧ (s.queue g).live = true ∧ (s.queue g).retryAt < s.time.count :=
  ⟨{ upQ { st := .running, retryDue := true, retryAt := 6 } with time := { count := 7 } }, 63, by decide +kernel⟩
theorem test_PushesEnablesAndRingLimit_6 : ∃ (s : State) (g : Nat), g < 1048576 ∧ ((s.queue g).retryDue = false ∨ s.time.count ≤ (s.queue g).retryAt) :=
  ⟨{ upQ { st := .running, retryDue := true, retryAt := 7 } with time := { count := 7 } }, 63, by decide +kernel⟩
theorem test_PushesEnablesAndRingLimit_7 : ∃ (s : State) (r : Nat) (a : Nat), r < 1048576 ∧ (s.queue r).fullSince = some a ∧ a + s.reg Dict.QUEUE_CR_FULL_LIMIT_ST ≤ s.time.count ∧ feeders s r ≠ [] :=
  ⟨{ upQ { st := .running, fullSince := some 7 } with time := { count := 7 + up.reg Dict.QUEUE_CR_FULL_LIMIT_ST } }, 63, 7, by decide +kernel⟩
theorem test_PushesEnablesAndRingLimit_8 : ∃ (s : State) (r : Nat) (a : Nat), r < 1048576 ∧ (s.queue r).fullSince = some a ∧ s.time.count < a + s.reg Dict.QUEUE_CR_FULL_LIMIT_ST :=
  ⟨{ upQ { st := .running, fullSince := some 7 } with time := { count := 6 + up.reg Dict.QUEUE_CR_FULL_LIMIT_ST } }, 63, 7, by decide +kernel⟩

/-- A work entry's one unit: its kind and operation, in word 0 of an entry of one unit. -/
def unit1 (kind opc : Nat) : Nat := 2 ^ 63 + 2 ^ 62 + 2 ^ 61 + put kind 57 56 + put opc 55 48

/-- Queue 63 running with one unit of its ring on die. -/
def upU (u : Nat) : State := upQ { st := .running, wqProd := 1, units := [(0, unitMark + u)] }


/-! EntriesConsumedAndCompleted -/
theorem test_EntriesConsumedAndCompleted_1 : ∃ (s : State) (g : Nat) (units : List Nat), g < 1048576 ∧ stageHolds s (s.queue g).igroup = false ∧ turnOf s false (s.queue g).igroup = some g ∧ headUnits s g = Head.whole units ∧ entryReason s (entryOf s g units) units = 0 ∧ bitAt (s.reg Dict.SW_INJ_GROUP (s.queue g).igroup) 127 = true ∧ headHeld s (entryOf s g units) = false :=
  ⟨upU (unit1 1 1), 63, [unit1 1 1], by decide +kernel⟩
theorem test_EntriesConsumedAndCompleted_2 : ∃ (s : State) (g : Nat) (units : List Nat), g < 1048576 ∧ stageHolds s (s.queue g).igroup = false ∧ turnOf s false (s.queue g).igroup = some g ∧ headUnits s g = Head.whole units ∧ entryReason s (entryOf s g units) units ≠ 0 :=
  ⟨upU (unit1 2 1), 63, [unit1 2 1], by decide +kernel⟩
theorem test_EntriesConsumedAndCompleted_3 : ∃ (s : State) (g : Nat) (units : List Nat), g < 1048576 ∧ stageHolds s (s.queue g).igroup = false ∧ turnOf s false (s.queue g).igroup = some g ∧ headUnits s g = Head.whole units ∧ entryReason s (entryOf s g units) units = 0 ∧ bitAt (s.reg Dict.SW_INJ_GROUP (s.queue g).igroup) 127 = false :=
  ⟨(upU (unit1 1 1)).setReg Dict.SW_INJ_GROUP 0 0, 63, [unit1 1 1], by decide +kernel⟩
theorem test_EntriesConsumedAndCompleted_4 : ∃ (s : State) (g : Nat) (reason : Nat), g < 1048576 ∧ stageHolds s (s.queue g).igroup = false ∧ turnOf s false (s.queue g).igroup = some g ∧ headUnits s g = Head.bad reason :=
  ⟨upU 0, 63, 2, by decide +kernel⟩
theorem test_EntriesConsumedAndCompleted_5 : ∃ (s : State) (g : Nat), g < 1048576 ∧ (stageHolds s (s.queue g).igroup = true ∨ turnOf s false (s.queue g).igroup ≠ some g) :=
  ⟨upHost, 63, by decide +kernel⟩

/-- An entry of queue 63. -/
def ent (kind opc : Nat) (cmpl : Bool) : Entry := { id := 9, queue := 63, kind := kind, opc := opc, cmpl := cmpl }

/-- Queue 63 with one entry consumed. -/
def upEnt (e : Entry) : State := upQ { st := .running, order := [e] }

theorem test_EntriesConsumedAndCompleted_6 : ∃ (s : State) (g : Nat) (e : Entry), g < 1048576 ∧ LoneEntry s g e ∧ e.kind = 1 ∧ e.started = false ∧ e.opc = 1 ∧ e.cmpl = true ∧ RingWritable s (ringOf s g) :=
  ⟨upEnt (ent 1 1 true), 63, ent 1 1 true, by unfold LoneEntry RingWritable; decide +kernel⟩
theorem test_EntriesConsumedAndCompleted_7 : ∃ (s : State) (g : Nat) (e : Entry), g < 1048576 ∧ LoneEntry s g e ∧ e.kind = 1 ∧ e.started = false ∧ e.opc = 1 ∧ e.cmpl = false :=
  ⟨upEnt (ent 1 1 false), 63, ent 1 1 false, by unfold LoneEntry; decide +kernel⟩
theorem test_EntriesConsumedAndCompleted_8 : ∃ (s : State) (g : Nat) (e : Entry), g < 1048576 ∧ LoneEntry s g e ∧ e.kind = 1 ∧ e.started = false ∧ e.opc = 16 ∧ e.cmpl = true ∧ RingWritable s (ringOf s g) :=
  ⟨upEnt (ent 1 16 true), 63, ent 1 16 true, by unfold LoneEntry RingWritable; decide +kernel⟩
theorem test_EntriesConsumedAndCompleted_9 : ∃ (s : State) (g : Nat) (e : Entry), g < 1048576 ∧ LoneEntry s g e ∧ e.kind = 1 ∧ e.started = false ∧ e.opc = 16 ∧ e.cmpl = false :=
  ⟨upEnt (ent 1 16 false), 63, ent 1 16 false, by unfold LoneEntry; decide +kernel⟩
theorem test_EntriesConsumedAndCompleted_10 : ∃ (s : State) (g : Nat) (a : Entry) (e : Entry) (rest : List Entry), g < 1048576 ∧ (s.queue g).order = a :: e :: rest ∧ a.started = true ∧ a.status = none ∧ a.kind = 0 ∧ a.id ≠ e.id ∧ (∀ x ∈ rest, x.id ≠ e.id) ∧ e.queue = g ∧ e.kind = 1 ∧ e.opc = 16 ∧ e.started = false :=
  ⟨upQ { order := [{ ent 0 1 true with id := 8, started := true }, ent 1 16 true] }, 63, { ent 0 1 true with id := 8, started := true }, ent 1 16 true, [], by decide +kernel⟩

/-- Segment 7, of protection domain 3 and tag 1, over the first MiB of its addresses, with its translation cached. -/
def memTrans : TransUnit :=
  { segs := [(7, { st := .valid, r := true, w := true, tag := 1, pd := 3, len := 2 ^ 20 })], descs := [7]
    tlb := [{ seg := 7, size := 2 ^ 21, frame := 2 ^ 30, r := true, w := true }] }

/-- A management message's two units: its record inline, with sequence 5 and no data, to router 65, its response to go to segment 7. -/
def mgmtUnits (dep : Nat) : List Nat :=
  [2 ^ 63 + 2 ^ 62 + put 1 60 58 + put 0xF0 55 48 + 2 ^ 45 + put 65 39 22 + put dep 21 6 + 2 ^ 64 * put 16 63 31 + 2 ^ (64 * 6) * put 1793 63 32,
   2 ^ 63 + 2 ^ 61 + 2 ^ 64 * (5 * 2 ^ 8)]

/-- Queue 63 running with those units on die, its function granted the messages. -/
def upMgmt (dep : Nat) : State :=
  { (upQ { st := .running, wqProd := 2, units := [(0, unitMark + (mgmtUnits dep).getD 0 0), (1, unitMark + (mgmtUnits dep).getD 1 0)] }).setReg
      Dict.CTL_MGMT_FUNCS 0 1 with trans := memTrans }


/-! FunctionManagementRequests -/
theorem test_FunctionManagementRequests_1 : ∃ (s : State) (s0 : State) (g : Nat) (units : List Nat) (e : Entry) (i : Nat), g < 1048576 ∧ s0 = served (noteStage s (s.queue g).igroup) g ∧ stageHolds s (s.queue g).igroup = false ∧ turnOf s true (s.queue g).igroup = some g ∧ fenceAhead (s.queue g) = false ∧ headUnits s g = Head.whole units ∧ e = entryOf s g units ∧ entryReason s e units = 0 ∧ bitAt (s.reg Dict.SW_INJ_GROUP (s.queue g).igroup) 127 = true ∧ mgmtFormOk e = true ∧ e.inl = true ∧ e.len = 16 + recordLen e.inlineData ∧ (checkBufs s0 (s.queue g).pd Need.write [{ addr := e.w5, len := 4096, key := fld e.w6 63 32 }]).2 = BufCheck.ok ∧ freeMgmtSlot s = some i ∧ slotFor s (s.queue g).ep e.dfna (recordSeq e.inlineData) = none :=
  ⟨upMgmt 0xFFFF, served (noteStage (upMgmt 0xFFFF) 0) 63, 63, mgmtUnits 0xFFFF, entryOf (upMgmt 0xFFFF) 63 (mgmtUnits 0xFFFF), 0, by exact ⟨by decide +kernel, rfl, by decide +kernel, by decide +kernel, by decide +kernel, by decide +kernel, rfl, by decide +kernel⟩⟩
theorem test_FunctionManagementRequests_2 : ∃ (s : State) (s0 : State) (g : Nat) (units : List Nat) (e : Entry), g < 1048576 ∧ s0 = served (noteStage s (s.queue g).igroup) g ∧ stageHolds s (s.queue g).igroup = false ∧ turnOf s true (s.queue g).igroup = some g ∧ fenceAhead (s.queue g) = false ∧ headUnits s g = Head.whole units ∧ e = entryOf s g units ∧ entryReason s e units = 0 ∧ bitAt (s.reg Dict.SW_INJ_GROUP (s.queue g).igroup) 127 = true ∧ mgmtFormOk e = false :=
  ⟨upMgmt 0xFFFE, served (noteStage (upMgmt 0xFFFE) 0) 63, 63, mgmtUnits 0xFFFE, entryOf (upMgmt 0xFFFE) 63 (mgmtUnits 0xFFFE), by exact ⟨by decide +kernel, rfl, by decide +kernel, by decide +kernel, by decide +kernel, by decide +kernel, rfl, by decide +kernel⟩⟩

/-- A management response of sequence 5 and a status from router 65 to endpoint 5. -/
def mgmtResp (status : Nat) : Packet := { opc := 0xF1, dep := 5, sfna := 65, payload := bytesBE (put 5 119 112 + put status 111 104) 16 }

/-- The slot of the request that it answers, and a part that holds it. -/
def mgmtSlot : MgmtSlot := { queue := 63, endpoint := 5, dfna := 65, seq := 5, bufKey := 1793 }
def upSlot (status : Nat) : State :=
  { upQ { st := .running } with trans := memTrans, ctl := { slots := [(255, some mgmtSlot)] }, sw := { delivered := [(101, [{ pkt := mgmtResp status }])] } }

theorem test_FunctionManagementRequests_3 : ∃ (s : State) (port : Nat) (d : Delivered), 96 ≤ port ∧ port ≤ 101 ∧ deliveredHead s port 241 = some d ∧ slotFor s d.pkt.dep d.pkt.sfna (recordSeq d.pkt.payload) = none :=
  ⟨{ upSlot 0 with ctl := {} }, 101, { pkt := mgmtResp 0 }, by decide +kernel⟩
theorem test_FunctionManagementRequests_4 : ∃ (s : State) (port : Nat) (d : Delivered) (i : Nat) (m : MgmtSlot) (u : State) (gs : List Grant), 96 ≤ port ∧ port ≤ 101 ∧ deliveredHead s port 241 = some d ∧ slotFor s d.pkt.dep d.pkt.sfna (recordSeq d.pkt.payload) = some (i, m) ∧ accessBufs s [8, i] (s.queue m.queue).pd Need.write [{ addr := m.bufAddr, len := (List.take 4096 d.pkt.payload).length, key := m.bufKey }] = (u, BufAccess.ok gs) ∧ fld (natBE (List.take 16 d.pkt.payload)) 111 104 = 19 :=
  ⟨upSlot 19, 101, { pkt := mgmtResp 19 }, 255, mgmtSlot, (accessBufs (upSlot 19) [8, 255] 3 .write [{ addr := 0, len := 16, key := 1793 }]).1, [{ func := 0, seg := 7, chk := 0, pieces := [{ addr := 2 ^ 30, len := 16 }] }], by decide +kernel⟩
theorem test_FunctionManagementRequests_5 : ∃ (s : State) (port : Nat) (d : Delivered) (i : Nat) (m : MgmtSlot) (u : State) (gs : List Grant), 96 ≤ port ∧ port ≤ 101 ∧ deliveredHead s port 241 = some d ∧ slotFor s d.pkt.dep d.pkt.sfna (recordSeq d.pkt.payload) = some (i, m) ∧ accessBufs s [8, i] (s.queue m.queue).pd Need.write [{ addr := m.bufAddr, len := (List.take 4096 d.pkt.payload).length, key := m.bufKey }] = (u, BufAccess.ok gs) ∧ fld (natBE (List.take 16 d.pkt.payload)) 111 104 ≠ 19 :=
  ⟨upSlot 0, 101, { pkt := mgmtResp 0 }, 255, mgmtSlot, (accessBufs (upSlot 0) [8, 255] 3 .write [{ addr := 0, len := 16, key := 1793 }]).1, [{ func := 0, seg := 7, chk := 0, pieces := [{ addr := 2 ^ 30, len := 16 }] }], by decide +kernel⟩
theorem test_FunctionManagementRequests_6 : ∃ (s : State) (i : Nat) (m : MgmtSlot), i < 256 ∧ tget none s.ctl.slots i = some m ∧ m.sentAt + s.reg Dict.CTL_HOST_MGMT_TIMEOUT_ST ≤ s.time.count :=
  ⟨{ upSlot 0 with time := { count := up.reg Dict.CTL_HOST_MGMT_TIMEOUT_ST } }, 255, mgmtSlot, by decide +kernel⟩
theorem test_FunctionManagementRequests_7 : ∃ (s : State) (i : Nat) (m : MgmtSlot), i < 256 ∧ tget none s.ctl.slots i = some m ∧ s.time.count < m.sentAt + s.reg Dict.CTL_HOST_MGMT_TIMEOUT_ST :=
  ⟨{ upSlot 0 with time := { count := up.reg Dict.CTL_HOST_MGMT_TIMEOUT_ST - 1 } }, 255, mgmtSlot, by decide +kernel⟩

/-- Queue 63 with one entry consumed, and segment 7. -/
def upMem (e : Entry) : State := { upEnt e with trans := memTrans }

/-- A put's, a get's or a send's entry over segment 7, by a key of its tag or not. -/
def xfer (opc key : Nat) : Entry := { ent 0 opc true with len := 4032, lkey := key, laddr := 2 ^ 20 - 4032, dfna := 65, dep := 5 }


/-! RemoteOperationsStart -/
theorem test_RemoteOperationsStart_1 : ∃ (s : State) (g : Nat) (e : Entry) (i : Instr) (need : Need), NextStart s g e ∧ e.kind = 0 ∧ (i = Instr.put g ∧ e.opc = 1 ∧ need = Need.read ∨ i = Instr.get g ∧ e.opc = 2 ∧ need = Need.write ∧ e.inl = false ∨ i = Instr.send g ∧ e.opc = 3 ∧ need = Need.read ∧ e.len ≤ s.reg Dict.MATCH_EAGER_LIMIT) ∧ e.inl = true :=
  ⟨upEnt { ent 0 1 true with inl := true }, 63, { ent 0 1 true with inl := true }, .put 63, .read, by unfold NextStart; decide +kernel⟩
theorem test_RemoteOperationsStart_2 : ∃ (s : State) (g : Nat) (e : Entry) (i : Instr) (need : Need) (b : State), NextStart s g e ∧ e.kind = 0 ∧ (i = Instr.put g ∧ e.opc = 1 ∧ need = Need.read ∨ i = Instr.get g ∧ e.opc = 2 ∧ need = Need.write ∧ e.inl = false ∨ i = Instr.send g ∧ e.opc = 3 ∧ need = Need.read ∧ e.len ≤ s.reg Dict.MATCH_EAGER_LIMIT) ∧ e.inl = false ∧ checkBufs (markEntry s g e true) (s.queue g).pd need e.buffers = (b, BufCheck.ok) :=
  ⟨upMem (xfer 2 1793), 63, xfer 2 1793, .get 63, .write, (checkBufs (markEntry (upMem (xfer 2 1793)) 63 (xfer 2 1793) true) 3 .write (xfer 2 1793).buffers).1, by unfold NextStart; decide +kernel⟩
theorem test_RemoteOperationsStart_3 : ∃ (s : State) (g : Nat) (e : Entry) (i : Instr) (need : Need) (b : State) (status : Nat) (reason : Nat), NextStart s g e ∧ e.kind = 0 ∧ (i = Instr.put g ∧ e.opc = 1 ∧ need = Need.read ∨ i = Instr.get g ∧ e.opc = 2 ∧ need = Need.write ∧ e.inl = false ∨ i = Instr.send g ∧ e.opc = 3 ∧ need = Need.read ∧ e.len ≤ s.reg Dict.MATCH_EAGER_LIMIT) ∧ e.inl = false ∧ checkBufs (markEntry s g e true) (s.queue g).pd need e.buffers = (b, BufCheck.refused status reason) :=
  ⟨upMem (xfer 3 1794), 63, xfer 3 1794, .send 63, .read, (checkBufs (markEntry (upMem (xfer 3 1794)) 63 (xfer 3 1794) true) 3 .read (xfer 3 1794).buffers).1, 0x43, 2, by unfold NextStart; decide +kernel⟩
theorem test_RemoteOperationsStart_4 : ∃ (s : State) (g : Nat) (e : Entry) (i : Instr) (need : Need) (b : State), NextStart s g e ∧ e.kind = 0 ∧ (i = Instr.put g ∧ e.opc = 1 ∧ need = Need.read ∨ i = Instr.get g ∧ e.opc = 2 ∧ need = Need.write ∧ e.inl = false ∨ i = Instr.send g ∧ e.opc = 3 ∧ need = Need.read ∧ e.len ≤ s.reg Dict.MATCH_EAGER_LIMIT) ∧ e.inl = false ∧ checkBufs (markEntry s g e true) (s.queue g).pd need e.buffers = (b, BufCheck.wait) :=
  ⟨{ upMem (xfer 1 1793) with trans := { memTrans with descs := [] } }, 63, xfer 1 1793, .put 63, .read, (checkBufs (markEntry { upMem (xfer 1 1793) with trans := { memTrans with descs := [] } } 63 (xfer 1 1793) true) 3 .read (xfer 1 1793).buffers).1, by unfold NextStart; decide +kernel⟩
theorem test_RemoteOperationsStart_5 : ∃ (s : State) (g : Nat) (e : Entry) (i : Instr), NextStart s g e ∧ e.kind = 0 ∧ (i = Instr.atomic g ∧ e.opc / 16 = 1 ∨ i = Instr.fetchAtomic g ∧ e.opc / 16 = 2 ∨ i = Instr.atomic128 g ∧ e.opc / 16 = 3 ∨ i = Instr.fetchAtomic128 g ∧ e.opc / 16 = 4) :=
  ⟨upEnt (ent 0 0x47 true), 63, ent 0 0x47 true, .fetchAtomic128 63, by unfold NextStart; decide +kernel⟩

/-- The closing of the context with router 65, and that context. -/
def closeEnt : Entry := { ent 1 18 true with dfna := 65 }
def upReq (e : Entry) (c : ReqCtx) : State := { upEnt e with rma := { req := [(reqKey 5 65, c)], onDie := [reqCode (reqKey 5 65)] } }

theorem test_RemoteOperationsStart_6 : ∃ (s : State) (g : Nat) (e : Entry), NextStart s g e ∧ e.kind = 1 ∧ e.opc = 18 ∧ LoneEntry s g e ∧ e.cmpl = true ∧ RingWritable s (ringOf s g) ∧ (s.reqCtx (reqKey (s.queue g).ep e.dfna)).st = ReqSt.open ∧ (s.reqCtx (reqKey (s.queue g).ep e.dfna)).busy = false ∧ (s.reqCtx (reqKey (s.queue g).ep e.dfna)).closers = [] :=
  ⟨upReq closeEnt { st := .open }, 63, closeEnt, by unfold LoneEntry NextStart RingWritable; decide +kernel⟩
theorem test_RemoteOperationsStart_7 : ∃ (s : State) (g : Nat) (e : Entry), NextStart s g e ∧ e.kind = 1 ∧ e.opc = 18 ∧ LoneEntry s g e ∧ e.cmpl = true ∧ RingWritable s (ringOf s g) ∧ ((s.reqCtx (reqKey (s.queue g).ep e.dfna)).st = ReqSt.free ∨ (s.reqCtx (reqKey (s.queue g).ep e.dfna)).st = ReqSt.closing) :=
  ⟨upReq closeEnt { st := .closing }, 63, closeEnt, by unfold LoneEntry NextStart RingWritable; decide +kernel⟩
theorem test_RemoteOperationsStart_8 : ∃ (s : State) (g : Nat) (e : Entry), NextStart s g e ∧ e.kind = 1 ∧ e.opc = 18 ∧ LoneEntry s g e ∧ e.cmpl = true ∧ RingWritable s (ringOf s g) ∧ (s.reqCtx (reqKey (s.queue g).ep e.dfna)).st = ReqSt.open ∧ (s.reqCtx (reqKey (s.queue g).ep e.dfna)).busy = true :=
  ⟨upReq closeEnt { st := .open, pkts := [{}] }, 63, closeEnt, by unfold LoneEntry NextStart RingWritable; decide +kernel⟩

/-! SubmittedMessageSent -/
theorem test_SubmittedMessageSent_1 : ∃ (s : State) (key : Nat) (m : Msg) (d : List Byte), m.assigned = 0 ∧ m.again = [] ∧ m.stopped = false ∧ m.failed = none ∧ m.pieces = 1 ∧ payloadAtHand m 0 (m.pieceLen 0) = some d ∧ CtxIdle s key ∧ pieceCharge s m (m.pieceLen 0) ≤ (s.reqCtx key).credit :=
  ⟨upReq closeEnt { st := .open, credit := 4032 + 52 + up.reg Dict.SW_DRR_OVERHEAD, una := 7, nxt := 7 }, reqKey 5 65, { opc := 1, len := 4032, data := some (List.replicate 4032 1) }, List.replicate 4032 1, by unfold CtxIdle; decide +kernel⟩
theorem test_SubmittedMessageSent_2 : ∃ (s : State) (key : Nat) (m : Msg) (d : List Byte) (pl : Nat), m.assigned = 0 ∧ m.again = [] ∧ m.stopped = false ∧ m.failed = none ∧ m.pieces = 1 ∧ payloadAtHand m 0 (m.pieceLen 0) = some d ∧ s.reqCtx key = { } ∧ freePlace s (reqCode key) = some pl ∧ s.rma.onDie.length < 65536 ∧ pieceCharge s m (m.pieceLen 0) ≤ s.reg Dict.RMA_RATE_MAX :=
  ⟨upHost, reqKey 5 65, { opc := 3, len := 0 }, [], 16 * (Config.peerHash (reqCode (reqKey 5 65)) % peerBuckets upHost), by exact ⟨by decide +kernel, by decide +kernel, by decide +kernel, by decide +kernel, by decide +kernel, by decide +kernel, by decide +kernel, freePlace_of _ (by decide +kernel), by decide +kernel⟩⟩

/-- A request from endpoint 6 of router 65 to endpoint 5, in incarnation 3, with a key of segment 7. -/
def reqPkt (opc psn : Nat) (payload : List Byte) (raddr : Nat) : Packet :=
  { opc := opc, sfna := 65, sep := 6, dep := 5, psn := psn, payload := payload, len := payload.length
    oph := [packReqWord false true true false 3 psn 1793, raddr, 0, 0] }

/-- The responder with that request delivered at the host port at 99. -/
def upResp (c : RespCtx) (p : Packet) : State :=
  { upQ { st := .running } with
    trans := memTrans, rma := { resp := [(respKey 65 6, c)], onDie := [respCode (respKey 65 6)] }, sw := { delivered := [(99, [{ pkt := p }])] } }

/-- A live context of incarnation 3 whose first PSN not received is the last there is. -/
def liveCtx : RespCtx := { live := true, inc := 3, rcvNxt := 2 ^ 24 - 1 }


/-! RequestsReceived -/
theorem test_RequestsReceived_1 : ∃ (s : State) (hp : Nat) (i : Instr) (p : Packet), AtHead s hp p ∧ RequestRow hp i p ∧ (s.respCtx (respKey p.sfna p.sep)).live = false ∧ hdrSyn p = false :=
  ⟨upResp {} (reqPkt 1 0 [7] 0), 99, .putReceive 99, reqPkt 1 0 [7] 0, atHead_of (by decide +kernel), by unfold RequestRow; decide +kernel⟩
theorem test_RequestsReceived_2 : ∃ (s : State) (hp : Nat) (i : Instr) (p : Packet), AtHead s hp p ∧ RequestRow hp i p ∧ (s.respCtx (respKey p.sfna p.sep)).live = true ∧ onDie s (respCode (respKey p.sfna p.sep)) = true ∧ (s.respCtx (respKey p.sfna p.sep)).inc ≠ hdrInc p ∧ hdrSyn p = false :=
  ⟨upResp { liveCtx with inc := 2 } (reqPkt 2 0 (bytesBE 1 8) 0), 99, .getReceive 99, reqPkt 2 0 (bytesBE 1 8) 0, atHead_of (by decide +kernel), by unfold RequestRow; decide +kernel⟩
theorem test_RequestsReceived_3 : ∃ (s : State) (hp : Nat) (i : Instr) (p : Packet), AtHead s hp p ∧ RequestRow hp i p ∧ RespHere s p ∧ (s.respCtx (respKey p.sfna p.sep)).received p.psn = false ∧ 64 < psnDist (s.respCtx (respKey p.sfna p.sep)).rcvNxt p.psn :=
  ⟨upResp liveCtx (reqPkt 1 64 [7] 0), 99, .putReceive 99, reqPkt 1 64 [7] 0, atHead_of (by decide +kernel), by unfold RespHere RequestRow; decide +kernel⟩
theorem test_RequestsReceived_4 : ∃ (s : State) (hp : Nat) (i : Instr) (p : Packet), AtHead s hp p ∧ RequestRow hp i p ∧ RespHere s p ∧ (s.respCtx (respKey p.sfna p.sep)).received p.psn = true ∧ (p.opc = 1 ∨ p.opc = 3 ∨ p.opc = 4 ∨ isAtomic p.opc = true ∧ isFetch p.opc = false) :=
  ⟨upResp liveCtx (reqPkt 1 (2 ^ 24 - 2) [7] 0), 99, .putReceive 99, reqPkt 1 (2 ^ 24 - 2) [7] 0, atHead_of (by decide +kernel), by unfold RespHere RequestRow; decide +kernel⟩
theorem test_RequestsReceived_5 : ∃ (s : State) (hp : Nat) (i : Instr) (p : Packet) (r : Replay), AtHead s hp p ∧ RequestRow hp i p ∧ RespHere s p ∧ (s.respCtx (respKey p.sfna p.sep)).received p.psn = true ∧ isAtomic p.opc = true ∧ isFetch p.opc = true ∧ (s.rma.atomics.any fun j ↦ decide (j.key = respKey p.sfna p.sep) && decide (j.psn = p.psn)) = false ∧ List.find? (fun r ↦ decide (r.key = respKey p.sfna p.sep) && decide (r.inc = hdrInc p) && decide (r.psn = p.psn)) s.rma.replay = some r :=
  ⟨{ upResp liveCtx (reqPkt 0x20 (2 ^ 24 - 2) [] 0) with rma := { (upResp liveCtx (reqPkt 0x20 (2 ^ 24 - 2) [] 0)).rma with replay := [{ key := respKey 65 6, inc := 3, psn := 2 ^ 24 - 2 }] } }, 99, .fetchAtomicReceive 99, reqPkt 0x20 (2 ^ 24 - 2) [] 0, { key := respKey 65 6, inc := 3, psn := 2 ^ 24 - 2 }, atHead_of (by decide +kernel), by unfold RespHere RequestRow; decide +kernel⟩
/-- The key's access for the last bytes of the segment, by a request that is judged. -/
def judged (c : RespCtx) (p : Packet) (len : Nat) (need : Need) : State × KeyAccess :=
  access (requestTaken (upResp c p) 99 p) [3, respKey 65 6, p.psn] (hdrRkey p) 3 (hdrRaddr p) len need
theorem test_RequestsReceived_6 : ∃ (s : State) (u : State) (hp : Nat) (p : Packet) (func : Nat) (seg : Nat) (chk : Nat) (pieces : List Piece), AtHead s hp p ∧ RespHere s p ∧ NewPsn s p ∧ p.opc = 1 ∧ p.payload ≠ [] ∧ epServes s p.dep = true ∧ (hdrLast p = true → hdrNotify p = true → (arrivalRing s p.dep).isSome = true) ∧ isRelease p = false ∧ access (requestTaken s hp p) [3, respKey p.sfna p.sep, p.psn] (hdrRkey p) (epPd s p.dep) (hdrRaddr p + 4032 * psnDist (hdrMpsn p) p.psn) p.payload.length Need.write = (u, KeyAccess.ok func seg chk pieces) :=
  ⟨upResp liveCtx (reqPkt 1 63 [7] (2 ^ 20 - 1)), (judged liveCtx (reqPkt 1 63 [7] (2 ^ 20 - 1)) 1 .write).1, 99, reqPkt 1 63 [7] (2 ^ 20 - 1), 0, 7, 0, [{ addr := 2 ^ 30 + 2 ^ 20 - 1, len := 1 }], atHead_of (by decide +kernel), by unfold RespHere NewPsn; decide +kernel⟩
theorem test_RequestsReceived_7 : ∃ (s : State) (u : State) (hp : Nat) (p : Packet) (status : Nat) (reason : Nat), AtHead s hp p ∧ RespHere s p ∧ NewPsn s p ∧ p.opc = 1 ∧ p.payload ≠ [] ∧ epServes s p.dep = true ∧ (hdrLast p = true → hdrNotify p = true → (arrivalRing s p.dep).isSome = true) ∧ isRelease p = false ∧ access (requestTaken s hp p) [3, respKey p.sfna p.sep, p.psn] (hdrRkey p) (epPd s p.dep) (hdrRaddr p + 4032 * psnDist (hdrMpsn p) p.psn) p.payload.length Need.write = (u, KeyAccess.refused status reason) :=
  ⟨upResp liveCtx (reqPkt 1 63 [7] (2 ^ 20)), (judged liveCtx (reqPkt 1 63 [7] (2 ^ 20)) 1 .write).1, 99, reqPkt 1 63 [7] (2 ^ 20), 0, 6, atHead_of (by decide +kernel), by unfold RespHere NewPsn; decide +kernel⟩
theorem test_RequestsReceived_8 : ∃ (s : State) (hp : Nat) (p : Packet), AtHead s hp p ∧ RespHere s p ∧ NewPsn s p ∧ isRelease p = true :=
  ⟨upResp liveCtx (reqPkt 1 63 [] 0), 99, reqPkt 1 63 [] 0, atHead_of (by decide +kernel), by unfold RespHere NewPsn; decide +kernel⟩
theorem test_RequestsReceived_9 : ∃ (s : State) (u : State) (hp : Nat) (p : Packet) (func : Nat) (seg : Nat) (chk : Nat) (pieces : List Piece), AtHead s hp p ∧ RespHere s p ∧ NewPsn s p ∧ p.opc = 2 ∧ epServes s p.dep = true ∧ 1 ≤ getLen p ∧ getLen p ≤ 1048576 ∧ access (requestTaken s hp p) [3, respKey p.sfna p.sep, p.psn] (hdrRkey p) (epPd s p.dep) (hdrRaddr p) (getLen p) Need.read = (u, KeyAccess.ok func seg chk pieces) :=
  ⟨upResp liveCtx (reqPkt 2 63 (bytesBE 1048576 8) 0), (judged liveCtx (reqPkt 2 63 (bytesBE 1048576 8) 0) 1048576 .read).1, 99, reqPkt 2 63 (bytesBE 1048576 8) 0, 0, 7, 0, piecesOf memTrans 7 0 1048576, atHead_of (by decide +kernel), by unfold RespHere NewPsn; decide +kernel⟩
theorem test_RequestsReceived_10 : ∃ (s : State) (u : State) (hp : Nat) (p : Packet) (i : Instr) (func : Nat) (seg : Nat) (chk : Nat) (pieces : List Piece), AtHead s hp p ∧ RespHere s p ∧ NewPsn s p ∧ isAtomic p.opc = true ∧ i = (if isFetch p.opc = true then Instr.fetchAtomicReceive hp else Instr.atomicReceive hp) ∧ epServes s p.dep = true ∧ hdrRaddr p % atomicWidth p.opc = 0 ∧ access (requestTaken s hp p) [3, respKey p.sfna p.sep, p.psn] (hdrRkey p) (epPd s p.dep) (hdrRaddr p) (atomicWidth p.opc) Need.both = (u, KeyAccess.ok func seg chk pieces) :=
  ⟨upResp liveCtx (reqPkt 0x47 63 [] (2 ^ 20 - 16)), (judged liveCtx (reqPkt 0x47 63 [] (2 ^ 20 - 16)) 16 .both).1, 99, reqPkt 0x47 63 [] (2 ^ 20 - 16), .fetchAtomicReceive 99, 0, 7, 0, [{ addr := 2 ^ 30 + 2 ^ 20 - 16, len := 16 }], atHead_of (by decide +kernel), by unfold RespHere NewPsn; decide +kernel⟩
theorem test_RequestsReceived_11 : ∃ (s : State) (hp : Nat) (p : Packet) (i : Instr), AtHead s hp p ∧ RespHere s p ∧ NewPsn s p ∧ isAtomic p.opc = true ∧ i = (if isFetch p.opc = true then Instr.fetchAtomicReceive hp else Instr.atomicReceive hp) ∧ epServes s p.dep = true ∧ hdrRaddr p % atomicWidth p.opc ≠ 0 :=
  ⟨upResp liveCtx (reqPkt 0x10 63 [] 4), 99, reqPkt 0x10 63 [] 4, .atomicReceive 99, atHead_of (by decide +kernel), by unfold RespHere NewPsn; decide +kernel⟩

/-- An acknowledgement from router 65 to endpoint 5, from its endpoint 6. -/
def ackIn (a : Ack) : Packet := { pcls := 0, opc := 0x80, vc := 4, sfna := 65, sep := 6, dep := 5, payload := bytesBE (packAck a) 32, len := 32 }

/-- The requester with that packet delivered at the host port at 96. -/
def upAck (c : ReqCtx) (p : Packet) : State := { upReq (ent 0 2 true) c with sw := { delivered := [(96, [{ pkt := p }])] } }

/-- An open context of incarnation 15 with one packet outstanding, its first. -/
def openCtx : ReqCtx := { st := .open, inc := 15, una := 2 ^ 24 - 1, nxt := 0, pkts := [{ psn := 2 ^ 24 - 1 }] }


/-! AcknowledgementsReceived -/
theorem test_AcknowledgementsReceived_1 : ∃ (s : State) (hp : Nat) (key : Nat) (p : Packet) (a : Ack) (i : Instr), AtHead s hp p ∧ key = reqKey p.dep p.sfna ∧ a = ackOf p ∧ p.opc = 128 ∧ a.kind = 0 ∧ (s.reqCtx key).st = ReqSt.free ∧ (i = Instr.ackReceive hp ∧ a.type = 0 ∨ i = Instr.ackErrorReceive hp ∧ a.type = 1 ∨ i = Instr.ackRetryLaterReceive hp ∧ a.type = 2 ∨ i = Instr.ackNoContextReceive hp ∧ a.type = 3) :=
  ⟨upAck {} (ackIn { type := 3, inc := 15 }), 96, reqKey 5 65, ackIn { type := 3, inc := 15 }, ackOf (ackIn { type := 3, inc := 15 }), .ackNoContextReceive 96, atHead_of (by decide +kernel), by decide +kernel⟩
theorem test_AcknowledgementsReceived_2 : ∃ (s : State) (hp : Nat) (key : Nat) (p : Packet) (a : Ack), AtHead s hp p ∧ key = reqKey p.dep p.sfna ∧ a = ackOf p ∧ p.opc = 128 ∧ a.kind = 0 ∧ ReqHere s p a.inc ∧ a.type = 0 ∧ a.cv = true :=
  ⟨upAck openCtx (ackIn { inc := 15, cv := true, cum := 0 }), 96, reqKey 5 65, ackIn { inc := 15, cv := true, cum := 0 }, ackOf (ackIn { inc := 15, cv := true, cum := 0 }), atHead_of (by decide +kernel), by unfold ReqHere; decide +kernel⟩
theorem test_AcknowledgementsReceived_3 : ∃ (s : State) (hp : Nat) (key : Nat) (p : Packet) (a : Ack), AtHead s hp p ∧ key = reqKey p.dep p.sfna ∧ a = ackOf p ∧ p.opc = 128 ∧ a.kind = 0 ∧ ReqHere s p a.inc ∧ a.type = 1 :=
  ⟨upAck openCtx (ackIn { inc := 15, type := 1 }), 96, reqKey 5 65, ackIn { inc := 15, type := 1 }, ackOf (ackIn { inc := 15, type := 1 }), atHead_of (by decide +kernel), by unfold ReqHere; decide +kernel⟩
theorem test_AcknowledgementsReceived_4 : ∃ (s : State) (hp : Nat) (key : Nat) (p : Packet) (a : Ack) (q : ReqPkt), AtHead s hp p ∧ key = reqKey p.dep p.sfna ∧ a = ackOf p ∧ p.opc = 128 ∧ a.kind = 0 ∧ ReqHere s p a.inc ∧ a.type = 2 ∧ a.cv = false ∧ List.find? (fun q ↦ decide (q.psn = a.epsn) && !q.got) (s.reqCtx key).pkts = some q ∧ q.rlater + 1 < s.reg Dict.RMA_RLATER_LIMIT :=
  ⟨upAck openCtx (ackIn { inc := 15, type := 2, epsn := 2 ^ 24 - 1 }), 96, reqKey 5 65, ackIn { inc := 15, type := 2, epsn := 2 ^ 24 - 1 }, ackOf (ackIn { inc := 15, type := 2, epsn := 2 ^ 24 - 1 }), { psn := 2 ^ 24 - 1 }, atHead_of (by decide +kernel), by unfold ReqHere; decide +kernel⟩
theorem test_AcknowledgementsReceived_5 : ∃ (s : State) (hp : Nat) (key : Nat) (p : Packet) (a : Ack), AtHead s hp p ∧ key = reqKey p.dep p.sfna ∧ a = ackOf p ∧ p.opc = 128 ∧ a.kind = 0 ∧ ReqHere s p a.inc ∧ a.type = 3 ∧ a.cv = false :=
  ⟨upAck openCtx (ackIn { inc := 15, type := 3 }), 96, reqKey 5 65, ackIn { inc := 15, type := 3 }, ackOf (ackIn { inc := 15, type := 3 }), atHead_of (by decide +kernel), by unfold ReqHere; decide +kernel⟩
theorem test_AcknowledgementsReceived_6 : ∃ (s : State) (hp : Nat) (key : Nat) (p : Packet) (a : Ack), AtHead s hp p ∧ key = respKey p.sfna p.sep ∧ a = ackOf p ∧ p.opc = 128 ∧ a.kind = 1 ∧ a.type = 4 ∧ (s.respCtx key).live = true ∧ (s.respCtx key).inc = a.inc :=
  ⟨upResp liveCtx (ackIn { kind := 1, type := 4, inc := 3 }), 99, respKey 65 6, ackIn { kind := 1, type := 4, inc := 3 }, ackOf (ackIn { kind := 1, type := 4, inc := 3 }), atHead_of (by decide +kernel), by decide +kernel⟩
theorem test_AcknowledgementsReceived_7 : ∃ (s : State) (hp : Nat) (key : Nat) (p : Packet) (a : Ack), AtHead s hp p ∧ key = respKey p.sfna p.sep ∧ a = ackOf p ∧ p.opc = 128 ∧ a.kind = 1 ∧ a.type = 4 ∧ (s.respCtx key).live = false :=
  ⟨upResp {} (ackIn { kind := 1, type := 4, inc := 3 }), 99, respKey 65 6, ackIn { kind := 1, type := 4, inc := 3 }, ackOf (ackIn { kind := 1, type := 4, inc := 3 }), atHead_of (by decide +kernel), by decide +kernel⟩
theorem test_AcknowledgementsReceived_8 : ∃ (s : State) (hp : Nat) (key : Nat) (p : Packet) (a : Ack), AtHead s hp p ∧ key = respKey p.sfna p.sep ∧ a = ackOf p ∧ p.opc = 128 ∧ a.kind = 1 ∧ a.type = 0 ∧ a.cv = true ∧ (s.respCtx key).live = true ∧ (s.respCtx key).inc = a.inc :=
  ⟨upResp liveCtx (ackIn { kind := 1, inc := 3, cv := true }), 99, respKey 65 6, ackIn { kind := 1, inc := 3, cv := true }, ackOf (ackIn { kind := 1, inc := 3, cv := true }), atHead_of (by decide +kernel), by decide +kernel⟩
theorem test_AcknowledgementsReceived_9 : ∃ (s : State) (node : Nat) (ep : Nat) (a : Nat), (s.respCtx (respKey node ep)).ackAt = some a ∧ a + s.reg Dict.RMA_ACK_DELAY_ST ≤ s.time.count :=
  ⟨{ upResp { liveCtx with ackAt := some 7 } {} with time := { count := 7 + up.reg Dict.RMA_ACK_DELAY_ST } }, 65, 6, 7, by decide +kernel⟩
theorem test_AcknowledgementsReceived_10 : ∃ (s : State) (node : Nat) (ep : Nat) (a : Nat), (s.reqCtx (reqKey ep node)).respAt = some a ∧ a + s.reg Dict.RMA_ACK_DELAY_ST ≤ s.time.count :=
  ⟨{ upReq closeEnt { respAt := some 7 } with time := { count := 7 + up.reg Dict.RMA_ACK_DELAY_ST } }, 65, 5, 7, by decide +kernel⟩
theorem test_AcknowledgementsReceived_11 : ∃ (s : State) (node : Nat) (ep : Nat), (s.respCtx (respKey node ep)).ackAt = none :=
  ⟨upHost, 65, 6, by decide +kernel⟩

/-- A context whose one message is the work of the queue's entry 9, all of it sent in its last packet. -/
def loneCtx (m : Msg) (q : ReqPkt) : ReqCtx := { st := .open, inc := 15, nxt := 1, msgs := [m], pkts := [q] }
/-- A response from router 65, of a status, that answers PSN 0 in incarnation 15. -/
def respPkt (opc status : Nat) : Packet := { opc := opc, vc := 4, sfna := 65, sep := 6, dep := 5, oph := [put 15 59 56 + put status 47 40], payload := bytesBE 7 8, len := 8 }


/-! ResponsesTimersAndRates -/
theorem test_ResponsesTimersAndRates_1 : ∃ (s : State) (hp : Nat) (key : Nat) (g : Nat) (p : Packet) (m : Msg) (q : ReqPkt) (e : Entry), AtHead s hp p ∧ key = reqKey p.dep p.sfna ∧ ReqHere s p (hdrInc p) ∧ LoneMessage s key m q e ∧ q.psn = p.psn ∧ LoneEntry s g e ∧ e.cmpl = true ∧ RingWritable s (ringOf s g) ∧ p.opc = 130 ∧ isAtomic m.opc = true ∧ isFetch m.opc = true ∧ q.needResp = true ∧ q.missing = [] ∧ respStatus p = 0 :=
  ⟨{ upAck (loneCtx { owner := .entry 9, opc := 0x20, len := 8, assigned := 1 } { needResp := true }) (respPkt 130 0) with queues := (upEnt (ent 0 0x20 true)).queues }, 96, reqKey 5 65, 63, respPkt 130 0, { owner := .entry 9, opc := 0x20, len := 8, assigned := 1 }, { needResp := true }, ent 0 0x20 true, atHead_of (by decide +kernel), by unfold ReqHere LoneMessage LoneEntry RingWritable; decide +kernel⟩
theorem test_ResponsesTimersAndRates_2 : ∃ (s : State) (hp : Nat) (key : Nat) (g : Nat) (p : Packet) (m : Msg) (q : ReqPkt) (e : Entry), AtHead s hp p ∧ key = reqKey p.dep p.sfna ∧ ReqHere s p (hdrInc p) ∧ LoneMessage s key m q e ∧ q.psn = p.psn ∧ LoneEntry s g e ∧ e.cmpl = true ∧ RingWritable s (ringOf s g) ∧ p.opc = 129 ∧ m.opc = 2 ∧ q.needResp = false ∧ q.missing = [respIndex p] ∧ respStatus p ≠ 0 :=
  ⟨upAck (loneCtx { owner := .entry 9, opc := 2, len := 8, assigned := 1 } { missing := [0] }) (respPkt 129 0x43), 96, reqKey 5 65, 63, respPkt 129 0x43, { owner := .entry 9, opc := 2, len := 8, assigned := 1 }, { missing := [0] }, ent 0 2 true, atHead_of (by decide +kernel), by unfold ReqHere LoneMessage LoneEntry RingWritable; decide +kernel⟩
theorem test_ResponsesTimersAndRates_3 : ∃ (s : State) (hp : Nat) (p : Packet), AtHead s hp p ∧ (s.reqCtx (reqKey p.dep p.sfna)).st = ReqSt.free ∧ p.opc = 129 :=
  ⟨upAck {} (respPkt 129 0), 96, respPkt 129 0, atHead_of (by decide +kernel), by decide +kernel⟩
theorem test_ResponsesTimersAndRates_4 : ∃ (s : State) (hp : Nat) (p : Packet), AtHead s hp p ∧ (s.reqCtx (reqKey p.dep p.sfna)).st = ReqSt.free ∧ p.opc = 130 :=
  ⟨upAck {} (respPkt 130 0), 96, respPkt 130 0, atHead_of (by decide +kernel), by decide +kernel⟩
theorem test_ResponsesTimersAndRates_5 : ∃ (s : State) (sep : Nat) (dfna : Nat) (a : Nat), (s.reqCtx (reqKey sep dfna)).st = ReqSt.open ∧ (s.reqCtx (reqKey sep dfna)).timer = some a ∧ a ≤ s.time.count ∧ (s.reqCtx (reqKey sep dfna)).held = [] ∧ (∀ q ∈ (s.reqCtx (reqKey sep dfna)).pkts, q.got = false) ∧ (s.reqCtx (reqKey sep dfna)).pkts ≠ [] ∧ (∃ q ∈ (s.reqCtx (reqKey sep dfna)).pkts, s.reg Dict.RMA_RETRY_LIMIT ≤ q.resends) :=
  ⟨{ upReq closeEnt { openCtx with timer := some 7, pkts := [{ psn := 2 ^ 24 - 1, resends := 255 }] } with time := { count := 7 } }, 5, 65, 7, by decide +kernel⟩
theorem test_ResponsesTimersAndRates_6 : ∃ (s : State) (sep : Nat) (dfna : Nat) (a : Nat), (s.reqCtx (reqKey sep dfna)).st = ReqSt.open ∧ (s.reqCtx (reqKey sep dfna)).timer = some a ∧ a ≤ s.time.count ∧ (s.reqCtx (reqKey sep dfna)).held = [] ∧ (∀ q ∈ (s.reqCtx (reqKey sep dfna)).pkts, q.got = false) ∧ (s.reqCtx (reqKey sep dfna)).pkts ≠ [] ∧ (∀ q ∈ (s.reqCtx (reqKey sep dfna)).pkts, q.resends < s.reg Dict.RMA_RETRY_LIMIT) ∧ onDie s (reqCode (reqKey sep dfna)) = true :=
  ⟨{ upReq closeEnt { openCtx with timer := some 7 } with time := { count := 7 } }, 5, 65, 7, by decide +kernel⟩
theorem test_ResponsesTimersAndRates_7 : ∃ (s : State) (sep : Nat) (dfna : Nat) (a : Nat), (s.reqCtx (reqKey sep dfna)).holdUntil = some a ∧ a ≤ s.time.count :=
  ⟨{ upReq closeEnt { openCtx with holdUntil := some 7 } with time := { count := 7 } }, 5, 65, 7, by decide +kernel⟩
theorem test_ResponsesTimersAndRates_8 : ∃ (s : State) (sep : Nat) (dfna : Nat), (s.reqCtx (reqKey sep dfna)).holdUntil = none :=
  ⟨upReq closeEnt openCtx, 5, 65, by decide +kernel⟩
theorem test_ResponsesTimersAndRates_9 : ∃ (s : State) (sep : Nat) (dfna : Nat), (s.reqCtx (reqKey sep dfna)).st = ReqSt.open ∧ (s.reqCtx (reqKey sep dfna)).busy = false ∧ s.reg Dict.RMA_PEER_IDLE_FR ≠ 0 ∧ (s.reqCtx (reqKey sep dfna)).since + 1024 * s.reg Dict.RMA_PEER_IDLE_FR ≤ s.time.count ∧ (s.reqCtx (reqKey sep dfna)).closers = [] :=
  ⟨{ (upReq closeEnt { st := .open }).setReg Dict.RMA_PEER_IDLE_FR 0 65535 with time := { count := 1024 * 65535 } }, 5, 65, by decide +kernel⟩
theorem test_ResponsesTimersAndRates_10 : ∃ (s : State) (sep : Nat) (dfna : Nat), (s.reqCtx (reqKey sep dfna)).st = ReqSt.closing ∧ (s.reqCtx (reqKey sep dfna)).since + 1024 ≤ s.time.count ∧ (s.reqCtx (reqKey sep dfna)).msgs = [] :=
  ⟨{ upReq closeEnt { st := .closing, since := 1 } with time := { count := 1025 } }, 5, 65, by decide +kernel⟩
theorem test_ResponsesTimersAndRates_11 : ∃ (s : State) (sep : Nat) (dfna : Nat), (s.reqCtx (reqKey sep dfna)).st = ReqSt.open ∧ (s.reqCtx (reqKey sep dfna)).periodAt + s.reg Dict.RMA_CC_PERIOD_ST ≤ s.time.count :=
  ⟨{ upReq closeEnt { st := .open, periodAt := 1 } with time := { count := 1 + up.reg Dict.RMA_CC_PERIOD_ST } }, 5, 65, by decide +kernel⟩
theorem test_ResponsesTimersAndRates_12 : ∃ (s : State) (node : Nat) (ep : Nat), (s.respCtx (respKey node ep)).fetching = true ∧ s.rma.parked = [] ∧ s.rma.onDie.length < 65536 :=
  ⟨upResp { liveCtx with fetching := true } {}, 65, 6, by decide +kernel⟩
theorem test_ResponsesTimersAndRates_13 : ∃ (s : State) (node : Nat) (ep : Nat), (s.respCtx (respKey node ep)).fetching = true ∧ s.rma.parked = [] :=
  ⟨upResp { liveCtx with fetching := true } {}, 65, 6, by decide +kernel⟩
theorem test_ResponsesTimersAndRates_14 : ∃ (s : State) (node : Nat) (ep : Nat), (s.reqCtx (reqKey ep node)).fetching = true ∧ (s.reqCtx (reqKey ep node)).msgs = [] ∧ s.rma.onDie.length < 65536 :=
  ⟨upReq closeEnt { openCtx with fetching := true }, 65, 5, by decide +kernel⟩
theorem test_ResponsesTimersAndRates_15 : ∃ (s : State) (node : Nat) (ep : Nat), (s.respCtx (respKey node ep)).fetching = false :=
  ⟨upHost, 65, 6, by decide +kernel⟩

/-- An entry on segment 7, its key's tag 1. -/
def segEnt (opc : Nat) : Entry := { ent 1 opc true with args := [7, 0, 0], more := [put (2 ^ 20) 127 64 + put 5 191 140 + 3 * 2 ^ 192] }

/-- Queue 63 with that entry next, its function with segments from 1 on, and a descriptor of segment 7 on die. -/
def upSeg (e : Entry) (t : TransUnit) : State := { (upEnt e).setReg Dict.TRANS_FUNC_SEGS 0 (put 1 55 32 + put 65535 24 0) with trans := t }

/-- That state after the look at the descriptor. -/
def looked (s : State) (e : Entry) : State := (lookDesc (markEntry s 63 e true) 7).1


/-! SegmentsRegisteredRevokedInvalidated -/
theorem test_SegmentsRegisteredRevokedInvalidated_1 : ∃ (s : State) (u : State) (g : Nat) (e : Entry), NextStart s g e ∧ e.kind = 1 ∧ segIndexed s (fld e.w5 23 0) = true ∧ fld e.w5 23 0 ∈ s.trans.descs ∧ u = (lookDesc (markEntry s g e true) (fld e.w5 23 0)).1 ∧ e.opc = 48 ∧ segAllowed s e.func (fld e.w5 23 0) = false :=
  ⟨{ upEnt (segEnt 48) with trans := { descs := [7] } }, looked { upEnt (segEnt 48) with trans := { descs := [7] } } (segEnt 48), 63, segEnt 48, by unfold NextStart; decide +kernel⟩
theorem test_SegmentsRegisteredRevokedInvalidated_2 : ∃ (s : State) (u : State) (g : Nat) (e : Entry), NextStart s g e ∧ e.kind = 1 ∧ segIndexed s (fld e.w5 23 0) = true ∧ fld e.w5 23 0 ∈ s.trans.descs ∧ u = (lookDesc (markEntry s g e true) (fld e.w5 23 0)).1 ∧ e.opc = 48 ∧ segAllowed s e.func (fld e.w5 23 0) = true ∧ (s.seg (fld e.w5 23 0)).st ≠ SegSt.free :=
  ⟨upSeg (segEnt 48) memTrans, looked (upSeg (segEnt 48) memTrans) (segEnt 48), 63, segEnt 48, by unfold NextStart; decide +kernel⟩
theorem test_SegmentsRegisteredRevokedInvalidated_3 : ∃ (s : State) (u : State) (g : Nat) (e : Entry), NextStart s g e ∧ e.kind = 1 ∧ segIndexed s (fld e.w5 23 0) = true ∧ fld e.w5 23 0 ∈ s.trans.descs ∧ u = (lookDesc (markEntry s g e true) (fld e.w5 23 0)).1 ∧ e.opc = 48 ∧ registerStatus u e = 0 :=
  ⟨upSeg (segEnt 48) { descs := [7] }, looked (upSeg (segEnt 48) { descs := [7] }) (segEnt 48), 63, segEnt 48, by unfold NextStart; decide +kernel⟩
theorem test_SegmentsRegisteredRevokedInvalidated_4 : ∃ (s : State) (u : State) (g : Nat) (e : Entry), NextStart s g e ∧ e.kind = 1 ∧ segIndexed s (fld e.w5 23 0) = true ∧ fld e.w5 23 0 ∈ s.trans.descs ∧ u = (lookDesc (markEntry s g e true) (fld e.w5 23 0)).1 ∧ (s.seg (fld e.w5 23 0)).st ≠ SegSt.free ∧ (s.seg (fld e.w5 23 0)).pd = (s.queue g).pd ∧ e.opc = 17 :=
  ⟨upSeg (segEnt 17) memTrans, looked (upSeg (segEnt 17) memTrans) (segEnt 17), 63, segEnt 17, by unfold NextStart; decide +kernel⟩
theorem test_SegmentsRegisteredRevokedInvalidated_5 : ∃ (s : State) (u : State) (g : Nat) (e : Entry), NextStart s g e ∧ e.kind = 1 ∧ segIndexed s (fld e.w5 23 0) = true ∧ fld e.w5 23 0 ∈ s.trans.descs ∧ u = (lookDesc (markEntry s g e true) (fld e.w5 23 0)).1 ∧ (s.seg (fld e.w5 23 0)).st ≠ SegSt.free ∧ (s.seg (fld e.w5 23 0)).pd = (s.queue g).pd ∧ e.opc = 49 :=
  ⟨upSeg (segEnt 49) memTrans, looked (upSeg (segEnt 49) memTrans) (segEnt 49), 63, segEnt 49, by unfold NextStart; decide +kernel⟩
theorem test_SegmentsRegisteredRevokedInvalidated_6 : ∃ (s : State) (u : State) (g : Nat) (e : Entry), NextStart s g e ∧ e.kind = 1 ∧ segIndexed s (fld e.w5 23 0) = true ∧ fld e.w5 23 0 ∈ s.trans.descs ∧ u = (lookDesc (markEntry s g e true) (fld e.w5 23 0)).1 ∧ (s.seg (fld e.w5 23 0)).st ≠ SegSt.free ∧ (s.seg (fld e.w5 23 0)).pd = (s.queue g).pd ∧ e.opc = 50 :=
  ⟨upSeg (segEnt 50) memTrans, looked (upSeg (segEnt 50) memTrans) (segEnt 50), 63, segEnt 50, by unfold NextStart; decide +kernel⟩
theorem test_SegmentsRegisteredRevokedInvalidated_7 : ∃ (s : State) (u : State) (g : Nat) (e : Entry), NextStart s g e ∧ e.kind = 1 ∧ segIndexed s (fld e.w5 23 0) = true ∧ fld e.w5 23 0 ∈ s.trans.descs ∧ u = (lookDesc (markEntry s g e true) (fld e.w5 23 0)).1 ∧ ((s.seg (fld e.w5 23 0)).st = SegSt.free ∨ (s.seg (fld e.w5 23 0)).pd ≠ (s.queue g).pd) ∧ e.opc = 17 :=
  ⟨upSeg (segEnt 17) { descs := [7] }, looked (upSeg (segEnt 17) { descs := [7] }) (segEnt 17), 63, segEnt 17, by unfold NextStart; decide +kernel⟩
theorem test_SegmentsRegisteredRevokedInvalidated_8 : ∃ (s : State) (u : State) (g : Nat) (e : Entry), NextStart s g e ∧ e.kind = 1 ∧ segIndexed s (fld e.w5 23 0) = true ∧ fld e.w5 23 0 ∈ s.trans.descs ∧ u = (lookDesc (markEntry s g e true) (fld e.w5 23 0)).1 ∧ ((s.seg (fld e.w5 23 0)).st = SegSt.free ∨ (s.seg (fld e.w5 23 0)).pd ≠ (s.queue g).pd) ∧ e.opc = 49 :=
  ⟨upSeg (segEnt 49) { descs := [7] }, looked (upSeg (segEnt 49) { descs := [7] }) (segEnt 49), 63, segEnt 49, by unfold NextStart; decide +kernel⟩
theorem test_SegmentsRegisteredRevokedInvalidated_9 : ∃ (s : State) (u : State) (g : Nat) (e : Entry), NextStart s g e ∧ e.kind = 1 ∧ segIndexed s (fld e.w5 23 0) = true ∧ fld e.w5 23 0 ∈ s.trans.descs ∧ u = (lookDesc (markEntry s g e true) (fld e.w5 23 0)).1 ∧ ((s.seg (fld e.w5 23 0)).st = SegSt.free ∨ (s.seg (fld e.w5 23 0)).pd ≠ (s.queue g).pd) ∧ e.opc = 50 :=
  ⟨upSeg (segEnt 50) { descs := [7] }, looked (upSeg (segEnt 50) { descs := [7] }) (segEnt 50), 63, segEnt 50, by unfold NextStart; decide +kernel⟩
theorem test_SegmentsRegisteredRevokedInvalidated_10 : ∃ (s : State) (i : Nat) (id : Nat) (x : Seg) (y : Tlb), y ∈ (applyTransDue s (TransDue.register i id x)).trans.tlb :=
  ⟨upSeg (segEnt 48) memTrans, 8, 9, { st := .valid, r := true }, { seg := 7, size := 2 ^ 21, frame := 2 ^ 30, r := true, w := true }, by decide +kernel⟩
theorem test_SegmentsRegisteredRevokedInvalidated_11 : ∃ (s : State) (i : Nat), (s.seg i).st = SegSt.valid :=
  ⟨upSeg (segEnt 49) memTrans, 7, by decide +kernel⟩
theorem test_SegmentsRegisteredRevokedInvalidated_12 : ∃ (s : State) (i : Nat) (id : Nat) (q : Nat) (y : Tlb), y ∈ (applyTransDue s (TransDue.inval i id q none)).trans.tlb :=
  ⟨upSeg (segEnt 17) memTrans, 8, 9, 63, { seg := 7, size := 2 ^ 21, frame := 2 ^ 30, r := true, w := true }, by decide +kernel⟩

/-- Segment 7 being revoked. -/
def revTrans : TransUnit := { segs := [(7, { st := .revoking, pd := 3, w := true })], descs := [7] }

/-- The part with one drain. -/
def upDrain (d : Drain) (count : Nat) : State := { upHost with trans := { revTrans with drains := [d] }, time := { count := count } }

theorem test_SegmentsRegisteredRevokedInvalidated_13 : ∃ (s : State) (i : Nat), (s.seg i).st = SegSt.revoking ∧ segBusy s i (s.time.count + 1) = false ∧ (s.trans.ads.any fun a ↦ decide (a.seg = i)) = false :=
  ⟨upDrain { kind := .revoke, seg := 7 } 7, 7, by decide +kernel⟩
theorem test_SegmentsRegisteredRevokedInvalidated_14 : ∃ (s : State) (i : Nat), ((s.seg i).st ≠ SegSt.revoking ∨ segBusy s i (s.time.count + 1) = true) :=
  ⟨{ upDrain { kind := .revoke, seg := 7 } 7 with host := { units := 8, reads := [{ seg := some 7, at' := 7, why := .nobody }] } }, 7, by decide +kernel⟩
theorem test_SegmentsRegisteredRevokedInvalidated_15 : ∃ (s : State) (i : Nat) (d : Drain), s.trans.drains = [d] ∧ d.kind = DrainKind.revoke ∧ d.seg = i ∧ Loggable s 2565 6 i ∧ d.slow = false ∧ d.since + 1024 < s.time.count :=
  ⟨upDrain { kind := .revoke, seg := 7, since := 1 } 1026, 7, { kind := .revoke, seg := 7, since := 1 }, by unfold Loggable; decide +kernel⟩
theorem test_SegmentsRegisteredRevokedInvalidated_16 : ∃ (s : State) (i : Nat) (d : Drain), s.trans.drains = [d] ∧ d.kind = DrainKind.revoke ∧ d.seg = i ∧ Loggable s 2565 6 i ∧ (d.slow = true ∨ s.time.count ≤ d.since + 1024) :=
  ⟨upDrain { kind := .revoke, seg := 7, since := 1 } 1025, 7, { kind := .revoke, seg := 7, since := 1 }, by unfold Loggable; decide +kernel⟩
theorem test_SegmentsRegisteredRevokedInvalidated_17 : ∃ (s : State) (g : Nat) (d : Drain), g < 1048576 ∧ s.trans.drains = [d] ∧ d.kind = DrainKind.inval ∧ d.queue = g ∧ segBusy s d.seg d.since = false ∧ (s.trans.ads.any fun a ↦ decide (a.seg = d.seg) && decide (a.since < d.since)) = false :=
  ⟨upDrain { kind := .inval, queue := 1048575, seg := 7, since := 1 } 7, 1048575, { kind := .inval, queue := 1048575, seg := 7, since := 1 }, by decide +kernel⟩
theorem test_SegmentsRegisteredRevokedInvalidated_18 : ∃ (s : State) (g : Nat) (d : Drain), g < 1048576 ∧ s.trans.drains = [d] ∧ d.kind = DrainKind.inval ∧ d.queue = g ∧ segBusy s d.seg d.since = true :=
  ⟨{ upDrain { kind := .inval, queue := 1048575, seg := 7, since := 1 } 7 with host := { units := 8, reads := [{ seg := some 7, at' := 0, why := .nobody }] } }, 1048575, { kind := .inval, queue := 1048575, seg := 7, since := 1 }, by decide +kernel⟩
theorem test_SegmentsRegisteredRevokedInvalidated_19 : ∃ (s : State) (g : Nat) (d : Drain), g < 1048576 ∧ s.trans.drains = [d] ∧ d.kind = DrainKind.inval ∧ d.queue = g ∧ d.slow = false ∧ d.since + 1024 < s.time.count ∧ Loggable s 2823 6 d.seg :=
  ⟨upDrain { kind := .inval, queue := 1048575, seg := 7, since := 1 } 1026, 1048575, { kind := .inval, queue := 1048575, seg := 7, since := 1 }, by unfold Loggable; decide +kernel⟩
theorem test_SegmentsRegisteredRevokedInvalidated_20 : ∃ (s : State) (g : Nat) (d : Drain), g < 1048576 ∧ s.trans.drains = [d] ∧ d.kind = DrainKind.inval ∧ d.queue = g ∧ (d.slow = true ∨ s.time.count ≤ d.since + 1024) :=
  ⟨upDrain { kind := .inval, queue := 1048575, seg := 7, since := 1 } 1025, 1048575, { kind := .inval, queue := 1048575, seg := 7, since := 1 }, by decide +kernel⟩

/-! RightsWalksAndRegions -/
theorem test_RightsWalksAndRegions_1 : ∃ (s : State) (func : Nat) (n : Nat) (data : List Byte), func < 1024 ∧ s.host.units ≠ 0 ∧ fnPresent s func = true ∧ coreUp s = true ∧ data.length = 4 ∧ n ≤ 212991 ∧ funcValid s func = true ∧ n < pdCount s func :=
  ⟨upHost, 0, 15, [1, 0, 0, 0], by decide +kernel⟩
theorem test_RightsWalksAndRegions_2 : ∃ (s : State) (func : Nat) (n : Nat) (data : List Byte), func < 1024 ∧ s.host.units ≠ 0 ∧ fnPresent s func = true ∧ coreUp s = true ∧ data.length = 4 ∧ n ≤ 212991 ∧ pdCount s func ≤ n ∧ Loggable s 2051 3 func :=
  ⟨upHost, 0, 16, [1, 0, 0, 0], by unfold Loggable; decide +kernel⟩
theorem test_RightsWalksAndRegions_3 : ∃ (g : GateDue) (pd : Nat), pd ≠ g.pd :=
  ⟨{ pd := 3, value := 1 }, 4, by decide +kernel⟩
theorem test_RightsWalksAndRegions_4 : ∃ (s : State) (g : Nat) (e : Entry), NextStart s g e ∧ e.kind = 1 ∧ e.opc = 51 :=
  ⟨upEnt (ent 1 51 true), 63, ent 1 51 true, by unfold NextStart; decide +kernel⟩
theorem test_RightsWalksAndRegions_5 : ∃ (s : State) (g : Nat) (e : Entry), NextStart s g e ∧ e.kind = 1 ∧ e.opc = 52 :=
  ⟨upEnt (ent 1 52 true), 63, ent 1 52 true, by unfold NextStart; decide +kernel⟩
theorem test_RightsWalksAndRegions_6 : ∃ (s : State) (g : Nat) (d : Drain), g < 1048576 ∧ s.trans.drains = [d] ∧ d.kind = DrainKind.sync ∧ d.queue = g ∧ (s.trans.gateDue.any fun x ↦ decide (x.pd = d.seg)) = false ∧ pdBusy s d.seg (tget 0 s.trans.gateAt d.seg) = false :=
  ⟨upDrain { kind := .sync, queue := 1048575, seg := 3 } 7, 1048575, { kind := .sync, queue := 1048575, seg := 3 }, by decide +kernel⟩
theorem test_RightsWalksAndRegions_7 : ∃ (s : State) (g : Nat) (d : Drain), g < 1048576 ∧ s.trans.drains = [d] ∧ d.kind = DrainKind.sync ∧ d.queue = g ∧ pdBusy s d.seg (tget 0 s.trans.gateAt d.seg) = true :=
  ⟨{ upDrain { kind := .sync, queue := 1048575, seg := 3 } 7 with trans := { revTrans with drains := [{ kind := .sync, queue := 1048575, seg := 3 }], gateAt := [(3, 1)] }, host := { units := 8, reads := [{ seg := some 7, at' := 0, why := .nobody }] } }, 1048575, { kind := .sync, queue := 1048575, seg := 3 }, by decide +kernel⟩

/-- A walk's read, of the last entry of its line, and the walk. -/
def walkRead : HRead := { tag := 4, addr := 2 ^ 30 + 4032, len := 64, why := .walkLine 2 }
def walkAt (level : Nat) : Walk := { id := 2, seg := 7, va := 511 * 2 ^ (12 + 9 * level), running := true, level := level, table := 2 ^ 30 }
def upWalk (w : Walk) : State := { upHost with trans := { memTrans with walks := [w] }, host := { units := 8, reads := [walkRead] } }
/-- A line whose last entry is this one. -/
def lineOf (e : Nat) : List Byte := List.replicate 56 0 ++ bytesLE e 8

theorem test_RightsWalksAndRegions_8 : ∃ (s : State) (tag : Nat) (r : HRead) (w : Walk) (data : List Byte) (e : Nat), List.find? (fun r ↦ decide (r.tag = tag)) s.host.reads = some r ∧ r.why = ReadFor.walkLine w.id ∧ s.trans.walks = [w] ∧ s.trans.fails = [] ∧ data.length = 64 ∧ e = pteIn r.addr data w.pteAddr ∧ w.line = none ∧ bitAt e 0 = true ∧ pteBad w.level e = false ∧ bitAt e 4 = true ∧ ¬(w.level = 0 ∧ bitAt e 7 = true) ∧ inDeviceRegion s (pteFrame e) (pageBytes w.level false) = false :=
  ⟨upWalk (walkAt 2), 4, walkRead, walkAt 2, lineOf (17 + 2 ^ 30), 17 + 2 ^ 30, by decide +kernel⟩
theorem test_RightsWalksAndRegions_9 : ∃ (s : State) (tag : Nat) (r : HRead) (w : Walk) (data : List Byte) (e : Nat), List.find? (fun r ↦ decide (r.tag = tag)) s.host.reads = some r ∧ r.why = ReadFor.walkLine w.id ∧ s.trans.walks = [w] ∧ s.trans.fails = [] ∧ data.length = 64 ∧ e = pteIn r.addr data w.pteAddr ∧ w.line = none ∧ bitAt e 0 = false :=
  ⟨upWalk (walkAt 0), 4, walkRead, walkAt 0, lineOf 0, 0, by decide +kernel⟩
theorem test_RightsWalksAndRegions_10 : ∃ (s : State) (tag : Nat) (r : HRead) (w : Walk) (data : List Byte) (e : Nat), List.find? (fun r ↦ decide (r.tag = tag)) s.host.reads = some r ∧ r.why = ReadFor.walkLine w.id ∧ s.trans.walks = [w] ∧ s.trans.fails = [] ∧ data.length = 64 ∧ e = pteIn r.addr data w.pteAddr ∧ w.line = none ∧ bitAt e 0 = true ∧ pteBad w.level e = true :=
  ⟨upWalk (walkAt 0), 4, walkRead, walkAt 0, lineOf 1, 1, by decide +kernel⟩
theorem test_RightsWalksAndRegions_11 : ∃ (s : State) (tag : Nat) (r : HRead) (w : Walk) (data : List Byte), List.find? (fun r ↦ decide (r.tag = tag)) s.host.reads = some r ∧ r.why = ReadFor.walkLine w.id ∧ s.trans.walks = [w] ∧ s.trans.fails = [] ∧ data.length = 64 ∧ (s.seg w.seg).faulted = false :=
  ⟨upWalk (walkAt 3), 4, walkRead, walkAt 3, lineOf 1, by decide +kernel⟩
theorem test_RightsWalksAndRegions_12 : ∃ (s : State) (tag : Nat) (r : HRead) (w : Walk) (data : List Byte), List.find? (fun r ↦ decide (r.tag = tag)) s.host.reads = some r ∧ r.why = ReadFor.walkLine w.id ∧ s.trans.walks = [w] ∧ s.trans.fails = [] ∧ data.length = 64 ∧ (s.seg w.seg).faulted = false ∧ w.running = true ∧ r.at' + s.reg Dict.TRANS_WALK_TIMEOUT_ST ≤ s.time.count :=
  ⟨{ upWalk (walkAt 3) with time := { count := up.reg Dict.TRANS_WALK_TIMEOUT_ST } }, 4, walkRead, walkAt 3, lineOf 1, by decide +kernel⟩
theorem test_RightsWalksAndRegions_13 : ∃ (s : State) (row : Nat), row < 16 ∧ coreUp s = true :=
  ⟨upHost, 15, by decide +kernel⟩

/-- Endpoint 5 matching over 16,384 of the store's entries, its arrivals reported in queue 63's ring. -/
def upM (e : Entry) (m : MatchEp) : State :=
  { ((upMem e).setReg Dict.MATCH_EP 5 (2 ^ 255 + put 16384 235 217 + put 2 216 213 + put 12 212 209 + put 64 208 189)).setReg Dict.RMA_EP 5
      (2 ^ 63 + put 3 62 43 + put 63 42 23) with mtch := { eps := [(5, m)] } }

/-- A matching command of communicator 9 and rank 2^32 - 1. -/
def mcmd (opc : Nat) : Entry := { ent 1 opc true with len := 8, lkey := 1793, args := [77, put 9 63 48 + put (2 ^ 32 - 1) 47 16, 0] }

/-- The header that it matches, and the receive that matches that. -/
def hdr77 : MEnt := { idx := 7, comm := 9, rank := 2 ^ 32 - 1, mbits := 77, len := 8 }


/-! MatchCommandsTaken -/
theorem test_MatchCommandsTaken_1 : ∃ (s : State) (g : Nat) (e : Entry) (i : Instr), MatchCommand s g e e.opc ∧ matchValid s (s.queue g).ep = false ∧ (i = Instr.recvPost g ∧ e.opc = 64 ∨ i = Instr.recvCancel g ∧ e.opc = 65 ∨ i = Instr.probe g ∧ e.opc = 66 ∨ i = Instr.mprobe g ∧ e.opc = 67 ∨ i = Instr.mrecv g ∧ e.opc = 68) :=
  ⟨upEnt (mcmd 68), 63, mcmd 68, .mrecv 63, by unfold MatchCommand LoneEntry NextStart RingWritable; decide +kernel⟩
theorem test_MatchCommandsTaken_2 : ∃ (s : State) (g : Nat) (ep : Nat) (e : Entry) (p : MEnt), MatchCommand s g e 64 ∧ ep = (s.queue g).ep ∧ Matching s ep ∧ PipeFree s ep ∧ BufferOk s g e ∧ seqSpan (s.mep ep) = false ∧ p = (have __src := postOf s e; { idx := __src.idx, pat := __src.pat, rndv := __src.rndv, done := __src.done, anysrc := __src.anysrc, comm := __src.comm, seq := (s.mep ep).postSeq, rank := __src.rank, mbits := __src.mbits, ignore := __src.ignore, key := __src.key, queue := __src.queue, slot := __src.slot, addr := __src.addr, len := __src.len, mpsn := __src.mpsn, inc := __src.inc, user := __src.user, sfna := __src.sfna, sep := __src.sep }) ∧ matchUnexp (s.mep ep) p = none ∧ (s.mep ep).unexpSpill = [] ∧ spillsSide (s.mep ep) 0 = false ∧ freeEntries (matchRow s ep) (s.mep ep) ≠ 0 ∧ (p.pat = 4 → (List.filter (fun x ↦ decide (x.pat = 4)) (s.mep ep).posted).length < 4096) :=
  ⟨upM (mcmd 64) { postSeq := 2 ^ 32 - 1 }, 63, 5, mcmd 64, { postOf (upM (mcmd 64) { postSeq := 2 ^ 32 - 1 }) (mcmd 64) with seq := 2 ^ 32 - 1 }, by unfold MatchCommand LoneEntry NextStart PipeFree Matching BufferOk RingWritable; decide +kernel⟩
theorem test_MatchCommandsTaken_3 : ∃ (s : State) (g : Nat) (ep : Nat) (e : Entry) (p : MEnt) (h : MEnt) (ring : Nat), MatchCommand s g e 64 ∧ ep = (s.queue g).ep ∧ Matching s ep ∧ PipeFree s ep ∧ BufferOk s g e ∧ seqSpan (s.mep ep) = false ∧ p = (have __src := postOf s e; { idx := __src.idx, pat := __src.pat, rndv := __src.rndv, done := __src.done, anysrc := __src.anysrc, comm := __src.comm, seq := (s.mep ep).postSeq, rank := __src.rank, mbits := __src.mbits, ignore := __src.ignore, key := __src.key, queue := __src.queue, slot := __src.slot, addr := __src.addr, len := __src.len, mpsn := __src.mpsn, inc := __src.inc, user := __src.user, sfna := __src.sfna, sep := __src.sep }) ∧ matchUnexp (s.mep ep) p = some h ∧ arrivalRing s ep = some ring :=
  ⟨upM (mcmd 64) { unexp := [hdr77] }, 63, 5, mcmd 64, postOf (upM (mcmd 64) { unexp := [hdr77] }) (mcmd 64), hdr77, 63, by unfold MatchCommand LoneEntry NextStart PipeFree Matching BufferOk RingWritable; decide +kernel⟩
def posted77 : MEnt := { idx := 9, comm := 9, rank := 2 ^ 32 - 1, mbits := 77, queue := 63, seq := 2 ^ 32 - 1 }
def cancel77 : Entry := { ent 1 65 true with args := [2 ^ 32 - 1, crefOf ((upM (mcmd 64) {}).reg Dict.MATCH_EP 5) posted77, 0] }
theorem test_MatchCommandsTaken_4 : ∃ (s : State) (g : Nat) (ep : Nat) (e : Entry) (p : MEnt) (ring : Nat), MatchCommand s g e 65 ∧ ep = (s.queue g).ep ∧ Matching s ep ∧ PipeFree s ep ∧ List.find? (fun p ↦ decide (p.seq = fld e.w5 31 0) && decide (crefOf (matchRow s ep) p = fld e.w6 31 0)) (s.mep ep).posted = some p ∧ arrivalRing s ep = some ring :=
  ⟨upM cancel77 { posted := [posted77] }, 63, 5, cancel77, posted77, 63, by unfold MatchCommand LoneEntry NextStart PipeFree Matching RingWritable; decide +kernel⟩
theorem test_MatchCommandsTaken_5 : ∃ (s : State) (g : Nat) (ep : Nat) (e : Entry), MatchCommand s g e 65 ∧ ep = (s.queue g).ep ∧ Matching s ep ∧ PipeFree s ep ∧ (∀ p ∈ (s.mep ep).posted ++ (s.mep ep).postedSpill, p.seq ≠ fld e.w5 31 0) :=
  ⟨upM cancel77 { posted := [{ posted77 with seq := 0 }] }, 63, 5, cancel77, by unfold MatchCommand LoneEntry NextStart PipeFree Matching RingWritable; decide +kernel⟩
theorem test_MatchCommandsTaken_6 : ∃ (s : State) (g : Nat) (ep : Nat) (e : Entry) (claim : Bool) (i : Instr) (h : MEnt), MatchCommand s g e (if claim = true then 67 else 66) ∧ i = (if claim = true then Instr.mprobe g else Instr.probe g) ∧ ep = (s.queue g).ep ∧ Matching s ep ∧ PipeFree s ep ∧ matchUnexp (s.mep ep) (postOf s e) = some h :=
  ⟨upM (mcmd 67) { unexp := [hdr77] }, 63, 5, mcmd 67, true, .mprobe 63, hdr77, by unfold MatchCommand LoneEntry NextStart PipeFree Matching RingWritable; decide +kernel⟩
theorem test_MatchCommandsTaken_7 : ∃ (s : State) (g : Nat) (ep : Nat) (e : Entry) (claim : Bool) (i : Instr), MatchCommand s g e (if claim = true then 67 else 66) ∧ i = (if claim = true then Instr.mprobe g else Instr.probe g) ∧ ep = (s.queue g).ep ∧ Matching s ep ∧ PipeFree s ep ∧ matchUnexp (s.mep ep) (postOf s e) = none ∧ (s.mep ep).unexpSpill = [] :=
  ⟨upM (mcmd 66) {}, 63, 5, mcmd 66, false, .probe 63, by unfold MatchCommand LoneEntry NextStart PipeFree Matching RingWritable; decide +kernel⟩
def mrecv7 : Entry := { ent 1 68 true with len := 8, lkey := 1793, args := [7, 0, 0] }
theorem test_MatchCommandsTaken_8 : ∃ (s : State) (g : Nat) (ep : Nat) (e : Entry) (h : MEnt) (ring : Nat), MatchCommand s g e 68 ∧ ep = (s.queue g).ep ∧ Matching s ep ∧ PipeFree s ep ∧ BufferOk s g e ∧ List.find? (fun h ↦ decide (h.idx = fld e.w5 18 0)) (s.mep ep).claimed = some h ∧ arrivalRing s ep = some ring ∧ h.rndv = false :=
  ⟨upM mrecv7 { claimed := [hdr77] }, 63, 5, mrecv7, hdr77, 63, by unfold MatchCommand LoneEntry NextStart PipeFree Matching BufferOk RingWritable; decide +kernel⟩
theorem test_MatchCommandsTaken_9 : ∃ (s : State) (g : Nat) (ep : Nat) (e : Entry), MatchCommand s g e 68 ∧ ep = (s.queue g).ep ∧ Matching s ep ∧ PipeFree s ep ∧ BufferOk s g e ∧ (∀ h ∈ (s.mep ep).claimed, h.idx ≠ fld e.w5 18 0) :=
  ⟨upM mrecv7 { claimed := [{ hdr77 with idx := 8 }] }, 63, 5, mrecv7, by unfold MatchCommand LoneEntry NextStart PipeFree Matching BufferOk RingWritable; decide +kernel⟩
theorem test_MatchCommandsTaken_10 : ∃ (m : MatchEp) (h : MEnt) (p : MEnt), matchPosted m h = some p :=
  ⟨{ posted := [posted77] }, hdr77, posted77, by decide +kernel⟩

/-- A send's one packet at the responder's next PSN: its matching bits 77, communicator 9 and rank 2^32 - 1. -/
def sendPkt (opc : Nat) : Packet :=
  { reqPkt opc (2 ^ 24 - 1) (bytesBE 7 8) 0 with oph := [packReqWord false true true false 3 (2 ^ 24 - 1) 1793, 77, put 9 63 48 + put (2 ^ 32 - 1) 47 16, put 7 63 32] }

/-- The responder that matches, with that packet delivered at the host port at 99. -/
def upS (p : Packet) (m : MatchEp) : State :=
  { upM {} m with rma := { resp := [(respKey 65 6, liveCtx)], onDie := [respCode (respKey 65 6)] }, sw := { delivered := [(99, [{ pkt := p }])] } }


/-! SendsArriveAndSettle -/
theorem test_SendsArriveAndSettle_1 : ∃ (s : State) (hp : Nat) (p : Packet) (i : Instr) (h : MEnt), AtHead s hp p ∧ RespHere s p ∧ NewPsn s p ∧ (p.opc = 3 ∧ i = Instr.sendEagerReceive hp ∨ p.opc = 4 ∧ i = Instr.sendRndvReceive hp) ∧ hdrFirst p = true ∧ inflowOf s (respKey p.sfna p.sep) p = none ∧ (s.respCtx (respKey p.sfna p.sep)).rcvNxt = p.psn ∧ h = sendHeader p ∧ epServes s p.dep = false :=
  ⟨(upS (sendPkt 3) {}).setReg Dict.RMA_EP 5 0, 99, sendPkt 3, .sendEagerReceive 99, sendHeader (sendPkt 3), atHead_of (by decide +kernel), by unfold RespHere NewPsn; decide +kernel⟩
theorem test_SendsArriveAndSettle_2 : ∃ (s : State) (hp : Nat) (p : Packet) (i : Instr) (h : MEnt), AtHead s hp p ∧ RespHere s p ∧ NewPsn s p ∧ (p.opc = 3 ∧ i = Instr.sendEagerReceive hp ∨ p.opc = 4 ∧ i = Instr.sendRndvReceive hp) ∧ hdrFirst p = true ∧ inflowOf s (respKey p.sfna p.sep) p = none ∧ (s.respCtx (respKey p.sfna p.sep)).rcvNxt = p.psn ∧ h = sendHeader p ∧ epServes s p.dep = true ∧ matchValid s p.dep = false :=
  ⟨upResp liveCtx (sendPkt 4), 99, sendPkt 4, .sendRndvReceive 99, sendHeader (sendPkt 4), atHead_of (by decide +kernel), by unfold RespHere NewPsn; decide +kernel⟩
theorem test_SendsArriveAndSettle_3 : ∃ (s : State) (hp : Nat) (p : Packet) (i : Instr) (h : MEnt), AtHead s hp p ∧ RespHere s p ∧ NewPsn s p ∧ (p.opc = 3 ∧ i = Instr.sendEagerReceive hp ∨ p.opc = 4 ∧ i = Instr.sendRndvReceive hp) ∧ hdrFirst p = true ∧ inflowOf s (respKey p.sfna p.sep) p = none ∧ (s.respCtx (respKey p.sfna p.sep)).rcvNxt = p.psn ∧ h = sendHeader p ∧ epServes s p.dep = true ∧ matchValid s p.dep = true ∧ (s.mep p.dep).failed = true :=
  ⟨upS (sendPkt 3) { failed := true }, 99, sendPkt 3, .sendEagerReceive 99, sendHeader (sendPkt 3), atHead_of (by decide +kernel), by unfold RespHere NewPsn; decide +kernel⟩
theorem test_SendsArriveAndSettle_4 : ∃ (s : State) (hp : Nat) (p : Packet) (i : Instr) (h : MEnt) (post : MEnt) (ring : Nat), AtHead s hp p ∧ RespHere s p ∧ NewPsn s p ∧ (p.opc = 3 ∧ i = Instr.sendEagerReceive hp ∨ p.opc = 4 ∧ i = Instr.sendRndvReceive hp) ∧ hdrFirst p = true ∧ inflowOf s (respKey p.sfna p.sep) p = none ∧ (s.respCtx (respKey p.sfna p.sep)).rcvNxt = p.psn ∧ h = sendHeader p ∧ epServes s p.dep = true ∧ Matching s p.dep ∧ (s.mep p.dep).search = none ∧ matchPosted (s.mep p.dep) h = some post ∧ arrivalRing s p.dep = some ring :=
  ⟨upS (sendPkt 3) { posted := [posted77] }, 99, sendPkt 3, .sendEagerReceive 99, sendHeader (sendPkt 3), posted77, 63, atHead_of (by decide +kernel), by unfold RespHere NewPsn Matching; decide +kernel⟩
theorem test_SendsArriveAndSettle_5 : ∃ (s : State) (hp : Nat) (p : Packet) (i : Instr) (h : MEnt) (post : MEnt), AtHead s hp p ∧ RespHere s p ∧ NewPsn s p ∧ (p.opc = 3 ∧ i = Instr.sendEagerReceive hp ∨ p.opc = 4 ∧ i = Instr.sendRndvReceive hp) ∧ hdrFirst p = true ∧ inflowOf s (respKey p.sfna p.sep) p = none ∧ (s.respCtx (respKey p.sfna p.sep)).rcvNxt = p.psn ∧ h = sendHeader p ∧ epServes s p.dep = true ∧ Matching s p.dep ∧ (s.mep p.dep).search = none ∧ matchPosted (s.mep p.dep) h = some post ∧ arrivalRing s p.dep = none :=
  ⟨(upS (sendPkt 4) { posted := [posted77] }).setReg Dict.RMA_EP 5 (2 ^ 63), 99, sendPkt 4, .sendRndvReceive 99, sendHeader (sendPkt 4), posted77, atHead_of (by decide +kernel), by unfold RespHere NewPsn Matching; decide +kernel⟩
theorem test_SendsArriveAndSettle_6 : ∃ (s : State) (hp : Nat) (p : Packet) (i : Instr) (h : MEnt), AtHead s hp p ∧ RespHere s p ∧ NewPsn s p ∧ (p.opc = 3 ∧ i = Instr.sendEagerReceive hp ∨ p.opc = 4 ∧ i = Instr.sendRndvReceive hp) ∧ hdrFirst p = true ∧ inflowOf s (respKey p.sfna p.sep) p = none ∧ (s.respCtx (respKey p.sfna p.sep)).rcvNxt = p.psn ∧ h = sendHeader p ∧ epServes s p.dep = true ∧ Matching s p.dep ∧ (s.mep p.dep).search = none ∧ matchPosted (s.mep p.dep) h = none ∧ (s.mep p.dep).postedSpill = [] ∧ spillsSide (s.mep p.dep) 1 = false ∧ freeEntries (matchRow s p.dep) (s.mep p.dep) ≠ 0 ∧ (h.rndv = true ∨ h.len = 0 ∨ h.len ≤ rowSlotBytes (matchRow s p.dep) ∧ ∃ k < rowSlots (matchRow s p.dep), (s.mep p.dep).slots.contains k = false) :=
  ⟨upS (sendPkt 3) { posted := [{ posted77 with comm := 8 }] }, 99, sendPkt 3, .sendEagerReceive 99, sendHeader (sendPkt 3), atHead_of (by decide +kernel), by unfold RespHere NewPsn Matching; decide +kernel⟩
theorem test_SendsArriveAndSettle_7 : ∃ (s : State) (ep : Nat) (x : SpillSearch) (i : Nat), (s.mep ep).search = some x ∧ (s.mep ep).found = none ∧ indexWhere (List.take 16 (List.drop x.pos (searchList (s.count 1544 ep) ep x.op).1)) (searchList (s.count 1544 ep) ep x.op).2 = some i :=
  ⟨upM {} { search := some { op := .arrival (sendPkt 3), pos := 16 }, postedSpill := List.replicate 31 {} ++ [posted77] }, 5, { op := .arrival (sendPkt 3), pos := 16 }, 15, by decide +kernel⟩
theorem test_SendsArriveAndSettle_8 : ∃ (s : State) (ep : Nat) (x : SpillSearch), (s.mep ep).search = some x ∧ (s.mep ep).found = none ∧ indexWhere (List.take 16 (List.drop x.pos (searchList (s.count 1544 ep) ep x.op).1)) (searchList (s.count 1544 ep) ep x.op).2 = none ∧ x.pos + 16 < (searchList (s.count 1544 ep) ep x.op).1.length :=
  ⟨upM {} { search := some { op := .arrival (sendPkt 3) }, postedSpill := List.replicate 17 {} }, 5, { op := .arrival (sendPkt 3) }, by decide +kernel⟩
theorem test_SendsArriveAndSettle_9 : ∃ (s : State) (ep : Nat) (x : SpillSearch), (s.mep ep).search = some x ∧ (s.mep ep).found = none :=
  ⟨upM {} { search := some { op := .arrival (sendPkt 3) } }, 5, { op := .arrival (sendPkt 3) }, by decide +kernel⟩
def poolRecv : Recv := { id := 2, ep := 5, pd := 3, ring := 63, path := .pool, post := posted77, msg := { hdr77 with done := true, slot := some 63 } }
theorem test_SendsArriveAndSettle_10 : ∃ (s : State) (ep : Nat) (r : Recv) (slot : Nat), List.find? (fun r ↦ decide (r.ep = ep) && decide (r.path = RecvPath.pool) && r.msg.done && !r.reading && !r.ended) s.mtch.recvs = some r ∧ r.msg.slot = some slot ∧ 0 < r.take ∧ windowOk s r.func (slotAddr (matchRow s ep) slot) r.take false = true ∧ accessGone s r.func = false :=
  ⟨{ upM {} {} with mtch := { recvs := [{ poolRecv with post := { posted77 with len := 8 } }] } }, 5, { poolRecv with post := { posted77 with len := 8 } }, 63, by decide +kernel⟩
theorem test_SendsArriveAndSettle_11 : ∃ (s : State) (ep : Nat) (r : Recv), List.find? (fun r ↦ decide (r.ep = ep) && decide (r.path = RecvPath.rndv) && r.ended) s.mtch.recvs = some r :=
  ⟨{ upM {} {} with mtch := { recvs := [{ poolRecv with path := .rndv, ended := true }] } }, 5, { poolRecv with path := .rndv, ended := true }, by decide +kernel⟩
theorem test_SendsArriveAndSettle_12 : ∃ (s : State) (ep : Nat) (a : Nat) (g : Nat) (r : RndvRec) (e : Entry), s.mtch.rndv = [r] ∧ r.sep = ep ∧ r.ackedAt = some a ∧ a + s.reg Dict.MATCH_RNDV_LIMIT_FR ≤ s.time.count / 1024 ∧ LoneEntry s g e ∧ e.id = r.entry ∧ RingWritable s (ringOf s g) :=
  ⟨{ upM (ent 0 3 true) {} with mtch := { rndv := [{ sep := 5, entry := 9, ackedAt := some 1 }] }, time := { count := 1024 * (1 + up.reg Dict.MATCH_RNDV_LIMIT_FR) } }, 5, 1, 63, { sep := 5, entry := 9, ackedAt := some 1 }, ent 0 3 true, by unfold LoneEntry RingWritable; decide +kernel⟩
theorem test_SendsArriveAndSettle_13 : ∃ (s : State) (ep : Nat) (a : Nat) (r : RndvRec), s.mtch.rndv = [r] ∧ r.sep = ep ∧ r.ackedAt = some a ∧ s.time.count / 1024 < a + s.reg Dict.MATCH_RNDV_LIMIT_FR :=
  ⟨{ upM (ent 0 3 true) {} with mtch := { rndv := [{ sep := 5, entry := 9, ackedAt := some 1 }] }, time := { count := 1024 * (1 + up.reg Dict.MATCH_RNDV_LIMIT_FR) - 1 } }, 5, 1, { sep := 5, entry := 9, ackedAt := some 1 }, by decide +kernel⟩
def bigSend : Entry := { xfer 3 1793 with len := 65536, laddr := 2 ^ 20 - 65536 }
theorem test_SendsArriveAndSettle_14 : ∃ (s : State) (g : Nat) (e : Entry), NextStart s g e ∧ e.kind = 0 ∧ e.opc = 3 ∧ s.reg Dict.MATCH_EAGER_LIMIT < e.len ∧ (e.nsge ≠ 0 ∨ e.inl = true) ∧ LoneEntry s g e ∧ RingWritable s (ringOf s g) :=
  ⟨(upMem { bigSend with nsge := 1 }).setReg Dict.MATCH_EAGER_LIMIT 0 65535, 63, { bigSend with nsge := 1 }, by unfold LoneEntry NextStart RingWritable; decide +kernel⟩
theorem test_SendsArriveAndSettle_15 : ∃ (s : State) (b : State) (g : Nat) (e : Entry), NextStart s g e ∧ e.kind = 0 ∧ e.opc = 3 ∧ s.reg Dict.MATCH_EAGER_LIMIT < e.len ∧ e.nsge = 0 ∧ e.inl = false ∧ s.mtch.rndv.length < 65536 ∧ checkBufs (markEntry s g e true) (s.queue g).pd Need.read e.buffers = (b, BufCheck.ok) ∧ bitAt (epRow s (s.queue g).ep) 63 = true ∧ epPd s (s.queue g).ep = (s.queue g).pd :=
  ⟨(upMem bigSend).setReg Dict.MATCH_EAGER_LIMIT 0 65535, (checkBufs (markEntry ((upMem bigSend).setReg Dict.MATCH_EAGER_LIMIT 0 65535) 63 bigSend true) 3 .read bigSend.buffers).1, 63, bigSend, by unfold NextStart; decide +kernel⟩

/-- A group's configuration: VALID, with more bits, its GID 2^24 - 1, two members and a window of one block. -/
def groupCfg (flags : Nat) : Nat := 2 ^ 255 + flags + put (2 ^ 24 - 1) 239 216 + put 2 123 107 + put 5 139 124

/-- Row 4095 of the engine, the last, in the running part with queue 63's entry. -/
def upRow (cfg : Nat) (x : CollRow) (e : Entry) : State := { (upEnt e).setReg Dict.COLL_GROUP 4095 cfg with coll := { rows := [(4095, x)] } }

/-- The bits ROOT, MEMBER, RETRY and the alternate tree's. -/
def rootBit : Nat := 2 ^ 252
def memberBit : Nat := 2 ^ 251
def retryBits : Nat := 2 ^ 253 + 2 ^ 254

/-- A collective command for row 4095: its operation, type, combination and more bits. -/
def collEnt (coll dtype op more : Nat) : Entry := { ent 1 96 true with inl := true, len := 8, more := [7], args := [put coll 31 28 + put dtype 27 24 + put op 23 20 + more + 4095, 0, 0] }


/-! CollectivesStartAndCombine -/
theorem test_CollectivesStartAndCombine_1 : ∃ (s : State) (row : Nat) (value : Nat), row < 4096 ∧ coreUp s = true ∧ collOpenCheck s row (value ||| 2 ^ 255) = 0 :=
  ⟨upHost, 4095, groupCfg memberBit, by decide +kernel⟩
theorem test_CollectivesStartAndCombine_2 : ∃ (s : State) (row : Nat) (value : Nat), row < 4096 ∧ coreUp s = true ∧ collOpenCheck s row (value ||| 2 ^ 255) ≠ 0 :=
  ⟨upHost, 4095, 0, by decide +kernel⟩
theorem test_CollectivesStartAndCombine_3 : ∃ (s : State) (row : Nat), row < 4096 ∧ coreUp s = true ∧ rowHeld (s.collRow row).st = true :=
  ⟨upRow (groupCfg 0) { st := .switching } {}, 4095, by decide +kernel⟩
theorem test_CollectivesStartAndCombine_4 : ∃ (s : State) (row : Nat), row < 4096 ∧ coreUp s = true ∧ (s.collRow row).ops = [] :=
  ⟨upRow (groupCfg 0) { st := .failed } {}, 4095, by decide +kernel⟩
theorem test_CollectivesStartAndCombine_5 : ∃ (s : State) (row : Nat) (g : Nat) (o : CollOp) (e : Entry), row < 4096 ∧ coreUp s = true ∧ LoneOp s row g o e :=
  ⟨upRow (groupCfg 0) { st := .broken, ops := [{ entry := 9 }] } (collEnt 0 0 0 0), 4095, 63, { entry := 9 }, collEnt 0 0 0 0, by unfold LoneOp LoneEntry RingWritable; decide +kernel⟩
theorem test_CollectivesStartAndCombine_6 : ∃ (s : State) (g : Nat) (e : Entry), MatchCommand s g e 96 ∧ collStatus s e ≠ 0 :=
  ⟨upRow (groupCfg memberBit) { st := .failed } (collEnt 0 0 0 0), 63, collEnt 0 0 0 0, by unfold MatchCommand LoneEntry NextStart RingWritable; decide +kernel⟩
theorem test_CollectivesStartAndCombine_7 : ∃ (s : State) (g : Nat) (e : Entry), MatchCommand s g e 96 ∧ cfgValid (collCfg s (argRow e)) = false :=
  ⟨upRow 0 {} (collEnt 0 0 0 0), 63, collEnt 0 0 0 0, by unfold MatchCommand LoneEntry NextStart RingWritable; decide +kernel⟩
theorem test_CollectivesStartAndCombine_8 : ∃ (s : State) (g : Nat) (e : Entry), MatchCommand s g e 96 ∧ cfgValid (collCfg s (argRow e)) = true ∧ (s.collRow (argRow e)).st = CollSt.broken :=
  ⟨upRow (groupCfg memberBit) { st := .broken } (collEnt 0 0 0 0), 63, collEnt 0 0 0 0, by unfold MatchCommand LoneEntry NextStart RingWritable; decide +kernel⟩
theorem test_CollectivesStartAndCombine_9 : ∃ (s : State) (g : Nat) (e : Entry), MatchCommand s g e 96 ∧ cfgValid (collCfg s (argRow e)) = true ∧ (s.collRow (argRow e)).st = CollSt.failed :=
  ⟨upRow (groupCfg memberBit) { st := .failed } (collEnt 0 0 0 0), 63, collEnt 0 0 0 0, by unfold MatchCommand LoneEntry NextStart RingWritable; decide +kernel⟩
theorem test_CollectivesStartAndCombine_10 : ∃ (s : State) (g : Nat) (e : Entry), MatchCommand s g e 96 ∧ cfgValid (collCfg s (argRow e)) = true ∧ rowHeld (s.collRow (argRow e)).st = true ∧ cfgMember (collCfg s (argRow e)) = false :=
  ⟨upRow (groupCfg 0) { st := .ready } (collEnt 0 0 0 0), 63, collEnt 0 0 0 0, by unfold MatchCommand LoneEntry NextStart RingWritable; decide +kernel⟩
theorem test_CollectivesStartAndCombine_11 : ∃ (s : State) (g : Nat) (e : Entry), MatchCommand s g e 96 ∧ cfgValid (collCfg s (argRow e)) = true ∧ rowHeld (s.collRow (argRow e)).st = true ∧ cfgMember (collCfg s (argRow e)) = true ∧ cfgFunc (collCfg s (argRow e)) = e.func ∧ cfgEp (collCfg s (argRow e)) = (s.queue e.queue).ep ∧ collArgsOk e = false :=
  ⟨upRow (groupCfg memberBit) { st := .ready } (collEnt 5 0 0 0), 63, collEnt 5 0 0 0, by unfold MatchCommand LoneEntry NextStart RingWritable; decide +kernel⟩
theorem test_CollectivesStartAndCombine_12 : ∃ (s : State) (g : Nat) (e : Entry), MatchCommand s g e 96 ∧ collStatus s e = 0 ∧ e.inl = true ∧ argResult e = false :=
  ⟨upRow (groupCfg memberBit) { st := .ready } (collEnt 0 6 0 (2 ^ 18)), 63, collEnt 0 6 0 (2 ^ 18), by unfold MatchCommand LoneEntry NextStart RingWritable; decide +kernel⟩

/-- A last that ends at CP, at row 4095 of tree 0, and a chunk that it brought. -/
def upCp (cfg : Nat) (x : CollRow) (c : Chunk) : State :=
  { upRow cfg x {} with lasts := { entries := [(4096 * 95, { st := .active, cfg := lastCfg 100 0 4095 1 })], toCp := [(4096 * 95, c)] } }

theorem test_CollectivesStartAndCombine_13 : ∃ (s : State) (key : Nat) (r : Nat) (c : Chunk) (rest : List (Nat × Chunk)), s.lasts.toCp = (key, c) :: rest ∧ r = fld (s.last key).outLabel 11 0 ∧ (cfgValid (collCfg s r) = false ∨ fld (s.last key).outLabel 12 12 ≠ (s.collRow r).tree) :=
  ⟨upCp 0 {} {}, 4096 * 95, 4095, {}, [], by decide +kernel⟩
theorem test_CollectivesStartAndCombine_14 : ∃ (s : State) (key : Nat) (r : Nat) (c : Chunk) (rest : List (Nat × Chunk)), s.lasts.toCp = (key, c) :: rest ∧ r = fld (s.last key).outLabel 11 0 ∧ cfgValid (collCfg s r) = true ∧ fld (s.last key).outLabel 12 12 = (s.collRow r).tree ∧ bitAt (s.collRow r).flooded (s.collRow r).tree = false ∧ c.bad = false ∧ bitAt c.tag 7 = false ∧ (tget [] (s.collRow r).chunks key).length < 7 :=
  ⟨upCp (groupCfg 0) { st := .ready, chunks := [(4096 * 95, [1, 2, 3, 4, 5, 6])] } { data := 2 ^ 448 - 1 }, 4096 * 95, 4095, { data := 2 ^ 448 - 1 }, [], by decide +kernel⟩
def blockHdr : CollHdr := { lastb := true, count := 2, gid := 2 ^ 24 - 1, bnum := 2 ^ 32 - 1 }
def blockChunk : Chunk := { tag := 128, data := packColl blockHdr * 2 ^ 320 }
theorem test_CollectivesStartAndCombine_15 : ∃ (s : State) (key : Nat) (r : Nat) (c : Chunk) (rest : List (Nat × Chunk)) (bytes : List Byte) (h : CollHdr), s.lasts.toCp = (key, c) :: rest ∧ r = fld (s.last key).outLabel 11 0 ∧ cfgValid (collCfg s r) = true ∧ fld (s.last key).outLabel 12 12 = (s.collRow r).tree ∧ bitAt (s.collRow r).flooded (s.collRow r).tree = false ∧ c.bad = false ∧ bytes = List.flatMap (fun d ↦ bytesBE d 56) (tget [] (s.collRow r).chunks key ++ [c.data]) ∧ h = unpackColl (natBE (List.take 16 bytes)) ∧ bitAt c.tag 7 = true ∧ h.kind ≤ 1 ∧ h.gid = cfgGid (collCfg s r) ∧ h.tree = (s.collRow r).tree ∧ (s.collRow r).restart = none ∧ bnumDist (s.collRow r).next h.bnum < cfgW (collCfg s r) ∧ (∀ b ∈ (s.collRow r).blocks, b.bnum ≠ h.bnum) :=
  ⟨upCp (groupCfg 0) { st := .ready, next := 2 ^ 32 - 1 } blockChunk, 4096 * 95, 4095, blockChunk, [], bytesBE blockChunk.data 56, blockHdr, by decide +kernel⟩
theorem test_CollectivesStartAndCombine_16 : ∃ (s : State) (row : Nat) (b : CollBlock), row < 4096 ∧ List.find? (fun b ↦ decide (b.bnum = (s.collRow row).next)) (s.collRow row).blocks = some b ∧ ((s.collRow row).st ≠ CollSt.ready ∨ (s.collRow row).due.isSome = true ∨ b.ins.length < inputsWanted (collCfg s row) (s.collRow row).tree) :=
  ⟨upRow (groupCfg memberBit) { st := .ready, next := 2 ^ 32 - 1, blocks := [{ bnum := 2 ^ 32 - 1 }] } {}, 4095, { bnum := 2 ^ 32 - 1 }, by decide +kernel⟩
def oneIn : CollBlock := { bnum := 2 ^ 32 - 1, ins := [{ port := 96, hdr := blockHdr, data := List.replicate 8 1 }] }
theorem test_CollectivesStartAndCombine_17 : ∃ (s : State) (row : Nat) (b : CollBlock), row < 4096 ∧ List.find? (fun b ↦ decide (b.bnum = (s.collRow row).next)) (s.collRow row).blocks = some b ∧ (s.collRow row).st = CollSt.ready ∧ (s.collRow row).due = none ∧ inputsWanted (collCfg s row) (s.collRow row).tree ≤ b.ins.length ∧ cfgRoot (collCfg s row) = false :=
  ⟨upRow (groupCfg memberBit) { st := .ready, next := 2 ^ 32 - 1, blocks := [oneIn] } {}, 4095, oneIn, by decide +kernel⟩
theorem test_CollectivesStartAndCombine_18 : ∃ (s : State) (row : Nat) (b : CollBlock), row < 4096 ∧ List.find? (fun b ↦ decide (b.bnum = (s.collRow row).next)) (s.collRow row).blocks = some b ∧ (s.collRow row).st = CollSt.ready ∧ (s.collRow row).due = none ∧ inputsWanted (collCfg s row) (s.collRow row).tree ≤ b.ins.length ∧ cfgRoot (collCfg s row) = true ∧ cfgMember (collCfg s row) = false :=
  ⟨upRow (groupCfg rootBit) { st := .ready, next := 2 ^ 32 - 1, blocks := [oneIn] } {}, 4095, oneIn, by decide +kernel⟩
theorem test_CollectivesStartAndCombine_19 : ∃ (l : List CollIn) (l' : List CollIn), l.Perm l' ∧ (List.map (fun x ↦ x.port) l).Nodup :=
  ⟨[{ port := 3 }, { port := 96 }], [{ port := 96 }, { port := 3 }], by exact ⟨.swap .., by decide +kernel⟩⟩
theorem test_CollectivesStartAndCombine_20 : ∃ (d : CollIn) (rest : List CollIn), List.Pairwise (fun a b ↦ a.port < b.port) (d :: rest) ∧ (∀ i ∈ d :: rest, i.port ≤ 96 ∧ i.hdr.kind = 0 ∧ i.hdr.void = false ∧ sameShape d.hdr i.hdr = true) ∧ d.hdr.op ≠ 15 :=
  ⟨{ port := 3 }, [{ port := 95 }, { port := 96 }], by decide +kernel⟩
theorem test_CollectivesStartAndCombine_21 : ∃ (dtype : Nat) (op : Nat) (x : Nat) (y : Nat) (z : Nat), pairAllowed dtype op = true ∧ (3 ≤ dtype → op ≠ 0) ∧ x < 256 ^ elemBytes dtype ∧ y < 256 ^ elemBytes dtype ∧ z < 256 ^ elemBytes dtype :=
  ⟨5, 2, 256 ^ 8 - 1, 0, 1, by decide +kernel⟩

/-- A collective packet delivered to CP, for row 3. -/
def upBcast (opc cfg : Nat) (x : CollRow) (h : CollHdr) (e : Entry) : State :=
  { (upEnt e).setReg Dict.COLL_GROUP 3 cfg with coll := { rows := [(3, x)] }, sw := { delivered := [(100, [{ pkt := { opc := opc, mc := true, vc := 7, payload := bytesBE (packColl h) 16 ++ List.replicate 8 1 } }])] } }


/-! CollectivesDeliverAndBreak -/
theorem test_CollectivesDeliverAndBreak_1 : ∃ (s : State) (r : Nat) (h : CollHdr) (data : List Byte), CollHere s 97 r h data ∧ cfgMember (collCfg s r) = false :=
  ⟨upBcast 97 (groupCfg 0) { st := .ready } blockHdr {}, 3, blockHdr, List.replicate 8 1, collHere_of (by decide +kernel), by decide +kernel⟩
theorem test_CollectivesDeliverAndBreak_2 : ∃ (s : State) (r : Nat) (h : CollHdr) (data : List Byte), CollHere s 97 r h data ∧ cfgMember (collCfg s r) = true ∧ (s.collRow r).ops = [] :=
  ⟨upBcast 97 (groupCfg memberBit) { st := .ready } blockHdr {}, 3, blockHdr, List.replicate 8 1, collHere_of (by decide +kernel), by decide +kernel⟩
def opAll : CollOp := { entry := 9, first := 2 ^ 32 - 1 }
theorem test_CollectivesDeliverAndBreak_3 : ∃ (s : State) (r : Nat) (h : CollHdr) (data : List Byte) (g : Nat) (o : CollOp) (e : Entry), CollHere s 97 r h data ∧ cfgMember (collCfg s r) = true ∧ LoneOp s r g o e ∧ o.result = false ∧ o.coll ≤ 3 ∧ o.got = [] ∧ o.void = false ∧ o.blocks = o.low + 1 ∧ bnumDist o.first h.bnum = o.low ∧ h.void = false :=
  ⟨upBcast 97 (groupCfg memberBit) { st := .ready, ops := [opAll] } blockHdr (collEnt 0 0 0 0), 3, blockHdr, List.replicate 8 1, 63, opAll, collEnt 0 0 0 0, collHere_of (by decide +kernel), by unfold LoneOp LoneEntry RingWritable; decide +kernel⟩
theorem test_CollectivesDeliverAndBreak_4 : ∃ (s : State) (r : Nat) (h : CollHdr) (data : List Byte) (g : Nat) (o : CollOp) (e : Entry), CollHere s 97 r h data ∧ cfgMember (collCfg s r) = true ∧ LoneOp s r g o e ∧ o.result = false ∧ o.coll ≤ 3 ∧ o.got = [] ∧ o.void = false ∧ o.blocks = o.low + 1 ∧ bnumDist o.first h.bnum = o.low ∧ h.void = true :=
  ⟨upBcast 97 (groupCfg memberBit) { st := .ready, ops := [opAll] } { blockHdr with void := true } (collEnt 0 0 0 0), 3, { blockHdr with void := true }, List.replicate 8 1, 63, opAll, collEnt 0 0 0 0, collHere_of (by decide +kernel), by unfold LoneOp LoneEntry RingWritable; decide +kernel⟩
def opGather (pieces : List Nat) (gathered : Bool) : CollOp := { entry := 9, coll := 4, first := 2 ^ 32 - 1, blocks := 1, low := 1, pieces := pieces, gathered := gathered }
theorem test_CollectivesDeliverAndBreak_5 : ∃ (s : State) (r : Nat) (g : Nat) (h : CollHdr) (data : List Byte) (o : CollOp) (e : Entry), CollHere s 100 r h data ∧ LoneOp s r g o e ∧ o.coll = 4 ∧ o.first = h.bnum ∧ o.result = false ∧ h.aux < 2 ^ 17 ∧ h.aux ∈ o.pieces :=
  ⟨upBcast 100 (groupCfg memberBit) { st := .ready, ops := [opGather [0] false] } blockHdr (collEnt 4 0 15 0), 3, 63, blockHdr, List.replicate 8 1, opGather [0] false, collEnt 4 0 15 0, collHere_of (by decide +kernel), by unfold LoneOp LoneEntry RingWritable; decide +kernel⟩
theorem test_CollectivesDeliverAndBreak_6 : ∃ (s : State) (r : Nat) (g : Nat) (h : CollHdr) (data : List Byte) (o : CollOp) (e : Entry), CollHere s 100 r h data ∧ LoneOp s r g o e ∧ o.coll = 4 ∧ o.first = h.bnum ∧ o.result = false ∧ h.aux < 2 ^ 17 ∧ h.aux ∉ o.pieces ∧ (o.gathered = false ∨ o.pieces.length + 1 < cfgMembers (collCfg s r)) ∧ o.low = o.blocks ∧ o.void = false :=
  ⟨upBcast 100 (groupCfg memberBit) { st := .ready, ops := [opGather [] true] } blockHdr (collEnt 4 0 15 0), 3, 63, blockHdr, List.replicate 8 1, opGather [] true, collEnt 4 0 15 0, collHere_of (by decide +kernel), by unfold LoneOp LoneEntry RingWritable; decide +kernel⟩
theorem test_CollectivesDeliverAndBreak_7 : ∃ (s : State) (r : Nat) (g : Nat) (h : CollHdr) (data : List Byte) (o : CollOp) (e : Entry), CollHere s 100 r h data ∧ LoneOp s r g o e ∧ o.coll = 4 ∧ o.first = h.bnum ∧ o.result = false ∧ h.aux < 2 ^ 17 ∧ h.aux ∉ o.pieces ∧ o.gathered = true ∧ o.pieces.length + 1 = cfgMembers (collCfg s r) ∧ o.low = o.blocks ∧ o.void = false :=
  ⟨upBcast 100 (groupCfg memberBit) { st := .ready, ops := [opGather [1] true] } blockHdr (collEnt 4 0 15 0), 3, 63, blockHdr, List.replicate 8 1, opGather [1] true, collEnt 4 0 15 0, collHere_of (by decide +kernel), by unfold LoneOp LoneEntry RingWritable; decide +kernel⟩
theorem test_CollectivesDeliverAndBreak_8 : ∃ (s : State) (r : Nat) (h : CollHdr) (data : List Byte), CollHere s 99 r h data ∧ (rowHeld (s.collRow r).st = false ∨ (s.collRow r).tree ≠ h.tree ∨ bitAt (s.collRow r).flooded h.tree = true) :=
  ⟨upBcast 99 (groupCfg 0) { st := .ready, flooded := 1 } blockHdr {}, 3, blockHdr, List.replicate 8 1, collHere_of (by decide +kernel), by decide +kernel⟩
theorem test_CollectivesDeliverAndBreak_9 : ∃ (s : State) (r : Nat) (h : CollHdr) (data : List Byte), CollHere s 99 r h data ∧ rowHeld (s.collRow r).st = true ∧ (s.collRow r).tree = h.tree ∧ bitAt (s.collRow r).flooded h.tree = false ∧ cfgRetry (collCfg s r) = true ∧ cfgAltValid (collCfg s r) = true ∧ h.tree = 0 ∧ (s.collRow r).st ≠ CollSt.switching ∧ cfgRoot (collCfg s r) = false :=
  ⟨upBcast 99 (groupCfg retryBits) { st := .ready } blockHdr {}, 3, blockHdr, List.replicate 8 1, collHere_of (by decide +kernel), by decide +kernel⟩
theorem test_CollectivesDeliverAndBreak_10 : ∃ (s : State) (r : Nat) (h : CollHdr) (data : List Byte), CollHere s 99 r h data ∧ rowHeld (s.collRow r).st = true ∧ (s.collRow r).tree = h.tree ∧ bitAt (s.collRow r).flooded h.tree = false ∧ cfgRetry (collCfg s r) = true ∧ cfgAltValid (collCfg s r) = true ∧ h.tree = 0 ∧ (s.collRow r).st ≠ CollSt.switching ∧ cfgRoot (collCfg s r) = true ∧ (s.collRow r).results = [] :=
  ⟨upBcast 99 (groupCfg (retryBits + rootBit)) { st := .ready } blockHdr {}, 3, blockHdr, List.replicate 8 1, collHere_of (by decide +kernel), by decide +kernel⟩
theorem test_CollectivesDeliverAndBreak_11 : ∃ (s : State) (r : Nat) (h : CollHdr) (data : List Byte), CollHere s 99 r h data ∧ rowHeld (s.collRow r).st = true ∧ (s.collRow r).tree = h.tree ∧ bitAt (s.collRow r).flooded h.tree = false ∧ (cfgRetry (collCfg s r) = false ∨ cfgAltValid (collCfg s r) = false ∨ h.tree ≠ 0) :=
  ⟨upBcast 99 (groupCfg 0) { st := .waiting } blockHdr {}, 3, blockHdr, List.replicate 8 1, collHere_of (by decide +kernel), by decide +kernel⟩
theorem test_CollectivesDeliverAndBreak_12 : ∃ (s : State) (r : Nat) (h : CollHdr) (data : List Byte), CollHere s 98 r h data ∧ (s.collRow r).st = CollSt.switching ∧ (s.collRow r).restart = none ∧ cfgRoot (collCfg s r) = false :=
  ⟨upBcast 98 (groupCfg retryBits) { st := .switching, tree := 1 } blockHdr {}, 3, blockHdr, List.replicate 8 1, collHere_of (by decide +kernel), by decide +kernel⟩
theorem test_CollectivesDeliverAndBreak_13 : ∃ (s : State) (r : Nat) (h : CollHdr) (data : List Byte), CollHere s 98 r h data ∧ ((s.collRow r).restart.isSome = true ∨ cfgRoot (collCfg s r) = true ∨ (s.collRow r).st ≠ CollSt.switching ∧ (s.collRow r).due = none) :=
  ⟨upBcast 98 (groupCfg retryBits) { st := .ready } blockHdr {}, 3, blockHdr, List.replicate 8 1, collHere_of (by decide +kernel), by decide +kernel⟩
theorem test_CollectivesDeliverAndBreak_14 : ∃ (s : State) (row : Nat) (k : CollRepeat), row < 4096 ∧ (s.collRow row).repeats = [k] ∧ k.at' + 16 ≤ s.time.count :=
  ⟨{ upRow (groupCfg 0) { st := .ready, repeats := [{ opc := 99, left := 0, at' := 1 }] } {} with time := { count := 17 } }, 4095, { opc := 99, left := 0, at' := 1 }, by decide +kernel⟩
theorem test_CollectivesDeliverAndBreak_15 : ∃ (s : State) (row : Nat) (k : CollRepeat), row < 4096 ∧ (s.collRow row).repeats = [k] ∧ s.time.count < k.at' + 16 ∧ k.left ≠ 0 :=
  ⟨{ upRow (groupCfg 0) { st := .ready, repeats := [{ opc := 99, left := 1, at' := 1 }] } {} with time := { count := 16 } }, 4095, { opc := 99, left := 1, at' := 1 }, by decide +kernel⟩
theorem test_CollectivesDeliverAndBreak_16 : ∃ (s : State) (row : Nat), row < 4096 ∧ (s.collRow row).st = CollSt.switching ∧ (s.collRow row).due = none ∧ (s.collRow row).restart = none ∧ (s.collRow row).switchAt + s.reg Dict.COLL_RESTART_WAIT_ST ≤ s.time.count :=
  ⟨{ upRow (groupCfg retryBits) { st := .switching, switchAt := 1 } {} with time := { count := 1 + up.reg Dict.COLL_RESTART_WAIT_ST } }, 4095, by decide +kernel⟩
theorem test_CollectivesDeliverAndBreak_17 : ∃ (s : State) (row : Nat), row < 4096 ∧ ((s.collRow row).st ≠ CollSt.switching ∨ (s.collRow row).restart.isSome = true ∨ s.time.count < (s.collRow row).switchAt + s.reg Dict.COLL_RESTART_WAIT_ST) :=
  ⟨{ upRow (groupCfg retryBits) { st := .switching, switchAt := 1 } {} with time := { count := up.reg Dict.COLL_RESTART_WAIT_ST } }, 4095, by decide +kernel⟩
theorem test_CollectivesDeliverAndBreak_18 : ∃ (s : State) (row : Nat), row < 4096 ∧ (∀ o ∈ (s.collRow row).ops, s.time.count < o.startAt + s.reg Dict.COLL_OP_TIMEOUT_ST) :=
  ⟨{ upRow (groupCfg 0) { st := .ready, ops := [{ opAll with startAt := 1 }] } {} with time := { count := up.reg Dict.COLL_OP_TIMEOUT_ST } }, 4095, by decide +kernel⟩
theorem test_CollectivesDeliverAndBreak_19 : ∃ (s : State) (row : Nat) (g : Nat) (o : CollOp) (e : Entry), row < 4096 ∧ LoneOp s row g o e ∧ o.startAt + s.reg Dict.COLL_OP_TIMEOUT_ST ≤ s.time.count ∧ (o.coll ≠ 4 ∨ o.low < o.blocks) :=
  ⟨{ upRow (groupCfg 0) { st := .ready, ops := [{ opAll with startAt := 1 }] } (collEnt 0 0 0 0) with time := { count := 1 + up.reg Dict.COLL_OP_TIMEOUT_ST } }, 4095, 63, { opAll with startAt := 1 }, collEnt 0 0 0 0, by unfold LoneOp LoneEntry RingWritable; decide +kernel⟩
theorem test_CollectivesDeliverAndBreak_20 : ∃ (s : State) (row : Nat) (g : Nat) (o : CollOp) (e : Entry), row < 4096 ∧ LoneOp s row g o e ∧ o.startAt + s.reg Dict.COLL_OP_TIMEOUT_ST ≤ s.time.count ∧ o.coll = 4 ∧ o.blocks ≤ o.low :=
  ⟨{ upRow (groupCfg 0) { st := .ready, ops := [opGather [] true] } (collEnt 4 0 15 0) with time := { count := up.reg Dict.COLL_OP_TIMEOUT_ST } }, 4095, 63, opGather [] true, collEnt 4 0 15 0, by unfold LoneOp LoneEntry RingWritable; decide +kernel⟩

/-! SemaphoresPerformed -/
theorem test_SemaphoresPerformed_1 : ∃ (s : State) (func : Nat) (agent : Nat) (word : Nat) (i : Instr), Reaches s func ∧ agent < 4096 ∧ (fld word 31 30 = 1 ∧ i = Instr.semAcquire (SemSource.page func agent word) ∨ fld word 31 30 = 2 ∧ i = Instr.semTry (SemSource.page func agent word) ∨ fld word 31 30 = 3 ∧ i = Instr.semRelease (SemSource.page func agent word)) ∧ (tget { } s.sem.pages (pageKey func agent)).pending = false ∧ fld word 25 24 = 0 ∧ fld word 15 12 = 0 :=
  ⟨upHost, 0, 4095, 3 * 2 ^ 30, .semRelease (.page 0 4095 (3 * 2 ^ 30)), by unfold Reaches; decide +kernel⟩
theorem test_SemaphoresPerformed_2 : ∃ (s : State) (func : Nat) (agent : Nat) (word : Nat) (i : Instr), Reaches s func ∧ agent < 4096 ∧ (fld word 31 30 = 1 ∧ i = Instr.semAcquire (SemSource.page func agent word) ∨ fld word 31 30 = 2 ∧ i = Instr.semTry (SemSource.page func agent word) ∨ fld word 31 30 = 3 ∧ i = Instr.semRelease (SemSource.page func agent word)) ∧ ((tget { } s.sem.pages (pageKey func agent)).pending = true ∨ fld word 25 24 ≠ 0 ∨ fld word 15 12 ≠ 0) :=
  ⟨upHost, 0, 4095, 2 * 2 ^ 30 + 2 ^ 12, .semTry (.page 0 4095 (2 * 2 ^ 30 + 2 ^ 12)), by unfold Reaches; decide +kernel⟩
theorem test_SemaphoresPerformed_3 : ∃ (s : State) (core : Nat) (prio : Nat) (sem : Nat), core < 8 ∧ sem < 4096 ∧ prio < 8 ∧ bitAt s.exe.halted core = false :=
  ⟨up, 7, 7, 4095, by decide +kernel⟩

/-- The bank with one operation, or with one semaphore held by agent 4 of function 3 and a reset. -/
def upBank (u : SemUnit) : State := { upHost with sem := u }
def heldSem (w : List Waiter) : Sem := { st := .held, owner := some (.h 3 4), waiters := w }

theorem test_SemaphoresPerformed_4 : ∃ (s : State) (op : SemOp), BankHas s op :=
  ⟨upBank { ops := [{ verb := .release, who := .h 0 4095, sem := 4095 }], done := 63 }, { verb := .release, who := .h 0 4095, sem := 4095 }, by unfold BankHas; decide +kernel⟩
theorem test_SemaphoresPerformed_5 : ∃ (s : State) (r : MReset) (n : Nat) (x : Sem) (o : Master), s.sem.resets = [r] ∧ s.sem.ops = [] ∧ s.sem.sems = [(n, x)] ∧ x.st = SemSt.held ∧ x.owner = some o ∧ resetHits r o = false ∧ x.waiters = [] ∧ x.ceiling = x.ownerPrio :=
  ⟨upBank { resets := [.func 2], sems := [(4095, heldSem [])] }, .func 2, 4095, heldSem [], .h 3 4, by decide +kernel⟩
theorem test_SemaphoresPerformed_6 : ∃ (s : State) (r : MReset) (n : Nat) (x : Sem) (o : Master), s.sem.resets = [r] ∧ s.sem.ops = [] ∧ s.sem.sems = [(n, x)] ∧ x.st = SemSt.held ∧ x.owner = some o ∧ resetHits r o = true ∧ List.filter (fun w ↦ !resetHits r w.who) x.waiters = [] :=
  ⟨upBank { resets := [.func 3], sems := [(4095, heldSem [{ who := .h 3 5 }])] }, .func 3, 4095, heldSem [{ who := .h 3 5 }], .h 3 4, by decide +kernel⟩
theorem test_SemaphoresPerformed_7 : ∃ (s : State) (r : MReset) (n : Nat) (x : Sem) (o : Master) (w : Waiter), s.sem.resets = [r] ∧ s.sem.ops = [] ∧ s.sem.sems = [(n, x)] ∧ x.st = SemSt.held ∧ x.owner = some o ∧ resetHits r o = true ∧ FirstWaiter (List.filter (fun w ↦ !resetHits r w.who) x.waiters) w :=
  ⟨upBank { resets := [.func 3], sems := [(4095, heldSem [{ who := .h 3 5, prio := 7 }, { who := .h 2 5 }, { who := .m true 1, prio := 2 }, { who := .k 7 1, prio := 2 }])] }, .func 3, 4095, heldSem [{ who := .h 3 5, prio := 7 }, { who := .h 2 5 }, { who := .m true 1, prio := 2 }, { who := .k 7 1, prio := 2 }], .h 3 4, { who := .m true 1, prio := 2 }, by exact ⟨by decide +kernel, by decide +kernel, by decide +kernel, by decide +kernel, by decide +kernel, by decide +kernel, [{ who := .h 2 5 }], [{ who := .k 7 1, prio := 2 }], by decide +kernel⟩⟩
/-- Function 0's event ring, of 2^4 records. -/
def upEv (r : EvRing) : State := { upHost.setReg Dict.SEM_EVRING 0 (2 ^ 127 + put 4 111 108) with sem := { rings := [(0, r)] } }
theorem test_SemaphoresPerformed_8 : ∃ (s : State) (func : Nat) (value : Nat) (r : EvRing) (n : Nat), Reaches s func ∧ r = tget { } s.sem.rings func ∧ n = 2 ^ fld (s.reg Dict.SEM_EVRING func) 111 108 ∧ consumerOk n r.cons r.prod value = true ∧ value = r.prod :=
  ⟨upEv { prod := 0, cons := 16 }, 0, 0, { prod := 0, cons := 16 }, 16, by unfold Reaches; decide +kernel⟩
theorem test_SemaphoresPerformed_9 : ∃ (s : State) (func : Nat) (value : Nat) (r : EvRing) (n : Nat), Reaches s func ∧ r = tget { } s.sem.rings func ∧ n = 2 ^ fld (s.reg Dict.SEM_EVRING func) 111 108 ∧ consumerOk n r.cons r.prod value = true ∧ value ≠ r.prod :=
  ⟨upEv { prod := 0, cons := 16 }, 0, 31, { prod := 0, cons := 16 }, 16, by unfold Reaches; decide +kernel⟩
theorem test_SemaphoresPerformed_10 : ∃ (s : State) (func : Nat) (value : Nat) (r : EvRing) (n : Nat), Reaches s func ∧ r = tget { } s.sem.rings func ∧ n = 2 ^ fld (s.reg Dict.SEM_EVRING func) 111 108 ∧ consumerOk n r.cons r.prod value = false ∧ r.cons = r.prod :=
  ⟨upEv { prod := 16, cons := 16 }, 0, 17, { prod := 16, cons := 16 }, 16, by unfold Reaches; decide +kernel⟩
theorem test_SemaphoresPerformed_11 : ∃ (s : State) (sem : Nat), sem < 4096 ∧ (semOf s sem).st ≠ SemSt.held :=
  ⟨up, 4095, by decide +kernel⟩
theorem test_SemaphoresPerformed_12 : ∃ (s : State) (sem : Nat), sem < 4096 ∧ (semOf s sem).st = SemSt.held ∧ (semOf s sem).waiters = [] ∧ (semOf s sem).ceiling = (semOf s sem).ownerPrio :=
  ⟨upBank { sems := [(4095, heldSem [])] }, 4095, by decide +kernel⟩

/-- The running part with its claim controller. -/
def upClaim (c : ClaimUnit) : State := { upHost with mon := { upHost.mon with claim := c } }


/-! ClaimsJudged -/
theorem test_ClaimsJudged_1 : ∃ (s : State) (k : Nat), TargetReaches s k ∧ tget [] s.mon.claim.presented k = [] :=
  ⟨upHost, 11, by unfold TargetReaches Reaches; decide +kernel⟩
theorem test_ClaimsJudged_2 : ∃ (s : State) (k : Nat) (n : Nat), TargetReaches s k ∧ CountsQuietly s ∧ n ∈ tget [] s.mon.claim.presented k ∧ List.Pairwise (fun x1 x2 ↦ x1 < x2) (tget [] s.mon.claim.presented k) ∧ (∀ m ∈ tget [] s.mon.claim.presented k, (claimRow s m).prio < (claimRow s n).prio ∨ (claimRow s m).prio = (claimRow s n).prio ∧ n ≤ m) :=
  ⟨upClaim { rows := [(5, { prio := 3 }), (1019, { prio := 3 })], presented := [(11, [5, 1019])] }, 11, 5, by unfold TargetReaches Reaches CountsQuietly; decide +kernel⟩
theorem test_ClaimsJudged_3 : ∃ (s : State) (k : Nat) (n : Nat), TargetReaches s k ∧ 1 ≤ n ∧ n ≤ 1019 ∧ (claimRow s n).inService = true ∧ (claimRow s n).claimant = k :=
  ⟨upClaim { rows := [(1019, { inService := true, claimant := 7 })] }, 7, 1019, by unfold TargetReaches Reaches; decide +kernel⟩
theorem test_ClaimsJudged_4 : ∃ (s : State) (k : Nat) (n : Nat), TargetReaches s k ∧ n < 1024 ∧ (n = 0 ∨ 1019 < n ∨ (claimRow s n).inService = false ∨ (claimRow s n).claimant ≠ k) :=
  ⟨upClaim { rows := [(1019, { inService := true, claimant := 7 })] }, 6, 1019, by unfold TargetReaches Reaches; decide +kernel⟩
theorem test_ClaimsJudged_5 : ∃ (s : State) (k : Nat) (n : Nat), TargetReaches s k ∧ CountsQuietly s ∧ 1 ≤ n ∧ n ≤ 1019 ∧ reservedSource n = false :=
  ⟨upHost, 7, 1019, by unfold TargetReaches Reaches CountsQuietly; decide +kernel⟩
theorem test_ClaimsJudged_6 : ∃ (s : State) (k : Nat) (n : Nat), TargetReaches s k ∧ n < 1024 ∧ (n = 0 ∨ 1019 < n) :=
  ⟨upHost, 7, 1020, by unfold TargetReaches Reaches; decide +kernel⟩
theorem test_ClaimsJudged_7 : ∃ (n : Nat), 1 ≤ n ∧ n ≤ 1019 ∧ reservedSource n = false :=
  ⟨1019, by decide +kernel⟩

/-- The running part with its fault unit. -/
def upFlt (f : FaultUnit) : State := { up with mon := { up.mon with fault := f } }


/-! FaultsLoggedAndAcknowledged -/
theorem test_FaultsLoggedAndAcknowledged_1 : ∃ (s : State), (s.mon.fault.queue = [] ∨ 16 ≤ s.mon.fault.logged) :=
  ⟨upFlt { queue := [{ code := 0x501 }], logged := 16 }, by decide +kernel⟩
theorem test_FaultsLoggedAndAcknowledged_2 : ∃ (s : State) (r : Raise) (rest : List Raise), s.mon.fault.queue = r :: rest ∧ s.mon.fault.logged < 16 ∧ s.mon.fault.lostRaises = 0 ∧ (trackedKeys s.mon.fault).length < 1024 :=
  ⟨upFlt { queue := [{ code := 0x501 }], logged := 15, unacked := [{ code := 0x501, inst := 2 }] }, { code := 0x501 }, [], by decide +kernel⟩
theorem test_FaultsLoggedAndAcknowledged_3 : ∃ (s : State), bitAt s.exe.halted 6 = true :=
  ⟨{ up with exe := { halted := 2 ^ 6 } }, by decide +kernel⟩
theorem test_FaultsLoggedAndAcknowledged_4 : ∃ (r : FRecord), r.cls = FClass.corrected :=
  ⟨{ cls := .corrected, code := 0x501 }, by decide +kernel⟩
theorem test_FaultsLoggedAndAcknowledged_5 : ∃ (r : FRecord), r.cls = FClass.fatal :=
  ⟨{ cls := .fatal, code := 0xF01 }, by decide +kernel⟩
theorem test_FaultsLoggedAndAcknowledged_6 : ∃ (s : State) (r : FRecord), r.cls = FClass.contained ∧ s.time.count < r.loggedAt + s.reg Dict.FAULT_UC_HOLD_ST :=
  ⟨{ up with time := { count := up.reg Dict.FAULT_UC_HOLD_ST } }, { cls := .contained, loggedAt := 1 }, by decide +kernel⟩
theorem test_FaultsLoggedAndAcknowledged_7 : ∃ (s : State), bitAt s.exe.halted 6 = false ∧ (List.map (fun x ↦ x.seq) s.mon.fault.unacked).Nodup ∧ (List.filter (mayAck s) s.mon.fault.unacked).length ≤ 32 :=
  ⟨upFlt { unacked := (List.range 32).map fun i => { seq := i } }, by decide +kernel⟩
theorem test_FaultsLoggedAndAcknowledged_8 : ∃ (s : State), s.mon.fault.copyQ = [] :=
  ⟨up, by decide +kernel⟩
theorem test_FaultsLoggedAndAcknowledged_9 : ∃ (s : State) (r : FRecord) (rest : List FRecord), s.mon.fault.copyQ = r :: rest :=
  ⟨upFlt { copyQ := [{ seq := 5 }] }, { seq := 5 }, [], by decide +kernel⟩
theorem test_FaultsLoggedAndAcknowledged_10 : ∃ (s : State) (v : Nat), s.pwr.off = false ∧ v ≤ 1 :=
  ⟨up, 1, by decide +kernel⟩
theorem test_FaultsLoggedAndAcknowledged_11 : ∃ (s : State) (v : Nat), s.pwr.off = false ∧ 1 < v :=
  ⟨up, 2, by decide +kernel⟩
theorem test_FaultsLoggedAndAcknowledged_12 : ∃ (s : State), Loggable s 3845 0 0 :=
  ⟨{ upFlt { queue := List.replicate 255 {}, stamps := [(limitKey 3845 0 0, 1)] } with time := { count := 1024 } }, by unfold Loggable; decide +kernel⟩

/-! HarmlessStatesEntered -/
theorem test_HarmlessStatesEntered_1 : ∃ (s : State), s.pwr.off = false ∧ s.mon.fault.isolated = false ∧ s.mon.fault.isolateDue = none ∧ s.mon.fault.fatal = false ∧ s.mon.fault.fatalDue = none :=
  ⟨upFlt { mv := 700 }, by decide +kernel⟩
theorem test_HarmlessStatesEntered_2 : ∃ (s : State), s.pwr.off = false ∧ (s.mon.fault.fatal = true ∨ s.mon.fault.hold = true ∨ s.mon.fault.mv < 700) :=
  ⟨upFlt { mv := 699, isolated := true }, by decide +kernel⟩
theorem test_HarmlessStatesEntered_3 : ∃ (s : State), s.pwr.off = false ∧ s.mon.fault.fatal = false ∧ s.mon.fault.hold = false ∧ 700 ≤ s.mon.fault.mv ∧ s.mon.fault.isolated = true :=
  ⟨upFlt { mv := 700, isolated := true }, by decide +kernel⟩
theorem test_HarmlessStatesEntered_4 : ∃ (s : State) (p : Nat), s.pwr.off = false ∧ p < 96 ∧ (s.link p).st ≠ LState.down :=
  ⟨upF { st := .isolated }, 95, by decide +kernel⟩
theorem test_HarmlessStatesEntered_5 : ∃ (s : State), s.pwr.off = false ∧ s.reg Dict.PMAP_DEBUG_LOCK = 0 :=
  ⟨up, by decide +kernel⟩
theorem test_HarmlessStatesEntered_6 : ∃ (s : State) (v : Nat), s.pwr.off = false ∧ s.reg Dict.PMAP_DEBUG_LOCK ≠ 0 ∧ (fld v 47 46 = 3 ∨ 12 ≤ fld v 43 40) :=
  ⟨upR Dict.PMAP_DEBUG_LOCK 0 1, put 12 43 40, by decide +kernel⟩
theorem test_HarmlessStatesEntered_7 : ∃ (s : State) (v : Nat), s.pwr.off = false ∧ s.reg Dict.PMAP_DEBUG_LOCK ≠ 0 ∧ fld v 47 46 ≠ 3 ∧ fld v 43 40 < 12 ∧ Loggable s (fld v 63 48) (fld v 43 40) (fld v 23 0) :=
  ⟨upR Dict.PMAP_DEBUG_LOCK 0 1, put 0x0701 63 48 + put 2 47 46 + put 11 43 40 + put 3 23 0, by unfold Loggable; decide +kernel⟩
theorem test_HarmlessStatesEntered_8 : ∃ (s : State), s.mon.fault.fatal = false ∧ s.mon.fault.hold = false :=
  ⟨upFlt { mv := 700 }, by decide +kernel⟩
theorem test_HarmlessStatesEntered_9 : ∃ (s : State), s.mon.fault.fatal = true :=
  ⟨upFlt { fatal := true }, by decide +kernel⟩
theorem test_HarmlessStatesEntered_10 : ∃ (s : State), s.mon.fault.fatal = false ∧ s.mon.fault.hold = true :=
  ⟨upFlt { hold := true, holdAt := 1 }, by decide +kernel⟩
theorem test_HarmlessStatesEntered_11 : ∃ (s : State), (s.mon.fault.hold = false ∨ s.mon.fault.holdLong = true ∨ s.time.count < s.mon.fault.holdAt + 9766) :=
  ⟨{ upFlt { hold := true, holdAt := 1 } with time := { count := 9766 } }, by decide +kernel⟩
theorem test_HarmlessStatesEntered_12 : ∃ (s : State), s.mon.fault.hold = true ∧ s.mon.fault.holdLong = false ∧ s.mon.fault.holdAt + 9766 ≤ s.time.count ∧ s.mon.fault.isolated = false ∧ s.mon.fault.isolateDue = none ∧ s.mon.fault.fatal = false ∧ s.mon.fault.fatalDue = none :=
  ⟨{ upFlt { hold := true, holdAt := 1 } with time := { count := 9767 } }, by decide +kernel⟩
theorem test_HarmlessStatesEntered_13 : ∃ (s : State) (mv : Nat), s.pwr.off = false ∧ standingBy s = false ∧ 3 ≤ s.pwr.step ∧ mv ≤ 710 ∧ isFatal s = false :=
  ⟨up, 710, by decide +kernel⟩
theorem test_HarmlessStatesEntered_14 : ∃ (s : State) (mv : Nat), s.pwr.off = false ∧ standingBy s = false ∧ 3 ≤ s.pwr.step ∧ mv ≤ 710 ∧ isFatal s = true ∧ s.mon.fault.fatalDip ≠ 2 :=
  ⟨upFlt { fatal := true, fatalDip := 1 }, 710, by decide +kernel⟩

/-- The part with its power unit. -/
def upP (w : PwrUnit) : State := { State.reset with pwr := w }
/-- Every supply good and no reset held, at a step of start-up. -/
def pwrAt (step : Nat) : PwrUnit := { step := step, pgCore := true, pgSerdes := true, pgUcie := true, resetLow := false }


/-! SuppliesAndResets -/
theorem test_SuppliesAndResets_1 : ∃ (s : State), (s.pwr.off = true ∨ standingBy s = true ∨ s.pwr.pgCore = false) :=
  ⟨upP { pwrAt 6 with st := .standby }, by decide +kernel⟩
theorem test_SuppliesAndResets_2 : ∃ (s : State), s.pwr.off = false ∧ standingBy s = false ∧ s.pwr.pgCore = true :=
  ⟨upP (pwrAt 6), by decide +kernel⟩
theorem test_SuppliesAndResets_3 : ∃ (s : State), s.pwr.off = false ∧ standingBy s = false :=
  ⟨upP (pwrAt 2), by decide +kernel⟩
theorem test_SuppliesAndResets_4 : ∃ (s : State), s.pwr.off = false ∧ standingBy s = false ∧ s.pwr.coreFell = true ∧ s.pwr.refLost = false ∧ s.pwr.hot = false :=
  ⟨upP { pwrAt 2 with pgCore := false, coreFell := true }, by decide +kernel⟩
theorem test_SuppliesAndResets_5 : ∃ (s : State), s.pwr.off = false ∧ isFatal s = false :=
  ⟨upP (pwrAt 6), by decide +kernel⟩
theorem test_SuppliesAndResets_6 : ∃ (s : State), (s.pwr.off = true ∨ isFatal s = true) :=
  ⟨upP { pwrAt 6 with off := true }, by decide +kernel⟩
theorem test_SuppliesAndResets_7 : ∃ (s : State), 3 ≤ s.pwr.step :=
  ⟨upP (pwrAt 3), by decide +kernel⟩
theorem test_SuppliesAndResets_8 : ∃ (s : State), s.pwr.step = 2 ∧ s.mon.fault.fatal = false ∧ startAllowed { time := s.time, exe := s.exe, ctl := s.ctl, lanes := s.lanes, eyes := s.eyes, links := s.links, host := s.host, queues := s.queues, rma := s.rma, mtch := s.mtch, trans := s.trans, coll := s.coll, sw := s.sw, lasts := s.lasts, sem := s.sem, pwr := have __src := s.pwr; { off := __src.off, st := __src.st, step := __src.step, kind := __src.kind, pgCore := __src.pgCore, pgSerdes := __src.pgSerdes, pgUcie := __src.pgUcie, resetLow := false, coreFell := __src.coreFell, refLost := __src.refLost, hot := __src.hot, addrSel := __src.addrSel, wakeN := __src.wakeN, wake := __src.wake, wakeSecs := __src.wakeSecs, wakeSlow := __src.wakeSlow, lastWake := __src.lastWake, idleFrames := __src.idleFrames, dormant := __src.dormant, departAt := __src.departAt, departing := __src.departing, departed := __src.departed, benches := __src.benches, benchUp := __src.benchUp, benchAt := __src.benchAt, benchSlow := __src.benchSlow, resetCmd := __src.resetCmd, jtag := __src.jtag, jtagPins := __src.jtagPins }, sec := s.sec, mon := s.mon, regs := s.regs, mram := s.mram, latch := s.latch, out := s.out, freeN := s.freeN, pending := s.pending } = true :=
  ⟨{ upP (pwrAt 2) with mon := { fault := { mv := 711, supplyReset := true } } }, by decide +kernel⟩
theorem test_SuppliesAndResets_9 : ∃ (s : State), s.pwr.off = false ∧ standingBy s = false ∧ 6 ≤ s.pwr.step ∧ s.pwr.pgSerdes = true :=
  ⟨upP (pwrAt 6), by decide +kernel⟩
theorem test_SuppliesAndResets_10 : ∃ (s : State), s.pwr.off = false ∧ standingBy s = false ∧ 6 ≤ s.pwr.step ∧ coreUp s = true :=
  ⟨upP (pwrAt 6), by decide +kernel⟩
theorem test_SuppliesAndResets_11 : ∃ (s : State), s.pwr.off = false ∧ standingBy s = false ∧ 6 ≤ s.pwr.step ∧ s.pwr.pgUcie = true :=
  ⟨upP (pwrAt 6), by decide +kernel⟩
theorem test_SuppliesAndResets_12 : ∃ (s : State), s.pwr.off = false ∧ standingBy s = false ∧ 6 ≤ s.pwr.step :=
  ⟨upP { pwrAt 6 with pgUcie := false }, by decide +kernel⟩
theorem test_SuppliesAndResets_13 : ∃ (s : State) (kind : Nat), s.pwr.off = false ∧ isFatal s = false ∧ kind ≤ 5 :=
  ⟨upP (pwrAt 6), 5, by decide +kernel⟩
theorem test_SuppliesAndResets_14 : ∃ (s : State) (kind : Nat), s.pwr.off = false ∧ (5 < kind ∨ isFatal s = true ∧ 2 ≤ kind) :=
  ⟨upFlt { fatal := true }, 2, by decide +kernel⟩
theorem test_SuppliesAndResets_15 : ∃ (s : State), s.pwr.resetCmd = none :=
  ⟨up, by decide +kernel⟩
theorem test_SuppliesAndResets_16 : ∃ (s : State) (c : ResetCmd), s.pwr.resetCmd = some c ∧ (c.at' < s.time.count ∧ responseLeft s c = true ∨ c.at' + 1024 ≤ s.time.count) :=
  ⟨{ upP { pwrAt 6 with resetCmd := some { feed := .sideband, at' := 1 } } with ctl := { sbHeld := some { op := 2, index := 0x1000, sub := 2 } }, time := { count := 1025 } }, { feed := .sideband, at' := 1 }, by decide +kernel⟩
theorem test_SuppliesAndResets_17 : ∃ (s : State) (c : ResetCmd), s.pwr.resetCmd = some c ∧ s.time.count < c.at' + 1024 ∧ (s.time.count ≤ c.at' ∨ responseLeft s c = false) :=
  ⟨{ upP { pwrAt 6 with resetCmd := some { feed := .sideband, at' := 1 } } with ctl := { sbHeld := some { op := 2, index := 0x1000, sub := 2 } }, time := { count := 1024 } }, { feed := .sideband, at' := 1 }, by decide +kernel⟩
theorem test_SuppliesAndResets_18 : ∃ (s : State) (v : Nat), coreUp s = true ∧ v = 165 :=
  ⟨up, 165, by decide +kernel⟩
theorem test_SuppliesAndResets_19 : ∃ (s : State) (v : Nat), coreUp s = true ∧ v ≠ 165 :=
  ⟨up, 90, by decide +kernel⟩
theorem test_SuppliesAndResets_20 : ∃ (s : State), s.pwr.off = false :=
  ⟨up, by decide +kernel⟩
theorem test_SuppliesAndResets_21 : ∃ (s : State) (core : Nat), core < 8 ∧ coreUp s = true :=
  ⟨up, 7, by decide +kernel⟩

/-! DepartStandbyWake -/
theorem test_DepartStandbyWake_1 : ∃ (s : State), coreUp s = true ∧ s.pwr.departing = false ∧ isFatal s = false :=
  ⟨up, by decide +kernel⟩
theorem test_DepartStandbyWake_2 : ∃ (s : State), coreUp s = true ∧ s.pwr.departing = true :=
  ⟨upP { pwrAt 6 with departing := true }, by decide +kernel⟩
theorem test_DepartStandbyWake_3 : ∃ (s : State), (s.pwr.departing = false ∨ s.time.count < s.pwr.departAt) :=
  ⟨{ upP { pwrAt 6 with departing := true, departAt := 8 } with time := { count := 7 } }, by decide +kernel⟩
theorem test_DepartStandbyWake_4 : ∃ (s : State), s.pwr.departing = true ∧ s.pwr.departAt ≤ s.time.count ∧ s.mon.fault.isolated = false ∧ s.mon.fault.isolateDue = none ∧ isFatal s = false :=
  ⟨{ upP { pwrAt 6 with departing := true, departAt := 7 } with time := { count := 7 } }, by decide +kernel⟩
/-- The running part that may stand by. -/
def upIdle (w : PwrUnit) : State := (upP w).setReg Dict.PWR_STANDBY_ALLOW 0 1
theorem test_DepartStandbyWake_5 : ∃ (s : State), s.pwr.st ≠ PState.entering ∧ (coreUp s = false ∨ s.time.count % 1024 ≠ 0 ∨ standbyReady s = false ∨ s.pwr.idleFrames < s.reg Dict.PWR_STANDBY_IDLE_FR) :=
  ⟨{ upIdle { pwrAt 6 with idleFrames := up.reg Dict.PWR_STANDBY_IDLE_FR } with time := { count := 1025 } }, by decide +kernel⟩
theorem test_DepartStandbyWake_6 : ∃ (s : State), s.pwr.st = PState.run ∧ coreUp s = true ∧ s.time.count % 1024 = 0 ∧ standbyReady s = true ∧ s.reg Dict.PWR_STANDBY_IDLE_FR ≤ s.pwr.idleFrames ∧ s.ctl.persistQ ≠ [] :=
  ⟨{ upIdle { pwrAt 6 with idleFrames := up.reg Dict.PWR_STANDBY_IDLE_FR } with time := { count := 1024 }, ctl := { persistQ := [3] } }, by decide +kernel⟩
theorem test_DepartStandbyWake_7 : ∃ (s : State), s.pwr.st = PState.entering ∧ flushed s = false :=
  ⟨{ upIdle { pwrAt 6 with st := .entering } with ctl := { persistQ := [3] } }, by decide +kernel⟩
theorem test_DepartStandbyWake_8 : ∃ (s : State), s.pwr.st = PState.entering ∧ flushed s = true :=
  ⟨upIdle { pwrAt 6 with st := .entering }, by decide +kernel⟩
theorem test_DepartStandbyWake_9 : ∃ (s : State) (i : Instr) (bit : Nat) (src : WakeSrc), s.pwr.off = false ∧ (s.pwr.st = PState.standby ∨ s.pwr.st = PState.entering) ∧ (i = Instr.wakeAddressMatch ∧ bit = 0 ∧ src = WakeSrc.sideband ∨ i = Instr.ucieWakeRequest ∧ bit = 1 ∧ src = WakeSrc.ucie ∨ (∃ p < 96, s.reg Dict.PWR_WAKE_PORTS p = 1 ∧ i = Instr.wakeSignalDetect p ∧ bit = 2 ∧ src = WakeSrc.signal p) ∨ i = Instr.wakeTimer ∧ s.reg Dict.PWR_WAKE_TIMER_S ≠ 0 ∧ s.pwr.st = PState.standby ∧ bit = 3 ∧ src = WakeSrc.timer) ∧ bitAt (s.reg Dict.PWR_WAKE_ENABLE) bit = false :=
  ⟨(upP { pwrAt 2 with st := .standby }).setReg Dict.PWR_WAKE_ENABLE 0 0, .wakeAddressMatch, 0, .sideband, by exact ⟨by decide +kernel, by decide +kernel, Or.inl (by decide +kernel), by decide +kernel⟩⟩
theorem test_DepartStandbyWake_10 : ∃ (s : State) (i : Instr) (bit : Nat) (src : WakeSrc), s.pwr.off = false ∧ (s.pwr.st = PState.standby ∨ s.pwr.st = PState.entering) ∧ (i = Instr.wakeAddressMatch ∧ bit = 0 ∧ src = WakeSrc.sideband ∨ i = Instr.ucieWakeRequest ∧ bit = 1 ∧ src = WakeSrc.ucie ∨ (∃ p < 96, s.reg Dict.PWR_WAKE_PORTS p = 1 ∧ i = Instr.wakeSignalDetect p ∧ bit = 2 ∧ src = WakeSrc.signal p) ∨ i = Instr.wakeTimer ∧ s.reg Dict.PWR_WAKE_TIMER_S ≠ 0 ∧ s.pwr.st = PState.standby ∧ bit = 3 ∧ src = WakeSrc.timer) ∧ bitAt (s.reg Dict.PWR_WAKE_ENABLE) bit = true ∧ s.pwr.st = PState.standby :=
  ⟨((upP { pwrAt 2 with st := .standby }).setReg Dict.PWR_WAKE_ENABLE 0 4).setReg Dict.PWR_WAKE_PORTS 95 1, .wakeSignalDetect 95, 2, .signal 95, by exact ⟨by decide +kernel, by decide +kernel, Or.inr (Or.inr (Or.inl ⟨95, by decide +kernel⟩)), by decide +kernel⟩⟩
theorem test_DepartStandbyWake_11 : ∃ (s : State) (i : Instr) (bit : Nat) (src : WakeSrc), s.pwr.off = false ∧ (s.pwr.st = PState.standby ∨ s.pwr.st = PState.entering) ∧ (i = Instr.wakeAddressMatch ∧ bit = 0 ∧ src = WakeSrc.sideband ∨ i = Instr.ucieWakeRequest ∧ bit = 1 ∧ src = WakeSrc.ucie ∨ (∃ p < 96, s.reg Dict.PWR_WAKE_PORTS p = 1 ∧ i = Instr.wakeSignalDetect p ∧ bit = 2 ∧ src = WakeSrc.signal p) ∨ i = Instr.wakeTimer ∧ s.reg Dict.PWR_WAKE_TIMER_S ≠ 0 ∧ s.pwr.st = PState.standby ∧ bit = 3 ∧ src = WakeSrc.timer) ∧ bitAt (s.reg Dict.PWR_WAKE_ENABLE) bit = true ∧ s.pwr.st = PState.entering ∧ s.pwr.wake = none :=
  ⟨(upP { pwrAt 6 with st := .entering }).setReg Dict.PWR_WAKE_ENABLE 0 2, .ucieWakeRequest, 1, .ucie, by exact ⟨by decide +kernel, by decide +kernel, Or.inr (Or.inl (by decide +kernel)), by decide +kernel⟩⟩
theorem test_DepartStandbyWake_12 : ∃ (s : State), s.pwr.st = PState.run ∧ coreUp s = true :=
  ⟨up, by decide +kernel⟩
theorem test_DepartStandbyWake_13 : ∃ (s : State), s.pwr.st = PState.waking ∧ s.pwr.step < 3 ∧ s.pwr.off = false ∧ s.pwr.pgCore = true ∧ s.pwr.pgSerdes = true ∧ s.pwr.pgUcie = true ∧ s.pwr.resetLow = false :=
  ⟨upP { pwrAt 2 with st := .waking }, by decide +kernel⟩
theorem test_DepartStandbyWake_14 : ∃ (s : State), (s.pwr.st ≠ PState.waking ∨ s.pwr.pgCore = false ∨ s.pwr.pgSerdes = false ∨ s.pwr.pgUcie = false) :=
  ⟨upP { pwrAt 2 with st := .waking, pgUcie := false }, by decide +kernel⟩
theorem test_DepartStandbyWake_15 : ∃ (s : State), s.pwr.st = PState.waking ∧ 3 ≤ s.pwr.step :=
  ⟨upP { pwrAt 3 with st := .waking }, by decide +kernel⟩
theorem test_DepartStandbyWake_16 : ∃ (s : State) (b : Nat), b < 12 ∧ bitAt s.pwr.benchUp b = false :=
  ⟨upP (pwrAt 6), 11, by decide +kernel⟩
theorem test_DepartStandbyWake_17 : ∃ (s : State) (b : Nat), b < 12 ∧ bitAt s.pwr.benchUp b = true ∧ s.pwr.pgSerdes = true ∧ coreUp s = true :=
  ⟨upP { pwrAt 6 with benchUp := 2 ^ 11 }, 11, by decide +kernel⟩
theorem test_DepartStandbyWake_18 : ∃ (s : State) (b : Nat), b < 12 ∧ bitAt s.pwr.benchUp b = true ∧ bitAt s.pwr.benchSlow b = false ∧ tget 0 s.pwr.benchAt b + 1954 ≤ s.time.count :=
  ⟨{ upP { pwrAt 6 with benchUp := 2 ^ 11, benchAt := [(11, 1)] } with time := { count := 1955 } }, 11, by decide +kernel⟩
theorem test_DepartStandbyWake_19 : ∃ (b : Nat), b < 13 :=
  ⟨12, by decide +kernel⟩

/-! BootRunsAndFirmwareStarts -/
theorem test_BootRunsAndFirmwareStarts_1 : ∃ (s : State), (s.pwr.step < 3 ∨ 6 ≤ s.pwr.step ∨ s.pwr.off = true ∨ s.mon.fault.fatal = true) :=
  ⟨upP (pwrAt 2), by decide +kernel⟩
theorem test_BootRunsAndFirmwareStarts_2 : ∃ (s : State), 3 ≤ s.pwr.step ∧ s.pwr.step < 6 ∧ s.pwr.off = false ∧ s.mon.fault.fatal = false :=
  ⟨upP (pwrAt 5), by decide +kernel⟩
theorem commitD {d : Nat} (h : d < 2 ^ 128) (u : SecUnit) (a : u.commitA = packCommit { digest := d }) (b : u.commitB = 0xFFFF) :
    commitOf u = some { digest := d } := by
  rw [commitOf, commitInB, a, b, commit_back h, show readCommit 0xFFFF = none from by decide +kernel]; rfl
theorem commit5 (u : SecUnit) (a : u.commitA = packCommit { digest := 5 }) (b : u.commitB = 0xFFFF) : commitOf u = some { digest := 5 } :=
  commitD (by decide) u a b
theorem stable5 {u : SecUnit} (a : u.commitA = packCommit { digest := 5 } := by rfl) (b : u.commitB = 0xFFFF := by rfl) :
    ∀ c : Commit, commitOf u = some c → c.copying = false := fun c h => by rw [commit5 u a b] at h; cases h; rfl
theorem other5 {u : SecUnit} (a : u.commitA = packCommit { digest := 5 } := by rfl) (b : u.commitB = 0xFFFF := by rfl) (e : u.active = [] := by rfl) :
    ∀ c : Commit, commitOf u = some c → c.copying = false ∧ c.digest ≠ setDigest u.active := fun c h => by
  rw [commit5 u a b] at h; cases h
  rw [e, setDigest, show areaBytes [] 0 (mfLength []) = [] from by decide +kernel, shake_empty16]; decide
theorem test_BootRunsAndFirmwareStarts_4 : ∃ (s : State), 3 ≤ s.pwr.step ∧ s.pwr.step < 6 ∧ s.pwr.off = false ∧ s.mon.fault.fatal = false ∧ s.sec.stage ≠ StageSt.complete ∧ (∀ (c : Commit), commitOf s.sec = some c → c.copying = false ∧ c.digest ≠ setDigest s.sec.active) ∧ s.sec.bootFaults = [] ∧ s.mon.fault.queue.length < 250 :=
  ⟨{ upP (pwrAt 3) with sec := { commitA := packCommit { digest := 5 } } }, by exact ⟨by decide +kernel, by decide +kernel, by decide +kernel, by decide +kernel, by decide +kernel, other5, by decide +kernel, by decide +kernel⟩⟩
theorem test_BootRunsAndFirmwareStarts_5 : ∃ (s : State), 3 ≤ s.pwr.step ∧ s.pwr.step < 6 ∧ s.pwr.off = false ∧ s.mon.fault.fatal = false ∧ s.sec.stage = StageSt.complete ∧ (∀ (c : Commit), commitOf s.sec = some c → c.copying = false) ∧ setVerifies s s.sec.staging = false :=
  ⟨{ upP (pwrAt 4) with sec := { stage := .complete, commitA := packCommit { digest := 5 } } }, by exact ⟨by decide +kernel, by decide +kernel, by decide +kernel, by decide +kernel, by decide +kernel, stable5, by decide +kernel⟩⟩
theorem test_BootRunsAndFirmwareStarts_7 : ∃ (s : State), (s.pwr.step ≠ 5 ∨ s.sec.sealed = false ∨ s.sec.bootStatus ≠ 0) :=
  ⟨upP (pwrAt 4), by decide +kernel⟩
theorem test_BootRunsAndFirmwareStarts_8 : ∃ (s : State), s.pwr.step = 5 ∧ s.sec.sealed = true ∧ s.sec.bootStatus = 0 ∧ s.pwr.off = false ∧ s.mon.fault.fatal = false ∧ (List.map (fun x ↦ x.1) s.mram).Nodup :=
  ⟨{ upP (pwrAt 5) with sec := { sealed := true }, mram := [(3, 1), (7, 2)] }, by decide +kernel⟩
theorem test_BootRunsAndFirmwareStarts_9 : ∃ (s : State), s.pwr.step = 5 ∧ s.sec.sealed = true ∧ s.sec.bootStatus = 0 ∧ s.pwr.off = false ∧ s.mon.fault.fatal = false ∧ s.sec.bootFaults = [] ∧ Loggable s 262 0 0 :=
  ⟨{ upP (pwrAt 5) with sec := { sealed := true } }, by unfold Loggable; decide +kernel⟩

/-- The running part with its boot and firmware unit. -/
def upSec (u : SecUnit) : State := { up with sec := u }

/-! StagingAndAttestation -/
theorem test_StagingAndAttestation_1 : ∃ (s : State), stagingServed s = true ∧ s.pwr.off = false ∧ s.sec.stage ≠ StageSt.copying :=
  ⟨upSec { stage := .receiving }, by decide +kernel⟩
theorem test_StagingAndAttestation_2 : ∃ (s : State), stagingServed s = true ∧ s.pwr.off = false ∧ s.sec.stage ≠ StageSt.manifest :=
  ⟨upSec { stage := .complete }, by decide +kernel⟩
theorem test_StagingAndAttestation_4 : ∃ (s : State), stagingServed s = true ∧ s.pwr.off = false ∧ s.sec.stage = StageSt.manifest ∧ manifestReason s s.sec.staging ≠ 0 :=
  ⟨upSec { stage := .manifest }, by decide +kernel⟩
theorem test_StagingAndAttestation_5 : ∃ (s : State), stagingServed s = true ∧ s.pwr.off = false ∧ (s.sec.stage = StageSt.manifest ∨ s.sec.stage = StageSt.receiving ∨ s.sec.stage = StageSt.complete) :=
  ⟨upSec { stage := .complete }, by decide +kernel⟩
theorem test_StagingAndAttestation_6 : ∃ (s : State), stagingServed s = true ∧ s.pwr.off = false ∧ (s.sec.stage = StageSt.idle ∨ s.sec.stage = StageSt.copying) :=
  ⟨upSec { stage := .copying }, by decide +kernel⟩
theorem test_StagingAndAttestation_7 : ∃ (s : State) (row : Nat), stagingServed s = true ∧ s.pwr.off = false ∧ row < 196608 ∧ (s.sec.stage = StageSt.manifest ∧ row < 2048 ∨ s.sec.stage = StageSt.receiving ∧ isPartChunk s.sec.staging (row / 64) = true ∧ bitAt s.sec.bitmap (row / 64) = false) :=
  ⟨upSec { stage := .manifest }, 2047, by decide +kernel⟩
theorem test_StagingAndAttestation_8 : ∃ (s : State) (row : Nat), stagingServed s = true ∧ s.pwr.off = false ∧ row < 196608 ∧ (s.sec.stage = StageSt.idle ∨ s.sec.stage = StageSt.complete ∨ s.sec.stage = StageSt.manifest ∧ 2048 ≤ row ∨ s.sec.stage = StageSt.receiving ∧ (isPartChunk s.sec.staging (row / 64) = false ∨ bitAt s.sec.bitmap (row / 64) = true)) :=
  ⟨upSec { stage := .manifest }, 2048, by decide +kernel⟩
/-- A staging area whose header gives one part, of chunks 32 and 33. -/
def onePart : Tbl Nat := [(0, put 1 (1999 - 1536) (1992 - 1536)), (4, put 32 (703 - 256) (688 - 256) + put 2 (687 - 256) (672 - 256))]
theorem test_StagingAndAttestation_9 : ∃ (s : State) (c : Nat), stagingServed s = true ∧ s.pwr.off = false ∧ s.sec.stage = StageSt.receiving ∧ isPartChunk s.sec.staging c = true ∧ bitAt s.sec.bitmap c = false ∧ s.sec.checks.length < 16 :=
  ⟨upSec { stage := .receiving, staging := onePart, checks := List.replicate 15 32 }, 33, by decide +kernel⟩
theorem test_StagingAndAttestation_10 : ∃ (s : State) (c : Nat), stagingServed s = true ∧ s.pwr.off = false ∧ s.sec.stage = StageSt.receiving ∧ isPartChunk s.sec.staging c = true ∧ bitAt s.sec.bitmap c = false ∧ 16 ≤ s.sec.checks.length :=
  ⟨upSec { stage := .receiving, staging := onePart, checks := List.replicate 16 32 }, 33, by decide +kernel⟩
theorem test_StagingAndAttestation_11 : ∃ (s : State) (c : Nat), stagingServed s = true ∧ s.pwr.off = false ∧ (s.sec.stage ≠ StageSt.receiving ∨ isPartChunk s.sec.staging c = false ∨ bitAt s.sec.bitmap c = true) :=
  ⟨upSec { stage := .receiving, staging := onePart }, 34, by decide +kernel⟩
theorem test_StagingAndAttestation_12 : ∃ (s : State), s.sec.checks = [] :=
  ⟨upSec { stage := .receiving }, by decide +kernel⟩
theorem test_StagingAndAttestation_15 : ∃ (s : State) (c : Nat) (rest : List Nat), s.sec.checks = c :: rest ∧ s.sec.stage = StageSt.receiving :=
  ⟨upSec { stage := .receiving, checks := [32, 33] }, 32, [33], by decide +kernel⟩
theorem test_StagingAndAttestation_16 : ∃ (s : State), stagingServed s = true ∧ s.pwr.off = false ∧ s.sec.attest = 1 :=
  ⟨upSec { attest := 1 }, by decide +kernel⟩
theorem test_StagingAndAttestation_17 : ∃ (s : State), stagingServed s = true ∧ s.pwr.off = false ∧ s.sec.attest ≠ 1 :=
  ⟨upSec { attest := 2 }, by decide +kernel⟩

/-- The running part with its counters. -/
def upCnt (c : CntUnit) : State := { upHost with mon := { upHost.mon with cnt := c } }
/-- A counter's control: enabled, on an event, of an instance. -/
def cntCtl (ev inst : Nat) : Nat := 2 ^ 63 + put ev 55 44 + put inst 42 23

/-! CountersReadAndTraced -/
theorem test_CountersReadAndTraced_1 : ∃ (s : State) (c : Nat) (w : Nat) (ev : Nat) (inst : Nat) (n : Nat), s.mon.cnt.ctl = [(c, w)] ∧ counts c w ev inst = true ∧ ev ≠ 2307 ∧ ev ≠ 1800 ∧ 1 ≤ n ∧ n ≤ 1024 ∧ tget 0 s.mon.cnt.value c = 2 ^ 48 - 1 :=
  ⟨upCnt { ctl := [(415, cntCtl 0x209 101)], value := [(415, 2 ^ 48 - 1)] }, 415, cntCtl 0x209 101, 0x209, 101, 1024, by decide +kernel⟩
theorem test_CountersReadAndTraced_2 : ∃ (s : State) (c : Nat) (w : Nat) (ev : Nat) (inst : Nat) (n : Nat), s.mon.cnt.ctl = [(c, w)] ∧ counts c w ev inst = true ∧ ev ≠ 2307 ∧ ev ≠ 1800 ∧ 1 ≤ n ∧ n ≤ 1024 ∧ tget 0 s.mon.cnt.value c = 2 ^ 48 - 1 ∧ bitAt w 60 = true :=
  ⟨upCnt { ctl := [(415, cntCtl 0x209 101 + 2 ^ 60)], value := [(415, 2 ^ 48 - 1)] }, 415, cntCtl 0x209 101 + 2 ^ 60, 0x209, 101, 1, by decide +kernel⟩
theorem test_CountersReadAndTraced_3 : ∃ (s : State) (c : Nat) (w : Nat) (ev : Nat) (inst : Nat) (n : Nat), s.mon.cnt.ctl = [(c, w)] ∧ counts c w ev inst = true ∧ ev ≠ 2307 ∧ ev ≠ 1800 ∧ 1 ≤ n ∧ n ≤ 1024 ∧ tget 0 s.mon.cnt.value c + n < 2 ^ 48 :=
  ⟨upCnt { ctl := [(415, cntCtl 0x209 101)], value := [(415, 2 ^ 48 - 1025)] }, 415, cntCtl 0x209 101, 0x209, 101, 1024, by decide +kernel⟩
theorem test_CountersReadAndTraced_4 : ∃ (s : State), coreUp s = true ∧ (List.map (fun x ↦ x.1) s.mon.cnt.ovf).Nodup :=
  ⟨upCnt { ovf := [(3, true), (415, true)] }, by decide +kernel⟩
theorem test_CountersReadAndTraced_5 : ∃ (s : State) (func : Nat) (c : Nat), Reaches s func ∧ c < 544 ∧ s.reg Dict.CNT_GRANT c = func :=
  ⟨upHost.setReg Dict.CNT_GRANT 543 0, 0, 543, by unfold Reaches; decide +kernel⟩
theorem test_CountersReadAndTraced_6 : ∃ (s : State) (func : Nat) (c : Nat), Reaches s func ∧ c < 544 ∧ s.reg Dict.CNT_GRANT c ≠ func :=
  ⟨upHost.setReg Dict.CNT_GRANT 543 7, 0, 543, by unfold Reaches; decide +kernel⟩
theorem test_CountersReadAndTraced_7 : ∃ (c : Nat), c < 544 :=
  ⟨543, by decide +kernel⟩
/-- The running part whose trace area holds 16 rows. -/
def upTrace (c : CntUnit) : State := { upCnt c with host := { units := 8, store := .given, storeAreas := [0, 0, 0, 0, 1024] } }
theorem test_CountersReadAndTraced_8 : ∃ (s : State) (v : Nat), coreUp s = true ∧ v < 2 ^ 32 ∧ traceRows s.host ≠ 0 ∧ v < 2 * traceRows s.host ∧ modSub (2 * traceRows s.host) v s.mon.cnt.traceCons ≤ modSub (2 * traceRows s.host) s.mon.cnt.traceProd s.mon.cnt.traceCons :=
  ⟨upTrace { traceProd := 0, traceCons := 16 }, 0, by decide +kernel⟩
theorem test_CountersReadAndTraced_9 : ∃ (s : State) (v : Nat), coreUp s = true ∧ v < 2 ^ 32 ∧ (traceRows s.host = 0 ∨ 2 * traceRows s.host ≤ v) :=
  ⟨upTrace {}, 32, by decide +kernel⟩

/-! StitchBoundaryAdvances -/
theorem test_StitchBoundaryAdvances_1 : ∃ (s : State), s.pwr.off = true :=
  ⟨upP { pwrAt 6 with off := true }, by decide +kernel⟩
theorem test_StitchBoundaryAdvances_2 : ∃ (s : State), s.pwr.off = false ∧ s.pwr.step < 3 :=
  ⟨upP (pwrAt 2), by decide +kernel⟩
theorem test_StitchBoundaryAdvances_3 : ∃ (s : State), s.pwr.off = false ∧ 3 ≤ s.pwr.step ∧ coreUp s = false :=
  ⟨upP (pwrAt 3), by decide +kernel⟩
theorem test_StitchBoundaryAdvances_4 : ∃ (s : State), coreUp s = true :=
  ⟨up, by decide +kernel⟩

/-! CommandsCompleteOrNameWhatIsMissing -/
theorem test_CommandsCompleteOrNameWhatIsMissing_1 : ∃ (c : Instr), c.wellFormed = true :=
  ⟨.put 1048575, by decide +kernel⟩
theorem test_CommandsCompleteOrNameWhatIsMissing_2 : ∃ (c : Instr), c.wellFormed = false :=
  ⟨.put 1048576, by decide +kernel⟩

/-! LineFormatsReadBack -/
theorem test_LineFormatsReadBack_1 : ∃ (h : Nat) (v : Nat), h < 2 ^ 58 ∧ v < 2 ^ 64 :=
  ⟨2 ^ 58 - 1, 2 ^ 64 - 1, by decide +kernel⟩
theorem test_LineFormatsReadBack_2 : ∃ (stitch : Nat) (psc : Nat) (port : Nat), stitch < 2 ^ 24 ∧ psc < 16 ∧ port < 128 :=
  ⟨2 ^ 24 - 1, 15, 127, by decide +kernel⟩
theorem test_LineFormatsReadBack_3 : ∃ (par : Nat) (port : Nat) (fna : Nat), par < 2 ∧ port < 128 ∧ fna < 2 ^ 18 :=
  ⟨1, 127, 2 ^ 18 - 1, by decide +kernel⟩
theorem test_LineFormatsReadBack_4 : ∃ (ctl : Nat) (body : Nat), ctl < 256 ∧ body < 2 ^ 480 :=
  ⟨255, 2 ^ 480 - 1, by decide +kernel⟩
theorem test_LineFormatsReadBack_5 : ∃ (a : Ackcr), a.ne < 4096 ∧ a.nakId < 16 ∧ a.freed.length = 8 ∧ (∀ n ∈ a.freed, n < 65536) ∧ a.freedBp < 65536 :=
  ⟨{ ne := 4095, nak := true, nakId := 15, freed := List.replicate 8 65535, freedBp := 65535 }, by decide +kernel⟩
theorem test_LineFormatsReadBack_6 : ∃ (num : Nat) (id : Nat), num < 4096 ∧ id < 16 :=
  ⟨4095, 15, by decide +kernel⟩
theorem test_LineFormatsReadBack_7 : ∃ (b : TimeProbe), b.mstitch < 2 ^ 24 ∧ b.t2 < 2 ^ 40 ∧ b.t3 < 2 ^ 40 ∧ b.tstate < 8 ∧ -2147483648 ≤ b.errEst ∧ b.errEst < 2147483648 ∧ b.hops < 256 ∧ b.masterFna < 2 ^ 18 ∧ b.gen < 65536 ∧ b.mstamp < 2 ^ 64 :=
  ⟨{ mstitch := 2 ^ 24 - 1, t2 := 2 ^ 40 - 1, t3 := 2 ^ 40 - 1, tstate := 7, errEst := -2147483648, hops := 255, masterFna := 2 ^ 18 - 1, gen := 65535, mstamp := 2 ^ 64 - 1 }, by decide +kernel⟩
theorem test_LineFormatsReadBack_8 : ∃ (r : HintRec), r.origin < 2 ^ 18 ∧ r.toGroup < 4096 ∧ r.level < 16 ∧ r.stamp < 1024 :=
  ⟨{ origin := 2 ^ 18 - 1, toGroup := 4095, level := 15, stamp := 1023 }, by decide +kernel⟩
theorem test_LineFormatsReadBack_9 : ∃ (r : SigRec), r.label < 65536 ∧ r.event < 256 ∧ r.stitch < 2 ^ 24 :=
  ⟨{ label := 65535, event := 255, stitch := 2 ^ 24 - 1 }, by decide +kernel⟩
theorem test_LineFormatsReadBack_10 : ∃ (sub : Nat) (l : List Nat), sub < 256 ∧ l.length ≤ 7 ∧ (∀ r ∈ l, r < 2 ^ 64) :=
  ⟨255, List.replicate 7 (2 ^ 64 - 1), by decide +kernel⟩
theorem test_LineFormatsReadBack_11 : ∃ (c : CreditSync), c.num < 4096 ∧ c.sent.length = 8 ∧ (∀ n ∈ c.sent, n < 65536) :=
  ⟨{ num := 4095, sent := List.replicate 8 65535 }, by decide +kernel⟩
theorem test_LineFormatsReadBack_12 : ∃ (i : InitBody), i.step < 4 ∧ i.fna < 2 ^ 18 ∧ i.port < 128 ∧ i.limit.length = 8 ∧ (∀ n ∈ i.limit, n < 65536) ∧ i.bpLimit < 65536 ∧ i.version < 65536 :=
  ⟨{ step := 3, fna := 2 ^ 18 - 1, port := 127, limit := List.replicate 8 65535, bpLimit := 65535, version := 65535 }, by decide +kernel⟩

/-! PacketsReadBack -/
theorem test_PacketsReadBack_1 : ∃ (p : Packet), p.hv < 4 ∧ p.pcls < 4 ∧ p.vc < 8 ∧ p.epoch < 2 ∧ p.intg < 4096 ∧ p.dfna < 2 ^ 18 ∧ p.sfna < 2 ^ 18 ∧ p.dep < 65536 ∧ p.sep < 65536 ∧ p.opc < 256 ∧ p.age < 1024 ∧ p.payload.length = p.len ∧ p.pcls ≠ 0 ∧ p.psn < 2 ^ 24 ∧ p.len < 8192 ∧ p.fhash < 65536 ∧ p.peerctx < 2 ^ 20 ∧ p.oph.length ≤ 7 ∧ (∀ w ∈ p.oph, w < 2 ^ 64) ∧ p.icrc < 2 ^ 32 :=
  ⟨{ hv := 3, pcls := 3, vc := 7, epoch := 1, intg := 4095, dfna := 2 ^ 18 - 1, sfna := 2 ^ 18 - 1, dep := 65535, sep := 65535, opc := 255, psn := 2 ^ 24 - 1, len := 3, age := 1023, fhash := 65535, peerctx := 2 ^ 20 - 1, oph := List.replicate 7 (2 ^ 64 - 1), payload := [1, 2, 3], icrc := 2 ^ 32 - 1 }, by decide +kernel⟩
theorem test_PacketsReadBack_2 : ∃ (p : Packet) (h : Nat), p.hv < 4 ∧ p.pcls < 4 ∧ p.vc < 8 ∧ p.epoch < 2 ∧ p.intg < 4096 ∧ p.dfna < 2 ^ 18 ∧ p.sfna < 2 ^ 18 ∧ p.dep < 65536 ∧ p.sep < 65536 ∧ p.opc < 256 ∧ p.age < 1024 ∧ p.payload.length = p.len ∧ p.pcls = 0 ∧ p.len ≤ 44 ∧ h < 256 ∧ p.fhash = h * 257 ∧ p.psn = 0 ∧ p.peerctx = 0 ∧ p.oph = [] ∧ p.icrc = 0 :=
  ⟨{ pcls := 0, len := 44, payload := List.replicate 44 7, fhash := 65535 }, 255, by decide +kernel⟩
theorem test_PacketsReadBack_3 : ∃ (h : CollHdr), h.kind < 16 ∧ h.dtype < 16 ∧ h.op < 16 ∧ h.tree < 2 ∧ h.count < 256 ∧ h.gid < 2 ^ 24 ∧ h.bnum < 2 ^ 32 ∧ h.aux < 2 ^ 24 :=
  ⟨{ kind := 15, dtype := 15, op := 15, tree := 1, lastb := true, void := true, replay := true, count := 255, gid := 2 ^ 24 - 1, bnum := 2 ^ 32 - 1, aux := 2 ^ 24 - 1 }, by decide +kernel⟩
theorem test_PacketsReadBack_4 : ∃ (a : Ack), a.kind < 4 ∧ a.type < 8 ∧ a.inc < 16 ∧ a.cum < 2 ^ 24 ∧ a.sack < 2 ^ 64 ∧ a.acked < 256 ∧ a.ce < 256 ∧ a.hint < 2 ^ 20 ∧ a.epsn < 2 ^ 24 ∧ a.estatus < 256 ∧ a.ereason < 256 ∧ a.backoff < 4096 :=
  ⟨{ kind := 3, type := 7, inc := 15, cv := true, cum := 2 ^ 24 - 1, sack := 2 ^ 64 - 1, acked := 255, ce := 255, hint := 2 ^ 20 - 1, epsn := 2 ^ 24 - 1, estatus := 255, ereason := 255, backoff := 4095 }, by decide +kernel⟩

/-! MastersStayLocked -/
theorem test_MastersStayLocked_1 : ∃ (s : State) (t : State), MastersLocked s ∧ step s = Host.Outcome.next t :=
  ⟨{ (upT { role := .master, st := .locked }) with pending := [.timeNoSyncLimit, .timeInLost] }, _, by unfold MastersLocked; decide +kernel, rfl⟩

/-! QueueKeptAndRunsOn -/
theorem test_QueueKeptAndRunsOn_1 : ∃ (s : State) (t : State), step s = Host.Outcome.next t :=
  ⟨{ up with pending := [.timeNoSyncLimit, .timeInLost] }, _, rfl⟩
theorem test_QueueKeptAndRunsOn_2 : ∃ (s : State) (t : State), s.queueWellFormed = true ∧ step s = Host.Outcome.next t :=
  ⟨{ up with pending := [.timeNoSyncLimit, .timeInLost] }, _, by decide +kernel, rfl⟩
theorem test_QueueKeptAndRunsOn_3 : ∃ (s : State), s.queueWellFormed = true :=
  ⟨{ up with pending := [.timeNoSyncLimit, .put 1048575] }, by decide +kernel⟩

/-! StagingAndAttestation -/
theorem test_StagingAndAttestation_13 : ∃ (s : State) (c : Nat) (rest : List Nat), s.sec.checks = c :: rest ∧ s.sec.stage = StageSt.receiving ∧ chunkGood s.sec.staging c = true :=
  ⟨upSec { stage := .receiving, checks := [32, 33], staging := [(28, shakeNat (chunkBytes [] 32) 32 * 256 ^ 32)] }, 32, [33], by exact ⟨rfl, rfl, chunk_good⟩⟩
theorem test_StagingAndAttestation_14 : ∃ (s : State) (c : Nat) (rest : List Nat), s.sec.checks = c :: rest ∧ s.sec.stage = StageSt.receiving ∧ chunkGood s.sec.staging c = false :=
  chunk_bad.elim fun x h => ⟨upSec { stage := .receiving, checks := [32, 33], staging := [(28, x * 256 ^ 32)] }, 32, [33], rfl, rfl, h.2⟩
theorem test_BootRunsAndFirmwareStarts_3 (f : FusesFit) : ∃ (s : State) (c : Commit), 3 ≤ s.pwr.step ∧ s.pwr.step < 6 ∧ s.pwr.off = false ∧ s.mon.fault.fatal = false ∧ s.sec.stage ≠ StageSt.complete ∧ commitOf s.sec = some c ∧ c.copying = false ∧ c.digest = setDigest s.sec.active ∧ setVerifies s s.sec.active = true ∧ s.sec.formatTag = mfDictFormat s.sec.active :=
  (⟨_, rfl⟩ : ∃ d, d = setDigest goodSet).elim fun d hd =>
  ⟨{ upP (pwrAt 3) with sec := { active := goodSet, formatTag := 7, commitA := packCommit { digest := d } } }, { digest := d }, (by decide : 3 ≤ 3), (by decide : 3 < 6),
    rfl, rfl, by simp, commitD (hd ▸ digest_lt _) _ rfl rfl, rfl, hd, goodSet_verifies f rfl, (by decide +kernel : 7 = mfDictFormat goodSet)⟩
theorem test_BootRunsAndFirmwareStarts_6 (f : FusesFit) : ∃ (s : State), 3 ≤ s.pwr.step ∧ s.pwr.step < 6 ∧ s.pwr.off = false ∧ s.mon.fault.fatal = false ∧ s.sec.stage = StageSt.complete ∧ (∀ (c : Commit), commitOf s.sec = some c → c.copying = false) ∧ setVerifies s s.sec.staging = true :=
  ⟨{ upP (pwrAt 4) with sec := { stage := .complete, staging := goodSet, commitA := packCommit { digest := 5 } } }, by decide +kernel, by decide +kernel, rfl, rfl, rfl, stable5, goodSet_verifies f rfl⟩
theorem test_StagingAndAttestation_3 (f : FusesFit) : ∃ (s : State), stagingServed s = true ∧ s.pwr.off = false ∧ s.sec.stage = StageSt.manifest ∧ manifestReason s s.sec.staging = 0 :=
  ⟨upSec { stage := .manifest, staging := goodSet }, by decide +kernel, rfl, rfl, goodSet_manifest f rfl⟩

end Sys2Proof.Tests
end

section
/-!
The part after reset (O55), and its way from there into service (O51): the boot ROM's run, with the staged set's copy and the active
set's judgement, and the start of the firmware.
-/
namespace Sys2Proof.Machine

/-! ### Reset (R5, R9, R25, R87, R129, R244, R475) -/

/-- After reset no row of an object has been written. -/
theorem reset_reg (o : Obj) (row : Nat) : State.reset.reg o row = rowDefault o row := rfl

/-- After reset every port is Off and Down, every module in Reset. -/
theorem reset_ports_idle :
    (∀ p, (State.reset.lane p).st = .off ∧ (State.reset.link p).st = .down) ∧ ∀ m, (State.reset.module m).st = .reset :=
  ⟨fun _ => ⟨rfl, rfl⟩, fun _ => rfl⟩

/-- After reset no queue, last, semaphore, group, context or responder is in use. -/
theorem reset_units_idle :
    (∀ g, (State.reset.queue g).st = .reset) ∧ (∀ k, (State.reset.last k).st = .empty) ∧
    (∀ n, (semOf State.reset n).st = .free ∧ (semOf State.reset n).owner = none) ∧ (∀ r, (State.reset.collRow r).st = .idle) ∧
    ∀ k, (State.reset.reqCtx k).st = .free ∧ (State.reset.respCtx k).live = false :=
  ⟨fun _ => rfl, fun _ => rfl, fun _ => ⟨rfl, rfl⟩, fun _ => rfl, fun _ => ⟨rfl, rfl⟩⟩

/-- After reset start-up has not reached step 6. -/
theorem reset_core_down : coreUp State.reset = false := by
  have h : ¬ 6 ≤ State.reset.pwr.step := by decide
  simp [coreUp, h]

/-- Settles O55: the register table, the units' tables and the queue of commands are empty after reset, and every field stands at its
reset value. -/
theorem resetLeavesNothingRunning : Obligations.ResetLeavesNothingRunning := by
  obtain ⟨hports, hmodules⟩ := reset_ports_idle
  obtain ⟨hqueues, hlasts, hsems, hgroups, hctx⟩ := reset_units_idle
  exact ⟨reset_reg, rfl, rfl, rfl, rfl, hports, hmodules, hqueues, hlasts, hsems, hgroups, hctx, rfl, rfl, rfl, rfl, rfl, rfl,
    reset_core_down, rfl, rfl⟩

/-! ### Tables: filtering, joining and merging -/

section
variable {α : Type}

/-- A table with another one behind it reads as the first, and where that lists no cell as the second. -/
theorem tget_append (d : α) (a b : Tbl α) (k : Nat) : tget d (a ++ b) k = tget (tget d b k) a k := by
  induction a with
  | nil => rfl
  | cons c a ih => simp only [List.cons_append, tget, ih]

/-- A filter that lets every cell of a key through leaves what it reads. -/
theorem tget_filter_kept (d : α) (t : Tbl α) (p : Nat × α → Bool) (k : Nat) (h : ∀ v, p (k, v) = true) :
    tget d (t.filter p) k = tget d t k := by
  induction t with
  | nil => rfl
  | cons c t ih =>
    obtain ⟨k0, v0⟩ := c
    by_cases hk : k = k0
    · subst hk; simp [h, tget]
    · by_cases hp : p (k0, v0) = true <;> simp [hp, tget, hk, ih]

/-- A filter that stops every cell of a key leaves it at the default. -/
theorem tget_filter_dropped (d : α) (t : Tbl α) (p : Nat × α → Bool) (k : Nat) (h : ∀ v, p (k, v) = false) :
    tget d (t.filter p) k = d := by
  induction t with
  | nil => rfl
  | cons c t ih =>
    obtain ⟨k0, v0⟩ := c
    by_cases hk : k = k0
    · subst hk; simp [h, ih]
    · by_cases hp : p (k0, v0) = true <;> simp [hp, tget, hk, ih]

/-- One cell written into a table, as the restoration of the dictionary writes it (R9). -/
def mergeCell (t : Tbl α) (c : Nat × α) : Tbl α := (t.filter fun d => d.1 < c.1) ++ [c] ++ (t.filter fun d => c.1 < d.1)

/-- The merged cell is read at its key, and every other key as before. -/
theorem tget_mergeCell (d : α) (t : Tbl α) (c : Nat × α) (k : Nat) : tget d (mergeCell t c) k = if k = c.1 then c.2 else tget d t k := by
  obtain ⟨k0, v0⟩ := c
  simp only [mergeCell, tget_append, tget]
  rcases Nat.lt_trichotomy k k0 with hk | rfl | hk
  · rw [tget_filter_dropped d t (fun c => k0 < c.1) k (fun _ => by simp; omega),
      tget_filter_kept _ _ _ _ (fun _ => by simpa using hk)]
    simp [Nat.ne_of_lt hk]
  · rw [tget_filter_dropped _ _ _ _ (fun _ => by simp)]
    simp
  · rw [tget_filter_kept d t (fun c => k0 < c.1) k (fun _ => by simpa using hk), if_neg (by omega),
      tget_filter_dropped _ _ _ _ (fun _ => by simp; omega)]

/-- A key that no merged cell has keeps what it read. -/
theorem tget_merge_absent (d : α) (l : List (Nat × α)) (t : Tbl α) (k : Nat) (h : ∀ v, (k, v) ∉ l) :
    tget d (l.foldl mergeCell t) k = tget d t k := by
  induction l generalizing t with
  | nil => rfl
  | cons c l ih =>
    have hk : k ≠ c.1 := fun e => h c.2 (by simp [e])
    rw [List.foldl_cons, ih _ fun v hv => h v (List.mem_cons_of_mem _ hv), tget_mergeCell, if_neg hk]

/-- A merged cell is read at its key, where no two cells share one. -/
theorem tget_merge_listed (d : α) (l : List (Nat × α)) (t : Tbl α) {k : Nat} {v : α} (hl : (l.map (·.1)).Nodup) (h : (k, v) ∈ l) :
    tget d (l.foldl mergeCell t) k = v := by
  induction l generalizing t with
  | nil => simp at h
  | cons c l ih =>
    obtain ⟨hc, hl⟩ := List.nodup_cons.mp hl
    rw [List.foldl_cons]
    rcases List.mem_cons.mp h with rfl | h
    · rw [tget_merge_absent _ _ _ _ fun w hw => hc (List.mem_map.mpr ⟨_, hw, rfl⟩), tget_mergeCell, if_pos rfl]
    · exact ih _ hl h

/-- A table filled for the keys below a bound. -/
theorem tget_foldl_tset [DecidableEq α] (d : α) (f : Nat → α) (n k : Nat) :
    tget d ((List.range n).foldl (fun t i => tset d t i (f i)) []) k = if k < n then f k else d := by
  induction n with
  | zero => rfl
  | succ n ih =>
    rw [List.range_succ, List.foldl_append, List.foldl_cons, List.foldl_nil, tget_tset, ih]
    by_cases hk : k = n
    · simp [hk]
    · simp only [hk, if_false]; congr 1; simp; omega
end

/-! ### What signalling a fault or an event leaves -/

/-- A claim source's targets among the cores. -/
theorem claimFire_targetsK (c : ClaimUnit) (n k : Nat) : (tget {} (claimFire c n).rows k).targetsK = (tget {} c.rows k).targetsK := by
  by_cases hk : k = n
  · subst hk
    unfold claimFire
    split
    · rfl
    · rw [tget_tupd_self]; split <;> rfl
  · rw [claimFire_other _ hk]

/-- Between two states of the watching units faults were raised, events counted and sources fired, and nothing else was done: of the fault
unit the raises' own books have changed, no raise that waits being lost, and every source has its targets. -/
structure SignalsOnly (m m' : Mon) : Prop where
  fault : m'.fault = { m.fault with
    queue := m'.fault.queue, stamps := m'.fault.stamps, suppressed := m'.fault.suppressed, lostRaises := m'.fault.lostRaises }
  queued : ∀ r ∈ m.fault.queue, r ∈ m'.fault.queue
  targetsK : ∀ n, (tget {} m'.claim.rows n).targetsK = (tget {} m.claim.rows n).targetsK

namespace SignalsOnly

theorem refl (m : Mon) : SignalsOnly m m := ⟨rfl, fun _ h => h, fun _ => rfl⟩

theorem trans {a b c : Mon} (h : SignalsOnly a b) (g : SignalsOnly b c) : SignalsOnly a c :=
  ⟨by rw [g.fault, h.fault], fun r hr => g.queued r (h.queued r hr), fun n => (g.targetsK n).trans (h.targetsK n)⟩

/-- A step that leaves the fault unit alone. -/
theorem of_fault {m m' : Mon} (hf : m'.fault = m.fault) (hk : ∀ n, (tget {} m'.claim.rows n).targetsK = (tget {} m.claim.rows n).targetsK) :
    SignalsOnly m m' := ⟨by rw [hf], by rw [hf]; exact fun _ h => h, hk⟩

theorem fireQuiet (m : Mon) (n : Nat) : SignalsOnly m (m.fireQuiet n) := by
  refine of_fault (by simp) fun k => ?_
  unfold Mon.fireQuiet
  split
  · rfl
  · exact claimFire_targetsK _ _ _

theorem evregWritten (m : Mon) (t : Tbl Nat) : SignalsOnly m { m with evreg := t } := of_fault rfl fun _ => rfl

theorem counterIrq (m : Mon) (regs : Tbl Nat) : SignalsOnly m (m.counterIrq regs) := by
  unfold Mon.counterIrq
  split
  · exact refl m
  · dsimp only
    split
    · refine trans ?_ (fireQuiet _ _)
      exact evregWritten _ _
    · exact evregWritten _ _

theorem count (m : Mon) (regs : Tbl Nat) (ev inst n : Nat) : SignalsOnly m (m.count regs ev inst n) := by
  have hc : SignalsOnly m { m with cnt := (countIn m.cnt ev inst n).1 } := of_fault rfl fun _ => rfl
  unfold Mon.count
  dsimp only
  split
  · exact hc.trans (counterIrq _ _)
  · exact hc

theorem fire (m : Mon) (regs : Tbl Nat) (n : Nat) : SignalsOnly m (m.fire regs n) := by
  have hc : SignalsOnly m { m with claim := claimFire m.claim n } := of_fault rfl (claimFire_targetsK _ _)
  unfold Mon.fire
  split
  · exact refl m
  · dsimp only
    split
    · exact hc
    · exact hc.trans (count _ _ _ _ _)

theorem event (m : Mon) (regs : Tbl Nat) (ev : Obj) (row bit : Nat) : SignalsOnly m (m.event regs ev row bit) := by
  unfold Mon.event
  split
  · exact refl m
  · dsimp only
    split
    · refine trans ?_ (fire _ _ _)
      exact evregWritten _ _
    · exact evregWritten _ _

/-- The raises' own books. -/
theorem booksWritten (m : Mon) (q : List Raise) (st su : Tbl Nat) (n : Nat) (h : ∀ r ∈ m.fault.queue, r ∈ q) :
    SignalsOnly m { m with fault := { m.fault with queue := q, stamps := st, suppressed := su, lostRaises := n } } :=
  ⟨rfl, h, fun _ => rfl⟩

theorem enqueue (m : Mon) (regs : Tbl Nat) (r : Raise) : SignalsOnly m (m.enqueue regs r) := by
  unfold Mon.enqueue
  split
  · exact booksWritten m _ _ _ _ fun _ => List.mem_append_left _
  · have hl := booksWritten m _ m.fault.stamps m.fault.suppressed (m.fault.lostRaises + 1) fun _ h => h
    exact (hl.trans (count _ _ _ _ _)).trans (event _ _ _ _ _)

theorem raiseAs (m : Mon) (regs : Tbl Nat) (n : Nat) (r : Raise) : SignalsOnly m (m.raiseAs regs n r) := by
  unfold Mon.raiseAs
  dsimp only
  split
  · refine trans ?_ (count _ _ _ _ _)
    exact booksWritten m _ m.fault.stamps _ m.fault.lostRaises fun _ h => h
  · have hs : SignalsOnly m { m with fault := if limitPeriod r.code n = 0 then m.fault else
        { m.fault with stamps := tset 0 m.fault.stamps (limitKey r.code r.scope r.inst) (limitPeriod r.code n) } } := by
      split
      · exact refl m
      · exact booksWritten m _ _ m.fault.suppressed m.fault.lostRaises fun _ h => h
    split
    · exact (hs.trans (enqueue _ _ _)).trans (fire _ _ _)
    · exact hs.trans (enqueue _ _ _)

theorem raise (m : Mon) (regs : Tbl Nat) (n code scope inst detail : Nat) : SignalsOnly m (m.raise regs n code scope inst detail) :=
  raiseAs _ _ _ _

section
variable {m m' : Mon} (h : SignalsOnly m m')
include h

theorem isolateN : m'.fault.isolateN = m.fault.isolateN := by rw [h.fault]
theorem isolated : m'.fault.isolated = m.fault.isolated := by rw [h.fault]
theorem supplyReset : m'.fault.supplyReset = m.fault.supplyReset := by rw [h.fault]
theorem cause : m'.fault.cause = m.fault.cause := by rw [h.fault]
end

end SignalsOnly

/-! ### Commit records read back (R502) -/

theorem crcBits16_lt (poly v n : Nat) (hp : poly < 2 ^ 16) : ∀ reg, reg < 2 ^ 16 → crcBits 16 poly reg v n < 2 ^ 16 := by
  induction n with
  | zero => exact fun _ h => h
  | succ n ih => exact fun reg _ => ih _ (Nat.xor_lt_two_pow (Nat.mod_lt _ (by decide)) (by split <;> omega))

theorem crc16_lt (v : Nat) : crc16 v < 65536 := crcBits16_lt _ _ _ (by decide) _ (by decide)

/-- The fields of a record fit their bits. -/
structure Commit.Fits (c : Commit) : Prop where
  next : c.next < 2 ^ 16
  upTo : c.upTo < 2 ^ 16
  svn : c.svn < 2 ^ 32
  seq : c.seq < 2 ^ 32
  digest : c.digest < 2 ^ 128

/-- The fields of a record as they stand above its CHECK, one after another (R502). -/
def Commit.body (c : Commit) : Nat :=
  ((((b2n c.copying * 2 ^ 28 + c.next) * 2 ^ 16 + c.upTo) * 2 ^ 32 + c.svn) * 2 ^ 32 + c.seq) * 2 ^ 128 + c.digest

/-- A record is its fields with the CHECK under them. -/
theorem packCommit_eq {c : Commit} (h : c.Fits) : packCommit c = c.body * 2 ^ 16 + crc16 c.body := by
  obtain ⟨hn, hu, hv, hs, hd⟩ := h
  have hb : b2n c.copying < 2 ^ 4 := by cases c.copying <;> decide
  have hput : ∀ v hi lo, v < 2 ^ (hi + 1 - lo) → put v hi lo = v * 2 ^ lo := fun v hi lo hv => by
    rw [put, Nat.mod_eq_of_lt hv, Nat.shiftLeft_eq]
  have e : put (b2n c.copying) 255 252 + put c.next 239 224 + put c.upTo 223 208 + put c.svn 207 176 + put c.seq 175 144 +
      put c.digest 143 16 = c.body * 2 ^ 16 := by
    rw [hput _ _ _ hb, hput _ _ _ hn, hput _ _ _ hu, hput _ _ _ hv, hput _ _ _ hs, hput _ _ _ hd, Commit.body]
    omega
  have hdiv : c.body * 2 ^ 16 / 65536 = c.body := by omega
  rw [packCommit, e, hdiv]

/-- A field above the low part of a number is the field of the upper part. -/
theorem fld_above (a x : Nat) {k hi lo : Nat} (hx : x < 2 ^ k) (hk : k ≤ lo) (hl : lo ≤ hi) :
    fld (a * 2 ^ k + x) hi lo = fld a (hi - k) (lo - k) := by
  have hs : (a * 2 ^ k + x) >>> k = a := by
    rw [Nat.shiftRight_eq_div_pow, Nat.mul_comm, Nat.mul_add_div (Nat.two_pow_pos k), Nat.div_eq_of_lt hx, Nat.add_zero]
  rw [fld, fld, show lo = k + (lo - k) by omega, Nat.shiftRight_add, hs, show hi + 1 - (k + (lo - k)) = hi - k + 1 - (lo - k) by omega,
    Nat.add_sub_cancel_left]

/-- The low part of a number. -/
theorem fld_low (a x : Nat) {k hi : Nat} (hx : x < 2 ^ k) (hk : k = hi + 1) : fld (a * 2 ^ k + x) hi 0 = x := by
  subst hk
  rw [fld, Nat.shiftRight_zero, Nat.sub_zero, Nat.mul_comm, Nat.mul_add_mod, Nat.mod_eq_of_lt hx]

/-- A record whose fields fit reads back. -/
theorem readCommit_packCommit {c : Commit} (h : c.Fits) : readCommit (packCommit c) = some c := by
  have hcrc : crc16 c.body < 2 ^ 16 := crc16_lt _
  have hcheck : crc16 (packCommit c / 65536) = packCommit c % 65536 := by
    rw [packCommit_eq h]
    have hdiv : (c.body * 2 ^ 16 + crc16 c.body) / 65536 = c.body := by omega
    have hmod : (c.body * 2 ^ 16 + crc16 c.body) % 65536 = crc16 c.body := by omega
    rw [hdiv, hmod]
  have hab : ∀ hi lo, 16 ≤ lo → lo ≤ hi → fld (packCommit c) hi lo = fld c.body (hi - 16) (lo - 16) := fun hi lo h1 h2 => by
    rw [packCommit_eq h, fld_above _ _ hcrc h1 h2]
  obtain ⟨hn, hu, hv, hs, hd⟩ := h
  have hb : b2n c.copying < 2 := by cases c.copying <;> decide
  have hlow : fld c.body 127 0 = c.digest ∧ fld c.body 159 128 = c.seq ∧ fld c.body 191 160 = c.svn ∧ fld c.body 207 192 = c.upTo := by
    simp (disch := omega) only [Commit.body, fld_above, fld_low, Nat.reduceSub, and_self]
  obtain ⟨hdig, hseq, hsvn, hup⟩ := hlow
  have htop : fld c.body 223 208 = c.next ∧ fld c.body 239 236 = b2n c.copying := by
    simp (disch := omega) only [Commit.body, fld_above, Nat.reduceSub]
    simp only [fld, Nat.shiftRight_eq_div_pow]
    omega
  have hcop : decide (b2n c.copying = 1) = c.copying := by cases c.copying <;> decide
  rw [readCommit, if_pos hcheck, hab _ _ (by decide) (by decide), hab _ _ (by decide) (by decide), hab _ _ (by decide) (by decide),
    hab _ _ (by decide) (by decide), hab _ _ (by decide) (by decide), hab _ _ (by decide) (by decide)]
  simp only [Nat.reduceSub, hdig, hseq, hsvn, hup, htop, hcop]

/-- A number is not later than the one after it. -/
theorem serialGt_succ (n : Nat) : serialGt 32 n ((n + 1) % 2 ^ 32) = false ∧ serialGt 32 ((n + 1) % 2 ^ 32) n = true := by
  constructor <;> simp [serialGt] <;> omega

/-- The copy that holds the record in force reads as it, and where none is in force neither copy reads (R502). -/
theorem commitInB_cases (u : SecUnit) :
    (commitInB u = none ∧ readCommit u.commitB = none) ∨ (∃ old, commitInB u = some (false, old) ∧ readCommit u.commitA = some old) ∨
    ∃ old, commitInB u = some (true, old) ∧ readCommit u.commitB = some old := by
  unfold commitInB
  cases ha : readCommit u.commitA with
  | none => cases hb : readCommit u.commitB <;> simp
  | some a =>
    cases hb : readCommit u.commitB with
    | none => simp
    | some b => by_cases hs : serialGt 32 b.seq a.seq = true <;> simp [hs]

/-- The record written is the one in force, with the next SEQ (R502). -/
theorem commitOf_writeCommit (u : SecUnit) {c : Commit} (h : c.Fits) : ∃ n, commitOf (writeCommit u c) = some { c with seq := n } := by
  have back : ∀ n, n < 2 ^ 32 → readCommit (packCommit { c with seq := n }) = some { c with seq := n } := fun n hn =>
    readCommit_packCommit ⟨h.next, h.upTo, h.svn, hn, h.digest⟩
  have backSucc : ∀ n, readCommit (packCommit { c with seq := (n + 1) % 2 ^ 32 }) = some { c with seq := (n + 1) % 2 ^ 32 } := fun n =>
    back _ (Nat.mod_lt _ (by decide))
  obtain ⟨hc, hb⟩ | ⟨old, hc, ha⟩ | ⟨old, hc, hb⟩ := commitInB_cases u
  · refine ⟨1, ?_⟩
    have w : writeCommit u c = { u with commitA := packCommit { c with seq := 1 } } := by simp only [writeCommit, hc]
    simp only [commitOf, w, commitInB, back 1 (by decide), hb, Option.map_some]
  · refine ⟨(old.seq + 1) % 2 ^ 32, ?_⟩
    have w : writeCommit u c = { u with commitB := packCommit { c with seq := (old.seq + 1) % 2 ^ 32 } } := by simp only [writeCommit, hc]
    simp only [commitOf, w, commitInB, backSucc, ha, (serialGt_succ _).2, if_true, Option.map_some]
  · refine ⟨(old.seq + 1) % 2 ^ 32, ?_⟩
    have w : writeCommit u c = { u with commitA := packCommit { c with seq := (old.seq + 1) % 2 ^ 32 } } := by simp only [writeCommit, hc]
    simp only [commitOf, w, commitInB, backSucc, hb, (serialGt_succ _).1, Bool.false_eq_true, if_false, Option.map_some]

/-! ### What a set's checks rest on (R495, R504, R508) -/

section
variable {s s' : State} (h : s'.regs = s.regs)
include h

theorem reg_of_regs (o : Obj) (row : Nat) : s'.reg o row = s.reg o row := by simp only [State.reg, h]

theorem enrolled_of_regs : enrolled s' = enrolled s := by unfold enrolled; rw [reg_of_regs h]

theorem ownerKey_of_regs : ownerKey s' = ownerKey s := by unfold ownerKey; rw [reg_of_regs h]

/-- A manifest's checks look at nothing of the device but its written objects. -/
theorem manifestReason_of_regs (t : Tbl Nat) : manifestReason s' t = manifestReason s t := by
  have hown : ownerPartOk s' = ownerPartOk s := by
    funext p; simp only [ownerPartOk, enrolled_of_regs h, ownerKey_of_regs h]
  have htab : tableOk s' t = tableOk s t := by simp only [tableOk, hown]
  simp only [manifestReason, htab, enrolled_of_regs h, ownerKey_of_regs h, reg_of_regs h]

/-- Nor do a set's. -/
theorem setVerifies_of_regs (t : Tbl Nat) : setVerifies s' t = setVerifies s t := by
  have hown : ownerImageOk s' = ownerImageOk s := by
    funext b; simp only [ownerImageOk, enrolled_of_regs h, ownerKey_of_regs h]
  simp only [setVerifies, manifestReason_of_regs h, hown]
end

/-- A manifest that passes has a part table that passes, and at most 3,040 chunks. -/
theorem manifest_passes {s : State} {t : Tbl Nat} (h : manifestReason s t = 0) : tableOk s t = true ∧ mfChunks t ≤ 3040 := by
  unfold manifestReason at h
  split at h
  · cases h
  · rename_i hbound
    repeat' (split at h; · cases h)
    rename_i htab
    exact ⟨by simpa using htab, by omega⟩

/-! ### Copying a set (R502, R503) -/

/-- The chunks of a verified set end past the manifest's 32 and within the area. -/
theorem mfEnd_bounds {s : State} {t : Tbl Nat} (h : setVerifies s t = true) : 32 ≤ mfEnd t ∧ mfEnd t ≤ 3072 := by
  have hfold : ∀ (l : List FwPart) (e : Nat), e ≤ 3072 → (∀ p ∈ l, p.first + p.chunks ≤ 3072) →
      e ≤ l.foldl (fun e p => max e (p.first + p.chunks)) e ∧ l.foldl (fun e p => max e (p.first + p.chunks)) e ≤ 3072 := by
    intro l
    induction l with
    | nil => exact fun e he _ => ⟨Nat.le_refl e, he⟩
    | cons p l ih =>
      intro e he hl
      have hp := hl p (by simp)
      obtain ⟨h1, h2⟩ := ih (max e (p.first + p.chunks)) (by omega) fun q hq => hl q (by simp [hq])
      exact ⟨Nat.le_trans (Nat.le_max_left _ _) h1, h2⟩
  have hm : manifestReason s t = 0 := by
    simp only [setVerifies, Bool.and_eq_true, decide_eq_true_eq] at h
    obtain ⟨⟨⟨hm, _⟩, _⟩, _⟩ := h
    exact hm
  obtain ⟨htab, hch⟩ := manifest_passes hm
  refine hfold (partsOf t) 32 (by decide) fun p hp => ?_
  simp only [tableOk, Bool.and_eq_true, List.all_eq_true, decide_eq_true_eq] at htab
  obtain ⟨⟨_, hfit⟩, _⟩ := htab
  obtain ⟨⟨_, hend⟩, _⟩ := hfit p hp
  omega

theorem shakeNat_lt (m : List Byte) (n : Nat) : shakeNat m n < 256 ^ n := by
  have hlen : (shake256 m n).length ≤ n := by simp only [shake256, List.length_take]; exact Nat.min_le_left _ _
  exact Nat.lt_of_lt_of_le (natBE_lt _) (Nat.pow_le_pow_right (by decide) hlen)

/-- The record that starts the copy of a set (R502). -/
def copyRecord (t : Tbl Nat) : Commit := { copying := true, next := 0, upTo := mfEnd t, svn := mfSvn t, digest := setDigest t }

theorem copyRecord_fits {s : State} {t : Tbl Nat} (h : setVerifies s t = true) : (copyRecord t).Fits := by
  obtain ⟨-, hend⟩ := mfEnd_bounds h
  have hdigest : setDigest t < 256 ^ 16 := shakeNat_lt _ _
  exact {
    next := Nat.two_pow_pos 16
    upTo := Nat.lt_of_le_of_lt hend (by decide)
    svn := Nat.mod_lt _ (by decide)
    seq := Nat.two_pow_pos 32
    digest := Nat.lt_of_lt_of_le hdigest (by decide) }

@[simp] theorem writeCommit_staging (u : SecUnit) (c : Commit) : (writeCommit u c).staging = u.staging := by
  unfold writeCommit; split <;> rfl

@[simp] theorem writeCommit_active (u : SecUnit) (c : Commit) : (writeCommit u c).active = u.active := by
  unfold writeCommit; split <;> rfl

theorem chunkAfter_gt (t : Tbl Nat) (c : Nat) : c < chunkAfter t c := by
  unfold chunkAfter
  split <;> omega

/-- A copy that is let run for as many chunks as are left reaches END. -/
theorem copyRun_reaches_end (n : Nat) (u : SecUnit) (c : Commit) (h : c.upTo ≤ c.next + n) : (copyRun n u c).2 = true := by
  induction n generalizing u c with
  | zero => simpa [copyRun] using h
  | succ n ih =>
    unfold copyRun
    split
    · rfl
    · have := chunkAfter_gt u.staging c.next
      exact ih _ _ (by show c.upTo ≤ chunkAfter u.staging c.next + n; omega)

/-- A copy leaves the staged set. -/
theorem copyRun_staging (n : Nat) (u : SecUnit) (c : Commit) : (copyRun n u c).1.staging = u.staging := by
  induction n generalizing u c with
  | zero => rfl
  | succ n ih =>
    unfold copyRun
    split
    · rfl
    · dsimp only
      rw [ih, writeCommit_staging]
      rfl

/-! ### The end of a copy (R500, R503) -/

/-- Between two states neither the boot unit nor the floor under the set's version has changed. -/
def FloorKept (s t : State) : Prop := t.sec = s.sec ∧ t.reg Dict.SEC_MIN_SVN = s.reg Dict.SEC_MIN_SVN

/-- A write of another object keeps the floor. -/
theorem FloorKept.setReg {s t : State} (h : FloorKept s t) {o : Obj} {row : Nat} (v : Nat)
    (hk : regKey Dict.SEC_MIN_SVN 0 ≠ regKey o row) : FloorKept s (t.setReg o row v) :=
  ⟨h.1, (reg_setReg_ne t o _ row 0 v hk).trans h.2⟩

/-- So do writes of several rows of another object. -/
theorem FloorKept.setRows {s t : State} (h : FloorKept s t) {o : Obj} {n : Nat} (v : Nat → Nat)
    (hk : ∀ i, i < n → regKey Dict.SEC_MIN_SVN 0 ≠ regKey o i) : FloorKept s (forEach t (List.range n) fun s i => s.setReg o i (v i)) :=
  forEach_keeps (FloorKept s) _ _ _ h fun _ ht i hi => ht.setReg _ (hk i (List.mem_range.mp hi))

/-- The key of a row of an object of range 0x1180 or 0x1181 below the floor's. -/
theorem minSvn_key_ne {o : Obj} {row : Nat} (ho : o.id < Dict.SEC_MIN_SVN.id) (hr : row < 2 ^ 20) :
    regKey Dict.SEC_MIN_SVN 0 ≠ regKey o row := by
  unfold regKey; omega

/-- A protection-map image keeps the floor. -/
theorem applyPmapImage_floor (s : State) (b : List Byte) : FloorKept s (applyPmapImage s b) := by
  unfold applyPmapImage
  have h1 := FloorKept.setReg (s := s) ⟨rfl, rfl⟩ (natBE ((b.drop 0).take 2)) (minSvn_key_ne (o := Dict.PMAP_FORMAT) (row := 0) (by decide) (by decide))
  have h2 := h1.setRows (o := Dict.PMAP_RANGE_RIGHTS) (n := 19) (fun i => natBE ((b.drop (2 + i)).take 1))
    fun i hi => minSvn_key_ne (by decide) (by omega)
  have h3 := h2.setRows (o := Dict.PMAP_MGMT_SOURCES) (n := 16) (fun i => natBE ((b.drop (32 + 8 * i)).take 8))
    fun i hi => minSvn_key_ne (by decide) (by omega)
  exact ((h3.setReg _ (minSvn_key_ne (by decide) (by decide))).setReg _ (minSvn_key_ne (by decide) (by decide))).setReg _
    (minSvn_key_ne (by decide) (by decide))

/-- The protection map of a set's kind 7 part, where it has one (R503, R505). -/
def mapTaken (part : Option FwPart) (t : Tbl Nat) (s : State) : State :=
  match part with
  | some p => applyPmapImage s (chunkBytes t p.first)
  | none => s

/-- The owner of a set's kind 8 part is enrolled, where it has one and none is (R500). -/
def ownerTaken (part : Option FwPart) (t : Tbl Nat) (s : State) : State :=
  match part with
  | some p =>
    if enrolled s then s
    else
      ((s.setReg Dict.SEC_OWNER_KEY 0 (natBE ((chunkBytes t p.first).take 57))).setReg Dict.SEC_OWNER_STATE 0 1).updSec fun u =>
        { u with bootFaults := u.bootFaults ++ [0x1108] }
  | none => s

/-- The floor is raised to the set's, and its Stable record written (R503). -/
def setStable (t : Tbl Nat) (s : State) : State :=
  (s.setReg Dict.SEC_MIN_SVN 0 (max (s.reg Dict.SEC_MIN_SVN) (mfMinSvn t))).updSec fun u =>
    let u1 := writeCommit u { upTo := mfEnd t, next := mfEnd t, svn := mfSvn t, digest := setDigest t }
    { u1 with stage := .idle, bitmap := 0, activated := true, bootFaults := u1.bootFaults ++ [0x1107] }

theorem activate_eq (s : State) :
    activate s = setStable s.sec.active
      (ownerTaken (partOfKind s.sec.active 8) s.sec.active (mapTaken (partOfKind s.sec.active 7) s.sec.active s)) := by
  unfold activate
  dsimp only
  generalize partOfKind s.sec.active 7 = map, partOfKind s.sec.active 8 = owner
  rfl

theorem mapTaken_floor (part : Option FwPart) (t : Tbl Nat) (s : State) : FloorKept s (mapTaken part t s) := by
  cases part with
  | some p => exact applyPmapImage_floor _ _
  | none => exact ⟨rfl, rfl⟩

/-- Enrolling an owner changes neither the staged set nor the floor. -/
theorem ownerTaken_keeps (part : Option FwPart) (t : Tbl Nat) (s : State) :
    (ownerTaken part t s).sec.staging = s.sec.staging ∧ (ownerTaken part t s).reg Dict.SEC_MIN_SVN = s.reg Dict.SEC_MIN_SVN := by
  cases part with
  | some p =>
    unfold ownerTaken
    dsimp only
    split
    · exact ⟨rfl, rfl⟩
    · have hkey := FloorKept.setReg (s := s) ⟨rfl, rfl⟩ (o := Dict.SEC_OWNER_KEY) (row := 0) (natBE ((chunkBytes t p.first).take 57))
        (minSvn_key_ne (by decide) (by decide))
      have hstate := hkey.setReg (o := Dict.SEC_OWNER_STATE) (row := 0) 1 (minSvn_key_ne (by decide) (by decide))
      exact ⟨rfl, hstate.2⟩
  | none => exact ⟨rfl, rfl⟩

/-- The Stable record leaves staging Idle with its bytes, and the floor no lower. -/
theorem setStable_spec (t : Tbl Nat) (s : State) :
    (setStable t s).sec.stage = .idle ∧ (setStable t s).sec.bitmap = 0 ∧ (setStable t s).sec.staging = s.sec.staging ∧
    s.reg Dict.SEC_MIN_SVN ≤ (setStable t s).reg Dict.SEC_MIN_SVN := by
  refine ⟨rfl, rfl, writeCommit_staging _ _, ?_⟩
  rw [setStable, State.updSec_reg, reg_setReg]
  exact Nat.le_max_left _ _

/-- So does the end of a copy (R503). -/
theorem activate_spec (s : State) :
    (activate s).sec.stage = .idle ∧ (activate s).sec.bitmap = 0 ∧ (activate s).sec.staging = s.sec.staging ∧
    s.reg Dict.SEC_MIN_SVN ≤ (activate s).reg Dict.SEC_MIN_SVN := by
  rw [activate_eq]
  generalize partOfKind s.sec.active 7 = map, partOfKind s.sec.active 8 = owner
  obtain ⟨hmap, hmapFloor⟩ := mapTaken_floor map s.sec.active s
  obtain ⟨hstaging, hfloor⟩ := ownerTaken_keeps owner s.sec.active (mapTaken map s.sec.active s)
  obtain ⟨hstage, hbitmap, hstable, hraised⟩ := setStable_spec s.sec.active (ownerTaken owner s.sec.active (mapTaken map s.sec.active s))
  exact ⟨hstage, hbitmap, by rw [hstable, hstaging, hmap], by rw [← hmapFloor, ← hfloor]; exact hraised⟩

/-! ### What the boot ROM's ends do (R494, R497) -/

/-- Logging the faults of boot changes only the watching units, and empties their list. -/
theorem logBootFaults_eq (s : State) :
    logBootFaults s = { s with mon := (logBootFaults s).mon, sec := { s.sec with bootFaults := [] } } := by
  have hloop := forEach_keeps (fun t => t = { s with mon := t.mon, sec := { s.sec with bootFaults := [] } }) s.sec.bootFaults
    (fun s code => { s with mon := s.mon.raiseAs s.regs s.time.count { code := code, cls := faultClass code } })
    (s.updSec fun u => { u with bootFaults := [] }) rfl (fun t ht _ _ => by rw [ht])
  unfold logBootFaults
  dsimp only
  split
  · rw [hloop]; rfl
  · exact hloop

/-- It raises them, and does no more to the watching units. -/
theorem logBootFaults_signals (s : State) : SignalsOnly s.mon (logBootFaults s).mon := by
  have hloop := forEach_keeps (fun t => SignalsOnly s.mon t.mon) s.sec.bootFaults
    (fun s code => { s with mon := s.mon.raiseAs s.regs s.time.count { code := code, cls := faultClass code } })
    (s.updSec fun u => { u with bootFaults := [] }) (SignalsOnly.refl _) (fun t ht _ _ => ht.trans (SignalsOnly.raiseAs _ _ _ _))
  unfold logBootFaults
  dsimp only
  split
  · exact hloop.trans (SignalsOnly.event _ _ _ _ _)
  · exact hloop

/-- With no fault of boot there is nothing to log. -/
theorem logBootFaults_none {s : State} (h : s.sec.bootFaults = []) : (logBootFaults s).mon = s.mon := by
  simp [logBootFaults, h, forEach]

/-- One fault without a rate limit, with room for it, is the newest in the logging unit's queue. -/
theorem logBootFaults_one {s : State} {code : Nat} (h : s.sec.bootFaults = [code]) (hl : ∀ n, limitPeriod code n = 0)
    (hq : s.mon.fault.queue.length < 256) :
    (logBootFaults s).mon.fault.queue = s.mon.fault.queue ++ [{ code := code, cls := faultClass code }] := by
  have hraise : ∀ regs n, (s.mon.raiseAs regs n { code := code, cls := faultClass code }).fault.queue =
      s.mon.fault.queue ++ [{ code := code, cls := faultClass code }] := by
    intro regs n
    simp only [Mon.raiseAs, hl, ne_eq, not_true_eq_false, false_and, if_false, if_true]
    split <;> simp [Mon.enqueue_fault _ regs _ hq]
  unfold logBootFaults
  simp only [h, forEach, List.foldl_cons, List.foldl_nil]
  split
  · simp [hraise]
  · exact hraise _ _

/-- Recovery: sealed, with its status, and nothing else but what is logged (R497). -/
theorem enterRecovery_eq (s : State) :
    enterRecovery s = { s with
      mon := (enterRecovery s).mon, sec := { s.sec with bootStatus := 1, sealed := true, bootFaults := [] } } := by
  unfold enterRecovery
  rw [logBootFaults_eq]
  rfl

/-! ### The active set (R494) -/

/-- A Stable record names the active set (R494). -/
def activeNamed (s : State) : Bool := (commitOf s.sec).any fun c => !c.copying && c.digest = setDigest s.sec.active

/-- The measurements of a set: the hash of each of its parts (R494). -/
def measures (t : Tbl Nat) : Tbl Nat := (List.range 16).foldl (fun m i => tset 0 m i (if i < mfParts t then (mfPart t i).hash else 0)) []

/-- The active set is measured (R494). -/
def measured (s : State) : State := s.updSec fun u => { u with measure := measures s.sec.active }

/-- What a set's format drops of the dictionary when it is another than the one the MRAM was written with (R494). -/
def formatTaken (t : Tbl Nat) (s : State) : State :=
  let keep (c : Nat × Nat) : Bool := decide (c.1 / 1048576 / 65536 = 0x0F)
  let isB (c : Nat × Nat) : Bool := decide (c.1 / 1048576 / 65536 = 0x11)
  let s3 : State := { s with mram := s.mram.filter keep, regs := s.regs.filter fun c => keep c || isB c }
  bootFault ((s3.updSec fun u => { u with formatTag := mfDictFormat t }).updCtl fun c =>
    { c with persistQ := c.persistQ.filter fun k => decide (k / 1048576 / 65536 = 0x0F) }) 0x0107

/-- The set is in force: its identity is shown and the map sealed (R494). -/
def inForce (t : Tbl Nat) (s : State) : State :=
  ((s.setReg Dict.ID_FW_VERSION 0 (mfVersion t)).setReg Dict.ID_DICT_FORMAT 0 (mfDictFormat t)).updSec fun u => { u with sealed := true }

/-- A set that is read, named by a Stable record and verified is put in force. -/
theorem bootActive_verified {s : State} (hn : activeNamed s = true) (hv : setVerifies s s.sec.active = true) :
    bootActive s false false = inForce s.sec.active
      (if s.sec.formatTag = mfDictFormat s.sec.active then measured s else formatTaken s.sec.active (measured s)) := by
  have hgood : ¬ (false || !activeNamed s || !setVerifies s s.sec.active) = true := by simp [hn, hv]
  exact (if_neg hgood).trans (if_neg Bool.false_ne_true)

/-- Any other brings Recovery, with 0x1105. -/
theorem bootActive_fails {s : State} (hold : Bool) {bad : Bool} (h : bad = true ∨ activeNamed s = false ∨ setVerifies s s.sec.active = false) :
    bootActive s hold bad = enterRecovery (bootFault (if bad then bootFault s 0x1109 else s) 0x1105) := by
  have hfail : (bad || !activeNamed s || !setVerifies s s.sec.active) = true := by
    rcases h with h | h | h <;> simp [h]
  exact if_pos hfail

/-- What the judgement of the active set leaves: of the boot unit all but its status and what it shows, the floor, and, unless it ends in
Recovery, the faults found so far. -/
structure BootKeeps (s t : State) : Prop where
  stage : t.sec.stage = s.sec.stage
  bitmap : t.sec.bitmap = s.sec.bitmap
  staging : t.sec.staging = s.sec.staging
  active : t.sec.active = s.sec.active
  floor : t.reg Dict.SEC_MIN_SVN = s.reg Dict.SEC_MIN_SVN
  faults : t.sec.bootStatus = 0 → ∀ c ∈ s.sec.bootFaults, c ∈ t.sec.bootFaults

/-- Recovery leaves them, whatever faults brought it. -/
theorem BootKeeps.recovery {s s' : State} {l : List Nat} (hs : s'.sec = { s.sec with bootFaults := l }) (hr : s'.regs = s.regs) :
    BootKeeps s (enterRecovery s') := by
  have e := enterRecovery_eq s'
  constructor
  case floor => rw [e]; show s'.reg _ = _; exact reg_of_regs hr _ _
  case faults => rw [e]; intro h; cases h
  all_goals rw [e]; simp only [hs]

@[simp] theorem measured_sec (s : State) : (measured s).sec = { s.sec with measure := measures s.sec.active } := State.updSec_sec _ _

@[simp] theorem measured_reg (s : State) (o : Obj) (row : Nat) : (measured s).reg o row = s.reg o row := State.updSec_reg _ _ _ _

theorem formatTaken_keeps (t : Tbl Nat) (s : State) :
    (formatTaken t s).sec = { s.sec with formatTag := mfDictFormat t, bootFaults := s.sec.bootFaults ++ [0x0107] } ∧
    (formatTaken t s).reg Dict.SEC_MIN_SVN = s.reg Dict.SEC_MIN_SVN := by
  constructor
  · unfold formatTaken bootFault
    dsimp only
    rw [State.updSec_sec, State.updCtl_sec, State.updSec_sec]
  · exact tget_filter_kept _ _ _ _ fun _ => by simp [regKey, Dict.SEC_MIN_SVN]

/-- The floor's key is none of the identity's. -/
theorem inForce_keeps (t : Tbl Nat) (s : State) :
    (inForce t s).sec = { s.sec with sealed := true } ∧ (inForce t s).reg Dict.SEC_MIN_SVN = s.reg Dict.SEC_MIN_SVN := by
  constructor
  · rw [inForce, State.updSec_sec, State.setReg_sec, State.setReg_sec]
  · rw [inForce, State.updSec_reg, reg_setReg_ne, reg_setReg_ne]
    · simp [regKey, Dict.SEC_MIN_SVN, Dict.ID_FW_VERSION]
    · simp [regKey, Dict.SEC_MIN_SVN, Dict.ID_DICT_FORMAT]

theorem bootActive_keeps (s : State) (bad : Bool) : BootKeeps s (bootActive s false bad) := by
  by_cases h : bad = true ∨ activeNamed s = false ∨ setVerifies s s.sec.active = false
  · rw [bootActive_fails _ h]
    refine BootKeeps.recovery (l := (if bad then bootFault s 0x1109 else s).sec.bootFaults ++ [0x1105]) ?_ ?_ <;> cases bad <;> rfl
  · simp only [not_or, Bool.not_eq_true, Bool.not_eq_false] at h
    obtain ⟨rfl, hn, hv⟩ := h
    rw [bootActive_verified hn hv]
    split
    · obtain ⟨hsec, hfloor⟩ := inForce_keeps s.sec.active (measured s)
      rw [measured_sec] at hsec
      constructor
      case floor => rw [hfloor, measured_reg]
      case faults => rw [hsec]; exact fun _ _ h => h
      all_goals rw [hsec]
    · obtain ⟨hsec, hfloor⟩ := inForce_keeps s.sec.active (formatTaken s.sec.active (measured s))
      obtain ⟨hsec', hfloor'⟩ := formatTaken_keeps s.sec.active (measured s)
      rw [hsec', measured_sec] at hsec
      constructor
      case floor => rw [hfloor, hfloor', measured_reg]
      case faults => rw [hsec]; exact fun _ _ h => List.mem_append_left _ h
      all_goals rw [hsec]

/-! ### The boot ROM's run (R493, R494) -/

/-- The boot ROM may run: between steps 3 and 5, powered, and not Fatal. -/
def RomMayRun (s : State) : Prop := 3 ≤ s.pwr.step ∧ s.pwr.step < 6 ∧ s.pwr.off = false ∧ s.mon.fault.fatal = false

/-- The state in which the boot ROM has sampled BOOT_SEL. -/
def romBegun (sel : Nat) (s : State) : State :=
  (s.updPwr fun w => { w with step := 5 }).updSec fun u =>
    { u with bootSel := sel, bootStatus := 0, sealed := false, activated := false, measure := [] }

theorem exec_bootRomRun_idle {s : State} (h : ¬ RomMayRun s) (sel : Nat) (bs ba : Bool) (cut : Option Nat) :
    exec (.bootRomRun sel bs ba cut) s = .next s := by
  show Host.Outcome.next (if _ then _ else s) = _
  rw [if_neg]
  simpa [RomMayRun] using h

/-- Sampled as Recovery, it enters Recovery (R493). -/
theorem exec_bootRomRun_recovery {s : State} (h : RomMayRun s) (bs ba : Bool) (cut : Option Nat) :
    exec (.bootRomRun 1 bs ba cut) s = .next (enterRecovery (romBegun 1 s)) := by
  show Host.Outcome.next (if _ then bootRun (s.updPwr fun w => { w with step := 5 }) 1 bs ba cut else s) = _
  rw [if_pos (by simpa [RomMayRun] using h)]
  simp only [bootRun, romBegun, Nat.reduceMod, Nat.reduceEqDiff, false_and, or_self, if_false, if_true]

/-- Sampled as Normal with no copy under way, it judges the staged set, copies it, and judges the active one (R494). -/
theorem exec_bootRomRun_normal {s : State} (h : RomMayRun s) (hc : ∀ c, commitOf s.sec = some c → c.copying = false) (bs ba : Bool)
    (cut : Option Nat) :
    exec (.bootRomRun 0 bs ba cut) s = .next (bootCopy (startCopy (romBegun 0 s) bs) false bs ba cut) := by
  show Host.Outcome.next (if _ then bootRun (s.updPwr fun w => { w with step := 5 }) 0 bs ba cut else s) = _
  rw [if_pos (by simpa [RomMayRun] using h)]
  have hcopy : (commitOf (romBegun 0 s).sec).any (·.copying) = false := by
    show (commitOf s.sec).any (·.copying) = false
    cases hs : commitOf s.sec with
    | none => rfl
    | some c => exact hc c hs
  simp only [romBegun] at hcopy ⊢
  simp only [bootRun, Nat.reduceMod, Nat.reduceEqDiff, false_and, or_self, if_false, decide_false, Bool.false_and, hcopy,
    Bool.false_eq_true]

/-- With no Complete staged set, no copy is started. -/
theorem startCopy_none {s : State} (h : s.sec.stage ≠ .complete) (bad : Bool) : startCopy s bad = s := if_pos h

/-- A staged set that fails leaves staging Idle and its fault behind (R494). -/
theorem startCopy_rejects {s : State} (h : s.sec.stage = .complete) {bad : Bool} (hv : setVerifies s s.sec.staging = false) :
    startCopy s bad = bootFault ((if bad then bootFault s 0x1109 else s).updSec fun u => { u with stage := .idle, bitmap := 0 }) 0x1104 := by
  have hbad : (bad || !setVerifies s s.sec.staging) = true := by simp [hv]
  exact (if_neg (not_not_intro h)).trans (if_pos hbad)

/-- One that verifies has its record written (R502). -/
theorem startCopy_begins {s : State} (h : s.sec.stage = .complete) (hv : setVerifies s s.sec.staging = true) :
    startCopy s false = s.updSec fun u => writeCommit u (copyRecord u.staging) := by
  have hgood : ¬ (false || !setVerifies s s.sec.staging) = true := by simp [hv]
  exact (if_neg (not_not_intro h)).trans (if_neg hgood)

/-- With no copy under way the active set is judged as it stands. -/
theorem bootCopy_settled {s : State} (h : ∀ c, commitOf s.sec = some c → c.copying = false) (hold bs ba : Bool) (cut : Option Nat) :
    bootCopy s hold bs ba cut = bootActive s hold ba := by
  unfold bootCopy
  cases hc : commitOf s.sec with
  | none => rfl
  | some c => simp only [h c hc, Bool.not_false, if_true]

/-- A copy under way of a set that verifies is run, and once it has reached END the set is activated and judged (R503). -/
theorem bootCopy_copies {s : State} {c : Commit} (h : commitOf s.sec = some c) (hc : c.copying = true)
    (hv : setVerifies s s.sec.staging = true) (hold ba : Bool) (cut : Option Nat) :
    bootCopy s hold false ba cut =
      if (copyRun (cut.getD 3072) { s.sec with stage := .copying } c).2 then
        bootActive (activate { s with sec := (copyRun (cut.getD 3072) { s.sec with stage := .copying } c).1 }) hold ba
      else { s with sec := (copyRun (cut.getD 3072) { s.sec with stage := .copying } c).1 } := by
  unfold bootCopy
  simp only [h, hc, hv, Bool.not_true, Bool.or_self, Bool.false_eq_true, if_false]

section
variable (sel : Nat) (s : State)

@[simp] theorem romBegun_sec : (romBegun sel s).sec =
    { s.sec with bootSel := sel, bootStatus := 0, sealed := false, activated := false, measure := [] } := rfl
@[simp] theorem romBegun_pwr : (romBegun sel s).pwr = { s.pwr with step := 5 } := rfl
@[simp] theorem romBegun_mon : (romBegun sel s).mon = s.mon := rfl
@[simp] theorem romBegun_regs : (romBegun sel s).regs = s.regs := rfl
@[simp] theorem romBegun_mram : (romBegun sel s).mram = s.mram := rfl
theorem romBegun_commitOf : commitOf (romBegun sel s).sec = commitOf s.sec := rfl
end

section
variable {s : State}

/-- A run sampled as Recovery ends in Recovery, with everything staged and written as it was. -/
theorem recoveryBoot (h : RomMayRun s) (bs ba : Bool) (cut : Option Nat) :
    ∃ t, exec (.bootRomRun 1 bs ba cut) s = .next t ∧ t.sec.bootStatus = 1 ∧ t.sec.sealed = true ∧ t.sec.bootSel = 1 ∧ t.pwr.step = 5 ∧
      coreUp t = false ∧ t.regs = s.regs ∧ t.sec.active = s.sec.active ∧ t.sec.staging = s.sec.staging ∧ t.sec.stage = s.sec.stage := by
  refine ⟨_, exec_bootRomRun_recovery h bs ba cut, ?_⟩
  rw [enterRecovery_eq]
  simp [coreUp]

/-- A run of a named active set that verifies and has the dictionary's format puts it in force. -/
theorem normalBoot_in_force (h : RomMayRun s) (hst : s.sec.stage ≠ .complete) {c : Commit} (hc : commitOf s.sec = some c)
    (hcop : c.copying = false) (hdig : c.digest = setDigest s.sec.active) (hv : setVerifies s s.sec.active = true)
    (hfmt : s.sec.formatTag = mfDictFormat s.sec.active) (bs : Bool) (cut : Option Nat) :
    ∃ t, exec (.bootRomRun 0 bs false cut) s = .next t ∧ t.sec.bootStatus = 0 ∧ t.sec.sealed = true ∧ t.pwr.step = 5 ∧ t.mon = s.mon ∧
      t.reg Dict.ID_FW_VERSION = mfVersion s.sec.active ∧ t.reg Dict.ID_DICT_FORMAT = mfDictFormat s.sec.active ∧
      (∀ i, i < mfParts s.sec.active → i < 16 → tget 0 t.sec.measure i = (mfPart s.sec.active i).hash) ∧ t.mram = s.mram := by
  have hsettled : ∀ c, commitOf s.sec = some c → c.copying = false := fun c' hc' => by
    rw [hc] at hc'; cases hc'; exact hcop
  have hn : activeNamed (romBegun 0 s) = true := by
    unfold activeNamed
    rw [romBegun_commitOf, hc]
    simp [hcop, hdig]
  have hv' : setVerifies (romBegun 0 s) (romBegun 0 s).sec.active = true := by
    rw [setVerifies_of_regs (romBegun_regs 0 s)]; exact hv
  have hrun : exec (.bootRomRun 0 bs false cut) s = .next (inForce s.sec.active (measured (romBegun 0 s))) := by
    rw [exec_bootRomRun_normal h hsettled, startCopy_none (by simpa using hst), bootCopy_settled (by rw [romBegun_commitOf]; exact hsettled),
      bootActive_verified hn hv', if_pos (by simpa using hfmt)]
    rfl
  have hmeasure : (inForce s.sec.active (measured (romBegun 0 s))).sec.measure = measures s.sec.active := by
    rw [(inForce_keeps _ _).1, measured_sec]; rfl
  refine ⟨_, hrun, ?_, ?_, ?_, ?_, ?_, ?_, ?_, ?_⟩
  · rw [(inForce_keeps _ _).1, measured_sec, romBegun_sec]
  · rw [(inForce_keeps _ _).1]
  · simp only [inForce, measured, State.updSec_pwr, State.setReg_pwr, romBegun_pwr]
  · simp only [inForce, measured, State.updSec_mon, State.setReg_mon, romBegun_mon]
  · rw [inForce, State.updSec_reg, reg_setReg_ne _ _ _ _ _ _ (by simp [regKey, Dict.ID_FW_VERSION, Dict.ID_DICT_FORMAT]), reg_setReg]
  · rw [inForce, State.updSec_reg, reg_setReg]
  · intro i hi h16
    rw [hmeasure, measures, tget_foldl_tset, if_pos h16, if_pos hi]
  · simp only [inForce, measured, State.updSec_mram, State.setReg_mram, romBegun_mram]

/-- A run whose active set no Stable record names ends in Recovery, with 0x1105. -/
theorem normalBoot_unnamed (h : RomMayRun s) (hst : s.sec.stage ≠ .complete)
    (hc : ∀ c, commitOf s.sec = some c → c.copying = false ∧ c.digest ≠ setDigest s.sec.active) (hf : s.sec.bootFaults = [])
    (hq : s.mon.fault.queue.length < 250) (bs : Bool) (cut : Option Nat) :
    ∃ t, exec (.bootRomRun 0 bs false cut) s = .next t ∧ t.sec.bootStatus = 1 ∧ t.sec.sealed = true ∧ t.regs = s.regs ∧
      t.mon.fault.queue = s.mon.fault.queue ++ [{ code := 0x1105, cls := .contained }] := by
  have hsettled : ∀ c, commitOf s.sec = some c → c.copying = false := fun c hc' => (hc c hc').1
  have hn : activeNamed (romBegun 0 s) = false := by
    unfold activeNamed
    rw [romBegun_commitOf]
    cases hs : commitOf s.sec with
    | none => rfl
    | some c => simp [hc c hs]
  have hrun : exec (.bootRomRun 0 bs false cut) s = .next (enterRecovery (bootFault (romBegun 0 s) 0x1105)) := by
    rw [exec_bootRomRun_normal h hsettled, startCopy_none (by simpa using hst), bootCopy_settled (by rw [romBegun_commitOf]; exact hsettled),
      bootActive_fails _ (.inr (.inl hn))]
    rfl
  have hlogged := logBootFaults_one (s := (bootFault (romBegun 0 s) 0x1105).updSec fun u => { u with bootStatus := 1, sealed := true })
    (code := 0x1105) (by simp [bootFault, hf]) (fun _ => rfl) (by simpa [bootFault] using by omega)
  refine ⟨_, hrun, ?_, ?_, ?_, ?_⟩
  · rw [enterRecovery_eq]
  · rw [enterRecovery_eq]
  · rw [enterRecovery_eq]; simp [bootFault]
  · exact hlogged

/-- A Complete staged set that fails leaves staging Idle, and its fault behind unless the run ends in Recovery. -/
theorem normalBoot_rejects (h : RomMayRun s) (hst : s.sec.stage = .complete) (hc : ∀ c, commitOf s.sec = some c → c.copying = false)
    (hv : setVerifies s s.sec.staging = false) (bs ba : Bool) (cut : Option Nat) :
    ∃ t, exec (.bootRomRun 0 bs ba cut) s = .next t ∧ t.sec.stage = .idle ∧ t.sec.bitmap = 0 ∧ t.sec.active = s.sec.active ∧
      (t.sec.bootStatus = 0 → 0x1104 ∈ t.sec.bootFaults) := by
  have hv' : setVerifies (romBegun 0 s) (romBegun 0 s).sec.staging = false := by
    rw [setVerifies_of_regs (romBegun_regs 0 s)]; exact hv
  have hrun := exec_bootRomRun_normal h hc bs ba cut
  rw [startCopy_rejects (by simpa using hst) hv'] at hrun
  obtain ⟨l, hu⟩ : ∃ l, (bootFault ((if bs then bootFault (romBegun 0 s) 0x1109 else romBegun 0 s).updSec fun u =>
      { u with stage := .idle, bitmap := 0 }) 0x1104).sec =
      { (romBegun 0 s).sec with stage := .idle, bitmap := 0, bootFaults := l ++ [0x1104] } := by
    cases bs <;> exact ⟨_, rfl⟩
  generalize bootFault _ 0x1104 = u at hrun hu
  have hsettled : ∀ c, commitOf u.sec = some c → c.copying = false := by
    have e : commitOf u.sec = commitOf s.sec := by rw [hu]; rfl
    rw [e]; exact hc
  rw [bootCopy_settled hsettled] at hrun
  have hk := bootActive_keeps u ba
  refine ⟨_, hrun, by rw [hk.stage, hu], by rw [hk.bitmap, hu], by rw [hk.active, hu]; rfl, fun h0 => hk.faults h0 _ ?_⟩
  rw [hu]; simp

/-- A Complete staged set that verifies has its record in force, Copying from 0 to END. -/
theorem startCopy_copying (hst : s.sec.stage = .complete) (hv : setVerifies s s.sec.staging = true) :
    ∃ c, commitOf (startCopy s false).sec = some c ∧ c.copying = true ∧ c.next = 0 ∧ c.upTo = mfEnd s.sec.staging ∧
      (startCopy s false).regs = s.regs ∧ (startCopy s false).sec.staging = s.sec.staging ∧
      (startCopy s false).sec.active = s.sec.active := by
  obtain ⟨n, hn⟩ := commitOf_writeCommit s.sec (copyRecord_fits hv)
  rw [startCopy_begins hst hv, State.updSec_sec, State.updSec_regs, writeCommit_staging, writeCommit_active]
  exact ⟨_, hn, rfl, rfl, rfl, rfl, rfl, rfl⟩

/-- The run of a Complete staged set that verifies, up to the chunk where power is lost if it is. -/
theorem exec_bootRomRun_copies (h : RomMayRun s) (hst : s.sec.stage = .complete) (hc : ∀ c, commitOf s.sec = some c → c.copying = false)
    (hv : setVerifies s s.sec.staging = true) (ba : Bool) (cut : Option Nat) :
    ∃ (v : State) (c : Commit), v.regs = s.regs ∧ v.sec.staging = s.sec.staging ∧ v.sec.active = s.sec.active ∧ commitOf v.sec = some c ∧
      c.copying = true ∧ c.next = 0 ∧ c.upTo = mfEnd s.sec.staging ∧
      exec (.bootRomRun 0 false ba cut) s = .next (
        if (copyRun (cut.getD 3072) { v.sec with stage := .copying } c).2 then
          bootActive (activate { v with sec := (copyRun (cut.getD 3072) { v.sec with stage := .copying } c).1 }) false ba
        else { v with sec := (copyRun (cut.getD 3072) { v.sec with stage := .copying } c).1 }) := by
  have hst' : (romBegun 0 s).sec.stage = .complete := by rw [romBegun_sec]; exact hst
  have hv' : setVerifies (romBegun 0 s) (romBegun 0 s).sec.staging = true := by
    rw [setVerifies_of_regs (romBegun_regs 0 s), romBegun_sec]; exact hv
  obtain ⟨c, hrec, hcop, hnext, hup, hregs, hstaging, hactive⟩ := startCopy_copying hst' hv'
  have hrun := exec_bootRomRun_normal h hc false ba cut
  rw [romBegun_sec] at hup hstaging hactive
  rw [romBegun_regs] at hregs
  generalize startCopy (romBegun 0 s) false = v at hrec hregs hstaging hactive hrun
  have hverified : setVerifies v v.sec.staging = true := by rw [setVerifies_of_regs hregs, hstaging]; exact hv
  exact ⟨v, c, hregs, hstaging, hactive, hrec, hcop, hnext, hup, hrun.trans (congrArg _ (bootCopy_copies hrec hcop hverified false ba cut))⟩

/-- Cut before its first chunk, the copy leaves its record Copying, for the next run to resume. -/
theorem normalBoot_copy_cut (h : RomMayRun s) (hst : s.sec.stage = .complete) (hc : ∀ c, commitOf s.sec = some c → c.copying = false)
    (hv : setVerifies s s.sec.staging = true) (ba : Bool) :
    ∃ t c, exec (.bootRomRun 0 false ba (some 0)) s = .next t ∧ commitOf t.sec = some c ∧ c.copying = true ∧ c.next = 0 ∧
      c.upTo = mfEnd s.sec.staging ∧ t.sec.stage = .copying ∧ t.sec.active = s.sec.active := by
  obtain ⟨v, c, -, -, hactive, hrec, hcop, hnext, hup, hrun⟩ := exec_bootRomRun_copies h hst hc hv ba (some 0)
  obtain ⟨hend, -⟩ := mfEnd_bounds hv
  have hcopy : copyRun 0 { v.sec with stage := .copying } c = ({ v.sec with stage := .copying }, false) := by
    simp only [copyRun, hnext, hup, Prod.mk.injEq, true_and, decide_eq_false_iff_not]
    omega
  rw [Option.getD_some, hcopy, if_neg Bool.false_ne_true] at hrun
  exact ⟨_, c, hrun, hrec, hcop, hnext, hup, rfl, hactive⟩

/-- Uncut, the copy reaches END: staging is Idle with its bytes, and the floor no lower. -/
theorem normalBoot_copy_done (h : RomMayRun s) (hst : s.sec.stage = .complete) (hc : ∀ c, commitOf s.sec = some c → c.copying = false)
    (hv : setVerifies s s.sec.staging = true) (ba : Bool) :
    ∃ t, exec (.bootRomRun 0 false ba none) s = .next t ∧ t.sec.stage = .idle ∧ t.sec.bitmap = 0 ∧ t.sec.staging = s.sec.staging ∧
      s.reg Dict.SEC_MIN_SVN ≤ t.reg Dict.SEC_MIN_SVN := by
  obtain ⟨v, c, hregs, hstaging, -, -, -, hnext, hup, hrun⟩ := exec_bootRomRun_copies h hst hc hv ba none
  obtain ⟨-, hend⟩ := mfEnd_bounds hv
  rw [Option.getD_none, if_pos (copyRun_reaches_end _ _ _ (by omega))] at hrun
  have hcopied : (copyRun 3072 { v.sec with stage := .copying } c).1.staging = s.sec.staging := by
    rw [copyRun_staging]; exact hstaging
  generalize (copyRun 3072 { v.sec with stage := .copying } c).1 = u at hrun hcopied
  obtain ⟨hstage, hbitmap, hstaged, hfloor⟩ := activate_spec { v with sec := u }
  have hk := bootActive_keeps (activate { v with sec := u }) ba
  refine ⟨_, hrun, hk.stage.trans hstage, hk.bitmap.trans hbitmap, (hk.staging.trans hstaged).trans hcopied, ?_⟩
  rw [hk.floor, ← reg_of_regs (s' := { v with sec := u }) hregs]
  exact hfloor
end

/-! ### Event bits that are set (R7) -/

/-- Setting further bits in a row of the event registers keeps those that are set. -/
theorem evreg_or_keeps {t : Tbl Nat} {k j : Nat} (k' x : Nat) (h : bitAt (tget 0 t k) j = true) :
    bitAt (tget 0 (tupd 0 t k' fun v => v ||| x) k) j = true := by
  unfold bitAt at h ⊢
  rw [tget_tupd]
  split
  · rename_i hk
    rw [← hk, Nat.testBit_or, h, Bool.true_or]
  · exact h

theorem Mon.counterIrq_evreg_keeps (m : Mon) (regs : Tbl Nat) {k j : Nat} (h : bitAt (tget 0 m.evreg k) j = true) :
    bitAt (tget 0 (m.counterIrq regs).evreg k) j = true := by
  have hset := evreg_or_keeps (regKey Dict.CNT_EVENTS 0) 1 h
  unfold Mon.counterIrq
  split
  · exact h
  · dsimp only
    split
    · unfold Mon.fireQuiet
      split <;> exact hset
    · exact hset

theorem Mon.count_evreg_keeps (m : Mon) (regs : Tbl Nat) (ev inst n : Nat) {k j : Nat} (h : bitAt (tget 0 m.evreg k) j = true) :
    bitAt (tget 0 (m.count regs ev inst n).evreg k) j = true := by
  unfold Mon.count
  dsimp only
  split
  · exact Mon.counterIrq_evreg_keeps _ _ h
  · exact h

theorem Mon.fire_evreg_keeps (m : Mon) (regs : Tbl Nat) (n : Nat) {k j : Nat} (h : bitAt (tget 0 m.evreg k) j = true) :
    bitAt (tget 0 (m.fire regs n).evreg k) j = true := by
  unfold Mon.fire
  split
  · exact h
  · dsimp only
    split
    · exact h
    · exact Mon.count_evreg_keeps _ _ _ _ _ h

/-- An event sets its bit. -/
theorem Mon.event_bit (m : Mon) (regs : Tbl Nat) (ev : Obj) (row bit : Nat) :
    bitAt (evregGet (m.event regs ev row bit).evreg ev row) bit = true := by
  unfold Mon.event
  split
  · assumption
  · have hset : bitAt (tget 0 (tupd 0 m.evreg (regKey ev row) fun v => v ||| 2 ^ bit) (regKey ev row)) bit = true := by
      rw [tget_tupd_self, bitAt, Nat.testBit_or, Nat.testBit_two_pow_self, Bool.or_true]
    dsimp only
    split
    · exact Mon.fire_evreg_keeps _ _ _ hset
    · exact hset

/-! ### Bench domains that start (R480) -/

/-- Setting a clear bit by addition. -/
theorem add_two_pow_of_clear {n b : Nat} (h : n.testBit b = false) : n + 2 ^ b = n ||| 2 ^ b := by
  have hlo : n % 2 ^ (b + 1) < 2 ^ b := by
    have hb : n / 2 ^ b % 2 = 0 := by
      rw [Nat.testBit_eq_decide_div_mod_eq] at h
      simp only [decide_eq_false_iff_not] at h
      omega
    rw [Nat.mod_pow_succ, hb, Nat.mul_zero, Nat.add_zero]
    exact Nat.mod_lt _ (Nat.two_pow_pos b)
  have hsplit := Nat.div_add_mod n (2 ^ (b + 1))
  generalize n / 2 ^ (b + 1) = hi at hsplit
  generalize n % 2 ^ (b + 1) = lo at hlo hsplit
  have hor : 2 ^ b + lo = 2 ^ b ||| lo := by simpa using Nat.two_pow_add_eq_or_of_lt hlo 1
  have hlt : lo < 2 ^ (b + 1) ∧ 2 ^ b + lo < 2 ^ (b + 1) := by rw [Nat.pow_succ]; omega
  calc n + 2 ^ b = 2 ^ (b + 1) * hi + (2 ^ b + lo) := by omega
    _ = 2 ^ (b + 1) * hi ||| (2 ^ b ||| lo) := by rw [Nat.two_pow_add_eq_or_of_lt hlt.2, hor]
    _ = (2 ^ (b + 1) * hi ||| lo) ||| 2 ^ b := by rw [Nat.or_comm (2 ^ b), Nat.or_assoc]
    _ = n ||| 2 ^ b := by rw [← Nat.two_pow_add_eq_or_of_lt hlt.1, hsplit]

/-- Of all the device only what bench domains' starts write has changed, and every start under way still is. -/
structure BenchesOnly (s t : State) : Prop where
  eq : t = { s with pwr := { s.pwr with benchUp := t.pwr.benchUp, benchSlow := t.pwr.benchSlow, benchAt := t.pwr.benchAt } }
  up : ∀ b, bitAt s.pwr.benchUp b = true → bitAt t.pwr.benchUp b = true

theorem BenchesOnly.trans {a b c : State} (h : BenchesOnly a b) (g : BenchesOnly b c) : BenchesOnly a c :=
  ⟨by rw [g.eq, h.eq], fun n hn => g.up n (h.up n hn)⟩

theorem BenchesOnly.regs {s t : State} (h : BenchesOnly s t) : t.regs = s.regs := by rw [h.eq]
theorem BenchesOnly.benches {s t : State} (h : BenchesOnly s t) : t.pwr.benches = s.pwr.benches := by rw [h.eq]

/-- A bench that is wanted has power, or is getting it. -/
def benchServed (s : State) (b : Nat) : Prop := benchWanted s b = true → bitAt s.pwr.benches b = true ∨ bitAt s.pwr.benchUp b = true

theorem BenchesOnly.served {s t : State} (h : BenchesOnly s t) {b : Nat} (hs : benchServed s b) : benchServed t b := by
  intro hw
  have hw' : benchWanted s b = true := by simpa only [benchWanted, reg_of_regs h.regs] using hw
  rw [h.benches]
  exact (hs hw').imp_right (h.up b)

/-- The start of a bench serves it where it is wanted. -/
theorem benchStart_spec (s : State) (b : Nat) : BenchesOnly s (benchStart s b) ∧ benchServed (benchStart s b) b := by
  unfold benchStart
  split
  · rename_i hc
    obtain ⟨-, -, hclear⟩ := hc
    have hor : s.pwr.benchUp + 2 ^ b = s.pwr.benchUp ||| 2 ^ b := add_two_pow_of_clear (by simpa [bitAt] using hclear)
    refine ⟨⟨rfl, fun n hn => ?_⟩, fun _ => .inr ?_⟩
    · show bitAt (s.pwr.benchUp + 2 ^ b) n = true
      rw [hor, bitAt, Nat.testBit_or, show s.pwr.benchUp.testBit n = true from hn, Bool.true_or]
    · show bitAt (s.pwr.benchUp + 2 ^ b) b = true
      rw [hor, bitAt, Nat.testBit_or, Nat.testBit_two_pow_self, Bool.or_true]
  · rename_i hc
    refine ⟨⟨rfl, fun _ h => h⟩, fun hw => ?_⟩
    simp only [hw, true_and, not_and, Bool.not_eq_true', Bool.not_eq_false] at hc
    cases hb : bitAt s.pwr.benches b with
    | true => exact .inl rfl
    | false => exact .inr (hc hb)

/-- The starts of the benches below a bound serve every one of them. -/
theorem benchStarts_spec (s : State) (n : Nat) :
    BenchesOnly s (forEach s (List.range n) benchStart) ∧ ∀ b, b < n → benchServed (forEach s (List.range n) benchStart) b := by
  induction n with
  | zero => exact ⟨⟨rfl, fun _ h => h⟩, fun _ h => absurd h (Nat.not_lt_zero _)⟩
  | succ n ih =>
    obtain ⟨honly, hserved⟩ := ih
    have e : forEach s (List.range (n + 1)) benchStart = benchStart (forEach s (List.range n) benchStart) n := by
      simp only [forEach, List.range_succ, List.foldl_append, List.foldl_cons, List.foldl_nil]
    rw [e]
    obtain ⟨hstep, hn⟩ := benchStart_spec (forEach s (List.range n) benchStart) n
    refine ⟨honly.trans hstep, fun b hb => ?_⟩
    rcases Nat.lt_succ_iff_lt_or_eq.mp hb with hb | rfl
    · exact hstep.served (hserved b hb)
    · exact hn

/-! ### Step 6 before the dictionary's check (R9, R447, R475) -/

/-- The dictionary comes back from the MRAM cell by cell, but for what the always-on domain keeps. -/
theorem restoreDict_eq (s : State) :
    restoreDict s = { s with regs := (s.mram.filter fun c => !(keptKey true c.1)).foldl mergeCell s.regs } := rfl

/-- A mirrored value is restored. -/
theorem restoreDict_listed {s : State} (hm : (s.mram.map (·.1)).Nodup) {k v : Nat} (h : (k, v) ∈ s.mram) (hk : keptKey true k = false)
    (d : Nat) : tget d (restoreDict s).regs k = v := by
  rw [restoreDict_eq]
  refine tget_merge_listed _ _ _ (hm.sublist (List.filter_sublist.map _)) ?_
  exact List.mem_filter.mpr ⟨h, by simp [hk]⟩

/-- A key that the MRAM does not mirror keeps its value. -/
theorem restoreDict_absent {s : State} {k : Nat} (h : ∀ v, (k, v) ∉ s.mram) (d : Nat) :
    tget d (restoreDict s).regs k = tget d s.regs k := by
  rw [restoreDict_eq]
  exact tget_merge_absent _ _ _ _ fun v hv => h v (List.mem_filter.mp hv).1

/-- The targets of the first n fault sources are set. -/
def targetsSet (n : Nat) (s : State) : State :=
  forEach s (List.range n) fun s i => updRow s (300 + i) fun r => { r with targetsK := 0x40 }

theorem targetsSet_succ (n : Nat) (s : State) :
    targetsSet (n + 1) s = updRow (targetsSet n s) (300 + n) fun r => { r with targetsK := 0x40 } := by
  simp only [targetsSet, forEach, List.range_succ, List.foldl_append, List.foldl_cons, List.foldl_nil]

/-- Nothing but the claim sources' rows changes, and each of the first n has its targets. -/
theorem targetsSet_spec (n : Nat) (s : State) :
    targetsSet n s = { s with mon := { s.mon with claim := (targetsSet n s).mon.claim } } ∧
    ∀ i, i < n → (claimRow (targetsSet n s) (300 + i)).targetsK = 0x40 := by
  induction n with
  | zero => exact ⟨rfl, fun i hi => absurd hi (Nat.not_lt_zero i)⟩
  | succ n ih =>
    obtain ⟨heq, hset⟩ := ih
    rw [targetsSet_succ]
    generalize targetsSet n s = t at heq hset
    refine ⟨by rw [heq]; rfl, fun i hi => ?_⟩
    simp only [claimRow, updRow, State.updClaim, tget_tupd]
    split
    · rfl
    · exact hset i (by omega)

/-- The firmware's targets are set, everything outside the claim sources being left (R447). -/
theorem firmwareTargets_spec (s : State) :
    firmwareTargets s = { s with mon := { s.mon with claim := (firmwareTargets s).mon.claim } } ∧
    ∀ n, 300 ≤ n → n ≤ 349 → (claimRow (firmwareTargets s) n).targetsK = 0x40 := by
  obtain ⟨heq, hset⟩ := targetsSet_spec 50 s
  refine ⟨heq, fun n h1 h2 => ?_⟩
  have hrow := hset (n - 300) (by omega)
  rwa [Nat.add_sub_cancel' h1] at hrow

/-- The device at step 6 with its dictionary restored, its sources' targets set and the faults of boot logged. -/
def firmwareBegun (s : State) : State := logBootFaults (firmwareTargets (restoreDict (s.updPwr fun w => { w with step := 6 })))

theorem firmwareBegun_eq (s : State) :
    firmwareBegun s = { s with
      pwr := { s.pwr with step := 6 }, sec := { s.sec with bootFaults := [] }, regs := (restoreDict s).regs
      mon := (firmwareBegun s).mon } := by
  obtain ⟨ht, -⟩ := firmwareTargets_spec (restoreDict (s.updPwr fun w => { w with step := 6 }))
  unfold firmwareBegun
  rw [logBootFaults_eq]
  generalize logBootFaults _ = l
  rw [ht]
  rfl

/-- Of the fault unit it has at most queued raises, and the firmware's targets are set. -/
theorem firmwareBegun_mon (s : State) :
    ∃ m : Mon, m.fault = s.mon.fault ∧ (∀ n, 300 ≤ n → n ≤ 349 → (tget {} m.claim.rows n).targetsK = 0x40) ∧
      SignalsOnly m (firmwareBegun s).mon ∧ (s.sec.bootFaults = [] → (firmwareBegun s).mon = m) := by
  obtain ⟨ht, hk⟩ := firmwareTargets_spec (restoreDict (s.updPwr fun w => { w with step := 6 }))
  refine ⟨(firmwareTargets (restoreDict (s.updPwr fun w => { w with step := 6 }))).mon, by rw [ht]; rfl, hk, logBootFaults_signals _,
    fun hf => logBootFaults_none ?_⟩
  rw [ht]
  exact hf

/-! ### Step 6 after it (R465, R484, R491) -/

/-- Of the whole device at most the watching units have changed. -/
def MonOnly (s t : State) : Prop := t = { s with mon := t.mon }

namespace MonOnly

theorem refl (s : State) : MonOnly s s := rfl
theorem trans {a b c : State} (h : MonOnly a b) (g : MonOnly b c) : MonOnly a c := by
  unfold MonOnly at h g ⊢
  rw [g, h]
theorem set (s : State) (m : Mon) : MonOnly s { s with mon := m } := rfl
theorem event (s : State) (ev : Obj) (row bit : Nat) : MonOnly s (s.event ev row bit) := rfl
theorem count (s : State) (ev inst n : Nat) : MonOnly s (s.count ev inst n) := rfl
theorem raise (s : State) (code scope inst detail : Nat) : MonOnly s (s.raise code scope inst detail) := rfl
theorem updFault (s : State) (f : FaultUnit → FaultUnit) : MonOnly s (s.updFault f) := rfl

theorem noteState (b : Nat) (s : State) : MonOnly s (noteState b s) := by
  unfold Machine.noteState
  split
  · exact refl s
  · exact (updFault s _).trans (event _ _ _ _)

theorem pwr {s t : State} (h : MonOnly s t) : t.pwr = s.pwr := by rw [h]

end MonOnly

/-- What every step after the dictionary's check keeps of the watching units: the raises that wait, and the sources' targets. -/
structure QueueKept (m m' : Mon) : Prop where
  queued : ∀ r, r ∈ m.fault.queue → r ∈ m'.fault.queue
  targetsK : ∀ n, (tget {} m'.claim.rows n).targetsK = (tget {} m.claim.rows n).targetsK

theorem QueueKept.trans {a b c : Mon} (h : QueueKept a b) (g : QueueKept b c) : QueueKept a c :=
  ⟨fun r hr => g.queued r (h.queued r hr), fun n => (g.targetsK n).trans (h.targetsK n)⟩

theorem SignalsOnly.kept {m m' : Mon} (h : SignalsOnly m m') : QueueKept m m' := ⟨h.queued, h.targetsK⟩

/-- The fault unit may have an entry more in its history, and no more. -/
theorem noteState_mon (b : Nat) (s : State) :
    ∃ h, SignalsOnly { s.mon with fault := { s.mon.fault with history := h } } (noteState b s).mon := by
  unfold noteState
  split
  · exact ⟨s.mon.fault.history, SignalsOnly.refl _⟩
  · exact ⟨_, SignalsOnly.event _ _ _ _ _⟩

/-- A commanded reset leaves 0x1005 (R491). -/
def commandNoted (s : State) : State := if s.pwr.kind = 4 then s.raise 0x1005 else s

/-- A supply reset isolates the device, with 0x0F03 (R465). -/
def supplyIsolated (s : State) : State :=
  let s2 := s.updFault fun f => { f with supplyReset := false, isolated := true, cause := 0x0F03, isolateN := true }
  let s3 : State := { s2 with mon := s2.mon.raiseAs s2.regs s2.time.count { code := 0x0F03, cls := .contained, detail := s2.mon.fault.lowest % 65536 } }
  noteState (faultState s) (s3.event Dict.FAULT_EVENTS 0 3)

theorem kindEnds_eq (s : State) :
    kindEnds s = if s.mon.fault.supplyReset then supplyIsolated (commandNoted s)
      else (commandNoted s).updFault fun f => { f with isolateN := false } := rfl

theorem commandNoted_only (s : State) : MonOnly s (commandNoted s) ∧ SignalsOnly s.mon (commandNoted s).mon := by
  unfold commandNoted
  split
  · exact ⟨MonOnly.raise _ _ _ _ _, SignalsOnly.raise s.mon s.regs s.time.count 0x1005 0 0 0⟩
  · exact ⟨MonOnly.refl _, SignalsOnly.refl _⟩

theorem supplyIsolated_only (s : State) : MonOnly s (supplyIsolated s) := by
  unfold supplyIsolated
  dsimp only
  exact (((MonOnly.updFault s _).trans (MonOnly.set _ _)).trans (MonOnly.event _ _ _ _)).trans (MonOnly.noteState _ _)

/-- What a supply reset leaves of the fault unit. -/
theorem supplyIsolated_mon (s : State) :
    (supplyIsolated s).mon.fault.isolated = true ∧ (supplyIsolated s).mon.fault.supplyReset = false ∧
    (supplyIsolated s).mon.fault.cause = 0x0F03 ∧ (supplyIsolated s).mon.fault.isolateN = true ∧
    QueueKept s.mon (supplyIsolated s).mon := by
  unfold supplyIsolated
  dsimp only
  generalize hs2 : s.updFault (fun f => { f with supplyReset := false, isolated := true, cause := 0x0F03, isolateN := true }) = s2
  generalize hr : ({ code := 0x0F03, cls := .contained, detail := s2.mon.fault.lowest % 65536 } : Raise) = r
  have hraise := (SignalsOnly.raiseAs s2.mon s2.regs s2.time.count r).trans
    (SignalsOnly.event _ s2.regs Dict.FAULT_EVENTS 0 3)
  obtain ⟨h, hnote⟩ := noteState_mon (faultState s)
    (State.event { s2 with mon := s2.mon.raiseAs s2.regs s2.time.count r } Dict.FAULT_EVENTS 0 3)
  refine ⟨hnote.isolated.trans ?_, hnote.supplyReset.trans ?_, hnote.cause.trans ?_, hnote.isolateN.trans ?_, ?_⟩
  · exact hraise.isolated.trans (by rw [← hs2]; rfl)
  · exact hraise.supplyReset.trans (by rw [← hs2]; rfl)
  · exact hraise.cause.trans (by rw [← hs2]; rfl)
  · exact hraise.isolateN.trans (by rw [← hs2]; rfl)
  · have h2 : QueueKept s.mon s2.mon := by rw [← hs2]; exact ⟨fun _ h => h, fun _ => rfl⟩
    exact (h2.trans hraise.kept).trans ⟨hnote.queued, hnote.targetsK⟩

/-- The kind of reset changes the watching units alone, and keeps what waits there. -/
theorem kindEnds_only (s : State) : MonOnly s (kindEnds s) ∧ QueueKept s.mon (kindEnds s).mon := by
  obtain ⟨honly, hsig⟩ := commandNoted_only s
  rw [kindEnds_eq]
  split
  · obtain ⟨-, -, -, -, hkept⟩ := supplyIsolated_mon (commandNoted s)
    exact ⟨honly.trans (supplyIsolated_only _), hsig.kept.trans hkept⟩
  · exact ⟨honly.trans (MonOnly.updFault _ _), hsig.kept.trans ⟨fun _ h => h, fun _ => rfl⟩⟩

/-- Without a supply reset ISOLATE_N is released and isolation left as it was. -/
theorem kindEnds_released {s : State} (h : s.mon.fault.supplyReset = false) :
    (kindEnds s).mon.fault.isolateN = false ∧ (kindEnds s).mon.fault.isolated = s.mon.fault.isolated := by
  rw [kindEnds_eq, h, if_neg Bool.false_ne_true]
  exact ⟨rfl, (commandNoted_only s).2.isolated⟩

/-- With one the device is isolated. -/
theorem kindEnds_isolated {s : State} (h : s.mon.fault.supplyReset = true) :
    (kindEnds s).mon.fault.isolated = true ∧ (kindEnds s).mon.fault.supplyReset = false ∧ (kindEnds s).mon.fault.cause = 0x0F03 ∧
    (kindEnds s).mon.fault.isolateN = true := by
  obtain ⟨h1, h2, h3, h4, -⟩ := supplyIsolated_mon (commandNoted s)
  rw [kindEnds_eq, if_pos h]
  exact ⟨h1, h2, h3, h4⟩

/-- Of the watching units a wake's end does no more than signal, and outside them and the power unit nothing. -/
theorem wakeEnds_only (s : State) :
    wakeEnds s = { s with mon := (wakeEnds s).mon, pwr := (wakeEnds s).pwr } ∧ SignalsOnly s.mon (wakeEnds s).mon := by
  unfold wakeEnds
  split
  · dsimp only
    split
    · exact ⟨rfl, (SignalsOnly.raise _ _ _ _ _ _ _).trans (SignalsOnly.event _ _ _ _ _)⟩
    · exact ⟨rfl, SignalsOnly.refl _⟩
  · exact ⟨rfl, SignalsOnly.refl _⟩

/-- The power unit once a wake has ended, and is remembered (R484). -/
def awake (w : PwrUnit) : PwrUnit :=
  if w.st = .waking then
    { w with st := .run, wakeN := false, wake := none, lastWake := packWake w.wake w.wakeSecs, wakeSlow := false }
  else w

theorem wakeEnds_pwr (s : State) : (wakeEnds s).pwr = awake s.pwr := by
  unfold wakeEnds awake
  split
  · dsimp only
    split <;> rfl
  · rfl

/-- Firmware that was activated is counted (R503). -/
def activationNoted (b : Bool) (s : State) : State := if b then (s.count 0x887).event Dict.SEC_EVENTS 0 4 else s

theorem activationNoted_only (b : Bool) (s : State) : MonOnly s (activationNoted b s) ∧ SignalsOnly s.mon (activationNoted b s).mon := by
  cases b with
  | false => exact ⟨MonOnly.refl s, SignalsOnly.refl _⟩
  | true => exact ⟨(MonOnly.count s _ _ _).trans (MonOnly.event _ _ _ _), (SignalsOnly.count _ _ _ _ _).trans (SignalsOnly.event _ _ _ _ _)⟩

/-- Everything that step 6 does once the dictionary is checked. -/
def firmwareEnds (activated : Bool) (s : State) : State :=
  forEach ((activationNoted activated (wakeEnds (kindEnds s))).event Dict.PWR_EVENTS 0 0) (List.range 12) benchStart

theorem firmwareStart_eq (bad : Bool) (s : State) :
    firmwareStart bad s = firmwareEnds s.sec.activated (if bad then dictFails (firmwareBegun s) else firmwareBegun s) := rfl

/-- After the dictionary's check only the watching units and the power unit change: signals are given, bit 0 of PWR_EVENTS among them, a wake
ends, and the benches start. -/
theorem firmwareEnds_spec (b : Bool) (s : State) :
    ∃ u : State, u = { s with mon := u.mon, pwr := awake s.pwr } ∧ SignalsOnly (kindEnds s).mon u.mon ∧
      bitAt (evregGet u.mon.evreg Dict.PWR_EVENTS 0) 0 = true ∧ BenchesOnly u (firmwareEnds b s) ∧
      ∀ n, n < 12 → benchServed (firmwareEnds b s) n := by
  obtain ⟨hkind, -⟩ := kindEnds_only s
  obtain ⟨hwake, hwakeSig⟩ := wakeEnds_only (kindEnds s)
  obtain ⟨hact, hactSig⟩ := activationNoted_only b (wakeEnds (kindEnds s))
  obtain ⟨honly, hserved⟩ := benchStarts_spec ((activationNoted b (wakeEnds (kindEnds s))).event Dict.PWR_EVENTS 0 0) 12
  unfold firmwareEnds
  generalize activationNoted b (wakeEnds (kindEnds s)) = w at *
  have hmon := hact.trans (MonOnly.event w Dict.PWR_EVENTS 0 0)
  have hsig := (hwakeSig.trans hactSig).trans (SignalsOnly.event w.mon w.regs Dict.PWR_EVENTS 0 0)
  have hbit := Mon.event_bit w.mon w.regs Dict.PWR_EVENTS 0 0
  refine ⟨w.event Dict.PWR_EVENTS 0 0, ?_, hsig, hbit, honly, hserved⟩
  generalize w.event Dict.PWR_EVENTS 0 0 = u at hmon
  rw [hmon, hwake, wakeEnds_pwr, hkind.pwr, hkind]

/-- What step 6 leaves of the device that it begins with: its objects, its MRAM, the boot unit and the step. -/
theorem firmwareEnds_leaves (b : Bool) (s : State) :
    (firmwareEnds b s).regs = s.regs ∧ (firmwareEnds b s).mram = s.mram ∧ (firmwareEnds b s).sec = s.sec ∧
    (firmwareEnds b s).pwr.step = s.pwr.step := by
  obtain ⟨u, hu, -, -, hbench, -⟩ := firmwareEnds_spec b s
  rw [hbench.eq, hu]
  refine ⟨rfl, rfl, rfl, ?_⟩
  unfold awake
  split <;> rfl

/-- What it keeps of the watching units, and the bit it sets there. -/
theorem firmwareEnds_mon (b : Bool) (s : State) :
    SignalsOnly (kindEnds s).mon (firmwareEnds b s).mon ∧ bitAt (evregGet (firmwareEnds b s).mon.evreg Dict.PWR_EVENTS 0) 0 = true ∧
    QueueKept s.mon (firmwareEnds b s).mon := by
  obtain ⟨u, -, hsig, hbit, hbench, -⟩ := firmwareEnds_spec b s
  rw [hbench.eq]
  exact ⟨hsig, hbit, (kindEnds_only s).2.trans hsig.kept⟩

/-- What it makes of the power unit. -/
theorem firmwareEnds_pwr (b : Bool) (s : State) :
    (firmwareEnds b s).pwr.st = (awake s.pwr).st ∧ (firmwareEnds b s).pwr.wakeN = (awake s.pwr).wakeN ∧
    (firmwareEnds b s).pwr.lastWake = (awake s.pwr).lastWake := by
  obtain ⟨u, hu, -, -, hbench, -⟩ := firmwareEnds_spec b s
  rw [hbench.eq, hu]
  exact ⟨rfl, rfl, rfl⟩

/-! ### The start of the firmware (R71, R475) -/

/-- The firmware may start: the boot ROM has passed control, and the device is powered and not Fatal. -/
def FirmwareMayStart (s : State) : Prop :=
  s.pwr.step = 5 ∧ s.sec.sealed = true ∧ s.sec.bootStatus = 0 ∧ s.pwr.off = false ∧ s.mon.fault.fatal = false

theorem exec_firmwareStart_idle {s : State} (h : ¬ FirmwareMayStart s) (bad : Bool) : exec (.firmwareStart bad) s = .next s := by
  show Host.Outcome.next (if _ then _ else s) = _
  rw [if_neg]
  simpa [FirmwareMayStart] using h

theorem exec_firmwareStart {s : State} (h : FirmwareMayStart s) (bad : Bool) :
    exec (.firmwareStart bad) s = .next (firmwareEnds s.sec.activated (if bad then dictFails (firmwareBegun s) else firmwareBegun s)) := by
  show Host.Outcome.next (if _ then firmwareStart bad s else s) = _
  rw [if_pos (by simpa [FirmwareMayStart] using h), firmwareStart_eq]

/-- A start with a good dictionary area (R9, R436, R465, R475, R484). -/
theorem firmwareStart_good {s : State} (h : FirmwareMayStart s) (hm : (s.mram.map (·.1)).Nodup) :
    ∃ t, exec (.firmwareStart false) s = .next t ∧ t.pwr.step = 6 ∧ bitAt (evregGet t.mon.evreg Dict.PWR_EVENTS 0) 0 = true ∧ t.sec.bootFaults = [] ∧
      (∀ k v d, (k, v) ∈ s.mram → keptKey true k = false → tget d t.regs k = v) ∧
      (∀ k d, (∀ v, (k, v) ∉ s.mram) → tget d t.regs k = tget d s.regs k) ∧
      (∀ n, 300 ≤ n → n ≤ 349 → (claimRow t n).targetsK = 0x40) ∧
      (s.mon.fault.supplyReset = false → t.mon.fault.isolateN = false ∧ t.mon.fault.isolated = s.mon.fault.isolated) ∧
      (s.mon.fault.supplyReset = true → t.mon.fault.isolated = true ∧ t.mon.fault.supplyReset = false ∧ t.mon.fault.cause = 0x0F03 ∧
        t.mon.fault.isolateN = true) ∧
      (s.pwr.st = .waking → t.pwr.st = .run ∧ t.pwr.wakeN = false ∧ t.pwr.lastWake = packWake s.pwr.wake s.pwr.wakeSecs) ∧
      (s.pwr.st ≠ .waking → t.pwr.st = s.pwr.st) ∧
      ∀ b, b < 12 → benchWanted t b = true → bitAt t.pwr.benches b = true ∨ bitAt t.pwr.benchUp b = true := by
  have hbegun := firmwareBegun_eq s
  obtain ⟨m, hfault, htargets, hsig, -⟩ := firmwareBegun_mon s
  have hregs : (firmwareBegun s).regs = (restoreDict s).regs := by rw [hbegun]
  have hpwr : (firmwareBegun s).pwr = { s.pwr with step := 6 } := by rw [hbegun]
  have hsec : (firmwareBegun s).sec.bootFaults = [] := by rw [hbegun]
  have hsupply : (firmwareBegun s).mon.fault.supplyReset = s.mon.fault.supplyReset := by rw [hsig.supplyReset, hfault]
  have hisolated : (firmwareBegun s).mon.fault.isolated = s.mon.fault.isolated := by rw [hsig.isolated, hfault]
  have hrun := exec_firmwareStart h false
  rw [if_neg Bool.false_ne_true] at hrun
  generalize firmwareBegun s = u at *
  obtain ⟨hregs', -, hsec', hstep⟩ := firmwareEnds_leaves s.sec.activated u
  obtain ⟨hends, hbit, hkept⟩ := firmwareEnds_mon s.sec.activated u
  obtain ⟨hst, hwakeN, hlast⟩ := firmwareEnds_pwr s.sec.activated u
  obtain ⟨-, -, -, -, -, hserved⟩ := firmwareEnds_spec s.sec.activated u
  rw [hpwr] at hst hwakeN hlast
  refine ⟨_, hrun, by rw [hstep, hpwr], hbit, by rw [hsec', hsec], ?_, ?_, ?_, ?_, ?_, ?_, ?_, hserved⟩
  · intro k v d hk hkeep
    rw [hregs', hregs, restoreDict_listed hm hk hkeep]
  · intro k d hk
    rw [hregs', hregs, restoreDict_absent hk]
  · intro n h1 h2
    rw [claimRow, hkept.targetsK, hsig.targetsK, htargets n h1 h2]
  · intro hs
    obtain ⟨hN, hI⟩ := kindEnds_released (hsupply.trans hs)
    exact ⟨hends.isolateN.trans hN, hends.isolated.trans (hI.trans hisolated)⟩
  · intro hs
    obtain ⟨hI, hS, hC, hN⟩ := kindEnds_isolated (hsupply.trans hs)
    exact ⟨hends.isolated.trans hI, hends.supplyReset.trans hS, hends.cause.trans hC, hends.isolateN.trans hN⟩
  · intro hw
    rw [hst, hwakeN, hlast, awake, if_pos hw]
    exact ⟨rfl, rfl, rfl⟩
  · intro hw
    rw [hst, awake, if_neg hw]

/-- The failed dictionary area is emptied, and 0x0106 raised (R71). -/
theorem dictFails_spec (s : State) :
    (dictFails s).regs = s.regs.filter (fun c => !inDictArea c.1) ∧ (dictFails s).mram = s.mram.filter (fun c => !inDictArea c.1) ∧
    (dictFails s).pwr = s.pwr ∧ (Loggable s 0x0106 0 0 → ownRaise s 0x0106 0 0 0 ∈ (dictFails s).mon.fault.queue) := by
  unfold dictFails
  refine ⟨rfl, rfl, rfl, fun hl => ?_⟩
  have hlogged : Logged s _ 0x0106 0 0 0 := State.raise_logged_after (u := { s with
    mram := s.mram.filter fun c => !inDictArea c.1, regs := s.regs.filter fun c => !inDictArea c.1
    ctl := { s.ctl with persistQ := s.ctl.persistQ.filter fun k => !inDictArea k } }) rfl rfl hl
  exact hlogged ▸ List.mem_append_right _ (List.mem_singleton.mpr rfl)

/-- A start with a bad one (R71). -/
theorem firmwareStart_bad {s : State} (h : FirmwareMayStart s) :
    ∃ t, exec (.firmwareStart true) s = .next t ∧ t.pwr.step = 6 ∧ (∀ k d, inDictArea k = true → tget d t.regs k = d) ∧
      (∀ c ∈ t.mram, inDictArea c.1 = false) ∧
      (∀ k d, inDictArea k = false → (∀ v, (k, v) ∉ s.mram) → tget d t.regs k = tget d s.regs k) ∧
      (s.sec.bootFaults = [] → Loggable s 0x0106 0 0 → ownRaise s 0x0106 0 0 0 ∈ t.mon.fault.queue) := by
  have hbegun := firmwareBegun_eq s
  obtain ⟨m, hfault, -, -, hquiet⟩ := firmwareBegun_mon s
  have hregs : (firmwareBegun s).regs = (restoreDict s).regs := by rw [hbegun]
  have hpwr : (firmwareBegun s).pwr = { s.pwr with step := 6 } := by rw [hbegun]
  have htime : (firmwareBegun s).time = s.time := by rw [hbegun]
  have hrun := exec_firmwareStart h true
  rw [if_pos rfl] at hrun
  generalize firmwareBegun s = u at *
  obtain ⟨hdictRegs, hdictMram, hdictPwr, hdictLog⟩ := dictFails_spec u
  generalize dictFails u = v at *
  obtain ⟨hregs', hmram', -, hstep⟩ := firmwareEnds_leaves s.sec.activated v
  obtain ⟨-, -, hkept⟩ := firmwareEnds_mon s.sec.activated v
  refine ⟨_, hrun, by rw [hstep, hdictPwr, hpwr], ?_, ?_, ?_, ?_⟩
  · intro k d hk
    rw [hregs', hdictRegs, tget_filter_dropped _ _ _ _ fun _ => by simp [hk]]
  · intro c hc
    rw [hmram', hdictMram] at hc
    simpa using (List.mem_filter.mp hc).2
  · intro k d hk hm
    rw [hregs', hdictRegs, tget_filter_kept _ _ _ _ (fun _ => by simp [hk]), hregs, restoreDict_absent hm]
  · intro hf hl
    have hu : u.mon.fault = s.mon.fault := by rw [hquiet hf, hfault]
    have hraise : ownRaise u 0x0106 0 0 0 = ownRaise s 0x0106 0 0 0 := by simp only [ownRaise, htime]
    rw [← hraise]
    exact hkept.queued _ (hdictLog (by simpa only [Loggable, hu, htime] using hl))

/-- Settles O51, clause by clause: the run of the boot ROM, as sampled and by what is staged, and the start of the firmware. -/
theorem bootRunsAndFirmwareStarts : Obligations.BootRunsAndFirmwareStarts := by
  refine ⟨?_, ?_, ?_⟩
  · intro s sel bs ba cut h
    refine exec_bootRomRun_idle (fun ⟨h3, h6, hoff, hfatal⟩ => ?_) sel bs ba cut
    rcases h with h | h | h | h
    · omega
    · omega
    · rw [hoff] at h; cases h
    · rw [hfatal] at h; cases h
  · intro s bs ba cut h3 h6 hoff hfatal
    have hrun : RomMayRun s := ⟨h3, h6, hoff, hfatal⟩
    refine ⟨recoveryBoot hrun bs ba cut, fun hst => ⟨?_, ?_⟩, fun hst hc => ⟨?_, fun hv => ⟨?_, ?_⟩⟩⟩
    · exact fun c hc hcop hdig hv hfmt => normalBoot_in_force hrun hst hc hcop hdig hv hfmt bs cut
    · exact fun hc hf hq => normalBoot_unnamed hrun hst hc hf hq bs cut
    · exact fun hv => normalBoot_rejects hrun hst hc hv bs ba cut
    · exact normalBoot_copy_cut hrun hst hc hv ba
    · exact normalBoot_copy_done hrun hst hc hv ba
  · intro s
    refine ⟨fun bad h => ?_, fun h5 hsealed hstatus hoff hfatal hm => ?_, fun h5 hsealed hstatus hoff hfatal => ?_⟩
    · refine exec_firmwareStart_idle (fun ⟨h5, hsealed, hstatus, _⟩ => ?_) bad
      rcases h with h | h | h
      · exact h h5
      · rw [hsealed] at h; cases h
      · exact h hstatus
    · exact firmwareStart_good ⟨h5, hsealed, hstatus, hoff, hfatal⟩ hm
    · exact firmwareStart_bad ⟨h5, hsealed, hstatus, hoff, hfatal⟩

end Sys2Proof.Machine
end

section
/-!
The dictionary's ports: the acceptance of the request at the front (O8), the MRAM's copies, the mailbox and the in-band feed (O10), the
sideband and the M port's reset (O11), and a function's management slots (O33).
-/
namespace Sys2Proof.Machine

/-! ### The request at the front (R48, R53, R54) -/

@[simp] theorem takeHead_applyQ (s : State) (f : Feed) : (takeHead s f).ctl.applyQ = s.ctl.applyQ := by cases f <;> rfl

@[simp] theorem takeHead_readQ (s : State) (f : Feed) : (takeHead s f).ctl.readQ = s.ctl.readQ := by cases f <;> rfl

/-- The front end judges the request at the front when it has the operation asked for. -/
theorem acceptFront_judges {s : State} {f : Feed} {q : Req} {op : Nat} (hf : frontFeed s = some f) (hh : headOf s f = some q)
    (hop : q.op = op) : acceptFront s op = acceptReq (takeHead s f) q := by
  simp [acceptFront, hf, hh, hop]

/-- Noting the master of a request changes its silence alone. -/
theorem noteMaster_eq (s : State) (q : Req) :
    noteMaster s q = { s with ctl := { s.ctl with mMasters := (noteMaster s q).ctl.mMasters } } := by
  unfold noteMaster
  split <;> rfl

theorem place_read {q : Req} (hop : q.op = 1 ∨ q.op = 3 ∨ q.op = 7) (s : State) :
    place s q = { s with ctl := { s.ctl with readQ := s.ctl.readQ ++ [q] } } := by
  rw [place, if_neg (by omega), if_neg (by omega)]
  rfl

theorem place_write {q : Req} (hop : q.op = 2) (s : State) :
    place s q = { s with ctl := { s.ctl with applyQ := s.ctl.applyQ ++ [q] } } := by
  rw [place, if_neg (by omega), if_pos hop]
  rfl

section
variable {s : State} {f : Feed} {q : Req} {op : Nat} (hf : frontFeed s = some f) (hh : headOf s f = some q) (hop : q.op = op)
include hf hh hop

/-- A request that passes the checks is placed, with its stitch of acceptance, in a state of which only the feeds and the masters' silence
have changed. -/
theorem acceptFront_places (hs : acceptStatus (takeHead s f) q = 0) :
    ∃ u, acceptFront s op = place u { q with accAt := s.time.count } ∧ u = { s with ctl := u.ctl, mon := u.mon } ∧ Unfaulted s u ∧
      u.ctl.readQ = s.ctl.readQ ∧ u.ctl.applyQ = s.ctl.applyQ := by
  refine ⟨noteMaster ((takeHead s f).count 0x080) q, ?_, ?_, ?_, ?_, ?_⟩
  · rw [acceptFront_judges hf hh hop, acceptReq, hs]
    rfl
  · rw [noteMaster_eq]
    rfl
  all_goals rw [noteMaster_eq]
  · exact Mon.count_fault _ _ _ _ _
  · exact takeHead_readQ s f
  · exact takeHead_applyQ s f

theorem front_joins_reads {i : Instr} (hi : exec i s = .next (acceptFront s op)) (hr : op = 1 ∨ op = 3 ∨ op = 7)
    (hs : acceptStatus (takeHead s f) q = 0) :
    ∃ t, exec i s = .next t ∧ t = { s with ctl := t.ctl, mon := t.mon } ∧ Unfaulted s t ∧
      t.ctl.readQ = s.ctl.readQ ++ [{ q with accAt := s.time.count }] ∧ t.ctl.applyQ = s.ctl.applyQ := by
  obtain ⟨u, hu, hframe, hfault, hreads, hwrites⟩ := acceptFront_places hf hh hop hs
  rw [place_read (by simpa only [hop] using hr), hreads] at hu
  refine ⟨_, hi.trans (congrArg _ hu), ?_, hfault, rfl, hwrites⟩
  rw [hframe]

theorem front_joins_writes {i : Instr} (hi : exec i s = .next (acceptFront s op)) (hw : op = 2)
    (hs : acceptStatus (takeHead s f) q = 0) :
    ∃ t, exec i s = .next t ∧ t = { s with ctl := t.ctl, mon := t.mon } ∧ Unfaulted s t ∧
      t.ctl.applyQ = s.ctl.applyQ ++ [{ q with accAt := s.time.count }] ∧ t.ctl.readQ = s.ctl.readQ := by
  obtain ⟨u, hu, hframe, hfault, hreads, hwrites⟩ := acceptFront_places hf hh hop hs
  rw [place_write (q := { q with accAt := s.time.count }) (hop.trans hw), hwrites] at hu
  refine ⟨_, hi.trans (congrArg _ hu), ?_, hfault, rfl, hreads⟩
  rw [hframe]
end

/-- A response to the mailbox or the sideband is sent, and joins no queue of requests. -/
theorem sendResp_host_or_sideband (s : State) {r : Resp} (h : r.feed ≠ .inband) :
    sendResp s r = { s with ctl := (sendResp s r).ctl, mon := (sendResp s r).mon, out := .resp r :: s.out } ∧
      (sendResp s r).mon.fault = s.mon.fault ∧ (sendResp s r).ctl.applyQ = s.ctl.applyQ ∧ (sendResp s r).ctl.readQ = s.ctl.readQ := by
  unfold sendResp
  cases hr : r.feed with
  | mbx =>
    dsimp only
    split
    · exact ⟨rfl, Mon.fire_fault _ _ _, rfl, rfl⟩
    · exact ⟨rfl, rfl, rfl, rfl⟩
  | inband => exact absurd hr h
  | sideband =>
    dsimp only
    split <;> exact ⟨rfl, rfl, rfl, rfl⟩

/-- A request that is refused for another reason than a full apply queue is counted and answered with STITCH 0 (R48). -/
theorem refuse_answers (s : State) {q : Req} {status : Nat} (hm : q.mute = false) (hs : status ≠ 0x0A) :
    refuse s q status = sendResp (s.count 0x082) (answer q status 0 []) := by
  rw [refuse, if_neg hs, respond, hm]
  rfl

theorem front_refuses {s : State} {f : Feed} {q : Req} {op : Nat} {i : Instr} (hf : frontFeed s = some f)
    (hh : headOf s f = some q) (hop : q.op = op) (hi : exec i s = .next (acceptFront s op)) (hm : q.mute = false)
    (h0 : acceptStatus (takeHead s f) q ≠ 0) (hA : acceptStatus (takeHead s f) q ≠ 0x0A) (hfeed : q.feed ≠ .inband) :
    ∃ t, exec i s = .next t ∧ t = { s with ctl := t.ctl, mon := t.mon, out := t.out } ∧ Unfaulted s t ∧
      t.ctl.applyQ = s.ctl.applyQ ∧ t.ctl.readQ = s.ctl.readQ ∧
      t.out = .resp (answer q (acceptStatus (takeHead s f) q) 0 []) :: s.out := by
  have hacc : acceptFront s op =
      sendResp ((takeHead s f).count 0x082) (answer q (acceptStatus (takeHead s f) q) 0 []) := by
    rw [acceptFront_judges hf hh hop, acceptReq, ← refuse_answers _ hm hA]
    exact if_pos h0
  obtain ⟨hsent, hfault, hwrites, hreads⟩ :=
    sendResp_host_or_sideband ((takeHead s f).count 0x082) (r := answer q (acceptStatus (takeHead s f) q) 0 []) hfeed
  refine ⟨_, hi.trans (congrArg _ hacc), ?_, ?_, ?_, ?_, ?_⟩
  · rw [hsent]
    rfl
  · exact hfault.trans (Mon.count_fault _ _ _ _ _)
  · exact hwrites.trans (takeHead_applyQ s f)
  · exact hreads.trans (takeHead_readQ s f)
  · rw [hsent]
    rfl

/-- Settles O8: the request at the front is judged, and placed or answered. -/
theorem frontRequestAccepted : Obligations.FrontRequestAccepted := by
  intro s f q hf hh hm
  refine ⟨fun hs => ⟨fun hop => ?_, fun hop => ?_, fun hop => ?_, fun hop => ?_⟩, fun h0 hA hop hfeed hplace => ?_⟩
  · exact front_joins_reads hf hh hop rfl (.inl rfl) hs
  · exact front_joins_reads hf hh hop rfl (.inr (.inl rfl)) hs
  · exact front_joins_reads hf hh hop rfl (.inr (.inr rfl)) hs
  · exact front_joins_writes hf hh hop rfl rfl hs
  · refine front_refuses hf hh hop rfl hm h0 hA ?_
    rcases hplace with rfl | ⟨rfl, _⟩ <;> simp [hfeed]

/-! ### The copies to the MRAM (R58) -/

/-- A table reads at a key what its first cell of that key holds. -/
theorem tget_of_find? {α : Type} (d : α) (t : Tbl α) (k : Nat) : tget d t k = ((t.find? fun c => c.1 = k).map (·.2)).getD d := by
  induction t with
  | nil => rfl
  | cons c t ih =>
    obtain ⟨k0, v0⟩ := c
    by_cases hk : k = k0
    · simp [tget, hk]
    · simp [tget, hk, Ne.symm hk, ih]

/-- The cells of an MRAM area once a key's copy has been made from the values in force. -/
def copied (regs mram : Tbl Nat) (k : Nat) : Tbl Nat :=
  match regs.find? fun c => c.1 = k with
  | some c => mergeCell mram c
  | none => tdrop mram k

theorem tget_copied (d : Nat) (regs mram : Tbl Nat) (k k' : Nat) :
    tget d (copied regs mram k) k' = if k' = k then tget d regs k else tget d mram k' := by
  rw [tget_of_find? d regs k, copied]
  cases hc : regs.find? fun c => c.1 = k with
  | some c =>
    obtain rfl : c.1 = k := by simpa using List.find?_some hc
    exact tget_mergeCell d mram c k'
  | none =>
    dsimp only [Option.map_none, Option.getD_none]
    split
    case isTrue hk => rw [hk, tget_tdrop_self]
    case isFalse hk => exact tget_tdrop_ne d mram hk

section
variable {s : State} {k : Nat} {rest : List Nat} (h : s.ctl.persistQ = k :: rest)
include h

theorem exec_persistCopy_done :
    exec (.persistCopy true) s = .next { s with ctl := { s.ctl with persistQ := rest }, mram := copied s.regs s.mram k } := by
  show execPersistCopy true s = _
  rw [execPersistCopy, h, copied]
  cases hc : s.regs.find? fun c => c.1 = k with
  | some c =>
    obtain rfl : c.1 = k := by simpa using List.find?_some hc
    simp only [if_true, State.updCtl, hc, mergeCell]
  | none => simp only [if_true, State.updCtl, hc, tdrop]

theorem exec_persistCopy_failed :
    exec (.persistCopy false) s = .next (State.raise { s with ctl := { s.ctl with persistQ := rest } } 0x0104) := by
  show execPersistCopy false s = _
  rw [execPersistCopy, h]
  rfl
end

/-! ### The mailbox's registers (R61) -/

/-- A host access to a BAR of the PF reaches the running core while the link is Up. -/
theorem mmio_pf_reaches {s : State} (hc : coreUp s = true) (hu : s.host.units ≠ 0) (t : State) : mmio s 0 t = .next t := by
  simp [mmio, fnPresent, hc, hu]

theorem exec_mbxDoorbell {s : State} (hc : coreUp s = true) (hu : s.host.units ≠ 0) {bytes : Nat} (hb : bytes < 2048) :
    exec (.mbxDoorbell bytes) s = .next (mailboxDoorbell s bytes) := by
  show mmio s 0 (mailboxDoorbell s (bytes % 2048)) = _
  rw [mmio_pf_reaches hc hu, Nat.mod_eq_of_lt hb]

theorem exec_mbxRespDone {s : State} (hc : coreUp s = true) (hu : s.host.units ≠ 0) {v : Nat} (hv : bitAt v 0 = true) :
    exec (.mbxRespDone v) s = .next { s with ctl := { s.ctl with mbxResp := false } } := by
  show mmio s 0 (mailboxDone s v) = _
  rw [mmio_pf_reaches hc hu, mailboxDone, if_pos hv]
  rfl

theorem mailboxDoorbell_submits {s : State} {bytes : Nat} (hb : s.ctl.mbxBusy = false) (hr : s.ctl.mbxResp = false) (h16 : 16 ≤ bytes)
    (h1024 : bytes ≤ 1024) (hlen : bytes = 16 + (mailboxReq s bytes).len) :
    mailboxDoorbell s bytes = { s with ctl := { s.ctl with mbxBusy := true, mbxWait := some (mailboxReq s bytes) } } := by
  have hfits : ¬ (bytes < 16 ∨ 1024 < bytes ∨ bytes ≠ 16 + (mailboxReq s bytes).len) := by omega
  rw [mailboxDoorbell, hb, hr]
  exact if_neg hfits

theorem mailboxDoorbell_dropped {s : State} (h : s.ctl.mbxBusy = true ∨ s.ctl.mbxResp = true) (bytes : Nat) :
    mailboxDoorbell s bytes = s.count 0x086 := by
  rw [mailboxDoorbell, if_pos (by simpa using h)]

/-! ### The in-band feed (R62 to R64) -/

theorem exec_mgmtRequestPacket {s : State} {d : Delivered} (h : deliveredHead s portSP 0xF0 = some d) :
    exec .mgmtRequestPacket s = .next (inbandPacket (takeDelivered s portSP) d) := by
  show execMgmtRequestPacket s = _
  rw [execMgmtRequestPacket, h]

/-- A request that is new to the filter enters it and the feed's buffer while both have room. -/
theorem inbandEnter_new {s : State} {q : Req} (hnew : s.ctl.dups.find? (dupMatches q) = none) (hdups : s.ctl.dups.length < 256)
    (hroom : s.ctl.inbandQ.length < 16) :
    inbandEnter s q = { s with ctl := { s.ctl with
      inbandQ := s.ctl.inbandQ ++ [q], dups := s.ctl.dups ++ [{ sfna := q.sfna, agent := q.agent, seq := q.seq }] } } := by
  have hdr : dupRoom s.ctl.dups = some s.ctl.dups := if_pos hdups
  rw [inbandEnter, hnew, hdr]
  exact if_neg (by omega)

/-- A packet from an allowed source whose request is new enters the in-band feed. -/
theorem inbandPacket_new {s : State} {d : Delivered} (hpriv : d.pkt.priv = true) (hsrc : sourceAllowed s d.pkt.sfna = true)
    (hopen : inbandOpen s = true) (hlen : 16 ≤ d.pkt.payload.length) (hnew : s.ctl.dups.find? (dupMatches (inbandReq d)) = none)
    (hdups : s.ctl.dups.length < 256) (hroom : s.ctl.inbandQ.length < 16) :
    inbandPacket s d = { s with ctl := { s.ctl with
      inbandQ := s.ctl.inbandQ ++ [inbandReq d]
      dups := s.ctl.dups ++ [{ sfna := (inbandReq d).sfna, agent := (inbandReq d).agent, seq := (inbandReq d).seq }] } } := by
  rw [inbandPacket, if_neg (by simp [hpriv, hsrc]), if_neg (by simp [hopen]), if_neg (by omega)]
  exact inbandEnter_new hnew hdups hroom

theorem inbandPacket_refused {s : State} {d : Delivered} (h : sourceAllowed s d.pkt.sfna = false) :
    inbandPacket s d =
      (State.count { s with ctl := { s.ctl with refusedSfna := d.pkt.sfna } } 0x083).raise 0x0101 := by
  rw [inbandPacket, if_pos (.inr (by simp [h]))]
  rfl

/-! ### The duplicate filter's expiry (R64) -/

/-- The filter keeps the entries that wait, and those that were answered less than 1 fr ago. -/
theorem dupFilterExpiry_keeps (s : State) :
    ∃ t, exec .dupFilterExpiry s = .next t ∧ t = { s with ctl := { s.ctl with dups := t.ctl.dups } } ∧
      t.ctl.dups.Sublist s.ctl.dups ∧
      ∀ e, e ∈ t.ctl.dups ↔ e ∈ s.ctl.dups ∧ (e.resp = none ∨ s.time.count < e.sentAt + 1024) := by
  refine ⟨_, rfl, rfl, List.filter_sublist, fun e => ?_⟩
  simp [State.updCtl, List.mem_filter]

/-- Settles O10, clause by clause. -/
theorem mailboxAndInbandTaken : Obligations.MailboxAndInbandTaken := by
  refine ⟨fun s k rest h => ⟨?_, fun hl => ?_⟩, fun s bytes hc hu hb => ⟨?_, fun h => ?_⟩,
    fun s v hc hu hv => exec_mbxRespDone hc hu hv, fun s d hd hpriv => ⟨?_, fun hsrc => ?_⟩, dupFilterExpiry_keeps⟩
  · exact ⟨_, exec_persistCopy_done h, rfl, fun d => (tget_copied d _ _ k k).trans (if_pos rfl),
      fun d k' hk => (tget_copied d _ _ k k').trans (if_neg hk)⟩
  · exact ⟨_, exec_persistCopy_failed h, rfl, State.raise_logged_after rfl rfl hl⟩
  · intro hbusy hresp h16 h1024 hlen
    rw [exec_mbxDoorbell hc hu hb, mailboxDoorbell_submits hbusy hresp h16 h1024 hlen]
  · exact ⟨s.count 0x086, (exec_mbxDoorbell hc hu hb).trans (congrArg _ (mailboxDoorbell_dropped h bytes)), rfl,
      Mon.count_fault _ _ _ _ _⟩
  · intro hsrc hopen hlen hnew hdups hroom
    exact ⟨_, (exec_mgmtRequestPacket hd).trans
      (congrArg _ (inbandPacket_new (s := takeDelivered s portSP) hpriv hsrc hopen hlen hnew hdups hroom)), rfl, rfl⟩
  · exact ⟨_, (exec_mgmtRequestPacket hd).trans (congrArg _ (inbandPacket_refused hsrc)), rfl, rfl⟩

/-! ### The sideband's commands (R66) -/

section
variable {s : State} {n : Nat} (hoff : s.pwr.off = false) (hroom : s.ctl.sbReqQ.length < 4) (h16 : 16 ≤ n) (h252 : n ≤ 252)
include hoff hroom h16 h252

theorem exec_sbRequestWrite_queues {pec : PecCheck} (hp : pecFails s pec = false) (bytes : List Byte) :
    exec (.sbRequestWrite bytes n pec) s =
      .next { s with ctl := { s.ctl with sbReqQ := s.ctl.sbReqQ ++ [sidebandReq bytes n] } } := by
  show execSbRequestWrite bytes n pec s = _
  rw [execSbRequestWrite, if_neg (by simp [hoff]; omega), if_neg (by simp [hp])]
  rfl

theorem exec_sbRequestWrite_pecFails {pec : PecCheck} (hp : pecFails s pec = true) (bytes : List Byte) :
    exec (.sbRequestWrite bytes n pec) s =
      .next ((State.count { s with ctl := { s.ctl with sbPecErr := true } } 0x085).raise 0x0102) := by
  show execSbRequestWrite bytes n pec s = _
  rw [execSbRequestWrite, if_neg (by simp [hoff]; omega), if_pos hp]
  rfl
end

theorem exec_sbResponseRead_takes {s : State} {r : Resp} {rest : List Resp} (hoff : s.pwr.off = false) (h : s.ctl.sbRespQ = r :: rest) :
    exec .sbResponseRead s = .next { s with
      ctl := { s.ctl with sbRespQ := rest ++ s.ctl.sbHeld.toList, sbHeld := none }, out := .sideband (respBytes r) :: s.out } := by
  show execSbResponseRead s = _
  rw [execSbResponseRead, if_neg (by simp [hoff]), h]
  rfl

/-- The status byte is RESP_READY, REQ_FULL and PEC_ERR, one bit each. -/
theorem sidebandStatus_bits (s : State) :
    let b : Byte := BitVec.ofNat 8 (sidebandStatus s)
    b.getLsbD 0 = !s.ctl.sbRespQ.isEmpty ∧ b.getLsbD 1 = decide (4 ≤ s.ctl.sbReqQ.length) ∧ b.getLsbD 2 = s.ctl.sbPecErr ∧
      b.toNat < 8 := by
  have hbits : ∀ ready full err : Bool,
      let b : Byte := BitVec.ofNat 8 (b2n ready + 2 * b2n full + 4 * b2n err)
      b.getLsbD 0 = ready ∧ b.getLsbD 1 = full ∧ b.getLsbD 2 = err ∧ b.toNat < 8 := by decide
  exact hbits _ _ _

theorem exec_sbStatusRead {s : State} (hoff : s.pwr.off = false) :
    exec .sbStatusRead s = .next { s with
      ctl := { s.ctl with sbPecErr := false }, out := .sideband [BitVec.ofNat 8 (sidebandStatus s)] :: s.out } := by
  show execSbStatusRead s = _
  rw [execSbStatusRead, if_neg (by simp [hoff])]
  rfl

theorem exec_sbDynamicAddress {s : State} (hoff : s.pwr.off = false) (v : Nat) :
    exec (.sbDynamicAddress v) s = .next { s with ctl := { s.ctl with sbDynAddr := some (v % 128) } } := by
  show execSbDynamicAddress v s = _
  rw [execSbDynamicAddress, if_neg (by simp [hoff])]
  rfl

/-! ### What causes an M-port reset (R69) -/

theorem applyMReset_eq (s : State) (v : Nat) :
    applyMReset s v = { s with ctl := { s.ctl with mResetDue := s.ctl.mResetDue || decide (v = 1) } } := by
  unfold applyMReset
  split
  case isTrue h => simp [State.updCtl, h]
  case isFalse h => simp [h]

theorem exec_sbResetByte {s : State} (hoff : s.pwr.off = false) (v : Nat) :
    exec (.sbResetByte v) s = .next { s with ctl := { s.ctl with mResetDue := s.ctl.mResetDue || decide (v = 0xA5) } } := by
  show execSbResetByte v s = _
  by_cases hv : v = 0xA5 <;> simp [execSbResetByte, hoff, applyMReset_eq, hv]

theorem exec_mIdleResetExpiry {s : State} (h : idleResetDue s = true) :
    exec .mIdleResetExpiry s = .next { s with ctl := { s.ctl with mResetDue := true } } := by
  show execMIdleResetExpiry s = _
  rw [execMIdleResetExpiry, if_pos h, applyMReset_eq]
  simp

/-! ### The M port's two writes (R68, R69) -/

/-- A BOOL that the running core accepts is applied. -/
theorem judged_bool {s e : State} (hc : coreUp s = true) {v : Nat} (hv : v ≤ 1) :
    judged s (boolCheck v) e = .next ((e.applied.wrote 0).latched) := by
  rw [boolCheck, if_pos hv, judged_accepts hc]

theorem ctlMResetWrite_applies {s : State} (hc : coreUp s = true) {v : Nat} (hv : v ≤ 1) :
    ∃ t, exec (.ctlMResetWrite v) s = .next t ∧ t = { s with ctl := t.ctl, mon := t.mon, latch := t.latch } ∧ Unfaulted s t ∧
      t.latch = t.toChip ∧
      t.ctl = { s.ctl with mResetDue := s.ctl.mResetDue || decide (v = 1), writeStatus := 0, applyLast := s.time.count } := by
  refine ⟨((applyMReset s v).applied.wrote 0).latched, judged_bool hc hv, ?_⟩
  rw [applyMReset_eq]
  exact ⟨rfl, Mon.count_fault _ _ _ _ _, rfl, rfl⟩

/-- Noting that a copy is owed changes the list of owed copies alone. -/
theorem persists_eq (s : State) (o : Obj) (row : Nat) :
    s.persists o row = { s with ctl := { s.ctl with persistQ := (s.persists o row).ctl.persistQ } } := by
  unfold State.persists
  split <;> rfl

theorem ctlMInbandEnableWrite_applies {s : State} (hc : coreUp s = true) {v : Nat} (hv : v ≤ 1) :
    ∃ t, exec (.ctlMInbandEnableWrite v) s = .next t ∧
      t = { s with regs := t.regs, ctl := t.ctl, mon := t.mon, latch := t.latch } ∧ Unfaulted s t ∧
      t.reg Dict.CTL_M_INBAND_ENABLE = v ∧ t.ctl.writeStatus = 0 ∧ t.ctl.applyLast = s.time.count ∧ t.ctl.inbandQ = s.ctl.inbandQ := by
  refine ⟨((((s.setReg Dict.CTL_M_INBAND_ENABLE 0 v).persists Dict.CTL_M_INBAND_ENABLE).applied.wrote 0).latched),
    judged_bool hc hv, ?_⟩
  rw [persists_eq]
  exact ⟨rfl, Mon.count_fault _ _ _ _ _, reg_setReg s _ 0 v, rfl, rfl, rfl⟩

/-! ### The M port's reset (R69) -/

/-- A reset that is due empties the feeds and the filter, and logs 0x0105; a write that the M port had accepted stays. -/
theorem mPortReset_performs {s : State} (hdue : s.ctl.mResetDue = true) (hl : Loggable s 0x0105 0 0) :
    ∃ t, exec .mPortReset s = .next t ∧
      t = { s with ctl := t.ctl, sem := t.sem, mon := t.mon } ∧ Logged s t 0x0105 0 0 0 ∧
      t.ctl.inbandQ = [] ∧ t.ctl.sbReqQ = [] ∧ t.ctl.sbHeld = none ∧ t.ctl.dups = [] ∧ t.ctl.mResetDue = false ∧
      t.ctl.applyQ.length = s.ctl.applyQ.length ∧ t.ctl.readQ = s.ctl.readQ.filter onH ∧
      t.sem = { s.sem with resets := s.sem.resets ++ [.mport] } := by
  have hexec : exec .mPortReset s = .next (mPortReset s) := rfl
  rw [mPortReset, if_pos hdue] at hexec
  exact ⟨_, hexec, rfl, State.raise_logged_after rfl rfl hl, rfl, rfl, rfl, rfl, rfl, List.length_map _, rfl, rfl⟩

/-- Settles O11: the sideband's commands, the three causes of an M-port reset, and the reset. -/
theorem sidebandAndMPortReset : Obligations.SidebandAndMPortReset := by
  refine ⟨fun s bytes n pec hoff hroom h16 h252 => ⟨fun hp => ?_, fun hp => ?_⟩, fun s r rest hoff h => exec_sbResponseRead_takes hoff h,
    fun s hoff => ⟨_, exec_sbStatusRead hoff, sidebandStatus_bits s⟩, fun s v hoff => exec_sbDynamicAddress hoff v, fun s => rfl,
    fun s v hoff => exec_sbResetByte hoff v, fun s v hc hv => ctlMResetWrite_applies hc hv, fun s h => exec_mIdleResetExpiry h,
    fun s v hc hv => ctlMInbandEnableWrite_applies hc hv, fun s hdue hl => mPortReset_performs hdue hl⟩
  · exact exec_sbRequestWrite_queues hoff hroom h16 h252 hp bytes
  · exact ⟨_, exec_sbRequestWrite_pecFails hoff hroom h16 h252 hp bytes, rfl⟩

/-! ### A management slot whose entry is a FENCE (R65, R310) -/

/-- A FENCE that has started and asks for no completion. -/
def silentFence : Entry := { kind := 1, opc := 0x10, started := true }

/-- Queue 0 with that FENCE as its only entry and 64 completion units in its function's DMA window, and slot 0 held for the same entry since
CTL_HOST_MGMT_TIMEOUT_ST. -/
def fenceInSlot : State :=
  { State.reset with
    time := { count := 9766 }
    ctl := { slots := [(0, some { queue := 0, entryIdx := 0, sentAt := 0 })] }
    host := { units := 8 }
    queues := { qs := [(0, { config := put 1 203 200, order := [silentFence] })] }
    regs := [(regKey Dict.ATTACH_DMA_WINDOW 0, 2 ^ 127 + 2 ^ 125 + put 1 47 12)] }

theorem fenceInSlot_lone : LoneEntry fenceInSlot 0 silentFence := by
  refine ⟨rfl, rfl, rfl, rfl, fun c hc hne => ?_⟩
  obtain rfl := List.mem_singleton.mp hc
  exact absurd rfl hne

theorem fenceInSlot_ringWritable : RingWritable fenceInSlot (ringOf fenceInSlot 0) := by
  unfold RingWritable
  decide +kernel

theorem fenceInSlot_timedOut : 0 + fenceInSlot.reg Dict.CTL_HOST_MGMT_TIMEOUT_ST ≤ fenceInSlot.time.count := by decide +kernel

/-- The timeout completes the FENCE with status 0 and so without a completion: nothing leaves the part. -/
theorem fenceInSlot_timeout_silent : (stateAfter (exec (.mgmtSlotTimeout 0) fenceInSlot) fenceInSlot).out = [] := by decide +kernel

/-- Refutes O33: its last clause lets the entry of the slot be any entry, and a FENCE that has started completes with status 0, not 0x2C.
Such a FENCE without CMPL writes no completion at all when its slot times out. -/
theorem not_functionManagementRequests : ¬ Obligations.FunctionManagementRequests := by
  unfold Obligations.FunctionManagementRequests
  rintro ⟨-, -, htimeout⟩
  obtain ⟨hexpired, -⟩ := htimeout fenceInSlot 0 { queue := 0, entryIdx := 0, sentAt := 0 } (by decide) rfl
  obtain ⟨t, ht, -, -, -, hcompletes⟩ := hexpired fenceInSlot_timedOut
  obtain ⟨-, hout, -⟩ := hcompletes silentFence fenceInSlot_lone rfl fenceInSlot_ringWritable
  have hsilent : t.out = [] := by
    have h := fenceInSlot_timeout_silent
    rwa [ht] at h
  rw [hsilent] at hout
  cases hout

end Sys2Proof.Machine
end

section
/-!
Lasts: an entry's way from its row to Armed or Refused, and to its close (O24), and the signals that wait for CP (O25).
-/
namespace Sys2Proof.Machine

/-! ### Sources that stay pending (R437) -/

/-- Between two states of the watching units sources fired at most: every source keeps its sense, and one that was pending still is. -/
structure PendingKept (m m' : Mon) : Prop where
  sense : ∀ n, (tget {} m'.claim.rows n).sense = (tget {} m.claim.rows n).sense
  pending : ∀ n, (tget {} m.claim.rows n).pending = true → (tget {} m'.claim.rows n).pending = true

namespace PendingKept

theorem refl (m : Mon) : PendingKept m m := ⟨fun _ => rfl, fun _ h => h⟩

theorem trans {a b c : Mon} (h : PendingKept a b) (g : PendingKept b c) : PendingKept a c :=
  ⟨fun n => (g.sense n).trans (h.sense n), fun n hn => g.pending n (h.pending n hn)⟩

/-- A step that leaves the claim controller alone. -/
theorem of_claim {m m' : Mon} (h : m'.claim = m.claim) : PendingKept m m' :=
  ⟨fun _ => by rw [h], fun _ => by rw [h]; exact id⟩

theorem claimFired {m m' : Mon} {n : Nat} (h : m'.claim = claimFire m.claim n) : PendingKept m m' := by
  have hrow : ∀ k, (tget {} m'.claim.rows k).sense = (tget {} m.claim.rows k).sense ∧
      ((tget {} m.claim.rows k).pending = true → (tget {} m'.claim.rows k).pending = true) := by
    intro k
    rw [h]
    by_cases hk : k = n
    · subst hk
      unfold claimFire
      split
      · exact ⟨rfl, id⟩
      · rw [tget_tupd_self]
        split
        · exact ⟨rfl, id⟩
        · exact ⟨rfl, fun _ => rfl⟩
    · rw [claimFire_other _ hk]
      exact ⟨rfl, id⟩
  exact ⟨fun k => (hrow k).1, fun k => (hrow k).2⟩

theorem fireQuiet (m : Mon) (n : Nat) : PendingKept m (m.fireQuiet n) := by
  unfold Mon.fireQuiet
  split
  · exact refl m
  · exact claimFired rfl

theorem counterIrq (m : Mon) (regs : Tbl Nat) : PendingKept m (m.counterIrq regs) := by
  unfold Mon.counterIrq
  split
  · exact refl m
  · dsimp only
    split
    · refine trans ?_ (fireQuiet _ _)
      exact of_claim rfl
    · exact of_claim rfl

theorem count (m : Mon) (regs : Tbl Nat) (ev inst n : Nat) : PendingKept m (m.count regs ev inst n) := by
  unfold Mon.count
  dsimp only
  split
  · refine trans ?_ (counterIrq _ _)
    exact of_claim rfl
  · exact of_claim rfl

theorem fire (m : Mon) (regs : Tbl Nat) (n : Nat) : PendingKept m (m.fire regs n) := by
  unfold Mon.fire
  split
  · exact refl m
  · dsimp only
    split
    · exact claimFired rfl
    · refine trans ?_ (count _ _ _ _ _)
      exact claimFired rfl

theorem event (m : Mon) (regs : Tbl Nat) (ev : Obj) (row bit : Nat) : PendingKept m (m.event regs ev row bit) := by
  unfold Mon.event
  split
  · exact refl m
  · dsimp only
    split
    · refine trans ?_ (fire _ _ _)
      exact of_claim rfl
    · exact of_claim rfl

theorem enqueue (m : Mon) (regs : Tbl Nat) (r : Raise) : PendingKept m (m.enqueue regs r) := by
  unfold Mon.enqueue
  split
  · exact of_claim rfl
  · refine trans ?_ (event _ _ _ _ _)
    refine trans ?_ (count _ _ _ _ _)
    exact of_claim rfl

theorem raise (m : Mon) (regs : Tbl Nat) (n code scope inst detail : Nat) :
    PendingKept m (m.raise regs n code scope inst detail) := by
  unfold Mon.raise Mon.raiseAs
  dsimp only
  split
  · refine trans ?_ (count _ _ _ _ _)
    exact of_claim rfl
  · split
    · refine trans ?_ (fire _ _ _)
      refine trans ?_ (enqueue _ _ _)
      exact of_claim rfl
    · refine trans ?_ (enqueue _ _ _)
      exact of_claim rfl

end PendingKept

/-- A source that fires is pending, whatever the firing counts. -/
theorem Mon.fire_pending (m : Mon) (regs : Tbl Nat) {n : Nat} (hr : reservedSource n = false) (he : (tget {} m.claim.rows n).sense = false) :
    (tget {} (m.fire regs n).claim.rows n).pending = true := by
  have hp := claimFire_pending m.claim n hr he
  unfold Mon.fire
  rw [if_neg (by simp [hr])]
  dsimp only
  split
  · exact hp
  · exact (PendingKept.count _ _ _ _ _).pending n hp

/-- A source that fires after steps that kept every sense. -/
theorem State.fire_fired {s u : State} (h : PendingKept s.mon u.mon) (n : Nat) : Fired s (u.fire n) n :=
  fun hr he => Mon.fire_pending _ _ hr ((h.sense n).trans he)

/-! ### The last unit's operations, by entry -/

/-- Only one entry, and what the last unit keeps besides its entries, differ. -/
def OnLast (s t : State) (key : Nat) : Prop := t = { s with lasts := t.lasts } ∧ OtherLasts s t key

theorem OnLast.trans {s t u : State} {key : Nat} (h : OnLast s t key) (g : OnLast t u key) : OnLast s u key :=
  ⟨by rw [g.1, h.1], fun k hk => (g.2 k hk).trans (h.2 k hk)⟩

theorem OnLast.updLast (s : State) (key : Nat) (f : LastEntry → LastEntry) : OnLast s (s.updLast key f) key :=
  ⟨rfl, fun _ hk => by rw [last_updLast, if_neg hk]⟩

/-- A change of state is logged beside the entries. -/
theorem OnLast.logLast (s : State) (key : Nat) (st : LastSt) (reason : Nat) : OnLast s (logLast s key st reason) key :=
  ⟨rfl, fun _ _ => rfl⟩

theorem OnLast.enterLast (s : State) (key : Nat) (st : LastSt) (reason : Nat) : OnLast s (enterLast s key st reason) key :=
  (OnLast.updLast s key _).trans (.logLast _ key st reason)

@[simp] theorem last_updLast_self (s : State) (key : Nat) (f : LastEntry → LastEntry) : (s.updLast key f).last key = f (s.last key) := by
  rw [last_updLast, if_pos rfl]

@[simp] theorem logLast_last (s : State) (key : Nat) (st : LastSt) (reason q : Nat) : (logLast s key st reason).last q = s.last q := rfl

@[simp] theorem enterLast_last_self (s : State) (key : Nat) (st : LastSt) (reason : Nat) : (enterLast s key st reason).last key =
    { s.last key with
      st := st, reason := reason, isOpen := if st = .active then (s.last key).isOpen else false
      due := if st.holds then (s.last key).due else none } := by
  rw [enterLast, logLast_last, last_updLast_self]

/-- An entry without chunks has none to wrap. -/
theorem wrapQueue_empty {s : State} {key reason : Nat} (hst : wrapReasonOf (s.last key).st = some reason) (hq : (s.last key).queue = []) :
    wrapQueue s key = s.updLast key fun e => { e with queue := [] } := by
  rw [wrapQueue, hst, hq]
  rfl

/-! ### Writes of LAST_ENTRY (R219, R222) -/

theorem lastRowExists_of {port index : Nat} (hp : port < 101) (hi : index < 4096) : lastRowExists port index = true := by
  simp [lastRowExists, hp, hi]

/-- A bit set above a field leaves the field. -/
theorem fld_or_two_pow (v : Nat) {k hi lo : Nat} (hk : hi < k) : fld (v ||| 2 ^ k) hi lo = fld v hi lo := by
  refine Nat.eq_of_testBit_eq fun j => ?_
  by_cases hj : j < hi + 1 - lo
  · simp only [fld, Nat.testBit_mod_two_pow, Nat.testBit_shiftRight, Nat.testBit_or, Nat.testBit_two_pow_of_ne (show k ≠ lo + j by omega),
      Bool.or_false]
  · simp only [fld, Nat.testBit_mod_two_pow, hj, decide_false, Bool.false_and]

/-- The bit that was set. -/
theorem bitAt_or_two_pow (v k : Nat) : bitAt (v ||| 2 ^ k) k = true := by
  rw [bitAt, Nat.testBit_or, Nat.testBit_two_pow_self, Bool.or_true]

theorem lastEntryCheck_accepts {s : State} {key v : Nat} (hfree : (s.last key).st.used = false) (hout : fld v 229 223 ≠ 100) :
    lastEntryCheck s key (v ||| 2 ^ 255) = 0 := by
  rw [lastEntryCheck, if_neg (by simp [lastBusy, hfree]), if_neg (by rw [fld_or_two_pow v (by decide)]; exact fun h => hout h.2.1)]

theorem lastEntryCheck_refuses {s : State} {key : Nat} (v : Nat) (hused : (s.last key).st.used = true) :
    lastEntryCheck s key (v ||| 2 ^ 255) = 0x0C :=
  if_pos ⟨bitAt_or_two_pow v 255, hused⟩

theorem OnLast.applyLastOpen (s : State) (key v : Nat) : OnLast s (applyLastOpen s key v) key :=
  (OnLast.updLast s key _).trans (.logLast _ key .written 0)

theorem applyLastOpen_last (s : State) (key v : Nat) : (applyLastOpen s key v).last key =
    { cfg := lastRwBits v, st := .written, lastGen := (s.last key).lastGen, writtenAt := s.time.count } := by
  rw [applyLastOpen, logLast_last, last_updLast_self]

/-- A close empties an entry that has not been armed (R222). -/
theorem applyLastClose_unarmed {s : State} {key : Nat} (v : Nat) (h : (s.last key).st = .written ∨ (s.last key).st = .refused) :
    OnLast s (applyLastClose s key v) key ∧ (applyLastClose s key v).last key = (s.last key).emptied (lastRwBits v) := by
  have hclose : applyLastClose s key v = logLast (s.updLast key fun e => e.emptied (lastRwBits v)) key .empty 0 := by
    rcases h with h | h <;> rw [applyLastClose, h]
  rw [hclose]
  exact ⟨(OnLast.updLast s key _).trans (.logLast _ key .empty 0), by rw [logLast_last, last_updLast_self]⟩

/-- An entry as it becomes Closing: no longer VALID or OPEN, without signals and chunks (R222). -/
def LastEntry.closed (e : LastEntry) : LastEntry :=
  { e with cfg := clearBits e.cfg (2 ^ 255), st := .closing, isOpen := false, due := none, queue := [], signals := [] }

/-- A close of an entry that has been armed and holds no chunk (R222). -/
theorem applyLastClose_armed {s : State} {key : Nat} (v : Nat)
    (h : (s.last key).st = .armed ∨ (s.last key).st = .active ∨ (s.last key).st = .suspended ∨ (s.last key).st = .broken)
    (hq : (s.last key).queue = []) :
    OnLast s (applyLastClose s key v) key ∧ (applyLastClose s key v).last key = (s.last key).closed := by
  have hclose : applyLastClose s key v = wrapQueue (enterLast (s.updLast key fun e =>
      { e with cfg := clearBits e.cfg (2 ^ 255), signals := [] }) key .closing (s.last key).reason) key := by
    rcases h with h | h | h | h <;> rw [applyLastClose, h]
  rw [hclose, wrapQueue_empty (reason := 4) (by rw [enterLast_last_self]; rfl) (by rw [enterLast_last_self, last_updLast_self]; exact hq)]
  refine ⟨((OnLast.updLast s key _).trans (.enterLast _ key .closing _)).trans (.updLast _ key _), ?_⟩
  rw [last_updLast_self, enterLast_last_self, last_updLast_self]
  rfl

section
variable {s : State} {port index : Nat} (hp : port < 101) (hi : index < 4096)
include hp hi

theorem exec_lastEntryOpen (v : Nat) : exec (.lastEntryOpen port index v) s =
    judged s (lastEntryCheck s (4096 * port + index) (v ||| 2 ^ 255)) (applyLastOpen s (4096 * port + index) (v ||| 2 ^ 255)) := by
  show execLastEntryOpen port index v s = _
  rw [execLastEntryOpen, lastRowExists_of hp hi]
  rfl

theorem exec_lastEntryClose (v : Nat) : exec (.lastEntryClose port index v) s =
    judged s 0 (applyLastClose s (4096 * port + index) (clearBits v (2 ^ 255))) := by
  show execLastEntryClose port index v s = _
  rw [execLastEntryClose, lastRowExists_of hp hi]
  rfl
end

/-- A write that changes one entry, accepted by the running core. -/
theorem judged_onLast {s e : State} {key : Nat} (hc : coreUp s = true) (he : OnLast s e key) :
    ∃ t, judged s 0 e = .next t ∧ WriteApplied s t ∧ Unfaulted s t ∧ OtherLasts s t key ∧ t.last key = e.last key ∧
      t = { s with lasts := t.lasts, mon := t.mon, ctl := t.ctl, latch := t.latch } := by
  obtain ⟨hframe, hothers⟩ := he
  refine ⟨_, judged_accepts hc, ⟨?_, rfl⟩, ?_, hothers, rfl, ?_⟩ <;> rw [hframe]
  · rfl
  · exact Mon.count_fault _ _ _ _ _
  · rfl

section
variable {s : State} {port index : Nat} (hc : coreUp s = true) (hp : port < 101) (hi : index < 4096)
include hc hp hi

theorem lastEntryOpen_writes {v : Nat} (hfree : (s.last (4096 * port + index)).st.used = false) (hout : fld v 229 223 ≠ 100) :
    ∃ t, exec (.lastEntryOpen port index v) s = .next t ∧ WriteApplied s t ∧ Unfaulted s t ∧ OtherLasts s t (4096 * port + index) ∧
      t.last (4096 * port + index) = { cfg := lastRwBits (v ||| 2 ^ 255), st := .written
                                       lastGen := (s.last (4096 * port + index)).lastGen, writtenAt := s.time.count } ∧
      t = { s with lasts := t.lasts, mon := t.mon, ctl := t.ctl, latch := t.latch } := by
  rw [exec_lastEntryOpen hp hi, lastEntryCheck_accepts hfree hout, ← applyLastOpen_last]
  exact judged_onLast hc (.applyLastOpen s _ _)

theorem lastEntryOpen_refused (v : Nat) (hused : (s.last (4096 * port + index)).st.used = true) :
    ∃ t, exec (.lastEntryOpen port index v) s = .next t ∧ WriteRefused s t 0x0C := by
  rw [exec_lastEntryOpen hp hi, lastEntryCheck_refuses v hused, judged_refuses hc (by decide)]
  exact ⟨_, rfl, rfl, Mon.count_fault _ _ _ _ _⟩

theorem lastEntryClose_empties (v : Nat)
    (h : (s.last (4096 * port + index)).st = .written ∨ (s.last (4096 * port + index)).st = .refused) :
    ∃ t, exec (.lastEntryClose port index v) s = .next t ∧ WriteApplied s t ∧ Unfaulted s t ∧ OtherLasts s t (4096 * port + index) ∧
      t.last (4096 * port + index) = (s.last (4096 * port + index)).emptied (lastRwBits (clearBits v (2 ^ 255))) ∧
      t = { s with lasts := t.lasts, mon := t.mon, ctl := t.ctl, latch := t.latch } := by
  obtain ⟨honly, hlast⟩ := applyLastClose_unarmed (clearBits v (2 ^ 255)) h
  rw [exec_lastEntryClose hp hi, ← hlast]
  exact judged_onLast hc honly

theorem lastEntryClose_closes (v : Nat)
    (h : (s.last (4096 * port + index)).st = .armed ∨ (s.last (4096 * port + index)).st = .active ∨
      (s.last (4096 * port + index)).st = .suspended ∨ (s.last (4096 * port + index)).st = .broken)
    (hq : (s.last (4096 * port + index)).queue = []) :
    ∃ t, exec (.lastEntryClose port index v) s = .next t ∧ WriteApplied s t ∧ Unfaulted s t ∧ OtherLasts s t (4096 * port + index) ∧
      t.last (4096 * port + index) = (s.last (4096 * port + index)).closed ∧
      t = { s with lasts := t.lasts, mon := t.mon, ctl := t.ctl, latch := t.latch } := by
  obtain ⟨honly, hlast⟩ := applyLastClose_armed (clearBits v (2 ^ 255)) h hq
  rw [exec_lastEntryClose hp hi, ← hlast]
  exact judged_onLast hc honly
end

/-! ### The check of a Written entry (R221) -/

/-- Waking a port touches lanes, scans, links and the watching units alone (R96). -/
theorem LineOnly.wakePort (s : State) (p : Nat) (byTraffic : Bool) : LineOnly s (wakePort s p byTraffic) := by
  unfold Machine.wakePort
  split
  · exact ((((laneEnter_lineOnly s p .seam).trans (.updLane _ _ _)).trans (.count _ _ _ _)).trans (.event _ _ _ _)).trans (.count _ _ _ _)
  · exact .refl s

theorem LineOnly.lasts {s t : State} (h : LineOnly s t) : t.lasts = s.lasts := by rw [h.1]

/-- A check that passes: only that entry of the last unit changes, and it is Armed with what its check sets afresh. -/
theorem armCheck_passes {s : State} {key : Nat} (h : armReason s key (s.last key) = none) :
    OtherLasts s (armCheck s key) key ∧ ((armCheck s key).last key).st = .armed ∧ ((armCheck s key).last key).wrapNum = 0 ∧
      ((armCheck s key).last key).guard = s.reg Dict.LAST_GUARD_POS ∧ ((armCheck s key).last key).cfg = (s.last key).cfg := by
  rw [armCheck, h]
  dsimp only
  have hwoken := ((LineOnly.wakePort s (lastIn key) false).trans (.wakePort _ (s.last key).outPort false)).lasts
  generalize wakePort (wakePort s (lastIn key) false) (s.last key).outPort false = u at hwoken ⊢
  have hlast : ∀ k, u.last k = s.last k := fun k => by rw [State.last, hwoken, State.last]
  rw [enterLast_last_self, last_updLast_self, hlast]
  refine ⟨fun k hk => ?_, rfl, rfl, rfl, rfl⟩
  rw [((OnLast.updLast u key _).trans (.enterLast _ key .armed 0)).2 k hk, hlast]

/-- A check that fails: the entry is Refused with the check's REASON, fault 0x0701 is raised and source 125 fires. -/
theorem armCheck_fails {s : State} {key r : Nat} (h : armReason s key (s.last key) = some r) (hl : Loggable s 0x0701 0 0) :
    OtherLasts s (armCheck s key) key ∧ Logged s (armCheck s key) 0x0701 0 0 0 ∧ Fired s (armCheck s key) 125 ∧
      ((armCheck s key).last key).st = .refused ∧ ((armCheck s key).last key).reason = r ∧
      armCheck s key = { s with lasts := (armCheck s key).lasts, mon := (armCheck s key).mon } := by
  rw [armCheck, h]
  dsimp only
  have hrefused := enterLast_last_self s key .refused r
  obtain ⟨hframe, hothers⟩ := OnLast.enterLast s key .refused r
  generalize enterLast s key .refused r = u at hrefused hframe hothers ⊢
  refine ⟨hothers, ?_, State.fire_fired (u := u.raise 0x0701) ?_ 125, ?_, ?_, ?_⟩
  · have hlogged : Logged s (u.raise 0x0701) 0x0701 0 0 0 := State.raise_logged_after (by rw [hframe]) (by rw [hframe]) hl
    rw [Logged, State.fire_mon, Mon.fire_fault, hlogged]
  · rw [State.raise_mon, hframe]
    exact PendingKept.raise _ _ _ _ _ _ _
  · rw [State.fire_last, State.raise_last, hrefused]
  · rw [State.fire_last, State.raise_last, hrefused]
  · rw [hframe]
    rfl

theorem exec_lastArmCheck {s : State} {port index : Nat} (hp : port < 101) (hi : index < 4096)
    (hst : (s.last (4096 * port + index)).st = .written) (hat : (s.last (4096 * port + index)).writtenAt < s.time.count) :
    exec (.lastArmCheck port index) s = .next (if s.time.count % 1024 = 0 then armCheck s (4096 * port + index) else s) := by
  show execLastArmCheck port index s = _
  simp only [execLastArmCheck, lastRowExists_of hp hi, hst, hat, Bool.not_true, Bool.false_eq_true, if_false, true_and, and_true]

/-- Settles O24: the write and the close of a row, by the entry's state, and the check at a boundary, by its outcome. -/
theorem lastEntriesWrittenCheckedClosed : Obligations.LastEntriesWrittenCheckedClosed := by
  unfold Obligations.LastEntriesWrittenCheckedClosed
  refine ⟨fun s port index v hc hp hi => ⟨fun hfree hout => ?_, lastEntryOpen_refused hc hp hi v, fun h => ?_, fun h hq => ?_⟩,
    fun s port index hp hi hst hat => ⟨fun hframe h => ?_, fun r hframe h hl => ?_, fun hframe => ?_⟩⟩
  · obtain ⟨t, ht, happlied, hfault, hothers, hlast, hrest⟩ := lastEntryOpen_writes hc hp hi hfree hout
    refine ⟨t, ht, happlied, hfault, hothers, ?_, ?_, ?_, ?_, hrest⟩ <;> rw [hlast]
  · obtain ⟨t, ht, happlied, hfault, hothers, hlast, hrest⟩ := lastEntryClose_empties hc hp hi v h
    exact ⟨t, ht, happlied, hfault, hothers, by rw [hlast]; rfl, hrest⟩
  · obtain ⟨t, ht, happlied, hfault, hothers, hlast, hrest⟩ := lastEntryClose_closes hc hp hi v h hq
    refine ⟨t, ht, happlied, hfault, hothers, ?_, ?_, ?_, hrest⟩ <;> rw [hlast] <;> rfl
  · rw [exec_lastArmCheck hp hi hst hat, if_pos hframe]
    exact ⟨_, rfl, armCheck_passes h⟩
  · rw [exec_lastArmCheck hp hi hst hat, if_pos hframe]
    exact ⟨_, rfl, armCheck_fails h hl⟩
  · rw [exec_lastArmCheck hp hi hst hat, if_neg hframe]

/-! ### A LOSS that waits for CP (R227, R233) -/

/-- A Suspended entry of P0 whose output is CP, without a fallback. -/
def suspendedToCp : State :=
  { State.reset with lasts := { entries := [(0, { st := .suspended, cfg := put 100 229 223 + put 0x3FFFF 170 153 })] } }

/-- The part after that entry could not wrap a chunk: LOSS waits for CP. -/
def lossForCp : State := stateAfter (exec (.lastedFlitReceive 0 0 0 0 false) suspendedToCp) suspendedToCp

theorem lossForCp_waits : lossForCp.lasts.cpSignals = [(0, { event := 5, stitch := 0 })] := by decide +kernel

/-- P1 has no entry that a SUSPENDED record with label 0 could name. -/
theorem lossForCp_noEntry : signalEntry lossForCp 1 0 (upstream 3) = none := by decide +kernel

/-- A flit with that record alone has CP take the LOSS that waits. -/
theorem lossForCp_taken :
    (stateAfter (exec (.lastSignalReceive 1 [{ label := 0, event := 3 }]) lossForCp) lossForCp).lasts.cpSignals = [] := by decide +kernel

/-- Refutes O25: its clause on a record that names no entry says that only the watching units change, in every state. The collective engine
takes the signals that wait for it with every LAST_SIGNAL flit, so a LOSS that an earlier chunk has left for CP is gone afterwards. -/
theorem not_chunksAndSignalsOnLasts : ¬ Obligations.ChunksAndSignalsOnLasts := by
  unfold Obligations.ChunksAndSignalsOnLasts
  rintro ⟨-, hsignals, -⟩
  obtain ⟨hdiscarded, -⟩ := hsignals lossForCp 1 { label := 0, event := 3 } (by decide)
  obtain ⟨t, ht, hframe, -⟩ := hdiscarded lossForCp_noEntry
  have htaken : t.lasts.cpSignals = [] := by
    have h := lossForCp_taken
    rwa [ht] at h
  have hkept : t.lasts.cpSignals = lossForCp.lasts.cpSignals := by rw [hframe]
  rw [htaken, lossForCp_waits] at hkept
  cases hkept

end Sys2Proof.Machine
end

section
/-!
Host memory's answers: snoops, the ends of reads, and writes that have been observed (O27).
-/
namespace Sys2Proof.Machine

/-! ### Snoops (R249) -/

/-- What a snoop leaves of the line cache. -/
def snooped (line : Nat) (cache : Tbl Nat) : Snoop → Tbl Nat
  | .snpInv => tset 0 cache line 0
  | .snpData => tupd 0 cache line fun v => min v 1
  | .snpCur => cache

theorem tget_snooped_inv (line : Nat) (cache : Tbl Nat) (l : Nat) :
    tget 0 (snooped line cache .snpInv) l = if l = line then 0 else tget 0 cache l := tget_tset _ _ _ _ _

theorem tget_snooped_data (line : Nat) (cache : Tbl Nat) : tget 0 (snooped line cache .snpData) line = min (tget 0 cache line) 1 :=
  tget_tupd_self 0 cache line fun v => min v 1

/-- A snoop of a line that no queue watches is counted, and has its effect on the cache alone. -/
theorem exec_snoopReceive_unwatched {s : State} {line : Nat} (hup : s.host.units ≠ 0) (hw : watchers s line = []) (kind : Snoop) :
    ∃ m : Mon, m.fault = s.mon.fault ∧
      exec (.snoopReceive line kind) s = .next { s with mon := m, host := { s.host with cache := snooped line s.host.cache kind } } := by
  obtain ⟨m, hfault, hcounted⟩ : ∃ m : Mon, m.fault = s.mon.fault ∧
      (if tget 0 s.host.cache line ≠ 0 ∨ ([] : List Nat) ≠ [] then (s.count 0x402).count 0x403 else s.count 0x402) = { s with mon := m } := by
    split
    · exact ⟨_, (Mon.count_fault _ _ _ _ _).trans (Mon.count_fault _ _ _ _ _), rfl⟩
    · exact ⟨_, Mon.count_fault _ _ _ _ _, rfl⟩
  refine ⟨m, hfault, ?_⟩
  have hexec : exec (.snoopReceive line kind) s = execSnoopReceive line kind s := rfl
  rw [hexec, execSnoopReceive, if_neg hup, hw]
  dsimp only
  rw [hcounted]
  cases kind <;> rfl

/-! ### Reads that end (R235, R248, R252) -/

section
variable {s : State} {tag : Nat}

theorem exec_hostReadComplete_unknown (hr : s.host.reads.find? (fun r => r.tag = tag) = none) (data : List Byte) (bad : Bool) :
    exec (.hostReadComplete tag data bad) s = .next s := by
  show execHostReadComplete tag data bad s = _
  rw [execHostReadComplete, hr]

/-- A watched line's data, not poisoned: a queue that runs has a doorbell of the producer index found. -/
theorem exec_watchRefetchDone_good {r : HRead} {g : Nat} (hr : s.host.reads.find? (fun r => r.tag = tag) = some r) (hg : r.why = .watch g)
    (data : List Byte) : exec (.watchRefetchDone tag data false) s =
      .next (if (s.queue g).live then doorbell (readEnded s tag) g (natLE (data.take 4)) else readEnded s tag) := by
  show execWatchRefetchDone tag data false s = _
  obtain ⟨tag', func, addr, len, seg, at', why⟩ := r
  subst hg
  rw [execWatchRefetchDone, hr]
  dsimp only
  have hq : (readEnded s tag).queue g = s.queue g := rfl
  cases hlive : (s.queue g).live
  · exact congrArg _ (if_pos (by rw [← readEnded, hq, hlive]; rfl))
  · exact congrArg _ (if_neg (by rw [← readEnded, hq, hlive]; simp))
end

/-! ### A send ring's record (R235) -/

@[simp] theorem ring_updRing_self (s : State) (r : Nat) (f : LastRing → LastRing) : (s.updRing r f).ring r = f (s.ring r) := by
  simp [State.ring, State.updRing, State.updLasts]

/-- A record as its ring keeps it: bit 63 is no longer PHASE, but whether the read was poisoned. -/
def keptRecord (record : Nat) (poisoned : Bool) : Nat :=
  fld record 511 64 * 2 ^ 64 + natLE (bytesBE (fld record 63 0) 8) % 2 ^ 63 + put (b2n poisoned) 63 63

/-- A kept record is the record's chunk, above a word with the poison bit on top. -/
theorem keptRecord_eq (record : Nat) (poisoned : Bool) :
    keptRecord record poisoned =
      fld record 511 64 * 2 ^ 64 + (b2n poisoned * 2 ^ 63 + natLE (bytesBE (fld record 63 0) 8) % 2 ^ 63) := by
  have hput : put (b2n poisoned) 63 63 = b2n poisoned * 2 ^ 63 := by cases poisoned <;> rfl
  rw [keptRecord, hput, Nat.add_assoc, Nat.add_comm (b2n poisoned * 2 ^ 63)]

/-- A field is its own low part. -/
theorem fld_fld_low (n : Nat) {hi lo : Nat} (h : lo ≤ hi) : fld (fld n hi lo) (hi - lo) (lo - lo) = fld n hi lo := by
  rw [fld, Nat.sub_self, Nat.shiftRight_zero, show hi - lo + 1 - 0 = hi + 1 - lo by omega, fld, Nat.mod_mod]

theorem b2n_le_one (b : Bool) : b2n b ≤ 1 := by cases b <;> decide

theorem keptRecord_chunk (record : Nat) (poisoned : Bool) : fld (keptRecord record poisoned) 511 64 = fld record 511 64 := by
  have hword : b2n poisoned * 2 ^ 63 + natLE (bytesBE (fld record 63 0) 8) % 2 ^ 63 < 2 ^ 64 := by
    have hp := b2n_le_one poisoned
    omega
  rw [keptRecord_eq, fld_above _ _ hword (by decide) (by decide), fld_fld_low _ (by decide)]

theorem keptRecord_poison (record : Nat) (poisoned : Bool) : bitAt (keptRecord record poisoned) 63 = poisoned := by
  have hdiv : keptRecord record poisoned / 2 ^ 63 % 2 = b2n poisoned := by
    have hp := b2n_le_one poisoned
    rw [keptRecord_eq]
    omega
  rw [bitAt, Nat.testBit_eq_decide_div_mod_eq, hdiv]
  cases poisoned <;> rfl

/-- A record that shows the ring's PHASE joins those of the ring. -/
theorem recordArrived_valid {s : State} {r i record : Nat} (poisoned : Bool)
    (h : fld (natLE (bytesBE (fld record 63 0) 8)) 63 63 = ringPhase (ringSize (ringRow s r)) i) :
    recordArrived s r i record poisoned = s.updRing r fun g => { g with records := g.records ++ [keptRecord record poisoned] } :=
  if_pos h

/-- Data of the length asked for is taken as it is. -/
theorem fitData_of_length {n : Nat} {data : List Byte} (h : data.length = n) : fitData n data = data :=
  List.take_left' h

theorem exec_hostReadComplete_record {s : State} {tag r i : Nat} {x : HRead} {data : List Byte} (bad : Bool)
    (hx : s.host.reads.find? (fun r => r.tag = tag) = some x) (hwhy : x.why = .lastRing r i) (hlen : data.length = x.len) :
    exec (.hostReadComplete tag data bad) s = .next (recordArrived (readEnded s tag) r i (natBE data) bad) := by
  show execHostReadComplete tag data bad s = _
  rw [execHostReadComplete, hx]
  dsimp only
  rw [hwhy, fitData_of_length hlen]
  rfl

/-! ### Writes that have been observed (R250) -/

@[simp] theorem sendMsix_rma (s : State) (func vec : Nat) : (sendMsix s func vec).rma = s.rma := by
  unfold sendMsix
  dsimp only
  split
  · rfl
  · split <;> rfl

@[simp] theorem ringVector_rma (s : State) (r : Nat) : (ringVector s r).rma = s.rma := by
  unfold ringVector
  dsimp only
  split
  · rw [State.count_rma, sendMsix_rma, State.updQueue_rma]
  · rfl

/-- Without a responder context no PSN waits for a write. -/
theorem respObserved_none {s : State} (h : s.rma.resp = []) (tag : Nat) : respObserved s tag = s := by
  rw [respObserved, h]
  rfl

/-- A write that nothing but a ring's vector waits for ends, and the wait with it. -/
theorem writeObserved_vector {s : State} {tag g : Nat} (hwait : s.host.waits = [{ tags := [tag], act := .ringVector g }])
    (hq : ∀ c ∈ s.queues.qs, ∀ e ∈ c.2.order, tag ∉ e.tags) (hresp : s.rma.resp = []) (hads : s.trans.ads = []) :
    writeObserved s tag =
      ringVector { s with host := { s.host with writes := s.host.writes.filter fun w => w.tag ≠ tag, waits := [] } } g := by
  have hqueues : (s.queues.qs.filter fun c => c.2.order.any fun e => e.tags.contains tag) = [] := by
    simpa using hq
  have hdone : ([tag].filter fun t => t ≠ tag) = [] := by simp
  rw [writeObserved, hads]
  simp only [State.updHost_queues, hqueues, List.map_nil, forEach, List.foldl_nil, State.updHost_host, hwait, List.map_cons, hdone,
    List.filter_cons_of_pos, List.filter_nil, List.isEmpty_nil, List.foldl_cons, runDeferred, List.any_nil, Bool.false_eq_true, if_false]
  rw [respObserved_none (by rw [ringVector_rma]; exact hresp)]
  rfl

theorem exec_hostWriteObserved {s : State} {tag : Nat} (hw : (s.host.writes.any fun w => w.tag = tag) = true)
    (hh : (s.host.held.any fun w => w.tag = tag) = false) : exec (.hostWriteObserved tag) s = .next (writeObserved s tag) := by
  show execHostWriteObserved tag s = _
  rw [execHostWriteObserved, hw, hh]
  rfl

/-- Settles O27, clause by clause: the snoops, a watched line's data, a record's data, and a write that a vector waited for. -/
theorem hostMemoryAnswers : Obligations.HostMemoryAnswers := by
  unfold Obligations.HostMemoryAnswers
  refine ⟨fun s line hup hw => ⟨?_, ?_, ?_⟩, fun s tag g r data hr hg => ⟨fun hlive => ?_, fun hlive => ?_⟩,
    fun s tag data bad => ⟨fun hr => exec_hostReadComplete_unknown hr data bad, fun x r i hx hwhy hlen hdata hphase => ?_⟩,
    fun s tag g hw hh hwait hq hresp hads => ?_⟩
  · obtain ⟨m, hfault, hexec⟩ := exec_snoopReceive_unwatched hup hw .snpInv
    exact ⟨_, hexec, rfl, hfault, (tget_snooped_inv _ _ _).trans (if_pos rfl),
      fun l hl => (tget_snooped_inv _ _ _).trans (if_neg hl)⟩
  · obtain ⟨m, hfault, hexec⟩ := exec_snoopReceive_unwatched hup hw .snpData
    exact ⟨_, hexec, rfl, hfault, tget_snooped_data _ _⟩
  · obtain ⟨m, hfault, hexec⟩ := exec_snoopReceive_unwatched hup hw .snpCur
    exact ⟨_, hexec, rfl, hfault⟩
  · rw [exec_watchRefetchDone_good hr hg, if_pos hlive]
  · rw [exec_watchRefetchDone_good hr hg, if_neg (by simp [hlive])]
  · rw [exec_hostReadComplete_record bad hx hwhy (hdata.trans hlen.symm),
      recordArrived_valid (s := readEnded s tag) bad hphase]
    exact ⟨_, keptRecord (natBE data) bad, rfl, rfl, ring_updRing_self _ _ _, keptRecord_chunk _ _, keptRecord_poison _ _⟩
  · rw [exec_hostWriteObserved hw hh, writeObserved_vector hwait hq hresp hads]

end Sys2Proof.Machine
end

section
/-!
The attach modules: their training, retraining, failure and disabling (O26).
-/
namespace Sys2Proof.Machine

/-! ### Steps of one attach module -/

@[simp] theorem module_updModule_self (s : State) (m : Nat) (f : Module → Module) : (s.updModule m f).module m = f (s.module m) := by
  rw [module_updModule, if_pos rfl]

/-- Of the attach only one module has changed, beside the watching units, and no fault has been raised. -/
structure OnModule (s t : State) (m : Nat) : Prop where
  frame : t = { s with host := t.host, mon := t.mon }
  unfaulted : Unfaulted s t
  others : OtherModules s t m

namespace OnModule

theorem refl (s : State) (m : Nat) : OnModule s s m := ⟨rfl, rfl, fun _ _ => rfl⟩

theorem trans {s t u : State} {m : Nat} (h : OnModule s t m) (g : OnModule t u m) : OnModule s u m :=
  ⟨by rw [g.frame, h.frame], g.unfaulted.trans h.unfaulted, fun k hk => (g.others k hk).trans (h.others k hk)⟩

theorem updModule (s : State) (m : Nat) (f : Module → Module) : OnModule s (s.updModule m f) m :=
  ⟨rfl, rfl, fun _ hk => by rw [module_updModule, if_neg hk]⟩

theorem event (s : State) (m : Nat) (ev : Obj) (row bit : Nat) : OnModule s (s.event ev row bit) m :=
  ⟨rfl, Mon.event_fault _ _ _ _ _, fun _ _ => rfl⟩

/-- A fault raised after such steps is logged. -/
theorem logged {s u : State} {m : Nat} (h : OnModule s u m) {code scope inst : Nat} (hl : Loggable s code scope inst) (d : Nat) :
    Logged s (u.raise code scope inst d) code scope inst d :=
  State.raise_logged_after h.unfaulted (by rw [h.frame]) hl

theorem frame_raised {s u : State} {m : Nat} (h : OnModule s u m) (code scope inst d : Nat) :
    u.raise code scope inst d = { s with host := u.host, mon := (u.raise code scope inst d).mon } := by
  rw [h.frame]
  rfl

end OnModule

/-- A module in the state entered, with the entry's event, before what entry to Retrain and to Failed logs. -/
def moduleEntered (s : State) (m : Nat) (st : ModSt) : State :=
  (s.updModule m fun x => { x with st := st, since := s.time.count }).event Dict.ATTACH_EVENTS 0 0

theorem OnModule.entered (s : State) (m : Nat) (st : ModSt) : OnModule s (moduleEntered s m st) m :=
  (OnModule.updModule s m _).trans (.event _ m _ _ _)

@[simp] theorem moduleEntered_module (s : State) (m : Nat) (st : ModSt) :
    (moduleEntered s m st).module m = { s.module m with st := st, since := s.time.count } := by
  rw [moduleEntered, State.event_module, module_updModule_self]

theorem moduleEnter_retrain (s : State) (m : Nat) : moduleEnter s m .retrain = (moduleEntered s m .retrain).raise 0x0807 9 m := rfl

theorem moduleEnter_failed (s : State) (m : Nat) : moduleEnter s m .failed = (moduleEntered s m .failed).raise 0x0804 9 m := rfl

theorem moduleEnter_quiet (s : State) (m : Nat) {st : ModSt} (h : st = .training ∨ st = .x64 ∨ st = .x32) :
    moduleEnter s m st = moduleEntered s m st := by
  rcases h with rfl | rfl | rfl <;> rfl

/-- A reset leaves the module in Reset, whatever its state was (R244). -/
theorem OnModule.moduleReset (s : State) (m : Nat) : OnModule s (moduleReset s m) m := by
  unfold Machine.moduleReset
  split
  · exact refl s m
  · exact (updModule s m _).trans (event _ m _ _ _)

theorem moduleReset_st (s : State) (m : Nat) : ((moduleReset s m).module m).st = .reset := by
  unfold moduleReset
  split
  case isTrue h => exact h
  case isFalse => rw [State.event_module, module_updModule_self]

/-! ### The ends of a training (R243, R244) -/

/-- A module that has come up, whole or in half, with no lane repaired. -/
def moduleTrained (s : State) (m : Nat) (st : ModSt) : State := moduleEntered (s.updModule m fun x => { x with repaired := 0 }) m st

theorem OnModule.trained (s : State) (m : Nat) (st : ModSt) : OnModule s (moduleTrained s m st) m :=
  (OnModule.updModule s m _).trans (.entered _ m st)

theorem moduleTrained_module (s : State) (m : Nat) (st : ModSt) :
    (moduleTrained s m st).module m = { s.module m with st := st, since := s.time.count, repaired := 0 } := by
  rw [moduleTrained, moduleEntered_module, module_updModule_self]
  rfl

theorem trainingEnds_x64 (s : State) (m : Nat) : trainingEnds s m .x64 0 = moduleTrained s m .x64 := rfl

theorem trainingEnds_x32 (s : State) (m : Nat) : trainingEnds s m .x32 0 = (moduleTrained s m .x32).raise 0x0802 9 m := rfl

theorem trainingEnds_noHalf (s : State) (m : Nat) : trainingEnds s m .noHalf 0 = (moduleEntered s m .failed).raise 0x0804 9 m := rfl

/-- The failed trainings of a module's last 1,024 stitches (R244). -/
def recentFails (s : State) (m : Nat) : List Nat := (s.module m).fails.filter fun a => s.time.count < a + 1024

/-- The first failed training within 1,024 stitches is remembered, and the module trains on. -/
theorem trainingFailed_first {s : State} {m : Nat} (h : recentFails s m = []) :
    trainingFailed s m = s.updModule m fun x => { x with fails := [s.time.count] } := by
  rw [recentFails] at h
  rw [trainingFailed, h]
  rfl

/-- The third one fails the module. -/
theorem trainingFailed_third {s : State} {m : Nat} (h : (recentFails s m).length = 2) :
    ∃ u, OnModule s u m ∧ trainingFailed s m = (moduleEntered u m .failed).raise 0x0804 9 m := by
  rw [recentFails] at h
  refine ⟨(s.updModule m fun x => { x with fails := (s.time.count :: recentFails s m).take 3 }).updModule m fun x => { x with fails := [] },
    (OnModule.updModule s m _).trans (.updModule _ m _), ?_⟩
  rw [trainingFailed]
  exact if_pos (Nat.le_of_eq (by rw [List.length_cons, h]))

/-! ### The modules' commands (R244) -/

theorem onModule_next {m : Nat} (hm : m < 4) (t : State) : onModule m t = .next t := if_pos hm

section
variable {s : State} {m : Nat} (hm : m < 4)
include hm

theorem exec_moduleTrainStart (hst : (s.module m).st = .reset) (hmay : moduleMayTrain s m = true) :
    exec (.moduleTrainStart m) s = .next (moduleEntered s m .training) := by
  show execModuleTrainStart m s = _
  rw [execModuleTrainStart, onModule_next hm, if_pos ⟨hst, hmay⟩, moduleEnter_quiet s m (.inl rfl)]

theorem exec_moduleTrainDone (hst : (s.module m).st = .training) (r : TrainEnd) (repaired : Nat) :
    exec (.moduleTrainDone m r repaired) s = .next (trainingEnds s m r repaired) := by
  show execModuleTrainDone m r repaired s = _
  rw [execModuleTrainDone, onModule_next hm, if_pos hst]

theorem exec_moduleRetrain (hst : (s.module m).st = .x64 ∨ (s.module m).st = .x32) :
    exec (.moduleRetrain m) s = .next ((moduleEntered s m .retrain).raise 0x0807 9 m) := by
  show execModuleRetrain m s = _
  rw [execModuleRetrain, onModule_next hm, ← moduleEnter_retrain]
  rcases hst with hst | hst <;> rw [hst]

theorem exec_moduleRetrainDone (hst : (s.module m).st = .retrain) (r : TrainEnd) (repaired : Nat) :
    exec (.moduleRetrainDone m r repaired) s = .next (trainingEnds s m r repaired) := by
  show execModuleRetrainDone m r repaired s = _
  rw [execModuleRetrainDone, onModule_next hm, if_pos hst]

theorem exec_moduleRetrainTimeout_late (hst : (s.module m).st = .retrain) (hlate : (s.module m).since + 9766 ≤ s.time.count) :
    exec (.moduleRetrainTimeout m) s = .next ((moduleEntered s m .failed).raise 0x0804 9 m) := by
  show execModuleRetrainTimeout m s = _
  rw [execModuleRetrainTimeout, onModule_next hm, if_pos ⟨hst, hlate⟩, moduleEnter_failed]

theorem exec_moduleRetrainTimeout_early (hearly : s.time.count < (s.module m).since + 9766) :
    exec (.moduleRetrainTimeout m) s = .next s := by
  show execModuleRetrainTimeout m s = _
  rw [execModuleRetrainTimeout, onModule_next hm, if_neg fun h => absurd h.2 (by omega)]

theorem exec_moduleFailedRetry_late (hst : (s.module m).st = .failed) (hlate : (s.module m).since + 65536 ≤ s.time.count)
    (hmay : moduleMayTrain s m = true) : exec (.moduleFailedRetry m) s = .next (moduleEntered s m .training) := by
  show execModuleFailedRetry m s = _
  rw [execModuleFailedRetry, onModule_next hm, if_pos ⟨hst, hlate, hmay⟩, moduleEnter_quiet s m (.inl rfl)]

theorem exec_moduleFailedRetry_barred (hmay : moduleMayTrain s m = false) : exec (.moduleFailedRetry m) s = .next s := by
  show execModuleFailedRetry m s = _
  rw [execModuleFailedRetry, onModule_next hm, hmay, if_neg (by simp)]

/-- An applied 0 in a row of ATTACH_MODULE_ENABLE. -/
theorem exec_attachModuleEnableWrite_off (hc : coreUp s = true) : exec (.attachModuleEnableWrite m 0) s =
    .next ((((moduleReset (s.setReg Dict.ATTACH_MODULE_ENABLE m 0) m).persists Dict.ATTACH_MODULE_ENABLE m).applied.wrote 0).latched) := by
  show execAttachModuleEnableWrite m 0 s = _
  rw [execAttachModuleEnableWrite, if_neg (by omega), judged_bool hc (by decide), applyModuleEnable, if_pos rfl]

/-- It resets the module. -/
theorem attachModuleEnableWrite_resets (hc : coreUp s = true) :
    ∃ t, exec (.attachModuleEnableWrite m 0) s = .next t ∧ Unfaulted s t ∧ (t.module m).st = .reset ∧ OtherModules s t m ∧
      t.reg Dict.ATTACH_MODULE_ENABLE m = 0 ∧ t.ctl.writeStatus = 0 ∧ t.ctl.applyLast = s.time.count ∧ t.latch = t.toChip ∧
      t = { s with regs := t.regs, host := t.host, mon := t.mon, ctl := t.ctl, latch := t.latch } := by
  refine ⟨_, exec_attachModuleEnableWrite_off hm hc, ?_⟩
  have hstep := OnModule.moduleReset (s.setReg Dict.ATTACH_MODULE_ENABLE m 0) m
  have hst := moduleReset_st (s.setReg Dict.ATTACH_MODULE_ENABLE m 0) m
  generalize moduleReset (s.setReg Dict.ATTACH_MODULE_ENABLE m 0) m = e at hstep hst
  obtain ⟨hframe, hfault, hothers⟩ := hstep
  rw [persists_eq]
  refine ⟨(Mon.count_fault _ _ _ _ _).trans hfault, hst, hothers, ?_, rfl, ?_, rfl, ?_⟩
  · have hreg : e.reg Dict.ATTACH_MODULE_ENABLE m = 0 := by rw [hframe]; exact reg_setReg s _ m 0
    exact hreg
  · have htime : e.time.count = s.time.count := by rw [hframe]; rfl
    exact htime
  · rw [hframe]
    rfl
end

/-- Settles O26, clause by clause: each command's next state, read off the module's step. -/
theorem attachModulesChangeState : Obligations.AttachModulesChangeState := by
  refine ⟨fun s m hm hst hmay => ?_, fun s m hm hst => ⟨?_, fun hl => ?_, fun hl => ?_, fun hfails hl => ?_, fun hfails => ?_⟩,
    fun s m hm hst hl => ?_, fun s m hm hst => ⟨?_, fun hlate hl => ?_, fun hearly => ?_⟩,
    fun s m hm hst => ⟨fun hlate hmay => ?_, fun hmay => ?_⟩, fun s m hm hc => attachModuleEnableWrite_resets hm hc⟩
  · obtain ⟨hframe, hfault, hothers⟩ := OnModule.entered s m .training
    exact ⟨_, exec_moduleTrainStart hm hst hmay, hframe, hfault, hothers, moduleEntered_module s m .training⟩
  · obtain ⟨hframe, hfault, hothers⟩ := OnModule.trained s m .x64
    exact ⟨_, (exec_moduleTrainDone hm hst .x64 0).trans (congrArg _ (trainingEnds_x64 s m)), hframe, hfault, hothers,
      moduleTrained_module s m .x64⟩
  · have h := OnModule.trained s m .x32
    exact ⟨_, (exec_moduleTrainDone hm hst .x32 0).trans (congrArg _ (trainingEnds_x32 s m)), h.frame_raised _ _ _ _, h.logged hl 0,
      h.others, moduleTrained_module s m .x32⟩
  · have h := OnModule.entered s m .failed
    have hmod := moduleEntered_module s m .failed
    exact ⟨_, (exec_moduleTrainDone hm hst .noHalf 0).trans (congrArg _ (trainingEnds_noHalf s m)), h.logged hl 0, h.others,
      congrArg Module.st hmod, congrArg Module.since hmod⟩
  · obtain ⟨u, hu, hend⟩ := trainingFailed_third hfails
    have h := hu.trans (.entered u m .failed)
    exact ⟨_, (exec_moduleTrainDone hm hst .failed 0).trans (congrArg _ hend), h.logged hl 0, h.others,
      congrArg Module.st (moduleEntered_module u m .failed)⟩
  · obtain ⟨-, hfault, hothers⟩ := OnModule.updModule s m fun x => { x with fails := [s.time.count] }
    exact ⟨_, (exec_moduleTrainDone hm hst .failed 0).trans (congrArg _ (trainingFailed_first hfails)), hfault, hothers,
      (congrArg Module.st (module_updModule_self _ _ _)).trans hst⟩
  · have h := OnModule.entered s m .retrain
    exact ⟨_, exec_moduleRetrain hm hst, h.frame_raised _ _ _ _, h.logged hl 0, h.others, moduleEntered_module s m .retrain⟩
  · obtain ⟨-, hfault, hothers⟩ := OnModule.trained s m .x64
    exact ⟨_, (exec_moduleRetrainDone hm hst .x64 0).trans (congrArg _ (trainingEnds_x64 s m)), hfault, hothers,
      congrArg Module.st (moduleTrained_module s m .x64)⟩
  · have h := OnModule.entered s m .failed
    exact ⟨_, exec_moduleRetrainTimeout_late hm hst hlate, h.frame_raised _ _ _ _, h.logged hl 0, h.others,
      congrArg Module.st (moduleEntered_module s m .failed)⟩
  · exact exec_moduleRetrainTimeout_early hm hearly
  · obtain ⟨hframe, hfault, hothers⟩ := OnModule.entered s m .training
    exact ⟨_, exec_moduleFailedRetry_late hm hst hlate hmay, hframe, hfault, hothers,
      congrArg Module.st (moduleEntered_module s m .training)⟩
  · exact exec_moduleFailedRetry_barred hm hmay

end Sys2Proof.Machine
end

section
/-!
Function resets and VF Enable (O28).
-/
namespace Sys2Proof.Machine

/-! ### Cells of a table -/

/-- A key that does not read as the default has a cell with what it reads. -/
theorem mem_of_tget_ne {α : Type} {d : α} {t : Tbl α} {k : Nat} (h : tget d t k ≠ d) : (k, tget d t k) ∈ t := by
  induction t with
  | nil => exact absurd rfl h
  | cons c t ih =>
    obtain ⟨k0, v0⟩ := c
    by_cases hk : k = k0
    · subst hk; simp [tget]
    · simp only [tget, if_neg hk] at h ⊢
      exact List.mem_cons_of_mem _ (ih h)

/-! ### What a function's reset leaves of the queues (R256) -/

/-- A write to host memory leaves the queues. -/
@[simp] theorem hostWrite_queues (s : State) (func addr : Nat) (data : List Byte) : (hostWrite s func addr data).st.queues = s.queues := by
  unfold hostWrite
  split
  · rfl
  · split
    · unfold issueWrite
      split
      · rfl
      · dsimp only
        split <;> rfl
    · rfl

@[simp] theorem segFree_queues (s : State) (i : Nat) : (segFree s i).queues = s.queues := hostWrite_queues _ _ _ _

/-- Steps that each leave the queues leave them together. -/
theorem forEach_queues {α : Type} {f : State → α → State} (h : ∀ t a, (f t a).queues = t.queues) (s : State) (l : List α) :
    (forEach s l f).queues = s.queues :=
  forEach_keeps (fun t => t.queues = s.queues) l f s rfl fun t ht a _ => (h t a).trans ht

@[simp] theorem endSems_queues (s : State) (hit : Nat → Bool) : (endSems s hit).queues = s.queues := rfl

@[simp] theorem endSegs_queues (s : State) (hit : Nat → Bool) : (endSegs s hit).queues = s.queues :=
  forEach_queues segFree_queues s _

@[simp] theorem dropReq_queues (s : State) (key : Nat) : (dropReq s key).queues = s.queues := rfl

@[simp] theorem endRma_queues (s : State) (hit : Nat → Bool) : (endRma s hit).queues = s.queues :=
  forEach_queues dropReq_queues s _

@[simp] theorem endMatch_queues (s : State) (hit : Nat → Bool) : (endMatch s hit).queues = s.queues := rfl

theorem queueReset_queue (s : State) (g q : Nat) : (queueReset s g).queue q = if q = g then {} else s.queue q :=
  queue_updQueue s g q fun _ => {}

/-- A queue in Reset stays there while queues return to Reset. -/
theorem forEach_queueReset_stays (l : List Nat) (s : State) {g : Nat} (h : (s.queue g).st = .reset) :
    ((forEach s l queueReset).queue g).st = .reset :=
  forEach_keeps (fun t => (t.queue g).st = .reset) l queueReset s h fun t ht a _ => by
    rw [queueReset_queue]
    split
    · rfl
    · exact ht

/-- Every queue of the list returns to Reset. -/
theorem forEach_queueReset_listed (l : List Nat) (s : State) {g : Nat} (h : g ∈ l) : ((forEach s l queueReset).queue g).st = .reset := by
  induction l generalizing s with
  | nil => cases h
  | cons a l ih =>
    rcases List.mem_cons.mp h with rfl | h
    · exact forEach_queueReset_stays l _ (by rw [queueReset_queue, if_pos rfl])
    · exact ih (queueReset s a) h

/-- An enabled queue of a function that is reset returns to Reset (R256 step 5). -/
theorem endQueues_reset {s : State} {hit : Nat → Bool} {g : Nat} (hst : (s.queue g).st ≠ .reset) (hhit : hit (s.queue g).func = true) :
    ((endQueues s hit).queue g).st = .reset := by
  refine forEach_queueReset_listed _ s (List.mem_map.mpr ⟨(g, s.queue g), List.mem_filter.mpr ⟨?_, ?_⟩, rfl⟩)
  · exact mem_of_tget_ne fun h => hst (congrArg Queue.st h)
  · rw [queueFunc, if_neg hst]
    exact hhit

/-! ### The rest of what a function had (R256 step 6) -/

/-- Neither the queues, the host attach nor the management slots have changed. -/
structure SameResources (s t : State) : Prop where
  queues : t.queues = s.queues
  host : t.host = s.host
  slots : t.ctl.slots = s.ctl.slots

namespace SameResources

theorem refl (s : State) : SameResources s s := ⟨rfl, rfl, rfl⟩

theorem trans {s t u : State} (h : SameResources s t) (g : SameResources t u) : SameResources s u :=
  ⟨g.queues.trans h.queues, g.host.trans h.host, g.slots.trans h.slots⟩

theorem forEach {α : Type} {f : State → α → State} (h : ∀ t a, SameResources t (f t a)) (s : State) (l : List α) :
    SameResources s (forEach s l f) :=
  forEach_keeps (SameResources s) l f s (refl s) fun t ht a _ => ht.trans (h t a)

theorem collReset (s : State) (func : Nat) : SameResources s (collReset s func) := by
  refine forEach (fun t r => ?_) s _
  split
  · dsimp only
    split <;> exact ⟨rfl, rfl, rfl⟩
  · exact refl t

theorem ringsStopped (s : State) (l : List Nat) :
    SameResources s (Machine.forEach s l fun s r => s.updRing r fun g => { g with stopped := true, records := [] }) :=
  forEach (f := fun s r => s.updRing r fun g => { g with stopped := true, records := [] }) (fun _ _ => ⟨rfl, rfl, rfl⟩) s l

theorem mailboxTargetsReset (s : State) : SameResources s (mailboxReset (resetHostTargets s)) := ⟨rfl, rfl, rfl⟩

end SameResources

/-- The management slots of other functions. -/
def slotsLeft (s : State) (hit : Nat → Bool) : Tbl (Option MgmtSlot) := s.ctl.slots.filter fun c => !(c.2.any fun m => hit m.func)

/-- The MSI-X entries of other functions. -/
def msixLeft (s : State) (hit : Nat → Bool) : Tbl MsixEntry := s.host.msix.filter fun c => !hit (c.1 / 2048)

theorem endOther_leaves (s : State) (hit : Nat → Bool) :
    SameResources { s with ctl := { s.ctl with slots := slotsLeft s hit }, host := { s.host with msix := msixLeft s hit } }
      (endOther s hit) := by
  unfold endOther
  dsimp only
  split
  · refine SameResources.trans ?_ (.mailboxTargetsReset _)
    refine SameResources.trans ?_ (.forEach SameResources.collReset _ _)
    exact .ringsStopped _ _
  · refine SameResources.trans ?_ (.forEach SameResources.collReset _ _)
    exact .ringsStopped _ _

/-- A slot that is left is not of a function that is reset. -/
theorem slotsLeft_func {s : State} {hit : Nat → Bool} {i : Nat} {m : MgmtSlot} (h : tget none (slotsLeft s hit) i = some m) :
    hit m.func = false := by
  have hmem := mem_of_tget_ne (d := none) (t := slotsLeft s hit) (k := i) (by simp [h])
  rw [h] at hmem
  simpa using (List.mem_filter.mp hmem).2

theorem msixLeft_cleared (s : State) {hit : Nat → Bool} {k : Nat} (h : hit (k / 2048) = true) : tget {} (msixLeft s hit) k = {} :=
  tget_filter_dropped _ _ _ _ fun _ => by simp [h]

/-! ### The end of a function's reset (R256) -/

/-- The state in which all but the rest of what the functions had is gone (R256 steps 4 and 5). -/
def queuesEnded (s : State) (hit : Nat → Bool) : State := endQueues (endMatch (endRma (endSegs (endSems s hit) hit) hit) hit) hit

theorem queuesEnded_reset {s : State} {hit : Nat → Bool} {g : Nat} (hst : (s.queue g).st ≠ .reset) (hhit : hit (s.queue g).func = true) :
    ((queuesEnded s hit).queue g).st = .reset := by
  have hq : (endMatch (endRma (endSegs (endSems s hit) hit) hit) hit).queue g = s.queue g := by
    simp only [State.queue, endMatch_queues, endRma_queues, endSegs_queues, endSems_queues]
  rw [← hq] at hst hhit
  exact endQueues_reset hst hhit

/-- The state once a function's reset has ended, and is signalled. -/
def functionResetEnded (s : State) (f : Nat) : State :=
  ((endFunctions s fun k => k = f).updHost fun h => { h with resets := tset none h.resets f none }).event Dict.ATTACH_EVENTS 0 5

theorem functionResetEnded_resets (s : State) (f : Nat) : tget none (functionResetEnded s f).host.resets f = none :=
  tget_tset_self none _ f none

theorem functionResetEnded_event (s : State) (f : Nat) :
    bitAt (evregGet (functionResetEnded s f).mon.evreg Dict.ATTACH_EVENTS 0) 5 = true := Mon.event_bit _ _ _ _ _

theorem functionResetEnded_queues (s : State) (f : Nat) :
    (functionResetEnded s f).queues = (queuesEnded s fun k => k = f).queues := (endOther_leaves _ _).queues

theorem functionResetEnded_msix (s : State) (f : Nat) :
    (functionResetEnded s f).host.msix = msixLeft (queuesEnded s fun k => k = f) fun k => k = f :=
  congrArg HostUnit.msix (endOther_leaves _ _).host

theorem functionResetEnded_slots (s : State) (f : Nat) :
    (functionResetEnded s f).ctl.slots = slotsLeft (queuesEnded s fun k => k = f) fun k => k = f := (endOther_leaves _ _).slots

/-- It leaves the function nothing enabled. -/
theorem functionResetEnded_leaves (s : State) (f : Nat) :
    (∀ g, (s.queue g).st ≠ .reset → (s.queue g).func = f → ((functionResetEnded s f).queue g).st = .reset) ∧
      (∀ k, k / 2048 = f → tget {} (functionResetEnded s f).host.msix k = {}) ∧
      ∀ i m, tget none (functionResetEnded s f).ctl.slots i = some m → m.func ≠ f := by
  refine ⟨fun g hst hg => ?_, fun k hk => ?_, fun i m hm => ?_⟩
  · rw [State.queue, functionResetEnded_queues]
    exact queuesEnded_reset hst (by simp [hg])
  · rw [functionResetEnded_msix]
    exact msixLeft_cleared _ (by simp [hk])
  · rw [functionResetEnded_slots] at hm
    simpa using slotsLeft_func hm

/-! ### The functions' commands (R253, R256) -/

section
variable {s : State} {f : Nat} (hf : f < 1024)
include hf

theorem exec_functionResetRequest (hup : s.host.units ≠ 0) (hp : fnPresent s f = true) :
    exec (.functionResetRequest f) s = .next (requestReset s f) := by
  show execFunctionResetRequest f s = _
  rw [execFunctionResetRequest, if_neg (by omega), if_neg (by simp [hup, hp])]

theorem exec_functionResetComplete {r : FnReset} (hr : tget none s.host.resets f = some r) :
    exec (.functionResetComplete f) s = .next (if r.since ≤ s.time.count ∧ !funcBusy s f then functionResetEnded s f else s) := by
  show execFunctionResetComplete f s = _
  rw [execFunctionResetComplete, if_neg (by omega), hr]
  rfl

theorem exec_functionResetSlow {r : FnReset} (hr : tget none s.host.resets f = some r) :
    exec (.functionResetSlow f) s = .next (if r.since + 1024 ≤ s.time.count ∧ !r.slowLogged then
      (s.raise 0x080A 3 f).updHost fun h => { h with resets := tset none h.resets f (some { r with slowLogged := true }) }
      else s) := by
  show execFunctionResetSlow f s = _
  rw [execFunctionResetSlow, if_neg (by omega), hr]
end

theorem requestReset_new {s : State} {f : Nat} (h : tget none s.host.resets f = none) :
    requestReset s f = s.updHost fun u => { u with resets := tset none u.resets f (some { since := s.time.count + 1 }) } := by
  rw [requestReset, if_neg (by simp [h])]

/-! ### VF Enable (R253, R256) -/

/-- A request changes the resets under way alone, ends none of them, and leaves one for the function. -/
theorem requestReset_resets (s : State) (f : Nat) :
    requestReset s f = { s with host := { s.host with resets := (requestReset s f).host.resets } } ∧
      (∀ k, (tget none s.host.resets k).isSome = true → (tget none (requestReset s f).host.resets k).isSome = true) ∧
      (tget none (requestReset s f).host.resets f).isSome = true := by
  unfold requestReset
  split
  case isTrue h => exact ⟨rfl, fun _ hk => hk, h⟩
  case isFalse =>
    refine ⟨rfl, fun k hk => ?_, ?_⟩
    · rw [State.updHost_host, tget_tset]
      split
      · rfl
      · exact hk
    · rw [State.updHost_host, tget_tset_self]
      rfl

/-- So do requests for a list of functions. -/
theorem forEach_requestReset (l : List Nat) (s : State) :
    forEach s l requestReset = { s with host := { s.host with resets := (forEach s l requestReset).host.resets } } ∧
      ∀ k, k ∈ l ∨ (tget none s.host.resets k).isSome = true → (tget none (forEach s l requestReset).host.resets k).isSome = true := by
  induction l generalizing s with
  | nil => exact ⟨rfl, fun k hk => hk.resolve_left (by simp)⟩
  | cons a l ih =>
    obtain ⟨hframe, hkept, hnew⟩ := requestReset_resets s a
    obtain ⟨hframe', hall⟩ := ih (requestReset s a)
    have hcons : forEach s (a :: l) requestReset = forEach (requestReset s a) l requestReset := rfl
    rw [hcons]
    refine ⟨?_, fun k hk => hall k ?_⟩
    · generalize forEach (requestReset s a) l requestReset = t at hframe'
      rw [hframe', hframe]
    · rcases hk with hk | hk
      · rcases List.mem_cons.mp hk with rfl | hk
        · exact .inr hnew
        · exact .inl hk
      · exact .inr (hkept k hk)

theorem exec_vfEnableWrite_on {s : State} (hup : s.host.units ≠ 0) (hoff : s.host.vfEnable = false) (n : Nat) :
    exec (.vfEnableWrite 1 n) s = .next { s with host := { s.host with vfEnable := true, numVfs := min n 1023 } } := by
  show execVfEnableWrite 1 n s = _
  rw [execVfEnableWrite, if_neg hup, if_pos rfl, hoff]
  rfl

theorem exec_vfEnableWrite_off {s : State} (hup : s.host.units ≠ 0) (hon : s.host.vfEnable = true) (n : Nat) :
    exec (.vfEnableWrite 0 n) s =
      .next ((forEach s ((List.range s.host.numVfs).map (· + 1)) requestReset).updHost fun h => { h with vfEnable := false }) := by
  show execVfEnableWrite 0 n s = _
  rw [execVfEnableWrite, if_neg hup, if_neg (by decide), if_pos hon]

/-- Disabling resets every VF that was enabled. -/
theorem vfEnableWrite_off_resets {s : State} (hup : s.host.units ≠ 0) (hon : s.host.vfEnable = true) (n : Nat) :
    ∃ t, exec (.vfEnableWrite 0 n) s = .next t ∧ t = { s with host := { s.host with vfEnable := false, resets := t.host.resets } } ∧
      ∀ f, 1 ≤ f → f ≤ s.host.numVfs → (tget none t.host.resets f).isSome = true := by
  obtain ⟨hframe, hall⟩ := forEach_requestReset ((List.range s.host.numVfs).map (· + 1)) s
  refine ⟨_, exec_vfEnableWrite_off hup hon n, ?_, fun f h1 hn => hall f (.inl (List.mem_map.mpr ⟨f - 1, List.mem_range.mpr ?_, ?_⟩))⟩
  · generalize forEach s ((List.range s.host.numVfs).map (· + 1)) requestReset = t at hframe
    rw [hframe]
    rfl
  · omega
  · omega

/-- Settles O28, clause by clause. -/
theorem functionResetsAndVfEnable : Obligations.FunctionResetsAndVfEnable := by
  refine ⟨fun s f hf hup hp hnone => ?_, fun s f r hf hr => ⟨fun hdue hidle => ?_, fun hwait => ?_, fun hslow hnew hl => ?_,
    fun hquick => ?_⟩, fun s n hup => ⟨fun hoff => exec_vfEnableWrite_on hup hoff n, fun hon => vfEnableWrite_off_resets hup hon n⟩⟩
  · exact ⟨_, (exec_functionResetRequest hf hup hp).trans (congrArg _ (requestReset_new hnone)), rfl,
      tget_tset_self none s.host.resets f (some { since := s.time.count + 1 }),
      fun k hk => tget_tset_ne none s.host.resets (some { since := s.time.count + 1 }) hk⟩
  · obtain ⟨hqueues, hmsix, hslots⟩ := functionResetEnded_leaves s f
    exact ⟨_, (exec_functionResetComplete hf hr).trans (congrArg _ (if_pos ⟨hdue, by simp [hidle]⟩)), functionResetEnded_resets s f,
      hqueues, hmsix, hslots, functionResetEnded_event s f⟩
  · refine (exec_functionResetComplete hf hr).trans (congrArg _ (if_neg ?_))
    rintro ⟨hdue, hidle⟩
    rcases hwait with hbusy | hearly
    · simp [hbusy] at hidle
    · omega
  · exact ⟨_, (exec_functionResetSlow hf hr).trans (congrArg _ (if_pos ⟨hslow, by simp [hnew]⟩)), rfl, State.raise_logged 0 hl,
      tget_tset_self none s.host.resets f (some { r with slowLogged := true })⟩
  · refine (exec_functionResetSlow hf hr).trans (congrArg _ (if_neg ?_))
    rintro ⟨hslow, hnew⟩
    rcases hquick with hlogged | hearly
    · simp [hlogged] at hnew
    · omega

end Sys2Proof.Machine
end

section
/-!
The device store's Give and Return, the loss of the host, and writes to the BARs (O29).
-/
namespace Sys2Proof.Machine

/-! ### The store's areas (R260) -/

theorem sumOf_concat {α : Type} (l : List α) (x : α) (f : α → Nat) : sumOf (l ++ [x]) f = sumOf l f + f x := by
  rw [sumOf, List.foldl_append]
  rfl

theorem giveCheck_fits {s : State} (h : giveCheck s = 0) : storeFits s = true := by
  unfold giveCheck at h
  split at h
  · cases h
  · split at h
    · cases h
    case isFalse hfits =>
      cases hfit : storeFits s with
      | true => rfl
      | false => exact absurd (.inl (by rw [hfit]; rfl)) hfits

theorem storeFits_last {s : State} (h : storeFits s = true) :
    sumOf (storeHeadAreas s) id + 67108864 ≤ s.reg Dict.ATTACH_STORE_SIZE := by
  simp only [storeFits, Bool.and_eq_true, decide_eq_true_eq] at h
  exact h.2

theorem storeHeadAreas_length (s : State) : (storeHeadAreas s).length = 5 := rfl

theorem getD_concat_length {α : Type} (l : List α) (x d : α) : (l ++ [x]).getD l.length d = x := by
  rw [List.getD_eq_getElem?_getD, List.getElem?_concat_length, Option.getD_some]

/-- What the first five areas leave is the last area. -/
theorem storeSplit_last (s : State) :
    (storeSplit s).getD 5 0 = s.reg Dict.ATTACH_STORE_SIZE - sumOf (storeHeadAreas s) id :=
  getD_concat_length (storeHeadAreas s) _ 0

/-- The six areas of a store that fits fill it, and the last has at least 64 MiB. -/
theorem storeSplit_fills {s : State} (h : storeFits s = true) :
    (storeSplit s).length = 6 ∧ sumOf (storeSplit s) id = s.reg Dict.ATTACH_STORE_SIZE ∧ 67108864 ≤ (storeSplit s).getD 5 0 := by
  have hlast := storeFits_last h
  refine ⟨?_, ?_, ?_⟩
  · rw [storeSplit, List.length_append, storeHeadAreas_length, List.length_singleton]
  · rw [storeSplit, sumOf_concat, id_eq, Nat.add_sub_of_le (Nat.le_of_add_right_le hlast)]
  · rw [storeSplit_last]
    exact Nat.le_sub_of_add_le' hlast

/-! ### Give and Return (R259) -/

theorem storeEnters_unfaulted (s : State) (st : StoreSt) : Unfaulted s (storeEnters s st) := Mon.event_fault _ _ _ _ _

/-- What a Give fixes of the host attach (R259 to R261). -/
theorem applyGive_host (s : State) : (applyGive s).host =
    { s.host with store := .given, storeBase := s.reg Dict.ATTACH_STORE_BASE, storeAreas := storeSplit s, hostLost := false } := rfl

theorem applyGive_queues (s : State) : (applyGive s).queues = { s.queues with mode := s.reg Dict.QUEUE_MODE } := rfl

/-- A Give changes the host attach, the queues' mode and the watching units. -/
theorem applyGive_eq (s : State) :
    applyGive s = { s with host := (applyGive s).host, queues := (applyGive s).queues, mon := (applyGive s).mon } := rfl

/-- The state of an applied write whose effect touched these units. -/
theorem applied_frame {s e : State} (h : e = { s with host := e.host, queues := e.queues, mon := e.mon }) :
    ((e.applied.wrote 0).latched) =
      { s with
        host := e.host, queues := e.queues, mon := e.applied.mon
        ctl := { s.ctl with writeStatus := 0, applyLast := s.time.count }, latch := (e.applied.wrote 0).toChip } := by
  generalize e.host = u, e.queues = q, e.mon = m at h
  subst h
  rfl

theorem giveCheck_down {s : State} (h : s.host.units = 0) : giveCheck s = 0x0C := if_pos (.inr h)

section
variable {s : State} (hc : coreUp s = true)
include hc

theorem exec_storeGive_accepted (h : giveCheck s = 0) :
    exec .storeGive s = .next (((applyGive s).applied.wrote 0).latched) := by
  show judged s (giveCheck s) (applyGive s) = _
  rw [h, judged_accepts hc]

theorem exec_storeGive_refused (h : giveCheck s ≠ 0) : exec .storeGive s = .next ((s.count 0x082).wrote (giveCheck s)) :=
  judged_refuses hc h

theorem exec_storeReturn_accepted (h : returnCheck s = 0) :
    exec .storeReturn s = .next (((storeEnters s .returning).applied.wrote 0).latched) := by
  show judged s (returnCheck s) (storeEnters s .returning) = _
  rw [h, judged_accepts hc]

theorem exec_storeReturn_refused (h : returnCheck s ≠ 0) : exec .storeReturn s = .next ((s.count 0x082).wrote (returnCheck s)) :=
  judged_refuses hc h

/-- A Give that passes its checks fixes the store's base, areas and mode (R259, R260, R266). -/
theorem storeGive_gives (h : giveCheck s = 0) :
    ∃ t, exec .storeGive s = .next t ∧ WriteApplied s t ∧ Unfaulted s t ∧ t.host.store = .given ∧ t.host.hostLost = false ∧
      t.host.storeBase = s.reg Dict.ATTACH_STORE_BASE ∧ t.host.storeAreas.length = 6 ∧
      sumOf t.host.storeAreas id = s.reg Dict.ATTACH_STORE_SIZE ∧ 67108864 ≤ t.host.storeAreas.getD 5 0 ∧
      t.queues = { s.queues with mode := s.reg Dict.QUEUE_MODE } ∧
      t = { s with host := t.host, queues := t.queues, mon := t.mon, ctl := t.ctl, latch := t.latch } := by
  obtain ⟨hlength, hsum, hlast⟩ := storeSplit_fills (giveCheck_fits h)
  have hhost := applyGive_host s
  exact ⟨_, exec_storeGive_accepted hc h, ⟨rfl, rfl⟩, (Mon.count_fault _ _ _ _ _).trans (Mon.event_fault _ _ _ _ _),
    congrArg HostUnit.store hhost, congrArg HostUnit.hostLost hhost, congrArg HostUnit.storeBase hhost,
    (congrArg (fun u : HostUnit => u.storeAreas.length) hhost).trans hlength,
    (congrArg (fun u : HostUnit => sumOf u.storeAreas id) hhost).trans hsum,
    Nat.le_trans hlast (Nat.le_of_eq (congrArg (fun u : HostUnit => u.storeAreas.getD 5 0) hhost.symm)), applyGive_queues s,
    applied_frame (applyGive_eq s)⟩

/-- A Return that passes its checks changes the store's state. -/
theorem storeReturn_returns (h : returnCheck s = 0) :
    ∃ t, exec .storeReturn s = .next t ∧ WriteApplied s t ∧ Unfaulted s t ∧ t.host = { s.host with store := .returning } ∧
      t = { s with host := t.host, mon := t.mon, ctl := t.ctl, latch := t.latch } :=
  ⟨_, exec_storeReturn_accepted hc h, ⟨rfl, rfl⟩, (Mon.count_fault _ _ _ _ _).trans (storeEnters_unfaulted _ _), rfl, rfl⟩
end

theorem writeRefused_counted (s : State) (status : Nat) : WriteRefused s ((s.count 0x082).wrote status) status :=
  ⟨rfl, Mon.count_fault _ _ _ _ _⟩

theorem returnCheck_idle {s : State} (hgiven : s.host.store = .given) (hq : ∀ c ∈ s.queues.qs, c.2.st = .reset)
    (hp : ∀ p, p < 96 → (s.link p).st ≠ .admitted) : returnCheck s = 0 := by
  have hqueues : (s.queues.qs.any fun c => c.2.st ≠ .reset) = false := by simpa using hq
  have hports : (fabricPorts.any fun p => (s.link p).st = .admitted) = false := by simpa [fabricPorts] using hp
  rw [returnCheck, hqueues, hports, if_neg (by simp [hgiven])]

theorem returnCheck_notGiven {s : State} (h : s.host.store ≠ .given) : returnCheck s = 0x0C := if_pos (.inl h)

theorem exec_storeReturnDone {s : State} (h : s.host.store = .returning) : exec .storeReturnDone s = .next (storeEnters s .absent) :=
  congrArg _ (if_pos h)

/-! ### Losing the host (R261) -/

theorem exec_hostDieReset {s : State} (h : s.host.units ≠ 0) :
    exec .hostDieReset s = .next { s with host := { s.host with dieDue := true } } :=
  congrArg _ (if_neg h)

/-! ### Writes to the BARs (R257) -/

/-- A host access to a BAR of a present function reaches the running core while the link is Up. -/
theorem mmio_reaches {s : State} {func : Nat} (hf : func < 1024) (hup : s.host.units ≠ 0) (hp : fnPresent s func = true)
    (hc : coreUp s = true) (t : State) : mmio s func t = .next t := by
  rw [mmio, if_neg (by omega), if_neg (by simp [hup, hp]), if_pos hc]

/-- Where a local queue's register block begins in BAR0. -/
def queueBlock (lq : Nat) : Nat := 0x100000 + 4096 * (lq / 64) + 64 * (lq % 64)

/-- The first word of a queue's block is its producer doorbell. -/
theorem bar0Word_producer {s : State} {func lq g : Nat} (hg : globalQueue s func lq = some g) (v : Nat) :
    bar0Word s func (queueBlock lq) v = some (doorbell s g v) := by
  have hvec : vectorsOf func ≤ 2048 := by unfold vectorsOf; split <;> decide
  have hqueue : (queueBlock lq - 0x100000) / 4096 * 64 + (queueBlock lq - 0x100000) % 4096 / 64 = lq := by
    unfold queueBlock; omega
  have hword : (queueBlock lq - 0x100000) % 64 = 0 := by unfold queueBlock; omega
  have hbase : 0x100000 ≤ queueBlock lq := by unfold queueBlock; omega
  rw [bar0Word, if_neg (by omega), if_neg (by omega), if_neg (by omega), if_neg (by omega), if_neg (by omega), if_neg (by omega),
    if_pos hbase, queueWord, hqueue, hg, hword]
  rfl

/-- A write of one word is that word's write. -/
theorem barWords_one (f : State → Nat → Nat → Option State) (s : State) (off : Nat) {data : List Byte} (h : data.length = 4) :
    barWords f s off data = f s off (natLE data) := by
  rw [barWords, List.take_of_length_le (by omega)]
  cases f s off (natLE data) with
  | none => rfl
  | some t => exact if_pos h

theorem formOk_word {off : Nat} {data : List Byte} (h : data.length = 4) (ho : off % 4 = 0) : formOk off data = true := by
  simp [formOk, h, ho]

theorem barWrite_producer {s : State} {func lq g : Nat} {data : List Byte} (hg : globalQueue s func lq = some g) (h : data.length = 4) :
    barWrite s func 0 (queueBlock lq) data = doorbell s g (natLE data) := by
  have hform := formOk_word (off := queueBlock lq) h (by unfold queueBlock; omega)
  rw [barWrite, hform, barWords_one _ _ _ h, bar0Word_producer hg]
  rfl

/-- An access form that BAR0 and BAR4 do not accept is refused. -/
theorem barWrite_badForm {s : State} {func bar off : Nat} {data : List Byte} (hb : bar = 0 ∨ bar = 4) (h : formOk off data = false) :
    barWrite s func bar off data = mmioRefused s func := by
  rcases hb with rfl | rfl <;> (rw [barWrite, h]; rfl)

theorem exec_mmioWrite {s : State} {func : Nat} (hf : func < 1024) (hup : s.host.units ≠ 0) (hp : fnPresent s func = true)
    (hc : coreUp s = true) (bar off : Nat) (data : List Byte) :
    exec (.mmioWrite func bar off data) s = .next (barWrite s func bar off data) :=
  mmio_reaches hf hup hp hc _

/-- Settles O29, clause by clause. -/
theorem storeHostLossAndBarWrites : Obligations.StoreHostLossAndBarWrites := by
  refine ⟨fun s hc => ⟨fun h => storeGive_gives hc h, fun hdown => ?_, fun hgiven hq hp => ?_, fun h => ?_⟩, fun s h => ?_,
    fun s h => exec_hostDieReset h, fun s func lq g data hheld hlen => ?_, fun s func bar off data hf hc hup hp hb hform hl => ?_⟩
  · have hcheck := giveCheck_down hdown
    refine ⟨_, exec_storeGive_refused hc (by rw [hcheck]; decide), ?_⟩
    rw [hcheck]
    exact writeRefused_counted s 0x0C
  · exact storeReturn_returns hc (returnCheck_idle hgiven hq hp)
  · have hcheck := returnCheck_notGiven h
    refine ⟨_, exec_storeReturn_refused hc (by rw [hcheck]; decide), ?_⟩
    rw [hcheck]
    exact writeRefused_counted s 0x0C
  · exact ⟨_, exec_storeReturnDone h, storeEnters_unfaulted s .absent, rfl, rfl⟩
  · obtain ⟨hf, hup, hp, hc, hg⟩ := hheld
    exact ⟨_, (exec_mmioWrite hf hup hp hc 0 (queueBlock lq) data).trans (congrArg _ (barWrite_producer hg hlen)), rfl⟩
  · exact ⟨_, (exec_mmioWrite hf hup hp hc bar off data).trans (congrArg _ (barWrite_badForm hb hform)), rfl,
      State.raise_logged_after (Mon.count_fault _ _ _ _ _) rfl hl⟩

end Sys2Proof.Machine
end
